-- ==== Sys2Proof/Word.lean ====
section
/-! DEFINITION. The data sizes of R4 as bit vectors. -/

namespace Sys2Proof

/-- Byte, 8 bits (R4). -/
abbrev Byte := BitVec 8
/-- Half, 16 bits (R4). -/
abbrev Half := BitVec 16
/-- Word, 32 bits (R4). -/
abbrev Word := BitVec 32
/-- Dword, 64 bits (R4). -/
abbrev Dword := BitVec 64

end Sys2Proof
end

