-- ==== Sys2Proof/Machine/Bits.lean ====
section
/-! DEFINITION. Bit fields, sign extension, byte order and counts over naturals (R3, R56). -/

namespace Sys2Proof.Machine

/-- The `n`-bit field of `w` whose lowest bit is `lo` (R3). -/
def fld (w lo n : Nat) : Nat := w / 2 ^ lo % 2 ^ n

/-- The low `w` bits of `x`, read as two's complement (R56). -/
def sx (w x : Nat) : Int :=
  if x % 2 ^ w < 2 ^ (w - 1) then (x % 2 ^ w : Nat) else ((x % 2 ^ w : Nat) : Int) - (2 ^ w : Nat)

/-- `i` modulo 2^w (R57). -/
def wrap (w : Nat) (i : Int) : Nat := (i % (2 ^ w : Nat)).toNat

/-- 64-bit address arithmetic (R172). -/
def wrap64 (i : Int) : Nat := wrap 64 i

/-- The `n` low bytes of `x`, least significant first (R3). -/
def bytesOf : Nat → Nat → List Byte
  | 0, _ => []
  | n + 1, x => BitVec.ofNat 8 x :: bytesOf n (x / 256)

/-- The value of little-endian bytes (R3). -/
def ofBytes : List Byte → Nat
  | [] => 0
  | b :: bs => b.toNat + 256 * ofBytes bs

/-- The number of ones among the low `w` bits. -/
def popCount : Nat → Nat → Nat
  | 0, _ => 0
  | w + 1, x => x % 2 + popCount w (x / 2)

/-- The low `w` bits in reverse order. -/
def bitRev : Nat → Nat → Nat
  | 0, _ => 0
  | w + 1, x => (x % 2) * 2 ^ w + bitRev w (x / 2)

/-- The number of leading zeros among the low `w` bits (`w` for zero). -/
def countLz (w x : Nat) : Nat := if x % 2 ^ w = 0 then w else w - 1 - (x % 2 ^ w).log2

/-- The numbers below `n` whose bit is set in the mask, ascending. -/
def bitsOf (n mask : Nat) : List Nat := (List.range n).filter (fun i => mask.testBit i)

/-- The mask with exactly the listed bits set. -/
def maskOf (l : List Nat) : Nat := l.foldl (fun m i => m ||| 2 ^ i) 0

/-- `a` without the bits of `b`. -/
def maskDiff (a b : Nat) : Nat := a ^^^ (a &&& b)

/-- The lowest set bit below `n`. -/
def lowBit (n mask : Nat) : Option Nat := (bitsOf n mask).head?

/-- The canonical addresses of R173: bits [63:57] all equal bit 56. -/
def canonical (a : Nat) : Bool := fld a 56 8 = 0 || fld a 56 8 = 255

/-- ⌈a / b⌉. -/
def ceilDiv (a b : Nat) : Nat := (a + b - 1) / b

/-- Ranges of `n` bytes at `a` and of `m` bytes at `b` share a byte. -/
def overlaps (a n b m : Nat) : Bool := decide (0 < n) && decide (0 < m) && decide (a < b + m) && decide (b < a + n)

/-- Split a byte list into dwords (R3). -/
def dwordsOf : Nat → List Byte → List Nat
  | 0, _ => []
  | n + 1, bs => ofBytes (bs.take 8) :: dwordsOf n (bs.drop 8)

/-- Dword `i` of a list of dwords, 0 where absent. -/
def dw (l : List Nat) (i : Nat) : Nat := l.getD i 0

/-- Dword `i` of a command, 0 where absent. -/
def cdw (l : List Dword) (i : Nat) : Nat := (l.getD i 0).toNat

end Sys2Proof.Machine
end

