-- ==== Sys2Proof/Syntax.lean ====
section
/-! DEFINITION. The instructions and events of spec/opcode_table.json: one constructor of `Instr` per row.
Code rows carry the operands their slot word encodes; event rows carry what the event brings from outside. -/

namespace Sys2Proof

/-- Element types (R8), in the order of the TYPE codes of R86. -/
inductive Ty where
  | b32 | i8 | i16 | i32 | i64 | n8 | n16 | n32 | n64 | f64 | f32 | f16 | bf16 | e4m3 | e5m2 | e2m1
  deriving DecidableEq, Repr, Inhabited

/-- Rounding modes (R69), in the order of the RM codes of R86. -/
inductive Rm where
  | rne | rz | rup | rdn | rs
  deriving DecidableEq, Repr, Inhabited

/-- Memory scopes (R9), in the order of the SCOPE codes of R90. -/
inductive Scope where
  | none | gang | grp | clu | dev | sys
  deriving DecidableEq, Repr, Inhabited

/-- The ORD codes of R90. -/
inductive Order where
  | plain | acq | rel | ar
  deriving DecidableEq, Repr, Inhabited

/-- A guard predicate, read negated when `neg` (R94). -/
structure Guard where
  p : Fin 32
  neg : Bool
  deriving DecidableEq, Repr, Inhabited

/-- Operand codes (R87). -/
inductive Opd where
  | v (n : Fin 256)
  | s (n : Fin 64)
  | l0
  | l1
  | q
  | idx (n : Fin 6)
  | imm (i : BitVec 9)
  deriving DecidableEq, Repr, Inhabited

/-- A vector instruction with one source. -/
structure V1 where
  ty : Ty
  rm : Rm
  sat : Bool
  g : Guard
  d : Fin 256
  a : Opd
  deriving DecidableEq, Repr

/-- A vector instruction with two sources. -/
structure V2 where
  ty : Ty
  rm : Rm
  sat : Bool
  g : Guard
  d : Fin 256
  a : Opd
  b : Opd
  deriving DecidableEq, Repr

/-- A vector instruction with three sources. -/
structure V3 where
  ty : Ty
  rm : Rm
  sat : Bool
  g : Guard
  d : Fin 256
  a : Opd
  b : Opd
  c : Opd
  deriving DecidableEq, Repr

/-- Conditions of VCMP (R155), in the order of XM[2:0]. -/
inductive Cond where
  | eq | ne | lt | le | gt | ge | un | ord
  deriving DecidableEq, Repr

/-- VCMP (R155). `h1` selects packed element 1. -/
structure VCmp where
  ty : Ty
  g : Guard
  pd : Fin 32
  a : Opd
  b : Opd
  cc : Cond
  h1 : Bool
  deriving DecidableEq, Repr

/-- VSEL (R156). -/
structure VSel where
  ty : Ty
  g : Guard
  d : Fin 256
  a : Opd
  b : Opd
  pc : Fin 32
  neg : Bool
  deriving DecidableEq, Repr

/-- VCVT (R159): destination type `dt`, source type `st`. -/
structure VCvt where
  dt : Ty
  st : Ty
  rm : Rm
  sat : Bool
  g : Guard
  d : Fin 256
  a : Opd
  deriving DecidableEq, Repr

/-- VPACK (R160). `c` is used by 8-bit destinations; it is V0 (field 0) otherwise. -/
structure VPack where
  dt : Ty
  st : Ty
  rm : Rm
  sat : Bool
  g : Guard
  d : Fin 256
  a : Opd
  b : Opd
  c : Opd
  deriving DecidableEq, Repr

/-- VUNPK (R161): element index `j`, block header `h` (V0, field 0, unless the source is `.e2m1`). -/
structure VUnpk where
  dt : Ty
  st : Ty
  rm : Rm
  sat : Bool
  g : Guard
  d : Fin 256
  a : Opd
  j : Opd
  h : Opd
  deriving DecidableEq, Repr

/-- VQNT (R163): blocks of 32 lanes when `k32`, else of 16. -/
structure VQnt where
  rm : Rm
  g : Guard
  d : Fin 256
  a : Opd
  k32 : Bool
  deriving DecidableEq, Repr

/-- VOTE modes (R165). -/
inductive VoteMode where
  | all | any | uni
  deriving DecidableEq, Repr

/-- VOTE (R165). -/
structure VVote where
  mode : VoteMode
  g : Guard
  pd : Fin 32
  pa : Fin 32
  neg : Bool
  deriving DecidableEq, Repr

/-- VBALLOT (R166). -/
structure VBallot where
  g : Guard
  sd : Fin 64
  pa : Fin 32
  neg : Bool
  deriving DecidableEq, Repr

/-- SHFL (R167): the result predicate is P(16 + `e`). -/
structure VShfl where
  ty : Ty
  g : Guard
  d : Fin 256
  a : Opd
  sel : Opd
  f : Opd
  e : Fin 16
  deriving DecidableEq, Repr

/-- VRED operations (R168). -/
inductive RedOp where
  | add | min | max | and | or | xor
  deriving DecidableEq, Repr

/-- VRED (R168). -/
structure VRed where
  op : RedOp
  ty : Ty
  rm : Rm
  g : Guard
  d : Fin 256
  a : Opd
  deriving DecidableEq, Repr

/-- The address operands of R172: base register, per-lane index, index scale 2^`sc`. -/
structure Addr where
  base : Fin 64
  index : Opd
  sc : Fin 4
  deriving DecidableEq, Repr

/-- LD and LDSP. -/
structure MLoad where
  ty : Ty
  scope : Scope
  ord : Order
  g : Guard
  at_ : Addr
  off : BitVec 12
  ro : Bool
  deriving DecidableEq, Repr

/-- ST and STSP. -/
structure MStore where
  ty : Ty
  scope : Scope
  ord : Order
  g : Guard
  data : Opd
  at_ : Addr
  off : BitVec 12
  deriving DecidableEq, Repr

/-- PREF. -/
structure MPref where
  g : Guard
  at_ : Addr
  off : BitVec 12
  ro : Bool
  deriving DecidableEq, Repr

/-- Atomic operations (R183), in the order of their codes. -/
inductive AtomOp where
  | add | min | max | and | or | xor | exch | cas | fadd | fmin | fmax
  deriving DecidableEq, Repr, Inhabited

/-- ATOM, ATOMQ and ATOMSP. -/
structure MAtom where
  op : AtomOp
  ty : Ty
  scope : Scope
  ord : Order
  g : Guard
  data : Opd
  at_ : Addr
  off : BitVec 8
  deriving DecidableEq, Repr

/-- FENCE (R186): the status lands in S`sd`. -/
structure MFence where
  scope : Scope
  ord : Order
  sd : Fin 64
  deriving DecidableEq, Repr

/-- A baton handle field of R90: a valid bit and K0 to K7. -/
structure KRef where
  valid : Bool
  k : Fin 8
  deriving DecidableEq, Repr

/-- STB and STK. STB has `kd` valid; STK has `ka` valid and `kd` invalid. -/
structure MBaton where
  ty : Ty
  scope : Scope
  ord : Order
  g : Guard
  data : Opd
  at_ : Addr
  ka : KRef
  kb : KRef
  kd : KRef
  deriving DecidableEq, Repr

/-- BWAIT. -/
structure MBwait where
  ka : KRef
  kb : KRef
  kd : KRef
  deriving DecidableEq, Repr

/-- STRM (R196). -/
structure MStrm where
  ty : Ty
  base : Fin 64
  off : BitVec 12
  deriving DecidableEq, Repr

/-- FPUT (R201). -/
structure MFput where
  ty : Ty
  scope : Scope
  g : Guard
  data : Opd
  at_ : Addr
  off : BitVec 12
  deriving DecidableEq, Repr

/-- FWAIT (R202): `take` is the `.ar` form. -/
structure MFwait where
  ty : Ty
  scope : Scope
  take : Bool
  g : Guard
  at_ : Addr
  off : BitVec 12
  deriving DecidableEq, Repr

/-- BCMIN (R203). -/
structure MBcmin where
  g : Guard
  data : Opd
  w : Fin 16
  deriving DecidableEq, Repr

/-- BCRD (R203). -/
structure MBcrd where
  ty : Ty
  g : Guard
  w : Fin 16
  deriving DecidableEq, Repr

/-- A completion flag, set at completion when `fe` (R209). -/
structure Flag where
  fe : Bool
  k : Fin 16
  deriving DecidableEq, Repr, Inhabited

/-- MMA (R214). -/
structure XMma where
  g : Guard
  f : Flag
  sx : Fin 64
  sy : Fin 64
  va : Fin 256
  zt : Fin 16
  ru : Bool
  deriving DecidableEq, Repr

/-- MMAC (R221). -/
structure XMmac where
  g : Guard
  f : Flag
  sx : Fin 64
  sy : Fin 64
  va : Fin 256
  zt : Fin 16
  zu : Fin 16
  set : Fin 16
  half : Fin 2
  deriving DecidableEq, Repr

/-- ZLD (R219). -/
structure XZld where
  g : Guard
  f : Flag
  sx : Fin 64
  sz : Fin 64
  zt : Fin 16
  deriving DecidableEq, Repr

/-- ZST and ZRET modes 01 and 10 (R219); `scope` is `.none` except for mode 10. -/
structure XZst where
  g : Guard
  f : Flag
  sx : Fin 64
  sy : Fin 64
  sz : Fin 64
  zt : Fin 16
  scope : Scope
  deriving DecidableEq, Repr

/-- ZCLR (R219). -/
structure XZclr where
  g : Guard
  f : Flag
  zt : Fin 16
  deriving DecidableEq, Repr

/-- ZRET mode 00 (R219). -/
structure XZret where
  f : Flag
  zt : Fin 16
  deriving DecidableEq, Repr

/-- CPY and CPYR (R225). -/
structure XCpy where
  f : Flag
  sx : Fin 64
  sy : Fin 64
  sz : Fin 64
  scope : Scope
  deriving DecidableEq, Repr

/-- HSET (R233). -/
structure XHset where
  f : Flag
  sx : Fin 64
  sy : Fin 64
  deriving DecidableEq, Repr

/-- A word offset of BR and CALL: in BODY, or in EXT with LONG (R120). -/
inductive Off20 where
  | short (o : BitVec 20)
  | long (o : BitVec 32)
  deriving DecidableEq, Repr

/-- A word offset of BSZ and BSNZ (R120). -/
inductive Off14 where
  | short (o : BitVec 14)
  | long (o : BitVec 32)
  deriving DecidableEq, Repr

/-- A word offset of LBRK (R132). -/
inductive Off16 where
  | short (o : BitVec 16)
  | long (o : BitVec 32)
  deriving DecidableEq, Repr

/-- The count of LOOP (R132). -/
inductive LoopCount where
  | imm (c : BitVec 16)
  | ext (c : BitVec 32)
  | reg (a : Fin 64)
  deriving DecidableEq, Repr

/-- PAND, POR and PXOR (R138). -/
structure PBin where
  d : Fin 32
  a : Fin 32
  b : Fin 32
  na : Bool
  nb : Bool
  deriving DecidableEq, Repr

/-- The second source of a scalar instruction (R139). -/
inductive SSrc where
  | reg (b : Fin 64)
  | imm (i : BitVec 7)
  | ext (i : BitVec 32)
  deriving DecidableEq, Repr

/-- A scalar instruction (R139). -/
structure SBin where
  d : Fin 64
  a : Fin 64
  b : SSrc
  deriving DecidableEq, Repr

/-- The destination of SYSRD (R236). -/
inductive SysDst where
  | s (d : Fin 64)
  | v (d : Fin 256)
  deriving DecidableEq, Repr

/-- A 16-bit immediate or a register (MARK, SPRINT; R236). -/
inductive Src16 where
  | imm (n : BitVec 16)
  | reg (x : Fin 64)
  deriving DecidableEq, Repr

/-- A 3-bit immediate or a register (PWRACQ; R236). -/
inductive Src3 where
  | imm (n : BitVec 3)
  | reg (x : Fin 64)
  deriving DecidableEq, Repr

/-- SYNC levels (R236). -/
inductive SyncLevel where
  | grp (n : Fin 16)
  | clu
  | dev
  deriving DecidableEq, Repr

/-- A barrier instance (R324): of a group, of a context's cluster, of a context's package. -/
inductive BarRef where
  | grp (group n : Nat)
  | clu (ctx cluster n : Nat)
  | dev (ctx n : Nat)
  deriving DecidableEq, Repr, Inhabited

/-- What a fabric transaction asks of its destination (R367). -/
inductive RemoteOp where
  /-- Read `n` bytes at the physical address. -/
  | read (pa n : Nat)
  /-- Write bytes: each (physical address, byte). -/
  | write (bytes : List (Nat × BitVec 8))
  /-- Atomics on one location in ascending lane order: operand pairs (data, new value of `.cas`). -/
  | atomic (op : AtomOp) (ty : Ty) (pa : Nat) (ds : List (Nat × Nat))
  /-- Write to the scratchpad of the group named by a token (R228): bytes at their offsets, and the hurdle's offset with
  the number of bytes to count when counting. -/
  | push (token : Nat) (bytes : List (Nat × BitVec 8)) (hurdle : Option (Nat × Nat))
  /-- Read `n` bytes at an offset of the scratchpad of the group named by a token. -/
  | pull (token off n : Nat)
  /-- Ask for the lock of a remote extent before a CPYR (R228): the issuer's launch as context, queue and sequence number; token, first
  byte, length, destination side, hurdle. -/
  | lock (launch : Nat × Nat × Nat) (token off n : Nat) (dest : Bool) (hurdle : Option Nat)
  /-- The CPYR has ended and the remote range is unlocked. -/
  | unlock (token off n : Nat)
  /-- A transaction of a kind that R355 does not list as supported. -/
  | other
  /-- A message whose TYPE R353 does not list. -/
  | message (type : Nat)
  deriving DecidableEq, Repr, Inhabited

/-- A transaction that reaches this package (R360, R364, R367, R368). -/
structure RemoteReq where
  srcPkg : Nat
  srcInc : Nat
  dstInc : Nat
  tag : Nat
  op : RemoteOp
  /-- Baton numbers a carried store names (R364). -/
  carries : List Nat
  /-- The issuing context's hold bound in µs (R364). -/
  hold : Nat
  /-- The issuing gang's identity at the issuer: carried stores of one gang apply in order (R364). -/
  gang : Nat
  crcOk : Bool
  /-- Which use of its tag the request is: a request that is sent again has the number of its first attempt (R368) (log entry 86,
  DEDUCED). -/
  number : Nat
  deriving DecidableEq, Repr, Inhabited

/-- The outcome an answer carries (R228, R364, R367). -/
inductive AnsKind where
  | done (data : List (BitVec 8))
  /-- Performed but for its write, which was dropped at a POISONED page (R354). -/
  | lost (data : List (BitVec 8))
  | refused
  | locked
  | busy
  /-- A negative answer: the transaction failed its check at the destination (R354). -/
  | negative
  deriving DecidableEq, Repr, Inhabited

/-- An answer that reaches this package (R360, R367). `poison` marks the 32-byte sectors of its data, by their place in their
256-byte block (R354). -/
structure RemoteAns where
  srcPkg : Nat
  srcInc : Nat
  dstInc : Nat
  tag : Nat
  ans : AnsKind
  poison : Nat
  crcOk : Bool
  deriving DecidableEq, Repr, Inhabited

/-- A fabric message: the tag of its request, and its payload (R353). -/
structure Msg where
  tag : Nat
  /-- Which use of its tag it is, as a request's (R368). -/
  number : Nat
  srcInc : Nat
  srcPkg : Nat
  dstPkg : Nat
  dstInc : Nat
  seq : Nat
  addr : Nat
  time : Nat
  /-- The message passes its check at the destination (R354). -/
  crcOk : Bool
  deriving DecidableEq, Repr, Inhabited

/-- A carried store whose hold bound passes (R364, R365): held here, or not yet held and known at the issuer. -/
inductive HoldRef where
  | held (id : Nat)
  | unheld (req : Nat)
  deriving DecidableEq, Repr, Inhabited

/-- Where a storage error is found (R383). -/
inductive ErrSite where
  /-- Site 1: pool SRAM: a V register of a lane of a gang, a scratchpad word of a group at a byte offset, a tile word of a group. -/
  | poolV (gang lane reg : Nat) | poolSpad (group off : Nat) | poolZ (group tile row col : Nat)
  /-- Site 2: the read-only L1 of a core, line holding a physical address. -/
  | l1 (core pa : Nat)
  /-- Site 3: L2 data and tags, at a physical address. -/
  | l2 (pa : Nat)
  /-- Site 4: HBM, at a physical address. -/
  | hbm (pa : Nat)
  /-- Site 5: TLB entries of a core's or die's TLB for a page of a context. -/
  | tlb (ctx vpage : Nat)
  /-- Site 6: a page table read by a walker for a gang. -/
  | table (gang : Nat)
  /-- Site 7: lane-set tables, loop stacks, queues, flags of a gang. -/
  | gangState (gang : Nat)
  /-- Site 8: a baton table entry. -/
  | baton (seq : Nat)
  /-- Site 8: a hold queue entry. -/
  | hold (id : Nat)
  /-- No site of R383: every attempt of the next transaction of a die on a die-to-die path fails its check (R21, R354). The hub die is
  number 4. -/
  | dieToDie (die : Nat)
  deriving DecidableEq, Repr

/-- The signed records in flash (R395): the unit map, the voltage trims, and HBM repair for each stack. -/
inductive RecordKind where
  | unitMap | trims
  | repair (stack : Fin 8)
  deriving DecidableEq, Repr, Inhabited

/-- A record's type (R395). -/
def RecordKind.code : RecordKind → Nat
  | .unitMap => 1 | .trims => 2 | .repair _ => 3

/-- A signed record as flash holds it (R395): whether its signature verifies, its version, and what it says: the cluster-site masks of
the four dies (R396), the dies' budgets (R389), or the repair of a stack. -/
structure SignedRecord where
  kind : RecordKind
  signed : Bool
  version : Nat
  content : List Nat
  deriving DecidableEq, Repr, Inhabited

/-- What the security core finds at stage 0 (R393 to R396): the records that flash holds, in the order in which it verifies them, and the
stack that fails to train, if any. -/
structure BootResult where
  records : List SignedRecord
  untrained : Option (Fin 8)
  deriving DecidableEq, Repr, Inhabited

/-- The SPDM requests of R401, and any other request code. -/
inductive SpdmReq where
  | getVersion | getCapabilities | negotiateAlgorithms | getDigests | getCertificate | challenge
  | getMeasurements (index : Nat)
  | other (code : Nat)
  deriving DecidableEq, Repr

/-- A register reached by a plain register write (R290, R402). -/
inductive RegAddr where
  /-- An offset in BAR0. -/
  | bar0 (off : Nat)
  /-- An offset in the BAR2 of a function (R399). -/
  | bar2 (fn off : Nat)
  deriving DecidableEq, Repr, Inhabited

/-- One constructor per row of spec/opcode_table.json, in the table's order. -/
inductive Instr where
  | emptyRun (gap : Fin 16) (run : Fin 64) (regang check : Bool)
  | vadd (o : V2) | vsub (o : V2) | vmul (o : V2) | vmulh (o : V2) | vmad (o : V3)
  | vmin (o : V2) | vmax (o : V2) | vabs (o : V1) | vneg (o : V1)
  | vand (o : V2) | vor (o : V2) | vxor (o : V2) | vnot (o : V1)
  | vshl (o : V2) | vshr (o : V2) | vrot (o : V2) | vbfx (o : V2) | vbfi (o : V3)
  | vpopc (o : V1) | vclz (o : V1) | vbrev (o : V1)
  | vfadd (o : V2) | vfsub (o : V2) | vfmul (o : V2) | vfma (o : V3)
  | vfmin (o : V2) | vfmax (o : V2) | vfabs (o : V1) | vfneg (o : V1)
  | vrcp (o : V1) | vrsq (o : V1) | vsqrt (o : V1) | vexp2 (o : V1) | vlog2 (o : V1)
  | vsin (o : V1) | vcos (o : V1) | vtanh (o : V1)
  | vcmp (o : VCmp) | vsel (o : VSel) | vmov (o : V1)
  | vcvt (o : VCvt) | vpack (o : VPack) | vunpk (o : VUnpk) | vqnt (o : VQnt)
  | vote (o : VVote) | vballot (o : VBallot) | shfl (o : VShfl) | vred (o : VRed)
  | ld (o : MLoad) | st (o : MStore) | ldsp (o : MLoad) | stsp (o : MStore) | pref (o : MPref)
  | atom (o : MAtom) | atomq (o : MAtom) | atomsp (o : MAtom)
  | fence (o : MFence) | stb (o : MBaton) | stk (o : MBaton) | bwait (o : MBwait)
  | strm (o : MStrm) | strmx
  | fput (o : MFput) | fwait (o : MFwait) | bcmin (o : MBcmin) | bcrd (o : MBcrd)
  | mma (o : XMma) | mmac (o : XMmac) | zld (o : XZld) | zst (o : XZst) | zclr (o : XZclr)
  | zret (o : XZret) | zretSp (o : XZst) | zretG (o : XZst)
  | cpy (o : XCpy) | cpyr (o : XCpy) | cpseal (f : Flag) | cpwait (n : Fin 16) | hset (o : XHset)
  | br (g : Guard) (off : Off20) | jmpr (a : Fin 64) | call (off : Off20) | callr (a : Fin 64)
  | ret (a : Fin 64) | exit | bsz (a : Fin 64) (off : Off14) | bsnz (a : Fin 64) (off : Off14)
  | loop (n : Fin 8) (c : LoopCount) | endl (n : Fin 8) | lbrk (n : Fin 8) (off : Off16)
  | waitf (mask : BitVec 16) (any : Bool) | testf (d : Fin 32) (neg : Bool) (mask : BitVec 16) (any : Bool)
  | clrf (mask : BitVec 16)
  | pand (o : PBin) | por (o : PBin) | pxor (o : PBin)
  | sadd (o : SBin) | ssub (o : SBin) | smul (o : SBin) | sand (o : SBin) | sor (o : SBin) | sxor (o : SBin)
  | sshl (o : SBin) | sshr (o : SBin) | ssra (o : SBin) | smin (o : SBin) | smax (o : SBin)
  | smov (d : Fin 64) (b : SSrc)
  | sysrd (g : Guard) (dst : SysDst) (num : BitVec 8) | syswr (g : Guard) (num : BitVec 8) (s : Fin 64)
  | trap (g : Guard) (code : BitVec 16) | tret (g : Guard)
  | mark (g : Guard) (n : Src16) | markWait (g : Guard) (n : Src16)
  | trig (g : Guard) | launch (g : Guard) (sd sq sp : Fin 64)
  | fork (g : Guard) (sa sf : Fin 64) (w : Fin 8) (off : BitVec 32) | join (g : Guard) (sd sf : Fin 64)
  | yield (g : Guard) | pwracq (g : Guard) (c : Src3) | pwrrel (g : Guard) | sprint (g : Guard) (t : Src16)
  | sync (g : Guard) (l : SyncLevel) | hwait (g : Guard) (sx : Fin 64) | chkm (g : Guard) (on : Bool)
  -- events of the device
  | quarterIssuePick (core quarter : Nat)
  | promotion (gang part : Nat)
  | regangRelease (gang : Nat)
  | loadDataArrival (gang slice pos : Nat)
  | streamElement (gang slice : Nat)
  | translationWalk (die : Nat)
  | faultAcknowledge (ctx vpage : Nat)
  | hostPageResponse (ctx vpage : Nat) (present : Bool)
  | fenceComplete (gang part : Nat)
  | matrixCommandComplete (core : Nat)
  | mmacInstanceComplete (ctx cluster set : Nat)
  | copyBytesPerformed (core cmd : Nat) (elems : List Nat)
  | copyComplete (core cmd : Nat)
  | remoteRequestReceive (r : RemoteReq)
  | remoteAnswer (a : RemoteAns)
  | requestResendTimeout (req : Nat)
  | carriedStoreResend (req : Nat)
  | holdBoundExpiry (h : HoldRef)
  | brel (m : Msg) | bfail (m : Msg) | heldack (m : Msg) | bexp (m : Msg)
  | sdreq (m : Msg) | sdack (m : Msg) | sddone (m : Msg) | incann (m : Msg) | deadn (m : Msg)
  | peerRecoveryTimeout (peer : Nat)
  | portTrained (port lanes : Nat) | portLaneFailure (port : Nat) | portReplayExhausted (port : Nat)
  | portTrainingTimeout (port : Nat) | portIdleTimeout (port : Nat)
  | hostSubmission (fn ctx q off len : Nat) (dwords : List (BitVec 64))
  | launchPacketRead (gang part : Nat)
  | queueEnable (fn ctx q : Nat) | queueDrain (fn ctx q : Nat) | queueHalt (fn ctx q : Nat)
  | queueResume (fn ctx q : Nat) | queueDisable (fn ctx q : Nat)
  | queueResumeParked (fn ctx q slot : Nat) | queueKillParked (fn ctx q slot : Nat)
  | launchStart (ctx q : Nat)
  | groupPlace (ctx q : Nat)
  | poolClearDone (core : Nat)
  | taskTake (core ctx : Nat) | taskSteal (core ctx : Nat) | forkRetry (core ctx : Nat)
  | barrierArrival (gang : Nat) | barrierRelease (b : BarRef)
  | snapshotComplete (group : Nat)
  | futureParkRetry (gang part : Nat)
  | groupRetire (group : Nat)
  | launchEnd (ctx q seq : Nat)
  | uncorrectableErrorConsumed (group gang site : Nat)
  | storageErrorDetected (site : ErrSite) (corrected : Bool)
  | hbmRepairFailure (pa : Nat)
  | watchdogExpiry (gang slice set : Nat)
  | gangStop (gang : Nat)
  | ctxCreate (fn : Nat) (cmd : List (BitVec 64)) | ctxSet (fn : Nat) (cmd : List (BitVec 64))
  | ctxSave (fn : Nat) (cmd : List (BitVec 64)) | ctxRestore (fn : Nat) (cmd : List (BitVec 64))
  | ctxKill (fn : Nat) (cmd : List (BitVec 64)) | ctxDestroy (fn : Nat) (cmd : List (BitVec 64))
  | ctxStopComplete (ctx : Nat)
  /-- `error` is the byte offset of an uncorrectable error met while writing, if any. -/
  | ctxSaveAreaWritten (ctx : Nat) (error : Option Nat)
  | mapMap (fn : Nat) (cmd : List (BitVec 64)) | mapUnmap (fn : Nat) (cmd : List (BitVec 64))
  | mapSetAttributes (fn : Nat) (cmd : List (BitVec 64)) | mapProof (fn : Nat) (cmd : List (BitVec 64))
  | mapPin (fn : Nat) (cmd : List (BitVec 64)) | mapUnpin (fn : Nat) (cmd : List (BitVec 64))
  | mapSpillArea (fn : Nat) (cmd : List (BitVec 64))
  | prooferScan
  | pageMoveComplete (ctx vpage : Nat)
  | markPacerAnswer (gang part : Nat)
  | placementCounterHalving
  | currentGrant (die : Nat)
  | leaseGrant (die : Nat) | leaseExpiry (gang : Nat)
  | clusterIdleTimeout (cluster : Nat) | railChangeComplete (cluster : Nat)
  /-- A raw thermal reading in °C. -/
  | temperatureReading (cluster : Nat) (raw : Int)
  /-- A raw current reading in units of 0.1 A. -/
  | currentReading (cluster : Nat) (raw : Int)
  | sensorSuspectClear (cluster : Nat) (thermal : Bool)
  /-- The energy of one 1 µs interval of a cluster, in nJ. -/
  | energyInterval (cluster energy : Nat)
  | timingReplay (core : Nat) | replayHoldExpiry (cluster : Nat)
  | hbmIdleTimeout (stack : Nat)
  | powerGood (verified : Bool)
  | stage1Entry (r : BootResult)
  | joinWrite (value : BitVec 64)
  | joinComplete
  /-- A write of `size` bytes at BAR0 offset `off` inside FEATACPT. -/
  | featacptWrite (off size : Nat) (value : BitVec 128)
  | safelpWrite (value : BitVec 64)
  | portenWrite (value : BitVec 64)
  | diecapWrite (die : Nat) (value : BitVec 64)
  | peerstatStaleClear (peer : Nat) (value : BitVec 64)
  | registerWrite (r : RegAddr) (size : Nat) (value : BitVec 64)
  | spdmRequest (r : SpdmReq)
  | hostAddressTranslationChange (ctx iova : Nat) (present : Bool)
  deriving DecidableEq, Repr, Inhabited

end Sys2Proof
end

