-- ==== Sys2Proof/Machine/Exact.lean ====
section
/-! DEFINITION. Exact values, the floating-point formats and `round` (R60 to R73), e2m1_decode (R66) and the
RS generator (R71). -/

namespace Sys2Proof.Machine

/-- An exact value: NaN, an infinity, or (−1)^neg × m × 2^e (a zero keeps its sign). -/
inductive Ex where
  | nan
  | inf (neg : Bool)
  | fin (neg : Bool) (m : Nat) (e : Int)
  deriving DecidableEq, Repr

/-- The formats of R60. `top` is the largest unbiased exponent of a finite value and `maxN` the largest
significand at that exponent; `ieee` says that the all-ones exponent holds infinities and NaNs. -/
structure Fmt where
  eb : Nat
  mb : Nat
  bias : Nat
  top : Int
  maxN : Nat
  ieee : Bool
  nan : Nat
  deriving DecidableEq, Repr

def fmtF64 : Fmt := ⟨11, 52, 1023, 1023, 2 ^ 53 - 1, true, 0x7FF8000000000000⟩
def fmtF32 : Fmt := ⟨8, 23, 127, 127, 2 ^ 24 - 1, true, 0x7FC00000⟩
def fmtF16 : Fmt := ⟨5, 10, 15, 15, 2 ^ 11 - 1, true, 0x7E00⟩
def fmtBf16 : Fmt := ⟨8, 7, 127, 127, 2 ^ 8 - 1, true, 0x7FC0⟩
def fmtE4m3 : Fmt := ⟨4, 3, 7, 8, 14, false, 0x7F⟩
def fmtE5m2 : Fmt := ⟨5, 2, 15, 15, 7, true, 0x7E⟩
/-- E2M1 elements within VQNT (R64, R70): no infinity and no NaN. -/
def fmtE2m1 : Fmt := ⟨2, 1, 1, 2, 3, false, 0⟩

/-- The format of a float type; FP32 for the other types. -/
def fmtOf : Ty → Fmt
  | .f64 => fmtF64
  | .f16 => fmtF16
  | .bf16 => fmtBf16
  | .e4m3 => fmtE4m3
  | .e5m2 => fmtE5m2
  | .e2m1 => fmtE2m1
  | _ => fmtF32

/-- Bits of a format. -/
def fmtBits (f : Fmt) : Nat := 1 + f.eb + f.mb

/-- Exponent of the smallest step: 1 − bias − m (R60). -/
def qMin (f : Fmt) : Int := 1 - (f.bias : Int) - (f.mb : Int)

/-- The value of an encoding (R60, R62, R63). -/
def decodeF (f : Fmt) (x : Nat) : Ex :=
  let m := fld x 0 f.mb
  let e := fld x f.mb f.eb
  let neg := fld x (f.eb + f.mb) 1 = 1
  if f.ieee && e = 2 ^ f.eb - 1 then (if m = 0 then .inf neg else .nan)
  else if f.nan = 0x7F && f.mb = 3 && e = 15 && m = 7 then .nan
  else if e = 0 then .fin neg m (qMin f)
  else .fin neg (m + 2 ^ f.mb) (qMin f + (e : Int) - 1)

/-- Sign bit of an encoding. -/
def signBit (f : Fmt) (neg : Bool) : Nat := if neg then 2 ^ (f.eb + f.mb) else 0

/-- ±largest finite value. -/
def maxEnc (f : Fmt) (neg : Bool) : Nat :=
  signBit f neg + (f.top - (f.mb : Int) - qMin f).toNat * 2 ^ f.mb + f.maxN

/-- ±infinity. -/
def infEnc (f : Fmt) (neg : Bool) : Nat := signBit f neg + (2 ^ f.eb - 1) * 2 ^ f.mb

/-- The overflow column of R70 for a finite value. -/
def overflowEnc (f : Fmt) (mode : Rm) (sat neg : Bool) : Nat :=
  if sat || !f.ieee then maxEnc f neg
  else match mode with
    | .rne => infEnc f neg
    | .rz | .rs => maxEnc f neg
    | .rup => if neg then maxEnc f neg else infEnc f neg
    | .rdn => if neg then infEnc f neg else maxEnc f neg

/-- Whether the quotient `n` with remainder `rem` of 2^s steps up in magnitude (R69, R72; `r` is the RS draw). -/
def stepsUp (mode : Rm) (neg : Bool) (n rem s r : Nat) : Bool :=
  match mode with
  | .rne => decide (2 ^ s < 2 * rem) || (decide (2 * rem = 2 ^ s) && decide (n % 2 = 1))
  | .rz => false
  | .rup => !neg && decide (rem ≠ 0)
  | .rdn => neg && decide (rem ≠ 0)
  | .rs => decide (r < rem * 65536 / 2 ^ s)

/-- The rounded integer significand of m × 2^e on the grid 2^q (R69). -/
def roundSig (mode : Rm) (neg : Bool) (m : Nat) (e q : Int) (r : Nat) : Nat :=
  if q ≤ e then m * 2 ^ (e - q).toNat
  else
    let s := (q - e).toNat
    let n := m / 2 ^ s
    if stepsUp mode neg n (m % 2 ^ s) s r then n + 1 else n

/-- The helper `round(x, fmt, mode, sat)` of R69 and R70, before FTZ; `r` is the value of rs_next under RS. -/
def roundEx (x : Ex) (f : Fmt) (mode : Rm) (sat : Bool) (r : Nat) : Nat :=
  match x with
  | .nan => f.nan
  | .inf neg => if sat then maxEnc f neg else if f.ieee then infEnc f neg else f.nan
  | .fin neg m e =>
    if m = 0 then signBit f neg
    else
      let ex := (m.log2 : Int) + e
      let q := max (qMin f) (min ex f.top - (f.mb : Int))
      let n := roundSig mode neg m e q r
      if q = f.top - (f.mb : Int) ∧ f.maxN < n then overflowEnc f mode sat neg
      else signBit f neg + (q - qMin f).toNat * 2 ^ f.mb + n

/-- The rounded integer of an exact value under a mode (R58 step 3). -/
def exToInt (mode : Rm) (neg : Bool) (m : Nat) (e : Int) : Int :=
  let n := roundSig mode neg m e 0 0
  if neg then -(n : Int) else n

/-- The exact value of an integer. -/
def exOfInt (i : Int) : Ex := .fin (decide (i < 0)) i.natAbs 0

/-- A subnormal of `.f32`, `.f16` or `.bf16` (R73). -/
def isSubnormal (f : Fmt) (x : Nat) : Bool := fld x f.mb f.eb = 0 && fld x 0 f.mb ≠ 0

/-- The types that FTZ flushes (R73). -/
def flushes : Ty → Bool
  | .f32 | .f16 | .bf16 => true
  | _ => false

/-- FTZ on an encoding: a subnormal becomes a zero of its sign (R73). -/
def flush (ftz : Bool) (t : Ty) (x : Nat) : Nat :=
  if ftz && flushes t && isSubnormal (fmtOf t) x then x - fld x 0 (fmtOf t).mb else x

/-- Negate (a NaN stays). -/
def exNeg : Ex → Ex
  | .nan => .nan
  | .inf n => .inf (!n)
  | .fin n m e => .fin (!n) m e

/-- Product (R152). -/
def exMul : Ex → Ex → Ex
  | .nan, _ => .nan
  | _, .nan => .nan
  | .inf a, .inf b => .inf (a != b)
  | .inf a, .fin b m _ => if m = 0 then .nan else .inf (a != b)
  | .fin a m _, .inf b => if m = 0 then .nan else .inf (a != b)
  | .fin a m e, .fin b n f => .fin (a != b) (m * n) (e + f)

/-- The signed integer of a significand at the exponent `q ≤ e`. -/
def alignTo (neg : Bool) (m : Nat) (e q : Int) : Int :=
  let n : Int := ((m * 2 ^ (e - q).toNat : Nat) : Int)
  if neg then -n else n

/-- Sum (R152); `down` is the RDN mode, in which an exact zero sum of opposite terms is −0. -/
def exAdd (down : Bool) : Ex → Ex → Ex
  | .nan, _ => .nan
  | _, .nan => .nan
  | .inf a, .inf b => if a = b then .inf a else .nan
  | .inf a, _ => .inf a
  | _, .inf b => .inf b
  | .fin a m e, .fin b n f =>
    if m = 0 ∧ n = 0 then .fin (if a = b then a else down) 0 0
    else if m = 0 then .fin b n f
    else if n = 0 then .fin a m e
    else
      let q := min e f
      let s := alignTo a m e q + alignTo b n f q
      if s = 0 then .fin down 0 0 else .fin (decide (s < 0)) s.natAbs q

/-- Order of finite values. -/
def finLt (a : Bool) (m : Nat) (e : Int) (b : Bool) (n : Nat) (f : Int) : Bool :=
  let q := min e f
  decide (alignTo a m e q < alignTo b n f q)

/-- a < b for values that are not NaN. -/
def exLt : Ex → Ex → Bool
  | .nan, _ => false
  | _, .nan => false
  | .inf a, .inf b => a && !b
  | .inf a, .fin _ _ _ => a
  | .fin _ _ _, .inf b => !b
  | .fin a m e, .fin b n f => finLt a m e b n f

/-- Neither is NaN and the values are equal; +0 equals −0 (R155). -/
def exEq : Ex → Ex → Bool
  | .nan, _ => false
  | _, .nan => false
  | .inf a, .inf b => a = b
  | .inf _, .fin _ _ _ => false
  | .fin _ _ _, .inf _ => false
  | .fin a m e, .fin b n f => !(finLt a m e b n f) && !(finLt b n f a m e)

def exIsNan : Ex → Bool
  | .nan => true
  | _ => false

/-- The sign of a value (false for NaN). -/
def exSign : Ex → Bool
  | .nan => false
  | .inf n => n
  | .fin n _ _ => n

/-- Magnitude. -/
def exAbs : Ex → Ex
  | .nan => .nan
  | .inf _ => .inf false
  | .fin _ m e => .fin false m e

/-- One step of the generator of R71: the new state and the 16-bit draw. -/
def rsNext (g : Nat) : Nat × Nat :=
  let a := g ^^^ (g * 2 ^ 13 % 2 ^ 32)
  let b := a ^^^ (a / 2 ^ 17)
  let c := b ^^^ (b * 2 ^ 5 % 2 ^ 32)
  (c, c / 2 ^ 16 % 2 ^ 16)

/-- Seeding of G at gang start (R71). -/
def rsSeed (seed id : Nat) : Nat :=
  let hi := fld seed 32 32
  let rot := (hi * 128 % 2 ^ 32) ||| (hi / 2 ^ 25)
  let g := fld seed 0 32 ^^^ rot ^^^ (id * 0x9E3779B9 % 2 ^ 32)
  if g = 0 then 1 else g

/-- Multiply by 2^k exactly. -/
def exScale (x : Ex) (k : Int) : Ex :=
  match x with
  | .fin n m e => .fin n m (e + k)
  | y => y

/-- Raw E2M1 values of codes other than 0b1000 (R64). -/
def e2m1Raw (c : Nat) : Ex := decodeF fmtE2m1 c

/-- e2m1_decode of R66: scale byte and special byte of the block header. -/
def e2m1Decode (c scale special : Nat) : Ex :=
  if scale = 0xFF then .nan
  else if c = 8 then exScale (decodeF fmtE4m3 special) ((scale : Int) - 127)
  else exScale (e2m1Raw c) ((scale : Int) - 127)

/-- mx_decode of R212. -/
def mxDecode (t : Ty) (scaled : Bool) (c scale special : Nat) : Ex :=
  if t = .e2m1 then e2m1Decode c scale special
  else if !scaled then decodeF (fmtOf t) c
  else if scale = 0xFF then .nan
  else exScale (decodeF (fmtOf t) c) ((scale : Int) - 127)

/-- The exact sum of a k-group's four products: −0 only when all four products are −0 (R75). -/
def groupSum (ps : List Ex) : Ex :=
  if ps.all (fun p => match p with
    | .fin true 0 _ => true
    | _ => false) then .fin true 0 0
  else
    match ps.foldl (exAdd false) (.fin false 0 0) with
    | .fin n m e => if m = 0 then .fin false 0 0 else .fin n m e
    | y => y

/-- mma_dot of R75 over the operand pairs, four at a time, from an FP32 accumulator encoding. -/
def mmaDot : Nat → List (Ex × Ex) → Nat → Nat
  | 0, _, acc => acc
  | g + 1, abs, acc =>
    let s := groupSum ((abs.take 4).map (fun p => exMul p.1 p.2))
    let r := roundEx (exAdd false (decodeF fmtF32 acc) s) fmtF32 .rne false 0
    mmaDot g (abs.drop 4) r

/-- The INT8 dot of R76: accumulation modulo 2^32. -/
def intDot (abs : List (Int × Int)) (acc : Nat) : Nat :=
  wrap 32 (abs.foldl (fun s p => s + p.1 * p.2) (acc : Int))

/-- The value of a scaled E8M0-block quantisation input: NaN and infinity handling of R74 steps 1 and 2. -/
def clampF32 (x : Ex) : Ex :=
  match x with
  | .inf n => .fin n (2 ^ 24 - 1) 104
  | y => y

/-- ⌊log2⌋ of a positive finite magnitude. -/
def exLog2 (m : Nat) (e : Int) : Int := (m.log2 : Int) + e

/-- R74: header and codes of one block of FP32 encodings; `rs` gives each element's RS draw. -/
def quantBlock (mode : Rm) (xs : List (Nat × Nat)) : Nat × List Nat :=
  let vs := xs.map (fun x => clampF32 (decodeF fmtF32 x.1))
  if vs.any exIsNan then (0x7FFF, xs.map (fun _ => 0))
  else
    let amax := vs.foldl (fun a v => if exLt a (exAbs v) then exAbs v else a) (.fin false 0 0)
    match amax with
    | .fin _ m e =>
      if m = 0 then (0x007F, xs.map (fun _ => 0))
      else
        let k := max (-127) (min 127 (exLog2 m e - 2))
        let ys := vs.map (fun v => exScale v (-k))
        let qs := (ys.zip xs).map (fun p =>
          let c := roundEx p.1 fmtE2m1 mode true p.2.2
          if c % 8 = 0 then 0 else c)
        let ds := (ys.zip qs).map (fun p => exAbs (exAdd false p.1 (exNeg (e2m1Raw p.2))))
        let best := (ds.zip ys).foldl (fun (b : Ex × Ex) p => if exLt b.1 p.1 then p else b) (.fin false 0 0, .fin false 0 0)
        let special := match best.1 with
          | .fin _ 0 _ => 0
          | _ => roundEx best.2 fmtE4m3 .rne true 0
        let sp := decodeF fmtE4m3 special
        let codes := (ys.zip (qs.zip ds)).map (fun p =>
          if special ≠ 0 && exLt (exAbs (exAdd false p.1 (exNeg sp))) p.2.2 then 8 else p.2.1)
        (special * 256 + (k + 127).toNat, codes)
    | _ => (0x7FFF, xs.map (fun _ => 0))

end Sys2Proof.Machine
end

