-- ==== Sys2Proof/Config.lean ====
section
/-! DEFINITION. What the J-960 fixes, and the free values: opaque constants for what the spec leaves open. -/

namespace Sys2Proof.Config

/-- Whether a read in a shadow sees the new value (R97): free for each reading bundle, lane, register and write. -/
opaque shadowSeesNew : Nat → Nat → Nat → Nat → Bool

/-- A register of A that AL has not captured (R216; log entry 62, DESIGN CHOICE): free for each MMA, by 16 × lane + register. -/
opaque uncaptured : Nat → Nat → BitVec 32

/-- Whether a BCRD within 16 cycles of a BCMIN sees the value before it (R204): free for each reading. -/
opaque bcastSeesOld : Nat → Bool

/-- Whether an access to local memory misses the L2, which the pacer's counters count (R348): free for each access. -/
opaque l2Miss : Nat → Bool

/-- The status code "not supported" of R24, which no list of the spec names: this number above the codes of R275 (log entry 71,
DESIGN CHOICE). -/
opaque notSupported : BitVec 8

/-- Whether the security core reconstructs the identity key from the hub die's physical unclonable function and the helper data in
flash (R400): free for each reset. -/
opaque keyRebuilt : Nat → List Nat → Bool

/-- A dword of an attestation answer (R401): free for each request. -/
opaque spdmDword : Nat → Nat

/-- A value that neither the save area nor the hub holds after a restore (R284; log entry 8, DESIGN CHOICE): free for
each restore. -/
opaque lostDword : Nat → Nat → Nat

/-- Logical cores (R14). -/
def cores : Nat := 384
/-- Logical clusters (R14). -/
def clusters : Nat := 48
/-- Compute dies (R14). -/
def dies : Nat := 4
/-- Bytes of local HBM (R19). -/
def hbmBytes : Nat := 0x6000000000
/-- Bytes of one stack (R19). -/
def stackBytes : Nat := 0xC00000000
/-- Bytes of one die's stacks (R19). -/
def dieBytes : Nat := 0x1800000000
/-- FEATAVAIL: bits 0 to 12 (R25). -/
def featAvail : Nat := 0x1FFF
/-- Units of time in one microsecond: 42 per nanosecond. -/
def us : Nat := 42000
/-- Units of time in one millisecond. -/
def ms : Nat := 42000000

end Sys2Proof.Config
end

