-- ==== Sys2Proof/Machine/Codes.lean ====
section
/-! DEFINITION. The code tables of R86, R87, R90 and R183: names to numbers and back. -/

namespace Sys2Proof.Machine

/-- TYPE codes (R86). -/
def tyCode : Ty → Nat
  | .b32 => 0 | .i8 => 1 | .i16 => 2 | .i32 => 3 | .i64 => 4 | .n8 => 5 | .n16 => 6 | .n32 => 7
  | .n64 => 8 | .f64 => 9 | .f32 => 10 | .f16 => 11 | .bf16 => 12 | .e4m3 => 13 | .e5m2 => 14 | .e2m1 => 15

/-- The type of a TYPE code (R86). -/
def tyOf : Nat → Ty
  | 0 => .b32 | 1 => .i8 | 2 => .i16 | 3 => .i32 | 4 => .i64 | 5 => .n8 | 6 => .n16 | 7 => .n32
  | 8 => .n64 | 9 => .f64 | 10 => .f32 | 11 => .f16 | 12 => .bf16 | 13 => .e4m3 | 14 => .e5m2 | _ => .e2m1

/-- RM codes (R86). -/
def rmCode : Rm → Nat
  | .rne => 0 | .rz => 1 | .rup => 2 | .rdn => 3 | .rs => 4

/-- The mode of an RM code; an unassigned code gives `.rne`, which its own code gives away (R86). -/
def rmOf : Nat → Rm
  | 1 => .rz | 2 => .rup | 3 => .rdn | 4 => .rs | _ => .rne

/-- SCOPE codes (R90). -/
def scopeCode : Scope → Nat
  | .none => 0 | .gang => 1 | .grp => 2 | .clu => 3 | .dev => 4 | .sys => 5

/-- The scope of a SCOPE code; an unassigned code gives `.none` (R90). -/
def scopeOf : Nat → Scope
  | 1 => .gang | 2 => .grp | 3 => .clu | 4 => .dev | 5 => .sys | _ => .none

/-- ORD codes (R90). -/
def ordCode : Order → Nat
  | .plain => 0 | .acq => 1 | .rel => 2 | .ar => 3

/-- The ordering of an ORD code (R90). -/
def ordOf : Nat → Order
  | 0 => .plain | 1 => .acq | 2 => .rel | _ => .ar

/-- Atomic operation codes (R183). -/
def atomCode : AtomOp → Nat
  | .add => 0 | .min => 1 | .max => 2 | .and => 3 | .or => 4 | .xor => 5 | .exch => 6 | .cas => 7
  | .fadd => 8 | .fmin => 9 | .fmax => 10

/-- The atomic operation of a code; codes 11 to 15 give `.add` (R183). -/
def atomOf : Nat → AtomOp
  | 1 => .min | 2 => .max | 3 => .and | 4 => .or | 5 => .xor | 6 => .exch | 7 => .cas
  | 8 => .fadd | 9 => .fmin | 10 => .fmax | _ => .add

/-- Conditions of VCMP (R155). -/
def condCode : Cond → Nat
  | .eq => 0 | .ne => 1 | .lt => 2 | .le => 3 | .gt => 4 | .ge => 5 | .un => 6 | .ord => 7

/-- The condition of a code (R155). -/
def condOf : Nat → Cond
  | 0 => .eq | 1 => .ne | 2 => .lt | 3 => .le | 4 => .gt | 5 => .ge | 6 => .un | _ => .ord

/-- VOTE modes (R165). -/
def voteCode : VoteMode → Nat
  | .all => 0 | .any => 1 | .uni => 2

/-- The VOTE mode of a code; codes 3 to 15 give `.all` (R165). -/
def voteOf : Nat → VoteMode
  | 1 => .any | 2 => .uni | _ => .all

/-- VRED operations (R168). -/
def redCode : RedOp → Nat
  | .add => 0 | .min => 1 | .max => 2 | .and => 3 | .or => 4 | .xor => 5

/-- The VRED operation of a code; codes 6 to 15 give `.add` (R168). -/
def redOf : Nat → RedOp
  | 1 => .min | 2 => .max | 3 => .and | 4 => .or | 5 => .xor | _ => .add

/-- Operand codes (R87). -/
def opdCode : Opd → Nat
  | .v n => n
  | .s n => 0x100 + n
  | .l0 => 0x140
  | .l1 => 0x141
  | .q => 0x142
  | .idx n => 0x148 + n
  | .imm i => 0x200 + i.toNat

/-- The operand of a code; an unassigned code gives V0, which its own code gives away (R87). -/
def opdOf (c : Nat) : Opd :=
  if c < 0x100 then .v (Fin.ofNat 256 c)
  else if c < 0x140 then .s (Fin.ofNat 64 (c - 0x100))
  else if c = 0x140 then .l0
  else if c = 0x141 then .l1
  else if c = 0x142 then .q
  else if c < 0x148 then .v 0
  else if c < 0x14E then .idx (Fin.ofNat 6 (c - 0x148))
  else if c < 0x200 then .v 0
  else .imm (BitVec.ofNat 9 (c - 0x200))

/-- A baton handle field (R90): bit 3 valid, bits 2:0 the K register. -/
def kCode (k : KRef) : Nat := 8 * k.valid.toNat + k.k

/-- The baton handle field of a code (R90). -/
def kOf (c : Nat) : KRef := ⟨decide (c / 8 % 2 = 1), Fin.ofNat 8 c⟩

/-- The guard field: GP in the upper five bits, GN in the lowest (R88, R90, R91). -/
def guardCode (g : Guard) : Nat := 2 * g.p + g.neg.toNat

/-- The guard of a field value. -/
def guardOf (c : Nat) : Guard := ⟨Fin.ofNat 32 (c / 2), decide (c % 2 = 1)⟩

/-- GP = 31 with GN = 0: every lane (R94). -/
def guardAll : Guard := ⟨31, false⟩

/-- A truth value from bit 0 of a number. -/
def bitB (n : Nat) : Bool := decide (n % 2 = 1)

end Sys2Proof.Machine
end

