-- ==== Sys2Proof/Machine/Legal.lean ====
section
/-! DEFINITION. The proofer's checks 0x11, 0x12, 0x13 and 0x34 of R110 that a decoded instruction can still break,
and the features an encoding belongs to (R104 to R107, R144, R171, R205, R120, R132, R137, R141, R236). -/

namespace Sys2Proof.Machine

/-- Types whose values take two V registers (R56, R68). -/
def is64 : Ty → Bool
  | .i64 | .n64 | .f64 => true
  | _ => false

/-- `.i8` to `.i64` and `.n8` to `.n64` (R148). -/
def isInt : Ty → Bool
  | .i8 | .i16 | .i32 | .i64 | .n8 | .n16 | .n32 | .n64 => true
  | _ => false

/-- `.i8` to `.i64`. -/
def isSigned : Ty → Bool
  | .i8 | .i16 | .i32 | .i64 => true
  | _ => false

/-- The Mem types of R171. -/
def isMem (t : Ty) : Bool := isInt t || t == .b32

/-- The Fut types of R171. -/
def isFut : Ty → Bool
  | .b32 | .i64 | .n64 => true
  | _ => false

/-- `.f32`, `.f16`, `.bf16`. -/
def isF3 : Ty → Bool
  | .f32 | .f16 | .bf16 => true
  | _ => false

/-- Float types of the float class (R151). -/
def isFlt (t : Ty) : Bool := isF3 t || t == .f64

/-- The narrow float types. -/
def isNarrow : Ty → Bool
  | .e4m3 | .e5m2 | .e2m1 => true
  | _ => false

/-- Types with which an immediate operand is legal (R89). -/
def immOk : Ty → Bool
  | .f16 | .bf16 | .e4m3 | .e5m2 | .e2m1 => false
  | _ => true

/-- Reason `r` unless `ok`. -/
def chk (ok : Bool) (r : Nat) : List Nat := if ok then [] else [r]

/-- An operand read with type `t` (R87, R89, R92, R143). -/
def opdErrs (t : Ty) : Opd → List Nat
  | .v n => chk (!(is64 t) || n.val % 2 == 0) 0x12
  | .l1 => chk (!(is64 t)) 0x12
  | .imm _ => chk (immOk t) 0x12
  | _ => []

/-- An operand read as an integer whatever the types (R89): any immediate is legal. -/
def opdErrsI (t : Ty) : Opd → List Nat
  | .imm _ => []
  | o => opdErrs t o

/-- A destination register of type `t` (R143). -/
def dstErrs (t : Ty) (d : Fin 256) : List Nat := chk (!(is64 t) || d.val % 2 == 0) 0x11

/-- The mode must be 000. -/
def rmNone (m : Rm) : Bool := m == .rne

/-- Any mode but RS. -/
def rmFour (m : Rm) : Bool := m != .rs

/-- A one-source instruction: accepted types, modes, and the reason that refuses SAT, if any. -/
def errsV1 (ty : Ty → Bool) (rm : Rm → Bool) (sat : Option Nat) (o : V1) : List Nat :=
  chk (ty o.ty) 0x11 ++ chk (rm o.rm) 0x11 ++ (match sat with | none => [] | some r => chk (!o.sat) r)
    ++ dstErrs o.ty o.d ++ opdErrs o.ty o.a

/-- A two-source instruction; `bInt` where the second source is read as an integer (R149, R150). -/
def errsV2 (ty : Ty → Bool) (rm : Rm → Bool) (sat : Option Nat) (bInt : Bool) (o : V2) : List Nat :=
  chk (ty o.ty) 0x11 ++ chk (rm o.rm) 0x11 ++ (match sat with | none => [] | some r => chk (!o.sat) r)
    ++ dstErrs o.ty o.d ++ opdErrs o.ty o.a ++ (if bInt then opdErrsI o.ty o.b else opdErrs o.ty o.b)

/-- A three-source instruction. -/
def errsV3 (ty : Ty → Bool) (rm : Rm → Bool) (sat : Option Nat) (cInt : Bool) (o : V3) : List Nat :=
  chk (ty o.ty) 0x11 ++ chk (rm o.rm) 0x11 ++ (match sat with | none => [] | some r => chk (!o.sat) r)
    ++ dstErrs o.ty o.d ++ opdErrs o.ty o.a ++ opdErrs o.ty o.b
    ++ (if cInt then opdErrsI o.ty o.c else opdErrs o.ty o.c)

/-- The types of VAND, VOR, VXOR, VNOT and VBREV (R148). -/
def isLogic (t : Ty) : Bool := isInt t || t == .b32

/-- The types of VMULH (R148). -/
def isWide (t : Ty) : Bool := t == .i32 || t == .n32 || t == .i64 || t == .n64

/-- The types of VCMP, VSEL and VMOV (R104). -/
def isMov (t : Ty) : Bool := !isNarrow t

/-- The kinds of conversion in R159. -/
inductive CvtKind where
  | intInt | fltInt | intFlt | widen | narrow | bad
  deriving DecidableEq, Repr

/-- The float-to-float pairs of R159 that widen. -/
def isWiden : Ty → Ty → Bool
  | .f16, .e4m3 | .bf16, .e4m3 | .f32, .e4m3 | .f64, .e4m3 => true
  | .f16, .e5m2 | .bf16, .e5m2 | .f32, .e5m2 | .f64, .e5m2 => true
  | .f32, .f16 | .f64, .f16 | .f32, .bf16 | .f64, .bf16 | .f64, .f32 => true
  | _, _ => false

/-- The float types VCVT takes (R159). -/
def isCvtF (t : Ty) : Bool := isFlt t || t == .e4m3 || t == .e5m2

/-- The kind of the conversion of `st` to `dt` (R159). -/
def cvtKind (dt st : Ty) : CvtKind :=
  if dt = st then .bad
  else if isInt dt && isInt st then .intInt
  else if isInt dt && isCvtF st then .fltInt
  else if isCvtF dt && isInt st then .intFlt
  else if isCvtF dt && isCvtF st then (if isWiden dt st then .widen else .narrow)
  else .bad

/-- RM and SAT of a conversion (R159). -/
def cvtErrs (k : CvtKind) (rm : Rm) (sat : Bool) : List Nat :=
  match k with
  | .intInt => chk (rmNone rm) 0x11
  | .fltInt | .intFlt => chk (rmFour rm) 0x11
  | .widen => chk (rmNone rm) 0x11 ++ chk (!sat) 0x11
  | .narrow => []
  | .bad => [0x11]

/-- The pairs of R160. -/
def packOk : Ty → Ty → Bool
  | .f16, .f32 | .f16, .f64 | .f16, .bf16 | .bf16, .f32 | .bf16, .f64 | .bf16, .f16 => true
  | .e4m3, .f32 | .e4m3, .f64 | .e4m3, .f16 | .e4m3, .bf16 => true
  | .e5m2, .f32 | .e5m2, .f64 | .e5m2, .f16 | .e5m2, .bf16 => true
  | .i8, .i32 | .i8, .n32 | .n8, .i32 | .n8, .n32 => true
  | _, _ => false

/-- Destinations of VPACK that take a third source (R160). -/
def pack8 : Ty → Bool
  | .e4m3 | .e5m2 | .i8 | .n8 => true
  | _ => false

/-- The pairs of R161. -/
def unpkOk : Ty → Ty → Bool
  | .f32, .f16 | .f32, .bf16 | .f32, .e4m3 | .f32, .e5m2 | .f32, .e2m1 | .i32, .i8 | .n32, .n8 => true
  | _, _ => false

/-- Atomic types (R183). -/
def atomTyOk : AtomOp → Ty → Bool
  | .add, t | .min, t | .max, t => isWide t
  | .and, t | .or, t | .xor, t | .exch, t | .cas, t => isWide t || t == .b32
  | .fadd, t | .fmin, t | .fmax, t => t == .f32 || t == .f64

/-- The data operand of `.cas` (R184). -/
def casErrs (t : Ty) : Opd → List Nat
  | .v n => chk (if is64 t then n.val % 4 == 0 else n.val % 2 == 0) 0x12
  | .s _ => chk (!(is64 t)) 0x12
  | _ => [0x12]

/-- SCOPE and ORD of a load: none, or a scope with `.acq` (R171). -/
def ldScopeOk (s : Scope) (o : Order) : Bool := (s == .none && o == .plain) || (s != .none && o == .acq)

/-- SCOPE and ORD of a store: none, or a scope with `.rel` (R171). -/
def stScopeOk (s : Scope) (o : Order) : Bool := (s == .none && o == .plain) || (s != .none && o == .rel)

/-- Scopes of the scratchpad forms. -/
def spScope (s : Scope) : Bool := s == .none || s == .gang || s == .grp

/-- Scopes `.grp` to `.sys` (R205). -/
def outScope (s : Scope) : Bool := s == .grp || s == .clu || s == .dev || s == .sys

/-- An atomic (R171, R183, R184). -/
def atomErrs (sp : Bool) (o : MAtom) : List Nat :=
  chk (atomTyOk o.op o.ty) 0x11 ++ chk (o.scope != .none && (!sp || spScope o.scope)) 0x11
    ++ (if o.op = .cas then casErrs o.ty o.data else opdErrs o.ty o.data)

/-- The INDEX operand: any code of R87 (R171). -/
def flagErrs (f : Flag) : List Nat := chk (f.fe || f.k.val == 0) 0x13

/-- Registers of R240 that SYSRD reads. -/
def sysRdRegs : List Nat :=
  [0x00, 0x01, 0x02, 0x08, 0x09, 0x0A, 0x0B, 0x0C, 0x0D, 0x0E, 0x10, 0x11, 0x12, 0x18, 0x19, 0x1A,
   0x20, 0x21, 0x22, 0x23, 0x24, 0x25]

/-- Registers of R240 that SYSWR writes. -/
def sysWrRegs : List Nat := [0x19, 0x20, 0x21]

/-- A scalar shift's second source (R141). -/
def shiftErrs (o : SBin) : List Nat :=
  match o.b with
  | .reg _ => []
  | .imm i => chk (i.toInt ≥ 0) 0x12
  | .ext i => chk (i.toInt ≥ 0 && i.toInt < 64) 0x12

/-- The reasons 0x11, 0x12, 0x13 and 0x34 that refuse an instruction whose every field decoded (R110). -/
def legalErrs : Instr → List Nat
  | .vadd o | .vsub o | .vmul o => errsV2 isInt rmNone none false o
  | .vmulh o => errsV2 isWide rmNone (some 0x11) false o
  | .vmad o => errsV3 isInt rmNone none false o
  | .vmin o | .vmax o => errsV2 isInt rmNone (some 0x11) false o
  | .vabs o | .vneg o => errsV1 isSigned rmNone none o
  | .vand o | .vor o | .vxor o => errsV2 isLogic rmNone (some 0x11) false o
  | .vnot o | .vbrev o => errsV1 isLogic rmNone (some 0x11) o
  | .vshl o | .vshr o | .vrot o | .vbfx o => errsV2 isInt rmNone (some 0x11) true o
  | .vbfi o => errsV3 isInt rmNone (some 0x11) true o
  | .vpopc o | .vclz o => errsV1 isInt rmNone (some 0x11) o
  | .vfadd o | .vfsub o | .vfmul o => errsV2 isFlt rmFour none false o
  | .vfma o => errsV3 isFlt rmFour none false o
  | .vfmin o | .vfmax o => errsV2 isFlt rmNone (some 0x11) false o
  | .vfabs o | .vfneg o => errsV1 isFlt rmNone (some 0x11) o
  | .vrcp o | .vrsq o | .vsqrt o | .vexp2 o | .vlog2 o | .vsin o | .vcos o | .vtanh o =>
    errsV1 isF3 rmFour none o
  | .vcmp o =>
    chk (isMov o.ty) 0x11 ++ chk (isFlt o.ty || (o.cc != .un && o.cc != .ord)) 0x11
      ++ chk (!o.h1 || o.ty == .f16 || o.ty == .bf16) 0x11 ++ opdErrs o.ty o.a ++ opdErrs o.ty o.b
  | .vsel o => chk (isMov o.ty) 0x11 ++ dstErrs o.ty o.d ++ opdErrs o.ty o.a ++ opdErrs o.ty o.b
  | .vmov o => errsV1 isMov rmNone (some 0x13) o
  | .vcvt o => cvtErrs (cvtKind o.dt o.st) o.rm o.sat ++ dstErrs o.dt o.d ++ opdErrs o.st o.a
  | .vpack o =>
    chk (packOk o.dt o.st) 0x11 ++ cvtErrs (cvtKind o.dt o.st) o.rm o.sat
      ++ opdErrs o.st o.a ++ opdErrs o.st o.b
      ++ (if pack8 o.dt then opdErrs o.st o.c else chk (decide (o.c = .v 0)) 0x13)
  | .vunpk o =>
    chk (unpkOk o.dt o.st) 0x11
      ++ chk (rmFour o.rm) 0x11
      ++ opdErrs o.st o.a ++ (if o.st = .e2m1 then [] else chk (decide (o.h = .v 0)) 0x13)
  | .vqnt o =>
    chk (o.d.val % 2 == 0) 0x11 ++ (match o.a with | .imm _ => [0x12] | _ => [])
  | .vote _ | .vballot _ => []
  | .shfl o =>
    chk (isFut o.ty) 0x11 ++ dstErrs o.ty o.d ++ opdErrs o.ty o.a ++ opdErrs o.ty o.f
  | .vred o =>
    chk (isWide o.ty || o.ty == .f32 || o.ty == .f64) 0x11
      ++ chk (!(isFlt o.ty) || o.op == .add || o.op == .min || o.op == .max) 0x11
      ++ chk (if isFlt o.ty && o.op == .add then rmFour o.rm else rmNone o.rm) 0x11
      ++ dstErrs o.ty o.d ++ opdErrs o.ty o.a
  | .ld o =>
    chk (isMem o.ty) 0x11 ++ chk (ldScopeOk o.scope o.ord) 0x11 ++ chk (!o.ro || o.scope == .none) 0x11
  | .ldsp o =>
    chk (isMem o.ty) 0x11 ++ chk (ldScopeOk o.scope o.ord && spScope o.scope) 0x11 ++ chk (!o.ro) 0x11
  | .st o => chk (isMem o.ty) 0x11 ++ chk (stScopeOk o.scope o.ord) 0x11 ++ opdErrs o.ty o.data
  | .stsp o =>
    chk (isMem o.ty) 0x11 ++ chk (stScopeOk o.scope o.ord && spScope o.scope) 0x11 ++ opdErrs o.ty o.data
  | .pref _ => []
  | .atom o | .atomq o => atomErrs false o
  | .atomsp o => atomErrs true o
  | .fence o => chk (o.scope != .none && o.ord != .plain) 0x11
  | .stb o =>
    chk (isMem o.ty) 0x11 ++ chk ((o.scope == .none && o.ord == .plain) || (o.scope == .sys && o.ord == .rel)) 0x11
      ++ chk o.kd.valid 0x11 ++ opdErrs o.ty o.data
  | .stk o =>
    chk (isMem o.ty) 0x11 ++ chk ((o.scope == .none && o.ord == .plain) || (o.scope == .sys && o.ord == .rel)) 0x11
      ++ chk (o.ka.valid && !o.kd.valid) 0x11 ++ opdErrs o.ty o.data
  | .bwait o => chk (o.ka.valid && !o.kd.valid) 0x11
  | .strm o => chk (isMem o.ty) 0x11
  | .strmx => []
  | .fput o => chk (isFut o.ty) 0x11 ++ chk (o.scope != .none) 0x11 ++ opdErrs o.ty o.data
  | .fwait o => chk (isFut o.ty) 0x11 ++ chk (o.scope != .none) 0x11
  | .bcmin o => opdErrs .i64 o.data
  | .bcrd o => chk (o.ty == .b32 || o.ty == .i64) 0x11
  | .mma o => chk (o.va.val % 8 == 0) 0x11 ++ flagErrs o.f
  | .mmac o => chk (o.va.val % 8 == 0) 0x11 ++ flagErrs o.f
  | .zld o => flagErrs o.f
  | .zst o => flagErrs o.f ++ chk (o.scope == .none) 0x13
  | .zclr o => flagErrs o.f
  | .zret o => flagErrs o.f
  | .zretSp o => flagErrs o.f ++ chk (o.scope == .none) 0x13
  | .zretG o => flagErrs o.f ++ chk (outScope o.scope) 0x11
  | .cpy o | .cpyr o => flagErrs o.f ++ chk (outScope o.scope) 0x11
  | .cpseal f => flagErrs f
  | .cpwait _ => []
  | .hset o => flagErrs o.f
  | .br g _ => chk (!(g.p.val == 31 && g.neg)) 0x11
  | .loop n _ | .endl n | .lbrk n _ => chk (n.val < 6) 0x34
  | .waitf m _ | .testf _ _ m _ | .clrf m => chk (m != 0) 0x11
  | .sshl o | .sshr o | .ssra o => shiftErrs o
  | .sysrd _ dst num =>
    chk (sysRdRegs.contains num.toNat) 0x11
      ++ (match dst with | .s _ => [] | .v _ => chk (num.toNat < 3) 0x11)
  | .syswr _ num _ => chk (sysWrRegs.contains num.toNat) 0x11
  | .fork _ sa _ _ _ => chk (sa.val ≤ 60) 0x12
  | _ => []

/-- The feature bits an encoding belongs to besides bit 0 (R104 to R107, R158, R163, R183). -/
def features : Instr → List Nat
  | .vfadd o | .vfsub o | .vfmul o | .vfmin o | .vfmax o => if o.ty = .f64 then [1] else []
  | .vfma o => if o.ty = .f64 then [1] else []
  | .vfabs o | .vfneg o | .vmov o => if o.ty = .f64 then [1] else []
  | .vcmp o => if o.ty = .f64 then [1] else []
  | .vsel o => if o.ty = .f64 then [1] else []
  | .vcvt o =>
    (if o.dt = .f64 ∨ o.st = .f64 then [1] else []) ++ (if o.dt = .e2m1 ∨ o.st = .e2m1 then [2] else [])
      ++ (if o.rm = .rs then [3] else [])
  | .vpack o =>
    (if o.dt = .f64 ∨ o.st = .f64 then [1] else []) ++ (if o.dt = .e2m1 ∨ o.st = .e2m1 then [2] else [])
      ++ (if o.rm = .rs then [3] else [])
  | .vunpk o =>
    (if o.dt = .f64 ∨ o.st = .f64 then [1] else []) ++ (if o.dt = .e2m1 ∨ o.st = .e2m1 then [2] else [])
  | .vqnt o => 2 :: (if o.rm = .rs then [3] else [])
  | .vred o => if o.ty = .f64 then [1] else []
  | .atom o | .atomq o | .atomsp o => if o.ty = .f64 then [1] else []
  | .stb _ | .stk _ | .bwait _ => [5]
  | .strm _ | .strmx => [12]
  | .fput _ | .fwait _ => [7]
  | .bcmin _ | .bcrd _ => [8]
  | .mmac _ => [4]
  | .mark _ _ | .markWait _ _ => [6]
  | .fork _ _ _ _ _ | .join _ _ _ => [7]
  | .sprint _ _ => [9]
  | _ => []

/-- The rows of the opcode table that are code (R104 to R107, R85), as against events of the device. -/
def isCode : Instr → Bool
  | .quarterIssuePick _ _ | .promotion _ _ | .regangRelease _ | .loadDataArrival _ _ _ | .streamElement _ _
  | .translationWalk _ | .faultAcknowledge _ _ | .hostPageResponse _ _ _ | .fenceComplete _ _
  | .matrixCommandComplete _ | .mmacInstanceComplete _ _ _ | .copyBytesPerformed _ _ _ | .copyComplete _ _
  | .remoteRequestReceive _ | .remoteAnswer _ | .requestResendTimeout _ | .carriedStoreResend _
  | .holdBoundExpiry _ | .brel _ | .bfail _ | .heldack _ | .bexp _ | .sdreq _ | .sdack _ | .sddone _
  | .incann _ | .deadn _ | .peerRecoveryTimeout _ | .portTrained _ _ | .portLaneFailure _
  | .portReplayExhausted _ | .portTrainingTimeout _ | .portIdleTimeout _ | .hostSubmission _ _ _ _ _ _
  | .launchPacketRead _ _ | .queueEnable _ _ _ | .queueDrain _ _ _ | .queueHalt _ _ _ | .queueResume _ _ _
  | .queueDisable _ _ _ | .queueResumeParked _ _ _ _ | .queueKillParked _ _ _ _ | .launchStart _ _
  | .groupPlace _ _ | .poolClearDone _ | .taskTake _ _ | .taskSteal _ _ | .forkRetry _ _
  | .barrierArrival _ | .barrierRelease _ | .snapshotComplete _ | .futureParkRetry _ _ | .groupRetire _
  | .launchEnd _ _ _ | .uncorrectableErrorConsumed _ _ _ | .storageErrorDetected _ _ | .hbmRepairFailure _
  | .watchdogExpiry _ _ _ | .gangStop _ | .ctxCreate _ _ | .ctxSet _ _ | .ctxSave _ _ | .ctxRestore _ _
  | .ctxKill _ _ | .ctxDestroy _ _ | .ctxStopComplete _ | .ctxSaveAreaWritten _ _ | .mapMap _ _
  | .mapUnmap _ _ | .mapSetAttributes _ _ | .mapProof _ _ | .mapPin _ _ | .mapUnpin _ _ | .mapSpillArea _ _
  | .prooferScan | .pageMoveComplete _ _ | .markPacerAnswer _ _ | .placementCounterHalving | .currentGrant _
  | .leaseGrant _ | .leaseExpiry _ | .clusterIdleTimeout _ | .railChangeComplete _ | .temperatureReading _ _
  | .currentReading _ _ | .sensorSuspectClear _ _ | .energyInterval _ _ | .timingReplay _ | .replayHoldExpiry _
  | .hbmIdleTimeout _ | .powerGood _ | .stage1Entry _ | .joinWrite _ | .joinComplete | .featacptWrite _ _ _
  | .safelpWrite _ | .portenWrite _ | .diecapWrite _ _ | .peerstatStaleClear _ _ | .registerWrite _ _ _
  | .spdmRequest _ | .hostAddressTranslationChange _ _ _ => false
  | _ => true

/-- The least of a list of reasons: the first of R110's order (R421). -/
def least : List Nat → Option Nat
  | [] => none
  | r :: rs =>
    match least rs with
    | none => some r
    | some m => some (min r m)

end Sys2Proof.Machine
end

