-- ==== Sys2Proof/Machine/Map.lean ====
section
/-! DEFINITION. Sparse maps with numeric keys: lists of (key, value) with strictly rising keys.
`smGet`/`smSet` are maps with a default value that is never listed (memory, registers);
`smFind`/`smPut`/`smDel` are tables of records without a default. -/

namespace Sys2Proof.Machine

/-- The value of key `i`; `d` where no entry lists it. -/
def smGet {α : Type} (d : α) : List (Nat × α) → Nat → α
  | [], _ => d
  | (k, v) :: m, i => if k = i then v else smGet d m i

/-- Write `x` at key `i`, keeping the keys rising and the default unlisted. -/
def smSet {α : Type} [DecidableEq α] (d : α) : List (Nat × α) → Nat → α → List (Nat × α)
  | [], i, x => if x = d then [] else [(i, x)]
  | (k, v) :: m, i, x =>
    if i < k then (if x = d then (k, v) :: m else (i, x) :: (k, v) :: m)
    else if i = k then (if x = d then m else (i, x) :: m)
    else (k, v) :: smSet d m i x

/-- Every key of the map is above `lo`, keys rise strictly, and no value is the default. -/
def smWfFrom {α : Type} [DecidableEq α] (d : α) : Option Nat → List (Nat × α) → Bool
  | _, [] => true
  | lo, (k, v) :: m =>
    (match lo with
     | none => true
     | some l => decide (l < k)) && decide (v ≠ d) && smWfFrom d (some k) m

/-- The canonical form of a map with default `d`. -/
def smWf {α : Type} [DecidableEq α] (d : α) (m : List (Nat × α)) : Bool := smWfFrom d none m

/-- The record of key `i`, if the table lists one. -/
def smFind {α : Type} : List (Nat × α) → Nat → Option α
  | [], _ => none
  | (k, v) :: m, i => if k = i then some v else smFind m i

/-- Store record `x` at key `i`, keeping the keys rising. -/
def smPut {α : Type} : List (Nat × α) → Nat → α → List (Nat × α)
  | [], i, x => [(i, x)]
  | (k, v) :: m, i, x =>
    if i < k then (i, x) :: (k, v) :: m
    else if i = k then (i, x) :: m
    else (k, v) :: smPut m i x

/-- Remove the record of key `i`. -/
def smDel {α : Type} : List (Nat × α) → Nat → List (Nat × α)
  | [], _ => []
  | (k, v) :: m, i => if k = i then m else (k, v) :: smDel m i

/-- Change the record of key `i`, if there is one. -/
def smMod {α : Type} (m : List (Nat × α)) (i : Nat) (f : α → α) : List (Nat × α) :=
  m.map (fun e => if e.1 = i then (e.1, f e.2) else e)

/-- Write every pair of `ws` in turn. -/
def smSetAll {α : Type} [DecidableEq α] (d : α) (m : List (Nat × α)) (ws : List (Nat × α)) : List (Nat × α) :=
  ws.foldl (fun m w => smSet d m w.1 w.2) m

/-- Insert into a list sorted by a key, behind equal keys. -/
def insertKey {α : Type} (key : α → Nat) (x : α) : List α → List α
  | [] => [x]
  | y :: ys => if key x < key y then x :: y :: ys else y :: insertKey key x ys

/-- Sort by a key; equal keys keep their order. -/
def sortKey {α : Type} (key : α → Nat) (l : List α) : List α := l.foldl (fun r x => insertKey key x r) []

end Sys2Proof.Machine
end

