-- ==== Sys2Proof/Machine/State.lean ====
section
/-! DEFINITION. The machine's state as plain data, its faults and refusals, and the state after reset.
Tables are lists of (key, record) with rising keys. Times are in units of 1/42 ns, in which every clock period of R385
is whole. Cycle numbers count the cluster's clock. -/

namespace Sys2Proof.Machine

/-- Reasons to stop with a fault. The spec gives every fault of this machine an effect (a program trap enters the
handler, a system fault parks the group), so no meaning raises one. Safe: nothing is left out by it. -/
inductive Fault where
  /-- Raised by nothing; kept so that the type is inhabited. Safe. -/
  | none
  deriving DecidableEq, Repr, Inhabited

/-- Reasons to refuse a step. -/
inductive Refusal where
  /-- An instruction of the opcode table whose meaning is not written. Raised by `exec`'s refused arms only. Safe. -/
  | notModelled (mnemonic : String)
  /-- The bundle at the program counter is not one that the proofer passes, so it has no defined behaviour (R81, R108).
  Raised by `step` when it issues such a bundle. Safe: no claim about such code can be proved. -/
  | unproofedCode (slot reason : Nat)
  deriving DecidableEq, Repr, Inhabited

/-- One entry of a loop stack (R127). -/
structure Loop where
  count : Nat
  index : Nat
  ret : Nat
  deriving DecidableEq, Repr, Inhabited

/-- What a lane set waits for: the STATE codes of R380. -/
inductive Wait where
  | run
  | regang
  | waitf (mask : Nat) (any : Bool)
  /-- Blocked at a barrier (R251): the level and id of R236, and the first access issued after it. -/
  | barrier (b : BarRef) (level id upTo : Nat)
  /-- FWAIT (its lanes are in the gang's access `acc`) or JOIN (`acc` none), at an address. -/
  | future (addr : Nat) (acc : Option Nat) (sd : Nat)
  | hurdle (off : Nat)
  /-- PWRACQ: the class, and the request. -/
  | pwr (c id : Nat)
  /-- FORK at the watermark: the FORK's name in its deque. -/
  | fork (id : Nat)
  | mark (lap : Nat)
  deriving DecidableEq, Repr, Inhabited

/-- A lane set (R29). While it is blocked by a bundle that has issued, `pc` is that bundle and `nxt` the bundle at which
it goes on. -/
structure LaneSet where
  pc : Nat
  nxt : Nat
  mask : Nat
  loops : List Loop
  ready : Nat
  st : Wait
  inh : Bool
  /-- Its next bundle is the first after a LOOP, ENDL or LBRK, or after YIELD (R376). -/
  edge : Bool
  /-- Its next bundle is the target of an indirect transfer (R302). -/
  jumped : Bool
  created : Nat
  /-- The watchdog's count while the slice has switched away (R384). -/
  idle : Nat
  deriving DecidableEq, Repr, Inhabited

/-- The flags of a slice (R133): as they stood before cycle `cyc`, and what cycle `cyc` sets and clears. -/
structure FlagBank where
  base : Nat
  set : Nat
  clr : Nat
  cyc : Nat
  deriving DecidableEq, Repr, Inhabited

/-- One LDQ entry (R174): lane values, and the lanes still awaited from access `acc`. -/
structure LdqEntry where
  acc : Nat
  /-- The cycle in which it was reserved (R176). -/
  cyc : Nat
  second : Bool
  vals : List Nat
  need : Nat
  cap : Bool
  strm : Bool
  inh : Bool
  /-- Lanes whose data carries a poison mark (R354). -/
  bad : Nat
  deriving DecidableEq, Repr, Inhabited

/-- A stream on a slice (R196, R197). `lock` numbers its range-lock entry. -/
structure Strm where
  desc : List Nat
  ty : Ty
  next : Nat
  total : Nat
  lanes : Nat
  lock : Nat
  /-- Its elements are the slice's stream accesses numbered from here on; earlier ones belong to streams that have ended. -/
  first : Nat
  deriving DecidableEq, Repr, Inhabited

/-- A slice's trap frame (R373, R380). -/
structure Frame where
  cause : Nat
  pc : Nat
  info : Nat
  valid : Bool
  capLdq : Nat
  capLaq : Nat
  /-- The slice's flags at entry (R374). -/
  flags : Nat
  loops : List Loop
  deriving DecidableEq, Repr, Inhabited

/-- A slice of a gang (R29). `sets` is its lane-set table, keyed by entry 0 to 7. `cur` is the entry that stands in the slice's
part: the current lane set, or one that has blocked or waits with no other to run, and is then not current (R34, `Gang.current`).
`out` is the issue-ready cycle of the lane set that left the slice last by exiting (R34). -/
structure Slice where
  flags : FlagBank
  sets : List (Nat × LaneSet)
  cur : Option Nat
  out : Nat
  ldq : List LdqEntry
  strm : Option Strm
  frame : Frame
  deriving DecidableEq, Repr, Inhabited

/-- What holds a part (R187, R238): it stays runnable, and its next bundle waits. `upTo` bounds the earlier accesses, and
names a fence. -/
inductive Hold where
  | fence (scope : Scope) (ord : Order) (sd upTo : Nat)
  | bwait (seqs : List Nat)
  | cpwait (n : Nat)
  | strmx (accs locks : List Nat)
  | launch (sd q pa upTo : Nat)
  /-- LAUNCH whose packet has been submitted, until the queue processor answers (R293). -/
  | submitted (sd upTo : Nat)
  /-- SPRINT, by its request. -/
  | sprint (id : Nat)
  /-- FORK awaiting its release: its record, its bundle, and the first access issued after it, which names it. -/
  | fork (record pc upTo : Nat)
  /-- MARK before its issue, awaiting the pacer's answer (R245). -/
  | mark (lap : Nat) (wait : Bool)
  /-- The pacer has answered that every due range is resident. -/
  | marked (lap : Nat)
  /-- The first bundle after a resume awaits its lease (R378). -/
  | lease (id : Nat)
  /-- An HWAIT of this cycle at a hurdle's cell, whose test comes at the end of the cycle (R332); and its bundle. -/
  | hwait (cell pc : Nat)
  deriving DecidableEq, Repr, Inhabited

/-- The hold is an HWAIT's. -/
def Hold.tests : Hold → Bool
  | .hwait .. => true
  | _ => false

/-- A part (R29): its gang slices as a mask, its aging (R39), YIELD mark (R253), watchdog count (R384) and
what holds it. -/
structure Part where
  slices : Nat
  aging : Nat
  promoted : Option Nat
  yielded : Bool
  idle : Nat
  holds : List Hold
  /-- The cycle in which it stopped for a save (R377). -/
  stop : Option Nat
  deriving DecidableEq, Repr, Inhabited

/-- The state of one lane of an access: awaiting translation, in the replay buffer on a fixable fault, in it on an unfixable
one until the group resumes (R178), parked on a future, told at a cycle to present its park again (R334), in this package's
hold queue, sent to a peer as a request, awaiting the arrival of its data, or done. -/
inductive LaneSt where
  | queued | replay | stuck | parked | retry (since : Nat) | held (id : Nat) | sent (req : Nat) | arriving | done
  deriving DecidableEq, Repr, Inhabited

/-- One active lane of an access (R172, R380). `val` is what it delivers. -/
structure AccLane where
  lane : Nat
  addr : Nat
  data : Nat
  data2 : Nat
  st : LaneSt
  val : Nat
  bad : Bool
  deriving DecidableEq, Repr, Inhabited

/-- A memory-slot access under way (R174, R178, R380). `op` is its opcode of R105. -/
structure Acc where
  op : Nat
  ty : Ty
  scope : Scope
  ord : Order
  atop : AtomOp
  ro : Bool
  strm : Bool
  take : Bool
  inh : Bool
  slices : Nat
  /-- The bundle that made it, none for a stream element and after a restore. -/
  pc : Option Nat
  /-- Lane-set entry that issued it, per gang slice. -/
  owner : List (Nat × Nat)
  /-- The baton its stores belong to (R192), and the batons they carry (R193). -/
  own : Option Nat
  carries : List Nat
  lanes : List AccLane
  /-- Cycle of issue, or of the fill that last woke a park (R334). -/
  cyc : Nat
  /-- The hold bound of its context in µs when it issued (R277, R364). -/
  hold : Nat
  /-- A failure of it stands in the pending-failure record (R180). -/
  failed : Bool
  deriving DecidableEq, Repr, Inhabited

/-- A fixed-latency result (R96): a V register or pair with the latch shift, a predicate, an S or K register, or a
special register. -/
inductive Write where
  | v (lane reg lo : Nat) (hi : Option Nat) (shift : Bool)
  | p (lane reg : Nat) (b : Bool)
  | s (reg : Nat) (x : Nat)
  | k (reg : Nat) (x : Nat)
  | sys (num : Nat) (x : Nat) (slices : Nat)
  deriving DecidableEq, Repr, Inhabited

/-- A fixed-latency write in flight (R97): landing cycle, issue cycle, place in issue order, and the issuing part. -/
structure InFlight where
  land : Nat
  issue : Nat
  seq : Nat
  slices : Nat
  w : Write
  deriving DecidableEq, Repr, Inhabited

/-- A sealed batch (R231): its unfinished copies and the flag it sets, with the slices that own the flag. -/
structure Batch where
  copies : List Nat
  flag : Option Nat
  slices : Nat
  deriving DecidableEq, Repr, Inhabited

/-- A gang, keyed in `State.gangs` by its placement sequence (R38). V registers are keyed lane × 256 + n, predicates
lane × 32 + n, S and K registers and latches by number or lane; unlisted ones are 0 or false. -/
structure Gang where
  ctx : Nat
  group : Nat
  /-- V register words, by lane × 256 + register, that an error has hit and no write has replaced since (R383). -/
  badV : List Nat
  core : Nat
  quarter : Nat
  base : Nat
  width : Nat
  idx : Nat
  task : Bool
  live : Bool
  /-- Placed, and not yet started: its granules are being cleared (R314). -/
  waiting : Bool
  cls : Nat
  /-- Raised one class by R54. -/
  raised : Bool
  /-- The deque (core, context) its record came from (R54), for a task gang. -/
  deque : Option (Nat × Nat)
  v : List (Nat × Word)
  p : List (Nat × Bool)
  l0 : List (Nat × Word)
  l1 : List (Nat × Word)
  c0 : List (Nat × Word)
  c1 : List (Nat × Word)
  /-- The cycle in which each lane's latches last shifted, for the test of R99. -/
  latchAt : List (Nat × Nat)
  g : List (Nat × Word)
  s : List (Nat × Dword)
  k : List (Nat × Dword)
  dmr : Dword
  fstat : Nat
  /-- The last cycle in which a fence set FSTAT bits, and those bits (R242). -/
  fstatSet : Nat × Nat
  pendBits : Nat
  pendCount : Nat
  chk : Bool
  curcls : Nat
  inReg : Bool
  /-- End of the sprint lease, and the µs it still has while the gang is stopped (R256, R391). -/
  leaseEnd : Option Nat
  /-- When a lease that R388 or R382 ended would have ended (R309). -/
  leaseCut : Option Nat
  /-- An error that ECC cannot correct stands in its lane-set tables, loop stacks, queues or flags (R383, site 7). -/
  tainted : Bool
  leaseLeft : Nat
  window : List (Nat × Nat)
  openBatch : List Nat
  batches : List Batch
  flight : List InFlight
  accs : List (Nat × Acc)
  trig : Bool
  trigUpTo : Nat
  /-- Cycle at which the gang stopped for a save or a park (R377, R317). -/
  stopped : Option Nat
  /-- Serial of the latest acquire (R181, R268). -/
  acq : Nat
  slices : List Slice
  parts : List Part
  /-- The ALVA and ALFMT of the AL it owned when it stopped (R379). -/
  al : Option (Nat × Nat)
  deriving DecidableEq, Repr, Inhabited

/-- A kernel header's fields (R299). -/
structure Kernel where
  codelen : Nat
  codebase : Nat
  entry : Nat
  handler : Nat
  vregs : Nat
  ztiles : Nat
  barriers : Nat
  width : Nat
  gangs : Nat
  pen : Bool
  producer : Nat
  curclass : Nat
  coreq : Bool
  rollback : Bool
  check : Bool
  ftz : Bool
  spad : Nat
  maxdepth : Nat
  vgran : Nat
  sgran : Nat
  zgran : Nat
  timetable : Nat
  anchor : Nat
  astride : Nat
  deriving DecidableEq, Repr, Inhabited

/-- A timetable entry (R344): the pacer's progress with it is `st`: 0 waiting, 1 begun, 2 carried out, 3 malformed. -/
structure TtEntry where
  va : Nat
  npages : Nat
  due : Nat
  start : Nat
  tier : Nat
  act : Nat
  st : Nat
  /-- Pages of the entry whose moves have failed. -/
  fails : List Nat
  deriving DecidableEq, Repr, Inhabited

/-- A launch held by a queue (R291, R305). `st`: 0 held, 1 started, 2 triggered, 3 ending. -/
structure Launch where
  pkt : List Nat
  st : Nat
  hdr : Kernel
  /-- Groups already placed are those below `nextPlace`. -/
  nextPlace : Nat
  /-- Groups below `nextPlace` that a save has made PENDING again (R311), ascending. -/
  back : List Nat
  retired : Nat
  killed : Nat
  tstart : Nat
  ttrig : Nat
  tend : Nat
  status : Nat
  hdrErr : Nat
  tt : List TtEntry
  ttOn : Bool
  logaddr : Nat
  logmax : Nat
  lead : Nat
  misses : Nat
  unlogged : Nat
  completed : Nat
  malformed : Nat
  fetched : Nat
  evicted : Nat
  autoMoves : Nat
  failed : Nat
  /-- Energy in nJ, as a fraction (R308). -/
  energy : Nat × Nat
  cycles : Nat
  heldTime : Nat
  /-- Throttled cycles by the six reasons of R309. -/
  throttled : List Nat
  /-- Its timetable summary has been written, or dropped (R347). -/
  summed : Bool
  deriving DecidableEq, Repr, Inhabited

/-- A system fault of a group (R298, R370). -/
structure FaultRec where
  seq : Nat
  cause : Nat
  group : Nat
  core : Nat
  gang : Nat
  pc : Nat
  addr : Nat
  detail : Nat
  time : Nat
  deriving DecidableEq, Repr, Inhabited

/-- Queue states (R294). -/
inductive QState where
  | disabled | idle | active | draining | halted | faulted
  deriving DecidableEq, Repr, Inhabited

/-- A submission that has arrived at its queue processor (R293): in which of its cycles; 0 for a host store, the core above it for a
LAUNCH; its issue number; the packet; and the gang and hold of a LAUNCH, which await the status. -/
structure Submission where
  cyc : Nat
  rank : Nat
  order : Nat
  pkt : List Nat
  asker : Option (Nat × Hold)
  deriving DecidableEq, Repr, Inhabited

/-- A queue (R290, R294). `slots` are the groups whose fault records are VALID; `waiting` those whose records wait. -/
structure Queue where
  st : QState
  kept : QState
  last : Nat
  done : Nat
  cls : Nat
  qbuf : Nat
  faultbase : Nat
  drops : Nat
  cmderr : Nat
  pkterr : Nat
  launches : List (Nat × Launch)
  slots : List (Nat × Nat)
  waiting : List Nat
  /-- Slots whose group a command resumes, or kills (true), once VALID := 0 is written at the address (R294, R422). -/
  leaving : List (Nat × Nat × Bool)
  inbox : List Submission
  /-- End statuses of launches that have ended (R295). -/
  ended : List (Nat × Nat)
  deriving DecidableEq, Repr, Inhabited

/-- Group states (R310). -/
inductive GState where
  | pending | placed | resident | parked | draining | retired
  deriving DecidableEq, Repr, Inhabited

/-- A snapshot of a group with ROLLBACK (R320): its scratchpad, its future bits, and its launch gangs; and the flags that commands
under way at the snapshot set in them, as gang, slices and flag. -/
structure Snapshot where
  spad : List (Nat × Byte)
  futs : List Nat
  gangs : List (Nat × Gang)
  cmds : List (Nat × Nat × Nat)
  deriving DecidableEq, Repr, Inhabited

/-- A barrier (R326): its phase, the gangs that have arrived, and when it is releasing the earliest cycle of its release on the clock
of each cluster with an arrived gang (R5, R330). -/
structure Bar where
  phase : Nat
  arrived : List Nat
  release : Option (List (Nat × Nat))
  deriving DecidableEq, Repr, Inhabited

/-- A lane's write to a scratchpad by the memory slot: a store of `size` bytes, or an atomic with its type; and the cycle in which its
access issued (R206, R332). -/
structure BankOp where
  gang : Nat
  acc : Nat
  issued : Nat
  lane : Nat
  addr : Nat
  size : Nat
  atomic : Option (AtomOp × Ty)
  data : Nat
  data2 : Nat
  deriving DecidableEq, Repr, Inhabited

/-- The model's own, for the order of R332: the last cycle in which the memory slot wrote to a scratchpad, the bytes that those writes
replaced, and the writes in their order. -/
structure Bank where
  cyc : Nat
  was : List (Nat × Byte)
  ops : List BankOp
  deriving DecidableEq, Repr, Inhabited

/-- A group, keyed in `State.groups` by a number of the model's own. Tile words are keyed tile × 4096 + row × 64 + column;
`depth` and `bars` are keyed by tile and barrier. -/
structure Group where
  ctx : Nat
  q : Nat
  seq : Nat
  index : Nat
  core : Nat
  st : GState
  from_ : GState
  cls : Nat
  /-- The queue processors' cycle in which it became resident (R297). -/
  since : Nat
  gangs : List Nat
  /-- A launch gang's placement number by its index, kept after it exits. -/
  launchGangs : List Nat
  spad : List (Nat × Byte)
  bank : Bank
  futs : List Nat
  z : List (Nat × Word)
  depth : List (Nat × Nat)
  bars : List (Nat × Bar)
  lap : Nat
  triggered : Bool
  fault : Option FaultRec
  /-- It has parked on a system fault: its launch does not trigger before it retires (R246). -/
  barred : Bool
  /-- The cause of a kill (R306). -/
  killed : Option Nat
  snap : Option Snapshot
  snapDue : Option (Nat × Nat)
  commit : Bool
  ueCount : Nat
  /-- Stopping for a rollback (R322). -/
  rolling : Bool
  /-- Words of the pool that an error has hit and no write has replaced since (R383): scratchpad words by offset / 4, and tile words
by the key of `z`. -/
  badSpad : List Nat
  badZ : List Nat
  /-- Errors consumed while it is PARKED, gang and site (R322; log entry 82). -/
  owed : List (Nat × Nat)
  deriving DecidableEq, Repr, Inhabited

/-- Page states (R338), in the order of R370's DETAIL. -/
inductive PState where
  | resident | remote | host | inflight | replica | shootdown | poisoned | unmapped
  deriving DecidableEq, Repr, Inhabited

/-- A page record (R338). -/
structure PageRec where
  st : PState
  wrev : Bool
  pinned : Bool
  /-- The page was allocated by the pacer (R341). -/
  owned : Bool
  /-- For a page in flight its entry before the move; for a local copy of a peer's replica the peer's entry (R343, R346). -/
  entry : Nat
  /-- Size of the page that the host has mapped, of which this is one 64 KiB piece (R338). -/
  size : Nat
  deriving DecidableEq, Repr, Inhabited

/-- A save, a kill or a restore in progress (R279): the command's fields. -/
structure Stop where
  kill : Bool
  area : Nat
  arealen : Nat
  map : Nat
  statrec : Nat
  /-- Status records of kills that wait for the end of SAVING. -/
  kills : List Nat
  /-- A restore onto a FREE number. -/
  free : Bool
  deriving DecidableEq, Repr, Inhabited

/-- Context states (R278). -/
inductive CState where
  | free | live | stopping | saving | restoring
  deriving DecidableEq, Repr, Inhabited

/-- A context (R276). Broadcast words are keyed cluster × 16 + n; page records by VA / 65,536; access counters of 2 MiB
regions by (VA / 2^21) × 4 + die (R348). Cluster and device barriers are keyed cluster × 16 + n and n. -/
structure Ctx where
  st : CState
  root : Nat
  /-- HOLDUS and WDLOG as the descriptor has them (R276). -/
  holdus : Nat
  wdlog : Nat
  killexp : Bool
  check : Bool
  vf : Nat
  bcast : List (Nat × Nat)
  /-- BCMINs of the last cycles: word key, issue cycle, value before (R204). -/
  bcOld : List (Nat × Nat × Nat)
  queues : List (Nat × Queue)
  pages : List (Nat × PageRec)
  regions : List (Nat × Nat)
  spill : Option (Nat × Nat)
  /-- Units of the spill area in use. -/
  spillUsed : List Nat
  clubar : List (Nat × Bar)
  devbar : List (Nat × Bar)
  stop : Option Stop
  deriving DecidableEq, Repr, Inhabited

/-- A range-lock entry (R207): the owner is the number of a command, of a stream's gang, or of a remote request. -/
structure Lock where
  lo : Nat
  hi : Nat
  dest : Bool
  /-- Global ranges of ZRET mode 10 are virtual addresses of a context; scratchpad ranges belong to a group. -/
  glob : Bool
  space : Nat
  owner : Nat
  deriving DecidableEq, Repr, Inhabited

/-- A queued command of the matrix engine (R206). -/
structure MatCmd where
  i : Instr
  gang : Nat
  group : Nat
  slices : Nat
  /-- The bundle that placed it. -/
  pc : Nat
  /-- Active rows as a mask of gang lanes (R208). -/
  rows : Nat
  fb : Nat
  sx : Nat
  sz : Nat
  /-- The A operand captured at issue: (row × 16 + register, word) (R215). -/
  a : List (Nat × Word)
  /-- Random values carried by ZST and ZRET under RS: (row × 64 + column, value) (R220). -/
  rnd : List (Nat × Nat)
  issued : Nat
  /-- The MMAC instance it joins (R221). -/
  inst : Nat
  /-- MMAC: the cycle in which its instance was complete (R221), and then the format-block and A metadata of the
  position-0 participant, whose A rows `a` holds from then on (R222). -/
  fired : Option Nat
  afb : Nat
  ameta : List Byte
  /-- ZRET mode 10: requests of remote rows still unanswered, and whether the rows have been written. -/
  reqs : List Nat
  wrote : Bool
  failed : Bool
  /-- ZRET mode 10: the page on whose fixable fault it is held, and whether it is held on an unfixable one until its group
  resumes (R230, R318). -/
  held : Option Nat
  barred : Bool
  deriving DecidableEq, Repr, Inhabited

/-- A copy command (R225, R226). -/
structure CopyCmd where
  gang : Nat
  group : Nat
  slices : Nat
  /-- The bundle that placed it. -/
  pc : Nat
  desc : List Nat
  src : Nat
  dst : Nat
  remote : Bool
  scope : Scope
  f : Option Nat
  issued : Nat
  /-- Linear indices of elements already performed, and of those sent over the fabric. -/
  done : List Nat
  sent : List Nat
  /-- The page on whose fixable fault it is held, and whether it is held on an unfixable one until its group resumes (R230,
  R318). -/
  held : Option Nat
  barred : Bool
  failed : Bool
  /-- Remote side: 0 not asked, 1 asked, 2 accepted. -/
  locked : Nat
  reqs : List Nat
  deriving DecidableEq, Repr, Inhabited

/-- The reuse latch AL (R215). -/
structure Al where
  gang : Nat
  va : Nat
  fmt : Nat
  a : List (Nat × Word)
  deriving DecidableEq, Repr, Inhabited

/-- A task record (R248) in a deque: its 256 bits, the spawner's launch (queue and sequence number) and class (R51). -/
structure TaskRec where
  bits : Nat
  q : Nat
  seq : Nat
  cls : Nat
  deriving DecidableEq, Repr, Inhabited

/-- A task deque (R50), its head first. -/
structure Deque where
  ctx : Nat
  recs : List TaskRec
  /-- Blocked FORKs in the order in which they blocked: gang, name, record (R54). -/
  blocked : List (Nat × Nat × Nat)
  /-- How many of the blocked FORKs, from the head on, are being retried (R54). -/
  draining : Nat
  /-- The cycle in which it last took an operation (R53). -/
  busy : Option Nat
  deriving DecidableEq, Repr, Inhabited

/-- A read-only L1 line of 128 bytes at a physical address, read at a serial (R181, R268). -/
structure L1Line where
  pa : Nat
  data : List Byte
  serial : Nat
  deriving DecidableEq, Repr, Inhabited

/-- A TLB entry (R282): context, first address, size and table entry. -/
structure TlbEntry where
  ctx : Nat
  va : Nat
  size : Nat
  e : Nat
  deriving DecidableEq, Repr, Inhabited

/-- A pool allocation waiting for the clear engine (R314): a group, or a task gang with its record, its granules and the
cycle in which the engine began it. -/
structure Clear where
  group : Nat
  gang : Option Nat
  record : Nat
  grans : Nat
  start : Nat
  deriving DecidableEq, Repr, Inhabited

/-- A waiter entry of a future's home (R334): context, cell, and the gangs and parts parked. `grp` is set for a
scratchpad cell. -/
structure Waiter where
  ctx : Nat
  grp : Option Nat
  cell : Nat
  core : Nat
  parts : List (Nat × Nat)
  deriving DecidableEq, Repr, Inhabited

/-- A core. -/
structure Core where
  matq : List (Nat × MatCmd)
  copyq : List (Nat × CopyCmd)
  locks : List (Nat × Lock)
  al : Option Al
  deques : List Deque
  l1 : List L1Line
  tlb : List TlbEntry
  clears : List Clear
  waiters : List Waiter
  /-- The cycle in which the matrix array finished its last command (R217, R235). -/
  arrayFree : Nat
  /-- Path holds (R102): (quarter × 8 + physical slice) × 2 + path, and the first cycle after each; path 0 is FP64. -/
  paths : List (Nat × Nat)
  /-- The quarter whose command entered a queue last (R103). -/
  served : Nat
  /-- MMAC counts by set × 2 + half (R221), per context: key ctx × 32 + set × 2 + half. -/
  mmacs : List (Nat × Nat)
  /-- The model's own: the cluster's cycles that the core has spent and will spend repeating one of its own (R382), and how many of
  them have passed. -/
  again : List Nat
  lag : Nat
  deriving DecidableEq, Repr, Inhabited

/-- A cluster: its clock, rail and sensors (R385, R388, R392). -/
structure Cluster where
  cyc : Nat
  /-- Time of the next clock edge. -/
  edge : Nat
  high : Bool
  /-- A rail or clock change in progress ends at this time (R385). -/
  change : Option Nat
  /-- The clock of the lease is in force: 1.4 GHz. -/
  sprint : Bool
  lastIssue : Nat
  tRaw : Int
  tEff : Int
  tSusp : Bool
  /-- A case of R392 holds for the standing reading, as it was last judged; and when one last held. -/
  tHeld : Bool
  tSince : Nat
  iRaw : Int
  iEff : Int
  iSusp : Bool
  iHeld : Bool
  iSince : Nat
  /-- Hysteresis of the three thermal thresholds and of the current ceiling (R388). -/
  hot90 : Bool
  hot100 : Bool
  hot105 : Bool
  overI : Bool
  /-- Whether the thermal and the current action rest on a substituted reading (R390). -/
  tSubst : Bool
  iSubst : Bool
  /-- Raw readings of the last 10 ms: (time, value) (R392). -/
  tHist : List (Nat × Int)
  iHist : List (Nat × Int)
  replays : List Nat
  rhold : Option Nat
  deriving DecidableEq, Repr, Inhabited

/-- A miss-merge entry (R282): context, VA[56:21], the 64 KiB pages waiting for its walk and those waiting for a fault. -/
structure Merge where
  ctx : Nat
  key : Nat
  pages : List Nat
  faults : List Nat
  deriving DecidableEq, Repr, Inhabited

/-- A request that waits for the current arbiter or for a lease (R387, R391): the gang, the class or the duration in µs, the
request's name in the hold or the wait, and the time of its arrival. -/
structure PwrReq where
  gang : Nat
  want : Nat
  id : Nat
  time : Nat
  deriving DecidableEq, Repr, Inhabited

/-- A die's shared structures (R282, R387, R389, R391). -/
structure Die where
  tlb : List TlbEntry
  merge : List Merge
  /-- Misses that wait for a free merge entry: context and page. -/
  overflow : List (Nat × Nat)
  /-- Waiting PWRACQs and requests for leases, in the order of R387. -/
  pwrq : List PwrReq
  budget : Nat
  leaseq : List PwrReq
  deriving DecidableEq, Repr, Inhabited

/-- Peer link states (R358). -/
inductive LState where
  | none | up | recovery | dead
  deriving DecidableEq, Repr, Inhabited

/-- A peer link and its PEERSTAT counters (R358, R362). -/
structure Peer where
  st : LState
  inc : Nat
  stale : Nat
  /-- Time at which the link entered RECOVERY. -/
  since : Nat
  deriving DecidableEq, Repr, Inhabited

/-- Port states (R357). -/
inductive PortSt where
  | disabled | training | active | degraded | retrain | failed
  deriving DecidableEq, Repr, Inhabited

/-- A port (R357): state, time of entry, times of its RETRAINs, and the low-power state of the Power chapter. -/
structure Port where
  st : PortSt
  since : Nat
  retrains : List Nat
  low : Bool
  lastUse : Nat
  deriving DecidableEq, Repr, Inhabited

/-- What a read or write of the hub's own through the fabric is for (R109, R247, R301, R422). -/
inductive FarUse where
  | packet (gang part : Nat)
  | header (ctx q seq : Nat)
  | proof (ctx : Nat)
  | record (id : Nat)
  /-- A page's move; its number tells the answers of an earlier one from its own. -/
  | move (ctx vpage upTo : Nat)
  deriving DecidableEq, Repr, Inhabited

/-- What a request is sent for. -/
inductive Origin where
  /-- Lanes of a gang's access. -/
  | acc (gang id : Nat) (lanes : List Nat)
  /-- Elements of a copy; with no elements, the lock or unlock of its remote side. -/
  | copy (core cmd : Nat) (elems : List Nat)
  /-- Rows of a ZRET mode 10. -/
  | mat (core cmd : Nat)
  | far (use : FarUse) (addr : Nat)
  | msg
  deriving DecidableEq, Repr, Inhabited

/-- Fabric message types (R353). -/
inductive MsgKind where
  | brel | bfail | heldack | bexp | sdreq | sdack | sddone | incann | deadn
  deriving DecidableEq, Repr, Inhabited

/-- A request sent and not yet answered (R367, R368). -/
structure Req where
  peer : Nat
  tag : Nat
  dstInc : Nat
  /-- Attempts since the link came up (R358, R368). -/
  attempts : Nat
  /-- It has been sent at least once, first at `first`. -/
  went : Bool
  /-- Attempts whose CRC failed (R354). -/
  crcFails : Nat
  port : Nat
  op : RemoteOp
  msg : Option (MsgKind × Msg)
  origin : Origin
  carries : List Nat
  hold : Nat
  gang : Nat
  sent : Nat
  first : Nat
  /-- A carried store that the destination has placed in its hold queue, or whose last answer was busy (R364). -/
  held : Bool
  busy : Bool
  deriving DecidableEq, Repr, Inhabited

/-- An outcome kept for a received tag and the use of it (R368), with the poison marks of its data by sector (R354). There is none of a
carried store that was dropped here, whose issuer BEXP tells. -/
structure TagRec where
  src : Nat
  tag : Nat
  number : Nat
  ans : Option AnsKind
  poison : Nat
  deriving DecidableEq, Repr, Inhabited

/-- An answer sent to a package (R354, R360, R367). -/
structure Reply where
  dst : Nat
  dstInc : Nat
  srcInc : Nat
  tag : Nat
  ans : AnsKind
  poison : Nat
  deriving DecidableEq, Repr, Inhabited

/-- Batons (R363, R365). -/
inductive BatonSt where
  | pending | released | failed
  deriving DecidableEq, Repr, Inhabited

/-- A baton table entry (R363): the stores not yet acknowledged, the peers that its stores were sent to, the destinations that hold
stores carrying it, and those already told. -/
structure Baton where
  st : BatonSt
  gang : Nat
  stores : Nat
  carries : List Nat
  peers : List Nat
  dests : List Nat
  told : List Nat
  deriving DecidableEq, Repr, Inhabited

/-- A store in the hold queue (R363, R364). -/
structure Held where
  src : Nat
  srcInc : Nat
  gang : Nat
  order : Nat
  carries : List Nat
  /-- Batons of the issuer whose BREL has arrived here. -/
  got : List Nat
  bytes : List (Nat × Byte)
  /-- A peer's store: its tag, and the use of it. -/
  tag : Nat
  number : Nat
  /-- Own package's store: the access and lanes to acknowledge. -/
  origin : Origin
  hold : Nat
  since : Nat
  deriving DecidableEq, Repr, Inhabited

/-- A domain shoot-down of a page (R273, R350), as one 64 KiB piece of a mapping of it here knows it. Reads numbered below `upTo`
were made before the replicas here went; `told` when the home has been acknowledged, or is this package. -/
structure Shoot where
  ctx : Nat
  vpage : Nat
  home : Nat
  pa : Nat
  serial : Nat
  waiting : List Nat
  upTo : Nat
  told : Bool
  deriving DecidableEq, Repr, Inhabited

/-- The fabric agents (17). -/
structure Link where
  peers : List (Nat × Peer)
  ports : List (Nat × Port)
  inc : Nat
  reqs : List (Nat × Req)
  tags : List TagRec
  batons : List (Nat × Baton)
  batonNext : Nat
  held : List (Nat × Held)
  shoots : List Shoot
  serials : List (Nat × Nat)
  /-- Planes of the fabric that do not route to a package, by plane and package (R356), as the host has configured the fabric;
  none at reset (log entry 14, DESIGN CHOICE). -/
  noRoute : List (Nat × Nat)
  /-- Messages sent with their ports, and requests sent (their numbers and ports), newest first: an output. -/
  sentMsgs : List (Nat × MsgKind × Msg)
  sentReqs : List (Nat × Nat)
  /-- Answers sent, newest first, and expiry records written: (baton, reason). -/
  answers : List Reply
  expiries : List (Nat × Nat)
  deriving DecidableEq, Repr, Inhabited

/-- The device registers and boot state (20). `stage` is the STAGE register's field; before power-good `powered` is
false. -/
structure Dev where
  powered : Bool
  stage : Nat
  /-- The hub's cycle of the last change of stage, and the stage before it, none for reset (R393). -/
  changed : Option (Nat × Option Nat)
  /-- Records found good whose stage 1 waits for a safe kernel's end (R393). -/
  boot : Option BootResult
  err : Nat
  detail : Nat
  feat : Nat
  featWr : Bool
  go : Bool
  planes : Nat
  pkgid : Nat
  porten : Nat
  expbase : Nat
  expcnt : Nat
  safelp : Nat
  safeState : Nat
  safeEnd : Nat
  safeReason : Nat
  safeOffset : Nat
  /-- Time at which stage 0 began. -/
  t0 : Nat
  masks : List Nat
  /-- Die budgets of the voltage-trim record (R389). -/
  records : List Nat
  /-- HBM repair records, by stack (R395). -/
  repairs : List (Nat × List Nat)
  /-- The monotonic counters that flash keeps for the record types 1 to 3 (R395). -/
  counters : List Nat
  /-- The identity key's helper data in flash, and its certificate chain (R400). -/
  helper : List Nat
  chain : List Nat
  /-- The security core has reconstructed the identity key (R400). -/
  identity : Bool
  deriving DecidableEq, Repr, Inhabited

/-- The algorithms of attestation (R401). -/
inductive SpdmAlg where
  | ed448 | shake256
  deriving DecidableEq, Repr

/-- What an attestation answer carries (R401): the version of SPDM, the algorithms offered, the certificate chain, FEATACPT, or a word
that the spec does not give. -/
inductive SpdmAns where
  | version (major minor : Nat)
  | algorithms (l : List SpdmAlg)
  | chain (bytes : List Nat)
  | block (value : Nat)
  | word (free : Nat)
  deriving DecidableEq, Repr

/-- A page move of the pacer (R343): to the spill area (`out`) or to a die (0xF for any), asked for by entry `entry` of a
launch's timetable or by automatic placement. Once it has begun, `old` is the 64 KiB table entry before it, `dst` the
address that it goes to, and accesses numbered below `upTo` may still use the old translation (R283). -/
structure Move where
  ctx : Nat
  vpage : Nat
  out : Bool
  tier : Nat
  auto : Bool
  q : Nat
  seq : Nat
  entry : Nat
  began : Bool
  old : Nat
  dst : Nat
  upTo : Nat
  deriving DecidableEq, Repr, Inhabited

/-- A proofed code range (R111): its proof class, the offsets of its bundle headers, its 64 KiB pages that are still
executable under it, and the bytes read from pages that are not in local HBM. -/
structure Proof where
  ctx : Nat
  base : Nat
  len : Nat
  vregs : Nat
  ztiles : Nat
  barriers : Nat
  pen : Bool
  feat : Nat
  heads : List Nat
  pages : List Nat
  far : List (Nat × Byte)
  deriving DecidableEq, Repr, Inhabited

/-- A proof request (R109), a mapping action that waits for a page, or the safe kernel's own request (R397). -/
structure ProofReq where
  ctx : Nat
  khdr : Nat
  recordPa : Nat
  statrec : Nat
  safe : Bool
  deriving DecidableEq, Repr, Inhabited

/-- A map command carried out whose status waits for accesses through the old translation (R283): those numbered below
`upTo`. -/
structure MapFin where
  ctx : Nat
  va : Nat
  len : Nat
  statrec : Nat
  value : Nat
  upTo : Nat
  deriving DecidableEq, Repr, Inhabited

/-- A context as it was when it was saved (log entry 8, DESIGN CHOICE), named by TIMENS and ROOT, which the area holds. -/
structure Kept where
  timens : Nat
  root : Nat
  ctx : Ctx
  groups : List (Nat × Group)
  gangs : List (Nat × Gang)
  deques : List (Nat × Deque)
  proofs : List Proof
  deriving DecidableEq, Repr, Inhabited

/-- A line of the management controller's log. -/
inductive LogLine where
  | poisonedPage (pa : Nat)
  | killedGroup (group cause : Nat)
  | replay (cluster : Nat)
  | shutdown (cluster : Nat)
  | portFailed (port : Nat)
  | dropped (kind addr : Nat)
  | corrected
  | moveFailed (ctx vpage : Nat)
  | unheldExpiry (seq pa : Nat)
  deriving DecidableEq, Repr, Inhabited

/-- The bundle now issuing: gang, part's lowest slice, the slices, the bundle's address and the next, its gap, the core's
cycle, and the active part's header CHECK bit. -/
structure Cursor where
  gang : Nat
  part : Nat
  slices : Nat
  pc : Nat
  next : Nat
  gap : Nat
  cyc : Nat
  check : Bool
  /-- The head entries popped for this bundle's one naming of Q, per gang slice (R93). -/
  q : List (Nat × List LdqEntry)
  /-- The copy descriptor read before the bundle issues (R206, R225). -/
  desc : List Nat
  /-- The checks of R372 have been made for every slot. -/
  checked : Bool
  /-- The model's own: names the free values that the bundle reads (R97). -/
  draw : Nat
  deriving DecidableEq, Repr, Inhabited

/-- A far read or write that has been answered or failed: its use, address, the bytes, and the sectors of its 256-byte block that
carry a poison mark. -/
structure FarData where
  use : FarUse
  addr : Nat
  data : Option (List Byte)
  poison : Nat
  deriving DecidableEq, Repr, Inhabited

/-- The machine's state. -/
structure State where
  time : Nat
  dev : Dev
  clusters : List (Nat × Cluster)
  dies : List (Nat × Die)
  cores : List (Nat × Core)
  gangs : List (Nat × Gang)
  groups : List (Nat × Group)
  ctxs : List (Nat × Ctx)
  /-- Local HBM by physical address; an unlisted byte reads 0x00. -/
  mem : List (Nat × Byte)
  /-- Full futures in global memory, by cell address (R333). -/
  futs : List Nat
  /-- Waiter entries of global futures (R334). -/
  fwait : List Waiter
  /-- Dies, the hub die as 4, whose next transaction on a die-to-die path fails every attempt of its check (R354). -/
  dieFails : List Nat
  /-- 32-byte sectors that carry a poison mark, by address / 32, and the site of R383 that found the error (R354). -/
  poison : List (Nat × Nat)
  /-- Pages of HBM never allocated again, by address / 65,536 (R352). -/
  failed : List Nat
  /-- 64 KiB units of HBM allocated by the pacer, by address / 65,536 (R341). -/
  alloc : List Nat
  /-- Next free table of the table region (R281). -/
  tblNext : Nat
  /-- Host memory by (context × 2^64 + I/O virtual address), and the pages of it that the host has present. -/
  host : List (Nat × Byte)
  hostHere : List (Nat × Nat)
  /-- Page requests sent to the host and not yet answered (R338). -/
  pageReqs : List (Nat × Nat)
  /-- Reads and writes of the hub that wait for such a page: their use, context and address (R338). -/
  asks : List (FarUse × Nat × Nat)
  proofs : List Proof
  proofq : List ProofReq
  /-- Mapping actions that wait for a page's move or shoot-down, in order (R341). -/
  mapWait : List (Nat × List Dword)
  mapFin : List MapFin
  /-- What the hub keeps across a save of what the save area does not hold (log entry 8, DESIGN CHOICE). -/
  kept : List Kept
  moves : List Move
  far : List FarData
  link : Link
  log : List LogLine
  /-- Groups placed in the current cycle of the queue processors, each with its processor (R313). -/
  placed : List (Nat × Nat)
  /-- Attestation requests answered, newest first (R401), each with what its answer carries, or none for an error. -/
  spdm : List (SpdmReq × Option SpdmAns)
  /-- Status records stored, newest first: address, dwords 0 and 1 (R275). -/
  stats : List (Nat × Nat × Nat)
  /-- Time from which a stack of HBM has been idle, and whether it is in self-refresh (19). -/
  hbm : List (Nat × (Nat × Bool))
  /-- The model's own: events still to happen, oldest first. -/
  agenda : List Instr
  /-- The model's own: issuers picked this cycle and not yet issued (gang, part's lowest slice). -/
  picked : List (Nat × Nat)
  cur : Option Cursor
  /-- The model's own: names free values and orders issue. -/
  serial : Nat
  nextId : Nat
  deriving DecidableEq, Repr, Inhabited

/-- A cluster at reset: on the low rail, its sensors reading 0 (R392). -/
def Cluster.reset : Cluster := { (default : Cluster) with edge := 56 }

/-- A die at reset: the budget of the signed record of the J-960 (R389). -/
def Die.reset : Die := { (default : Die) with budget := 327680 }

/-- A queue after its context's create (R290). -/
def Queue.reset : Queue :=
  { st := .disabled, kept := .idle, last := 0, done := 0, cls := 0, qbuf := 0, faultbase := 0, drops := 0, cmderr := 0,
    pkterr := 0, launches := [], slots := [], waiting := [], leaving := [], inbox := [], ended := [] }

/-- The device registers at reset (R6, R394, R397, R402 to R404; log entry 4 for those without a reset value, and for what flash
holds). -/
def Dev.reset : Dev :=
  { powered := false, stage := 0, changed := none, boot := none, err := 0, detail := 0, feat := 1, featWr := false, go := false, planes := 0, pkgid := 0,
    porten := 0, expbase := 0, expcnt := 0, safelp := 0, safeState := 0, safeEnd := 0, safeReason := 0, safeOffset := 0,
    t0 := 0, masks := [], records := [327680, 327680, 327680, 327680], repairs := [],
    counters := [0, 0, 0], helper := [], chain := [], identity := false }

/-- The fabric agents at reset: nothing known of any peer, batons numbered from 1 (R358, R362, R363). -/
def Link.reset : Link := { (default : Link) with batonNext := 1 }

/-- The first table of the table region (log entry 6, DESIGN CHOICE). -/
def tableRegion : Nat := 0xB00000000

/-- The machine right after reset, before power-good (R393). -/
def State.reset : State :=
  { (default : State) with
    dev := Dev.reset
    clusters := (List.range 48).map (fun k => (k, Cluster.reset))
    dies := (List.range 4).map (fun k => (k, Die.reset))
    link := Link.reset
    tblNext := tableRegion }

end Sys2Proof.Machine
end

