-- ==== Sys2Proof/Machine/Access.lean ====
section
/-! DEFINITION. Named reads and updates of the state's tables. A record that is not there reads as the default record,
and an update of a gang, group, context or queue that is not there does nothing. -/

namespace Sys2Proof.Machine

/-- The gang with placement number `u`. -/
def State.gang (s : State) (u : Nat) : Gang := (smFind s.gangs u).getD default
/-- Change gang `u`. -/
def State.modGang (s : State) (u : Nat) (f : Gang → Gang) : State := { s with gangs := smMod s.gangs u f }
/-- The group numbered `g`. -/
def State.group (s : State) (g : Nat) : Group := (smFind s.groups g).getD default
/-- Change group `g`. -/
def State.modGroup (s : State) (g : Nat) (f : Group → Group) : State := { s with groups := smMod s.groups g f }
/-- Core `c`. -/
def State.core (s : State) (c : Nat) : Core := (smFind s.cores c).getD default
/-- Change core `c`. -/
def State.modCore (s : State) (c : Nat) (f : Core → Core) : State := { s with cores := smPut s.cores c (f (s.core c)) }
/-- Cluster `k`. -/
def State.cluster (s : State) (k : Nat) : Cluster := (smFind s.clusters k).getD default
/-- Change cluster `k`. -/
def State.modCluster (s : State) (k : Nat) (f : Cluster → Cluster) : State := { s with clusters := smMod s.clusters k f }
/-- Die `d`. -/
def State.die (s : State) (d : Nat) : Die := (smFind s.dies d).getD default
/-- Change die `d`. -/
def State.modDie (s : State) (d : Nat) (f : Die → Die) : State := { s with dies := smMod s.dies d f }
/-- Context `c`. -/
def State.ctx (s : State) (c : Nat) : Ctx := (smFind s.ctxs c).getD default
/-- Change context `c`. -/
def State.modCtx (s : State) (c : Nat) (f : Ctx → Ctx) : State := { s with ctxs := smMod s.ctxs c f }
/-- The hold bound of a context's carried stores in µs (R276). -/
def Ctx.bound (x : Ctx) : Nat := if x.holdus = 0 then 1000 else x.holdus
/-- The watchdog limit of a context in cycles (R276). -/
def Ctx.limit (x : Ctx) : Nat := 2 ^ (if x.wdlog = 0 then 24 else x.wdlog)
/-- Queue `q` of context `c`. -/
def State.queue (s : State) (c q : Nat) : Queue := (smFind (s.ctx c).queues q).getD Queue.reset
/-- Change queue `q` of context `c`. -/
def State.modQueue (s : State) (c q : Nat) (f : Queue → Queue) : State :=
  s.modCtx c (fun x => { x with queues := smPut x.queues q (f ((smFind x.queues q).getD Queue.reset)) })
/-- The launch with sequence number `n` of a queue. -/
def State.launch (s : State) (c q n : Nat) : Launch := (smFind (s.queue c q).launches n).getD default
/-- Change a launch. -/
def State.modLaunch (s : State) (c q n : Nat) (f : Launch → Launch) : State :=
  s.modQueue c q (fun x => { x with launches := smMod x.launches n f })
/-- Change the fabric agents. -/
def State.modLink (s : State) (f : Link → Link) : State := { s with link := f s.link }
/-- The peer link to package `p`. -/
def State.peer (s : State) (p : Nat) : Peer := (smFind s.link.peers p).getD default
/-- Change the peer link to package `p`. -/
def State.modPeer (s : State) (p : Nat) (f : Peer → Peer) : State :=
  s.modLink (fun l => { l with peers := smPut l.peers p (f ((smFind l.peers p).getD default)) })
/-- A request under way. -/
def State.req (s : State) (r : Nat) : Req := (smFind s.link.reqs r).getD default
/-- Change a request. -/
def State.modReq (s : State) (r : Nat) (f : Req → Req) : State := s.modLink (fun l => { l with reqs := smMod l.reqs r f })
/-- Remove a request. -/
def State.delReq (s : State) (r : Nat) : State := s.modLink (fun l => { l with reqs := smDel l.reqs r })
/-- Add a line to the management controller's log. -/
def State.note (s : State) (x : LogLine) : State := { s with log := x :: s.log }
/-- Change the device registers. -/
def State.modDev (s : State) (f : Dev → Dev) : State := { s with dev := f s.dev }
/-- Put an event at the end of the agenda. -/
def State.later (s : State) (i : Instr) : State := { s with agenda := s.agenda ++ [i] }
/-- Take the next identity. -/
def State.fresh (s : State) : Nat × State := (s.nextId, { s with nextId := s.nextId + 1 })
/-- Advance the serial. -/
def State.tickSerial (s : State) : State := { s with serial := s.serial + 1 }

/-- The cluster of a core (R16). -/
def clusterOf (core : Nat) : Nat := core / 8
/-- The die of a core (R16). -/
def dieOf (core : Nat) : Nat := core / 96
/-- The clock cycle of a core. -/
def State.cyc (s : State) (core : Nat) : Nat := (s.cluster (clusterOf core)).cyc - (s.core core).lag
/-- TIMENS (R240): whole nanoseconds since stage 0 began. -/
def State.timens (s : State) : Nat := if s.dev.powered then (s.time - s.dev.t0) / 42 else 0
/-- The group of a gang. -/
def State.groupOf (s : State) (u : Nat) : Group := s.group (s.gang u).group
/-- The launch of a group. -/
def State.launchOf (s : State) (g : Nat) : Launch :=
  let x := s.group g
  s.launch x.ctx x.q x.seq
/-- Change the launch of a group. -/
def State.modLaunchOf (s : State) (g : Nat) (f : Launch → Launch) : State :=
  let x := s.group g
  s.modLaunch x.ctx x.q x.seq f
/-- The queue processor's copy of a group's kernel header (R301). -/
def State.kernel (s : State) (g : Nat) : Kernel := (s.launchOf g).hdr
/-- The kernel header of a gang. -/
def State.kernelOf (s : State) (u : Nat) : Kernel := s.kernel (s.gang u).group
/-- The context is being killed (R279). -/
def State.ctxDying (s : State) (c : Nat) : Bool := (s.ctx c).stop.any (fun p => p.kill)
/-- The number of the queue processors' current cycle, each 1/1.2 ns of wall time (log entry 76, DESIGN CHOICE). -/
def State.hubCycle (s : State) : Nat := s.time / 35

/-- The stage under which a write that arrives now is handled, none before stage 0: in the cycle of a change, the older one
(R393). -/
def State.writeStage (s : State) : Option Nat :=
  let now := if s.dev.powered then some s.dev.stage else none
  match s.dev.changed with
  | some (c, was) => if c = s.hubCycle then was else now
  | none => now

/-- The device comes to a stage (R393). -/
def State.toStage (s : State) (n : Nat) : State :=
  { s with dev := { s.dev with powered := true, stage := n, changed := some (s.hubCycle, s.writeStage) } }

/-- The processor that serves a queue (12). -/
def procOf (c q : Nat) : Nat := (c + q) % 8

/-- A feature bit of FEATACPT (R24). -/
def State.feature (s : State) (b : Nat) : Bool := s.dev.feat.testBit b
/-- Placement numbers of the gangs that hold a slot on a core (R28). -/
def State.gangsOn (s : State) (core : Nat) : List Nat :=
  (s.gangs.filter (fun e => e.2.live && e.2.core = core)).map (·.1)
/-- Placement numbers of the live gangs of a group, launch and task gangs. -/
def State.gangsOf (s : State) (g : Nat) : List Nat :=
  (s.gangs.filter (fun e => e.2.live && e.2.group = g)).map (·.1)
/-- Live gangs of a context. -/
def State.gangsOfCtx (s : State) (c : Nat) : List Nat :=
  (s.gangs.filter (fun e => e.2.live && e.2.ctx = c)).map (·.1)
/-- Gangs of a context, those that have exited and still have work outstanding too (R125). -/
def State.everyGangOfCtx (s : State) (c : Nat) : List Nat := (s.gangs.filter (fun e => e.2.ctx = c)).map (·.1)
/-- Groups of a context that are not yet retired. -/
def State.groupsOfCtx (s : State) (c : Nat) : List Nat :=
  (s.groups.filter (fun e => e.2.ctx = c && e.2.st ≠ .retired)).map (·.1)
/-- Groups of a launch. -/
def State.groupsOfLaunch (s : State) (c q n : Nat) : List Nat :=
  (s.groups.filter (fun e => e.2.ctx = c && e.2.q = q && e.2.seq = n)).map (·.1)

/-- An element of a list changed in place. -/
def setNth {α : Type} (l : List α) (k : Nat) (f : α → α) : List α := l.mapIdx (fun i x => if i = k then f x else x)

/-- Gang slice `k`. -/
def Gang.slice (g : Gang) (k : Nat) : Slice := g.slices.getD k default
/-- Change gang slice `k`. -/
def Gang.modSlice (g : Gang) (k : Nat) (f : Slice → Slice) : Gang := { g with slices := setNth g.slices k f }
/-- Change every slice of a mask. -/
def Gang.modSlices (g : Gang) (m : Nat) (f : Slice → Slice) : Gang :=
  { g with slices := g.slices.mapIdx (fun k x => if m.testBit k then f x else x) }
/-- The current lane set of a slice (R29). -/
def Slice.curSet (x : Slice) : Option LaneSet := x.cur.bind (fun e => smFind x.sets e)
/-- Change the current lane set of a slice. -/
def Slice.modCur (x : Slice) (f : LaneSet → LaneSet) : Slice :=
  match x.cur with
  | none => x
  | some e => { x with sets := smMod x.sets e f }
/-- Change every lane set of a slice. -/
def Slice.modSets (x : Slice) (f : LaneSet → LaneSet) : Slice := { x with sets := x.sets.map (fun e => (e.1, f e.2)) }
/-- The live lanes of a slice (R29). -/
def Slice.live (x : Slice) : Nat := x.sets.foldl (fun m e => m ||| e.2.mask) 0
/-- The part that holds gang slice `k`. -/
def Gang.part (g : Gang) (k : Nat) : Option Part := g.parts.find? (fun p => p.slices.testBit k)
/-- Change the part that holds gang slice `k`. -/
def Gang.modPart (g : Gang) (k : Nat) (f : Part → Part) : Gang :=
  { g with parts := g.parts.map (fun p => if p.slices.testBit k then f p else p) }
/-- The lowest gang slice of a mask. -/
def lowSlice (m : Nat) : Nat := (lowBit 8 m).getD 0
/-- The lanes of the current lane sets of a mask of slices, ascending (R29). -/
def Gang.lanesOf (g : Gang) (m : Nat) : List Nat :=
  (bitsOf 8 m).flatMap (fun k =>
    match (g.slice k).curSet with
    | none => []
    | some x => (bitsOf 8 x.mask).map (fun j => 8 * k + j))
/-- All live lanes of a gang. -/
def Gang.liveLanes (g : Gang) : List Nat :=
  (List.range g.slices.length).flatMap (fun k => (bitsOf 8 (g.slice k).live).map (fun j => 8 * k + j))
/-- The common loop stack of a part (R118): that of its lowest slice's current lane set. -/
def Gang.loopsOf (g : Gang) (m : Nat) : List Loop :=
  match (g.slice (lowSlice m)).curSet with
  | none => []
  | some x => x.loops
/-- The part's PC. -/
def Gang.pcOf (g : Gang) (m : Nat) : Nat :=
  match (g.slice (lowSlice m)).curSet with
  | none => 0
  | some x => x.pc
/-- The bundle at which a fault of an access is taken (R298): the one that made it; the part's own for a stream element and for
an access that a restore brought back (log entry 24, DEDUCED). -/
def Gang.faultPc (g : Gang) (a : Acc) : Nat := a.pc.getD (g.pcOf a.slices)
/-- The part runs its handler (R373). -/
def Gang.inHandler (g : Gang) (m : Nat) : Bool :=
  match (g.slice (lowSlice m)).curSet with
  | none => false
  | some x => x.inh
/-- The cycle from which a part may issue (R84): the latest of its lane sets. -/
def Gang.readyOf (g : Gang) (m : Nat) : Nat :=
  (bitsOf 8 m).foldl (fun t k => match (g.slice k).curSet with | none => t | some x => max t x.ready) 0
/-- Change the current lane set of every slice of a mask. -/
def Gang.modCurs (g : Gang) (m : Nat) (f : LaneSet → LaneSet) : Gang := g.modSlices m (fun x => x.modCur f)
/-- An access of a gang. -/
def Gang.acc (g : Gang) (id : Nat) : Acc := (smFind g.accs id).getD default
/-- Change an access of a gang. -/
def Gang.modAcc (g : Gang) (id : Nat) (f : Acc → Acc) : Gang := { g with accs := smMod g.accs id f }

end Sys2Proof.Machine
end

