-- ==== Sys2Proof/Machine/Memory.lean ====
section
/-! DEFINITION. Memory: local HBM by bytes, scratchpads, poison marks, page tables and translation (R19, R20, R280 to
R283, R337 to R339, R354). -/

namespace Sys2Proof.Machine

/-- A byte memory: (address, byte) pairs, addresses strictly rising, no byte equal to the unlisted value. -/
abbrev Memory := List Host.Cell

/-- What a byte that nothing has written reads as (log entry 3, DESIGN CHOICE). -/
def Memory.unlisted : Byte := 0

/-- The canonical form: two memories with equal bytes are equal lists. -/
def Memory.wf (m : Memory) : Bool := smWf Memory.unlisted m

/-- Read one byte. -/
def Memory.read (m : Memory) (a : Nat) : Byte := smGet Memory.unlisted m a

/-- Write one byte. -/
def Memory.write (m : Memory) (a : Nat) (b : Byte) : Memory := smSet Memory.unlisted m a b

/-- Read `n` bytes from address `a`. -/
def Memory.readN (m : Memory) : Nat → Nat → List Byte
  | _, 0 => []
  | a, n + 1 => m.read a :: m.readN (a + 1) n

/-- Write bytes from address `a`. -/
def Memory.writeN : Memory → Nat → List Byte → Memory
  | m, _, [] => m
  | m, a, b :: bs => (m.write a b).writeN (a + 1) bs

/-- Write (address, byte) pairs in turn. -/
def Memory.writeAll (m : Memory) (ws : List (Nat × Byte)) : Memory := ws.foldl (fun m w => m.write w.1 w.2) m

/-- Write zero bytes: the entries of a range go. -/
def Memory.clear (m : Memory) (a n : Nat) : Memory := m.filter (fun e => !(a ≤ e.1 && e.1 < a + n))

/-- Read `n` bytes of local HBM. -/
def State.rd (s : State) (pa n : Nat) : List Byte := Memory.readN s.mem pa n
/-- Read a little-endian number of `n` bytes of local HBM (R3). -/
def State.rdN (s : State) (pa n : Nat) : Nat := ofBytes (s.rd pa n)
/-- Write bytes of local HBM. -/
def State.wr (s : State) (pa : Nat) (bs : List Byte) : State := { s with mem := Memory.writeN s.mem pa bs }
/-- Write a dword of local HBM. -/
def State.wr64 (s : State) (pa x : Nat) : State := s.wr pa (bytesOf 8 x)
/-- Write (address, byte) pairs of local HBM. -/
def State.wrAll (s : State) (ws : List (Nat × Byte)) : State := { s with mem := Memory.writeAll s.mem ws }
/-- A sector of the range carries a poison mark (R354). -/
def State.poisoned (s : State) (pa n : Nat) : Bool := s.poison.any (fun x => overlaps (32 * x.1) 32 pa n)
/-- The site (R383) of the first marked sector of a range. -/
def State.poisonSite (s : State) (pa n : Nat) : Nat :=
  ((s.poison.find? (fun x => overlaps (32 * x.1) 32 pa n)).map (·.2)).getD 4
/-- Mark the sector of an address for a site of R383 (R354) (log entry 27, DEDUCED). -/
def State.mark (s : State) (pa site : Nat) : State :=
  if s.poison.any (fun x => x.1 = pa / 32) then s else { s with poison := (pa / 32, site) :: s.poison }
/-- Take the marks off a range. -/
def State.unmark (s : State) (pa n : Nat) : State :=
  { s with poison := s.poison.filter (fun x => !(overlaps (32 * x.1) 32 pa n)) }

/-- The page of an address is POISONED (R352). -/
def State.failedAt (s : State) (pa : Nat) : Bool := s.failed.contains (pa / 0x10000)

/-- The hub die among the dies of R21. -/
def hubDie : Nat := 4

/-- A stack of HBM is accessed: its idle time begins again (19). -/
def State.touch (s : State) (pa : Nat) : State := { s with hbm := smPut s.hbm (pa / Config.stackBytes) (s.time, false) }

/-- The die of a local physical address (R19). -/
def homeDie (pa : Nat) : Nat := pa / Config.dieBytes
/-- A transaction from die `d` to die `e` crosses, and fails every attempt (R21, R354). -/
def State.crossDie (s : State) (d e : Nat) : Bool := d ≠ e && s.dieFails.contains d
/-- Such a transaction is over. -/
def State.crossed (s : State) (d : Nat) : State := { s with dieFails := s.dieFails.erase d }

/-- The L2 slice of an address (R20). -/
def homeSlice (pa : Nat) : Nat := fld pa 7 4 ^^^ fld pa 11 4 ^^^ fld pa 15 4 ^^^ fld pa 19 4

/-- Fields of a table entry (R281). -/
def entV (e : Nat) : Bool := bitB e
def entLeaf (e : Nat) : Bool := bitB (e / 2)
def entW (e : Nat) : Bool := bitB (e / 8)
def entX (e : Nat) : Bool := bitB (e / 16)
def entRo (e : Nat) : Bool := bitB (e / 32)
def entKind (e : Nat) : Nat := fld e 6 2
def entPeer (e : Nat) : Nat := fld e 53 9
/-- The address field of a table entry: a next table, or a page's address. -/
def entAddr (e : Nat) : Nat := fld e 8 44 * 256

/-- Build a leaf entry. -/
def mkLeaf (addr kind peer : Nat) (w x ro : Bool) : Nat :=
  peer * 2 ^ 53 + addr / 256 * 256 + kind * 64 + ro.toNat * 32 + x.toNat * 16 + w.toNat * 8 + 3

/-- A held entry (R339). -/
def heldEntry : Nat := 2

/-- Page size at a level (R280). -/
def pageSize : Nat → Nat
  | 0 => 0x10000
  | 1 => 0x200000
  | _ => 0x40000000

/-- Index into the table of a level (R280). -/
def levelIndex (va : Nat) : Nat → Nat
  | 0 => fld va 16 5
  | l + 1 => fld va (21 + 9 * l) 9

/-- An entry with V = 1 that breaks a rule of R281 or R337 at level `l`. -/
def malformed (l e : Nat) : Bool :=
  fld e 62 2 ≠ 0 || fld e 52 1 ≠ 0 || fld e 2 1 ≠ 0 || entKind e = 3
    || (entKind e ≠ 1 && entPeer e ≠ 0) || (entW e && entX e) || (entW e && entRo e)
    || (3 ≤ l && entLeaf e) || (l = 0 && !(entLeaf e))
    || (!(entLeaf e) && entKind e ≠ 0)
    || (entLeaf e && entAddr e % pageSize l ≠ 0)
    || (entLeaf e && entKind e = 0 && Config.hbmBytes ≤ entAddr e)

/-- The outcome of a walk (R280, R281, R339). -/
inductive Walk where
  /-- A leaf: its entry, the page's first virtual address and size. -/
  | leaf (e va size : Nat)
  /-- A held entry at a level. -/
  | held (lvl va size : Nat)
  | unmapped (lvl : Nat)
  | malformed (lvl : Nat)
  /-- A table read met a poison mark (R383, site 6). -/
  | poison (lvl : Nat)
  deriving DecidableEq, Repr, Inhabited

/-- Walk from the table at `tbl`, level `l`. -/
def walkFrom (s : State) (va : Nat) : Nat → Nat → Walk
  | tbl, l =>
    let pa := tbl + 8 * levelIndex va l
    if s.poisoned pa 8 then .poison l
    else
      let e := s.rdN pa 8
      if !(entV e) then
        (if entLeaf e then .held l (va / pageSize l * pageSize l) (pageSize l) else .unmapped l)
      else if malformed l e then .malformed l
      else if entLeaf e then .leaf e (va / pageSize l * pageSize l) (pageSize l)
      else
        match l with
        | 0 => .malformed 0
        | k + 1 => walkFrom s va (entAddr e) k

/-- The starter's internal context, which no function can name (R397). -/
def safeCtx : Nat := 64

/-- Translation in the internal context (R397): virtual addresses equal physical ones below 0xC_0000_0000, writable but
where code is proofed. -/
def State.safeWalk (s : State) (va : Nat) : Walk :=
  if va < Config.stackBytes then
    let x := s.proofs.any (fun p => p.ctx = safeCtx && p.pages.contains (va / 0x10000))
    .leaf (mkLeaf (va / 0x10000 * 0x10000) 0 0 (!x) x false) (va / 0x10000 * 0x10000) 0x10000
  else .unmapped 4

/-- Translate a canonical address through the tables of a context (R280). -/
def State.walk (s : State) (c va : Nat) : Walk := if c = safeCtx then s.safeWalk va else walkFrom s va (s.ctx c).root 4

/-- The physical address of the entry that maps `va` at a level, if the tables above it are there. -/
def entryAt (s : State) (va : Nat) (lvl : Nat) : Nat → Nat → Option Nat
  | tbl, l =>
    let pa := tbl + 8 * levelIndex va l
    if l = lvl then some pa
    else
      let e := s.rdN pa 8
      if entV e && !(entLeaf e) then
        match l with
        | 0 => none
        | k + 1 => entryAt s va lvl (entAddr e) k
      else none

/-- The level of a page size. -/
def levelOf (size : Nat) : Nat := if size = 0x10000 then 0 else if size = 0x200000 then 1 else 2

/-- Bytes of a table of a level (R280). -/
def tableBytesOf (l : Nat) : Nat := if l = 0 then 256 else 4096

/-- The first place for a table from `t` on that no root table of a context takes. -/
def tableAfter (roots : List Nat) : Nat → Nat → Nat
  | 0, t => t
  | n + 1, t =>
    match roots.find? (fun r => overlaps r 4096 t 4096) with
    | some r => tableAfter roots n ((r + 8191) / 4096 * 4096)
    | none => t

/-- The next free place of the table region (log entry 6, DESIGN CHOICE). -/
def State.freeTable (s : State) : Nat := tableAfter (s.ctxs.map (fun c => c.2.root)) (s.ctxs.length + 1) s.tblNext

/-- Write a table entry, adding the tables on its path from the table region
(log entry 6, DESIGN CHOICE). A leaf that stands in the
way of a smaller page is divided into the pages below it. -/
def setEntry (va e lvl : Nat) : Nat → Nat → State → State
  | tbl, l, s =>
    let pa := tbl + 8 * levelIndex va l
    if l = lvl then s.wr64 pa e
    else
      match l with
      | 0 => s
      | k + 1 =>
        let x := s.rdN pa 8
        if entV x && !(entLeaf x) then setEntry va e lvl (entAddr x) k s
        else
          let t := s.freeTable
          let s := { s with mem := Memory.clear s.mem t 4096, tblNext := t + 4096 }
          let s := if entLeaf x then
              (List.range (if k = 0 then 32 else 512)).foldl (fun s i =>
                s.wr64 (t + 8 * i) (if entV x then x + i * pageSize k else x)) s
            else s
          setEntry va e lvl t k (s.wr64 pa (t / 256 * 256 + 1))

/-- Write the entry of a page of a context that exists. -/
def State.setPage (s : State) (c va size e : Nat) : State :=
  if c = safeCtx || (s.ctx c).st = .free then s
  else setEntry va e (levelOf size) (s.ctx c).root 4 s

/-- The record of the page that holds `va` (R338). -/
def State.pageRec (s : State) (c va : Nat) : PageRec :=
  (smFind (s.ctx c).pages (va / 0x10000)).getD { (default : PageRec) with st := .unmapped }

/-- Change the records of the 64 KiB pieces of a range. -/
def State.modPages (s : State) (c va size : Nat) (f : PageRec → PageRec) : State :=
  s.modCtx c (fun x =>
    { x with pages := x.pages.map (fun e => if va / 0x10000 ≤ e.1 && e.1 < (va + size) / 0x10000 then (e.1, f e.2) else e) })

/-- Page state codes of R370. -/
def pstateCode : PState → Nat
  | .resident => 0 | .remote => 1 | .host => 2 | .inflight => 3 | .replica => 4 | .shootdown => 5 | .poisoned => 6
  | .unmapped => 7

/-- The key of the miss-merge table (R282). -/
def mergeKey (va : Nat) : Nat := fld va 21 36

/-- Drop every translation of a range from the package's TLBs (R283). -/
def State.dropTlb (s : State) (c va size : Nat) : State :=
  let keep := fun (e : TlbEntry) => !(e.ctx = c && overlaps e.va e.size va size)
  { s with
    cores := s.cores.map (fun x => (x.1, { x.2 with tlb := x.2.tlb.filter keep }))
    dies := s.dies.map (fun x => (x.1, { x.2 with tlb := x.2.tlb.filter keep })) }

/-- A miss that has waited joins an entry, or takes a freed one. -/
def Die.takeMiss (d : Die) (x : Nat × Nat) : Die :=
  let va := x.2 * 0x10000
  if d.merge.any (fun m => m.ctx = x.1 && m.key = mergeKey va) then
    { d with merge := d.merge.map (fun m =>
        if m.ctx = x.1 && m.key = mergeKey va && !(m.pages.contains x.2) then { m with pages := m.pages ++ [x.2] } else m) }
  else if d.merge.length < 1024 then { d with merge := d.merge ++ [⟨x.1, mergeKey va, [x.2], []⟩] }
  else { d with overflow := d.overflow ++ [x] }

/-- Misses that wait at a die take freed entries of the miss-merge table in arrival order (R282). -/
def Die.refill (d : Die) : Die := d.overflow.foldl Die.takeMiss { d with overflow := [] }

/-- Drop every translation of a context (R279), whose entries of the miss-merge table are free again. -/
def State.dropCtx (s : State) (c : Nat) : State :=
  { s with
    cores := s.cores.map (fun x => (x.1, { x.2 with tlb := x.2.tlb.filter (fun e => e.ctx ≠ c) }))
    dies := s.dies.map (fun x => (x.1, Die.refill { x.2 with
      tlb := x.2.tlb.filter (fun e => e.ctx ≠ c), merge := x.2.merge.filter (fun e => e.ctx ≠ c),
      overflow := x.2.overflow.filter (fun e => e.1 ≠ c) })) }

/-- Look an address up in a TLB (log entry 26, DESIGN CHOICE). -/
def tlbFind (l : List TlbEntry) (c va : Nat) : Option TlbEntry :=
  l.find? (fun e => e.ctx = c && e.va ≤ va && va < e.va + e.size)

/-- Translate through the core's TLB, then its die's, which refills the core's (R282). -/
def State.tlbLookup (s : State) (core c va : Nat) : Option TlbEntry × State :=
  match tlbFind (s.core core).tlb c va with
  | some e => (some e, s)
  | none =>
    match tlbFind (s.die (dieOf core)).tlb c va with
    | some e => (some e, s.modCore core (fun x => { x with tlb := (e :: x.tlb).take 128 }))
    | none => (none, s)

/-- What an access does at its page (R178, R179): `baton` is STB and STK, `fill` is FPUT, `await` FWAIT and JOIN. -/
inductive Use where
  | read | write | baton | atomic | fill | await
  deriving DecidableEq, Repr, Inhabited

/-- Where an access goes, or why it does not (R178, R179, R338, R350). -/
inductive Place where
  | hbm (pa : Nat)
  | peer (n pa : Nat)
  | host (iova : Nat)
  /-- A fixable fault; `ask` when it raises a page request to the host. -/
  | wait (ask : Bool)
  | bad (cause detail : Nat)
  /-- The page is POISONED: an uncorrectable error (R338, R354). -/
  | poison
  deriving DecidableEq, Repr, Inhabited

/-- The host has the page of an I/O virtual address present (R398). -/
def State.hostPresent (s : State) (c iova : Nat) : Bool := s.hostHere.contains (c, iova / 0x10000)

/-- The byte lies in a page table: in the table region, or in the root table of a context (R281). The starter's internal context has
no tables (R397). -/
def State.inTables (s : State) (pa : Nat) : Bool :=
  (decide (tableRegion ≤ pa) && decide (pa < tableRegion + 0x100000000))
    || s.ctxs.any (fun c => decide (c.1 ≠ safeCtx) && decide (c.2.root ≤ pa) && decide (pa < c.2.root + 4096))

/-- An access through a leaf entry (R178, R179, R338, R350). A store to a page table is refused, since no store reaches one (R281)
(log entry 72, DESIGN CHOICE); in the starter's internal context every page is writable (R397). -/
def State.placeLeaf (s : State) (c va : Nat) (e base : Nat) (u : Use) : Place :=
  let off := va - base
  let r := s.pageRec c va
  let stores := u ≠ .read && u ≠ .await
  let replica := entRo e
  if stores && entKind e = 2 && u ≠ .write then .bad 2 2
  else if (u = .fill || u = .await) && entKind e ≠ 0 then .bad 2 2
  else if stores && entX e then .bad 2 3
  else if stores && replica && r.st = .shootdown then .wait false
  else if stores && replica then (if r.wrev then .wait false else .bad 2 17)
  else if stores && (!(entW e) || (entKind e = 0 && c ≠ safeCtx && s.inTables (entAddr e + off))) then .bad 2 2
  else if entKind e = 0 then .hbm (entAddr e + off)
  else if entKind e = 1 then .peer (entPeer e) (entAddr e + off)
  else if s.hostPresent c (entAddr e + off) then .host (entAddr e + off)
  else .wait true

/-- An access after a walk (R178, R281, R339). -/
def State.placeWalk (s : State) (c va : Nat) (w : Walk) (u : Use) : Place :=
  match w with
  | .leaf e base _ => s.placeLeaf c va e base u
  | .held _ _ _ =>
    let r := s.pageRec c va
    if r.st = .poisoned then .poison else .wait false
  | .unmapped l => .bad 1 (l + 16 * pstateCode (s.pageRec c va).st)
  | .malformed l => .bad 1 (l + 16 * 0xF)
  | .poison _ => .bad 3 6

/-- Translate for the hub, the proofer and the queue processors, which walk the tables themselves. -/
def State.place (s : State) (c va : Nat) (u : Use) : Place :=
  if canonical va then s.placeWalk c va (s.walk c va) u else .bad 2 1

/-- DETAIL of cause 1 for a host page that the host has refused (R342, R370). -/
def State.hostRefusal (s : State) (c va : Nat) : Nat :=
  (match s.walk c va with
   | .leaf _ _ size => levelOf size
   | .held l _ _ | .unmapped l | .malformed l | .poison l => l) + 16 * pstateCode .host

/-- Host memory of a context, by I/O virtual address (log entry 7, DESIGN CHOICE). -/
def hostKey (c iova : Nat) : Nat := c * 2 ^ 64 + iova
/-- Read host memory. -/
def State.hostRd (s : State) (c iova n : Nat) : List Byte := Memory.readN s.host (hostKey c iova) n
/-- Write host memory. -/
def State.hostWr (s : State) (c iova : Nat) (bs : List Byte) : State :=
  { s with host := Memory.writeN s.host (hostKey c iova) bs }

/-- Raise one page request to the host, unless it is outstanding (R282, R338). -/
def State.askHost (s : State) (c va : Nat) : State :=
  if s.pageReqs.contains (c, va / 0x10000) then s else { s with pageReqs := s.pageReqs ++ [(c, va / 0x10000)] }

/-- Read bytes of a group's scratchpad. -/
def State.spRd (s : State) (g a n : Nat) : List Byte := Memory.readN (s.group g).spad a n
/-- A scratchpad written: an error is gone from each word of four bytes that is written whole (R383) (log entry 87, DESIGN CHOICE). -/
def Group.clean (x : Group) (hit : Nat → Bool) : Group :=
  { x with badSpad := x.badSpad.filter (fun w => !((List.range 4).all (fun i => hit (4 * w + i)))) }

/-- Write bytes of a group's scratchpad. -/
def State.spWr (s : State) (g a : Nat) (bs : List Byte) : State :=
  s.modGroup g (fun x => { x with spad := Memory.writeN x.spad a bs }.clean (fun i => a ≤ i && i < a + bs.length))
/-- Write (offset, byte) pairs of a group's scratchpad. -/
def State.spWrAll (s : State) (g : Nat) (ws : List (Nat × Byte)) : State :=
  s.modGroup g (fun x => { x with spad := Memory.writeAll x.spad ws }.clean (fun i => ws.any (fun w => w.1 = i)))

/-- Split `n` bytes at `va` at 64 KiB pages: (address, offset, length). -/
def pieces (va n : Nat) : List (Nat × Nat × Nat) :=
  let first := min n (0x10000 - va % 0x10000)
  if first = n then [(va, 0, n)]
  else
    (va, 0, first) :: (List.range ((n - first + 0xFFFF) / 0x10000)).map (fun i =>
      (va + first + i * 0x10000, first + i * 0x10000, min 0x10000 (n - first - i * 0x10000)))

end Sys2Proof.Machine
end

