-- ==== Sys2Proof/Machine/Operands.lean ====
section
/-! DEFINITION. Registers, latches and operand forms (R12, R87 to R94, R96 to R100, R172), and fixed-latency writes. -/

namespace Sys2Proof.Machine

/-- The stored value of V register `r` of lane `i`. -/
def Gang.vReg (g : Gang) (i r : Nat) : Nat := (smGet (0 : Word) g.v (i * 256 + r)).toNat
/-- Store a V register of a lane. -/
def Gang.setV (g : Gang) (i r x : Nat) : Gang :=
  { g with v := smSet 0 g.v (i * 256 + r) (BitVec.ofNat 32 x), badV := g.badV.filter (· ≠ i * 256 + r) }
/-- The stored value of predicate `r` of lane `i`; P31 reads true (R12). -/
def Gang.pReg (g : Gang) (i r : Nat) : Bool := if r = 31 then true else smGet false g.p (i * 32 + r)
/-- Store a predicate of a lane; a write to P31 is discarded (R12). -/
def Gang.setP (g : Gang) (i r : Nat) (b : Bool) : Gang := if r = 31 then g else { g with p := smSet false g.p (i * 32 + r) b }
/-- The stored value of S register `r`. -/
def Gang.sReg (g : Gang) (r : Nat) : Nat := (smGet (0 : Dword) g.s r).toNat
/-- Store an S register. -/
def Gang.setS (g : Gang) (r x : Nat) : Gang := { g with s := smSet 0 g.s r (BitVec.ofNat 64 x) }
/-- The stored value of K register `r` (R191). -/
def Gang.kReg (g : Gang) (r : Nat) : Nat := (smGet (0 : Dword) g.k r).toNat
/-- Store a K register. -/
def Gang.setK (g : Gang) (r x : Nat) : Gang := { g with k := smSet 0 g.k r (BitVec.ofNat 64 x) }
/-- The latch L0 of a lane. -/
def Gang.latch0 (g : Gang) (i : Nat) : Nat := (smGet (0 : Word) g.l0 i).toNat
/-- The latch L1 of a lane. -/
def Gang.latch1 (g : Gang) (i : Nat) : Nat := (smGet (0 : Word) g.l1 i).toNat
/-- Shift a result into a lane's latches (R30, R92). -/
def Gang.shiftLatch (g : Gang) (i x : Nat) : Gang :=
  { g with l1 := smSet 0 g.l1 i (smGet 0 g.l0 i), l0 := smSet 0 g.l0 i (BitVec.ofNat 32 x) }
/-- The stochastic-rounding state of a lane (R71). -/
def Gang.gReg (g : Gang) (i : Nat) : Nat := (smGet (0 : Word) g.g i).toNat
/-- Store the stochastic-rounding state of a lane. -/
def Gang.setG (g : Gang) (i x : Nat) : Gang := { g with g := smSet 0 g.g i (BitVec.ofNat 32 x) }

/-- Write FSTAT (R242): 1 clears a bit, unless a fence set it in the cycle of the write. -/
def Gang.clearFstat (g : Gang) (cyc x : Nat) : Gang :=
  let keep := if g.fstatSet.1 = cyc then g.fstatSet.2 else 0
  { g with fstat := maskDiff g.fstat (maskDiff x keep) % 16 }

/-- The writable bits of DMR (R241). -/
def dmrMask : Nat := 0x1F1F0000

/-- The latches of a lane take a vector result that lands (R30, R92), in cycle `at_` for the test of R99. -/
def Gang.landLatch (g : Gang) (at_ : Nat) : Write → Gang
  | .v i _ lo hi true =>
    let g := { g with latchAt := smSet 0 g.latchAt i at_ }
    (match hi with | none => g.shiftLatch i lo | some h => (g.shiftLatch i lo).shiftLatch i h)
  | _ => g

/-- The register of a write takes its value; a special register takes it at the end of the cycle before `land` (R92, R239). -/
def Gang.landReg (g : Gang) (land : Nat) : Write → Gang
  | .v i r lo hi _ =>
    let g := g.setV i r lo
    (match hi with | none => g | some h => g.setV i (r + 1) h)
  | .p i r b => g.setP i r b
  | .s r x => g.setS r x
  | .k r x => g.setK r x
  | .sys num x slices =>
    if num = 0x19 then g.modSlices slices (fun k => { k with frame := { k.frame with pc := x } })
    else if num = 0x20 then { g with dmr := BitVec.ofNat 64 (x &&& dmrMask) }
    else g.clearFstat (land - 1) x

/-- Land one write (R92, R239). -/
def Gang.landWrite (g : Gang) (land : Nat) (w : Write) : Gang := (g.landReg land w).landLatch land w

/-- Writes land in order of landing cycle, then of issue (R98). -/
def insertFlight (w : InFlight) : List InFlight → List InFlight
  | [] => [w]
  | x :: xs => if w.land < x.land || (w.land = x.land && w.seq < x.seq) then w :: x :: xs else x :: insertFlight w xs

/-- Writes in issue order (R41). -/
def insertIssue (w : InFlight) : List InFlight → List InFlight
  | [] => [w]
  | x :: xs => if w.seq < x.seq then w :: x :: xs else x :: insertIssue w xs

/-- Land a list of writes in order. -/
def Gang.landAll (g : Gang) (ws : List InFlight) : Gang := ws.foldl (fun g w => g.landWrite w.land w.w) g

/-- Land every write whose landing cycle has come (R96). -/
def Gang.landUpTo (g : Gang) (cyc : Nat) : Gang :=
  let g' := { g with flight := g.flight.filter (fun w => cyc < w.land) }
  g'.landAll (g.flight.filter (fun w => w.land ≤ cyc))

/-- Land writes in cycle `now`, before their time (R100): each register keeps the write that would have landed last (R98), and the
latches shift in issue order. -/
def Gang.landNow (g : Gang) (now : Nat) (ws : List InFlight) : Gang :=
  let g := ws.foldl (fun g w => g.landReg (now + 1) w.w) g
  (ws.foldl (fun l w => insertIssue w l) []).foldl (fun g w => g.landLatch now w.w) g

/-- The write is one of the part with the slices of `m` (R100): a result of its lanes, or one that the part issued. -/
def InFlight.ofPart (m : Nat) (w : InFlight) : Bool :=
  match w.w with
  | .v i _ _ _ _ => m.testBit (i / 8)
  | .p i _ _ => m.testBit (i / 8)
  | _ => w.slices &&& m ≠ 0

/-- Land at once, in cycle `now`, every write in flight of a part (R100). -/
def Gang.landPart (g : Gang) (now slices : Nat) : Gang :=
  let g' := { g with flight := g.flight.filter (fun w => !(w.ofPart slices)) }
  g'.landNow now (g.flight.filter (InFlight.ofPart slices))

/-- Land at once, in cycle `now`, every write in flight of a gang (R100). -/
def Gang.landEvery (g : Gang) (now : Nat) : Gang := ({ g with flight := [] }).landNow now g.flight

/-- Send writes to land `lat` cycles after the issue of the current bundle (R96). -/
def State.send (s : State) (lat : Nat) (ws : List Write) : State :=
  match s.cur with
  | none => s
  | some c =>
    let new := ws.mapIdx (fun n w => InFlight.mk (c.cyc + lat) c.cyc (s.serial + n) c.slices w)
    { s.modGang c.gang (fun g => { g with flight := new.foldl (fun l w => insertFlight w l) g.flight }) with
      serial := s.serial + ws.length }

/-- Whether the bundle of a cursor sees, in a lane, a write in whose shadow it reads a register (R97): a free value for each bundle,
lane, register and write. -/
def Cursor.sees (c : Cursor) (lane reg : Nat) (w : InFlight) : Bool := Config.shadowSeesNew c.draw lane reg w.seq

/-- Writes in whose shadow a read at cycle `cyc` lies (R97), latest landing last. -/
def Gang.shadow (g : Gang) (cyc : Nat) : List InFlight := g.flight.filter (fun w => w.issue < cyc)

/-- Value of a V register that a write gives, if it writes it. -/
def Write.vVal (i r : Nat) : Write → Option Nat
  | .v i' r' lo hi _ => if i' = i && r' = r then some (lo % 2 ^ 32) else if i' = i && r' + 1 = r then hi.map (· % 2 ^ 32) else none
  | _ => none

/-- Value of a predicate that a write gives. -/
def Write.pVal (i r : Nat) : Write → Option Bool
  | .p i' r' b => if i' = i && r' = r then some b else none
  | _ => none

/-- Value of an S register that a write gives. -/
def Write.sVal (r : Nat) : Write → Option Nat
  | .s r' x => if r' = r then some (x % 2 ^ 64) else none
  | _ => none

/-- Value of a K register that a write gives. -/
def Write.kVal (r : Nat) : Write → Option Nat
  | .k r' x => if r' = r then some (x % 2 ^ 64) else none
  | _ => none

/-- What a lane reads of a register that writes in the shadow give (R41, R97): the last of those that it sees, or the old value. -/
def Cursor.inShadow {α : Type} (c : Cursor) (lane reg : Nat) (f : Write → Option α) (ws : List InFlight) (old : α) : α :=
  ws.foldl (fun x w =>
    match f w.w with
    | none => x
    | some y => if c.sees lane reg w then y else x) old

/-- Read V register `r` of lane `i` at the current bundle's issue (R97). -/
def State.readV (s : State) (c : Cursor) (i r : Nat) : Nat :=
  let g := s.gang c.gang
  c.inShadow i r (Write.vVal i r) (g.shadow c.cyc) (g.vReg i r)

/-- Read predicate `r` of lane `i` at the current bundle's issue (R97). -/
def State.readP (s : State) (c : Cursor) (i r : Nat) : Bool :=
  let g := s.gang c.gang
  if r = 31 then true else c.inShadow i (256 + r) (Write.pVal i r) (g.shadow c.cyc) (g.pReg i r)

/-- Read S register `r` at the current bundle's issue, as lane `i` sees it (R97). -/
def State.readSAt (s : State) (c : Cursor) (i r : Nat) : Nat :=
  let g := s.gang c.gang
  c.inShadow i (512 + r) (Write.sVal r) (g.shadow c.cyc) (g.sReg r)

/-- Read S register `r` as the control, memory and copy-or-matrix slots do, once for the part. -/
def State.readS (s : State) (c : Cursor) (r : Nat) : Nat := s.readSAt c 0 r

/-- Read K register `r` (R191). -/
def State.readK (s : State) (c : Cursor) (r : Nat) : Nat :=
  let g := s.gang c.gang
  c.inShadow 0 (576 + r) (Write.kVal r) (g.shadow c.cyc) (g.kReg r)

/-- A guard in lane `i` (R94). -/
def State.guardAt (s : State) (c : Cursor) (g : Guard) (i : Nat) : Bool := s.readP c i g.p.val != g.neg

/-- The lanes of the current part (R29). -/
def State.partLanes (s : State) (c : Cursor) : List Nat := (s.gang c.gang).lanesOf c.slices

/-- The active lanes of the current part under a guard (R94). -/
def State.active (s : State) (c : Cursor) (g : Guard) : List Nat := (s.partLanes c).filter (fun i => s.guardAt c g i)

/-- A system instruction's guard reads true in some lane of the part (R237). -/
def State.acts (s : State) (c : Cursor) (g : Guard) : Bool := !(s.active c g).isEmpty

/-- The `n`-th word popped from Q for lane `i` (R93). -/
def Cursor.qWord (c : Cursor) (i n : Nat) : Nat :=
  match smFind c.q (i / 8) with
  | none => 0
  | some es => (es.getD n default).vals.getD (i % 8) 0

/-- INDEX of loop level `n` (R127). -/
def State.readI (s : State) (c : Cursor) (n : Nat) : Nat := (((s.gang c.gang).loopsOf c.slices).getD n default).index

/-- An immediate as a value of a type (R89): sign-extended, or converted exactly for `.f32` and `.f64`. -/
def immVal (t : Ty) (i : BitVec 9) : Nat :=
  match t with
  | .f32 => roundEx (exOfInt i.toInt) fmtF32 .rne false 0
  | .f64 => roundEx (exOfInt i.toInt) fmtF64 .rne false 0
  | _ => wrap (if is64 t then 64 else 32) i.toInt

/-- `read_operand` of R87: the value of an operand for lane `i`, read with type `t`: 64 bits for a 64-bit type, else 32. -/
def State.operand (s : State) (c : Cursor) (o : Opd) (i : Nat) (t : Ty) : Nat :=
  match o with
  | .v n => if is64 t then s.readV c i n + 2 ^ 32 * s.readV c i (n + 1) else s.readV c i n
  | .s n => if is64 t then s.readSAt c i n else s.readSAt c i n % 2 ^ 32
  | .l0 =>
    let g := s.gang c.gang
    if is64 t then g.latch1 i + 2 ^ 32 * g.latch0 i else g.latch0 i
  | .l1 => (s.gang c.gang).latch1 i
  | .q => if is64 t then c.qWord i 0 + 2 ^ 32 * c.qWord i 1 else c.qWord i 0
  | .idx n => s.readI c n
  | .imm v => immVal t v

/-- An operand that is read as a 32-bit integer whatever the types (R89, R161, R167). -/
def State.operandI (s : State) (c : Cursor) (o : Opd) (i : Nat) : Nat := s.operand c o i .b32

/-- The per-lane index of an address (R172), as an integer. -/
def State.indexOf (s : State) (c : Cursor) (o : Opd) (i : Nat) : Int :=
  match o with
  | .v n => sx 32 (s.readV c i n)
  | .l0 => sx 32 ((s.gang c.gang).latch0 i)
  | .l1 => sx 32 ((s.gang c.gang).latch1 i)
  | .q => sx 32 (c.qWord i 0)
  | .s n => s.readSAt c i n
  | .idx n => s.readI c n
  | .imm v => v.toInt

/-- `ea(i)` of R172. -/
def State.ea (s : State) (c : Cursor) (a : Addr) (off : Int) (i : Nat) : Nat :=
  wrap64 ((s.readSAt c i a.base : Int) + s.indexOf c a.index i * (2 ^ a.sc.val : Nat) + off)

/-- The bytes of a memory type (R173). -/
def sizeOf : Ty → Nat
  | .i8 | .n8 | .e4m3 | .e5m2 | .e2m1 => 1
  | .i16 | .n16 | .f16 | .bf16 => 2
  | .b32 | .i32 | .n32 | .f32 => 4
  | .i64 | .n64 | .f64 => 8

/-- The width in bits of an integer or raw type (R8). -/
def widthOf (t : Ty) : Nat := 8 * sizeOf t

/-- A value of `w` bits extended into a register or queue entry (R56, R173): signed types by their sign. -/
def extendTo (t : Ty) (x : Nat) : Nat :=
  if is64 t then x % 2 ^ 64
  else if isSigned t then wrap 32 (sx (widthOf t) x) else x % 2 ^ widthOf t

/-- A V destination: one register, or a pair for a 64-bit type (R56). -/
def vWrite (t : Ty) (i d x : Nat) (shift : Bool) : Write :=
  if is64 t then .v i d (x % 2 ^ 32) (some (x / 2 ^ 32 % 2 ^ 32)) shift else .v i d (x % 2 ^ 32) none shift

end Sys2Proof.Machine
end

