-- ==== Sys2Proof/Machine/Arith.lean ====
section
/-! DEFINITION. Arithmetic that the vector slot and the atomics share (R57, R61, R153, R183). -/

namespace Sys2Proof.Machine

/-- The exact value of an encoding of a float type (R60). -/
def exOf (t : Ty) (x : Nat) : Ex := decodeF (fmtOf t) x

/-- The canonical NaN of a float type (R61). -/
def nanOf (t : Ty) : Nat := (fmtOf t).nan

/-- VFMIN (`mx` false) and VFMAX (R153) on encodings. -/
def fltMinMax (mx : Bool) (t : Ty) (x y : Nat) : Nat :=
  let a := exOf t x
  let b := exOf t y
  if exIsNan a then (if exIsNan b then nanOf t else y)
  else if exIsNan b then x
  else
    let less := if exEq a b then exSign a && !(exSign b) else exLt a b
    if less != mx then x else y

/-- The value of the low `w` bits as the signedness of a type reads them (R56). -/
def intVal (t : Ty) (w x : Nat) : Int := if isSigned t then sx w x else ((x % 2 ^ w : Nat) : Int)

/-- The new value of an atomic on a location of `old`, from data `d` and, for `.cas`, the new value `d2` (R183). -/
def atomNew (op : AtomOp) (t : Ty) (old d d2 : Nat) : Nat :=
  let w := widthOf t
  let m := 2 ^ w
  match op with
  | .add => (old + d) % m
  | .min => if intVal t w old ≤ intVal t w d then old else d % m
  | .max => if intVal t w old ≥ intVal t w d then old else d % m
  | .and => (old &&& d) % m
  | .or => (old ||| d) % m
  | .xor => (old ^^^ d) % m
  | .exch => d % m
  | .cas => if old = d % m then d2 % m else old
  | .fadd => roundEx (exAdd false (exOf t old) (exOf t d)) (fmtOf t) .rne false 0
  | .fmin => fltMinMax false t old (d % m)
  | .fmax => fltMinMax true t old (d % m)

end Sys2Proof.Machine
end

