-- ==== Sys2Proof/Machine/Fabric.lean ====
section
/-! DEFINITION. Sending over the fabric: ports, tags, requests and messages (R353, R356, R358, R360, R367, R368). -/

namespace Sys2Proof.Machine

/-- The port can carry traffic (R356). -/
def PortSt.usable : PortSt → Bool
  | .active | .degraded => true
  | _ => false

/-- Port `k`. -/
def State.port (s : State) (k : Nat) : Port :=
  (smFind s.link.ports k).getD { st := .disabled, since := 0, retrains := [], low := false, lastUse := 0 }

/-- Change port `k`. -/
def State.modPort (s : State) (k : Nat) (f : Port → Port) : State :=
  let x := s.port k
  s.modLink (fun l => { l with ports := smPut l.ports k (f x) })

/-- The number of planes of the fabric (R356, R404). -/
def State.planeCount (s : State) : Nat := 2 ^ s.dev.planes

/-- Port `k` is usable for package `d`: it carries traffic, and its plane routes there (R356). -/
def State.portUsable (s : State) (d k : Nat) : Bool := (s.port k).st.usable && !(s.link.noRoute.contains (k % s.planeCount, d))

/-- The usable ports for a package, ascending. -/
def State.usablePorts (s : State) (d : Nat) : List Nat := (List.range 32).filter (s.portUsable d)

/-- The first usable port for package `d` from `j` on (R356). -/
def State.portFrom (s : State) (d j : Nat) : Option Nat := ((List.range 32).map (fun i => (j + i) % 32)).find? (s.portUsable d)

/-- Bytes of operand that a lane of an atomic sends: two values for a compare-and-swap (R184, R367). -/
def atomBytes (op : AtomOp) (t : Ty) : Nat := if op = .cas then 2 * sizeOf t else sizeOf t

/-- The first byte that a request names and how many it spans. -/
def opSpan : RemoteOp → Nat × Nat
  | .read pa n => (pa, n)
  | .write bs | .push _ bs _ =>
    let lo := bs.foldl (fun m b => min m b.1) ((bs.head?.map (·.1)).getD 0)
    (lo, bs.foldl (fun m b => max m (b.1 + 1 - lo)) 0)
  | .atomic _ ty pa _ => (pa, sizeOf ty)
  | .pull _ off n | .lock _ _ off n _ _ | .unlock _ off n => (off, n)
  | .other | .message _ => (0, 0)

/-- The address that names a request's line. -/
def opAddr (op : RemoteOp) : Nat := (opSpan op).1

/-- Two requests name a common 128-byte line. -/
def sameLine (a b : RemoteOp) : Bool :=
  let (x, n) := opSpan a
  let (y, m) := opSpan b
  y / 128 ≤ (x + n - 1) / 128 && x / 128 ≤ (y + m - 1) / 128

/-- The port a request or message starts from (R356). -/
def Req.start (r : Req) : Nat :=
  let a := match r.msg with
    | some (_, m) => m.seq
    | none => opAddr r.op / 128
  (a % 32) ^^^ (r.peer % 32)

/-- A new request must wait for one already sent for its line on another port (R356), and for an older one that waits in this way. -/
def State.lineBusy (s : State) (id : Nat) (r : Req) (port : Nat) : Bool :=
  !r.went && s.link.reqs.any (fun e => e.1 ≠ id && (if e.2.went then e.2.port ≠ port else e.1 < id) && e.2.peer = r.peer && e.2.msg.isNone
    && r.msg.isNone && sameLine e.2.op r.op)

/-- Take a peer link to RECOVERY (R358). -/
def State.recover (s : State) (p : Nat) : State :=
  if (s.peer p).st = .up then s.modPeer p (fun x => { x with st := .recovery, since := s.time }) else s

/-- Send a request, or send it again (R356, R368): an UP link without a usable port enters RECOVERY. A link in RECOVERY carries what its
ports can. -/
def State.transmit (s : State) (id : Nat) : State :=
  match smFind s.link.reqs id with
  | none => s
  | some r =>
    if (s.peer r.peer).st = .none || (s.peer r.peer).st = .dead then s
    else
      let from_ := if r.attempts = 0 then r.start else r.port + 1
      match s.portFrom r.peer from_ with
      | none => s.recover r.peer
      | some k =>
        if s.lineBusy id r k then s
        else
          let now := s.timens
          let s := s.modReq id (fun r => { r with
            attempts := r.attempts + 1, busy := false, port := k, sent := s.time, first := if r.went then r.first else s.time, went := true
            msg := r.msg.map (fun m => (m.1, { m.2 with time := now })) })
          let s := s.modPort k (fun p => { p with lastUse := s.time, low := false })
          let out := match (s.req id).msg with | none => s.link.sentMsgs | some m => (k, m) :: s.link.sentMsgs
          s.modLink (fun l => { l with sentReqs := (id, k) :: l.sentReqs, sentMsgs := out })

/-- Send every request that has not been sent yet, oldest first. -/
def State.flushLink (s : State) : State :=
  (s.link.reqs.filter (fun e => e.2.attempts = 0)).foldl (fun s e => s.transmit e.1) s

/-- A tag that no unanswered request to the peer uses (R368), from a start. -/
def freeTag (used : List Nat) : Nat → Nat → Nat
  | 0, t => t
  | n + 1, t => if used.contains (t % 65536) then freeTag used n (t + 1) else t % 65536

/-- Make a request to a peer whose link is UP or in RECOVERY, and send it if it can be sent. -/
def State.request (s : State) (peer : Nat) (op : RemoteOp) (msg : Option (MsgKind × Msg)) (origin : Origin)
    (carries : List Nat) (hold gang : Nat) : Nat × State :=
  let (id, s) := s.fresh
  let t := freeTag ((s.link.reqs.filter (fun e => e.2.peer = peer)).map (fun e => e.2.tag)) 65536 id
  let r : Req :=
    { peer := peer, tag := t, dstInc := (s.peer peer).inc, attempts := 0, went := false, crcFails := 0, port := 0,
      op := op, msg := msg.map (fun m => (m.1, { m.2 with tag := t, number := id })), origin := origin, carries := carries, hold := hold, gang := gang, sent := s.time,
      first := s.time, held := false, busy := false }
  (id, (s.modLink (fun l => { l with reqs := smPut l.reqs id r })).transmit id)

/-- A message's payload as this package sends it (R353, R360). -/
def State.msg (s : State) (peer seq addr : Nat) : Msg :=
  { tag := 0, number := 0, srcInc := s.link.inc, srcPkg := s.dev.pkgid, dstPkg := peer, dstInc := (s.peer peer).inc, seq := seq, addr := addr,
    time := s.timens, crcOk := true }

/-- Send a message that its receiver answers (R353); to a NONE or DEAD link nothing is sent. -/
def State.sendMsg (s : State) (peer : Nat) (k : MsgKind) (seq addr : Nat) : State :=
  if (s.peer peer).st = .none || (s.peer peer).st = .dead then s
  else (s.request peer (.read 0 0) (some (k, s.msg peer seq addr)) .msg [] 0 0).2

/-- Send INCANN or DEADN, which are not answered (R353), from a port. -/
def State.noticeOn (s : State) (port peer : Nat) (k : MsgKind) : State :=
  let m := s.msg peer 0 0
  (s.modPort port (fun p => { p with lastUse := s.time, low := false })).modLink (fun l => { l with sentMsgs := (port, k, m) :: l.sentMsgs })

/-- Send INCANN or DEADN on the port that R356 gives; with none usable it is not sent. -/
def State.notice (s : State) (peer : Nat) (k : MsgKind) : State :=
  match s.portFrom peer (peer % 32) with
  | none => s
  | some j => s.noticeOn j peer k

/-- Count stale or malformed traffic of a peer (R360, R362). -/
def State.stale (s : State) (p : Nat) : State := s.modPeer p (fun x => { x with stale := min 0xFFFF (x.stale + 1) })

/-- Incarnation `a` is newer than `b` (R360). -/
def newer (a b : Nat) : Bool :=
  let d := (a + 2 ^ 32 - b % 2 ^ 32) % 2 ^ 32
  1 ≤ d && d ≤ 2 ^ 31 - 1

/-- The 32-byte sectors of a range of bytes in its 256-byte block (R354). -/
def sectorsOf (pa n : Nat) : Nat := maskOf ((List.range 8).filter (fun k => overlaps (pa / 256 * 256 + 32 * k) 32 pa n))

/-- An answer is still wanted: one to a move that has started again is not. -/
def State.wantsFar (s : State) (use : FarUse) : Bool :=
  match use with
  | .move c p n => s.moves.any (fun m => m.began && m.ctx = c && m.vpage = p && m.upTo = n)
  | _ => true

/-- A far read or write of the hub's own (R109, R247, R301, R422): its answer if there is one, else a request is made
once. -/
def State.farAsk (s : State) (peer : Nat) (op : RemoteOp) (use : FarUse) (addr : Nat) : Option FarData × State :=
  match s.far.find? (fun f => f.use = use && f.addr = addr) with
  | some f => (some f, { s with far := s.far.filter (fun f => !(f.use = use && f.addr = addr)) })
  | none =>
    if (s.peer peer).st = .none || (s.peer peer).st = .dead then (some ⟨use, addr, none, 0⟩, s)
    else if s.link.reqs.any (fun e => e.2.origin = .far use addr) then (none, s)
    else (none, (s.request peer op none (.far use addr) [] 0 0).2)

/-- What the hub reads at a virtual address. -/
inductive HubRead where
  | got (bs : List Byte)
  | wait
  /-- The translation has no fix, with its cause and detail. -/
  | bad (cause detail : Nat)
  /-- A read of a remote or host page failed, or met a poison mark. -/
  | failed
  deriving DecidableEq, Repr, Inhabited

/-- A read or write of the hub's own needs a host page that is not present: it asks for the page, or learns that the host has refused
it, which has no fix (R178, R338, R342). -/
def State.hostAsk (s : State) (c va : Nat) (use : FarUse) : Bool × State :=
  match s.far.find? (fun f => f.use = use && f.addr = va) with
  | some _ => (true, { s with far := s.far.filter (fun f => !(f.use = use && f.addr = va)) })
  | none =>
    let s := s.askHost c va
    (false, if s.asks.contains (use, c, va) then s else { s with asks := s.asks ++ [(use, c, va)] })

/-- Read `n` bytes within one page through a context's translation, as a load would (R109, R247, R301). -/
def State.hubReadPage (s : State) (c va n : Nat) (use : FarUse) : HubRead × State :=
  match s.place c va .read with
  | .hbm pa =>
    let s := s.touch pa
    if s.crossDie hubDie (homeDie pa) then (.failed, s.crossed hubDie) else (if s.poisoned pa n then .failed else .got (s.rd pa n), s)
  | .host io => (.got (s.hostRd c io n), s)
  | .peer p pa =>
    (match s.farAsk p (.read pa n) use va with
     | (none, s) => (.wait, s)
     | (some f, s) =>
       (match f.data with
        | none => (.failed, s)
        | some bs => (if sectorsOf pa n &&& f.poison ≠ 0 then .failed else .got bs, s)))
  | .wait false => (.wait, s)
  | .wait true =>
    let (no, s) := s.hostAsk c va use
    (if no then .bad 1 (s.hostRefusal c va) else .wait, s)
  | .bad cause detail => (.bad cause detail, s)
  | .poison => (.failed, s)

/-- Split `n` bytes at `va` at 256-byte blocks, the most that one transaction takes (R355): (address, offset, length). -/
def blocks (va n : Nat) : List (Nat × Nat × Nat) :=
  let first := min n (256 - va % 256)
  (if first = 0 then [] else [(va, 0, first)]) ++ (List.range ((n - first + 255) / 256)).map (fun i =>
    (va + first + i * 256, first + i * 256, min 256 (n - first - i * 256)))

/-- Read `n` bytes at a virtual address, block by block. The answers of remote pages are kept until the whole is there. -/
def State.hubRead (s : State) (c va n : Nat) (use : FarUse) : HubRead × State :=
  let far := s.far
  let (r, s) := (blocks va n).foldl (fun (acc : HubRead × State) p =>
    match acc.1 with
    | .got bs =>
      let (r, s) := acc.2.hubReadPage c p.1 p.2.2 use
      (match r with
       | .got b => (.got (bs ++ b), s)
       | x => (x, s))
    | _ => acc) (.got [], s)
  match r with
  | .wait => (.wait, { s with far := far.filter (fun f => f.use = use) ++ s.far.filter (fun f => f.use ≠ use) })
  | r => (r, s)

/-- Where one block of a record goes (R422): `none` drops the record. -/
inductive RecPlace where
  | here (pa : Nat)
  | peer (p pa : Nat)
  | host (io : Nat)
  | wait (ask : Bool)
  | drop
  deriving DecidableEq, Repr, Inhabited

/-- Where a block of a record at `va` goes. -/
def State.recPlace (s : State) (c va : Nat) : RecPlace :=
  match (if canonical va then s.walk c va else .unmapped 4) with
  | .leaf e base _ =>
    let pa := entAddr e + (va - base)
    if entX e || entRo e || !(entW e) then .drop
    else if entKind e = 0 then .here pa
    else if entKind e = 1 then .peer (entPeer e) pa
    else if s.hostPresent c pa then .host pa
    else .wait true
  | .held _ _ _ => if (s.pageRec c va).st = .poisoned then .drop else .wait false
  | _ => .drop

/-- Write one block of a record. The first truth value: it is done or dropped; the second: it was performed. -/
def State.recBlock (s : State) (c va : Nat) (bs : List Byte) : Bool × Bool × State :=
  match s.recPlace c va with
  | .here pa =>
    if s.crossDie hubDie (homeDie pa) then (true, false, s.crossed hubDie) else (true, true, ((s.touch pa).wr pa bs).tickSerial)
  | .host io => (true, true, (s.hostWr c io bs).tickSerial)
  | .peer p pa =>
    (match s.farAsk p (.write (bs.mapIdx (fun i b => (pa + i, b)))) (.record va) va with
     | (none, s) => (false, false, s)
     | (some f, s) => (true, f.data.isSome, s))
  | .wait false => (false, false, s)
  | .wait true =>
    let (no, s) := s.hostAsk c va (.record va)
    (no, false, s)
  | .drop => (true, false, s)

/-- Write one of the hub's or the pacer's own records through a context's translation (R422). False: it has to wait. A
record that cannot be performed is dropped and logged. -/
def State.record (s : State) (c va : Nat) (bs : List Byte) (kind : Nat) : Bool × State :=
  let ps := (blocks va bs.length).map (fun p => (p.1, (bs.drop p.2.1).take p.2.2))
  if ps.any (fun p => s.recPlace c p.1 = .drop) then (true, s.note (.dropped kind va))
  else
    let far := s.far
    let (fin, ok, s) := ps.foldl (fun (acc : Bool × Bool × State) p =>
      let (d, w, s) := acc.2.2.recBlock c p.1 p.2
      (acc.1 && d, acc.2.1 && w, s)) (true, true, s)
    if !fin then (false, { s with far := far.filter (fun f => (ps.any (fun p => f.use = .record p.1))) ++ s.far.filter (fun f =>
      !(ps.any (fun p => f.use = .record p.1))) })
    else (true, if ok then s else s.note (.dropped kind va))

end Sys2Proof.Machine
end

