-- ==== Sys2Proof/WellFormed.lean ====
section
/-! DEFINITION. Well-formed instructions: those that the proofer's per-slot checks pass (R108, R110). -/

namespace Sys2Proof

/-- No check of R110 from 0x11 to 0x13, nor 0x34, refuses the instruction. -/
def Instr.wf (i : Instr) : Bool := (Machine.legalErrs i).isEmpty

/-- The first reason of R110 that refuses the instruction (R421). -/
def Instr.refusedFor (i : Instr) : Option Nat := Machine.least (Machine.legalErrs i)

end Sys2Proof
end

