-- ==== Sys2Proof/Decode.lean ====
section
/-! DEFINITION. Decoding and encoding of slot words and bundles (R78 to R108, R120, R132, R137 to R139, R144,
R171, R205, R236). A slot word is split into its raw fields; the instruction of its opcode is read from them;
every field that the instruction's own encoding does not give back, and every check of `legalErrs`, refuses it
with its reason of R110, the least reason first (R421). -/

namespace Sys2Proof.Machine

/-- The fields of a vector slot (R88). `g` holds GP and GN. -/
structure RawV where
  op : Nat
  ty : Nat
  rm : Nat
  sat : Nat
  g : Nat
  d : Nat
  a : Nat
  b : Nat
  c : Nat
  xm : Nat
  deriving DecidableEq, Repr

/-- The fields of a memory slot (R90). -/
structure RawM where
  op : Nat
  ty : Nat
  scope : Nat
  ord : Nat
  g : Nat
  data : Nat
  base : Nat
  index : Nat
  aux : Nat
  ro : Nat
  sc : Nat
  deriving DecidableEq, Repr

/-- The fields of a copy-or-matrix slot (R91). -/
structure RawX where
  op : Nat
  g : Nat
  flag : Nat
  fe : Nat
  sx : Nat
  sy : Nat
  sz : Nat
  va : Nat
  zt : Nat
  zu : Nat
  mx : Nat
  deriving DecidableEq, Repr

/-- The fields of a control slot (R91); `ext` is 0 without LONG. -/
structure RawC where
  op : Nat
  g : Nat
  body : Nat
  long : Bool
  ext : Nat
  deriving DecidableEq, Repr

/-- The fields of a vector slot word (R88). -/
def splitV (w : Nat) : RawV :=
  ⟨fld w 56 8, fld w 52 4, fld w 49 3, fld w 48 1, fld w 42 6, fld w 34 8, fld w 24 10, fld w 14 10, fld w 4 10, fld w 0 4⟩

/-- The vector slot word of its fields (R88). -/
def joinV (r : RawV) : Nat :=
  r.op * 2 ^ 56 + r.ty * 2 ^ 52 + r.rm * 2 ^ 49 + r.sat * 2 ^ 48 + r.g * 2 ^ 42 + r.d * 2 ^ 34 + r.a * 2 ^ 24
    + r.b * 2 ^ 14 + r.c * 2 ^ 4 + r.xm

/-- The fields of a memory slot word (R90). -/
def splitM (w : Nat) : RawM :=
  ⟨fld w 56 8, fld w 52 4, fld w 49 3, fld w 47 2, fld w 41 6, fld w 31 10, fld w 25 6, fld w 15 10, fld w 3 12,
    fld w 2 1, fld w 0 2⟩

/-- The memory slot word of its fields (R90). -/
def joinM (r : RawM) : Nat :=
  r.op * 2 ^ 56 + r.ty * 2 ^ 52 + r.scope * 2 ^ 49 + r.ord * 2 ^ 47 + r.g * 2 ^ 41 + r.data * 2 ^ 31 + r.base * 2 ^ 25
    + r.index * 2 ^ 15 + r.aux * 2 ^ 3 + r.ro * 2 ^ 2 + r.sc

/-- The fields of a copy-or-matrix slot word (R91). -/
def splitX (w : Nat) : RawX :=
  ⟨fld w 58 6, fld w 52 6, fld w 48 4, fld w 47 1, fld w 41 6, fld w 35 6, fld w 29 6, fld w 21 8, fld w 17 4,
    fld w 13 4, fld w 0 13⟩

/-- The copy-or-matrix slot word of its fields (R91). -/
def joinX (r : RawX) : Nat :=
  r.op * 2 ^ 58 + r.g * 2 ^ 52 + r.flag * 2 ^ 48 + r.fe * 2 ^ 47 + r.sx * 2 ^ 41 + r.sy * 2 ^ 35 + r.sz * 2 ^ 29
    + r.va * 2 ^ 21 + r.zt * 2 ^ 17 + r.zu * 2 ^ 13 + r.mx

/-- The fields of a control slot: its word, the header's LONG bit and the EXT word (R91). -/
def splitC (w : Nat) (long : Bool) (ext : Nat) : RawC :=
  ⟨fld w 26 6, fld w 20 6, fld w 0 20, long, if long then ext else 0⟩

/-- The control slot word of its fields, without EXT (R91). -/
def joinC (r : RawC) : Nat := r.op * 2 ^ 26 + r.g * 2 ^ 20 + r.body


/-- The instruction a vector slot's opcode and fields name; none for an unassigned opcode (R104). -/
def candV (r : RawV) : Option Instr :=
  let ty := tyOf r.ty
  let rm := rmOf r.rm
  let sat := bitB r.sat
  let g := guardOf r.g
  let d := Fin.ofNat 256 r.d
  let a := opdOf r.a
  let b := opdOf r.b
  let c := opdOf r.c
  let o1 : V1 := ⟨ty, rm, sat, g, d, a⟩
  let o2 : V2 := ⟨ty, rm, sat, g, d, a, b⟩
  let o3 : V3 := ⟨ty, rm, sat, g, d, a, b, c⟩
  match r.op with
  | 0x00 => some (.vadd o2)
  | 0x01 => some (.vsub o2)
  | 0x02 => some (.vmul o2)
  | 0x03 => some (.vmulh o2)
  | 0x04 => some (.vmad o3)
  | 0x05 => some (.vmin o2)
  | 0x06 => some (.vmax o2)
  | 0x07 => some (.vabs o1)
  | 0x08 => some (.vneg o1)
  | 0x09 => some (.vand o2)
  | 0x0A => some (.vor o2)
  | 0x0B => some (.vxor o2)
  | 0x0C => some (.vnot o1)
  | 0x0D => some (.vshl o2)
  | 0x0E => some (.vshr o2)
  | 0x0F => some (.vrot o2)
  | 0x10 => some (.vbfx o2)
  | 0x11 => some (.vbfi o3)
  | 0x12 => some (.vpopc o1)
  | 0x13 => some (.vclz o1)
  | 0x14 => some (.vbrev o1)
  | 0x20 => some (.vfadd o2)
  | 0x21 => some (.vfsub o2)
  | 0x22 => some (.vfmul o2)
  | 0x23 => some (.vfma o3)
  | 0x24 => some (.vfmin o2)
  | 0x25 => some (.vfmax o2)
  | 0x26 => some (.vfabs o1)
  | 0x27 => some (.vfneg o1)
  | 0x30 => some (.vrcp o1)
  | 0x31 => some (.vrsq o1)
  | 0x32 => some (.vsqrt o1)
  | 0x33 => some (.vexp2 o1)
  | 0x34 => some (.vlog2 o1)
  | 0x35 => some (.vsin o1)
  | 0x36 => some (.vcos o1)
  | 0x37 => some (.vtanh o1)
  | 0x40 => some (.vcmp ⟨ty, g, Fin.ofNat 32 r.d, a, b, condOf (r.xm % 8), bitB (r.xm / 8)⟩)
  | 0x41 => some (.vsel ⟨ty, g, d, a, b, Fin.ofNat 32 r.c, bitB (r.c / 32)⟩)
  | 0x42 => some (.vmov o1)
  | 0x50 => some (.vcvt ⟨ty, tyOf r.xm, rm, sat, g, d, a⟩)
  | 0x51 => some (.vpack ⟨ty, tyOf r.xm, rm, sat, g, d, a, b, c⟩)
  | 0x52 => some (.vunpk ⟨ty, tyOf r.xm, rm, sat, g, d, a, b, c⟩)
  | 0x53 => some (.vqnt ⟨rm, g, d, a, bitB r.xm⟩)
  | 0x60 => some (.vote ⟨voteOf r.xm, g, Fin.ofNat 32 r.d, Fin.ofNat 32 r.a, bitB (r.a / 32)⟩)
  | 0x61 => some (.vballot ⟨g, Fin.ofNat 64 r.d, Fin.ofNat 32 r.a, bitB (r.a / 32)⟩)
  | 0x62 => some (.shfl ⟨ty, g, d, a, b, c, Fin.ofNat 16 r.xm⟩)
  | 0x63 => some (.vred ⟨redOf r.xm, ty, rm, g, d, a⟩)
  | _ => none

/-- The fields of a one-source vector instruction. -/
def rawV1 (op : Nat) (o : V1) : RawV :=
  ⟨op, tyCode o.ty, rmCode o.rm, o.sat.toNat, guardCode o.g, o.d, opdCode o.a, 0, 0, 0⟩

/-- The fields of a two-source vector instruction. -/
def rawV2 (op : Nat) (o : V2) : RawV :=
  ⟨op, tyCode o.ty, rmCode o.rm, o.sat.toNat, guardCode o.g, o.d, opdCode o.a, opdCode o.b, 0, 0⟩

/-- The fields of a three-source vector instruction. -/
def rawV3 (op : Nat) (o : V3) : RawV :=
  ⟨op, tyCode o.ty, rmCode o.rm, o.sat.toNat, guardCode o.g, o.d, opdCode o.a, opdCode o.b, opdCode o.c, 0⟩

/-- The fields of a vector-slot instruction (R88, R104, R144); none for any other. -/
def rawV : Instr → Option RawV
  | .vadd o => some (rawV2 0x00 o)
  | .vsub o => some (rawV2 0x01 o)
  | .vmul o => some (rawV2 0x02 o)
  | .vmulh o => some (rawV2 0x03 o)
  | .vmad o => some (rawV3 0x04 o)
  | .vmin o => some (rawV2 0x05 o)
  | .vmax o => some (rawV2 0x06 o)
  | .vabs o => some (rawV1 0x07 o)
  | .vneg o => some (rawV1 0x08 o)
  | .vand o => some (rawV2 0x09 o)
  | .vor o => some (rawV2 0x0A o)
  | .vxor o => some (rawV2 0x0B o)
  | .vnot o => some (rawV1 0x0C o)
  | .vshl o => some (rawV2 0x0D o)
  | .vshr o => some (rawV2 0x0E o)
  | .vrot o => some (rawV2 0x0F o)
  | .vbfx o => some (rawV2 0x10 o)
  | .vbfi o => some (rawV3 0x11 o)
  | .vpopc o => some (rawV1 0x12 o)
  | .vclz o => some (rawV1 0x13 o)
  | .vbrev o => some (rawV1 0x14 o)
  | .vfadd o => some (rawV2 0x20 o)
  | .vfsub o => some (rawV2 0x21 o)
  | .vfmul o => some (rawV2 0x22 o)
  | .vfma o => some (rawV3 0x23 o)
  | .vfmin o => some (rawV2 0x24 o)
  | .vfmax o => some (rawV2 0x25 o)
  | .vfabs o => some (rawV1 0x26 o)
  | .vfneg o => some (rawV1 0x27 o)
  | .vrcp o => some (rawV1 0x30 o)
  | .vrsq o => some (rawV1 0x31 o)
  | .vsqrt o => some (rawV1 0x32 o)
  | .vexp2 o => some (rawV1 0x33 o)
  | .vlog2 o => some (rawV1 0x34 o)
  | .vsin o => some (rawV1 0x35 o)
  | .vcos o => some (rawV1 0x36 o)
  | .vtanh o => some (rawV1 0x37 o)
  | .vcmp o => some ⟨0x40, tyCode o.ty, 0, 0, guardCode o.g, o.pd, opdCode o.a, opdCode o.b, 0, condCode o.cc + 8 * o.h1.toNat⟩
  | .vsel o => some ⟨0x41, tyCode o.ty, 0, 0, guardCode o.g, o.d, opdCode o.a, opdCode o.b, o.pc + 32 * o.neg.toNat, 0⟩
  | .vmov o => some (rawV1 0x42 o)
  | .vcvt o => some ⟨0x50, tyCode o.dt, rmCode o.rm, o.sat.toNat, guardCode o.g, o.d, opdCode o.a, 0, 0, tyCode o.st⟩
  | .vpack o => some ⟨0x51, tyCode o.dt, rmCode o.rm, o.sat.toNat, guardCode o.g, o.d, opdCode o.a, opdCode o.b, opdCode o.c, tyCode o.st⟩
  | .vunpk o => some ⟨0x52, tyCode o.dt, rmCode o.rm, o.sat.toNat, guardCode o.g, o.d, opdCode o.a, opdCode o.j, opdCode o.h, tyCode o.st⟩
  | .vqnt o => some ⟨0x53, 15, rmCode o.rm, 0, guardCode o.g, o.d, opdCode o.a, 0, 0, o.k32.toNat⟩
  | .vote o => some ⟨0x60, 0, 0, 0, guardCode o.g, o.pd, o.pa + 32 * o.neg.toNat, 0, 0, voteCode o.mode⟩
  | .vballot o => some ⟨0x61, 0, 0, 0, guardCode o.g, o.sd, o.pa + 32 * o.neg.toNat, 0, 0, 0⟩
  | .shfl o => some ⟨0x62, tyCode o.ty, 0, 0, guardCode o.g, o.d, opdCode o.a, opdCode o.sel, opdCode o.f, o.e⟩
  | .vred o => some ⟨0x63, tyCode o.ty, rmCode o.rm, 0, guardCode o.g, o.d, opdCode o.a, 0, 0, redCode o.op⟩
  | _ => none

/-- Which of A, B and C an instruction reads as operand codes (R144): an unassigned code there is 0x12, and a
value in an unused field 0x13. -/
def usesV : Instr → Bool × Bool × Bool
  | .vabs _ | .vneg _ | .vnot _ | .vpopc _ | .vclz _ | .vbrev _ | .vfabs _ | .vfneg _ | .vrcp _ | .vrsq _ | .vsqrt _
  | .vexp2 _ | .vlog2 _ | .vsin _ | .vcos _ | .vtanh _ | .vmov _ | .vcvt _ | .vqnt _ | .vred _ => (true, false, false)
  | .vmad _ | .vbfi _ | .vfma _ | .shfl _ => (true, true, true)
  | .vpack o => (true, true, pack8 o.dt)
  | .vunpk o => (true, true, decide (o.st = .e2m1))
  | .vote _ | .vballot _ => (false, false, false)
  | _ => (true, true, false)

/-- The reason of a non-zero or unaccepted XM (R144): 0x11 where the instruction uses the field. -/
def xmReason : Instr → Nat
  | .vote _ | .vred _ => 0x11
  | _ => 0x13

/-- Reasons for the fields of `r` that the instruction's own fields `e` do not give back (R89, R110, R144). -/
def lostV (i : Instr) (r e : RawV) : List Nat :=
  let (ua, ub, uc) := usesV i
  chk (r.ty = e.ty) 0x11 ++ chk (r.rm = e.rm) 0x11 ++ chk (r.xm = e.xm) (xmReason i)
    ++ chk (r.a = e.a) (if ua then 0x12 else 0x13) ++ chk (r.b = e.b) (if ub then 0x12 else 0x13)
    ++ chk (r.c = e.c) (if uc then 0x12 else 0x13) ++ chk (r.sat = e.sat) 0x13 ++ chk (r.d = e.d) 0x13
    ++ chk (r.g = e.g) 0x13 ++ chk (r.op = e.op) 0x10

/-- The checks of a vector slot's fields: the reasons that refuse it (R110). -/
def errsOfV (r : RawV) : List Nat :=
  match candV r with
  | none => [0x10]
  | some i =>
    match rawV i with
    | none => [0x10]
    | some e => lostV i r e ++ legalErrs i

/-- The instruction a memory slot's opcode and fields name; none for an unassigned opcode (R105). -/
def candM (r : RawM) : Option Instr :=
  let ty := tyOf r.ty
  let scope := scopeOf r.scope
  let ord := ordOf r.ord
  let g := guardOf r.g
  let data := opdOf r.data
  let base := Fin.ofNat 64 r.base
  let at_ : Addr := ⟨base, opdOf r.index, Fin.ofNat 4 r.sc⟩
  let off := BitVec.ofNat 12 r.aux
  let ro := bitB r.ro
  let ld : MLoad := ⟨ty, scope, ord, g, at_, off, ro⟩
  let st : MStore := ⟨ty, scope, ord, g, data, at_, off⟩
  let atom : MAtom := ⟨atomOf (r.aux / 256), ty, scope, ord, g, data, at_, BitVec.ofNat 8 r.aux⟩
  let ka := kOf (r.aux / 256)
  let kb := kOf (r.aux / 16 % 16)
  let kd := kOf (r.aux % 16)
  let baton : MBaton := ⟨ty, scope, ord, g, data, at_, ka, kb, kd⟩
  match r.op with
  | 0x00 => some (.ld ld)
  | 0x01 => some (.st st)
  | 0x02 => some (.ldsp ld)
  | 0x03 => some (.stsp st)
  | 0x04 => some (.pref ⟨g, at_, off, ro⟩)
  | 0x08 => some (.atom atom)
  | 0x09 => some (.atomq atom)
  | 0x0A => some (.atomsp atom)
  | 0x10 => some (.fence ⟨scope, ord, base⟩)
  | 0x18 => some (.stb baton)
  | 0x19 => some (.stk baton)
  | 0x1A => some (.bwait ⟨ka, kb, kd⟩)
  | 0x20 => some (.strm ⟨ty, base, off⟩)
  | 0x21 => some .strmx
  | 0x28 => some (.fput ⟨ty, scope, g, data, at_, off⟩)
  | 0x29 => some (.fwait ⟨ty, scope, decide (r.ord = 3), g, at_, off⟩)
  | 0x30 => some (.bcmin ⟨g, data, Fin.ofNat 16 r.aux⟩)
  | 0x31 => some (.bcrd ⟨ty, g, Fin.ofNat 16 r.aux⟩)
  | _ => none

/-- The fields of a memory-slot instruction (R90, R105, R171); none for any other. -/
def rawM : Instr → Option RawM
  | .ld o => some ⟨0x00, tyCode o.ty, scopeCode o.scope, ordCode o.ord, guardCode o.g, 0x142, o.at_.base, opdCode o.at_.index, o.off.toNat, o.ro.toNat, o.at_.sc⟩
  | .st o => some ⟨0x01, tyCode o.ty, scopeCode o.scope, ordCode o.ord, guardCode o.g, opdCode o.data, o.at_.base, opdCode o.at_.index, o.off.toNat, 0, o.at_.sc⟩
  | .ldsp o => some ⟨0x02, tyCode o.ty, scopeCode o.scope, ordCode o.ord, guardCode o.g, 0x142, o.at_.base, opdCode o.at_.index, o.off.toNat, o.ro.toNat, o.at_.sc⟩
  | .stsp o => some ⟨0x03, tyCode o.ty, scopeCode o.scope, ordCode o.ord, guardCode o.g, opdCode o.data, o.at_.base, opdCode o.at_.index, o.off.toNat, 0, o.at_.sc⟩
  | .pref o => some ⟨0x04, 0, 0, 0, guardCode o.g, 0, o.at_.base, opdCode o.at_.index, o.off.toNat, o.ro.toNat, o.at_.sc⟩
  | .atom o => some ⟨0x08, tyCode o.ty, scopeCode o.scope, ordCode o.ord, guardCode o.g, opdCode o.data, o.at_.base, opdCode o.at_.index, atomCode o.op * 256 + o.off.toNat, 0, o.at_.sc⟩
  | .atomq o => some ⟨0x09, tyCode o.ty, scopeCode o.scope, ordCode o.ord, guardCode o.g, opdCode o.data, o.at_.base, opdCode o.at_.index, atomCode o.op * 256 + o.off.toNat, 0, o.at_.sc⟩
  | .atomsp o => some ⟨0x0A, tyCode o.ty, scopeCode o.scope, ordCode o.ord, guardCode o.g, opdCode o.data, o.at_.base, opdCode o.at_.index, atomCode o.op * 256 + o.off.toNat, 0, o.at_.sc⟩
  | .fence o => some ⟨0x10, 0, scopeCode o.scope, ordCode o.ord, guardCode guardAll, 0, o.sd, 0x200, 0, 0, 0⟩
  | .stb o => some ⟨0x18, tyCode o.ty, scopeCode o.scope, ordCode o.ord, guardCode o.g, opdCode o.data, o.at_.base, opdCode o.at_.index, kCode o.ka * 256 + kCode o.kb * 16 + kCode o.kd, 0, o.at_.sc⟩
  | .stk o => some ⟨0x19, tyCode o.ty, scopeCode o.scope, ordCode o.ord, guardCode o.g, opdCode o.data, o.at_.base, opdCode o.at_.index, kCode o.ka * 256 + kCode o.kb * 16 + kCode o.kd, 0, o.at_.sc⟩
  | .bwait o => some ⟨0x1A, 0, 0, 0, guardCode guardAll, 0, 0, 0x200, kCode o.ka * 256 + kCode o.kb * 16 + kCode o.kd, 0, 0⟩
  | .strm o => some ⟨0x20, tyCode o.ty, 0, 0, guardCode guardAll, 0x142, o.base, 0x200, o.off.toNat, 0, 0⟩
  | .strmx => some ⟨0x21, 0, 0, 0, guardCode guardAll, 0, 0, 0x200, 0, 0, 0⟩
  | .fput o => some ⟨0x28, tyCode o.ty, scopeCode o.scope, 2, guardCode o.g, opdCode o.data, o.at_.base, opdCode o.at_.index, o.off.toNat, 0, o.at_.sc⟩
  | .fwait o => some ⟨0x29, tyCode o.ty, scopeCode o.scope, if o.take then 3 else 1, guardCode o.g, 0x142, o.at_.base, opdCode o.at_.index, o.off.toNat, 0, o.at_.sc⟩
  | .bcmin o => some ⟨0x30, 4, 0, 0, guardCode o.g, opdCode o.data, 0, 0x200, o.w, 0, 0⟩
  | .bcrd o => some ⟨0x31, tyCode o.ty, 0, 0, guardCode o.g, 0x142, 0, 0x200, o.w, 0, 0⟩
  | _ => none

/-- The reason of a DATA that the instruction does not give back (R171): a wrong or unassigned code is 0x12, a
value in an unused field 0x13. -/
def dataReason : Instr → Nat
  | .pref _ | .fence _ | .bwait _ | .strmx => 0x13
  | _ => 0x12

/-- The reason of an INDEX that is not given back: an unassigned code is 0x12; the "None" forms must hold 0x200. -/
def indexReason : Instr → Nat
  | .fence _ | .bwait _ | .strm _ | .strmx | .bcmin _ | .bcrd _ => 0x13
  | _ => 0x12

/-- The reason of an AUX that is not given back (R171, R183). -/
def auxReason : Instr → Nat
  | .bcmin _ | .bcrd _ => 0x12
  | .atom _ | .atomq _ | .atomsp _ => 0x11
  | _ => 0x13

/-- Reasons for the fields of `r` that the instruction's own fields `e` do not give back (R110, R171). -/
def lostM (i : Instr) (r e : RawM) : List Nat :=
  chk (r.ty = e.ty) 0x11 ++ chk (r.scope = e.scope) 0x11 ++ chk (r.ord = e.ord) 0x11 ++ chk (r.ro = e.ro) 0x11
    ++ chk (r.data = e.data) (dataReason i) ++ chk (r.index = e.index) (indexReason i)
    ++ chk (r.aux = e.aux) (auxReason i) ++ chk (r.base = e.base) 0x13 ++ chk (r.sc = e.sc) 0x13
    ++ chk (r.g = e.g) 0x13 ++ chk (r.op = e.op) 0x10

/-- The checks of a memory slot's fields: the reasons that refuse it (R110). -/
def errsOfM (r : RawM) : List Nat :=
  match candM r with
  | none => [0x10]
  | some i =>
    match rawM i with
    | none => [0x10]
    | some e => lostM i r e ++ legalErrs i

/-- The instruction a copy-or-matrix slot's opcode and fields name; none for an unassigned opcode (R106). -/
def candX (r : RawX) : Option Instr :=
  let g := guardOf r.g
  let f : Flag := ⟨bitB r.fe, Fin.ofNat 16 r.flag⟩
  let sx := Fin.ofNat 64 r.sx
  let sy := Fin.ofNat 64 r.sy
  let sz := Fin.ofNat 64 r.sz
  let va := Fin.ofNat 256 r.va
  let zt := Fin.ofNat 16 r.zt
  let scope := scopeOf (fld r.mx 9 3)
  match r.op with
  | 0x00 => some (.mma ⟨g, f, sx, sy, va, zt, bitB (fld r.mx 12 1)⟩)
  | 0x01 => some (.mmac ⟨g, f, sx, sy, va, zt, Fin.ofNat 16 r.zu, Fin.ofNat 16 (fld r.mx 1 4), Fin.ofNat 2 r.mx⟩)
  | 0x02 => some (.zld ⟨g, f, sx, sz, zt⟩)
  | 0x03 => some (.zst ⟨g, f, sx, sy, sz, zt, .none⟩)
  | 0x04 => some (.zclr ⟨g, f, zt⟩)
  | 0x05 =>
    match r.mx % 4 with
    | 1 => some (.zretSp ⟨g, f, sx, sy, sz, zt, .none⟩)
    | 2 => some (.zretG ⟨g, f, sx, sy, sz, zt, scope⟩)
    | _ => some (.zret ⟨f, zt⟩)
  | 0x10 => some (.cpy ⟨f, sx, sy, sz, scope⟩)
  | 0x11 => some (.cpyr ⟨f, sx, sy, sz, scope⟩)
  | 0x12 => some (.cpseal f)
  | 0x13 => some (.cpwait (Fin.ofNat 16 r.mx))
  | 0x14 => some (.hset ⟨f, sx, sy⟩)
  | _ => none

/-- The fields of a copy-or-matrix-slot instruction (R91, R106, R205); none for any other. -/
def rawX : Instr → Option RawX
  | .mma o => some ⟨0x00, guardCode o.g, o.f.k, o.f.fe.toNat, o.sx, o.sy, 0, o.va, o.zt, 0, 4096 * o.ru.toNat⟩
  | .mmac o =>
    some ⟨0x01, guardCode o.g, o.f.k, o.f.fe.toNat, o.sx, o.sy, 0, o.va, o.zt, o.zu, 2 * o.set + o.half⟩
  | .zld o => some ⟨0x02, guardCode o.g, o.f.k, o.f.fe.toNat, o.sx, 0, o.sz, 0, o.zt, 0, 0⟩
  | .zst o => some ⟨0x03, guardCode o.g, o.f.k, o.f.fe.toNat, o.sx, o.sy, o.sz, 0, o.zt, 0, 512 * scopeCode o.scope⟩
  | .zclr o => some ⟨0x04, guardCode o.g, o.f.k, o.f.fe.toNat, 0, 0, 0, 0, o.zt, 0, 0⟩
  | .zret o => some ⟨0x05, guardCode guardAll, o.f.k, o.f.fe.toNat, 0, 0, 0, 0, o.zt, 0, 0⟩
  | .zretSp o =>
    some ⟨0x05, guardCode o.g, o.f.k, o.f.fe.toNat, o.sx, o.sy, o.sz, 0, o.zt, 0, 512 * scopeCode o.scope + 1⟩
  | .zretG o =>
    some ⟨0x05, guardCode o.g, o.f.k, o.f.fe.toNat, o.sx, o.sy, o.sz, 0, o.zt, 0, 512 * scopeCode o.scope + 2⟩
  | .cpy o => some ⟨0x10, guardCode guardAll, o.f.k, o.f.fe.toNat, o.sx, o.sy, o.sz, 0, 0, 0, 512 * scopeCode o.scope⟩
  | .cpyr o => some ⟨0x11, guardCode guardAll, o.f.k, o.f.fe.toNat, o.sx, o.sy, o.sz, 0, 0, 0, 512 * scopeCode o.scope⟩
  | .cpseal f => some ⟨0x12, guardCode guardAll, f.k, f.fe.toNat, 0, 0, 0, 0, 0, 0, 0⟩
  | .cpwait n => some ⟨0x13, guardCode guardAll, 0, 0, 0, 0, 0, 0, 0, 0, n⟩
  | .hset o => some ⟨0x14, guardCode guardAll, o.f.k, o.f.fe.toNat, o.sx, o.sy, 0, 0, 0, 0, 0⟩
  | _ => none

/-- Whether MX[11:9] holds a scope (R205). -/
def scopedX : Instr → Bool
  | .zretG _ | .cpy _ | .cpyr _ => true
  | _ => false

/-- Reasons for the fields of `r` that the instruction's own fields `e` do not give back (R110, R205). -/
def lostX (i : Instr) (r e : RawX) : List Nat :=
  chk (fld r.mx 0 2 = fld e.mx 0 2) (if r.op = 0x05 then 0x11 else 0x13)
    ++ chk (fld r.mx 9 3 = fld e.mx 9 3) (if scopedX i then 0x11 else 0x13)
    ++ chk (fld r.mx 2 7 = fld e.mx 2 7) 0x13 ++ chk (fld r.mx 12 1 = fld e.mx 12 1) 0x13
    ++ chk (r.g = e.g) 0x13 ++ chk (r.flag = e.flag) 0x13 ++ chk (r.fe = e.fe) 0x13
    ++ chk (r.sx = e.sx) 0x13 ++ chk (r.sy = e.sy) 0x13 ++ chk (r.sz = e.sz) 0x13 ++ chk (r.va = e.va) 0x13
    ++ chk (r.zt = e.zt) 0x13 ++ chk (r.zu = e.zu) 0x13 ++ chk (r.op = e.op) 0x10

/-- The checks of a copy-or-matrix slot's fields: the reasons that refuse it (R110). -/
def errsOfX (r : RawX) : List Nat :=
  match candX r with
  | none => [0x10]
  | some i =>
    match rawX i with
    | none => [0x10]
    | some e => lostX i r e ++ legalErrs i

/-- The offset of BR and CALL (R120). -/
def off20 (r : RawC) : Off20 := if r.long then .long (BitVec.ofNat 32 r.ext) else .short (BitVec.ofNat 20 r.body)

/-- The offset of BSZ and BSNZ (R120). -/
def off14 (r : RawC) : Off14 := if r.long then .long (BitVec.ofNat 32 r.ext) else .short (BitVec.ofNat 14 r.body)

/-- The offset of LBRK (R132). -/
def off16 (r : RawC) : Off16 := if r.long then .long (BitVec.ofNat 32 r.ext) else .short (BitVec.ofNat 16 r.body)

/-- A scalar register number at bit `lo` of BODY. -/
def sAt (r : RawC) (lo : Nat) : Fin 64 := Fin.ofNat 64 (r.body / 2 ^ lo)

/-- A predicate number at bit `lo` of BODY. -/
def pAt (r : RawC) (lo : Nat) : Fin 32 := Fin.ofNat 32 (r.body / 2 ^ lo)

/-- The count of LOOP (R132). -/
def loopCount (r : RawC) : LoopCount :=
  if bitB (r.body / 2 ^ 16) then
    (if r.long then .ext (BitVec.ofNat 32 r.ext) else .imm (BitVec.ofNat 16 r.body))
  else .reg (sAt r 0)

/-- The second source of a scalar instruction (R139). -/
def scalarSrc (r : RawC) : SSrc :=
  if r.long then .ext (BitVec.ofNat 32 r.ext)
  else if bitB (r.body / 2 ^ 7) then .imm (BitVec.ofNat 7 r.body) else .reg (sAt r 0)

/-- A 16-bit immediate or a register, by the form bit (R236). -/
def src16 (r : RawC) (form : Nat) : Src16 :=
  if bitB (r.body / 2 ^ form) then .reg (sAt r 0) else .imm (BitVec.ofNat 16 r.body)

/-- The instruction a control slot's opcode and fields name; none for an unassigned opcode (R107). -/
def candC (r : RawC) : Option Instr :=
  let g := guardOf r.g
  let bin : SBin := ⟨sAt r 14, sAt r 8, scalarSrc r⟩
  let lvl := Fin.ofNat 8 (r.body / 2 ^ 17)
  let mask := BitVec.ofNat 16 (r.body / 2 ^ 4)
  let any := bitB (r.body / 2 ^ 3)
  let p : PBin := ⟨pAt r 15, pAt r 10, pAt r 5, bitB (r.body / 2 ^ 4), bitB (r.body / 2 ^ 3)⟩
  match r.op with
  | 0x00 => some (.br g (off20 r))
  | 0x01 => some (.jmpr (sAt r 14))
  | 0x02 => some (.call (off20 r))
  | 0x03 => some (.callr (sAt r 14))
  | 0x04 => some (.ret (sAt r 14))
  | 0x05 => some .exit
  | 0x06 => some (.bsz (sAt r 14) (off14 r))
  | 0x07 => some (.bsnz (sAt r 14) (off14 r))
  | 0x08 => some (.loop lvl (loopCount r))
  | 0x09 => some (.endl lvl)
  | 0x0A => some (.lbrk lvl (off16 r))
  | 0x0C => some (.waitf mask any)
  | 0x0D => some (.testf g.p g.neg mask any)
  | 0x0E => some (.clrf mask)
  | 0x10 => some (.pand p)
  | 0x11 => some (.por p)
  | 0x12 => some (.pxor p)
  | 0x18 => some (.sadd bin)
  | 0x19 => some (.ssub bin)
  | 0x1A => some (.smul bin)
  | 0x1B => some (.sand bin)
  | 0x1C => some (.sor bin)
  | 0x1D => some (.sxor bin)
  | 0x1E => some (.sshl bin)
  | 0x1F => some (.sshr bin)
  | 0x20 => some (.ssra bin)
  | 0x21 => some (.smin bin)
  | 0x22 => some (.smax bin)
  | 0x23 => some (.smov (sAt r 14) (scalarSrc r))
  | 0x28 =>
    some (.sysrd g (if bitB (r.body / 2 ^ 19) then .v (Fin.ofNat 256 (r.body / 2 ^ 11)) else .s (sAt r 11))
      (BitVec.ofNat 8 r.body))
  | 0x29 => some (.syswr g (BitVec.ofNat 8 r.body) (sAt r 11))
  | 0x2A => some (.trap g (BitVec.ofNat 16 r.body))
  | 0x2B => some (.tret g)
  | 0x2C => if bitB (r.body / 2 ^ 19) then some (.markWait g (src16 r 18)) else some (.mark g (src16 r 18))
  | 0x2D => some (.trig g)
  | 0x2E => some (.launch g (sAt r 14) (sAt r 8) (sAt r 2))
  | 0x2F => some (.fork g (sAt r 14) (sAt r 8) (Fin.ofNat 8 (r.body / 2 ^ 5)) (BitVec.ofNat 32 r.ext))
  | 0x30 => some (.join g (sAt r 14) (sAt r 8))
  | 0x31 => some (.yield g)
  | 0x32 => some (.pwracq g (if bitB (r.body / 2 ^ 19) then .reg (sAt r 0) else .imm (BitVec.ofNat 3 r.body)))
  | 0x33 => some (.pwrrel g)
  | 0x34 => some (.sprint g (src16 r 19))
  | 0x35 =>
    some (.sync g (match r.body / 2 ^ 18 with | 1 => .clu | 2 => .dev | _ => .grp (Fin.ofNat 16 r.body)))
  | 0x36 => some (.hwait g (sAt r 14))
  | 0x37 => some (.chkm g (bitB r.body))
  | _ => none

/-- The fields of BR and CALL. -/
def rawOff20 (op g : Nat) : Off20 → RawC
  | .short o => ⟨op, g, o.toNat, false, 0⟩
  | .long o => ⟨op, g, 0, true, o.toNat⟩

/-- The fields of BSZ and BSNZ. -/
def rawOff14 (op : Nat) (a : Fin 64) : Off14 → RawC
  | .short o => ⟨op, guardCode guardAll, a * 2 ^ 14 + o.toNat, false, 0⟩
  | .long o => ⟨op, guardCode guardAll, a * 2 ^ 14, true, o.toNat⟩

/-- A control word with BODY only. -/
def rawBody (op g body : Nat) : RawC := ⟨op, g, body, false, 0⟩

/-- The fields of a scalar instruction (R139). -/
def rawScalar (op : Nat) (d a : Nat) : SSrc → RawC
  | .reg b => ⟨op, guardCode guardAll, d * 2 ^ 14 + a * 2 ^ 8 + b, false, 0⟩
  | .imm i => ⟨op, guardCode guardAll, d * 2 ^ 14 + a * 2 ^ 8 + 2 ^ 7 + i.toNat, false, 0⟩
  | .ext i => ⟨op, guardCode guardAll, d * 2 ^ 14 + a * 2 ^ 8 + 2 ^ 7, true, i.toNat⟩

/-- A 16-bit immediate or a register with its form bit. -/
def rawSrc16 (form : Nat) : Src16 → Nat
  | .imm n => n.toNat
  | .reg x => 2 ^ form + x

/-- BODY of a predicate instruction (R138). -/
def rawPred (o : PBin) : Nat :=
  o.d * 2 ^ 15 + o.a * 2 ^ 10 + o.b * 2 ^ 5 + o.na.toNat * 2 ^ 4 + o.nb.toNat * 2 ^ 3

/-- The fields of a control-slot instruction (R91, R107); none for any other. -/
def rawC : Instr → Option RawC
  | .br g o => some (rawOff20 0x00 (guardCode g) o)
  | .jmpr a => some (rawBody 0x01 (guardCode guardAll) (a * 2 ^ 14))
  | .call o => some (rawOff20 0x02 (guardCode guardAll) o)
  | .callr a => some (rawBody 0x03 (guardCode guardAll) (a * 2 ^ 14))
  | .ret a => some (rawBody 0x04 (guardCode guardAll) (a * 2 ^ 14))
  | .exit => some (rawBody 0x05 (guardCode guardAll) 0)
  | .bsz a o => some (rawOff14 0x06 a o)
  | .bsnz a o => some (rawOff14 0x07 a o)
  | .loop n (.imm c) => some (rawBody 0x08 (guardCode guardAll) (n * 2 ^ 17 + 2 ^ 16 + c.toNat))
  | .loop n (.ext c) => some ⟨0x08, guardCode guardAll, n * 2 ^ 17 + 2 ^ 16, true, c.toNat⟩
  | .loop n (.reg a) => some (rawBody 0x08 (guardCode guardAll) (n * 2 ^ 17 + a))
  | .endl n => some (rawBody 0x09 (guardCode guardAll) (n * 2 ^ 17))
  | .lbrk n (.short o) => some (rawBody 0x0A (guardCode guardAll) (n * 2 ^ 17 + o.toNat))
  | .lbrk n (.long o) => some ⟨0x0A, guardCode guardAll, n * 2 ^ 17, true, o.toNat⟩
  | .waitf m any => some (rawBody 0x0C (guardCode guardAll) (m.toNat * 2 ^ 4 + any.toNat * 2 ^ 3))
  | .testf d neg m any => some (rawBody 0x0D (guardCode ⟨d, neg⟩) (m.toNat * 2 ^ 4 + any.toNat * 2 ^ 3))
  | .clrf m => some (rawBody 0x0E (guardCode guardAll) (m.toNat * 2 ^ 4))
  | .pand o => some (rawBody 0x10 (guardCode guardAll) (rawPred o))
  | .por o => some (rawBody 0x11 (guardCode guardAll) (rawPred o))
  | .pxor o => some (rawBody 0x12 (guardCode guardAll) (rawPred o))
  | .sadd o => some (rawScalar 0x18 o.d o.a o.b)
  | .ssub o => some (rawScalar 0x19 o.d o.a o.b)
  | .smul o => some (rawScalar 0x1A o.d o.a o.b)
  | .sand o => some (rawScalar 0x1B o.d o.a o.b)
  | .sor o => some (rawScalar 0x1C o.d o.a o.b)
  | .sxor o => some (rawScalar 0x1D o.d o.a o.b)
  | .sshl o => some (rawScalar 0x1E o.d o.a o.b)
  | .sshr o => some (rawScalar 0x1F o.d o.a o.b)
  | .ssra o => some (rawScalar 0x20 o.d o.a o.b)
  | .smin o => some (rawScalar 0x21 o.d o.a o.b)
  | .smax o => some (rawScalar 0x22 o.d o.a o.b)
  | .smov d b => some (rawScalar 0x23 d 0 b)
  | .sysrd g (.s d) num => some (rawBody 0x28 (guardCode g) (d * 2 ^ 11 + num.toNat))
  | .sysrd g (.v d) num => some (rawBody 0x28 (guardCode g) (2 ^ 19 + d * 2 ^ 11 + num.toNat))
  | .syswr g num s => some (rawBody 0x29 (guardCode g) (s * 2 ^ 11 + num.toNat))
  | .trap g code => some (rawBody 0x2A (guardCode g) code.toNat)
  | .tret g => some (rawBody 0x2B (guardCode g) 0)
  | .mark g n => some (rawBody 0x2C (guardCode g) (rawSrc16 18 n))
  | .markWait g n => some (rawBody 0x2C (guardCode g) (2 ^ 19 + rawSrc16 18 n))
  | .trig g => some (rawBody 0x2D (guardCode g) 0)
  | .launch g sd sq sp => some (rawBody 0x2E (guardCode g) (sd * 2 ^ 14 + sq * 2 ^ 8 + sp * 2 ^ 2))
  | .fork g sa sf w off => some ⟨0x2F, guardCode g, sa * 2 ^ 14 + sf * 2 ^ 8 + w * 2 ^ 5, true, off.toNat⟩
  | .join g sd sf => some (rawBody 0x30 (guardCode g) (sd * 2 ^ 14 + sf * 2 ^ 8))
  | .yield g => some (rawBody 0x31 (guardCode g) 0)
  | .pwracq g (.imm c) => some (rawBody 0x32 (guardCode g) c.toNat)
  | .pwracq g (.reg x) => some (rawBody 0x32 (guardCode g) (2 ^ 19 + x))
  | .pwrrel g => some (rawBody 0x33 (guardCode g) 0)
  | .sprint g t => some (rawBody 0x34 (guardCode g) (rawSrc16 19 t))
  | .sync g (.grp n) => some (rawBody 0x35 (guardCode g) n)
  | .sync g .clu => some (rawBody 0x35 (guardCode g) (2 ^ 18))
  | .sync g .dev => some (rawBody 0x35 (guardCode g) (2 ^ 19))
  | .hwait g sx => some (rawBody 0x36 (guardCode g) (sx * 2 ^ 14))
  | .chkm g on => some (rawBody 0x37 (guardCode g) on.toNat)
  | _ => none

/-- Reasons for the fields of `r` that the instruction's own fields `e` do not give back (R110). A LONG that the
form refuses or lacks is 0x11; SYNC level 3 is 0x11 (R236). -/
def lostC (r e : RawC) : List Nat :=
  chk (r.long = e.long) 0x11 ++ chk (fld r.body 18 2 = fld e.body 18 2) (if r.op = 0x35 then 0x11 else 0x13)
    ++ chk (fld r.body 0 18 = fld e.body 0 18) 0x13 ++ chk (r.g = e.g) 0x13 ++ chk (r.op = e.op) 0x10

/-- The checks of a control slot's fields: the reasons that refuse it (R110). -/
def errsOfC (r : RawC) : List Nat :=
  match candC r with
  | none => [0x10]
  | some i =>
    match rawC i with
    | none => [0x10]
    | some e => lostC r e ++ legalErrs i

/-- A slot's instruction, or the first reason that refuses it (R421). -/
def judge (i : Option Instr) (errs : List Nat) : Except Nat Instr :=
  match i, least errs with
  | some i, none => .ok i
  | _, some e => .error e
  | none, none => .error 0x10

/-- A vector slot's fields decoded (R88, R104). -/
def decodeV (r : RawV) : Except Nat Instr := judge (candV r) (errsOfV r)

/-- A memory slot's fields decoded (R90, R105). -/
def decodeM (r : RawM) : Except Nat Instr := judge (candM r) (errsOfM r)

/-- A copy-or-matrix slot's fields decoded (R91, R106). -/
def decodeX (r : RawX) : Except Nat Instr := judge (candX r) (errsOfX r)

/-- A control slot's fields decoded (R91, R107). -/
def decodeC (r : RawC) : Except Nat Instr := judge (candC r) (errsOfC r)

/-- The four slots of a bundle and the header alone (R78, R113's SLOT numbers). -/
inductive Slot where
  | hdr | v | m | x | c
  deriving DecidableEq, Repr

/-- The slot an instruction is encoded in; none for an event of the device. -/
def slotOf (i : Instr) : Option Slot :=
  match rawV i, rawM i, rawX i, rawC i, i with
  | some _, _, _, _, _ => some .v
  | _, some _, _, _, _ => some .m
  | _, _, some _, _, _ => some .x
  | _, _, _, some _, _ => some .c
  | _, _, _, _, .emptyRun _ _ _ _ => some .hdr
  | _, _, _, _, _ => none

/-- The low and high words of a 64-bit slot (R78). -/
def words64 (w : Nat) : List Nat := [w % 2 ^ 32, w / 2 ^ 32 % 2 ^ 32]

/-- The code words of an instruction: its slot's words in memory order (R78), the header word of an empty run (R85),
and none for an event of the device. -/
def encode (i : Instr) : List Nat :=
  match rawV i, rawM i, rawX i, rawC i, i with
  | some r, _, _, _, _ => words64 (joinV r)
  | _, some r, _, _, _ => words64 (joinM r)
  | _, _, some r, _, _ => words64 (joinX r)
  | _, _, _, some r, _ => if r.long then [joinC r, r.ext] else [joinC r]
  | _, _, _, _, .emptyRun gap run regang check =>
    [gap * 2 ^ 24 + run * 2 ^ 18 + regang.toNat * 2 ^ 17 + check.toNat * 2 ^ 16]
  | _, _, _, _, _ => []

/-- The fields of a bundle header (R82). -/
structure Header where
  pv : Bool
  pm : Bool
  px : Bool
  pc : Bool
  gap : Nat
  run : Nat
  regang : Bool
  check : Bool
  banks : Nat
  latch1 : Bool
  latch0 : Bool
  qpop : Bool
  long : Bool
  low : Nat
  deriving DecidableEq, Repr

/-- A header word's fields (R82). -/
def splitH (w : Nat) : Header :=
  { pv := bitB (w / 2 ^ 31), pm := bitB (w / 2 ^ 30), px := bitB (w / 2 ^ 29), pc := bitB (w / 2 ^ 28),
    gap := fld w 24 4, run := fld w 18 6, regang := bitB (w / 2 ^ 17), check := bitB (w / 2 ^ 16),
    banks := fld w 12 4, latch1 := bitB (w / 2 ^ 11), latch0 := bitB (w / 2 ^ 10), qpop := bitB (w / 2 ^ 9),
    long := bitB (w / 2 ^ 8), low := fld w 0 8 }

/-- No slot is present (R85). -/
def Header.empty (h : Header) : Bool := !(h.pv || h.pm || h.px || h.pc)

/-- Check 0x01: no field breaks R82 or R85. -/
def Header.ok (h : Header) : Bool :=
  h.low == 0 && (h.run == 0 || h.empty) && (!h.long || h.pc)
    && (!h.empty || (h.banks == 0 && !h.latch1 && !h.latch0 && !h.qpop))

/-- A bundle's length in words (R78). -/
def Header.words (h : Header) : Nat :=
  1 + 2 * (h.pv.toNat + h.pm.toNat + h.px.toNat) + h.pc.toNat * (1 + h.long.toNat)

/-- A bundle's gap in cycles (R84, R85). -/
def Header.gapCycles (h : Header) : Nat := if h.empty then (h.run + 1) * (h.gap + 1) else h.gap + 1

/-- The raw slots of a bundle. -/
structure RawBundle where
  h : Header
  hw : Nat
  v : Option RawV
  m : Option RawM
  x : Option RawX
  c : Option RawC
  deriving DecidableEq, Repr

/-- A 64-bit slot from two words of the list (R78). -/
def slot64 (ws : List Nat) (i : Nat) : Nat := ws.getD i 0 + 2 ^ 32 * ws.getD (i + 1) 0

/-- The raw slots of the bundle whose words stand at the head of `ws` (R78). -/
def splitBundle (ws : List Nat) : RawBundle :=
  let h := splitH (ws.getD 0 0)
  let pm := 1 + 2 * h.pv.toNat
  let px := pm + 2 * h.pm.toNat
  let pc := px + 2 * h.px.toNat
  { h := h, hw := ws.getD 0 0,
    v := if h.pv then some (splitV (slot64 ws 1)) else none,
    m := if h.pm then some (splitM (slot64 ws pm)) else none,
    x := if h.px then some (splitX (slot64 ws px)) else none,
    c := if h.pc then some (splitC (ws.getD pc 0) h.long (ws.getD (pc + 1) 0)) else none }

/-- A decoded bundle. -/
structure Bundle where
  h : Header
  v : Option Instr
  m : Option Instr
  x : Option Instr
  c : Option Instr
  deriving DecidableEq, Repr

/-- An optional slot decoded: a refusal names the slot and the reason. -/
def decodeSlot (s : Slot) : Option (Except Nat Instr) → Except (Slot × Nat) (Option Instr)
  | none => .ok none
  | some (.ok i) => .ok (some i)
  | some (.error e) => .error (s, e)

/-- The bundle whose words stand at the head of `ws`, or the slot and the reason of R110 that refuse it. Total on any
words. -/
def decodeBundle (ws : List Nat) : Except (Slot × Nat) Bundle :=
  let r := splitBundle ws
  if !r.h.ok then .error (.hdr, 0x01)
  else
    match decodeSlot .v (r.v.map decodeV), decodeSlot .m (r.m.map decodeM), decodeSlot .x (r.x.map decodeX),
      decodeSlot .c (r.c.map decodeC) with
    | .ok v, .ok m, .ok x, .ok c => .ok ⟨r.h, v, m, x, c⟩
    | .error e, _, _, _ => .error e
    | _, .error e, _, _ => .error e
    | _, _, .error e, _ => .error e
    | _, _, _, .error e => .error e

/-- The instructions of a bundle in the order its slots act: vector, memory, copy-or-matrix, control (R206, R117);
an empty run is its own instruction (R85). -/
def Bundle.instrs (b : Bundle) : List Instr :=
  if b.h.empty then [.emptyRun (Fin.ofNat 16 b.h.gap) (Fin.ofNat 64 b.h.run) b.h.regang b.h.check]
  else b.v.toList ++ b.m.toList ++ b.x.toList ++ b.c.toList

/-- Little-endian 32-bit words of bytes (R3, R78). -/
def wordsOf : Nat → List Byte → List Nat
  | 0, _ => []
  | n + 1, bs => ofBytes (bs.take 4) :: wordsOf n (bs.drop 4)

/-- The bundle at the head of a byte list (R78). -/
def decodeBytes (bs : List Byte) : Except (Slot × Nat) Bundle := decodeBundle (wordsOf 9 bs)

/-- A header word for one slot of `n` control words, with GAP `gap` (R82); hints as the slot reads. -/
def encodeHeader (pv pm px pc long : Bool) (gap banks : Nat) (latch1 latch0 qpop : Bool) : Nat :=
  pv.toNat * 2 ^ 31 + pm.toNat * 2 ^ 30 + px.toNat * 2 ^ 29 + pc.toNat * 2 ^ 28 + gap * 2 ^ 24 + banks * 2 ^ 12
    + latch1.toNat * 2 ^ 11 + latch0.toNat * 2 ^ 10 + qpop.toNat * 2 ^ 9 + long.toNat * 2 ^ 8

/-- The code words of a bundle that holds one instruction alone, with the least GAP and no hints (R78, R82). -/
def soloWords (i : Instr) : List Nat :=
  match slotOf i with
  | some .v => encodeHeader true false false false false 0 0 false false false :: encode i
  | some .m => encodeHeader false true false false false 0 0 false false false :: encode i
  | some .x => encodeHeader false false true false false 0 0 false false false :: encode i
  | some .c => encodeHeader false false false true (decide (2 ≤ (encode i).length)) 0 0 false false false :: encode i
  | some .hdr => encode i
  | none => []

end Sys2Proof.Machine

namespace Sys2Proof

/-- The bytes of the numbered bits of spec/opcode_table.json: `nbits` of `w`, lowest byte first, zeros above up to the
longest bundle (R3, R78). -/
def tableBytes (nbits w : Nat) : List Byte := Machine.bytesOf 36 (w % 2 ^ nbits)

/-- The instruction the decoder reads from a bundle whose bits are `w`: the table numbers the bits of the code words,
so the first word is the bundle's header, and the bundle's first slot is the instruction (R78, R85). -/
def decodeTableWord (nbits w : Nat) : Option Instr :=
  match Machine.decodeBytes (tableBytes nbits w) with
  | .ok b => b.instrs.head?
  | .error _ => none

end Sys2Proof
end

