-- ==== Sys2Proof/Machine/Flags.lean ====
section
/-! DEFINITION. Completion flags (R133 to R136), the pending-failure record and FSTAT (R180, R187, R190, R242), and
VCMP's conditions (R155). -/

namespace Sys2Proof.Machine

/-- The flags at the end of the bank's own cycle (R133): cleared, then set. -/
def FlagBank.ended (b : FlagBank) : Nat := maskDiff b.base b.clr ||| b.set

/-- The flags as they stood at the end of cycle `t` − 1 (R133). -/
def FlagBank.read (b : FlagBank) (t : Nat) : Nat := if b.cyc < t then b.ended else b.base

/-- The bank moved to cycle `t`. -/
def FlagBank.at (b : FlagBank) (t : Nat) : FlagBank := if b.cyc < t then ⟨b.ended, 0, 0, t⟩ else b

/-- A completion naming flags lands in cycle `t` (R133). -/
def FlagBank.setIn (b : FlagBank) (t m : Nat) : FlagBank :=
  let b := b.at t
  { b with set := b.set ||| m }

/-- A CLRF naming flags issues in cycle `t` (R133, R136). -/
def FlagBank.clearIn (b : FlagBank) (t m : Nat) : FlagBank :=
  let b := b.at t
  { b with clr := b.clr ||| m }

/-- The condition of WAITF and TESTF on a slice's flags (R134, R135). -/
def flagTest (flags mask : Nat) (any : Bool) : Bool :=
  if any then flags &&& mask ≠ 0 else flags &&& mask = mask

/-- A completion sets flag `k` in every live slice of a mask (R133, R209). -/
def State.setFlag (s : State) (u slices k : Nat) : State :=
  let t := s.cyc (s.gang u).core
  s.modGang u (fun g => g.modSlices slices (fun x =>
    if x.sets.isEmpty then x else { x with flags := x.flags.setIn t (2 ^ k) }))

/-- The bits of the FENCE status word (R190). -/
def fDead : Nat := 1
def fRefused : Nat := 2
def fExpired : Nat := 4
def fLocked : Nat := 8

/-- Record failures in a gang's pending-failure record (R180, R190): the count saturates. -/
def State.fail (s : State) (u bit n : Nat) : State :=
  s.modGang u (fun g => { g with pendBits := g.pendBits ||| bit, pendCount := min 0xFFFF (g.pendCount + n) })

/-- The FENCE status word of a gang (R190). -/
def Gang.fenceWord (g : Gang) : Nat := g.pendCount * 2 ^ 16 + g.pendBits % 16

/-- A completed fence reports: FSTAT takes the bits and the record is cleared (R187, R242). -/
def Gang.report (g : Gang) (cyc : Nat) : Gang :=
  let old := if g.fstatSet.1 = cyc then g.fstatSet.2 else 0
  { g with
    fstat := g.fstat ||| (g.pendBits % 16), fstatSet := (cyc, old ||| (g.pendBits % 16)), pendBits := 0, pendCount := 0
    accs := g.accs.map (fun e => (e.1, { e.2 with failed := false })) }

/-- VCMP's condition on integers (R155). -/
def intCond (cc : Cond) (a b : Int) : Bool :=
  match cc with
  | .eq => a = b
  | .ne => a ≠ b
  | .lt => a < b
  | .le => a ≤ b
  | .gt => a > b
  | .ge => a ≥ b
  | .un => false
  | .ord => true

/-- VCMP's condition on floats (R155). -/
def fltCond (cc : Cond) (a b : Ex) : Bool :=
  let nan := exIsNan a || exIsNan b
  match cc with
  | .eq => !nan && exEq a b
  | .ne => nan || !(exEq a b)
  | .lt => !nan && exLt a b
  | .le => !nan && (exLt a b || exEq a b)
  | .gt => !nan && exLt b a
  | .ge => !nan && (exLt b a || exEq a b)
  | .un => nan
  | .ord => !nan

end Sys2Proof.Machine
end

