-- ==== Sys2Proof/Machine/Lanes.lean ====
section
/-! DEFINITION. Lane sets and parts: splitting, switching, waking, reconvergence and exit (R29 to R37, R45, R125). -/

namespace Sys2Proof.Machine

/-- The lowest entry number below 8 that a lane-set table does not use (log entry 12, DESIGN CHOICE). -/
def Slice.freeEntry (x : Slice) : Nat := ((List.range 8).find? (fun e => (smFind x.sets e).isNone)).getD 0

/-- The runnable lane set created most recently, not counting entry `but` (R34). -/
def Slice.newest (x : Slice) (but : Option Nat) : Option Nat :=
  (x.sets.foldl (fun (b : Option (Nat × Nat)) e =>
    if e.2.st = .run && some e.1 ≠ but then
      (match b with
       | none => some (e.1, e.2.created)
       | some (_, c) => if c ≤ e.2.created then some (e.1, e.2.created) else b)
    else b) none).map (·.1)

/-- Take gang slice `k` out of its part; a part left without slices goes. -/
def Gang.leavePart (g : Gang) (k : Nat) : Gang :=
  { g with parts := (g.parts.map (fun p => { p with slices := maskDiff p.slices (2 ^ k) })).filter (fun p => p.slices ≠ 0) }

/-- A part as it starts: not aged, not held. -/
def newPart (slices : Nat) : Part :=
  { slices := slices, aging := 0, promoted := none, yielded := false, idle := 0, holds := [], stop := none }

/-- Bring lane set `e` of slice `k` in, in a part of its own (R34). -/
def Gang.bringIn (g : Gang) (k e ready : Nat) : Gang :=
  let g := g.modSlice k (fun x => { x with
    cur := some e, sets := smMod x.sets e (fun y => { y with ready := max y.ready ready, idle := 0 }) })
  let g := g.leavePart k
  { g with parts := g.parts ++ [newPart (2 ^ k)] }

/-- The part of slice `k` is held, so that it counts as runnable (R36, R238). -/
def Gang.held (g : Gang) (k : Nat) : Bool := (g.part k).any (fun p => !p.holds.isEmpty)

/-- The lane set of slice `k` keeps its place as the current one: it runs, or has blocked in its handler (R374), or its part is held
(log entry 18, DEDUCED). -/
def Gang.stays (g : Gang) (k : Nat) (y : LaneSet) : Bool := y.st = .run || (y.inh && y.st ≠ .regang) || g.held k

/-- The current lane set of slice `k` (R34): none while the one that stands in its part has blocked or waits. -/
def Gang.current (g : Gang) (k : Nat) : Option Nat :=
  let x := g.slice k
  match x.curSet with
  | none => none
  | some y => if g.stays k y then x.cur else none

/-- Slice `k` switches its current lane set if it has to and can (R34, R374). A lane set that has nothing to switch to keeps its place
in its part, to go on there when its wait ends. -/
def Gang.settleSlice (g : Gang) (k : Nat) : Gang :=
  let x := g.slice k
  match x.curSet with
  | none =>
    (match x.newest none with
     | none => (g.modSlice k (fun x => { x with cur := none })).leavePart k
     | some e => g.bringIn k e x.out)
  | some y =>
    if g.stays k y then g
    else
      match x.newest x.cur with
      | none => g
      | some e => g.bringIn k e y.ready

/-- Every slice of a mask switches as it has to (R34). -/
def Gang.settle (g : Gang) (m : Nat) : Gang := (bitsOf 8 m).foldl Gang.settleSlice g

/-- The lane set goes on at `t`: at once, or after the wait that its bundle began (R202). -/
def LaneSet.goto (t : Nat) (y : LaneSet) : LaneSet := if y.st = .run then { y with pc := t } else { y with nxt := t }

/-- A conditional branch (R32, R33): `taken` is a mask of gang lanes; the branch issued in cycle `cyc`. -/
def Gang.split (g : Gang) (m taken tgt fall cyc gap : Nat) : Gang :=
  let tm := fun (k : Nat) (x : Slice) =>
    (match x.curSet with | none => 0 | some y => y.mask) &&& (taken / 2 ^ (8 * k) % 256)
  let g' := (bitsOf 8 m).foldl (fun g k => g.modSlice k (fun x =>
    match x.curSet with
    | none => x
    | some y =>
      let t := tm k x
      let n := maskDiff y.mask t
      if n = 0 then x.modCur (LaneSet.goto tgt)
      else if t = 0 then x.modCur (LaneSet.goto fall)
      else
        let x' := x.modCur (fun y => { y.goto tgt with mask := t })
        let z : LaneSet := { y.goto fall with mask := n, ready := cyc + gap, created := cyc, idle := 0 }
        { x' with sets := smPut x'.sets x'.freeEntry z })) g
  let a := (bitsOf 8 m).filter (fun k => tm k (g.slice k) ≠ 0)
  let am := maskOf a
  let bm := maskDiff m am
  if am = 0 || bm = 0 then g'
  else
    let keepA := am.testBit (lowSlice m)
    { g' with parts := g'.parts.flatMap (fun p =>
        if p.slices = m then
          (if keepA then [{ p with slices := am }, { newPart bm with holds := p.holds }]
           else [{ p with slices := bm }, { newPart am with holds := p.holds }])
        else [p]) }

/-- The lanes of a mask of slices die, their lane sets' issue-ready cycle being `ready` (R45, R125); the slices then switch. -/
def Gang.kill (g : Gang) (m ready : Nat) : Gang :=
  let g := g.modSlices m (fun x =>
    match x.cur with
    | none => x
    | some e => { x with sets := smDel x.sets e, cur := none, out := ready })
  g.settle m

/-- The gang has no live lane (R45). -/
def Gang.exited (g : Gang) : Bool := g.slices.all (fun x => x.sets.isEmpty)

/-- The current lane sets of a part block on `w` at bundle `pc`, to go on at `nxt` (R36), and the slices switch. -/
def Gang.block (g : Gang) (m : Nat) (w : Wait) (pc nxt : Nat) : Gang :=
  (g.modCurs m (fun y => { y with st := w, pc := pc, nxt := nxt })).settle m

/-- A lane set stops waiting: it goes on, or waits for the FWAIT of the same bundle (R202). -/
def Gang.resume (g : Gang) (k e ready : Nat) (y : LaneSet) : LaneSet :=
  let mine := fun (a : Nat × Acc) => a.2.op = 0x29 && a.2.owner.contains (k, e) && (match y.st with
    | .future _ id _ => id ≠ some a.1
    | _ => true)
  match g.accs.find? mine with
  | some a => { y with st := .future ((a.2.lanes.head?.map (·.addr)).getD 0) (some a.1) 0, ready := max y.ready ready }
  | none => { y with st := .run, pc := y.nxt, ready := max y.ready ready }

/-- The lane sets that `p` names stop waiting: each goes on at its own PC (R46). A slice whose current lane set was
stuck takes the runnable one created most recently. -/
def Gang.wake (g : Gang) (ready : Nat) (p : Nat → LaneSet → Bool) : Gang :=
  (List.range g.slices.length).foldl (fun g k =>
    let x := g.slice k
    if x.sets.any (fun e => p k e.2) then
      let stuck := match x.curSet with | none => true | some y => y.st ≠ .run
      let left := match x.curSet with | none => x.out | some y => y.ready
      let g := g.modSlice k (fun x => { x with sets := x.sets.map (fun e =>
        if p k e.2 then (e.1, g.resume k e.1 ready e.2) else e) })
      let x' := g.slice k
      if stuck && !(match x.curSet with | none => false | some y => y.inh) then
        match x'.newest none with
        | none => g
        | some e => if some e = x'.cur then g else g.bringIn k e left
      else g
    else g) g

/-- Reconvergence (R35, R37): with no lane set runnable and not waiting, release the class of the lowest lane at the
lowest waiting PC. A lane set of a held part counts as runnable (R36). The merged lane set of a slice keeps the table entry of the
first one of the class in the slice's table, which R37 leaves open, and the merged part stands back once if a part merged was to
(log entry 55, DESIGN CHOICE). -/
def Gang.regang (g : Gang) : Gang :=
  let all := (List.range g.slices.length).flatMap (fun k => (g.slice k).sets.map (fun e => (k, e.1, e.2)))
  let waiting := all.filter (fun t => t.2.2.st = .regang)
  if all.any (fun t => t.2.2.st = .run || (some t.2.1 = (g.slice t.1).cur && g.held t.1)) then g
  else
    match waiting with
    | [] => g
    | w :: ws =>
      let x := ws.foldl (fun m t => min m t.2.2.pc) w.2.2.pc
      let at_ := waiting.filter (fun t => t.2.2.pc = x)
      let lane := fun (t : Nat × Nat × LaneSet) => 8 * t.1 + (lowBit 8 t.2.2.mask).getD 0
      match at_ with
      | [] => g
      | a :: as =>
        let low := as.foldl (fun m t => if lane t < lane m then t else m) a
        let cls := at_.filter (fun t => decide (t.2.2.loops = low.2.2.loops))
        let ks := maskOf (cls.map (·.1))
        let old := g.parts.filter (fun p => p.slices &&& ks ≠ 0)
        let aging := old.foldl (fun m p => max m p.aging) 0
        let prom := old.foldl (fun (m : Option Nat) p =>
          match m, p.promoted with
          | none, q => q
          | some a, none => some a
          | some a, some b => some (min a b)) none
        let g := (bitsOf 8 ks).foldl (fun g k =>
          let mine := cls.filter (fun t => t.1 = k)
          match mine with
          | [] => g
          | t :: ts =>
            let mask := mine.foldl (fun m t => m ||| t.2.2.mask) 0
            let ready := mine.foldl (fun m t => max m t.2.2.ready) 0
            let born := ts.foldl (fun m t => min m t.2.2.created) t.2.2.created
            (g.modSlice k (fun x => { x with
              sets := smMod (ts.foldl (fun l t => smDel l t.2.1) x.sets) t.2.1
                (fun y => { y with mask := mask, ready := ready, created := born, st := .run })
              cur := some t.2.1 })).leavePart k) g
        { g with parts := g.parts ++ [{ newPart ks with aging := aging, promoted := prom, yielded := old.any (fun p => p.yielded) }] }

/-- What a lane set's code can read of the machine's code memory. -/
inductive Fetch where
  | ok (bs : List Byte)
  /-- The page is in flight (R178): the part waits. -/
  | wait
  | bad (cause detail : Nat)
  deriving DecidableEq, Repr, Inhabited

/-- Read `n` bytes of code at `va` within one page, which must be executable (R81, R302, R371 subcode 21); a POISONED page is an
error of site 4 (R338, R383). Pages that
are not in local HBM give the bytes that the proofer read (log entry 13, DEDUCED). -/
def State.code (s : State) (c va n : Nat) : Fetch :=
  match s.walk c va with
  | .leaf e base _ =>
    if !(entX e) then .bad 2 21
    else if entKind e = 0 then .ok (s.rd (entAddr e + (va - base)) n)
    else
      match s.proofs.find? (fun p => p.ctx = c && p.base ≤ va && va < p.base + p.len && p.pages.contains (va / 0x10000)) with
      | none => .bad 2 21
      | some p => .ok (Memory.readN p.far va n)
  | .held _ _ _ => if (s.pageRec c va).st = .poisoned then .bad 3 4 else .wait
  | .unmapped l => .bad 1 (l + 16 * pstateCode (s.pageRec c va).st)
  | .malformed l => .bad 1 (l + 16 * 0xF)
  | .poison _ => .bad 3 6

/-- Read the bundle at `pc`: its header, then its other words (R78, R79). -/
def State.fetch (s : State) (c pc : Nat) : Fetch :=
  match s.code c pc 4 with
  | .ok hb =>
    let n := 4 * (splitH (ofBytes hb)).words
    let first := min n (0x10000 - pc % 0x10000)
    (match s.code c pc first with
     | .ok a =>
       if first = n then .ok a
       else
         (match s.code c (pc + first) (n - first) with
          | .ok b => .ok (a ++ b)
          | f => f)
     | f => f)
  | f => f

/-- The bytes of a page of code that is in flight, where they stood before its move: in local HBM, or as the proofer read them. -/
def State.heldCode (s : State) (c va n : Nat) : List Byte :=
  let e := (s.pageRec c va).entry
  if entKind e = 0 then s.rd (entAddr e + va % 0x10000) n
  else match s.proofs.find? (fun p => p.ctx = c && p.base ≤ va && va < p.base + p.len) with
    | none => []
    | some p => Memory.readN p.far va n

/-- The bundle at `pc` has its regang bit set (R35), which a move of its page does not change. -/
def State.isRegang (s : State) (c pc : Nat) : Bool :=
  match s.code c pc 4 with
  | .ok hb => (splitH (ofBytes hb)).regang
  | .wait => (splitH (ofBytes (s.heldCode c pc 4))).regang
  | .bad _ _ => false

/-- Lane sets of a mask of slices that have just come to a regang bundle wait there (R35), and the slices switch. A held part has not
yet reached its next bundle, and counts as runnable until its hold ends (R36). -/
def State.arriveCurs (s : State) (u m : Nat) : State :=
  let c := (s.gang u).ctx
  s.modGang u (fun g =>
    let free := maskOf ((bitsOf 8 m).filter (fun k => !(g.held k)))
    (g.modCurs free (fun y => if y.st = .run && s.isRegang c y.pc then { y with st := .regang } else y)).settle m)

/-- The deferred lane sets that `new` names and that stand at a regang bundle wait there. -/
def State.arriveSets (s : State) (u : Nat) (new : LaneSet → Bool) : State :=
  let c := (s.gang u).ctx
  s.modGang u (fun g => { g with slices := g.slices.map (fun x => x.modSets (fun y =>
    if new y && y.st = .run && s.isRegang c y.pc then { y with st := .regang } else y)) })

/-- The bundle that blocked the lane set has issued, so that the set goes on at the bundle after it: WAITF and MARK have not issued
(R134, R245). -/
def LaneSet.issued (y : LaneSet) : Bool :=
  match y.st with
  | .waitf _ _ | .mark _ | .run | .regang => false
  | .barrier .. | .future .. | .hurdle _ | .pwr .. | .fork _ => true

/-- Wake lane sets of a gang, those that go on to a regang bundle waiting there, unless their part is held (R36). -/
def State.wakeSets (s : State) (u ready : Nat) (p : Nat → LaneSet → Bool) : State :=
  let c := (s.gang u).ctx
  s.modGang u (fun g =>
    let waits := fun (g : Gang) (k : Nat) (y : LaneSet) =>
      y.issued && s.isRegang c y.nxt && !(decide ((g.slice k).curSet = some y) && g.held k)
    let g1 := g.wake ready (fun k y => p k y && !(waits g k y))
    let g2 : Gang := { g1 with slices := g1.slices.mapIdx (fun k x => { x with sets := x.sets.map (fun e =>
        if p k e.2 then
          let y := g1.resume k e.1 ready e.2
          (e.1, if y.st = .run then { y with st := .regang } else y)
        else e) }) }
    g2.settle (2 ^ g2.slices.length - 1))

end Sys2Proof.Machine
end

