-- ==== Sys2Proof/Machine/Ops.lean ====
section
/-! DEFINITION. The shared operations of control: the queues' occupancy (R174, R380), indirect targets (R112), system
faults and parking (R298, R317, R370), entering and leaving the trap handler (R373 to R375). -/

namespace Sys2Proof.Machine

/-- The memory opcode delivers into the LDQ (R174). -/
def delivers (op : Nat) : Bool := op = 0x00 || op = 0x02 || op = 0x09 || op = 0x0A || op = 0x20 || op = 0x29 || op = 0x31

/-- LAQ entries that a delivering access takes on a slice (R174). -/
def entriesOf (t : Ty) : Nat := if is64 t then 2 else 1

/-- The access is a compare-and-swap. -/
def Acc.isCas (a : Acc) : Bool := (a.op = 0x08 || a.op = 0x09 || a.op = 0x0A) && a.atop = .cas

/-- LAQ entries of an access of a type in the layout of R380. -/
def laqOf (cas : Bool) (t : Ty) : Nat := if cas then 2 * entriesOf t else entriesOf t

/-- LAQ entries of an access in the layout of R380. -/
def Acc.laqSize (a : Acc) : Nat := laqOf a.isCas a.ty

/-- The access is to global memory, and not of JOIN. -/
def Acc.global (a : Acc) : Bool :=
  a.op = 0x00 || a.op = 0x01 || a.op = 0x08 || a.op = 0x09 || a.op = 0x18 || a.op = 0x19
    || ((a.op = 0x20 || a.op = 0x28 || a.op = 0x29) && a.scope ≠ .gang && a.scope ≠ .grp)

/-- A lane of the access on gang slice `k` in a state. -/
def Acc.hasLane (a : Acc) (k : Nat) (p : LaneSt → Bool) : Bool := a.lanes.any (fun l => l.lane / 8 = k && p l.st)

/-- The command is held on a fault (R230). -/
def CopyCmd.waits (m : CopyCmd) : Bool := m.held.isSome || m.barred
/-- The command is held on a fault (R230). -/
def MatCmd.waits (m : MatCmd) : Bool := m.held.isSome || m.barred

/-- The lane is kept in its slice's replay buffer (R178). -/
def LaneSt.buffered (x : LaneSt) : Bool := x = .replay || x = .stuck

/-- The access holds LAQ entries on slice `k`: a delivering one until its lanes have arrived, another while it has lanes
in the replay buffer (R174, R380). -/
def Acc.inLaq (a : Acc) (k : Nat) : Bool :=
  if delivers a.op then a.hasLane k (fun x => x ≠ .done) else a.hasLane k (fun x => x.buffered)

/-- Occupied LAQ entries of a slice. -/
def Gang.laqCount (g : Gang) (k : Nat) : Nat :=
  g.accs.foldl (fun n e => if e.2.inLaq k then n + e.2.laqSize else n) 0

/-- LAQ entries of a slice that its accesses hold or may come to hold: a store or an atomic that has not been performed may go to the
replay buffer, which has one place for each (R178, R380) (log entry 68, DESIGN CHOICE). -/
def Gang.laqHeld (g : Gang) (k : Nat) : Nat :=
  g.accs.foldl (fun n e =>
    if e.2.inLaq k || (e.2.global && e.2.hasLane k (fun x => x = .queued)) then n + e.2.laqSize else n) 0

/-- Every LAQ entry of the slice belongs to its current lane set or to a stream: the incoming set may issue (R31). -/
def Gang.laqClear (g : Gang) (k : Nat) : Bool :=
  let x := g.slice k
  g.accs.all (fun e => !(e.2.inLaq k) || e.2.strm || (match e.2.owner.find? (fun o => o.1 = k) with
    | none => true
    | some o => some o.2 = x.cur))

/-- The bundle before an address, in the code that has been proofed. -/
def State.prevHead (s : State) (c pc : Nat) : Option Nat :=
  match s.proofs.find? (fun p => p.ctx = c && p.base < pc && pc ≤ p.base + p.len) with
  | none => none
  | some p => ((p.heads.filter (fun h => p.base + h < pc)).getLast?).map (fun h => p.base + h)

/-- The target of an indirect transfer is a proofed bundle header on an executable page whose proof class the kernel
holds (R112). A page in flight stays executable, and is waited for at its fetch (R338). -/
def State.targetOk (s : State) (u tgt : Nat) : Bool :=
  let g := s.gang u
  let h := s.kernelOf u
  match s.proofs.find? (fun p => p.ctx = g.ctx && p.base ≤ tgt && p.pages.contains (tgt / 0x10000)
    && p.heads.contains (tgt - p.base)) with
  | none => false
  | some p =>
    p.vregs ≤ h.vregs && p.ztiles ≤ h.ztiles && p.barriers ≤ h.barriers
      && (!p.pen || h.pen) && (p.feat &&& s.dev.feat) = p.feat
      && (match s.walk g.ctx tgt with
        | .leaf e _ _ => entX e
        | .held _ _ _ => (s.pageRec g.ctx tgt).st = .poisoned || entX (s.pageRec g.ctx tgt).entry
        | _ => false)

/-- The bytes of a fault record (R298). -/
def faultBytes (f : FaultRec) : List Byte :=
  bytesOf 8 (f.seq * 2 ^ 32 + f.cause * 256 + 1) ++ bytesOf 8 (f.group * 2 ^ 40 + f.core * 2 ^ 31 + f.gang * 2 ^ 27)
    ++ bytesOf 8 f.pc ++ bytesOf 8 f.addr ++ bytesOf 8 f.detail ++ bytesOf 8 f.time ++ bytesOf 16 0

/-- Launches accepted and not yet ended (R290). -/
def Queue.heldCount (q : Queue) : Nat := q.launches.length

/-- Write the fault records that wait, while a slot is free (R298); the queue is FAULTED from then on (R294). The starter's
own queue has no slots (R397). -/
def State.tryRecords (s : State) (c q : Nat) : Nat → State
  | 0 => s
  | n + 1 =>
    let x := s.queue c q
    if c = safeCtx then s
    else
    match x.waiting, (List.range 16).find? (fun k => (smFind x.slots k).isNone) with
    | g :: rest, some k =>
      (match (s.group g).fault with
       | none => (s.modQueue c q (fun x => { x with waiting := rest })).tryRecords c q n
       | some f =>
         let (ok, s) := s.record c (x.faultbase + 64 * k) (faultBytes f) 1
         if ok then
           (s.modQueue c q (fun x => { x with
             waiting := rest
             slots := smPut x.slots k g
             kept := if x.st = .faulted then x.kept else x.st
             st := .faulted })).tryRecords c q n
         else s)
    | _, _ => s

/-- Every queue's waiting fault records are tried. -/
def State.tryAllRecords (s : State) : State :=
  s.ctxs.foldl (fun s c => c.2.queues.foldl (fun s q => if q.2.waiting.isEmpty then s else s.tryRecords c.1 q.1 16) s) s

/-- The group parked in the current cycle (R317). -/
def State.parkedNow (s : State) (g : Nat) (f old : FaultRec) : Bool :=
  match s.gangsOf g with
  | [] => decide (old.time = f.time)
  | us => us.any (fun u => (s.gang u).stopped = some (s.cyc (s.gang u).core))

/-- A gang stops in this cycle and its fixed-latency writes land (R100, R317); those of a gang whose bundle is issuing land with the
bundle, whose slots all read their sources at issue (R117). -/
def State.stopNow (s : State) (u : Nat) : State :=
  let c := s.cyc (s.gang u).core
  s.modGang u (fun y =>
    let y := if s.cur.any (fun z => z.gang = u) then y else y.landEvery c
    { y with stopped := some (y.stopped.getD c) })

/-- The group parks on a system fault (R311, R317): its gangs stop, their fixed-latency writes land. Faults that meet
in one cycle give one record, for the lowest gang index. -/
def State.park (s : State) (g : Nat) (f : FaultRec) : State :=
  let x := s.group g
  match x.st with
  | .resident | .draining =>
    let s := s.modGroup g (fun x => { x with st := .parked, from_ := x.st, fault := some f, barred := true })
    let s := (s.gangsOf g).foldl (fun s u => s.stopNow u) s
    s.modQueue x.ctx x.q (fun q => { q with waiting := q.waiting ++ [g] })
  | .parked =>
    (match x.fault with
     | some old =>
       if s.parkedNow g f old && f.gang < old.gang && (s.queue x.ctx x.q).waiting.contains g then
         s.modGroup g (fun x => { x with fault := some f })
       else s
     | none => s)
  | _ => s

/-- A system fault of a gang (R370): its group parks. -/
def State.sysFault (s : State) (u cause pc addr detail : Nat) : State :=
  let g := s.gang u
  let x := s.group g.group
  s.park g.group
    { seq := x.seq, cause := cause, group := x.index, core := x.core, gang := g.idx, pc := pc, addr := addr,
      detail := detail, time := s.timens }

/-- A protection fault with its subcode (R371). -/
def State.protFault (s : State) (u pc addr sub : Nat) : State := s.sysFault u 2 pc addr sub

/-- Regroup a part by the PC and loop stack of its slices (R29, R118): the class of the lowest slice stays the part. -/
def Gang.repart (g : Gang) (m : Nat) : Gang :=
  let key := fun k => ((g.slice k).curSet.map (fun y => (y.pc, y.loops)))
  let low := (bitsOf 8 m).filter (fun k => key k = key (lowSlice m))
  let rest := (bitsOf 8 m).filter (fun k => key k ≠ key (lowSlice m))
  let classes := rest.foldl (fun (l : List Nat) k =>
    if l.any (fun c => key (lowSlice c) = key k) then l.map (fun c => if key (lowSlice c) = key k then c ||| 2 ^ k else c)
    else l ++ [2 ^ k]) []
  { g with parts := g.parts.flatMap (fun p => if p.slices = m then { p with slices := maskOf low } :: classes.map (fun m => { newPart m with holds := p.holds }) else [p]) }

/-- The latches of every lane of a slice are captured (R373). -/
def Gang.captureLatches (g : Gang) (k : Nat) : Gang :=
  (List.range 8).foldl (fun g j =>
    let i := 8 * k + j
    { g with c0 := smSet 0 g.c0 i (smGet 0 g.l0 i), c1 := smSet 0 g.c1 i (smGet 0 g.l1 i) }) g

/-- The captured latches of a slice are restored (R375). -/
def Gang.restoreLatches (g : Gang) (k : Nat) : Gang :=
  (List.range 8).foldl (fun g j =>
    let i := 8 * k + j
    { g with l0 := smSet 0 g.l0 i (smGet 0 g.c0 i), l1 := smSet 0 g.l1 i (smGet 0 g.c1 i) }) g

/-- Enter the trap handler at `pc` (R373): the part `m` freezes, its writes land, and each slice's loop stack, latches
and queue counts are captured. -/
def Gang.enterHandler (g : Gang) (now m cause info tpc handler ready : Nat) : Gang :=
  let g := g.landPart now m
  let g := (bitsOf 8 m).foldl Gang.captureLatches g
  { g with slices := g.slices.mapIdx (fun k x =>
      if m.testBit k then
        let f : Frame :=
          { cause := cause, pc := tpc, info := info, valid := true, capLdq := x.ldq.length, capLaq := g.laqCount k,
            flags := x.flags.ended
            loops := (match x.curSet with | none => [] | some y => y.loops) }
        let x := x.modCur (fun y => { y with loops := [], pc := handler, nxt := handler, inh := true, ready := ready, st := .run, jumped := true })
        { x with frame := f, ldq := x.ldq.map (fun e => { e with cap := true }) }
      else x) }

/-- The cycle of a gang's core. -/
def State.cycOf (s : State) (u : Nat) : Nat := s.cyc (s.gang u).core

/-- Take a program trap (R243, R369, R373): `pc` is what TRAPPC takes, and the handler's first bundle is eligible at
`ready`. Without a handler, or inside one, it is a system fault at bundle `at_`. -/
def State.trap (s : State) (u m cause info pc at_ ready : Nat) : State :=
  let h := s.kernelOf u
  let g := s.gang u
  if h.handler = 0 || g.inHandler m then s.sysFault u 6 at_ 0 cause
  else if !(s.targetOk u (h.codebase + h.handler)) then s.protFault u at_ 0 4
  else (s.modGang u (fun g => g.enterHandler (s.cycOf u) m cause info pc (h.codebase + h.handler) ready)).arriveCurs u m

/-- A trap taken before the current bundle issues (R372, R373). -/
def State.preTrap (s : State) (c : Cursor) (cause info : Nat) : State :=
  s.trap c.gang c.slices cause info c.pc c.pc (c.cyc + 1)

/-- A protection fault before the current bundle issues. -/
def State.preFault (s : State) (c : Cursor) (addr sub : Nat) : State := s.protFault c.gang c.pc addr sub

/-- The handler has popped every LDQ entry it produced, and has no LAQ entry (R375). -/
def Gang.handlerDone (g : Gang) (m : Nat) : Bool :=
  (bitsOf 8 m).all (fun k => (g.slice k).ldq.all (fun e => !e.inh) && g.accs.all (fun e => !(e.2.inh && e.2.inLaq k)))

/-- Leave the trap handler (R375): captured loop stacks and latches come back, the marks go, and each slice resumes at
its TRAPPC. -/
def Gang.leaveHandler (g : Gang) (m : Nat) : Gang :=
  let g := (bitsOf 8 m).foldl Gang.restoreLatches g
  let g := g.modSlices m (fun x =>
    let x := x.modCur (fun y => { y with loops := x.frame.loops, pc := x.frame.pc, nxt := x.frame.pc, inh := false, jumped := true })
    { x with
      frame := { x.frame with valid := x.sets.any (fun e => e.2.inh) }
      ldq := x.ldq.map (fun e => { e with cap := false }) })
  g.repart m

/-- Hold the part of gang slice `k`. -/
def State.hold (s : State) (u k : Nat) (h : Hold) : State :=
  s.modGang u (fun g => g.modPart k (fun p => { p with holds := p.holds ++ [h] }))

/-- The hold stands before a bundle that has not issued: the part has reached that bundle (R245, R378). -/
def Hold.before : Hold → Bool
  | .mark _ _ | .marked _ | .lease _ => true
  | _ => false

/-- The slices of the parts that have a hold: a split copies it. -/
def Gang.heldBy (g : Gang) (h : Hold) : Nat := g.parts.foldl (fun m p => if p.holds.contains h then m ||| p.slices else m) 0

/-- A hold goes from every part that has it. -/
def Gang.dropHold (g : Gang) (h : Hold) : Gang := { g with parts := g.parts.map (fun p => { p with holds := p.holds.filter (fun x => x ≠ h) }) }

/-- A hold ends in every part that has it: their next bundles are eligible from cycle `t`. A slice that its bundle also blocked may then
switch, and a part that an issued bundle held reaches its next bundle (R35, R36). -/
def State.unholdAt (s : State) (u : Nat) (h : Hold) (t : Nat) : State :=
  let m := (s.gang u).heldBy h
  let s := s.modGang u (fun g => ((g.dropHold h).modCurs m (fun y => { y with ready := max y.ready t })).settle m)
  if h.before then s else s.arriveCurs u m

/-- A hold ends: the next bundles of its parts are eligible after this cycle (R187). -/
def State.unhold (s : State) (u : Nat) (h : Hold) : State := s.unholdAt u h (s.cycOf u + 1)

/-- A held bundle at `pc` blocks its parts after all (R36): they go on at the bundle after it. -/
def State.holdBlocks (s : State) (u : Nat) (h : Hold) (w : Wait) (pc : Nat) : State :=
  s.modGang u (fun g =>
    let m := g.heldBy h
    ((g.dropHold h).modCurs m (fun y => { y with st := w, pc := pc, nxt := if y.st = .run then y.pc else y.nxt })).settle m)

/-- Block the current part after its bundle has issued (R36): it goes on at the bundle after it. -/
def State.blockPart (s : State) (c : Cursor) (w : Wait) : State :=
  s.modGang c.gang (fun g => g.modCurs c.slices (fun y =>
    if y.st = .run then { y with st := w, pc := c.pc, nxt := y.pc } else { y with st := w }))

end Sys2Proof.Machine
end

