-- ==== Sys2Proof/Machine/Batons.lean ====
section
/-! DEFINITION. Failures of lanes, the baton table and the hold queue (R180, R192 to R194, R363 to R366). -/

namespace Sys2Proof.Machine

/-- Set the state of some lanes of an access. -/
def State.setLanes (s : State) (u id : Nat) (lanes : List Nat) (f : AccLane → AccLane) : State :=
  s.modGang u (fun g => g.modAcc id (fun a => { a with lanes := a.lanes.map (fun l => if lanes.contains l.lane then f l else l) }))

/-- A lane that has been performed: what it delivers waits to arrive, or it is done. -/
def performed (op v : Nat) (bad : Bool) (l : AccLane) : AccLane :=
  { l with st := if delivers op then .arriving else .done, val := v, bad := bad }

/-- The baton with number `q` is in the table and neither released nor failed. -/
def State.batonPending (s : State) (q : Nat) : Bool :=
  match smFind s.link.batons q with
  | some b => b.st = .pending
  | none => false

/-- The baton has failed. -/
def State.batonFailed (s : State) (q : Nat) : Bool :=
  match smFind s.link.batons q with
  | some b => b.st = .failed
  | none => false

/-- Change a baton. -/
def State.modBaton (s : State) (q : Nat) (f : Baton → Baton) : State :=
  s.modLink (fun l => { l with batons := smMod l.batons q f })

/-- A baton's entry has nothing left to deliver (R363): each of its destinations has been told, and has answered. -/
def State.batonSettled (s : State) (q : Nat) (b : Baton) : Bool :=
  b.st ≠ .pending && b.dests.all (fun d => b.told.contains d) && s.link.reqs.all (fun e => match e.2.msg with
    | some (k, m) => !((k = .brel || k = .bfail) && m.seq = q)
    | none => true)

/-- Occupied baton table entries (R363). -/
def State.batonCount (s : State) : Nat :=
  (s.link.batons.filter (fun e => !(s.batonSettled e.1 e.2))).length

/-- Settled entries of released batons leave the table; a failed baton stays known to its handles
(log entry 15, DEDUCED). -/
def State.sweepBatons (s : State) : State :=
  s.modLink (fun l => { l with batons := l.batons.filter (fun e => !(e.2.st = .released && s.batonSettled e.1 e.2)) })

/-- BREL or BFAIL goes to each destination that holds stores carrying the baton, once all its HELDACKs are in (R364,
R365). -/
def State.tellDests (s : State) (q : Nat) : State :=
  match smFind s.link.batons q with
  | none => s
  | some b =>
    if b.st = .pending then s
    else
      let due := b.dests.filter (fun d => !(b.told.contains d)
        && !(b.st = .released && s.link.reqs.any (fun e => e.2.peer = d && e.2.carries.contains q && !(e.2.held))))
      let s := s.modBaton q (fun b => { b with told := b.told ++ due })
      due.foldl (fun s d => s.sendMsg d (if b.st = .released then .brel else .bfail) q 0) s

/-- Write an expiry record to the host's ring (R366); a ring without a base takes none (log entry 16, DESIGN CHOICE). -/
def State.expiry (s : State) (srcInc srcPkg reason seq pa : Nat) : State :=
  let n := s.dev.expcnt
  let s := s.modDev (fun d => { d with expcnt := (d.expcnt + 1) % 2 ^ 64 })
  let s := s.modLink (fun l => { l with expiries := (seq, reason) :: l.expiries })
  if s.dev.expbase = 0 then s
  else s.hostWr 64 (s.dev.expbase + 32 * (n % 4096))
    (bytesOf 8 (srcInc * 2 ^ 32 + srcPkg * 2 ^ 23 + reason) ++ bytesOf 8 seq ++ bytesOf 8 pa ++ bytesOf 8 s.timens)

/-- An access fails (R180, R190): its bit is set, and it counts once in the record of the gang until a fence reports. -/
def State.failAcc (s : State) (u id bit : Nat) : State :=
  let a := (s.gang u).acc id
  (s.fail u bit (if a.failed then 0 else 1)).modGang u (fun g => g.modAcc id (fun a => { a with failed := true }))

/-- The context's kill policy replaces the report of a failure of baton stores (R194, R271). -/
def State.killFault (s : State) (u id seq : Nat) : State :=
  let a := (s.gang u).acc id
  s.sysFault u 5 ((s.gang u).faultPc a) ((a.lanes.head?.map (·.addr)).getD 0) seq

/-- The lanes fail (R180): they deliver 0 or have no effect. A store of a baton and a carried store may be a system fault (R271). -/
def State.failLanes (s : State) (u id : Nat) (lanes : List Nat) (bit : Nat) : State :=
  let a := (s.gang u).acc id
  let s := s.setLanes u id lanes (performed a.op 0 false)
  if (a.own.isSome || !a.carries.isEmpty) && (s.ctx (s.gang u).ctx).killexp then s.killFault u id (a.own.getD (a.carries.headD 0))
  else s.failAcc u id bit

/-- Carried stores of a gang are dropped (R194): EXPIRED, or a system fault under the context's kill policy. -/
def State.expireLanes (s : State) (u id : Nat) (lanes : List Nat) (seq : Nat) : State :=
  let a := (s.gang u).acc id
  let s := s.setLanes u id lanes (performed a.op 0 false)
  if (s.ctx (s.gang u).ctx).killexp then s.killFault u id seq else s.failAcc u id fExpired

/-- The baton an access's stores belong to. -/
def State.ownBaton (s : State) (o : Origin) : List Nat :=
  match o with
  | .acc u id _ => ((s.gang u).acc id).own.toList
  | _ => []

/-- Expire the lanes an origin names. -/
def State.expireOrigin (s : State) (o : Origin) (seq : Nat) : State :=
  match o with
  | .acc u id lanes => s.expireLanes u id lanes seq
  | _ => s

/-- The first baton of a list that has not been released (R366). -/
def State.firstUnreleased (s : State) (qs : List Nat) : Nat :=
  (qs.find? (fun q => s.batonPending q || s.batonFailed q)).getD (qs.headD 0)

/-- Batons fail (R365): their destinations are told, stores that carry them and are still here are dropped, and the
batons those stores belong to fail in turn. Each turn fails one of them. -/
def State.failBatons : Nat → List Nat → State → State
  | 0, _, s => s
  | n + 1, qs, s =>
    match qs.find? s.batonPending with
    | none => s
    | some q =>
      let s := (s.modBaton q (fun b => { b with st := .failed })).tellDests q
      let mine := s.link.held.filter (fun e => e.2.src = s.dev.pkgid && e.2.srcInc = s.link.inc && e.2.carries.contains q)
      let unsent := s.link.reqs.filter (fun e => e.2.carries.contains q && (!e.2.went || e.2.busy))
      let more := (mine.map (fun e => e.2.origin) ++ unsent.map (fun e => e.2.origin)).flatMap s.ownBaton
      let s := mine.foldl (fun s e =>
        let seq := s.firstUnreleased e.2.carries
        ((s.modLink (fun l => { l with held := smDel l.held e.1 })).expiry s.link.inc s.dev.pkgid 2 seq
          ((e.2.bytes.head?.map (·.1)).getD 0)).expireOrigin e.2.origin seq) s
      let s := unsent.foldl (fun s e => (s.delReq e.1).expireOrigin e.2.origin (s.firstUnreleased e.2.carries)) s
      State.failBatons n (qs ++ more) s

/-- A baton fails with every baton that falls with it. Requests that waited behind a store that has been dropped go out (R356). -/
def State.failBaton (s : State) (q : Nat) : State := (State.failBatons s.link.batons.length [q] s).flushLink

/-- A store of a gang is dropped for a storage error (R354): its group consumes the error, and the baton that it belongs to fails
(log entry 65, DEDUCED). -/
def State.lostStore (s : State) (u id : Nat) : State :=
  let s := s.later (.uncorrectableErrorConsumed (s.gang u).group u 4)
  match ((s.gang u).acc id).own with
  | some q => s.failBaton q
  | none => s

/-- `n` stores of a baton have been acknowledged (R192): with the last one it is released. -/
def State.ackBaton (s : State) (q n : Nat) : State :=
  let s := s.modBaton q (fun b => { b with
    stores := b.stores - n, st := if b.st = .pending && b.stores ≤ n then .released else b.st })
  s.tellDests q

/-- A held store may be applied: every baton it carries has been released, and no earlier store of its gang waits
(R364). -/
def State.heldReady (s : State) (e : Nat × Held) : Bool :=
  let own := e.2.src = s.dev.pkgid && e.2.srcInc = s.link.inc
  e.2.carries.all (fun q => if own then !(s.batonPending q) && !(s.batonFailed q) else e.2.got.contains q)
    && s.link.held.all (fun x => !(x.2.src = e.2.src && x.2.gang = e.2.gang && x.2.order < e.2.order))

/-- Send an answer to incarnation `inc` of another package (R354, R360, R364). -/
def State.reply (s : State) (src inc tag : Nat) (a : AnsKind) (poison : Nat) : State :=
  s.modLink (fun l => { l with answers := ⟨src, inc, l.inc, tag, a, poison⟩ :: l.answers })

/-- Keep the outcome of a use of a tag for a resend, in the place of what an earlier use left (R368). -/
def State.keepOutcome (s : State) (t : TagRec) : State :=
  s.modLink (fun l => { l with tags := t :: l.tags.filter (fun x => !(x.src = t.src && x.tag = t.tag)) })

/-- Answer a request of another package, and keep its outcome for a resend (R368). -/
def State.answer (s : State) (src inc tag number : Nat) (a : AnsKind) (poison : Nat) : State :=
  (s.keepOutcome ⟨src, tag, number, some a, poison⟩).reply src inc tag a poison

/-- Apply every held store that may be applied (R364): it is then acknowledged. One to a POISONED page is dropped, and its issuer
consumes the error (R354). -/
def State.applyHeld : Nat → State → State
  | 0, s => s
  | n + 1, s =>
    match s.link.held.find? (fun e => s.heldReady e) with
    | none => s
    | some e =>
      let lost := e.2.bytes.any (fun b => s.failedAt b.1)
      let s := (s.modLink (fun l => { l with held := smDel l.held e.1 })).wrAll (if lost then [] else e.2.bytes) |>.tickSerial
      let s := match e.2.origin with
        | .acc u id lanes =>
          let s := s.setLanes u id lanes (fun l => { l with st := .done })
          if lost then s.lostStore u id
          else
          (match ((s.gang u).acc id).own with
           | some q => s.ackBaton q lanes.length
           | none => s)
        | _ => s.answer e.2.src e.2.srcInc e.2.tag e.2.number (if lost then .lost [] else .done []) 0
      State.applyHeld n s

/-- Apply what has become applicable, and let settled batons go. -/
def State.settleHeld (s : State) : State := (State.applyHeld s.link.held.length s).sweepBatons

/-- A held store is dropped here (R194, R365): its expiry record, and BEXP or the report to its own gang. -/
def State.dropHeld (s : State) (id reason : Nat) : State :=
  match smFind s.link.held id with
  | none => s
  | some e =>
    let own := e.src = s.dev.pkgid && e.srcInc = s.link.inc
    let seq := if own then s.firstUnreleased e.carries else (e.carries.find? (fun q => !(e.got.contains q))).getD 0
    let s := s.modLink (fun l => { l with held := smDel l.held id })
    let s := s.expiry e.srcInc e.src reason seq ((e.bytes.head?.map (·.1)).getD 0)
    if own then
      let fall := s.ownBaton e.origin
      fall.foldl (fun s q => s.failBaton q) (s.expireOrigin e.origin seq)
    else if reason = 4 then s
    else (s.keepOutcome ⟨e.src, e.tag, e.number, none, 0⟩).sendMsg e.src .bexp seq e.tag

end Sys2Proof.Machine
end

