-- ==== Sys2Proof/Machine/Perform.lean ====
section
/-! DEFINITION. Performing memory accesses: translation misses (R282), the order in which a gang's accesses are performed
(R181, R185, R186, R258 to R264, R270, R424), reads, writes, atomics and futures at their home (R183, R185, R200 to R202, R333, R334),
and remote transactions (R367). -/

namespace Sys2Proof.Machine

/-- The JOIN of R250 makes an access of its own, with an opcode outside R105. -/
def opJoin : Nat := 0x130

/-- What an access does at its page. -/
def Acc.use (a : Acc) : Use :=
  if a.op = 0x00 || a.op = 0x02 || a.op = 0x20 then .read
  else if a.op = 0x01 || a.op = 0x03 || a.op = 0x18 || a.op = 0x19 then .write
  else if a.op = 0x28 then .fill
  else if a.op = 0x29 || a.op = opJoin then .await
  else .atomic

/-- The access waits for a future and holds only its own part (R424). -/
def Acc.parks (a : Acc) : Bool := a.op = 0x29 || a.op = opJoin

/-- What an access does at its page, as R179 tells pages apart. -/
def Acc.pageUse (a : Acc) : Use := if a.op = 0x18 || a.op = 0x19 then .baton else a.use

/-- Bytes that a lane of the access covers: those of its type, or a future's cell (R173, R200). -/
def Acc.size (a : Acc) : Nat := if a.op = 0x28 || a.parks then 8 else sizeOf a.ty

/-- The access is to scratchpad (R181, R183, R200). -/
def Acc.sp (a : Acc) : Bool :=
  a.op = 0x02 || a.op = 0x03 || a.op = 0x0A || ((a.op = 0x28 || a.op = 0x29) && (a.scope = .gang || a.scope = .grp))
    || (a.op = 0x20 && a.scope = .grp)

/-- A die TLB miss joins an entry of the merge table, takes a new one, or waits for one (R282). -/
def State.miss (s : State) (die c va : Nat) : State :=
  let page := va / 0x10000
  s.modDie die (fun d =>
    if d.merge.any (fun m => m.ctx = c && m.key = mergeKey va) then
      { d with merge := d.merge.map (fun m =>
          if m.ctx = c && m.key = mergeKey va && !(m.pages.contains page) then { m with pages := m.pages ++ [page] } else m) }
    else if d.merge.length < 1024 && d.overflow.isEmpty then { d with merge := d.merge ++ [⟨c, mergeKey va, [page], []⟩] }
    else if d.overflow.contains (c, page) then d
    else { d with overflow := d.overflow ++ [(c, page)] })

/-- A fixable fault on a page is known at a die (R282): later misses to it join the request. -/
def State.faultPage (s : State) (die c va : Nat) : State :=
  let page := va / 0x10000
  s.modDie die (fun d =>
    if d.merge.any (fun m => m.ctx = c && m.key = mergeKey va) then
      { d with merge := d.merge.map (fun m =>
          if m.ctx = c && m.key = mergeKey va && !(m.faults.contains page) then { m with faults := m.faults ++ [page] } else m) }
    else { d with merge := d.merge ++ [⟨c, mergeKey va, [], [page]⟩] })

/-- A fault on the page finds an entry of the miss-merge table, or room for one (R282). -/
def State.faultRoom (s : State) (die c va : Nat) : Bool :=
  let d := s.die die
  d.merge.any (fun m => m.ctx = c && m.key = mergeKey va) || (d.merge.length < 1024 && d.overflow.isEmpty)

/-- Misses that wait at a die take freed entries of the miss-merge table in arrival order (R282). -/
def State.refillMerge (s : State) (die : Nat) : State := s.modDie die Die.refill

/-- A fault on the page is pending at the die. -/
def State.faultPending (s : State) (die c va : Nat) : Bool :=
  (s.die die).merge.any (fun m => m.ctx = c && m.key = mergeKey va && m.faults.contains (va / 0x10000))

/-- Install a translation in a die's TLB (R282). -/
def State.installDie (s : State) (die : Nat) (e : TlbEntry) : State :=
  s.modDie die (fun d => { d with tlb := (e :: d.tlb.filter (fun x => !(x.ctx = e.ctx && x.va = e.va))).take 8192 })

/-- Translate for a core (R282): none is a miss that now waits for a walk. -/
def State.translate (s : State) (core c va : Nat) (u : Use) : Option Place × State :=
  if s.faultPending (dieOf core) c va then (some (.wait false), s)
  else
    match s.tlbLookup core c va with
    | (some e, s) => (some (s.placeLeaf c va e.e e.va u), s)
    | (none, s) => (none, s.miss (dieOf core) c va)

/-- Count `n` accesses for automatic placement (R348) (log entry 29, DESIGN CHOICE). -/
def State.countRegion (s : State) (c va die n : Nat) : State :=
  let k := va / 2 ^ 21 * 4 + die
  s.modCtx c (fun x => { x with regions := smSet 0 x.regions k (min 0xFFFF (smGet 0 x.regions k + n)) })

/-- The gang has acquired (R181, R268): its later `.ro` loads see at least this moment. So they keep the second condition of R263 for
acquires of every scope, barriers and waits. -/
def State.acquired (s : State) (u : Nat) : State :=
  let t := s.serial + 1
  s.tickSerial.modGang u (fun g => { g with acq := t })

/-- The access is an acquire. -/
def Acc.acquires (a : Acc) : Bool := a.ord = .acq || a.ord = .ar

/-- The access is a release. -/
def Acc.releases (a : Acc) : Bool := a.ord = .rel || a.ord = .ar

/-- A lane of an acquire has been performed. -/
def State.noteAcquire (s : State) (u : Nat) (a : Acc) : State := if a.acquires then s.acquired u else s

/-- The lane has not been performed at its home yet. -/
def LaneSt.pending : LaneSt → Bool
  | .arriving | .done => false
  | _ => true

/-- A lane of the access still has to be performed at a scope. A store that is on its way to a peer is awaited at `.sys` only (R186,
R189): accesses of this package to its line follow it (R356). What reads at the peer is performed there (R185, R262). -/
def Acc.pendingAt (a : Acc) (sc : Scope) (x : LaneSt) : Bool :=
  match x with
  | .arriving | .done => false
  | .sent _ => sc = .sys || a.use = .read || a.use = .atomic
  | _ => true

/-- The gang's accesses numbered below `upTo`, reads too, have been performed at a scope, as a release or a fence there waits for
(R186, R262). A wait for a future holds only its own part (R424). Stream elements are not waited for (log entry 90, DESIGN
CHOICE). -/
def Gang.earlierDone (g : Gang) (sc : Scope) (upTo : Nat) : Bool :=
  g.accs.all (fun e => upTo ≤ e.1 || e.2.strm || e.2.parks || e.2.lanes.all (fun l => !(e.2.pendingAt sc l.st)))

/-- The access is strong (R257). -/
def Acc.strong (a : Acc) : Bool := a.ord ≠ .plain || !(a.use = .read || a.use = .write)

/-- A held fence of the gang was issued before access `id` and holds it back: its acquire side every access (R186), its release side
a strong one, which would otherwise synchronise for the fence (R261). -/
def Gang.fenced (g : Gang) (id : Nat) (a : Acc) : Bool :=
  g.parts.any (fun p => p.holds.any (fun h => match h with
    | .fence _ o _ n => n ≤ id && (o = .acq || o = .ar || a.strong)
    | _ => false))

/-- The lane waits here to be performed or sent. -/
def LaneSt.unsent : LaneSt → Bool
  | .queued | .replay | .stuck => true
  | _ => false

/-- Where a global address of a context lies: the kind and peer of its page, and its address there. -/
def State.location (s : State) (c va : Nat) : Option (Nat × Nat) :=
  match s.walk c va with
  | .leaf e base _ => some (entKind e * 512 + entPeer e, entAddr e + (va - base))
  | _ => none

/-- Two accesses of a context touch a common byte: by address, or through two mappings of one page (R259). -/
def State.meets (s : State) (c : Nat) (sp : Bool) (x n y m : Nat) : Bool :=
  overlaps x n y m || (!sp && (match s.location c x, s.location c y with
    | some (i, a), some (j, b) => decide (i = j) && overlaps a n b m
    | _, _ => false))

/-- No earlier access of the gang keeps a lane of access `id` from being performed: none of its lane touches its bytes, no acquire
is pending, an acquire waits for earlier releases and a release for all earlier accesses, and carried stores keep their order (R181,
R258, R261, R264, R270) (log entry 34, DESIGN CHOICE). -/
def State.laneFree (s : State) (u id : Nat) (a : Acc) (l : AccLane) : Bool :=
  let g := s.gang u
  g.accs.all (fun e => id ≤ e.1 || e.2.parks || e.2.lanes.all (fun x => !(x.st.pending
    && (e.2.acquires || (a.acquires && e.2.releases) || (a.releases && e.2.pendingAt a.scope x.st)
      || (!a.carries.isEmpty && !e.2.carries.isEmpty && x.st.unsent)
      || (x.lane = l.lane && e.2.sp = a.sp && s.meets g.ctx a.sp x.addr e.2.size l.addr a.size)))))

/-- A queued lane may be performed now, lanes `on` of its access having been handed on to a peer: it is free, no fence holds it, lanes
of its access go to common bytes in ascending order, and those of an atomic in one sequence (R181, R185, R201). A park is presented
after the fills of the cycle in which its bundle issued (R202, R334). -/
def State.mayPerform (s : State) (u id : Nat) (a : Acc) (on : List Nat) (l : AccLane) : Bool :=
  let g := s.gang u
  !(g.fenced id a) && (!a.parks || a.cyc < s.cyc g.core) && s.laneFree u id a l
    && (a.use = .read || a.lanes.all (fun x => x.lane = l.lane || !x.st.pending || on.contains x.lane
        || !(s.meets g.ctx a.sp x.addr a.size l.addr a.size)
        || (l.lane < x.lane && (a.use ≠ .atomic || s.laneFree u id a x))))

/-- Read through the read-only L1 of a core: its line if it is new enough, else the line is fetched (R181, R268). -/
def State.readOnly (s : State) (core acq pa n : Nat) : List Byte × State :=
  let base := pa / 128 * 128
  match (s.core core).l1.find? (fun l => l.pa = base && acq ≤ l.serial) with
  | some l => (((l.data.drop (pa - base)).take n), s)
  | none =>
    let line : L1Line := ⟨base, s.rd base 128, s.serial⟩
    let s := s.modCore core (fun c => { c with l1 := (line :: c.l1.filter (fun l => l.pa ≠ base)).take 512 })
    ((line.data.drop (pa - base)).take n, s)

/-- The core's waiters, or those of the home L2 slice (R334): room for one more entry. -/
def State.waiterRoom (s : State) (grp : Option Nat) (core cell : Nat) : Bool :=
  match grp with
  | some _ => (s.core core).waiters.length < 64
  | none =>
    (s.fwait.filter (fun w => homeDie w.cell = homeDie cell && homeSlice w.cell = homeSlice cell)).length < 2048

/-- Two waiter entries are for one cell and core (R334). -/
def Waiter.here (x w : Waiter) : Bool := x.ctx = w.ctx && x.grp = w.grp && x.cell = w.cell && x.core = w.core

/-- Park a part on an empty future (R334): set its bit in an entry, or in a new one if there is room. -/
def parkIn (l : List Waiter) (room : Bool) (w : Waiter) : List Waiter :=
  if l.any (fun x => x.here w) then
    l.map (fun x => if x.here w then { x with parts := x.parts ++ w.parts.filter (fun p => !(x.parts.contains p)) } else x)
  else if room then l ++ [w] else l

/-- Park lane `l` of an access on a future's cell; without a free entry its park is presented again later (R334). -/
def State.parkOn (s : State) (u id : Nat) (a : Acc) (l : Nat) (grp : Option Nat) (cell : Nat) : State :=
  let g := s.gang u
  let w : Waiter := ⟨g.ctx, grp, cell, g.core, [(u, lowSlice a.slices)]⟩
  let room := s.waiterRoom grp g.core cell
  let known := (match grp with
    | some _ => (s.core g.core).waiters
    | none => s.fwait).any (fun x => x.here w)
  let t := s.cyc g.core
  let s := s.setLanes u id [l] (fun x => { x with st := if known || room then .parked else .retry t })
  match grp with
  | some _ => s.modCore g.core (fun c => { c with waiters := parkIn c.waiters room w })
  | none => { s with fwait := parkIn s.fwait room w }

/-- A future cell: in global memory, or in a group's scratchpad (R200). -/
def State.futFull (s : State) (grp : Option Nat) (cell : Nat) : Bool :=
  match grp with
  | some g => (s.group g).futs.contains (cell / 8)
  | none => s.futs.contains cell
/-- Set a future's state. -/
def State.setFut (s : State) (grp : Option Nat) (cell : Nat) (full : Bool) : State :=
  let put := fun (l : List Nat) (x : Nat) =>
    if full then (if l.contains x then l else x :: l) else l.filter (fun y => y ≠ x)
  match grp with
  | some g => s.modGroup g (fun x => { x with futs := put x.futs (cell / 8) })
  | none => { s with futs := put s.futs cell }
/-- The value in a future's cell. -/
def State.futVal (s : State) (grp : Option Nat) (cell : Nat) : Nat :=
  match grp with
  | some g => ofBytes (s.spRd g cell 8)
  | none => s.rdN cell 8

/-- A park is answered with a value (R202, R250), which may be marked (R354): a JOIN writes it to a register, and its group consumes the
error as a lane does (log entry 65, DEDUCED). -/
def State.answerPark (s : State) (u id : Nat) (a : Acc) (l : AccLane) (v : Nat) (bad : Bool) : State :=
  let s := s.setLanes u id [l.lane] (performed a.op v bad)
  if a.op = opJoin then
    let s := (s.modGang u (fun g => g.setS l.data v)).acquired u
    if bad then s.later (.uncorrectableErrorConsumed (s.gang u).group u 4) else s
  else s.noteAcquire u a

/-- A part presents a park (R334): with the cell full it reads, and takes under `.take`; else it sleeps. -/
def State.present (s : State) (u id : Nat) (a : Acc) (l : AccLane) (grp : Option Nat) (cell : Nat) : State :=
  if s.futFull grp cell then
    let v := s.futVal grp cell
    let s := if a.take then s.setFut grp cell false else s
    s.answerPark u id a l v (grp.isNone && s.poisoned cell 8)
  else s.parkOn u id a l.lane grp cell

/-- The lane's park has been presented and waits (R334). -/
def LaneSt.asleep : LaneSt → Bool
  | .parked | .retry _ => true
  | _ => false

/-- The parked lanes of a gang are woken in a cycle, and present their parks again (R334). -/
def Gang.unpark (g : Gang) (cyc : Nat) : Gang :=
  { g with accs := g.accs.map (fun e => if e.2.lanes.any (fun l => l.st.asleep) then
      (e.1, { e.2 with cyc := cyc, lanes := e.2.lanes.map (fun l => if l.st.asleep then { l with st := .queued } else l) }) else e) }

/-- Fill a future whose cell has been written (R201, R334): set its bit, and wake every part in its waiter entries, which present
their parks again after the fills of the cycle. The woken gangs are returned. -/
def State.fill (s : State) (c : Nat) (grp : Option Nat) (cell : Nat) : List Nat × State :=
  let s := (s.setFut grp cell true).tickSerial
  let hit := fun (w : Waiter) => (w.ctx = c || grp.isNone) && w.grp = grp && w.cell = cell
  let ws := match grp with
    | some g => (s.core (s.group g).core).waiters.filter hit
    | none => s.fwait.filter hit
  let s := match grp with
    | some g => s.modCore (s.group g).core (fun x => { x with waiters := x.waiters.filter (fun w => !(hit w)) })
    | none => { s with fwait := s.fwait.filter (fun w => !(hit w)) }
  let gs := (ws.flatMap (fun w => w.parts.map (·.1))).eraseDups
  (gs, gs.foldl (fun s u => s.modGang u (fun g => g.unpark (s.cyc g.core))) s)

/-- The batons a store carries that are not released (R193). -/
def State.liveCarries (s : State) (a : Acc) : List Nat := a.carries.filter (fun q => s.batonPending q)

/-- The lanes of a store are acknowledged: its own baton counts them (R192). -/
def State.ackOwn (s : State) (a : Acc) (n : Nat) : State :=
  match a.own with
  | some q => s.ackBaton q n
  | none => s

/-- A store that carries a failed baton is dropped as expired (R194), and its own baton fails (R365). -/
def State.dropCarrier (s : State) (u id : Nat) (a : Acc) (lanes : List Nat) : State :=
  let q := (a.carries.find? (fun q => s.batonFailed q)).getD 0
  let s := s.expireLanes u id lanes q
  match a.own with
  | some b => s.failBaton b
  | none => s

/-- Whether a transaction of a core to an address crosses to another die and fails every attempt (R21, R354). -/
def State.crossFails (s : State) (core pa : Nat) : Bool := s.crossDie (dieOf core) (homeDie pa)

/-- A lane whose transaction fails on a die-to-die path (R354): read data is marked, and a write is dropped and consumes an error. -/
def State.crossLost (s : State) (u id : Nat) (a : Acc) (l : AccLane) (v : Nat) : State :=
  let s := s.crossed (dieOf (s.gang u).core)
  if a.use = .read then (s.setLanes u id [l.lane] (performed a.op v true)).noteAcquire u a
  else if a.use = .await then s.answerPark u id a l v true
  else (s.setLanes u id [l.lane] (performed a.op 0 false)).lostStore u id

/-- A store that carries batons waits in the hold queue while one of them is unreleased, or while an earlier carried store of its
gang does, or waits for room there (R193, R270, R364). -/
def State.mustHold (s : State) (u id : Nat) (a : Acc) : Bool :=
  !(s.liveCarries a).isEmpty || (!a.carries.isEmpty && (s.link.held.any (fun e =>
      e.2.src = s.dev.pkgid && e.2.srcInc = s.link.inc && e.2.gang = u && e.2.order < id)
    || s.link.reqs.any (fun e => e.2.peer = s.dev.pkgid && (match e.2.origin with
      | .acc v i _ => v = u && i < id
      | _ => false))))

/-- The page is remote (R281). -/
def State.remotePage (s : State) (c va : Nat) : Bool :=
  match s.walk c va with
  | .leaf e _ _ => entKind e = 1
  | _ => false

/-- Accesses of a gang at some addresses are issued: one to a remote page commits the interval of a group with ROLLBACK (R321). -/
def State.noteRemote (s : State) (u : Nat) (vas : List Nat) : State :=
  let g := s.gang u
  if (s.kernel g.group).rollback && vas.any (s.remotePage g.ctx) then s.modGroup g.group (fun x => { x with commit := true }) else s

/-- Count an engine's access at its place for automatic placement, as a lane's (R348). -/
def State.countPlace (s : State) (core c va : Nat) (p : Place) : State :=
  match p with
  | .hbm _ => s.countRegion c va (dieOf core) (Config.l2Miss s.serial).toNat
  | .peer _ _ | .host _ => s.countRegion c va (dieOf core) 1
  | _ => s

/-- The `.ro` load finds its line in the core's L1, new enough (R181, R268): no transaction is made. -/
def State.l1Hit (s : State) (core acq pa : Nat) : Bool := (s.core core).l1.any (fun l => l.pa = pa / 128 * 128 && acq ≤ l.serial)

/-- Perform one lane at a local physical address; a store that must be held goes to `holdLanes`. Gangs to wake are added to the list. -/
def State.performHbm (s : State) (u id : Nat) (a : Acc) (l : AccLane) (pa : Nat) : List Nat × State :=
  let n := sizeOf a.ty
  let g := s.gang u
  let bad := s.poisoned pa n
  let done := fun (s : State) (v : Nat) => s.setLanes u id [l.lane] (performed a.op v bad)
  let s := s.countRegion g.ctx l.addr (dieOf g.core) (Config.l2Miss s.serial).toNat
  if s.crossFails g.core pa && !(a.use = .await && !(s.futFull none pa)) && !(a.use = .read && a.ro && s.l1Hit g.core g.acq pa) then
    ([], s.crossLost u id a l (extendTo a.ty (s.rdN pa n)))
  else
  match a.use with
  | .read =>
    let (bs, s) := if a.ro then s.readOnly g.core g.acq pa n else (s.rd pa n, s)
    ([], ((done s (extendTo a.ty (ofBytes bs))).tickSerial).noteAcquire u a)
  | .write | .baton =>
    if a.carries.any (fun q => s.batonFailed q) then ([], s.dropCarrier u id a [l.lane])
    else ([], (((done (s.wr pa (bytesOf n l.data)) 0).tickSerial).ackOwn a 1).settleHeld)
  | .atomic =>
    let old := s.rdN pa n
    ([], ((done (s.wr pa (bytesOf n (atomNew a.atop a.ty old l.data l.data2))) old).tickSerial).noteAcquire u a)
  | .fill =>
    let (gs, s) := (s.wr pa (bytesOf 8 l.data)).fill g.ctx none pa
    (gs, done s 0)
  | .await => ([], s.present u id a l none pa)

/-- Perform one lane in host memory (R338): loads and stores only (R179). -/
def State.performHost (s : State) (u id : Nat) (a : Acc) (l : AccLane) (io : Nat) : State :=
  let n := sizeOf a.ty
  let g := s.gang u
  let s := s.countRegion g.ctx l.addr (dieOf g.core) 1
  if a.use = .read then
    ((s.setLanes u id [l.lane] (performed a.op (extendTo a.ty (ofBytes (s.hostRd g.ctx io n))) false)).tickSerial).noteAcquire u a
  else ((s.hostWr g.ctx io (bytesOf n l.data)).setLanes u id [l.lane] (performed a.op 0 false)).tickSerial

/-- Read-only L1 lines of a range of HBM go (R273). -/
def State.dropL1 (s : State) (pa n : Nat) : State :=
  { s with cores := s.cores.map (fun x => (x.1, { x.2 with l1 := x.2.l1.filter (fun l => !(pa ≤ l.pa && l.pa < pa + n)) })) }

/-- Units of a range of HBM are free again. -/
def State.freeHbm (s : State) (pa size : Nat) : State :=
  { s with alloc := s.alloc.filter (fun u => !(pa / 0x10000 ≤ u && u < (pa + size) / 0x10000)) }

/-- Where a 64 KiB piece of a replica has its home: the package and the physical address there (R350). A page in flight counts as
before its move. -/
def State.homeOf (s : State) (c vpage : Nat) : Option (Nat × Nat) :=
  let va := vpage * 0x10000
  let r := s.pageRec c va
  let at_ := fun (e off : Nat) =>
    if entKind e = 1 then some (entPeer e, entAddr e + off)
    else if entKind e = 0 then (if r.owned && entKind r.entry = 1 && r.st ≠ .inflight then some (entPeer r.entry, entAddr r.entry)
      else some (s.dev.pkgid, entAddr e + off))
    else none
  if r.st = .inflight then (if entRo r.entry then at_ r.entry 0 else none)
  else
    match s.walk c va with
    | .leaf e base _ => if entRo e then at_ e (va - base) else none
    | _ => none

/-- A local copy of a peer's replica is dropped, and the page is the peer's again (R273, R359). -/
def State.dropCopy (s : State) (c vpage : Nat) : State :=
  let va := vpage * 0x10000
  let r := s.pageRec c va
  match s.walk c va with
  | .leaf e base _ =>
    if entKind e = 0 && r.owned && entKind r.entry = 1 then
      let pa := entAddr e + (va - base)
      (((((s.setPage c va 0x10000 r.entry).dropTlb c va 0x10000).dropL1 pa 0x10000).freeHbm pa 0x10000).modPages c va 0x10000
        (fun r => { r with owned := false, entry := 0 }))
    else s
  | _ => s

/-- A page leaves its place in the spill area (R341). -/
def State.freeSpill (s : State) (c io : Nat) : State :=
  s.modCtx c (fun x => { x with spillUsed := x.spillUsed.filter (fun k => !((x.spill.map (fun a => a.1 + k * 0x10000)) = some io)) })

/-- The space that a move under way has taken is free again: HBM, or a unit of the spill area (R341). -/
def State.freeMoveSpace (s : State) (m : Move) : State := if m.out then s.freeSpill m.ctx m.dst else s.freeHbm m.dst 0x10000

/-- A move that is under way starts again later: the old entry is back, and the space it took is free. -/
def State.restartMove (s : State) (m : Move) : State :=
  let va := m.vpage * 0x10000
  let s := (s.setPage m.ctx va 0x10000 m.old).modPages m.ctx va 0x10000 (fun r => { r with st := .replica, entry := 0 })
  { (s.freeMoveSpace m) with
    far := s.far.filter (fun f => f.use ≠ .move m.ctx m.vpage m.upTo)
    moves := s.moves.map (fun x => if x = m then { x with began := false, old := 0, dst := 0 } else x) }

/-- The 64 KiB pieces here of the page at an address of a home package, in every context (R338, R353): all of a page of the size
that the host has mapped, or the one piece where the address is not the page's (log entry 17, DEDUCED). -/
def State.replicasOf (s : State) (home addr : Nat) : List (Nat × Nat) :=
  s.ctxs.flatMap (fun c => c.2.pages.filterMap (fun x =>
    let n := max 0x10000 x.2.size
    let hit := (s.homeOf c.1 x.1).any (fun h => h.1 = home && (h.2 = addr || (addr % n = 0 && h.2 / n = addr / n)))
    if hit then some (c.1, x.1) else none))

/-- Steps 1 and 2 of R273 begin here for the page at an address of its home: its replicas and their L1 lines go, fetches of it start
again, and its pieces are SHOOTDOWN. Serial 0 is a shoot-down that the home has not asked for. -/
def State.shootHere (s : State) (home addr serial : Nat) (waiting : List Nat) : State :=
  let mine := s.replicasOf home addr
  let s := (s.moves.filter (fun m => m.began && mine.contains (m.ctx, m.vpage))).foldl State.restartMove s
  mine.foldl (fun s x =>
    let va := x.2 * 0x10000
    let s := s.dropCopy x.1 x.2
    let s := match s.walk x.1 va with
      | .leaf e base size =>
        let s := if entKind e = 0 then s.dropL1 (entAddr e + (va - base)) 0x10000 else s
        let s := if addr % size = 0 || size = 0x10000 then s else s.setPage x.1 va 0x10000 (e + (va - base))
        s.dropTlb x.1 base size
      | _ => s
    (s.modPages x.1 va 0x10000 (fun r => { r with st := .shootdown })).modLink (fun l => { l with
      shoots := l.shoots.filter (fun y => !(y.ctx = x.1 && y.vpage = x.2))
        ++ [⟨x.1, x.2, home, addr, serial, waiting, s.nextId, home = s.dev.pkgid || serial = 0⟩] })) s

/-- Packages whose links are UP or in RECOVERY. -/
def State.joined (s : State) : List Nat := (s.link.peers.filter (fun p => p.2.st = .up || p.2.st = .recovery)).map (·.1)

/-- A domain shoot-down of a REPLICA page begins (R273, R350): the page becomes SHOOTDOWN. A home in this package asks
every joined package; otherwise the home's notice is awaited (log entry 17, DEDUCED). A page that lies in the host's space has no
replicas (log entry 17). -/
def State.shootDown (s : State) (c va : Nat) : State :=
  let r := s.pageRec c va
  let k := va / 0x10000
  match s.walk c va with
  | .leaf e base size =>
    if !(entRo e) || r.st = .shootdown then s
    else
      match s.homeOf c k with
      | none =>
        let s := s.modPages c base size (fun r => { r with st := .shootdown })
        let s := s.modLink (fun l => { l with shoots := l.shoots ++ [⟨c, k, s.dev.pkgid, hostKey (c + 1) (entAddr e), 0, [], 0, true⟩] })
        s.later (.faultAcknowledge c k)
      | some (home, pa) =>
        let own := decide (home = s.dev.pkgid)
        -- the page's address at its home, or the piece's own where the page has been divided
        let addr := if r.size = size && !(r.owned && entKind r.entry = 1) then
            pa - (k * 0x10000 - base) else pa
        let n := smGet 0 s.link.serials addr + 1
        let peers := if own then s.joined else []
        let s := if own then s.modLink (fun l => { l with serials := smSet 0 l.serials addr n }) else s
        let s := s.shootHere home addr (if own then n else 0) peers
        -- with nobody to ask, the shoot-down is over at once
        (peers.foldl (fun s p => s.sendMsg p .sdreq n addr) s).later (.faultAcknowledge c k)
  | _ => s

/-- A lane waits in the replay buffer on a fixable fault (R178). -/
def State.replayLane (s : State) (u id : Nat) (a : Acc) (l : AccLane) (ask : Bool) : State :=
  let g := s.gang u
  -- a kill drops such a lane, and does not wait for the fault (R289)
  if (s.group g.group).killed.isSome || s.ctxDying g.ctx then s.setLanes u id [l.lane] (fun l => { l with st := .done })
  else
  if !(s.faultRoom (dieOf g.core) g.ctx l.addr) then s.miss (dieOf g.core) g.ctx l.addr
  else
  let s := s.setLanes u id [l.lane] (fun l => { l with st := .replay })
  let s := s.faultPage (dieOf g.core) g.ctx l.addr
  let s := if ask then s.askHost g.ctx l.addr else s
  if a.use = .write || a.use = .atomic || a.use = .fill then s.shootDown g.ctx l.addr else s

/-- A lane stays in the replay buffer on an outcome with no fix, and its group parks (R178); a kill drops it (R289). -/
def State.stickLane (s : State) (u id : Nat) (a : Acc) (l : AccLane) (cause detail : Nat) : State :=
  let g := s.gang u
  if (s.group g.group).killed.isSome || s.ctxDying g.ctx then s.setLanes u id [l.lane] (fun l => { l with st := .done })
  else (s.setLanes u id [l.lane] (fun l => { l with st := .stuck })).sysFault u cause (g.faultPc a) l.addr detail

/-- A POISONED page (R338, R354): a read delivers a marked value, a write is dropped; either consumes an error. -/
def State.poisonLane (s : State) (u id : Nat) (a : Acc) (l : AccLane) : State :=
  let marked := a.use = .read || a.op = 0x29
  let s := s.setLanes u id [l.lane] (performed a.op 0 marked)
  if marked then s else s.lostStore u id

/-- Group the remote lanes of an access into transactions (R367): by 256-byte block, or by location for atomics. No transaction is above
256 bytes (R355): lanes of an atomic beyond that follow in the next, once this one has been answered (log entry 66, DEDUCED). -/
def groupRemote (a : Acc) (ls : List (AccLane × Nat × Nat)) : List (Nat × List (AccLane × Nat)) :=
  let key := fun (x : AccLane × Nat × Nat) => (x.2.1, if a.use = .atomic then x.2.2 else x.2.2 / 256)
  let most := if a.use = .atomic then 256 / atomBytes a.atop a.ty else ls.length
  (ls.map key).eraseDups.map (fun k => (k.1, ((ls.filter (fun x => key x = k)).map (fun x => (x.1, x.2.2))).take most))

/-- A carried store to a package waits until the gang's earlier ones to that package are held there or answered, and, if it carries
nothing unreleased any more, answered (R270, R364). -/
def State.carryWaits (s : State) (u id peer : Nat) (a : Acc) : Bool :=
  !a.carries.isEmpty && s.link.reqs.any (fun e => e.2.peer = peer && (match e.2.origin with
    | .acc v i _ => v = u && i < id && !((s.gang u).acc i).carries.isEmpty && (!e.2.held || (s.liveCarries a).isEmpty)
    | _ => false))

/-- Of the bytes that lanes write in turn, those that remain (R181). -/
def lastBytes (bs : List (Nat × Byte)) : List (Nat × Byte) := bs.foldl (fun l b => l.filter (fun x => x.1 ≠ b.1) ++ [b]) []

/-- The bytes that lanes of a store write, a higher lane's over a lower one's (R181). -/
def laneStores (n : Nat) (ls : List (AccLane × Nat)) : List (Nat × Byte) :=
  lastBytes (ls.flatMap (fun x => (bytesOf n x.1.data).mapIdx (fun i b => (x.2 + i, b))))

/-- Lanes of a carried store to this package's own memory become one held transaction (R363, R364). A full hold queue answers busy: the
store waits as a request to this package, made again every 2 µs until its hold bound has passed. -/
def State.holdLanes (s : State) (u id : Nat) (a : Acc) (ls : List (AccLane × Nat)) : State :=
  let lanes := ls.map (fun x => x.1.lane)
  let bs := laneStores (sizeOf a.ty) ls
  if a.carries.any (fun q => s.batonFailed q) then s.dropCarrier u id a lanes
  else if s.carryWaits u id s.dev.pkgid a then s
  else if s.link.held.length < 16384 then
    let (h, s) := s.fresh
    let x : Held :=
      { src := s.dev.pkgid, srcInc := s.link.inc, gang := u, order := id, carries := s.liveCarries a, got := [], bytes := bs, tag := 0,
        number := 0, origin := .acc u id lanes, hold := a.hold, since := s.time }
    ((s.modLink (fun k => { k with held := smPut k.held h x })).setLanes u id lanes (fun l => { l with st := .held h })).settleHeld
  else
    let (r, s) := s.fresh
    let x : Req :=
      { peer := s.dev.pkgid, tag := 0, dstInc := s.link.inc, attempts := 1, went := true, crcFails := 0, port := 0, op := .write bs,
        msg := none, origin := .acc u id lanes, carries := s.liveCarries a, hold := a.hold, gang := u, sent := s.time, first := s.time,
        held := false, busy := true }
    (s.modLink (fun k => { k with reqs := smPut k.reqs r x })).setLanes u id lanes (fun l => { l with st := .sent r })

/-- A carried store that this package's full hold queue has answered busy is made again (R364). -/
def State.holdAgain (s : State) (id : Nat) : State :=
  let r := s.req id
  match r.origin with
  | .acc u i lanes =>
    if 16384 ≤ s.link.held.length then s.modReq id (fun r => { r with sent := s.time })
    else
      let x : Held :=
        { src := s.dev.pkgid, srcInc := s.link.inc, gang := u, order := i, carries := r.carries, got := [],
          bytes := (match r.op with
            | .write bs => bs
            | _ => []),
          tag := 0, number := 0, origin := r.origin, hold := r.hold, since := s.time }
      (((s.delReq id).modLink (fun k => { k with held := smPut k.held id x })).setLanes u i lanes (fun l => { l with st := .held id })).settleHeld
  | _ => s

/-- Send one transaction of an access (R367); a peer whose link is NONE or DEAD fails it at once (R180, R358)
(log entry 51, DEDUCED). -/
def State.sendLanes (s : State) (u id : Nat) (a : Acc) (peer : Nat) (ls : List (AccLane × Nat)) : State :=
  let g := s.gang u
  let lanes := ls.map (fun x => x.1.lane)
  let n := sizeOf a.ty
  let lo := ls.foldl (fun m x => min m x.2) ((ls.head?.map (·.2)).getD 0)
  let hi := ls.foldl (fun m x => max m (x.2 + n)) 0
  let fails := fun (s : State) (bit : Nat) =>
    let s := s.failLanes u id lanes bit
    match a.own with
    | some q => s.failBaton q
    | none => s
  match (s.peer peer).st with
  | .none => fails s fRefused
  | .dead => fails s fDead
  | _ =>
    let s := s.modGroup g.group (fun x => { x with commit := true })
    if a.carries.any (fun q => s.batonFailed q) then s.dropCarrier u id a lanes
    else if s.carryWaits u id peer a then s
    else
      let op : RemoteOp :=
        match a.use with
        | .read => .read lo (hi - lo)
        | .atomic => .atomic a.atop a.ty lo (ls.map (fun x => (x.1.data, x.1.data2)))
        | _ => .write (laneStores n ls)
      let s := s.countRegion g.ctx ((ls.head?.map (fun x => x.1.addr)).getD 0) (dieOf g.core) 1
      let (r, s) := s.request peer op none (.acc u id lanes) (s.liveCarries a) a.hold u
      let s := (s.liveCarries a).foldl (fun s q => s.modBaton q (fun b => { b with dests := (peer :: b.dests).eraseDups })) s
      let s := a.own.toList.foldl (fun s q => s.modBaton q (fun b => { b with peers := (peer :: b.peers).eraseDups })) s
      s.setLanes u id lanes (fun l => { l with st := .sent r })

/-- The hurdle cell's test (R331, R332). -/
def State.hurdleMet (s : State) (grp off : Nat) : Bool :=
  ofBytes (s.spRd grp (off + 8) 6) ≤ ofBytes (s.spRd grp off 8)

/-- The lane set waits on a hurdle whose test holds. -/
def State.hurdleOver (s : State) (grp : Nat) (y : LaneSet) : Bool :=
  match y.st with
  | .hurdle off => s.hurdleMet grp off
  | _ => false

/-- An HWAIT of the cycle that has ended is decided (R332): it completes, as an acquire (R234), or blocks its lane sets. -/
def State.decideHwait (u : Nat) (s : State) (h : Hold) : State :=
  match h with
  | .hwait cell pc =>
    if s.hurdleMet (s.gang u).group cell then (s.unholdAt u h 0).acquired u else s.holdBlocks u h (.hurdle cell) pc
  | _ => s

/-- The test of a cycle's end (R332): HWAITs of the cycle are decided, and every lane set of a cluster's running gangs that waits on a
hurdle whose test holds goes on, as an acquire (R234). It is made in every cycle, so that a resumed part is tested too (R336). -/
def State.testHurdles (s : State) (cluster : Nat) : State :=
  let s := ((s.gangs.filter (fun e => e.2.live && clusterOf e.2.core = cluster)).flatMap (fun e => (e.2.parts.flatMap (fun p =>
      p.holds.filter Hold.tests)).eraseDups.map (fun h => (e.1, h)))).foldl (fun s e => State.decideHwait e.1 s e.2) s
  ((s.gangs.filter (fun e => e.2.live && e.2.stopped.isNone && clusterOf e.2.core = cluster
      && e.2.slices.any (fun x => x.sets.any (fun y => s.hurdleOver e.2.group y.2)))).map (·.1)).foldl (fun s u =>
    (s.wakeSets u (s.cycOf u) (fun _ y => s.hurdleOver (s.gang u).group y)).acquired u) s

/-- What a write of the memory slot leaves in the place of an old value (R183). -/
def BankOp.value (o : BankOp) (old : Nat) : Nat :=
  match o.atomic with
  | none => o.data
  | some (op, ty) => atomNew op ty old o.data o.data2

/-- A write of the memory slot to a scratchpad. -/
def BankOp.on (o : BankOp) (m : Memory) : Memory :=
  Memory.writeN m o.addr (bytesOf o.size (o.value (ofBytes (Memory.readN m o.addr o.size))))

/-- The write that a lane of an access makes to its scratchpad (R181, R183, R201). -/
def Acc.bankOp (a : Acc) (u id : Nat) (l : AccLane) : BankOp :=
  { gang := u, acc := id, issued := a.cyc, lane := l.lane, addr := l.addr, size := a.size,
    atomic := if a.use = .atomic then some (a.atop, a.ty) else none, data := l.data, data2 := l.data2 }

/-- The bank of a scratchpad in a cycle. -/
def Group.bankAt (x : Group) (cyc : Nat) : Bank := if x.bank.cyc = cyc then x.bank else ⟨cyc, [], []⟩

/-- The bytes of a scratchpad before the writes of the memory slot in the current cycle (R332). -/
def Group.bankBefore (x : Group) (cyc : Nat) : Memory := Memory.writeAll x.spad (x.bankAt cyc).was

/-- A write of the memory slot to a scratchpad; an atomic's lane has the value that it found. The write and the bytes that it replaces
are kept until the cycle is over: what the bank decides before it in the cycle comes later in the model (R332). -/
def State.bankStore (s : State) (grp : Nat) (o : BankOp) : State :=
  let x := s.group grp
  let b := x.bankAt (s.cyc x.core)
  let new := (((List.range o.size).map (fun i => o.addr + i)).filter (fun i => b.was.all (fun w => w.1 ≠ i))).map (fun i => (i, Memory.read x.spad i))
  let old := ofBytes (s.spRd grp o.addr o.size)
  let s := s.modGroup grp (fun x =>
    { x with spad := o.on x.spad, bank := { b with was := b.was ++ new, ops := b.ops ++ [o] } }.clean (fun i => o.addr ≤ i && i < o.addr + o.size))
  if o.atomic.isSome then s.setLanes o.gang o.acc [o.lane] (fun l => if l.st = .arriving then { l with val := old } else l) else s

/-- Change a hurdle cell as HSET and counted bytes do: before the writes of the memory slot in the same cycle, which are made again
upon it (R332) (log entry 67, DEDUCED). -/
def State.bankCell (s : State) (grp a : Nat) (f : List Byte → List Byte) : State :=
  let x := s.group grp
  let b := x.bankAt (s.cyc x.core)
  let m := x.bankBefore (s.cyc x.core)
  let s := s.modGroup grp (fun x =>
    { x with spad := Memory.writeN m a (f (Memory.readN m a 16)), bank := { b with was := [], ops := [] } }.clean (fun i => a ≤ i && i < a + 16))
  b.ops.foldl (fun s o => s.bankStore grp o) s

/-- The bank still decides a lane of the access in this cycle (R332): its data has not left. -/
def State.atBank (s : State) (u id : Nat) : Bool :=
  let x := s.groupOf u
  (x.bankAt (s.cyc x.core)).ops.any (fun o => o.gang = u && o.acc = id && o.atomic.isSome)

/-- Perform one lane in the group's scratchpad (R181, R185, R201, R202). -/
def State.performSp (s : State) (u id : Nat) (a : Acc) (l : AccLane) : List Nat × State :=
  let n := sizeOf a.ty
  let g := s.gang u
  let done := fun (s : State) (v : Nat) => s.setLanes u id [l.lane] (performed a.op v false)
  match a.use with
  | .read => ([], (done s (extendTo a.ty (ofBytes (s.spRd g.group l.addr n)))).noteAcquire u a)
  | .write | .baton => ([], done (s.bankStore g.group (a.bankOp u id l)) 0)
  | .atomic => ([], ((done s 0).bankStore g.group (a.bankOp u id l)).noteAcquire u a)
  | .fill =>
    let (gs, s) := (s.bankStore g.group (a.bankOp u id l)).fill g.ctx (some g.group) l.addr
    (gs, done s 0)
  | .await => ([], s.present u id a l (some g.group) l.addr)

/-- Perform one queued lane that may be performed; a lane on a remote page is handed on. -/
def State.pumpLane (u id : Nat) (acc : List Nat × List (AccLane × Nat × Nat) × State) (i : Nat) :
    List Nat × List (AccLane × Nat × Nat) × State :=
  let (ws, rem, s) := acc
  let g := s.gang u
  let a := g.acc id
  match a.lanes.find? (fun l => l.lane = i) with
  | none => acc
  | some l =>
    if l.st ≠ .queued || !(s.mayPerform u id a (rem.map (fun x => x.1.lane)) l) then acc
    else if a.sp then
      let (w, s) := s.performSp u id a l
      (ws ++ w, rem, s)
    else
      match s.translate g.core g.ctx l.addr a.pageUse with
      | (none, s) => (ws, rem, s)
      | (some (.hbm pa), s) =>
        if s.mustHold u id a then (ws, rem ++ [(l, s.dev.pkgid, pa)], s)
        else
          let (w, s) := (s.touch pa).performHbm u id a l pa
          (ws ++ w, rem, s)
      | (some (.host io), s) => (ws, rem, s.performHost u id a l io)
      | (some (.peer p pa), s) => (ws, rem ++ [(l, p, pa)], s)
      | (some (.wait ask), s) => (ws, rem, s.replayLane u id a l ask)
      | (some (.bad cause detail), s) =>
        (ws, rem, s.stickLane u id a l cause detail)
      | (some .poison, s) => (ws, rem, s.poisonLane u id a l)

/-- Lanes of one load or store in a 256-byte block travel as one transaction (R367): it leaves when no other lane of the access in the
block waits. -/
def State.wholeBlock (s : State) (u : Nat) (a : Acc) (ls : List (AccLane × Nat)) : Bool :=
  let c := (s.gang u).ctx
  let at_ := fun (l : AccLane) => (s.location c l.addr).map (fun x => (x.1, x.2 / 256))
  a.use = .atomic || a.lanes.all (fun l => l.st ≠ .queued || ls.any (fun x => x.1.lane = l.lane) || ls.all (fun x => at_ x.1 ≠ at_ l))

/-- Perform what can be performed of one access. -/
def State.pumpAcc (u : Nat) (acc : List Nat × State) (id : Nat) : List Nat × State :=
  let lanes := (((acc.2.gang u).acc id).lanes.filter (fun l => l.st = .queued)).map (fun l => l.lane)
  let (ws, rem, s) := lanes.foldl (State.pumpLane u id) (acc.1, [], acc.2)
  let a := (s.gang u).acc id
  (ws, (groupRemote a rem).foldl (fun s t =>
    if !(s.wholeBlock u a t.2) then s
    else if t.1 = s.dev.pkgid then (s.touch ((t.2.head?.map (·.2)).getD 0)).holdLanes u id a t.2
    else s.sendLanes u id a t.1 t.2) s)

/-- Accesses all of whose lanes are done leave, data that no LDQ entry awaits any more being dropped (R125, R199); a part that waited for one goes on (R202, R250). -/
def State.sweepAccs (s : State) (u : Nat) : State :=
  let g := s.gang u
  let fin := (g.accs.filter (fun e => e.2.lanes.all (fun l => l.st = .done
    || (l.st = .arriving && (g.slice (l.lane / 8)).ldq.all (fun x => x.acc ≠ e.1))))).map (·.1)
  if fin.isEmpty then s
  else
    let s := s.modGang u (fun g => { g with accs := g.accs.filter (fun e => !(fin.contains e.1)) })
    s.wakeSets u (s.cycOf u + 1) (fun _ y => match y.st with
      | .future _ (some id) _ => fin.contains id
      | _ => false)

/-- Perform what can be performed of a gang's accesses, in program order. The gangs that a fill has woken are returned. -/
def State.pumpGang (s : State) (u : Nat) : List Nat × State :=
  let (ws, s) := ((s.gang u).accs.map (·.1)).foldl (State.pumpAcc u) ([], s)
  (ws, s.sweepAccs u)

/-- Perform the accesses of a gang, and of the gangs that its fills wake in turn. -/
def State.pumpAll : Nat → List Nat → State → State
  | 0, _, s => s
  | _, [], s => s
  | n + 1, u :: us, s =>
    let (ws, s) := s.pumpGang u
    State.pumpAll n (us ++ ws.filter (fun w => !(us.contains w))) s

/-- Perform what can be performed after a change that concerns these gangs. -/
def State.pump (s : State) (us : List Nat) : State := State.pumpAll (us.length + s.gangs.length * 64 + 64) us s

/-- Fill a future on behalf of the hub (R306), and wake its waiters. -/
def State.hubFill (s : State) (c cell v : Nat) : State :=
  let (gs, s) := (s.wr cell (bytesOf 8 v)).fill c none cell
  s.pump gs

/-- Parks of the gangs of a cluster that came in the cycle that has ended are presented (R334). -/
def State.presentParks (s : State) (cluster : Nat) : State :=
  s.pump ((s.gangs.filter (fun e => clusterOf e.2.core = cluster && e.2.accs.any (fun a => a.2.parks
    && a.2.lanes.any (fun l => l.st = .queued)))).map (·.1))

/-- Lanes in the replay buffer on a page are tried again (R178, R342). -/
def Gang.replayPage (g : Gang) (vpage : Nat) : Gang :=
  { g with accs := g.accs.map (fun e => (e.1, { e.2 with lanes := e.2.lanes.map (fun l =>
      if l.st = .replay && l.addr / 0x10000 = vpage then { l with st := .queued } else l) })) }

/-- The pacer acknowledges a page (R342): merge entries forget the fault and the waiting lanes and copies go on. -/
def State.ackPage (s : State) (c vpage : Nat) : State :=
  let clr := fun (m : Merge) => if m.ctx = c then { m with faults := m.faults.filter (fun p => p ≠ vpage) } else m
  let s : State := { s with dies := s.dies.map (fun d => (d.1, { d.2 with
    merge := (d.2.merge.map clr).filter (fun m => !(m.pages.isEmpty && m.faults.isEmpty)) })) }
  let s := (s.dies.map (·.1)).foldl State.refillMerge s
  let gs := s.everyGangOfCtx c
  let s := gs.foldl (fun s u => s.modGang u (fun g => g.replayPage vpage)) s
  let free := fun (x : Core) => { x with
    copyq := x.copyq.map (fun e => (e.1, { e.2 with held := none }))
    matq := x.matq.map (fun e => (e.1, { e.2 with held := none })) }
  let s : State := { s with cores := s.cores.map (fun x => (x.1, free x.2)) }
  s.pump gs

/-- The part that issued an access has lanes in the replay buffer, stream elements aside (R178). -/
def Gang.replaying (g : Gang) (m : Nat) : Bool :=
  g.accs.any (fun e => !e.2.strm && e.2.slices &&& m ≠ 0 && e.2.lanes.any (fun l =>
    l.st.buffered && m.testBit (l.lane / 8)))

end Sys2Proof.Machine
end

