-- ==== Sys2Proof/Machine/Checks.lean ====
section
/-! DEFINITION. The checks that precede a bundle's issue (R114, R123, R173, R177, R196, R198, R213, R214, R219, R224,
R229, R243 to R252, R255, R256, R372). -/

namespace Sys2Proof.Machine

/-- V registers an operand of a type names (R87). -/
def opdV (t : Ty) : Opd → List Nat
  | .v n => if is64 t then [n.val, n.val + 1] else [n.val]
  | _ => []

/-- S registers an operand names. -/
def opdS : Opd → List Nat
  | .s n => [n.val]
  | _ => []

/-- Latches an operand names: 0 for L0, 1 for L1 (R92). -/
def opdL (t : Ty) : Opd → List Nat
  | .l0 => if is64 t then [0, 1] else [0]
  | .l1 => [1]
  | _ => []

/-- The sources of an instruction: operands with the types that read them. -/
def instrOpds : Instr → List (Ty × Opd)
  | .vadd o | .vsub o | .vmul o | .vmulh o | .vmin o | .vmax o | .vand o | .vor o | .vxor o | .vshl o | .vshr o | .vrot o
  | .vfadd o | .vfsub o | .vfmul o | .vfmin o | .vfmax o | .vbfx o => [(o.ty, o.a), (o.ty, o.b)]
  | .vmad o | .vfma o | .vbfi o => [(o.ty, o.a), (o.ty, o.b), (o.ty, o.c)]
  | .vabs o | .vneg o | .vnot o | .vpopc o | .vclz o | .vbrev o | .vfabs o | .vfneg o | .vrcp o | .vrsq o | .vsqrt o
  | .vexp2 o | .vlog2 o | .vsin o | .vcos o | .vtanh o | .vmov o => [(o.ty, o.a)]
  | .vcmp o => [(o.ty, o.a), (o.ty, o.b)]
  | .vsel o => [(o.ty, o.a), (o.ty, o.b)]
  | .vcvt o => [(o.st, o.a)]
  | .vpack o => [(o.st, o.a), (o.st, o.b)] ++ (if pack8 o.dt then [(o.st, o.c)] else [])
  | .vunpk o => [(.b32, o.a), (.b32, o.j)] ++ (if o.st = .e2m1 then [(.b32, o.h)] else [])
  | .vqnt o => [(.f32, o.a)]
  | .shfl o => [(o.ty, o.a), (.b32, o.sel), (o.ty, o.f)]
  | .vred o => [(o.ty, o.a)]
  | .ld o | .ldsp o => [(.b32, o.at_.index)]
  | .st o | .stsp o => [(o.ty, o.data), (.b32, o.at_.index)]
  | .pref o => [(.b32, o.at_.index)]
  | .atom o | .atomq o | .atomsp o =>
    (if o.op = .cas then
      (match o.data with
       | .v n => (List.range (if is64 o.ty then 4 else 2)).map (fun k => (Ty.b32, Opd.v (Fin.ofNat 256 (n.val + k))))
       | d => [(o.ty, d)])
     else [(o.ty, o.data)]) ++ [(.b32, o.at_.index)]
  | .stb o | .stk o => [(o.ty, o.data), (.b32, o.at_.index)]
  | .fput o => [(o.ty, o.data), (.b32, o.at_.index)]
  | .fwait o => [(.b32, o.at_.index)]
  | .bcmin o => [(.i64, o.data)]
  | _ => []

/-- The guard of an instruction, if it has one that can be false. -/
def instrGuard : Instr → Option Guard
  | .vadd o | .vsub o | .vmul o | .vmulh o | .vmin o | .vmax o | .vand o | .vor o | .vxor o | .vshl o | .vshr o | .vrot o
  | .vfadd o | .vfsub o | .vfmul o | .vfmin o | .vfmax o | .vbfx o => some o.g
  | .vmad o | .vfma o | .vbfi o => some o.g
  | .vabs o | .vneg o | .vnot o | .vpopc o | .vclz o | .vbrev o | .vfabs o | .vfneg o | .vrcp o | .vrsq o | .vsqrt o
  | .vexp2 o | .vlog2 o | .vsin o | .vcos o | .vtanh o | .vmov o => some o.g
  | .vcmp o => some o.g
  | .vsel o => some o.g
  | .vcvt o => some o.g
  | .vpack o => some o.g
  | .vunpk o => some o.g
  | .vqnt o => some o.g
  | .vote o => some o.g
  | .vballot o => some o.g
  | .shfl o => some o.g
  | .vred o => some o.g
  | .ld o | .ldsp o => some o.g
  | .st o | .stsp o => some o.g
  | .pref o => some o.g
  | .atom o | .atomq o | .atomsp o => some o.g
  | .stb o | .stk o => some o.g
  | .fput o => some o.g
  | .fwait o => some o.g
  | .bcmin o => some o.g
  | .bcrd o => some o.g
  | .mma o => some o.g
  | .mmac o => some o.g
  | .zld o => some o.g
  | .zst o | .zretSp o | .zretG o => some o.g
  | .zclr o => some o.g
  | .br g _ => some g
  | .sysrd g _ _ | .syswr g _ _ | .trap g _ | .tret g | .mark g _ | .markWait g _ | .trig g | .launch g _ _ _
  | .fork g _ _ _ _ | .join g _ _ | .yield g | .pwracq g _ | .pwrrel g | .sprint g _ | .sync g _ | .hwait g _
  | .chkm g _ => some g
  | _ => none

/-- The S registers an instruction reads outside its operand codes. -/
def instrS : Instr → List Nat
  | .ld o | .ldsp o => [o.at_.base]
  | .st o | .stsp o => [o.at_.base]
  | .pref o => [o.at_.base]
  | .atom o | .atomq o | .atomsp o => [o.at_.base]
  | .stb o | .stk o => [o.at_.base]
  | .strm o => [o.base]
  | .fput o => [o.at_.base]
  | .fwait o => [o.at_.base]
  | .mma o => [o.sx, o.sy]
  | .mmac o => [o.sx, o.sy]
  | .zld o => [o.sx, o.sz]
  | .zst o | .zretSp o | .zretG o => [o.sx, o.sy, o.sz]
  | .cpy o | .cpyr o => [o.sx, o.sy, o.sz]
  | .hset o => [o.sx, o.sy]
  | .jmpr a | .callr a | .ret a | .bsz a _ | .bsnz a _ => [a]
  | .loop _ (.reg a) => [a]
  | .sadd o | .ssub o | .smul o | .sand o | .sor o | .sxor o | .sshl o | .sshr o | .ssra o | .smin o | .smax o =>
    o.a.val :: (match o.b with | .reg b => [b.val] | _ => [])
  | .smov _ (.reg b) => [b]
  | .syswr _ _ x => [x]
  | .mark _ (.reg x) | .markWait _ (.reg x) | .sprint _ (.reg x) => [x]
  | .launch _ _ q p => [q, p]
  | .fork _ a f _ _ => [a, a + 1, a + 2, a + 3, f].map (fun n : Fin 64 => n.val)
  | .join _ _ f => [f]
  | .pwracq _ (.reg x) => [x]
  | .hwait _ x => [x]
  | _ => []

/-- The K registers an instruction reads. -/
def instrK : Instr → List Nat
  | .stb o | .stk o => ([o.ka, o.kb].filter (fun k => k.valid)).map (fun k => k.k.val)
  | .bwait o => ([o.ka, o.kb].filter (fun k => k.valid)).map (fun k => k.k.val)
  | _ => []

/-- The predicates an instruction reads beside its guard. -/
def instrP : Instr → List Nat
  | .vsel o => [o.pc]
  | .vote o => [o.pa]
  | .vballot o => [o.pa]
  | .pand o | .por o | .pxor o => [o.a, o.b]
  | _ => []

/-- The format-block's field (R210). -/
def fbA (fb : Nat) : Nat := fld fb 60 4
def fbB (fb : Nat) : Nat := fld fb 56 4
def fbALen (fb : Nat) : Nat := if bitB (fb / 2 ^ 55) then 32 else 16
def fbBLen (fb : Nat) : Nat := if bitB (fb / 2 ^ 54) then 32 else 16
def fbAsc (fb : Nat) : Bool := bitB (fb / 2 ^ 53)
def fbBsc (fb : Nat) : Bool := bitB (fb / 2 ^ 52)
def fbO (fb : Nat) : Nat := fld fb 48 4
def fbOrm (fb : Nat) : Nat := fld fb 45 3
def fbOsat (fb : Nat) : Bool := bitB (fb / 2 ^ 44)
def fbAMeta (fb : Nat) : Nat := fld fb 27 17 * 16
def fbBMeta (fb : Nat) : Nat := fld fb 10 17 * 16

/-- The shapes of R211. -/
inductive Shape where
  | e2m1 | fp8 | int8 | half | single
  deriving DecidableEq, Repr

/-- The shape a format-block's operand types name, if R211 lists the pair. -/
def shapeOf (fb : Nat) : Option Shape :=
  match tyOf (fbA fb), tyOf (fbB fb) with
  | .e2m1, .e2m1 => some .e2m1
  | .e4m3, .e4m3 | .e4m3, .e5m2 | .e5m2, .e4m3 | .e5m2, .e5m2 => some .fp8
  | .i8, .i8 => some .int8
  | .f16, .f16 | .bf16, .bf16 => some .half
  | .f32, .f32 => some .single
  | _, _ => none

/-- K of a shape (R211). -/
def Shape.k : Shape → Nat
  | .e2m1 => 128 | .fp8 => 64 | .int8 => 64 | .half => 32 | .single => 8
/-- A registers of a shape. -/
def Shape.regs : Shape → Nat
  | .single => 8
  | _ => 16

/-- A registers of an AFMT: 8 for `.f32`, else 16 (R211). -/
def latchRegs (fmt : Nat) : Nat := if tyOf fmt = .f32 then 8 else 16
/-- Bytes per B column of a shape. -/
def Shape.col : Shape → Nat
  | .single => 32
  | _ => 64

/-- The checks of R213 that every reader of a format-block makes. -/
def State.fbOk (s : State) (fb : Nat) : Bool :=
  match shapeOf fb with
  | none => false
  | some .e2m1 => fbAsc fb && fbBsc fb && s.feature 2
  | some .fp8 => s.feature 0
  | some _ => !(fbAsc fb) && !(fbBsc fb) && s.feature 0

/-- The output checks of R213. -/
def State.fbOutOk (s : State) (fb : Nat) : Bool :=
  let o := tyOf (fbO fb)
  let fl := o = .f16 || o = .bf16 || o = .e4m3 || o = .e5m2
  if shapeOf fb = some .int8 then (o = .i32 || o = .i8) && fbOrm fb ≤ 3
  else (fl || o = .f32) && (fbOrm fb ≤ 3 || (fbOrm fb = 4 && s.feature 3 && fl))

/-- The A registers an MMA or MMAC reads (R214). -/
def State.aRegs (s : State) (c : Cursor) : Instr → List Nat
  | .mma o => (match shapeOf (s.readS c o.sy) with | none => [] | some h => (List.range h.regs).map (fun n => o.va + n))
  | .mmac o => (match shapeOf (s.readS c o.sy) with | none => [] | some h => (List.range h.regs).map (fun n => o.va + n))
  | _ => []

/-- The first condition of R114 that an instruction's reads meet, with the register or latch. A guard is read in every lane of the part,
another source in the active lanes, so that a vector or memory instruction without one reads nothing else (R94). Condition 0x05 never holds: a lane set that resumes is not ready before REMAIN has run out (R378), so
no bundle issues before its gap, which the proofer has kept to the minimum of R101. -/
def State.scoreboard (s : State) (c : Cursor) (i : Instr) : Option (Nat × Nat) :=
  let g := s.gang c.gang
  let sh := g.shadow c.cyc
  let part := s.partLanes c
  let act := match (instrGuard i) with | none => part | some gd => s.active c gd
  let vr := (instrOpds i).flatMap (fun o => opdV o.1 o.2)
  let aLanes := g.liveLanes
  let gr := (match (instrGuard i) with | none => [] | some gd => [gd.p.val])
  let sr := (instrOpds i).flatMap (fun o => opdS o.2) ++ (instrS i)
  let la := (instrOpds i).flatMap (fun o => opdL o.1 o.2)
  let ready := g.readyOf c.slices
  let reads := !act.isEmpty || !(slotOf i = some .v || slotOf i = some .m)
  let hitV := fun (ls : List Nat) r => sh.any (fun w => ls.any (fun l => (w.w.vVal l r).isSome))
  let hitP := fun (ls : List Nat) r => r ≠ 31 && sh.any (fun w => ls.any (fun l => (w.w.pVal l r).isSome))
  let hitS := fun r => reads && sh.any (fun w => (w.w.sVal r).isSome)
  let hitK := fun r => reads && sh.any (fun w => (w.w.kVal r).isSome)
  let late := act.any (fun l => ready < smGet 0 g.latchAt l || sh.any (fun w => match w.w with
    | .v l' _ _ _ true => l' = l && ready < w.land
    | _ => false))
  match vr.find? (hitV act), (s.aRegs c i).find? (hitV aLanes), (gr.find? (hitP part)).orElse (fun _ => (instrP i).find? (hitP act)), sr.find? hitS, (instrK i).find? hitK, la.head? with
  | some r, _, _, _, _, _ => some (1, r)
  | none, some r, _, _, _, _ => some (1, r)
  | none, none, some r, _, _, _ => some (2, r)
  | none, none, none, some r, _, _ => some (3, r)
  | none, none, none, none, some r, _ => some (3, r)
  | none, none, none, none, none, some l => if late then some (4, l) else none
  | none, none, none, none, none, none => none

/-- The bundle is checked (R114, R254): the gang's check mode, or the bundle's CHECK bit. -/
def State.checks (s : State) (c : Cursor) : Bool :=
  let g := s.gang c.gang
  g.chk || (s.ctx g.ctx).check || c.check

/-- The check-mode trap of an instruction (R114, R369). -/
def State.checkMode (s : State) (c : Cursor) (i : Instr) : Option State :=
  if s.checks c then (s.scoreboard c i).map (fun t => s.preTrap c 6 (t.1 + 256 * t.2)) else none

/-- The first of several checks that stops the bundle. -/
def firstOf (l : List (Option State)) : Option State := (l.filterMap id).head?

/-- A check that fails stops the bundle. -/
def stopIf (b : Bool) (s : State) : Option State := if b then some s else none

/-- The group of the current gang. -/
def State.grp (s : State) (c : Cursor) : Nat := (s.gang c.gang).group

/-- The declared scratchpad of the current gang's group (R177). -/
def State.spad (s : State) (c : Cursor) : Nat := (s.kernelOf c.gang).spad

/-- A scratchpad-bounds trap (R369): slot, lane, and the lowest offending byte offset. -/
def State.boundsTrap (s : State) (c : Cursor) (slot lane off : Nat) : State :=
  s.preTrap c 4 (lane + 64 * slot + 2 ^ 32 * min 0xFFFFFFFF off)

/-- The lowest byte of an extent and the byte after its highest, its addresses being modulo 2^64 (R197, R219, R226): one that passes the
top of the address space reaches from its first byte to its last (log entry 79, DEDUCED). -/
def normExt (e : Int × Int) : Nat × Nat :=
  let lo := wrap64 e.1
  let hi := lo + (e.2 - e.1).toNat
  if 2 ^ 64 < hi then (0, 2 ^ 64) else (lo, hi)

/-- The bytes of an extent must lie in the declared scratchpad (R177). -/
def State.extentIn (s : State) (c : Cursor) (slot : Nat) (e : Nat × Nat) : Option State :=
  if e.2 ≤ s.spad c then none else some (s.boundsTrap c slot 0 (max e.1 (s.spad c)))

/-- The scalar range of `n` bytes at an offset must lie in the scratchpad. -/
def State.cellIn (s : State) (c : Cursor) (slot a n : Nat) : Option State := s.extentIn c slot (a, a + n)

/-- Bounds of the scratchpad accesses of lanes (R177 step 2): (lane, address) pairs. -/
def State.laneBounds (s : State) (c : Cursor) (ls : List (Nat × Nat)) (n : Nat) : Option State :=
  let off := ls.filter (fun l => s.spad c < l.2 + n)
  match off with
  | [] => none
  | x :: _ => some (s.boundsTrap c 0 x.1 (off.foldl (fun m l => min m (max l.2 (s.spad c))) (max x.2 (s.spad c))))

/-- The first range-lock entry that bars an access of the core (R177 step 3): in the scratchpad of a group, or in the
global memory of a context. -/
def Core.barred (k : Core) (glob : Bool) (space a n : Nat) (writes : Bool) : Option (Nat × Lock) :=
  k.locks.find? (fun e => e.2.glob = glob && e.2.space = space && (writes || e.2.dest) && overlaps e.2.lo (e.2.hi - e.2.lo) a n)

/-- Range locks against the accesses of lanes (R177 step 3). -/
def State.laneLocks (s : State) (c : Cursor) (glob : Bool) (ls : List (Nat × Nat)) (n : Nat) (writes : Bool) : Option State :=
  let g := s.gang c.gang
  let space := if glob then g.ctx else g.group
  let k := s.core g.core
  match ls.find? (fun l => (k.barred glob space l.2 n writes).isSome) with
  | none => none
  | some l =>
    match k.barred glob space l.2 n writes with
    | none => none
    | some e => some (s.preTrap c 3 (l.1 + 64 * e.2.dest.toNat + 256 * e.1))

/-- The address form of lanes (R173): canonical for global addresses, and aligned. -/
def State.laneForm (s : State) (c : Cursor) (glob : Bool) (ls : List (Nat × Nat)) (n : Nat) : Option State :=
  (ls.find? (fun l => (glob && !(canonical l.2)) || l.2 % n ≠ 0)).map (fun l => s.preFault c l.2 1)

/-- (lane, address) of the active lanes of an access (R172). -/
def State.addrs (s : State) (c : Cursor) (g : Guard) (a : Addr) (off : Int) : List (Nat × Nat) :=
  (s.active c g).map (fun i => (i, s.ea c a off i))

/-- The checks of R177, steps 2 to 4, of an access (log entry 28, DEDUCED). -/
def State.accessChecks (s : State) (c : Cursor) (sp : Bool) (ls : List (Nat × Nat)) (n : Nat) (writes : Bool) : Option State :=
  firstOf [if sp then s.laneBounds c ls n else none, s.laneLocks c (!sp) ls n writes, s.laneForm c (!sp) ls n]

/-- A future's scope keeps it in scratchpad (R200). -/
def inSpad (sc : Scope) : Bool := sc = .gang || sc = .grp

/-- The stream descriptor at an offset (R196). -/
def State.strmDesc (s : State) (c : Cursor) (a : Nat) : List Nat := dwordsOf 8 (s.spRd (s.grp c) a 64)

/-- Fields of a stream descriptor (R196). -/
def sdDepth (d : List Nat) : Nat := dw d 1 % 8
def sdSpace (d : List Nat) : Nat := fld (dw d 1) 3 2
def sdAhead (d : List Nat) : Nat := fld (dw d 1) 8 6
def sdLstride (d : List Nat) : Int := sx 32 (dw d 1 / 2 ^ 32)
def sdCount (d : List Nat) (k : Nat) : Nat := dw d (2 + k) % 2 ^ 32
def sdStride (d : List Nat) (k : Nat) : Int := sx 32 (dw d (2 + k) / 2 ^ 32)

/-- The descriptor faults of R196. -/
def sdBad (d : List Nat) (t : Ty) : Bool :=
  sdDepth d = 0 || sdDepth d = 7 || sdSpace d = 3 || sdAhead d = 0 || 32 < sdAhead d || (is64 t && sdAhead d < 2)
    || (List.range (sdDepth d)).any (fun k => sdCount d k = 0)

/-- The extent of steps 0 to n − 1 of a stride, as (lowest, highest) offsets. -/
def strideSpan (n : Nat) (st : Int) : Int × Int :=
  let e := ((n : Int) - 1) * st
  (min 0 e, max 0 e)

/-- The lowest byte and the byte after the highest that a stream reaches (R198). -/
def sdExtent (d : List Nat) (t : Ty) (lanes : List Nat) : Int × Int :=
  let b : Int := dw d 0
  let offs := lanes.map (fun (l : Nat) => (l : Int) * sdLstride d)
  let lo := offs.foldl min (offs.headD 0)
  let hi := offs.foldl max (offs.headD 0)
  let sp := (List.range (sdDepth d)).map (fun k => strideSpan (sdCount d k) (sdStride d k))
  (b + lo + sp.foldl (fun x p => x + p.1) 0, b + hi + sp.foldl (fun x p => x + p.2) 0 + sizeOf t)

/-- The checks of STRM (R196, R198) (log entry 28, DEDUCED). -/
def State.strmChecks (s : State) (c : Cursor) (o : MStrm) : Option State :=
  let a := wrap64 (s.readS c o.base + o.off.toInt)
  let d := s.strmDesc c a
  let ext := normExt (sdExtent d o.ty (s.partLanes c))
  let sp := sdSpace d = 2
  let g := s.gang c.gang
  match s.cellIn c 0 a 64 with
  | some x => some x
  | none =>
    if sdBad d o.ty then some (s.preFault c a 10)
    else
      match (if sp then s.extentIn c 0 ext else none) with
      | some x => some x
      | none =>
        ((s.core g.core).barred (!sp) (if sp then g.group else g.ctx) ext.1 (ext.2 - ext.1) false).map
          (fun e => s.preTrap c 3 (64 * e.2.dest.toNat + 128 + 256 * e.1))

/-- The memory-slot checks of an instruction (R177, R182, R196, R198). -/
def State.memChecks (s : State) (c : Cursor) : Instr → Option State
  | .ld o => s.accessChecks c false (s.addrs c o.g o.at_ o.off.toInt) (sizeOf o.ty) false
  | .st o => s.accessChecks c false (s.addrs c o.g o.at_ o.off.toInt) (sizeOf o.ty) true
  | .ldsp o => s.accessChecks c true (s.addrs c o.g o.at_ o.off.toInt) (sizeOf o.ty) false
  | .stsp o => s.accessChecks c true (s.addrs c o.g o.at_ o.off.toInt) (sizeOf o.ty) true
  | .atom o | .atomq o => s.accessChecks c false (s.addrs c o.g o.at_ o.off.toInt) (sizeOf o.ty) true
  | .atomsp o => s.accessChecks c true (s.addrs c o.g o.at_ o.off.toInt) (sizeOf o.ty) true
  | .stb o | .stk o => s.accessChecks c false (s.addrs c o.g o.at_ 0) (sizeOf o.ty) true
  | .fput o => s.accessChecks c (inSpad o.scope) (s.addrs c o.g o.at_ o.off.toInt) 8 true
  | .fwait o => s.accessChecks c (inSpad o.scope) (s.addrs c o.g o.at_ o.off.toInt) 8 false
  | .strm o => s.strmChecks c o
  | _ => none

/-- The rows on which a matrix command acts, as a mask of gang lanes (R208). -/
def State.rows (s : State) (c : Cursor) (g : Guard) : Nat := maskOf (s.active c g)

/-- The extent of an image over active rows (R219): row stride `st`, `n` bytes per row, addresses modulo 2^64. -/
def imageExtent (base : Int) (st : Int) (rows : List Nat) (n : Nat) : Option (Nat × Nat) :=
  match rows.map (fun (i : Nat) => wrap64 (base + (i : Int) * st)) with
  | [] => none
  | x :: xs =>
    let hi := xs.foldl max x + n
    some (if 2 ^ 64 < hi then (0, 2 ^ 64) else (xs.foldl min x, hi))

/-- Bytes of an output row (R219). -/
def outSize (fb : Nat) : Nat := sizeOf (tyOf (fbO fb))

/-- Depth of a tile (R218). -/
def State.depth (s : State) (grp t : Nat) : Nat := smGet 0 (s.group grp).depth t

/-- The metadata regions that a multiply uses in its own scratchpad (R211, R222): `cols` is 64 or 128. -/
def metaBytes (e2m1 : Bool) (nb n : Nat) : Nat := if e2m1 then 2 * n * nb else n * nb

/-- The source ranges of an MMA or MMAC (R207, R211, R222): B, A's metadata and B's metadata. Every participant of an MMAC checks and
locks the A metadata that its own format block names (log entry 63, DEDUCED). -/
def mmaRanges (h : Shape) (fb sx : Nat) (coop : Bool) : List (Nat × Nat) :=
  let cols := if coop then 128 else 64
  let e := decide (h = .e2m1)
  [(sx, cols * h.col)]
    ++ (if fbAsc fb then [(fbAMeta fb, metaBytes e (h.k / fbALen fb) 64)] else [])
    ++ (if fbBsc fb then [(fbBMeta fb, metaBytes e (h.k / fbBLen fb) cols)] else [])

/-- The checks of MMA and MMAC (R214, R218). -/
def State.mmaChecks (s : State) (c : Cursor) (sx fb : Nat) (tiles : List Nat) (coop : Bool) : Option State :=
  if !(s.fbOk fb) then some (s.preFault c 0 5)
  else if sx % 64 ≠ 0 then some (s.preFault c sx 18)
  else
    match shapeOf fb with
    | none => none
    | some h =>
      firstOf ((mmaRanges h fb sx coop).map (fun r => s.cellIn c 1 r.1 r.2)
        ++ [stopIf (tiles.any (fun t => (s.kernelOf c.gang).maxdepth < s.depth (s.grp c) t + 1)) (s.preFault c 0 6)])

/-- The checks of an image in scratchpad (R219). -/
def State.imageChecks (s : State) (c : Cursor) (g : Guard) (sx sz n : Nat) : Option State :=
  if sx % 16 ≠ 0 || sz % 16 ≠ 0 then some (s.preFault c sx 16)
  else
    match imageExtent sx (Machine.sx 64 sz) (s.active c g) n with
    | none => none
    | some e => s.extentIn c 1 e

/-- Copy rights (R224). -/
def State.copyRights (s : State) (c : Cursor) : Bool :=
  let g := s.gang c.gang
  let h := s.kernelOf c.gang
  h.pen && !g.task && g.idx = h.producer

/-- Fields of a copy descriptor (R225). -/
def cdEsize (d : List Nat) : Nat := 2 ^ (dw d 0 % 8)
def cdDims (d : List Nat) : Nat := fld (dw d 0) 4 3
def cdSrc (d : List Nat) : Nat := fld (dw d 0) 8 2
def cdDst (d : List Nat) : Nat := fld (dw d 0) 10 2
def cdHen (d : List Nat) : Bool := bitB (dw d 0 / 2 ^ 46)
def cdHoff (d : List Nat) : Nat := fld (dw d 0) 47 17 * 16
def cdLimit (d : List Nat) : Nat := dw d 1
def cdToken (d : List Nat) : Nat := dw d 2
/-- Word `k` of a packed run of 32-bit fields from dword `i`. -/
def cdWord (d : List Nat) (i k : Nat) : Nat := fld (dw d (i + k / 2)) (32 * (k % 2)) 32
def cdCount (d : List Nat) (k : Nat) : Nat := cdWord d 3 k
def cdSstr (d : List Nat) (k : Nat) : Int := sx 32 (cdWord d 6 k)
def cdDstr (d : List Nat) (k : Nat) : Int := sx 32 (cdWord d 9 k)
/-- Number of elements (R226). -/
def cdElems (d : List Nat) : Nat := (List.range (cdDims d)).foldl (fun n k => n * cdCount d k) 1

/-- Index `k` of an element's linear index (R226). -/
def cdIndex (d : List Nat) (n k : Nat) : Nat :=
  n / (List.range k).foldl (fun p j => p * cdCount d j) 1 % cdCount d k

/-- The address of an element on a side (R226). -/
def cdAddr (d : List Nat) (base : Nat) (str : Nat → Int) (n : Nat) : Nat :=
  wrap64 ((base : Int) + ((List.range (cdDims d)).map (fun k => (cdIndex d n k : Int) * str k)).sum)

/-- The extent of one side (R226), as exact integers. -/
def cdExtent (d : List Nat) (base : Nat) (str : Nat → Int) : Int × Int :=
  let sp := (List.range (cdDims d)).map (fun k => strideSpan (cdCount d k) (str k))
  ((base : Int) + sp.foldl (fun x p => x + p.1) 0, (base : Int) + sp.foldl (fun x p => x + p.2) 0 + cdEsize d)

/-- An extent of canonical addresses (R229). -/
def extCanonical (e : Int × Int) : Bool := canonical (wrap64 e.1) && canonical (wrap64 (e.2 - 1))

/-- The pair of spaces that the opcode takes (R227, R228). -/
def pairOk (remote : Bool) (src dst : Nat) : Bool :=
  if remote then (src = 1 && dst = 2) || (src = 2 && dst = 1)
  else (src = 0 && dst = 1) || (src = 1 && dst = 0) || (src = 1 && dst = 1)

/-- The descriptor form of R229 step 4, and the scope that R228 asks of a CPYR (log entry 91, DESIGN CHOICE). -/
def cdBad (d : List Nat) (remote : Bool) (scope : Scope) (src dst : Nat) : Bool :=
  5 ≤ dw d 0 % 8 || cdDims d = 0 || 6 ≤ cdDims d
    || (List.range (cdDims d)).any (fun k => cdCount d k = 0)
    || !(pairOk remote (cdSrc d) (cdDst d))
    || (!remote && cdToken d ≠ 0) || (remote && scope ≠ .sys && scope ≠ .dev)
    || (cdHen d && cdDst d = 0)
    || src % cdEsize d ≠ 0 || dst % cdEsize d ≠ 0
    || (List.range (cdDims d)).any (fun k => cdSstr d k % (cdEsize d : Int) ≠ 0 || cdDstr d k % (cdEsize d : Int) ≠ 0)
    || (cdSrc d = 0 && !(extCanonical (cdExtent d src (cdSstr d))))
    || (cdDst d = 0 && !(extCanonical (cdExtent d dst (cdDstr d))))

/-- A scratchpad with the STSPs and ATOMSPs issued before the current cycle, those still waiting to be performed too, and no later one
(R206). -/
def State.spSeen (s : State) (grp : Nat) : Memory :=
  let x := s.group grp
  let t := s.cyc x.core
  let accs := sortKey (fun e => e.1) ((s.gangs.filter (fun e => e.2.group = grp)).flatMap (fun e => e.2.accs.filter (fun a =>
    (a.2.op = 0x03 || a.2.op = 0x0A) && a.2.cyc < t)))
  accs.foldl (fun m e => (e.2.lanes.filter (fun l => l.st.unsent)).foldl (fun m l => (e.2.bankOp 0 e.1 l).on m) m)
    (((x.bankAt t).ops.filter (fun o => o.issued < t)).foldl (fun m o => o.on m) (x.bankBefore t))

/-- The copy descriptor at an offset, as it stands before the copy's cycle (R206, R225). -/
def State.copyDesc (s : State) (c : Cursor) (a : Nat) : List Nat := dwordsOf 12 (Memory.readN (s.spSeen (s.grp c)) a 96)

/-- The checks of CPY and CPYR (R225, R229): a descriptor at no multiple of 32 is a fault of form (log entry 64, DEDUCED), and
the overlap of R227 comes after the bounds (log entry 91, DESIGN CHOICE). -/
def State.copyChecks (s : State) (c : Cursor) (o : XCpy) (remote : Bool) : Option State :=
  let a := s.readS c o.sx
  let src := s.readS c o.sy
  let dst := s.readS c o.sz
  let d := s.copyDesc c a
  let se := normExt (cdExtent d src (cdSstr d))
  let de := normExt (cdExtent d dst (cdDstr d))
  if !(s.copyRights c) then some (s.preFault c 0 7)
  else
    match s.cellIn c 1 a 96 with
    | some x => some x
    | none =>
      if a % 32 ≠ 0 || cdBad d remote o.scope src dst then some (s.preFault c a 8)
      else
        firstOf [
          if cdSrc d = 1 then s.extentIn c 1 se else none,
          if cdDst d = 1 then s.extentIn c 1 de else none,
          if cdHen d && cdDst d = 1 then s.cellIn c 1 (cdHoff d) 16 else none,
          stopIf (cdSrc d = 1 && cdDst d = 1 && se.1 < de.2 && de.1 < se.2) (s.preFault c src 19)]

/-- The copy-or-matrix slot checks of an instruction. -/
def State.xChecks (s : State) (c : Cursor) : Instr → Option State
  | .mma o => s.mmaChecks c (s.readS c o.sx) (s.readS c o.sy) [o.zt] false
  | .mmac o => s.mmaChecks c (s.readS c o.sx) (s.readS c o.sy) [o.zt, o.zu] true
  | .zld o => s.imageChecks c o.g (s.readS c o.sx) (s.readS c o.sz) 256
  | .zst o | .zretSp o =>
    let fb := s.readS c o.sy
    if !(s.fbOk fb && s.fbOutOk fb) then some (s.preFault c 0 5)
    else s.imageChecks c o.g (s.readS c o.sx) (s.readS c o.sz) (64 * outSize fb)
  | .zretG o =>
    let fb := s.readS c o.sy
    let b := s.readS c o.sx
    let z := s.readS c o.sz
    if !(s.fbOk fb && s.fbOutOk fb) then some (s.preFault c 0 5)
    else if b % 16 ≠ 0 || z % 16 ≠ 0 then some (s.preFault c b 16)
    else
      let n := 64 * outSize fb
      stopIf ((s.active c o.g).any (fun i => let a := wrap64 (b + i * sx 64 z)
        !(canonical a) || !(canonical (wrap64 ((a : Int) + n - 1))))) (s.preFault c b 1)
  | .cpy o => s.copyChecks c o false
  | .cpyr o => s.copyChecks c o true
  | .cpseal _ | .cpwait _ => stopIf (!(s.copyRights c)) (s.preFault c 0 7)
  | .hset o =>
    let a := s.readS c o.sx
    if !(s.copyRights c) then some (s.preFault c 0 7)
    else if a % 16 ≠ 0 then some (s.preFault c a 16)
    else s.cellIn c 1 a 16
  | _ => none

/-- The value of a 16-bit immediate or register. -/
def State.src16 (s : State) (c : Cursor) : Src16 → Nat
  | .imm n => n.toNat
  | .reg x => s.readS c x

/-- The value of a 3-bit immediate or register. -/
def State.src3 (s : State) (c : Cursor) : Src3 → Nat
  | .imm n => n.toNat
  | .reg x => s.readS c x

/-- An indirect transfer to an address (R123): its form and its target. -/
def State.indirect (s : State) (c : Cursor) (t : Nat) : Option State :=
  stopIf (t % 4 ≠ 0 || !(canonical t) || !(s.targetOk c.gang t)) (s.preFault c t 4)

/-- The target of a direct transfer (R120). -/
def target (pc : Nat) (off : Int) : Nat := wrap64 (pc + 4 * off)

/-- The checks of MARK's operand (R245). -/
def State.lapChecks (s : State) (c : Cursor) (g : Guard) (n : Src16) : Option State :=
  let lap := s.src16 c n
  stopIf (s.acts c g && (0xFFFF < lap || lap < (s.group (s.grp c)).lap)) (s.preFault c 0 12)

/-- The control-slot checks of an instruction on its operands (R123, R244 to R252, R255, R256). -/
def State.cChecks (s : State) (c : Cursor) : Instr → Option State
  | .jmpr a | .callr a | .ret a => s.indirect c (s.readS c a)
  | .tret g =>
    let x := s.gang c.gang
    stopIf (s.acts c g && (!(x.inHandler c.slices) || !(x.handlerDone c.slices)
      || (bitsOf 8 c.slices).any (fun k => !(s.targetOk c.gang (x.slice k).frame.pc)))) (s.preFault c 0 11)
  | .mark g n | .markWait g n => s.lapChecks c g n
  | .launch g _ _ p =>
    let a := s.readS c p
    stopIf (s.acts c g && (a % 128 ≠ 0 || !(canonical a))) (s.preFault c a 14)
  | .fork g _ f _ off =>
    let a := s.readS c f
    stopIf (s.acts c g && (a % 8 ≠ 0 || !(canonical a) || !(s.targetOk c.gang (target c.pc off.toInt))))
      (s.preFault c a (if a % 8 ≠ 0 || !(canonical a) then 14 else 4))
  | .join g _ f =>
    let a := s.readS c f
    stopIf (s.acts c g && (a % 8 ≠ 0 || !(canonical a))) (s.preFault c a 1)
  | .sync g .clu => stopIf (s.acts c g && !((s.gang c.gang).dmr.toNat.testBit 20)) (s.preFault c 0 13)
  | .sync g .dev => stopIf (s.acts c g && !((s.gang c.gang).dmr.toNat.testBit 28)) (s.preFault c 0 13)
  | .hwait g x =>
    let a := s.readS c x
    if !(s.acts c g) then none
    else if a % 16 ≠ 0 then some (s.preFault c a 16)
    else s.cellIn c 2 a 16
  | .pwracq g x => stopIf (s.acts c g && 7 < s.src3 c x) (s.preFault c 0 15)
  | .sprint g x => stopIf (s.acts c g && 0xFFFF < s.src16 c x) (s.preFault c 0 15)
  | _ => none

/-- The checks of one instruction before its bundle issues, in the order of R372: some state when it stops the bundle. -/
def State.pre (s : State) (c : Cursor) (i : Instr) : Option State :=
  firstOf [s.checkMode c i, s.memChecks c i, s.xChecks c i, s.cChecks c i]

/-- The checks of a whole bundle, class by class (R372). -/
def State.preAll (s : State) (c : Cursor) (is : List Instr) (cur : Option State) (lap : Option State) : Option State :=
  firstOf (is.map (s.checkMode c) ++ [cur] ++ is.map (s.memChecks c) ++ is.map (s.xChecks c) ++ is.map (s.cChecks c) ++ [lap])

/-- The meaning of a slot instruction: it acts for the bundle now issuing, after its checks; with none it does nothing
(log entry 1, DESIGN CHOICE). -/
def slot (s : State) (i : Instr) (act : Cursor → State → State) : Host.Outcome State Fault Refusal :=
  match s.cur with
  | none => .next s
  | some c => if c.checked then .next (act c s) else .next ((s.pre c i).getD (act c s))

end Sys2Proof.Machine
end

