-- ==== Sys2Proof/Machine/MemSlot.lean ====
section
/-! DEFINITION. The memory slot's instructions (07). -/

namespace Sys2Proof.Machine

/-- An access as its bundle issues it, its lanes queued. -/
def State.access (s : State) (c : Cursor) (op : Nat) (ty : Ty) (scope : Scope) (ord : Order) (lanes : List AccLane) : Acc :=
  let g := s.gang c.gang
  { op := op, ty := ty, scope := scope, ord := ord, atop := .add, ro := false, strm := false, take := false,
    inh := g.inHandler c.slices, slices := c.slices, pc := some c.pc,
    owner := (bitsOf 8 c.slices).filterMap (fun k => (g.slice k).cur.map (fun e => (k, e))),
    own := none, carries := [], lanes := lanes, cyc := c.cyc, hold := (s.ctx g.ctx).bound, failed := false }

/-- A lane of an access. -/
def mkLane (i addr data data2 : Nat) : AccLane :=
  { lane := i, addr := addr, data := data, data2 := data2, st := .queued, val := 0, bad := false }

/-- The LDQ entries that an access reserves on a slice (R174): one, or two for a 64-bit type, every lane 0. -/
def ldqFor (id : Nat) (a : Acc) (k : Nat) : List LdqEntry :=
  let need := maskOf ((a.lanes.filter (fun l => l.lane / 8 = k)).map (fun l => l.lane % 8))
  let e : LdqEntry :=
    { acc := id, cyc := a.cyc, second := false, vals := List.replicate 8 0, need := need, cap := false, strm := a.strm, inh := a.inh, bad := 0 }
  if is64 a.ty then [e, { e with second := true }] else [e]

/-- Enter an access: its LDQ entries are reserved if it delivers, and what can be performed is performed. One to a remote page commits
its interval (R321). -/
def State.enter (s : State) (u : Nat) (a : Acc) : State :=
  let s := if a.global || a.op = opJoin then s.noteRemote u (a.lanes.map (·.addr)) else s
  let (id, s) := s.fresh
  let s := s.modGang u (fun g =>
    let g := { g with accs := smPut g.accs id a }
    if delivers a.op then
      { g with slices := g.slices.mapIdx (fun k x => if a.slices.testBit k then { x with ldq := x.ldq ++ ldqFor id a k } else x) }
    else g)
  s.pump [u]

/-- The lanes of an access with no data. -/
def State.lanesAt (s : State) (c : Cursor) (g : Guard) (a : Addr) (off : Int) : List AccLane :=
  (s.addrs c g a off).map (fun x => mkLane x.1 x.2 0 0)

/-- The lanes of a store: the low bytes of its data (R173, R181). -/
def State.lanesData (s : State) (c : Cursor) (g : Guard) (a : Addr) (off : Int) (t : Ty) (d : Opd) : List AccLane :=
  (s.addrs c g a off).map (fun x => mkLane x.1 x.2 (s.operand c d x.1 t % 2 ^ widthOf t) 0)

/-- The data pair of `.cas` (R184): compare and new. -/
def State.casData (s : State) (c : Cursor) (t : Ty) (d : Opd) (i : Nat) : Nat × Nat :=
  match d with
  | .v n =>
    let r := fun k => s.readV c i (n + k)
    if is64 t then (r 0 + 2 ^ 32 * r 1, r 2 + 2 ^ 32 * r 3) else (r 0, r 1)
  | .s n =>
    let x := s.readSAt c i n
    (x % 2 ^ 32, x / 2 ^ 32)
  | _ => (0, 0)

/-- The lanes of an atomic (R183, R184). -/
def State.lanesAtom (s : State) (c : Cursor) (o : MAtom) : List AccLane :=
  (s.addrs c o.g o.at_ o.off.toInt).map (fun x =>
    if o.op = .cas then
      let d := s.casData c o.ty o.data x.1
      mkLane x.1 x.2 d.1 d.2
    else mkLane x.1 x.2 (s.operand c o.data x.1 o.ty % 2 ^ widthOf o.ty) 0)

/-- LD (R181). -/
def execLd (o : MLoad) (s : State) : Host.Outcome State Fault Refusal :=
  slot s (.ld o) (fun c s =>
    s.enter c.gang { s.access c 0x00 o.ty o.scope o.ord (s.lanesAt c o.g o.at_ o.off.toInt) with ro := o.ro })

/-- ST (R181). -/
def execSt (o : MStore) (s : State) : Host.Outcome State Fault Refusal :=
  slot s (.st o) (fun c s =>
    s.enter c.gang (s.access c 0x01 o.ty o.scope o.ord (s.lanesData c o.g o.at_ o.off.toInt o.ty o.data)))

/-- LDSP (R181). -/
def execLdsp (o : MLoad) (s : State) : Host.Outcome State Fault Refusal :=
  slot s (.ldsp o) (fun c s =>
    s.enter c.gang (s.access c 0x02 o.ty o.scope o.ord (s.lanesAt c o.g o.at_ o.off.toInt)))

/-- STSP (R181). -/
def execStsp (o : MStore) (s : State) : Host.Outcome State Fault Refusal :=
  slot s (.stsp o) (fun c s =>
    s.enter c.gang (s.access c 0x03 o.ty o.scope o.ord (s.lanesData c o.g o.at_ o.off.toInt o.ty o.data)))

/-- PREF (R181, R182): its only effect is on timing, which the model leaves out (log entry 29, DESIGN CHOICE). -/
def execPref (o : MPref) (s : State) : Host.Outcome State Fault Refusal := slot s (.pref o) (fun _ s => s)

/-- ATOM (R183). -/
def execAtom (o : MAtom) (s : State) : Host.Outcome State Fault Refusal :=
  slot s (.atom o) (fun c s =>
    s.enter c.gang { s.access c 0x08 o.ty o.scope o.ord (s.lanesAtom c o) with atop := o.op })

/-- ATOMQ (R183). -/
def execAtomq (o : MAtom) (s : State) : Host.Outcome State Fault Refusal :=
  slot s (.atomq o) (fun c s =>
    s.enter c.gang { s.access c 0x09 o.ty o.scope o.ord (s.lanesAtom c o) with atop := o.op })

/-- ATOMSP (R183). -/
def execAtomsp (o : MAtom) (s : State) : Host.Outcome State Fault Refusal :=
  slot s (.atomsp o) (fun c s =>
    s.enter c.gang { s.access c 0x0A o.ty o.scope o.ord (s.lanesAtom c o) with atop := o.op })

/-- FENCE (R186, R187): the part is held until FENCE_COMPLETE. -/
def execFence (o : MFence) (s : State) : Host.Outcome State Fault Refusal :=
  slot s (.fence o) (fun c s =>
    let (id, s) := s.fresh
    s.hold c.gang (lowSlice c.slices) (.fence o.scope o.ord o.sd id))

/-- The batons that handle fields name: those whose K register holds a handle (R191, R193). -/
def State.handles (s : State) (c : Cursor) (ks : List KRef) : List Nat :=
  (ks.filter (fun k => k.valid)).filterMap (fun k =>
    let x := s.readK c k.k
    if x.testBit 63 then some (x % 2 ^ 32) else none)

/-- The next baton number: from 1, wrapping past 0xFFFF_FFFF to 1 (R363). -/
def nextBaton (q : Nat) : Nat := if 0xFFFFFFFF ≤ q then 1 else q + 1

/-- STB (R192): its stores form a baton, whose handle lands in K[d] after 4 cycles. -/
def execStb (o : MBaton) (s : State) : Host.Outcome State Fault Refusal :=
  slot s (.stb o) (fun c s =>
    let q := s.link.batonNext
    let lanes := s.lanesData c o.g o.at_ 0 o.ty o.data
    let cs := s.handles c [o.ka, o.kb]
    let b : Baton :=
      { st := if lanes.isEmpty then .released else .pending, gang := c.gang, stores := lanes.length, carries := cs, peers := [], dests := [], told := [] }
    let s := s.send 4 [Write.k o.kd.k (2 ^ 63 + q)]
    let s := s.modLink (fun l => { l with batons := smPut l.batons q b, batonNext := nextBaton q })
    s.enter c.gang { s.access c 0x18 o.ty o.scope o.ord lanes with own := some q, carries := cs })

/-- STK (R193). -/
def execStk (o : MBaton) (s : State) : Host.Outcome State Fault Refusal :=
  slot s (.stk o) (fun c s =>
    s.enter c.gang { s.access c 0x19 o.ty o.scope o.ord (s.lanesData c o.g o.at_ 0 o.ty o.data) with
      carries := s.handles c [o.ka, o.kb] })

/-- BWAIT (R195): the part is held until FENCE_COMPLETE finds its batons released or failed. -/
def execBwait (o : MBwait) (s : State) : Host.Outcome State Fault Refusal :=
  slot s (.bwait o) (fun c s => s.hold c.gang (lowSlice c.slices) (.bwait (s.handles c [o.ka, o.kb])))

/-- The lowest free entry of a core's range-lock table. -/
def Core.freeLock (k : Core) : Nat := ((List.range 32).find? (fun e => (smFind k.locks e).isNone)).getD 0

/-- A stream's range-lock entry goes when no slice of the core streams under it and no STRMX waits for its reads (R198, R199). -/
def State.dropStrmLock (s : State) (core lock : Nat) : State :=
  if s.gangs.any (fun e => e.2.live && e.2.core = core && (e.2.slices.any (fun x => match x.strm with
    | some t => t.lock = lock
    | none => false) || e.2.parts.any (fun p => p.holds.any (fun h => match h with
      | .strmx _ locks => locks.contains lock
      | _ => false)))) then s
  else s.modCore core (fun k => { k with locks := smDel k.locks lock })

/-- Access `id` is an element of the stream that stands on the slice. -/
def Slice.streams (x : Slice) (id : Nat) : Bool :=
  match x.strm with
  | none => false
  | some t => t.first ≤ id

/-- Range-lock entries of the streams that stand on a mask of slices. -/
def Gang.strmLocks (g : Gang) (m : Nat) : List Nat := ((bitsOf 8 m).filterMap (fun k => (g.slice k).strm.map (fun t => t.lock))).eraseDups

/-- The elements of the streams that stand on a mask of slices. -/
def Gang.strmAccs (g : Gang) (m : Nat) : List Nat :=
  (g.accs.filter (fun e => e.2.strm && (bitsOf 8 m).any (fun k => e.2.slices.testBit k && (g.slice k).streams e.1))).map (·.1)

/-- End the streams of a mask of slices (R199): their entries leave the queues, except lanes that a peer still has to answer. -/
def Gang.cutStreams (g : Gang) (m : Nat) : Gang :=
  let mine := g.strmAccs m
  let g : Gang := { g with accs := (g.accs.map (fun e =>
    if mine.contains e.1 then (e.1, { e.2 with lanes := e.2.lanes.filter (fun l => match l.st with
      | .sent _ => true
      | _ => false) }) else e)).filter (fun e => !(mine.contains e.1 && e.2.lanes.isEmpty)) }
  g.modSlices m (fun x => { x with strm := none, ldq := x.ldq.filter (fun e => !(e.strm && x.streams e.acc)) })

/-- The streams of slices without live lanes end, and free their range-lock entries. -/
def State.endStreams (s : State) (u m : Nat) : State :=
  let g := s.gang u
  (g.strmLocks m).foldl (fun s l => s.dropStrmLock g.core l) (s.modGang u (fun g => g.cutStreams m))

/-- STRMX's effect (R199): the streams of the part end; it is held until their reads in flight have returned or been dropped. -/
def State.strmx (s : State) (c : Cursor) : State :=
  let g := s.gang c.gang
  let accs := g.strmAccs c.slices
  let locks := g.strmLocks c.slices
  let s := s.modGang c.gang (fun g => g.cutStreams c.slices)
  s.hold c.gang (lowSlice c.slices) (.strmx (accs.filter (fun id => ((smFind (s.gang c.gang).accs id).isSome))) locks)

/-- STRM (R196 to R198): one stream on each slice of the part, whose extent over all lanes of the part is one source range with one
range-lock entry (log entry 60, DEDUCED). A stream that has not ended is first ended as STRMX does. -/
def execStrm (o : MStrm) (s : State) : Host.Outcome State Fault Refusal :=
  slot s (.strm o) (fun c s =>
    let d := s.strmDesc c (wrap64 (s.readS c o.base + o.off.toInt))
    let lanes := s.partLanes c
    let s := if ((s.gang c.gang).strmLocks c.slices).isEmpty then s else s.strmx c
    let g := s.gang c.gang
    let ext := normExt (sdExtent d o.ty lanes)
    let sp := sdSpace d = 2
    let e := (s.core g.core).freeLock
    let lk : Lock := ⟨ext.1, ext.2, false, !sp, if sp then g.group else g.ctx, c.gang⟩
    let s := s.modCore g.core (fun k => { k with locks := smPut k.locks e lk })
    let total := (List.range (sdDepth d)).foldl (fun n k => n * sdCount d k) 1
    let (first, s) := s.fresh
    s.modGang c.gang (fun g => { g with slices := g.slices.mapIdx (fun k x =>
      if c.slices.testBit k then
        { x with strm := some ⟨d, o.ty, 0, total, maskOf ((lanes.filter (fun i => i / 8 = k)).map (· % 8)), e, first⟩ }
      else x) }))

/-- STRMX (R199). -/
def execStrmx (s : State) : Host.Outcome State Fault Refusal := slot s .strmx (fun c s => s.strmx c)

/-- FPUT (R201): in ascending lane order, the value zero-extended. -/
def execFput (o : MFput) (s : State) : Host.Outcome State Fault Refusal :=
  slot s (.fput o) (fun c s =>
    s.enter c.gang (s.access c 0x28 o.ty o.scope .rel
      ((s.addrs c o.g o.at_ o.off.toInt).map (fun x => mkLane x.1 x.2 (s.operand c o.data x.1 o.ty) 0))))

/-- FWAIT (R202): the part parks until the future of every active lane has answered; with none it goes on. -/
def execFwait (o : MFwait) (s : State) : Host.Outcome State Fault Refusal :=
  slot s (.fwait o) (fun c s =>
    let lanes := s.lanesAt c o.g o.at_ o.off.toInt
    if lanes.isEmpty then
      s.enter c.gang (s.access c 0x29 o.ty o.scope .acq [])
    else
      let a := { s.access c 0x29 o.ty o.scope (if o.take then .ar else .acq) lanes with take := o.take }
      (s.blockPart c (.future ((lanes.head?.map (·.addr)).getD 0) (some s.nextId) 0)).enter c.gang a)

/-- The key of a broadcast word (R203). -/
def bcKey (cluster w : Nat) : Nat := cluster * 16 + w

/-- What a broadcast word holds before anything is written (R203). -/
def bcInit : Nat := 0x7FFFFFFFFFFFFFFF

/-- A broadcast word. -/
def Ctx.word (x : Ctx) (k : Nat) : Nat := smGet bcInit x.bcast k

/-- BCMIN (R203): the signed minimum over the active lanes; with none it does nothing. -/
def execBcmin (o : MBcmin) (s : State) : Host.Outcome State Fault Refusal :=
  slot s (.bcmin o) (fun c s =>
    match (s.active c o.g).map (fun i => sx 64 (s.operand c o.data i .i64)) with
    | [] => s
    | x :: xs =>
      let g := s.gang c.gang
      let k := bcKey (clusterOf g.core) o.w
      s.modCtx g.ctx (fun t =>
        let old := t.word k
        let new := wrap 64 (min (sx 64 old) (xs.foldl min x))
        { t with bcast := smSet bcInit t.bcast k new
                 bcOld := (k, c.cyc, old) :: t.bcOld.filter (fun e => e.1 / 16 ≠ clusterOf g.core || c.cyc < e.2.1 + 16) }))

/-- The value a BCRD sees (R204): the word, or, for each BCMIN of the last 16 cycles from the latest back, the value
before it, as the free choice goes. -/
def bcSees (serial : Nat) : List (Nat × Nat × Nat) → Nat → Nat
  | [], v => v
  | e :: es, v => if Config.bcastSeesOld serial then bcSees (serial + 1) es e.2.2 else v

/-- BCRD (R203, R204). -/
def execBcrd (o : MBcrd) (s : State) : Host.Outcome State Fault Refusal :=
  slot s (.bcrd o) (fun c s =>
    let g := s.gang c.gang
    let k := bcKey (clusterOf g.core) o.w
    let t := s.ctx g.ctx
    let es := t.bcOld.filter (fun e => e.1 = k && c.cyc < e.2.1 + 16)
    let v := bcSees s.serial es (t.word k)
    let lanes : List AccLane := (s.active c o.g).map (fun i => { mkLane i 0 0 0 with st := .arriving, val := v })
    let s : State := { s with serial := s.serial + es.length + 1 }
    s.enter c.gang (s.access c 0x31 o.ty .none .plain lanes))

end Sys2Proof.Machine
end

