-- ==== Sys2Proof/Machine/Transc.lean ====
section
/-! DEFINITION. The transcendentals of R154, correctly rounded. An irrational result is enclosed between two
dyadic values; the precision is raised until both round alike. Rational results are exact or carry a sticky bit. -/

namespace Sys2Proof.Machine

/-- A nonnegative enclosure: lo/2^P ≤ value ≤ hi/2^P. -/
structure Encl where
  lo : Nat
  hi : Nat
  deriving DecidableEq, Repr

def enAdd (a b : Encl) : Encl := ⟨a.lo + b.lo, a.hi + b.hi⟩
/-- a − b, for a ≥ b. -/
def enSub (a b : Encl) : Encl := ⟨a.lo - b.hi, a.hi - b.lo⟩
def enMul (P : Nat) (a b : Encl) : Encl := ⟨a.lo * b.lo / 2 ^ P, a.hi * b.hi / 2 ^ P + 1⟩
def enDiv (P : Nat) (a b : Encl) : Encl := ⟨a.lo * 2 ^ P / b.hi, a.hi * 2 ^ P / b.lo + 1⟩
def enScale (n : Nat) (a : Encl) : Encl := ⟨n * a.lo, n * a.hi⟩
def enQuot (n : Nat) (a : Encl) : Encl := ⟨a.lo / n, a.hi / n + 1⟩

/-- Σ z^(2k+1)/(2k+1) for k from 0, `n` terms; `pow` is z^(2k+1), `z2` is z². All terms positive. -/
def atanhTerms (P : Nat) (z2 : Encl) : Nat → Nat → Encl → Encl
  | 0, _, _ => ⟨0, 0⟩
  | n + 1, k, pow => enAdd (enQuot (2 * k + 1) pow) (atanhTerms P z2 n (k + 1) (enMul P pow z2))

/-- atanh z for 0 ≤ z ≤ 1/3, z = a/b; the tail after P terms is below one unit. -/
def enAtanh (P a b : Nat) : Encl :=
  let z : Encl := ⟨a * 2 ^ P / b, a * 2 ^ P / b + 1⟩
  let t := atanhTerms P (enMul P z z) (P / 3 + 8) 0 z
  ⟨t.lo, t.hi + 2⟩

/-- ln 2 = 2 atanh(1/3). -/
def enLn2 (P : Nat) : Encl := enScale 2 (enAtanh P 1 3)

/-- Alternating Σ (−1)^k z^(2k+1)/(2k+1): positive and negative parts. -/
def atanTerms (P : Nat) (z2 : Encl) : Nat → Nat → Encl → Encl × Encl
  | 0, _, _ => (⟨0, 0⟩, ⟨0, 0⟩)
  | n + 1, k, pow =>
    let t := enQuot (2 * k + 1) pow
    let r := atanTerms P z2 n (k + 1) (enMul P pow z2)
    if k % 2 = 0 then (enAdd t r.1, r.2) else (r.1, enAdd t r.2)

/-- atan(1/b) for b ≥ 5. -/
def enAtanInv (P b : Nat) : Encl :=
  let z : Encl := ⟨2 ^ P / b, 2 ^ P / b + 1⟩
  let t := atanTerms P (enMul P z z) (P / 4 + 8) 0 z
  let d := enSub t.1 t.2
  ⟨d.lo - 2, d.hi + 2⟩

/-- π by Machin's formula. -/
def enPi (P : Nat) : Encl := enSub (enScale 16 (enAtanInv P 5)) (enScale 4 (enAtanInv P 239))

/-- Σ x^k/k! from term k on, `n` terms. -/
def expTerms (P : Nat) (x : Encl) : Nat → Nat → Encl → Encl
  | 0, _, _ => ⟨0, 0⟩
  | n + 1, k, t => enAdd t (expTerms P x n (k + 1) (enQuot (k + 1) (enMul P t x)))

/-- Square `k` times. -/
def enSquares (P : Nat) : Nat → Encl → Encl
  | 0, x => x
  | k + 1, x => enSquares P k (enMul P x x)

/-- e^x for 0 ≤ x < 256: Taylor at x/2^8, squared back. -/
def enExp (P : Nat) (x : Encl) : Encl :=
  let y : Encl := ⟨x.lo / 256, x.hi / 256 + 1⟩
  let t := expTerms P y (P / 4 + 16) 0 ⟨2 ^ P, 2 ^ P⟩
  enSquares P 8 ⟨t.lo, t.hi + 4⟩

/-- sin y for 0 ≤ y ≤ π/2: alternating Taylor terms, positive and negative parts. -/
def sinTerms (P : Nat) (y2 : Encl) : Nat → Nat → Encl → Encl × Encl
  | 0, _, _ => (⟨0, 0⟩, ⟨0, 0⟩)
  | n + 1, k, t =>
    let r := sinTerms P y2 n (k + 1) (enQuot ((2 * k + 2) * (2 * k + 3)) (enMul P t y2))
    if k % 2 = 0 then (enAdd t r.1, r.2) else (r.1, enAdd t r.2)

def enSin (P : Nat) (y : Encl) : Encl :=
  let t := sinTerms P (enMul P y y) (P / 4 + 16) 0 y
  let d := enSub t.1 t.2
  ⟨d.lo - 2, d.hi + 2⟩

/-- ⌊√n⌋, bit by bit from bit `k − 1`. -/
def isqrtGo (n : Nat) : Nat → Nat → Nat
  | 0, r => r
  | k + 1, r => if (r + 2 ^ k) * (r + 2 ^ k) ≤ n then isqrtGo n k (r + 2 ^ k) else isqrtGo n k r

def isqrt (n : Nat) : Nat := isqrtGo n (n.log2 / 2 + 1) 0

/-- A truncated positive value with a sticky bit below it. -/
def sticky (neg : Bool) (n : Nat) (inexact : Bool) (e : Int) : Ex := .fin neg (2 * n + (if inexact then 1 else 0)) (e - 1)

/-- 1/x for a finite non-zero x. -/
def recip (neg : Bool) (m : Nat) (e : Int) : Ex :=
  let k := m.log2 + 100
  sticky neg (2 ^ k / m) (decide (2 ^ k % m ≠ 0)) (-(k : Int) - e)

/-- √x for a finite positive x. -/
def sqrtEx (m : Nat) (e : Int) : Ex :=
  let odd := (e % 2).toNat
  let n := m * 2 ^ odd * 2 ^ 200
  let r := isqrt n
  sticky false r (decide (r * r ≠ n)) ((e - (odd : Int)) / 2 - 100)

/-- 1/√x for a finite positive x. -/
def rsqrtEx (m : Nat) (e : Int) : Ex :=
  let odd := (e % 2).toNat
  let k := 2 * (m.log2 + 110)
  let r := isqrt (2 ^ k / (m * 2 ^ odd))
  sticky false r (decide (r * r * (m * 2 ^ odd) ≠ 2 ^ k)) (-((k : Int) / 2) - (e - (odd : Int)) / 2)

/-- The encoding on which both ends of an enclosure of an irrational value agree, if they do. -/
def agree (rd : Ex → Nat) (neg : Bool) (P : Nat) (x : Encl) (e : Int) : Option Nat :=
  let a := rd (.fin neg (2 * x.lo + 1) (e - (P : Int) - 1))
  let b := rd (.fin neg (2 * x.hi - 1) (e - (P : Int) - 1))
  if a = b then some a else none

/-- Try rising precisions; a value just above the lower end at 4,096 bits is rounded if none agrees
(log entry 32, DEDUCED). -/
def ziv (rd : Ex → Nat) (neg : Bool) (f : Nat → Encl × Int) : List Nat → Nat
  | [] => let p := f 4096; rd (.fin neg (2 * p.1.lo + 1) (p.2 - 4097))
  | P :: Ps =>
    let p := f P
    match agree rd neg P p.1 p.2 with
    | some r => r
    | none => ziv rd neg f Ps

/-- The precisions tried. -/
def precisions : List Nat := [192, 384, 768, 1536]

/-- ⌊m × 2^e⌋ and the fraction as numerator over 2^b. -/
def splitPos (m : Nat) (e : Int) : Nat × Nat × Nat :=
  if 0 ≤ e then (m * 2 ^ e.toNat, 0, 0)
  else let b := (-e).toNat; (m / 2 ^ b, m % 2 ^ b, b)

/-- Fraction a/2^b as an enclosure at precision P. -/
def fracEncl (P a b : Nat) : Encl := ⟨a * 2 ^ P / 2 ^ b, a * 2 ^ P / 2 ^ b + (if a * 2 ^ P % 2 ^ b = 0 then 0 else 1)⟩

/-- 2^x of a finite x. -/
def exp2F (rd : Ex → Nat) (neg : Bool) (m : Nat) (e : Int) : Nat :=
  if m = 0 then rd (.fin false 1 0)
  else if 12 ≤ exLog2 m e then rd (.fin false 3 (if neg then -5000 else 5000))
  else
    let (i, a, b) := splitPos m e
    if a = 0 then rd (.fin false 1 (if neg then -(i : Int) else (i : Int)))
    else
      let ip : Int := if neg then -(i : Int) - 1 else (i : Int)
      let fa := if neg then 2 ^ b - a else a
      ziv rd false (fun P => (enExp P (enMul P (fracEncl P fa b) (enLn2 P)), ip)) precisions

/-- log2 of a finite positive x. -/
def log2F (rd : Ex → Nat) (m : Nat) (e : Int) : Nat :=
  let l := m.log2
  let k0 : Int := (l : Int) + e
  if m = 2 ^ l then rd (exOfInt k0)
  else
    -- t = m/2^l in (1,2); from 3/2 on use t/2 and k + 1, so that near 1 the logarithm is small
    let up := decide (3 * 2 ^ l ≤ 2 * m)
    let k : Int := if up then k0 + 1 else k0
    let den := if up then 2 ^ (l + 1) else 2 ^ l
    -- |ln t| = 2 atanh(|m − den| / (m + den)), negative when `up`
    let num := if up then den - m else m - den
    let f := fun (P : Nat) => enDiv P (enScale 2 (enAtanh P num (m + den))) (enLn2 P)
    if k = 0 then ziv rd up (fun P => (f P, 0)) precisions
    else
      -- |k + log2 t|: k and the fraction have opposite signs exactly when (k < 0) differs from `up`
      let ka : Nat := k.natAbs
      let neg := decide (k < 0)
      ziv rd neg (fun P =>
        let fr := f P
        let kk : Encl := ⟨ka * 2 ^ P, ka * 2 ^ P⟩
        (if neg = up then enAdd kk fr else enSub kk fr, 0)) precisions

/-- sin(π a/2^b) for 0 < a/2^b < 1/2, rounded with sign `neg`; `L` leading zeros widen the precision. -/
def sinPiF (rd : Ex → Nat) (neg : Bool) (a b : Nat) : Nat :=
  let L := b - a.log2
  ziv rd neg (fun P0 =>
    let P := P0 + 2 * L
    let s := enSin P (enMul P (fracEncl P a b) (enPi P))
    -- drop to the stated precision P0 by scaling: value = s/2^P
    (⟨s.lo, s.hi⟩, (P0 : Int) - (P : Int))) precisions

/-- sin(π x) of the residue r = a/2^b in [0, 2), with the sign of a zero result given. -/
def sinPiRes (rd : Ex → Nat) (flip zneg : Bool) (a b : Nat) : Nat :=
  let one := 2 ^ b
  let neg0 := decide (one ≤ a)
  let a1 := if neg0 then a - one else a
  let neg := flip != neg0
  let a2 := if one < 2 * a1 then one - a1 else a1
  if a1 = 0 then rd (.fin zneg 0 0)
  else if 2 * a2 = one then rd (.fin neg 1 0)
  else sinPiF rd neg a2 b

/-- sin(π x) of a finite x. -/
def sinF (rd : Ex → Nat) (neg : Bool) (m : Nat) (e : Int) : Nat :=
  if m = 0 then rd (.fin neg 0 0)
  else
    let (i, a, b) := splitPos m e
    sinPiRes rd neg neg ((i % 2) * 2 ^ b + a) b

/-- cos(π x) = sin(π (x + 1/2)) of a finite x; zeros are +0. -/
def cosF (rd : Ex → Nat) (m : Nat) (e : Int) : Nat :=
  let (i, a, b) := splitPos m e
  sinPiRes rd false false (((i % 2) * 2 ^ (b + 1) + 2 * a + 2 ^ b) % 2 ^ (b + 2)) (b + 1)

/-- tanh of a finite non-zero x: 1 − 2/(e^2|x| + 1), or the quotient form widened for small |x|. -/
def tanhF (rd : Ex → Nat) (neg : Bool) (m : Nat) (e : Int) : Nat :=
  if 6 ≤ exLog2 m e then rd (.fin neg (2 ^ 150 - 1) (-150))
  else
    let L := (-(exLog2 m e)).toNat
    ziv rd neg (fun P0 =>
      let P := P0 + 2 * L
      let x2 : Encl := let (i, a, b) := splitPos m (e + 1); enAdd ⟨i * 2 ^ P, i * 2 ^ P⟩ (fracEncl P a b)
      let y := enExp P x2
      let one : Encl := ⟨2 ^ P, 2 ^ P⟩
      let q := enDiv P (enSub y one) (enAdd y one)
      (q, (P0 : Int) - (P : Int))) precisions

/-- The operations of R154. -/
inductive TOp where
  | rcp | rsq | sqrt | exp2 | log2 | sin | cos | tanh
  deriving DecidableEq, Repr

/-- f(x) of R154 with its special cases, handed to the rounding function `rd`. -/
def transc (op : TOp) (rd : Ex → Nat) (x : Ex) : Nat :=
  match op, x with
  | _, .nan => rd .nan
  | .rcp, .inf n => rd (.fin n 0 0)
  | .rcp, .fin n m e => if m = 0 then rd (.inf n) else rd (recip n m e)
  | .rsq, .inf n => if n then rd .nan else rd (.fin false 0 0)
  | .rsq, .fin n m e => if m = 0 then rd (.inf n) else if n then rd .nan else rd (rsqrtEx m e)
  | .sqrt, .inf n => if n then rd .nan else rd (.inf false)
  | .sqrt, .fin n m e => if m = 0 then rd (.fin n 0 0) else if n then rd .nan else rd (sqrtEx m e)
  | .exp2, .inf n => if n then rd (.fin false 0 0) else rd (.inf false)
  | .exp2, .fin n m e => exp2F rd n m e
  | .log2, .inf n => if n then rd .nan else rd (.inf false)
  | .log2, .fin n m e => if m = 0 then rd (.inf true) else if n then rd .nan else log2F rd m e
  | .sin, .inf _ => rd .nan
  | .sin, .fin n m e => sinF rd n m e
  | .cos, .inf _ => rd .nan
  | .cos, .fin _ m e => if m = 0 then rd (.fin false 1 0) else cosF rd m e
  | .tanh, .inf n => rd (.fin n 1 0)
  | .tanh, .fin n m e => if m = 0 then rd (.fin n 0 0) else tanhF rd n m e

end Sys2Proof.Machine
end

