-- ==== Sys2Proof/Machine/Vector.lean ====
section
/-! DEFINITION. The vector slot's instructions (06). -/

namespace Sys2Proof.Machine

/-- Cycles to landing of VCMP, VMOV, VSEL, of the integer class and of the float class, by type (R96). -/
def latOf (t : Ty) : Nat :=
  match t with
  | .f64 => 10
  | .f32 | .f16 | .bf16 => 6
  | _ => 4

/-- One V result in each active lane, landing after `lat` cycles and shifting the lane's latches (R92, R142). -/
def State.vOut (s : State) (c : Cursor) (g : Guard) (t : Ty) (d : Fin 256) (lat : Nat) (f : Nat → Nat) : State :=
  s.send lat ((s.active c g).map (fun i => vWrite t i d (f i) true))

/-- One predicate in each active lane (R142). -/
def State.pOut (s : State) (c : Cursor) (g : Guard) (d : Fin 32) (lat : Nat) (f : Nat → Bool) : State :=
  s.send lat ((s.active c g).map (fun i => Write.p i d (f i)))

/-- The kernel header's FTZ bit (R73). -/
def State.ftz (s : State) (c : Cursor) : Bool := (s.kernelOf c.gang).ftz

/-- The range of an integer type. -/
def intMin (t : Ty) : Int := if isSigned t then -(2 ^ (widthOf t - 1) : Nat) else 0
def intMax (t : Ty) : Int := if isSigned t then (2 ^ (widthOf t - 1) : Nat) - 1 else (2 ^ widthOf t : Nat) - 1

/-- An exact integer reduced to a type: wrapped, or clamped under `.sat` (R57), and extended (R56). -/
def fitInt (t : Ty) (sat : Bool) (x : Int) : Nat :=
  let y := if sat then max (intMin t) (min (intMax t) x) else x
  extendTo t (wrap (widthOf t) y)

/-- An integer operation on exact values (R148). -/
def State.int1 (s : State) (o : V1) (c : Cursor) (f : Int → Int) : State :=
  s.vOut c o.g o.ty o.d 4 (fun i => fitInt o.ty o.sat (f (intVal o.ty (widthOf o.ty) (s.operand c o.a i o.ty))))

/-- A two-source integer operation on exact values (R148). -/
def State.int2 (s : State) (o : V2) (c : Cursor) (f : Int → Int → Int) : State :=
  let v := fun (x : Opd) i => intVal o.ty (widthOf o.ty) (s.operand c x i o.ty)
  s.vOut c o.g o.ty o.d 4 (fun i => fitInt o.ty o.sat (f (v o.a i) (v o.b i)))

/-- The low `w` bits of a source (R148 step 1). -/
def State.low (s : State) (c : Cursor) (t : Ty) (x : Opd) (i : Nat) : Nat := s.operand c x i t % 2 ^ widthOf t

/-- An operation on the bits of one source (R148). -/
def State.bits1 (s : State) (o : V1) (c : Cursor) (f : Nat → Nat → Nat) : State :=
  s.vOut c o.g o.ty o.d 4 (fun i => extendTo o.ty (f (widthOf o.ty) (s.low c o.ty o.a i)))

/-- An operation on the bits of two sources (R148). -/
def State.bits2 (s : State) (o : V2) (c : Cursor) (f : Nat → Nat → Nat → Nat) : State :=
  s.vOut c o.g o.ty o.d 4 (fun i => extendTo o.ty (f (widthOf o.ty) (s.low c o.ty o.a i) (s.low c o.ty o.b i)))

/-- Shift counts (R149): b[6:0]. -/
def shiftLeft (w a b : Nat) : Nat := if w ≤ b % 128 then 0 else a * 2 ^ (b % 128) % 2 ^ w
/-- VSHR (R149), arithmetic for signed types. -/
def shiftRight (t : Ty) (w a b : Nat) : Nat :=
  let n := b % 128
  if isSigned t then wrap w (sx w a / (2 ^ (min n w) : Nat)) else if w ≤ n then 0 else a / 2 ^ n
/-- VROT (R149). -/
def rotLeft (w a b : Nat) : Nat :=
  let n := b % 128 % w
  (a * 2 ^ n % 2 ^ w) ||| (a / 2 ^ (w - n))

/-- Fields of a bit-field control word (R150): position and length. -/
def ctlPos (ctl : Nat) : Nat := ctl % 128
def ctlLen (w ctl : Nat) : Nat := min (fld ctl 8 7) w
/-- VBFX (R150). -/
def bitExtract (t : Ty) (w a ctl : Nat) : Nat :=
  let len := ctlLen w ctl
  let f := a / 2 ^ ctlPos ctl % 2 ^ len
  if isSigned t && 0 < len then wrap w (sx len f) else f
/-- VBFI (R150). -/
def bitInsert (w a b ctl : Nat) : Nat :=
  let m := (2 ^ ctlLen w ctl - 1) * 2 ^ ctlPos ctl % 2 ^ w
  maskDiff a m ||| ((b * 2 ^ ctlPos ctl % 2 ^ w) &&& m)

/-- Elements of a packed float operation (R143): the value of one element of a source, after the source flush. -/
def packElems (t : Ty) (f : Nat → Nat) : Nat :=
  match t with
  | .f16 | .bf16 => f 0 % 2 ^ 16 + 2 ^ 16 * (f 1 % 2 ^ 16)
  | _ => f 0

/-- Element `j` of a float source, flushed under FTZ (R146). -/
def State.felem (s : State) (c : Cursor) (t : Ty) (x : Opd) (i j : Nat) : Nat :=
  let v := s.operand c x i t
  flush (s.ftz c) t (match t with
    | .f16 | .bf16 => fld v (16 * j) 16
    | _ => v)

/-- A rounded float result under FTZ (R69, R70, R73). -/
def State.froundTo (s : State) (c : Cursor) (t : Ty) (rm : Rm) (sat : Bool) (r : Nat) (x : Ex) : Nat :=
  flush (s.ftz c) t (roundEx x (fmtOf t) rm sat r)

/-- A float operation of one, two or three sources rounded once (R152). -/
def State.flt1 (s : State) (o : V1) (c : Cursor) (lat : Nat) (f : Nat → Nat) : State :=
  s.vOut c o.g o.ty o.d lat (fun i => packElems o.ty (fun j => f (s.felem c o.ty o.a i j)))

def State.flt2 (s : State) (o : V2) (c : Cursor) (f : Nat → Nat → Nat) : State :=
  s.vOut c o.g o.ty o.d (latOf o.ty) (fun i => packElems o.ty (fun j =>
    f (s.felem c o.ty o.a i j) (s.felem c o.ty o.b i j)))

/-- A rounded arithmetic operation of two sources (R151, R152). -/
def State.arith2 (s : State) (o : V2) (c : Cursor) (f : Ex → Ex → Ex) : State :=
  s.flt2 o c (fun x y => s.froundTo c o.ty o.rm o.sat 0 (f (exOf o.ty x) (exOf o.ty y)))

/-- A float value as it is written: NaNs canonical, flushed under FTZ (R146). -/
def State.canon (s : State) (c : Cursor) (t : Ty) (x : Nat) : Nat :=
  if exIsNan (exOf t x) then nanOf t else flush (s.ftz c) t x

/-- A transcendental (R154). -/
def State.trans (s : State) (o : V1) (c : Cursor) (op : TOp) : State :=
  s.flt1 o c 16 (fun x => transc op (s.froundTo c o.ty o.rm o.sat 0) (exOf o.ty x))

/-- VADD (R148). -/
def execVadd (o : V2) (s : State) : Host.Outcome State Fault Refusal :=
  slot s (.vadd o) (fun c s => s.int2 o c (fun a b => a + b))

/-- VSUB (R148). -/
def execVsub (o : V2) (s : State) : Host.Outcome State Fault Refusal :=
  slot s (.vsub o) (fun c s => s.int2 o c (fun a b => a - b))

/-- VMUL (R148). -/
def execVmul (o : V2) (s : State) : Host.Outcome State Fault Refusal :=
  slot s (.vmul o) (fun c s => s.int2 o c (fun a b => a * b))

/-- VMULH (R148): the high half of the double-width product. -/
def execVmulh (o : V2) (s : State) : Host.Outcome State Fault Refusal :=
  slot s (.vmulh o) (fun c s => s.int2 o c (fun a b => a * b / (2 ^ widthOf o.ty : Nat)))

/-- VMAD (R148), reduced once. -/
def execVmad (o : V3) (s : State) : Host.Outcome State Fault Refusal :=
  slot s (.vmad o) (fun c s =>
    let v := fun (x : Opd) i => intVal o.ty (widthOf o.ty) (s.operand c x i o.ty)
    s.vOut c o.g o.ty o.d 4 (fun i => fitInt o.ty o.sat (v o.a i * v o.b i + v o.c i)))

/-- VMIN (R148). -/
def execVmin (o : V2) (s : State) : Host.Outcome State Fault Refusal :=
  slot s (.vmin o) (fun c s => s.int2 o c min)

/-- VMAX (R148). -/
def execVmax (o : V2) (s : State) : Host.Outcome State Fault Refusal :=
  slot s (.vmax o) (fun c s => s.int2 o c max)

/-- VABS (R148). -/
def execVabs (o : V1) (s : State) : Host.Outcome State Fault Refusal :=
  slot s (.vabs o) (fun c s => s.int1 o c (fun a => (a.natAbs : Int)))

/-- VNEG (R148). -/
def execVneg (o : V1) (s : State) : Host.Outcome State Fault Refusal :=
  slot s (.vneg o) (fun c s => s.int1 o c (fun a => -a))

/-- VAND (R148). -/
def execVand (o : V2) (s : State) : Host.Outcome State Fault Refusal :=
  slot s (.vand o) (fun c s => s.bits2 o c (fun _ a b => a &&& b))

/-- VOR (R148). -/
def execVor (o : V2) (s : State) : Host.Outcome State Fault Refusal :=
  slot s (.vor o) (fun c s => s.bits2 o c (fun _ a b => a ||| b))

/-- VXOR (R148). -/
def execVxor (o : V2) (s : State) : Host.Outcome State Fault Refusal :=
  slot s (.vxor o) (fun c s => s.bits2 o c (fun _ a b => a ^^^ b))

/-- VNOT (R148). -/
def execVnot (o : V1) (s : State) : Host.Outcome State Fault Refusal :=
  slot s (.vnot o) (fun c s => s.bits1 o c (fun w a => 2 ^ w - 1 - a))

/-- VSHL (R149). -/
def execVshl (o : V2) (s : State) : Host.Outcome State Fault Refusal :=
  slot s (.vshl o) (fun c s => s.bits2 o c shiftLeft)

/-- VSHR (R149). -/
def execVshr (o : V2) (s : State) : Host.Outcome State Fault Refusal :=
  slot s (.vshr o) (fun c s => s.bits2 o c (shiftRight o.ty))

/-- VROT (R149). -/
def execVrot (o : V2) (s : State) : Host.Outcome State Fault Refusal :=
  slot s (.vrot o) (fun c s => s.bits2 o c rotLeft)

/-- VBFX (R150). -/
def execVbfx (o : V2) (s : State) : Host.Outcome State Fault Refusal :=
  slot s (.vbfx o) (fun c s =>
    s.vOut c o.g o.ty o.d 4 (fun i =>
      extendTo o.ty (bitExtract o.ty (widthOf o.ty) (s.low c o.ty o.a i) (s.operand c o.b i o.ty % 2 ^ 32))))

/-- VBFI (R150). -/
def execVbfi (o : V3) (s : State) : Host.Outcome State Fault Refusal :=
  slot s (.vbfi o) (fun c s =>
    s.vOut c o.g o.ty o.d 4 (fun i =>
      extendTo o.ty (bitInsert (widthOf o.ty) (s.low c o.ty o.a i) (s.low c o.ty o.b i) (s.operand c o.c i o.ty % 2 ^ 32))))

/-- VPOPC (R148). -/
def execVpopc (o : V1) (s : State) : Host.Outcome State Fault Refusal :=
  slot s (.vpopc o) (fun c s => s.bits1 o c (fun w a => popCount w a))

/-- VCLZ (R148). -/
def execVclz (o : V1) (s : State) : Host.Outcome State Fault Refusal :=
  slot s (.vclz o) (fun c s => s.bits1 o c (fun w a => countLz w a))

/-- VBREV (R148). -/
def execVbrev (o : V1) (s : State) : Host.Outcome State Fault Refusal :=
  slot s (.vbrev o) (fun c s => s.bits1 o c (fun w a => bitRev w a))

/-- VFADD (R151, R152). -/
def execVfadd (o : V2) (s : State) : Host.Outcome State Fault Refusal :=
  slot s (.vfadd o) (fun c s => s.arith2 o c (exAdd (o.rm == .rdn)))

/-- VFSUB (R151, R152). -/
def execVfsub (o : V2) (s : State) : Host.Outcome State Fault Refusal :=
  slot s (.vfsub o) (fun c s => s.arith2 o c (fun a b => exAdd (o.rm == .rdn) a (exNeg b)))

/-- VFMUL (R151, R152). -/
def execVfmul (o : V2) (s : State) : Host.Outcome State Fault Refusal :=
  slot s (.vfmul o) (fun c s => s.arith2 o c exMul)

/-- VFMA (R151, R152), rounded once. -/
def execVfma (o : V3) (s : State) : Host.Outcome State Fault Refusal :=
  slot s (.vfma o) (fun c s =>
    s.vOut c o.g o.ty o.d (latOf o.ty) (fun i => packElems o.ty (fun j =>
      let x := fun (p : Opd) => exOf o.ty (s.felem c o.ty p i j)
      s.froundTo c o.ty o.rm o.sat 0 (exAdd (o.rm == .rdn) (exMul (x o.a) (x o.b)) (x o.c)))))

/-- VFMIN (R153). -/
def execVfmin (o : V2) (s : State) : Host.Outcome State Fault Refusal :=
  slot s (.vfmin o) (fun c s => s.flt2 o c (fltMinMax false o.ty))

/-- VFMAX (R153). -/
def execVfmax (o : V2) (s : State) : Host.Outcome State Fault Refusal :=
  slot s (.vfmax o) (fun c s => s.flt2 o c (fltMinMax true o.ty))

/-- VFABS (R153). -/
def execVfabs (o : V1) (s : State) : Host.Outcome State Fault Refusal :=
  slot s (.vfabs o) (fun c s =>
    s.flt1 o c (latOf o.ty) (fun x =>
      if exIsNan (exOf o.ty x) then nanOf o.ty else x % 2 ^ (fmtBits (fmtOf o.ty) - 1)))

/-- VFNEG (R153). -/
def execVfneg (o : V1) (s : State) : Host.Outcome State Fault Refusal :=
  slot s (.vfneg o) (fun c s =>
    s.flt1 o c (latOf o.ty) (fun x =>
      if exIsNan (exOf o.ty x) then nanOf o.ty else x ^^^ 2 ^ (fmtBits (fmtOf o.ty) - 1)))

/-- VRCP (R154). -/
def execVrcp (o : V1) (s : State) : Host.Outcome State Fault Refusal :=
  slot s (.vrcp o) (fun c s => s.trans o c .rcp)

/-- VRSQ (R154). -/
def execVrsq (o : V1) (s : State) : Host.Outcome State Fault Refusal :=
  slot s (.vrsq o) (fun c s => s.trans o c .rsq)

/-- VSQRT (R154). -/
def execVsqrt (o : V1) (s : State) : Host.Outcome State Fault Refusal :=
  slot s (.vsqrt o) (fun c s => s.trans o c .sqrt)

/-- VEXP2 (R154). -/
def execVexp2 (o : V1) (s : State) : Host.Outcome State Fault Refusal :=
  slot s (.vexp2 o) (fun c s => s.trans o c .exp2)

/-- VLOG2 (R154). -/
def execVlog2 (o : V1) (s : State) : Host.Outcome State Fault Refusal :=
  slot s (.vlog2 o) (fun c s => s.trans o c .log2)

/-- VSIN (R154). -/
def execVsin (o : V1) (s : State) : Host.Outcome State Fault Refusal :=
  slot s (.vsin o) (fun c s => s.trans o c .sin)

/-- VCOS (R154). -/
def execVcos (o : V1) (s : State) : Host.Outcome State Fault Refusal :=
  slot s (.vcos o) (fun c s => s.trans o c .cos)

/-- VTANH (R154). -/
def execVtanh (o : V1) (s : State) : Host.Outcome State Fault Refusal :=
  slot s (.vtanh o) (fun c s => s.trans o c .tanh)

/-- Element `j` of a VCMP source as a float value (R155). -/
def State.cmpVal (s : State) (c : Cursor) (o : VCmp) (x : Opd) (i : Nat) : Ex :=
  exOf o.ty (s.felem c o.ty x i o.h1.toNat)

/-- VCMP (R155). -/
def execVcmp (o : VCmp) (s : State) : Host.Outcome State Fault Refusal :=
  slot s (.vcmp o) (fun c s =>
    s.pOut c o.g o.pd (latOf o.ty) (fun i =>
      if isFlt o.ty then fltCond o.cc (s.cmpVal c o o.a i) (s.cmpVal c o o.b i)
      else intCond o.cc (intVal o.ty (widthOf o.ty) (s.operand c o.a i o.ty)) (intVal o.ty (widthOf o.ty) (s.operand c o.b i o.ty))))

/-- A value as VMOV and VSEL write it (R156, R157). -/
def State.moved (s : State) (c : Cursor) (t : Ty) (x : Opd) (i : Nat) : Nat :=
  if isFlt t then packElems t (fun j => s.canon c t (s.felem c t x i j)) else extendTo t (s.operand c x i t)

/-- VSEL (R156). -/
def execVsel (o : VSel) (s : State) : Host.Outcome State Fault Refusal :=
  slot s (.vsel o) (fun c s =>
    s.vOut c o.g o.ty o.d (latOf o.ty) (fun i => s.moved c o.ty (if s.readP c i o.pc != o.neg then o.a else o.b) i))

/-- VMOV (R157). -/
def execVmov (o : V1) (s : State) : Host.Outcome State Fault Refusal :=
  slot s (.vmov o) (fun c s => s.vOut c o.g o.ty o.d (latOf o.ty) (fun i => s.moved c o.ty o.a i))

/-- Element 0 of a conversion's source (R159): an integer's bits, or a float's encoding after the source flush. -/
def State.cvtSrc (s : State) (c : Cursor) (st : Ty) (x : Opd) (i : Nat) : Nat :=
  let v := s.operand c x i st
  flush (s.ftz c) st (v % 2 ^ widthOf st)

/-- One conversion of R159 from an element of type `st` to the encoding of `dt`; `r` is the RS draw. -/
def State.cvt (s : State) (c : Cursor) (dt st : Ty) (rm : Rm) (sat : Bool) (r x : Nat) : Nat :=
  if isInt st && isInt dt then wrap (widthOf dt) (let v := intVal st (widthOf st) x
    if sat then max (intMin dt) (min (intMax dt) v) else v)
  else if isInt st then s.froundTo c dt rm sat r (exOfInt (intVal st (widthOf st) x))
  else if isInt dt then
    (match exOf st x with
     | .nan => 0
     | .inf neg => if sat then wrap (widthOf dt) (if neg then intMin dt else intMax dt) else 0
     | .fin neg m e =>
       let v := exToInt rm neg m e
       wrap (widthOf dt) (if sat then max (intMin dt) (min (intMax dt) v) else v))
  else s.froundTo c dt rm sat r (exOf st x)

/-- Advance G of lanes `n` times each (R71, R162). -/
def Gang.advanceG (g : Gang) (lanes : List Nat) (n : Nat) : Gang :=
  lanes.foldl (fun g i => g.setG i ((List.range n).foldl (fun x _ => (rsNext x).1) (g.gReg i))) g

/-- The `k`-th draw of a lane under RS (R71), from G as it stands. -/
def State.draw (s : State) (c : Cursor) (i k : Nat) : Nat :=
  (rsNext ((List.range k).foldl (fun x _ => (rsNext x).1) ((s.gang c.gang).gReg i))).2

/-- The active lanes of an RS instruction advance G once for each element they round. -/
def State.advance (s : State) (c : Cursor) (g : Guard) (rm : Rm) (n : Nat) : State :=
  if rm = .rs then s.modGang c.gang (fun x => x.advanceG (s.active c g) n) else s

/-- VCVT (R159). -/
def execVcvt (o : VCvt) (s : State) : Host.Outcome State Fault Refusal :=
  slot s (.vcvt o) (fun c s =>
    (s.vOut c o.g o.dt o.d 6 (fun i =>
      let y := s.cvt c o.dt o.st o.rm o.sat (s.draw c i 0) (s.cvtSrc c o.st o.a i)
      if isInt o.dt then extendTo o.dt y else y)).advance c o.g o.rm 1)

/-- VPACK (R160). -/
def execVpack (o : VPack) (s : State) : Host.Outcome State Fault Refusal :=
  slot s (.vpack o) (fun c s =>
    (s.vOut c o.g .b32 o.d 6 (fun i =>
      let e0 := s.cvt c o.dt o.st o.rm o.sat (s.draw c i 0) (s.cvtSrc c o.st o.a i)
      let e1 := s.cvt c o.dt o.st o.rm o.sat (s.draw c i 1) (s.cvtSrc c o.st o.b i)
      if pack8 o.dt then (s.operand c o.c i o.st % 2 ^ 16) * 2 ^ 16 + e1 * 2 ^ 8 + e0 else e1 * 2 ^ 16 + e0)).advance c o.g o.rm 2)

/-- Elements of a type in a register (R68). -/
def elemsOf (t : Ty) : Nat :=
  match t with
  | .e2m1 => 8
  | _ => 4 / sizeOf t

/-- VUNPK (R161). -/
def execVunpk (o : VUnpk) (s : State) : Host.Outcome State Fault Refusal :=
  slot s (.vunpk o) (fun c s =>
    s.vOut c o.g .b32 o.d 6 (fun i =>
      let w := 32 / elemsOf o.st
      let x := fld (s.operandI c o.a i) (w * (s.operandI c o.j i % elemsOf o.st)) w
      let h := s.operandI c o.h i
      if isInt o.st then extendTo o.st x
      else if o.st = .e2m1 then s.froundTo c .f32 o.rm o.sat 0 (e2m1Decode x (fld h 0 8) (fld h 8 8))
      else s.froundTo c .f32 o.rm o.sat 0 (exOf o.st (flush (s.ftz c) o.st x))))

/-- Header and codes of the block of lane `i` (R163, R74). -/
def State.qBlock (s : State) (c : Cursor) (o : VQnt) (i : Nat) : Nat × List Nat :=
  let n := if o.k32 then 32 else 16
  let act := s.active c o.g
  quantBlock o.rm ((List.range n).map (fun k =>
    let l := i / n * n + k
    if act.contains l then (s.felem c .f32 o.a l 0, s.draw c l 0) else (0, 0)))

/-- VQNT (R163). -/
def execVqnt (o : VQnt) (s : State) : Host.Outcome State Fault Refusal :=
  slot s (.vqnt o) (fun c s =>
    (s.send 10 ((s.active c o.g).map (fun i =>
      let b := s.qBlock c o i
      let n := if o.k32 then 32 else 16
      let codes := (List.range 8).foldl (fun x j => x + (b.2.getD (i / 8 * 8 % n + j) 0) * 16 ^ j) 0
      Write.v i o.d (codes % 2 ^ 32) (some (b.1 % 2 ^ 16)) true))).advance c o.g o.rm 1)

/-- VOTE (R165). -/
def execVote (o : VVote) (s : State) : Host.Outcome State Fault Refusal :=
  slot s (.vote o) (fun c s =>
    let t := (s.active c o.g).map (fun i => s.readP c i o.pa != o.neg)
    let r := match o.mode with
      | .all => t.all id
      | .any => t.any id
      | .uni => t.all id || t.all not
    s.pOut c o.g o.pd 4 (fun _ => r))

/-- VBALLOT (R166). -/
def execVballot (o : VBallot) (s : State) : Host.Outcome State Fault Refusal :=
  slot s (.vballot o) (fun c s =>
    s.send 4 [Write.s o.sd (maskOf ((s.active c o.g).filter (fun i => s.readP c i o.pa != o.neg)))])

/-- The source lane a SHFL selector names (R167). -/
def shflSrc (sel i : Nat) : Int :=
  let k := sel % 64
  match fld sel 6 2 with
  | 0 => (k : Int)
  | 1 => (i : Int) - k
  | 2 => (i : Int) + k
  | _ => ((i ^^^ k : Nat) : Int)

/-- The source lane of lane `i`, if it is an active lane of the part (R43, R167). -/
def State.shflLane (s : State) (c : Cursor) (o : VShfl) (i : Nat) : Option Nat :=
  let k := shflSrc (s.operandI c o.sel i) i
  if 0 ≤ k ∧ k ≤ 63 ∧ (s.active c o.g).contains k.toNat then some k.toNat else none

/-- SHFL (R167). -/
def execShfl (o : VShfl) (s : State) : Host.Outcome State Fault Refusal :=
  slot s (.shfl o) (fun c s =>
    let act := s.active c o.g
    s.send 6 (act.map (fun i =>
        vWrite o.ty i o.d (match s.shflLane c o i with
          | some k => s.operand c o.a k o.ty
          | none => s.operand c o.f i o.ty) true)
      ++ act.map (fun i => Write.p i (16 + o.e.val) (s.shflLane c o i).isSome)))

/-- One node of a reduction (R77, R168). -/
def State.redNode (s : State) (c : Cursor) (o : VRed) (x y : Nat) : Nat :=
  let iv := intVal o.ty (widthOf o.ty)
  if isFlt o.ty then
    (match o.op with
     | .add => s.froundTo c o.ty o.rm false 0 (exAdd (o.rm == .rdn) (exOf o.ty x) (exOf o.ty y))
     | .min => fltMinMax false o.ty x y
     | _ => fltMinMax true o.ty x y)
  else
    match o.op with
    | .add => (x + y) % 2 ^ widthOf o.ty
    | .min => if iv x ≤ iv y then x else y
    | .max => if iv x ≥ iv y then x else y
    | .and => x &&& y
    | .or => x ||| y
    | .xor => x ^^^ y

/-- One level of the pairwise tree of R77: neighbours are combined, an absent child passes the other on. -/
def redLevel (f : Nat → Nat → Nat) : List (Option Nat) → List (Option Nat)
  | a :: b :: l =>
    (match a, b with
     | none, y => y
     | x, none => x
     | some x, some y => some (f x y)) :: redLevel f l
  | l => l

/-- The reduction of R77 over 64 lanes. -/
def reduce (f : Nat → Nat → Nat) (l : List (Option Nat)) : Option Nat :=
  ((List.range 6).foldl (fun l _ => redLevel f l) l).head?.join

/-- VRED (R168). -/
def execVred (o : VRed) (s : State) : Host.Outcome State Fault Refusal :=
  slot s (.vred o) (fun c s =>
    let act := s.active c o.g
    let src := fun i => if isFlt o.ty then s.felem c o.ty o.a i 0 else s.operand c o.a i o.ty
    let r := (reduce (s.redNode c o) ((List.range 64).map (fun i => if act.contains i then some (src i) else none))).getD 0
    let y := if isFlt o.ty then s.canon c o.ty r else extendTo o.ty r
    s.vOut c o.g o.ty o.d (if o.ty = .f64 then 20 else 12) (fun _ => y))

end Sys2Proof.Machine
end

