-- ==== Sys2Proof/Machine/XSlot.lean ====
section
/-! DEFINITION. The copy-or-matrix slot's instructions at issue (08): commands, range locks, depths, the reuse latch and
batches. What the engines then do stands in Matrix and Copy. -/

namespace Sys2Proof.Machine

/-- The rows of a mask of gang lanes. -/
def rowList (m : Nat) : List Nat := bitsOf 64 m

/-- A range-lock entry over an extent (R207). -/
def lockOver (e : Nat × Nat) (dest glob : Bool) (space owner : Nat) : Lock := ⟨e.1, e.2, dest, glob, space, owner⟩

/-- The descriptor of the current copy: as read before the bundle issued (R206, R225). -/
def State.curDesc (s : State) (c : Cursor) (a : Nat) : List Nat := if c.checked then c.desc else s.copyDesc c a

/-- The range-lock entries a command registers at issue (R207). -/
def State.cmdLocks (s : State) (c : Cursor) (d : List Nat) (owner : Nat) : Instr → List Lock
  | .mma o =>
    let fb := s.readS c o.sy
    (match shapeOf fb with
     | none => []
     | some h => (mmaRanges h fb (s.readS c o.sx) false).map (fun r => ⟨r.1, r.1 + r.2, false, false, s.grp c, owner⟩))
  | .mmac o =>
    let fb := s.readS c o.sy
    (match shapeOf fb with
     | none => []
     | some h => (mmaRanges h fb (s.readS c o.sx) true).map (fun r => ⟨r.1, r.1 + r.2, false, false, s.grp c, owner⟩))
  | .zld o =>
    ((imageExtent (s.readS c o.sx) (sx 64 (s.readS c o.sz)) (s.active c o.g) 256).map
      (fun e => lockOver e false false (s.grp c) owner)).toList
  | .zst o | .zretSp o =>
    ((imageExtent (s.readS c o.sx) (sx 64 (s.readS c o.sz)) (s.active c o.g) (64 * outSize (s.readS c o.sy))).map
      (fun e => lockOver e true false (s.grp c) owner)).toList
  | .zretG o =>
    ((imageExtent (s.readS c o.sx) (sx 64 (s.readS c o.sz)) (s.active c o.g) (64 * outSize (s.readS c o.sy))).map
      (fun e => lockOver e true true (s.gang c.gang).ctx owner)).toList
  | .cpy o | .cpyr o =>
    (if cdSrc d = 1 then [lockOver (normExt (cdExtent d (s.readS c o.sy) (cdSstr d))) false false (s.grp c) owner] else [])
      ++ (if cdDst d = 1 then [lockOver (normExt (cdExtent d (s.readS c o.sz) (cdDstr d))) true false (s.grp c) owner] else [])
  | _ => []

/-- Two range-lock entries share a byte. -/
def Lock.meets (a b : Lock) : Bool :=
  a.glob = b.glob && a.space = b.space && overlaps a.lo (a.hi - a.lo) b.lo (b.hi - b.lo)

/-- A command's entries fit the core's table: free entries, no destination over an entry, no source over a destination
(R207). -/
def Core.locksFit (k : Core) (ls : List Lock) : Bool :=
  k.locks.length + ls.length ≤ 32
    && ls.all (fun l => k.locks.all (fun e => !(l.meets e.2 && (l.dest || e.2.dest))))

/-- Register entries in the table. -/
def Core.addLocks (k : Core) (ls : List Lock) : Core :=
  ls.foldl (fun k l => { k with locks := smPut k.locks k.freeLock l }) k

/-- Free the entries of a command. -/
def Core.dropLocks (k : Core) (owner : Nat) : Core := { k with locks := k.locks.filter (fun e => e.2.owner ≠ owner) }

/-- A flag a command sets at completion, if it names one. -/
def flagOpt (f : Flag) : Option Nat := if f.fe then some f.k.val else none

/-- Capture A (R215): `n` registers from `va` of every live lane of the gang. -/
def State.captureA (s : State) (c : Cursor) (va n : Nat) : List (Nat × Word) :=
  let g := s.gang c.gang
  g.liveLanes.foldl (fun m i =>
    (List.range n).foldl (fun m r => smSet 0 m (i * 16 + r) (BitVec.ofNat 32 (s.readV c i (va + r)))) m) []

/-- The A that an MMA takes from the latch (R215): what it holds. The rule against another AFMT in a chain broken, registers that were
not captured are free values (R216) (log entry 62, DESIGN CHOICE). -/
def Al.take (x : Al) (serial n : Nat) (lanes : List Nat) : List (Nat × Word) :=
  lanes.foldl (fun m i => ((List.range n).filter (fun r => latchRegs x.fmt ≤ r)).foldl (fun m r =>
    smSet 0 m (i * 16 + r) (Config.uncaptured serial (i * 16 + r))) m) x.a

/-- Put a matrix command in the core's queue (R206). -/
def State.queueMat (s : State) (c : Cursor) (i : Instr) (f : MatCmd → MatCmd) : State :=
  let (id, s) := s.fresh
  let g := s.gang c.gang
  let cmd : MatCmd :=
    { i := i, gang := c.gang, group := g.group, slices := c.slices, rows := 0, fb := 0, sx := 0, sz := 0, a := [], rnd := [],
      pc := c.pc, issued := c.cyc, inst := 0, fired := none, afb := 0, ameta := [], reqs := [], wrote := false, failed := false, held := none, barred := false }
  let ls := s.cmdLocks c [] id i
  s.modCore g.core (fun k => (({ k with matq := smPut k.matq id (f cmd) }).addLocks ls))

/-- Change the depth of a tile (R218). -/
def State.setDepth (s : State) (grp t : Nat) (f : Nat → Nat) : State :=
  s.modGroup grp (fun x => { x with depth := smSet 0 x.depth t (f (smGet 0 x.depth t)) })

/-- MMA (R214 to R218): A comes from the registers or from AL (R215, R216). -/
def execMma (o : XMma) (s : State) : Host.Outcome State Fault Refusal :=
  slot s (.mma o) (fun c s =>
    let g := s.gang c.gang
    let fb := s.readS c o.sy
    let n := (shapeOf fb).elim 0 Shape.regs
    let fresh := s.captureA c o.va n
    let al := (s.core g.core).al
    let own := match al with
      | some x => decide (x.gang = c.gang)
      | none => false
    let a := match al with
      | some x => if own then x.take c.draw n g.liveLanes else fresh
      | none => fresh
    let al' := match al with
      | none => if o.ru then some ⟨c.gang, o.va, fbA fb, fresh⟩ else none
      | some x => if own && !o.ru then none else some x
    let s := s.queueMat c (.mma o) (fun m => { m with rows := s.rows c o.g, fb := fb, sx := s.readS c o.sx, a := a, afb := fb })
    (s.modCore g.core (fun k => { k with al := al' })).setDepth g.group o.zt (· + 1))

/-- MMAC (R221): it joins the next instance of its set on this core. -/
def execMmac (o : XMmac) (s : State) : Host.Outcome State Fault Refusal :=
  slot s (.mmac o) (fun c s =>
    let g := s.gang c.gang
    let fb := s.readS c o.sy
    let n := (shapeOf fb).elim 0 Shape.regs
    let key := g.ctx * 32 + o.set * 2 + o.half
    let j := smGet 0 (s.core g.core).mmacs key
    let a := s.captureA c o.va n
    let s := s.queueMat c (.mmac o) (fun m => { m with rows := s.rows c o.g, fb := fb, sx := s.readS c o.sx, a := a, inst := j, afb := fb })
    let s := s.modCore g.core (fun k => { k with mmacs := smSet 0 k.mmacs key (j + 1) })
    let s := s.setDepth g.group o.zt (· + 1)
    if o.zu = o.zt then s else s.setDepth g.group o.zu (· + 1))

/-- ZLD (R219): it resets the tile's depth at issue. -/
def execZld (o : XZld) (s : State) : Host.Outcome State Fault Refusal :=
  slot s (.zld o) (fun c s =>
    (s.queueMat c (.zld o) (fun m => { m with rows := s.rows c o.g, sx := s.readS c o.sx, sz := s.readS c o.sz })).setDepth
      (s.grp c) o.zt (fun _ => 0))

/-- The random values of an output under RS (R220): 64 draws of each active row's lane, in ascending column. -/
def State.rowDraws (s : State) (c : Cursor) (g : Guard) (fb : Nat) : List (Nat × Nat) :=
  if fbOrm fb = 4 then
    (s.active c g).flatMap (fun i =>
      ((List.range 64).foldl (fun (x : Nat × List (Nat × Nat)) n =>
        let (st, r) := rsNext x.1
        (st, x.2 ++ [(i * 64 + n, r)])) ((s.gang c.gang).gReg i, [])).2)
  else []

/-- An output command enters the queue, with its random values under RS (R219, R220). -/
def State.queueOut (s : State) (c : Cursor) (i : Instr) (o : XZst) : State :=
  let fb := s.readS c o.sy
  let rnd := s.rowDraws c o.g fb
  let lanes := s.active c o.g
  let s := s.queueMat c i (fun m => { m with
    rows := s.rows c o.g, fb := fb, sx := s.readS c o.sx, sz := s.readS c o.sz, rnd := rnd })
  if fbOrm fb = 4 then s.modGang c.gang (fun g => g.advanceG lanes 64) else s

/-- ZST (R219). -/
def execZst (o : XZst) (s : State) : Host.Outcome State Fault Refusal :=
  slot s (.zst o) (fun c s => s.queueOut c (.zst o) o)

/-- ZCLR (R219). -/
def execZclr (o : XZclr) (s : State) : Host.Outcome State Fault Refusal :=
  slot s (.zclr o) (fun c s =>
    (s.queueMat c (.zclr o) (fun m => { m with rows := s.rows c o.g })).setDepth (s.grp c) o.zt (fun _ => 0))

/-- ZRET mode 00 (R219): it only closes the reduction. -/
def execZret (o : XZret) (s : State) : Host.Outcome State Fault Refusal :=
  slot s (.zret o) (fun c s => (s.queueMat c (.zret o) id).setDepth (s.grp c) o.zt (fun _ => 0))

/-- ZRET mode 01 (R219). -/
def execZretSp (o : XZst) (s : State) : Host.Outcome State Fault Refusal :=
  slot s (.zretSp o) (fun c s => (s.queueOut c (.zretSp o) o).setDepth (s.grp c) o.zt (fun _ => 0))

/-- ZRET mode 10 (R219). -/
def execZretG (o : XZst) (s : State) : Host.Outcome State Fault Refusal :=
  slot s (.zretG o) (fun c s => (s.queueOut c (.zretG o) o).setDepth (s.grp c) o.zt (fun _ => 0))

/-- Source address of an element. -/
def CopyCmd.srcAt (m : CopyCmd) (n : Nat) : Nat := cdAddr m.desc m.src (cdSstr m.desc) n
/-- Destination address of an element. -/
def CopyCmd.dstAt (m : CopyCmd) (n : Nat) : Nat := cdAddr m.desc m.dst (cdDstr m.desc) n
/-- Number of elements; an HSET moves none. -/
def CopyCmd.elems (m : CopyCmd) : Nat := if m.desc.isEmpty then 0 else cdElems m.desc
/-- The element is beyond LIMIT: zeros are written and its source is not read (R226). -/
def CopyCmd.zeroed (m : CopyCmd) (n : Nat) : Bool := cdLimit m.desc ≠ 0 && cdLimit m.desc < m.srcAt n + cdEsize m.desc

/-- Put a copy in the core's queue and in the gang's open batch (R206, R231). -/
def State.queueCopy (s : State) (c : Cursor) (i : Instr) (o : XCpy) (remote : Bool) : State :=
  let (id, s) := s.fresh
  let g := s.gang c.gang
  let d := s.curDesc c (s.readS c o.sx)
  let cmd : CopyCmd :=
    { gang := c.gang, group := g.group, slices := c.slices, desc := d, src := s.readS c o.sy, dst := s.readS c o.sz, remote := remote,
      scope := o.scope, f := flagOpt o.f, pc := c.pc, issued := c.cyc, done := [], sent := [], held := none, barred := false, failed := false, locked := 0, reqs := [] }
  let ls := s.cmdLocks c d id i
  let s := if cdSrc d = 0 then s.noteRemote c.gang (((List.range (cdElems d)).filter (fun n => !(cmd.zeroed n))).map cmd.srcAt) else s
  (s.modCore g.core (fun k => ({ k with copyq := smPut k.copyq id cmd }).addLocks ls)).modGang c.gang
    (fun g => { g with openBatch := g.openBatch ++ [id] })

/-- CPY (R225 to R227). -/
def execCpy (o : XCpy) (s : State) : Host.Outcome State Fault Refusal :=
  slot s (.cpy o) (fun c s => s.queueCopy c (.cpy o) o false)

/-- CPYR (R228). -/
def execCpyr (o : XCpy) (s : State) : Host.Outcome State Fault Refusal :=
  slot s (.cpyr o) (fun c s => s.queueCopy c (.cpyr o) o true)

/-- CPSEAL (R231): the open batch is closed; a batch with no unfinished copy finishes at once. -/
def execCpseal (f : Flag) (s : State) : Host.Outcome State Fault Refusal :=
  slot s (.cpseal f) (fun c s =>
    let open_ := (s.gang c.gang).openBatch
    let s := s.modGang c.gang (fun g => { g with
      openBatch := []
      batches := if open_.isEmpty then g.batches else g.batches ++ [⟨open_, flagOpt f, c.slices⟩] })
    match flagOpt f with
    | some k => if open_.isEmpty then s.setFlag c.gang c.slices k else s
    | none => s)

/-- CPWAIT (R232): the part is held until FENCE_COMPLETE finds at most `n` batches unfinished. -/
def execCpwait (n : Fin 16) (s : State) : Host.Outcome State Fault Refusal :=
  slot s (.cpwait n) (fun c s => s.hold c.gang (lowSlice c.slices) (.cpwait n))

/-- HSET (R233, R332): the hurdle is armed at issue; the command completes at once after it. -/
def execHset (o : XHset) (s : State) : Host.Outcome State Fault Refusal :=
  slot s (.hset o) (fun c s =>
    let g := s.gang c.gang
    let a := s.readS c o.sx
    let target := s.readS c o.sy % 2 ^ 48
    let s := s.bankCell g.group a (fun bs =>
      bytesOf 8 0 ++ bytesOf 8 ((ofBytes (bs.drop 14) + 1) % 2 ^ 16 * 2 ^ 48 + target))
    let (id, s) := s.fresh
    let cmd : CopyCmd :=
      { gang := c.gang, group := g.group, slices := c.slices, desc := [], src := 0, dst := 0, remote := false, scope := .grp, f := flagOpt o.f,
        pc := c.pc, issued := c.cyc, done := [], sent := [], held := none, barred := false, failed := false, locked := 0, reqs := [] }
    s.modCore g.core (fun k => { k with copyq := smPut k.copyq id cmd }))

end Sys2Proof.Machine
end

