-- ==== Sys2Proof/Machine/Exits.lean ====
section
/-! DEFINITION. The exit of gangs: what a gang gives up when its last lane dies (R45, R125, R199, R215, R246, R256, R311,
R316, R324). -/

namespace Sys2Proof.Machine

/-- A gang leaves the arrivals of a list of barriers (R327). -/
def leaveBars (u : Nat) (l : List (Nat × Bar)) : List (Nat × Bar) :=
  l.map (fun e => (e.1, { e.2 with arrived := e.2.arrived.filter (fun x => x ≠ u) }))

/-- A gang stops being a member of its barriers (R324, R329). -/
def State.leaveBarriers (s : State) (u : Nat) : State :=
  let g := s.gang u
  (s.modGroup g.group (fun x => { x with bars := leaveBars u x.bars })).modCtx g.ctx
    (fun x => { x with clubar := leaveBars u x.clubar, devbar := leaveBars u x.devbar })

/-- A gang's waiter bits are cleared (R336). -/
def State.leaveWaiters (s : State) (u : Nat) : State :=
  let cut := fun (l : List Waiter) =>
    (l.map (fun w => { w with parts := w.parts.filter (fun p => p.1 ≠ u) })).filter (fun w => !w.parts.isEmpty)
  { s with fwait := cut s.fwait, cores := s.cores.map (fun c => (c.1, { c.2 with waiters := cut c.2.waiters })) }

/-- A gang's requests for current and its lease are given up (R256, R387, R391). -/
def State.leavePower (s : State) (u : Nat) : State :=
  let g := s.gang u
  let s := s.modDie (dieOf g.core) (fun d =>
    { d with pwrq := d.pwrq.filter (fun e => e.gang ≠ u), leaseq := d.leaseq.filter (fun e => e.gang ≠ u) })
  s.modGang u (fun g => { g with leaseEnd := none, leaseCut := none, inReg := false })

/-- The core's reuse latch is freed if the gang owns it (R215). -/
def State.leaveAl (s : State) (u : Nat) : State :=
  s.modCore (s.gang u).core (fun k => { k with al := k.al.filter (fun a => a.gang ≠ u) })

/-- A group whose last launch gang has gone drains (R311). -/
def State.drainCheck (s : State) (g : Nat) : State :=
  let x := s.group g
  if x.st = .resident && x.launchGangs.all (fun u => !(s.gang u).live) then s.modGroup g (fun x => { x with st := .draining }) else s

/-- AL is captured again by the gang that owned it (R215, R378) (log entry 25, DEDUCED). -/
def State.recapture (s : State) (u : Nat) : State :=
  let g := s.gang u
  match g.al, (s.core g.core).al with
  | some (va, fmt), none =>
    let a := g.liveLanes.foldl (fun m i => (List.range (latchRegs fmt)).foldl (fun m r => smSet 0 m (i * 16 + r) (BitVec.ofNat 32 (g.vReg i (va + r)))) m) []
    s.modCore g.core (fun k => { k with al := some ⟨u, va, fmt, a⟩ })
  | _, _ => s

/-- The gang has no live lane left: it gives up what it holds (R45, R316), counts as triggering if it has not (R246), and
its group may drain. What it has issued goes on to completion (R125). -/
def State.gangDied (s : State) (u : Nat) : State :=
  let g := s.gang u
  let s := (s.endStreams u (2 ^ g.slices.length - 1)).leaveBarriers u
  let s := ((s.leaveWaiters u).leavePower u).leaveAl u
  let n := s.nextId
  let s := s.modGang u (fun g => { g with
    live := false, v := [], badV := [], p := [], flight := []
    trig := g.trig || !g.task, trigUpTo := if g.trig then g.trigUpTo else n
    accs := g.accs.filter (fun e => !e.2.parks) })
  s.drainCheck g.group

/-- The lanes of a mask of slices die (R45): the streams of slices left without live lanes end, and so may the gang. -/
def State.exitLanes (s : State) (u m ready : Nat) : State :=
  let s := s.modGang u (fun g => g.kill m ready)
  let g := s.gang u
  if g.exited then s.gangDied u
  else s.endStreams u (maskOf ((bitsOf 8 m).filter (fun k => (g.slice k).sets.isEmpty)))

end Sys2Proof.Machine
end

