-- ==== Sys2Proof/Machine/Control.lean ====
section
/-! DEFINITION. The control slot's own instructions (05): transfers, loops, flags, predicate and scalar arithmetic; and
the empty run (R85). -/

namespace Sys2Proof.Machine

/-- An empty run (R85) has no slot to act: its issuer's next bundle is eligible after `(RUN + 1) × (GAP + 1)` cycles. -/
def execEmptyRun (gap : Fin 16) (run : Fin 64) (regang check : Bool) (s : State) : Host.Outcome State Fault Refusal :=
  slot s (.emptyRun gap run regang check) (fun c s =>
    s.modGang c.gang (fun g => g.modCurs c.slices (fun y => { y with ready := c.cyc + (run + 1) * (gap + 1) })))

/-- The current lane sets of the part go on at `t` (R117). -/
def State.goto (s : State) (c : Cursor) (t : Nat) : State := s.modGang c.gang (fun g => g.modCurs c.slices (LaneSet.goto t))

/-- The words of an offset (R120). -/
def words20 : Off20 → Int
  | .short o => o.toInt
  | .long o => o.toInt
/-- The words of an offset of BSZ and BSNZ. -/
def words14 : Off14 → Int
  | .short o => o.toInt
  | .long o => o.toInt
/-- The words of an offset of LBRK. -/
def words16 : Off16 → Int
  | .short o => o.toInt
  | .long o => o.toInt

/-- BR (R121): it splits the part by its predicate (R32). -/
def execBr (g : Guard) (off : Off20) (s : State) : Host.Outcome State Fault Refusal :=
  slot s (.br g off) (fun c s =>
    let taken := maskOf (s.active c g)
    s.modGang c.gang (fun x => x.split c.slices taken (target c.pc (words20 off)) c.next c.cyc c.gap))

/-- The current lane sets of the part go on at the target of an indirect transfer (R112, R302). -/
def State.gotoFar (s : State) (c : Cursor) (t : Nat) : State :=
  (s.goto c t).modGang c.gang (fun g => g.modCurs c.slices (fun y => { y with jumped := true }))

/-- JMPR (R120, R123). -/
def execJmpr (a : Fin 64) (s : State) : Host.Outcome State Fault Refusal :=
  slot s (.jmpr a) (fun c s => s.gotoFar c (s.readS c a))

/-- CALL (R122): S63 takes the return address after 2 cycles. -/
def execCall (off : Off20) (s : State) : Host.Outcome State Fault Refusal :=
  slot s (.call off) (fun c s => (s.send 2 [Write.s 63 c.next]).goto c (target c.pc (words20 off)))

/-- CALLR (R122): it reads S[a] before S63 is written. -/
def execCallr (a : Fin 64) (s : State) : Host.Outcome State Fault Refusal :=
  slot s (.callr a) (fun c s =>
    let t := s.readS c a
    (s.send 2 [Write.s 63 c.next]).gotoFar c t)

/-- RET (R120, R123). -/
def execRet (a : Fin 64) (s : State) : Host.Outcome State Fault Refusal :=
  slot s (.ret a) (fun c s => s.gotoFar c (s.readS c a))

/-- EXIT (R125). -/
def execExit (s : State) : Host.Outcome State Fault Refusal :=
  slot s .exit (fun c s => s.exitLanes c.gang c.slices (c.cyc + c.gap))

/-- BSZ (R124). -/
def execBsz (a : Fin 64) (off : Off14) (s : State) : Host.Outcome State Fault Refusal :=
  slot s (.bsz a off) (fun c s => s.goto c (if s.readS c a = 0 then target c.pc (words14 off) else c.next))

/-- BSNZ (R124). -/
def execBsnz (a : Fin 64) (off : Off14) (s : State) : Host.Outcome State Fault Refusal :=
  slot s (.bsnz a off) (fun c s => s.goto c (if s.readS c a = 0 then c.next else target c.pc (words14 off)))

/-- A loop stack opened at level `n` with count `k` (R128). -/
def loopOpen (l : List Loop) (n k ret : Nat) : List Loop :=
  l.take n ++ List.replicate (n - l.length) ⟨1, 0, 0⟩ ++ [⟨max k 1, 0, ret⟩]

/-- A loop stack at the end of level `n` (R129): the new stack, and where the body repeats. -/
def loopEnd (l : List Loop) (n : Nat) : List Loop × Option Nat :=
  match l[n]? with
  | none => (l, none)
  | some e =>
    if (e.index + 1) % 2 ^ 32 < e.count then (l.take n ++ [{ e with index := (e.index + 1) % 2 ^ 32 }], some e.ret)
    else (l.take n, none)

/-- The current lane sets of the part take a loop stack. -/
def State.setLoops (s : State) (c : Cursor) (l : List Loop) : State :=
  s.modGang c.gang (fun g => g.modCurs c.slices (fun y => { y with loops := l, edge := true }))

/-- The loop stack of the current part (R118). -/
def State.loops (s : State) (c : Cursor) : List Loop := (s.gang c.gang).loopsOf c.slices

/-- The count of a LOOP (R128). -/
def State.loopCount (s : State) (c : Cursor) : LoopCount → Nat
  | .imm k => k.toNat
  | .ext k => k.toNat
  | .reg a => s.readS c a % 2 ^ 32

/-- LOOP (R128). -/
def execLoop (n : Fin 8) (k : LoopCount) (s : State) : Host.Outcome State Fault Refusal :=
  slot s (.loop n k) (fun c s => (s.setLoops c (loopOpen (s.loops c) n (s.loopCount c k) c.next)).goto c c.next)

/-- ENDL (R129). -/
def execEndl (n : Fin 8) (s : State) : Host.Outcome State Fault Refusal :=
  slot s (.endl n) (fun c s =>
    let r := loopEnd (s.loops c) n
    (s.setLoops c r.1).goto c (r.2.getD c.next))

/-- LBRK (R130). -/
def execLbrk (n : Fin 8) (off : Off16) (s : State) : Host.Outcome State Fault Refusal :=
  slot s (.lbrk n off) (fun c s => (s.setLoops c ((s.loops c).take n)).goto c (target c.pc (words16 off)))

/-- The condition of WAITF holds in every slice of a mask, as the flags stood at the end of cycle `t` − 1 (R133, R134). -/
def Gang.flagsHold (g : Gang) (m t mask : Nat) (any : Bool) : Bool :=
  (bitsOf 8 m).all (fun k => flagTest ((g.slice k).flags.read t) mask any)

/-- WAITF (R134): the step issues its bundle only once the condition holds, as an acquire (R261, R269); until then the part is blocked
at it. -/
def execWaitf (mask : BitVec 16) (any : Bool) (s : State) : Host.Outcome State Fault Refusal :=
  slot s (.waitf mask any) (fun c s =>
    if (s.gang c.gang).flagsHold c.slices c.cyc mask.toNat any then s.acquired c.gang
    else s.modGang c.gang (fun g => g.block c.slices (.waitf mask.toNat any) c.pc c.pc))

/-- TESTF (R135). -/
def execTestf (d : Fin 32) (neg : Bool) (mask : BitVec 16) (any : Bool) (s : State) : Host.Outcome State Fault Refusal :=
  slot s (.testf d neg mask any) (fun c s =>
    let g := s.gang c.gang
    s.send 2 ((s.partLanes c).map (fun i =>
      Write.p i d (flagTest ((g.slice (i / 8)).flags.read c.cyc) mask.toNat any != neg))))

/-- CLRF (R136). -/
def execClrf (mask : BitVec 16) (s : State) : Host.Outcome State Fault Refusal :=
  slot s (.clrf mask) (fun c s =>
    s.modGang c.gang (fun g => g.modSlices c.slices (fun x => { x with flags := x.flags.clearIn c.cyc mask.toNat })))

/-- Predicate logic in every lane of the part (R138). -/
def State.pred2 (s : State) (c : Cursor) (o : PBin) (f : Bool → Bool → Bool) : State :=
  s.send 2 ((s.partLanes c).map (fun i => Write.p i o.d (f (s.readP c i o.a != o.na) (s.readP c i o.b != o.nb))))

/-- PAND (R138). -/
def execPand (o : PBin) (s : State) : Host.Outcome State Fault Refusal := slot s (.pand o) (fun c s => s.pred2 c o and)
/-- POR (R138). -/
def execPor (o : PBin) (s : State) : Host.Outcome State Fault Refusal := slot s (.por o) (fun c s => s.pred2 c o or)
/-- PXOR (R138). -/
def execPxor (o : PBin) (s : State) : Host.Outcome State Fault Refusal := slot s (.pxor o) (fun c s => s.pred2 c o xor)

/-- The second source of a scalar instruction (R139). -/
def State.scalarSrc (s : State) (c : Cursor) : SSrc → Nat
  | .reg b => s.readS c b
  | .imm i => wrap64 i.toInt
  | .ext i => wrap64 i.toInt

/-- A scalar operation: the result lands after 2 cycles (R139, R140). -/
def State.scalar (s : State) (c : Cursor) (o : SBin) (f : Nat → Nat → Nat) : State :=
  s.send 2 [Write.s o.d (f (s.readS c o.a) (s.scalarSrc c o.b) % 2 ^ 64)]

/-- SADD (R140). -/
def execSadd (o : SBin) (s : State) : Host.Outcome State Fault Refusal := slot s (.sadd o) (fun c s => s.scalar c o (· + ·))
/-- SSUB (R140). -/
def execSsub (o : SBin) (s : State) : Host.Outcome State Fault Refusal :=
  slot s (.ssub o) (fun c s => s.scalar c o (fun a b => a + (2 ^ 64 - b)))
/-- SMUL (R140). -/
def execSmul (o : SBin) (s : State) : Host.Outcome State Fault Refusal := slot s (.smul o) (fun c s => s.scalar c o (· * ·))
/-- SAND (R140). -/
def execSand (o : SBin) (s : State) : Host.Outcome State Fault Refusal := slot s (.sand o) (fun c s => s.scalar c o (· &&& ·))
/-- SOR (R140). -/
def execSor (o : SBin) (s : State) : Host.Outcome State Fault Refusal := slot s (.sor o) (fun c s => s.scalar c o (· ||| ·))
/-- SXOR (R140). -/
def execSxor (o : SBin) (s : State) : Host.Outcome State Fault Refusal := slot s (.sxor o) (fun c s => s.scalar c o (· ^^^ ·))
/-- SSHL (R140, R141). -/
def execSshl (o : SBin) (s : State) : Host.Outcome State Fault Refusal :=
  slot s (.sshl o) (fun c s => s.scalar c o (fun a b => a * 2 ^ (b % 64)))
/-- SSHR (R140, R141). -/
def execSshr (o : SBin) (s : State) : Host.Outcome State Fault Refusal :=
  slot s (.sshr o) (fun c s => s.scalar c o (fun a b => a / 2 ^ (b % 64)))
/-- SSRA (R140, R141). -/
def execSsra (o : SBin) (s : State) : Host.Outcome State Fault Refusal :=
  slot s (.ssra o) (fun c s => s.scalar c o (fun a b => wrap64 (sx 64 a / (2 ^ (b % 64) : Nat))))
/-- SMIN (R140, R141). -/
def execSmin (o : SBin) (s : State) : Host.Outcome State Fault Refusal :=
  slot s (.smin o) (fun c s => s.scalar c o (fun a b => wrap64 (min (sx 64 a) (sx 64 b))))
/-- SMAX (R140, R141). -/
def execSmax (o : SBin) (s : State) : Host.Outcome State Fault Refusal :=
  slot s (.smax o) (fun c s => s.scalar c o (fun a b => wrap64 (max (sx 64 a) (sx 64 b))))
/-- SMOV (R140). -/
def execSmov (d : Fin 64) (b : SSrc) (s : State) : Host.Outcome State Fault Refusal :=
  slot s (.smov d b) (fun c s => s.send 2 [Write.s d (s.scalarSrc c b)])

end Sys2Proof.Machine
end

