-- ==== Sys2Proof/Machine/System.lean ====
section
/-! DEFINITION. The control slot's system class (09): special registers, traps, laps, tasks, barriers, hurdles and
power. A guard that reads true in no lane leaves the slot without effect (R237). -/

namespace Sys2Proof.Machine

/-- A system instruction acts if its guard reads true in some lane of the part (R237). -/
def sysSlot (s : State) (i : Instr) (g : Guard) (act : Cursor → State → State) : Host.Outcome State Fault Refusal :=
  slot s i (fun c s => if s.acts c g then act c s else s)

/-- GWIDTH (R42). -/
def Gang.gwidth (g : Gang) (m : Nat) : Nat :=
  g.width * 2 ^ 24 + maskOf ((List.range g.slices.length).filter (fun k => (g.slice k).live ≠ 0)) * 2 ^ 16 + m

/-- Microseconds left on a lease (R240): a part of a microsecond counts as one (log entry 19, DEDUCED). -/
def State.leaseLeft (s : State) (g : Gang) : Nat :=
  match g.leaseEnd with
  | none => 0
  | some t => ceilDiv (t - s.time) Config.us

/-- A special register as lane `i` of the current part reads it (R240); RSG reads zero without its feature (R24). -/
def State.special (s : State) (c : Cursor) (num i : Nat) : Nat :=
  let g := s.gang c.gang
  let f := (g.slice (lowSlice c.slices)).frame
  match num with
  | 0x00 => i
  | 0x01 => i / 8
  | 0x02 => if s.feature 3 then g.gReg i else 0
  | 0x08 => g.idx
  | 0x09 => (s.group g.group).index
  | 0x0A => g.core
  | 0x0B => clusterOf g.core
  | 0x0C => dieOf g.core
  | 0x0D => s.dev.pkgid
  | 0x0E => g.task.toNat
  | 0x10 => g.gwidth c.slices
  | 0x11 => c.cyc
  | 0x12 => s.timens
  | 0x18 => f.cause
  | 0x19 => f.pc
  | 0x1A => f.info
  | 0x20 => g.dmr.toNat
  | 0x21 => g.fstat
  | 0x22 => (s.group g.group).lap
  | 0x23 => s.leaseLeft g
  | 0x24 => g.curcls
  | 0x25 => dw (s.launchOf g.group).pkt 2
  | _ => 0

/-- SYSRD (R239): the S form of a lane's register takes the lowest lane's value. -/
def execSysrd (g : Guard) (dst : SysDst) (num : BitVec 8) (s : State) : Host.Outcome State Fault Refusal :=
  sysSlot s (.sysrd g dst num) g (fun c s =>
    let lanes := s.active c g
    match dst with
    | .s d => s.send 4 [Write.s d (s.special c num.toNat (lanes.headD 0))]
    | .v d => s.send 4 (lanes.map (fun i => Write.v i d (s.special c num.toNat i % 2 ^ 32) none false)))

/-- SYSWR (R239): the write takes effect at the end of cycle issue + 2. -/
def execSyswr (g : Guard) (num : BitVec 8) (r : Fin 64) (s : State) : Host.Outcome State Fault Refusal :=
  sysSlot s (.syswr g num r) g (fun c s => s.send 3 [Write.sys num.toNat (s.readS c r) c.slices])

/-- TRAP (R243): the handler is entered after the bundle has issued. -/
def execTrap (g : Guard) (code : BitVec 16) (s : State) : Host.Outcome State Fault Refusal :=
  sysSlot s (.trap g code) g (fun c s => s.trap c.gang c.slices 1 code.toNat c.next c.pc (c.cyc + c.gap))

/-- TRET (R244, R375). -/
def execTret (g : Guard) (s : State) : Host.Outcome State Fault Refusal :=
  sysSlot s (.tret g) g (fun c s => s.modGang c.gang (fun x => x.leaveHandler c.slices))

/-- The pacer has answered the part of gang slice `k` for a lap (R245). -/
def Gang.lapMarked (g : Gang) (k lap : Nat) : Bool := (g.part k).any (fun p => p.holds.contains (.marked lap))

/-- The part's lap marks go. -/
def Gang.unmark (g : Gang) (k : Nat) : Gang :=
  g.modPart k (fun p => { p with holds := p.holds.filter (fun h => match h with
    | .marked _ => false
    | _ => true) })

/-- MARK once the pacer has answered: LAP takes the lap; before that, the bundle is held and the pacer asked (R245). -/
def State.markLap (s : State) (c : Cursor) (n : Src16) (wait : Bool) : State :=
  let lap := s.src16 c n
  let k := lowSlice c.slices
  if (s.gang c.gang).lapMarked k lap then
    (s.modGang c.gang (fun g => g.unmark k)).modGroup (s.grp c) (fun x => { x with lap := lap })
  else s.hold c.gang k (.mark lap wait)

/-- MARK (R245). -/
def execMark (g : Guard) (n : Src16) (s : State) : Host.Outcome State Fault Refusal :=
  sysSlot s (.mark g n) g (fun c s => s.markLap c n false)

/-- MARK `.wait` (R245). -/
def execMarkWait (g : Guard) (n : Src16) (s : State) : Host.Outcome State Fault Refusal :=
  sysSlot s (.markWait g n) g (fun c s => s.markLap c n true)

/-- TRIG (R246): the first one of a launch gang releases its earlier accesses at `.dev`. -/
def execTrig (g : Guard) (s : State) : Host.Outcome State Fault Refusal :=
  sysSlot s (.trig g) g (fun c s =>
    let n := s.nextId
    s.modGang c.gang (fun x => if x.task || x.trig then x else { x with trig := true, trigUpTo := n }))

/-- LAUNCH (R247): the part is held until the queue processor answers. -/
def execLaunch (g : Guard) (sd sq sp : Fin 64) (s : State) : Host.Outcome State Fault Refusal :=
  sysSlot s (.launch g sd sq sp) g (fun c s =>
    let q := s.readS c sq
    let pa := s.readS c sp
    let (id, s) := s.fresh
    s.hold c.gang (lowSlice c.slices) (.launch sd q pa id))

/-- A task record (R248): entry offset in words, width − 1, future address and four arguments. -/
def taskRecord (entry width fut a0 a1 a2 a3 : Nat) : Nat :=
  entry % 2 ^ 23 + width * 2 ^ 23 + fld fut 3 54 * 2 ^ 26 + a0 % 2 ^ 44 * 2 ^ 80 + a1 % 2 ^ 44 * 2 ^ 124
    + a2 % 2 ^ 44 * 2 ^ 168 + a3 % 2 ^ 44 * 2 ^ 212

/-- FORK (R249): the part is held until its gang's earlier accesses are released; then the record is pushed. -/
def execFork (g : Guard) (sa sf : Fin 64) (w : Fin 8) (off : BitVec 32) (s : State) : Host.Outcome State Fault Refusal :=
  sysSlot s (.fork g sa sf w off) g (fun c s =>
    let a := fun (k : Nat) => s.readS c (sa + k)
    let entry := wrap64 (((target c.pc off.toInt : Nat) : Int) - ((s.kernelOf c.gang).codebase : Nat)) / 4
    let rec_ := taskRecord entry w (s.readS c sf) (a 0) (a 1) (a 2) (a 3)
    let (id, s) := s.fresh
    s.hold c.gang (lowSlice c.slices) (.fork rec_ c.pc id))

/-- JOIN (R250): the part is blocked until the future is full; its value then stands in S[d]. -/
def execJoin (g : Guard) (sd sf : Fin 64) (s : State) : Host.Outcome State Fault Refusal :=
  sysSlot s (.join g sd sf) g (fun c s =>
    let a := s.readS c sf
    let x := s.access c opJoin .n64 .dev .acq [mkLane (8 * lowSlice c.slices) a sd 0]
    (s.blockPart c (.future a (some s.nextId) sd)).enter c.gang x)

/-- YIELD (R253): it clears the issuer's aging and promotion, marks it to stand back in its next eligible cycle, and is a safe point
(R376). -/
def execYield (g : Guard) (s : State) : Host.Outcome State Fault Refusal :=
  sysSlot s (.yield g) g (fun c s =>
    s.modGang c.gang (fun x => (x.modCurs c.slices (fun y => { y with edge := true })).modPart (lowSlice c.slices) (fun p =>
      { p with aging := 0, promoted := none, yielded := true })))

/-- L(c) (R386). -/
def classLimit (c : Nat) : Nat := 128 * (c + 1)

/-- The live and the placed gangs of a core with their classes. -/
def State.classesOn (s : State) (core : Nat) : List (Nat × Nat) :=
  (s.gangs.filter (fun e => (e.2.live || e.2.waiting) && e.2.core = core)).map (fun e => (e.1, e.2.curcls))

/-- A core's charge (R387), were gang `u` in class `c`. -/
def chargeWith (l : List (Nat × Nat)) (u c : Nat) : Nat :=
  min 4096 (l.foldl (fun n e => n + classLimit (if e.1 = u then c else e.2)) 0)

/-- A core's charge (R387). -/
def State.coreCharge (s : State) (core : Nat) : Nat :=
  min 4096 ((s.classesOn core).foldl (fun n e => n + classLimit e.2) 0)

/-- A die's charge: the sum over its cores (R387). -/
def State.dieCharge (s : State) (d : Nat) : Nat := ((List.range 96).map (fun k => s.coreCharge (d * 96 + k))).sum

/-- What granting class `c` to a gang adds to its core's charge, and what is left then (R387): (raise is 0 or less, fits). -/
def State.pwrFits (s : State) (u c : Nat) : Bool × Bool :=
  let core := (s.gang u).core
  let now := s.coreCharge core
  let then_ := chargeWith (s.classesOn core) u c
  let d := dieOf core
  (then_ ≤ now, s.dieCharge d + then_ ≤ (s.die d).budget + now)

/-- A gang takes a class inside a power region (R255). -/
def State.takeClass (s : State) (u c : Nat) : State := s.modGang u (fun g => { g with curcls := c, inReg := true })

/-- A request takes its place (R387): in the order of arrival, and within one cycle by core, then by quarter. -/
def State.enqueue (s : State) (l : List PwrReq) (r : PwrReq) : List PwrReq :=
  let place := fun (x : PwrReq) => (s.gang x.gang).core * 4 + (s.gang x.gang).quarter
  let (a, b) := l.span (fun x => !(x.time = r.time && place r < place x))
  a ++ r :: b

/-- Ask the die's current arbiter for class `k` (R387). -/
def State.askClass (s : State) (u k id : Nat) : State :=
  s.modDie (dieOf (s.gang u).core) (fun d => { d with pwrq := s.enqueue d.pwrq ⟨u, k, id, s.time⟩ })

/-- Ask for a lease of `n` µs (R391). -/
def State.askLease (s : State) (u n id : Nat) : State :=
  s.modDie (dieOf (s.gang u).core) (fun d => { d with leaseq := s.enqueue d.leaseq ⟨u, n, id, s.time⟩ })

/-- The lane sets that wait for a request go on (R255). -/
def State.grantClass (s : State) (r : PwrReq) : State :=
  let s := s.takeClass r.gang r.want
  s.wakeSets r.gang (s.cycOf r.gang + 1) (fun _ y => match y.st with
    | .pwr _ id => id = r.id
    | _ => false)

/-- PWRACQ (R255, R387): a request that raises nothing is granted at once; another blocks the part in the die's queue. -/
def execPwracq (g : Guard) (x : Src3) (s : State) : Host.Outcome State Fault Refusal :=
  sysSlot s (.pwracq g x) g (fun c s =>
    let k := s.src3 c x
    if (s.pwrFits c.gang k).1 then s.takeClass c.gang k
    else
      let (id, s) := s.fresh
      (s.blockPart c (.pwr k id)).askClass c.gang k id)

/-- PWRREL (R255). -/
def execPwrrel (g : Guard) (s : State) : Host.Outcome State Fault Refusal :=
  sysSlot s (.pwrrel g) g (fun c s =>
    let h := s.kernelOf c.gang
    s.modGang c.gang (fun x => { x with curcls := h.curclass, inReg := false }))

/-- SPRINT (R256): 0 releases the lease; another duration holds the part until the lease is granted. -/
def execSprint (g : Guard) (t : Src16) (s : State) : Host.Outcome State Fault Refusal :=
  sysSlot s (.sprint g t) g (fun c s =>
    let n := s.src16 c t
    if n = 0 then s.modGang c.gang (fun x => { x with leaseEnd := none, leaseCut := none })
    else
      let (id, s) := s.fresh
      (s.hold c.gang (lowSlice c.slices) (.sprint id)).askLease c.gang n id)

/-- The barrier instance that a SYNC reaches, with its level code (R236, R251). -/
def Gang.barrier (g : Gang) : SyncLevel → BarRef × Nat × Nat
  | .grp n => (.grp g.group n, 0, n)
  | .clu =>
    let n := fld g.dmr.toNat 16 4
    (.clu g.ctx (clusterOf g.core) n, 1, n)
  | .dev =>
    let n := fld g.dmr.toNat 24 4
    (.dev g.ctx n, 2, n)

/-- SYNC (R251): the part blocks until the phase completes; a task gang's group barrier completes at once (R51). -/
def execSync (g : Guard) (l : SyncLevel) (s : State) : Host.Outcome State Fault Refusal :=
  sysSlot s (.sync g l) g (fun c s =>
    let x := s.gang c.gang
    let b := x.barrier l
    if x.task && b.2.1 = 0 then s
    else
      let (id, s) := s.fresh
      s.blockPart c (.barrier b.1 b.2.1 b.2.2 id))

/-- HWAIT (R252, R332): the test of the cell at the end of its cycle completes it at once, or blocks the part. -/
def execHwait (g : Guard) (x : Fin 64) (s : State) : Host.Outcome State Fault Refusal :=
  sysSlot s (.hwait g x) g (fun c s => s.hold c.gang (lowSlice c.slices) (.hwait (s.readS c x) c.pc))

/-- CHKM (R254, R277): `off` leaves the gang's own bit as it is while the context's check mode is on. -/
def execChkm (g : Guard) (on : Bool) (s : State) : Host.Outcome State Fault Refusal :=
  sysSlot s (.chkm g on) g (fun c s =>
    let always := (s.ctx (s.gang c.gang).ctx).check
    s.modGang c.gang (fun x => { x with chk := if on then true else x.chk && always }))

end Sys2Proof.Machine
end

