-- ==== Sys2Proof/Machine/Matrix.lean ====
section
/-! DEFINITION. The matrix engine (R206, R208, R211, R212, R214, R217, R219 to R223, R235) and its events. -/

namespace Sys2Proof.Machine

/-- Bits of an operand element. -/
def Shape.bits : Shape → Nat
  | .e2m1 => 4 | .fp8 => 8 | .int8 => 8 | .half => 16 | .single => 32

/-- Code of element `k` of row `i` of a captured A (R68, R211). -/
def aCode (a : List (Nat × Word)) (b i k : Nat) : Nat := fld (smGet (0 : Word) a (i * 16 + k * b / 32)).toNat (k * b % 32) b

/-- Code of element `k` of a run that starts at a scratchpad offset (R67, R68, R211). -/
def State.bCode (s : State) (grp at_ b k : Nat) : Nat :=
  fld (ofBytes (s.spRd grp (at_ + k * b / 8) (if b < 8 then 1 else b / 8))) (k * b % 8) b

/-- A metadata byte pair of a region: row or column `r` of `rows`, block `j` of `nb` (R211, R222). -/
def metaAt (read : Nat → Nat) (rows nb r j : Nat) : Nat × Nat := (read (r * nb + j), read (rows * nb + r * nb + j))

/-- The value of element `k` of A's row `i` (R212). -/
def aValue (afb : Nat) (h : Shape) (a : List (Nat × Word)) (m : List Byte) (i k : Nat) : Ex :=
  let p := metaAt (fun n => (m.getD n 0).toNat) 64 (h.k / fbALen afb) i (k / fbALen afb)
  mxDecode (tyOf (fbA afb)) (fbAsc afb) (aCode a h.bits i k) p.1 p.2

/-- The value of element `k` of B's column `n` of `cols` (R212, R222). -/
def State.bValue (s : State) (grp fb : Nat) (h : Shape) (sx cols n k : Nat) : Ex :=
  let p := metaAt (fun x => ofBytes (s.spRd grp (fbBMeta fb + x) 1)) cols (h.k / fbBLen fb) n (k / fbBLen fb)
  mxDecode (tyOf (fbB fb)) (fbBsc fb) (s.bCode grp (sx + n * h.col) h.bits k) p.1 p.2

/-- A word of a tile. -/
def Group.zWord (x : Group) (t i n : Nat) : Nat := (smGet (0 : Word) x.z (t * 4096 + i * 64 + n)).toNat

/-- One element of a product (R75, R76, R214). -/
def State.mulElem (s : State) (m : MatCmd) (h : Shape) (ameta : List Byte) (cols i n acc : Nat) : Nat :=
  if h = .int8 then
    intDot ((List.range h.k).map (fun k =>
      (sx 8 (aCode m.a 8 i k), sx 8 (s.bCode m.group (m.sx + n * h.col) 8 k)))) acc
  else
    mmaDot (h.k / 4) ((List.range h.k).map (fun k => (aValue m.afb h m.a ameta i k, s.bValue m.group m.fb h m.sx cols n k))) acc

/-- Write tile words: an error in one of them is gone (R383). -/
def Group.setZ (x : Group) (ws : List (Nat × Word)) : Group :=
  { x with z := smSetAll 0 x.z ws, badZ := x.badZ.filter (fun k => ws.all (fun w => w.1 ≠ k)) }

/-- Multiply into tile `t` the 64 columns of B from column `col0` of `cols` (R214, R222). -/
def State.mulTile (s : State) (m : MatCmd) (h : Shape) (ameta : List Byte) (t col0 cols : Nat) : State :=
  let ws := (rowList m.rows).flatMap (fun i => (List.range 64).map (fun n =>
    (t * 4096 + i * 64 + n, BitVec.ofNat 32 (s.mulElem m h ameta cols i (col0 + n) ((s.group m.group).zWord t i n)))))
  s.modGroup m.group (fun x => x.setZ ws)

/-- A's metadata in a group's scratchpad (R211). -/
def State.aMeta (s : State) (grp fb : Nat) (h : Shape) : List Byte :=
  if fbAsc fb then s.spRd grp (fbAMeta fb) (metaBytes (decide (h = .e2m1)) (h.k / fbALen fb) 64) else []

/-- conv of R220. -/
def convOut (fb acc rnd : Nat) : Nat :=
  let o := tyOf (fbO fb)
  if tyOf (fbA fb) = .i8 then
    (if o = .i8 then
      (if fbOsat fb then wrap 8 (max (-128) (min 127 (sx 32 acc))) else acc % 256)
     else acc)
  else roundEx (decodeF fmtF32 acc) (fmtOf o) (rmOf (fbOrm fb)) (fbOsat fb) rnd

/-- The bytes of an output row (R219). -/
def State.outRow (s : State) (m : MatCmd) (t i : Nat) : List Byte :=
  (List.range 64).flatMap (fun n =>
    bytesOf (outSize m.fb) (convOut m.fb ((s.group m.group).zWord t i n) (smGet 0 m.rnd (i * 64 + n))))

/-- The address of row `i` of an image (R219). -/
def MatCmd.rowAt (m : MatCmd) (i : Nat) : Nat := wrap64 ((m.sx : Int) + (i : Int) * Machine.sx 64 m.sz)

/-- Write the active rows of a tile to the scratchpad image (R219). Where rows overlap, the higher one remains (log entry 61,
DESIGN CHOICE). -/
def State.storeTile (s : State) (m : MatCmd) (t : Nat) : State :=
  (rowList m.rows).foldl (fun s i => s.spWr m.group (m.rowAt i) (s.outRow m t i)) s

/-- Load the active rows of a tile (R219). -/
def State.loadTile (s : State) (m : MatCmd) (t : Nat) : State :=
  (rowList m.rows).foldl (fun s i =>
    let bs := s.spRd m.group (m.rowAt i) 256
    s.modGroup m.group (fun x => x.setZ ((List.range 64).map (fun n =>
      (t * 4096 + i * 64 + n, BitVec.ofNat 32 (ofBytes ((bs.drop (4 * n)).take 4))))))) s

/-- Clear the active rows of a tile (R219). -/
def State.clearTile (s : State) (m : MatCmd) (t : Nat) : State :=
  s.modGroup m.group (fun x => { x with
    z := x.z.filter (fun e => !(e.1 / 4096 = t && m.rows.testBit (e.1 / 64 % 64)))
    badZ := x.badZ.filter (fun k => !(k / 4096 = t && m.rows.testBit (k / 64 % 64))) })

/-- Bytes grouped by the 256-byte block that a transaction takes (R367). -/
def blocks256 (bs : List (Nat × Byte)) : List (List (Nat × Byte)) :=
  ((bs.map (fun b => b.1 / 256)).eraseDups).map (fun k => bs.filter (fun b => b.1 / 256 = k))

/-- What a peer link in state `st` makes of a new transaction: a failure bit (R180, R358), or none. -/
def linkFails (st : LState) : Option Nat :=
  match st with
  | .none => some fRefused
  | .dead => some fDead
  | _ => none

/-- Translate for an engine, which waits for its walk: the outcome of the walk is installed in the die TLB (R282). -/
def State.engineTranslate (s : State) (core c va : Nat) (u : Use) : Place × State :=
  if s.faultPending (dieOf core) c va then (.wait false, s)
  else
    match s.tlbLookup core c va with
    | (some e, s) => (s.placeLeaf c va e.e e.va u, s)
    | (none, s) =>
      let w := s.walk c va
      let s := match w with
        | .leaf e base size => s.installDie (dieOf core) ⟨c, base, size, e⟩
        | _ => s
      (s.placeWalk c va w u, s)

/-- Where the pieces of the rows of a ZRET mode 10 go: (place, virtual address, bytes). -/
def State.rowPlaces (s : State) (core : Nat) (c : Nat) (ps : List (Nat × List Byte)) : List (Place × Nat × List Byte) × State :=
  ps.foldl (fun (acc : List (Place × Nat × List Byte) × State) p =>
    let (x, s) := acc.2.engineTranslate core c p.1 .write
    (acc.1 ++ [(x, p.1, p.2)], s)) ([], s)

/-- Hold an engine's command on a fixable fault at a page (R178, R230). -/
def State.engineFault (s : State) (core c va : Nat) (ask write : Bool) : State :=
  let s := s.faultPage (dieOf core) c va
  let s := if ask then s.askHost c va else s
  if write then s.shootDown c va else s

/-- Change a matrix command. -/
def State.modMat (s : State) (core id : Nat) (f : MatCmd → MatCmd) : State :=
  s.modCore core (fun k => { k with matq := smMod k.matq id f })

/-- Cause and DETAIL of the fault that an engine takes at a place with no fix (R230): a poisoned page table is one of its own (R383). -/
def Place.engineCause : Place → Nat × Nat
  | .bad 3 d => (3, d)
  | _ => (2, 20)

/-- A ZRET of mode 10 that would wait on a fault, or park its group, ends in failure in a context that is being killed (log entry 10,
DEDUCED). -/
def State.rowFault (s : State) (core id : Nat) (m : MatCmd) (held : State → State) : State :=
  if s.ctxDying (s.gang m.gang).ctx then s.modMat core id (fun m => { m with failed := true, wrote := true })
  else held s

/-- Perform the writes of a ZRET mode 10 (R219, R230): all rows once every piece has its place, a higher row after a lower one (log
entry 61, DESIGN CHOICE). -/
def State.writeRows (s : State) (core id : Nat) (m : MatCmd) (t : Nat) : State :=
  let g := s.gang m.gang
  let ps := (rowList m.rows).flatMap (fun i =>
    let bs := s.outRow m t i
    (pieces (m.rowAt i) bs.length).map (fun p => (p.1, (bs.drop p.2.1).take p.2.2)))
  let (l, s) := s.rowPlaces core g.ctx ps
  match l.find? (fun x => match x.1 with | .wait _ | .bad _ _ => true | _ => false) with
  | some (.wait ask, va, _) =>
    s.rowFault core id m (fun s =>
      if s.faultRoom (dieOf core) g.ctx va then
        (s.modMat core id (fun m => { m with held := some (va / 0x10000) })).engineFault core g.ctx va ask true
      else s.miss (dieOf core) g.ctx va)
  | some (p, va, _) => s.rowFault core id m (fun s =>
      (s.modMat core id (fun m => { m with barred := true })).sysFault m.gang p.engineCause.1 m.pc va p.engineCause.2)
  | none =>
    let s := s.modMat core id (fun m => { m with wrote := true })
    let lost := fun (s : State) => s.later (.uncorrectableErrorConsumed m.group m.gang 4)
    l.foldl (fun s x =>
      let s := s.countPlace core g.ctx x.2.1 x.1
      match x.1 with
      | .hbm pa =>
        (blocks256 (x.2.2.mapIdx (fun i b => (pa + i, b)))).foldl (fun s bs =>
          if s.crossFails core pa then lost (s.crossed (dieOf core)) else ((s.touch pa).wrAll bs).tickSerial) s
      | .host io => (s.hostWr g.ctx io x.2.2).tickSerial
      | .peer p pa =>
        (match linkFails (s.peer p).st with
         | some bit => s.fail m.gang bit 1
         | none =>
           (blocks256 (x.2.2.mapIdx (fun i b => (pa + i, b)))).foldl (fun s bs =>
             let (r, s) := s.request p (.write bs) none (.mat core id) [] 0 m.gang
             s.modMat core id (fun m => { m with reqs := m.reqs ++ [r] })) s)
      | .poison => lost s
      | _ => s) s

/-- Earlier stores and atomics to a group's scratchpad have been performed (R206). -/
def State.spDrained (s : State) (grp id : Nat) : Bool :=
  s.gangs.all (fun e => !(e.2.group = grp) || e.2.accs.all (fun a =>
    id ≤ a.1 || !(a.2.sp) || a.2.use = .read || a.2.parks || a.2.lanes.all (fun l => !(l.st.pending))))

/-- What an access of a gang issued as number `id` waits for has happened (R206, R269): no earlier acquire is pending, and no fence
with an acquire side is held. -/
def Gang.acquireDone (g : Gang) (id : Nat) : Bool :=
  g.accs.all (fun e => id ≤ e.1 || e.2.parks || !e.2.acquires || e.2.lanes.all (fun l => !l.st.pending))
    && g.parts.all (fun p => p.holds.all (fun h => match h with
      | .fence _ o _ n => id ≤ n || o = .rel
      | _ => true))

/-- Issue-to-completion and array time of a command (R217, R222, R235). -/
def matTimes : Instr → Nat × Nat
  | .mma _ => (44, 32)
  | .mmac _ => (150, 128)
  | .zclr _ => (10, 8)
  | _ => (72, 64)

/-- The flag of a matrix command. -/
def matFlag : Instr → Option Nat
  | .mma o => flagOpt o.f
  | .mmac o => flagOpt o.f
  | .zld o => flagOpt o.f
  | .zst o | .zretSp o | .zretG o => flagOpt o.f
  | .zclr o => flagOpt o.f
  | .zret o => flagOpt o.f
  | _ => none

/-- A matrix command has completed (R206, R207, R209). -/
def State.finishMat (s : State) (core id : Nat) (m : MatCmd) : State :=
  let t := s.cyc core
  let s := s.modCore core (fun k => { k.dropLocks id with matq := smDel k.matq id, arrayFree := t })
  let s := match matFlag m.i with
    | some k => s.setFlag m.gang m.slices k
    | none => s
  -- an MMAC of an instance whose A sides differ (R223)
  if m.fired.isSome && m.failed && (s.group m.group).killed.isNone then s.protFault m.gang m.pc 0 9 else s

/-- Execute a matrix command (R214, R219, R222). -/
def State.runMat (s : State) (core id : Nat) (m : MatCmd) : State :=
  let fin := fun (s : State) => s.finishMat core id m
  match m.i with
  | .mma o =>
    (match shapeOf m.fb with
     | none => fin s
     | some h => fin (s.mulTile m h (s.aMeta m.group m.fb h) o.zt 0 64))
  | .mmac o =>
    (match shapeOf m.fb with
     | none => fin s
     | some h =>
       if m.failed then fin s else
         fin ((s.mulTile m h m.ameta o.zt 0 128).mulTile m h m.ameta o.zu 64 128))
  | .zld o => fin (s.loadTile m o.zt)
  | .zst o | .zretSp o => fin (s.storeTile m o.zt)
  | .zclr o => fin (s.clearTile m o.zt)
  | .zretG o =>
    let s := if m.wrote then s else s.writeRows core id m o.zt
    let m' := (smFind (s.core core).matq id).getD m
    if m'.wrote && m'.reqs.isEmpty then fin s else s
  | _ => fin s

/-- The command may complete now: it heads the queue, its time has passed, and what it reads is there. -/
def State.matReady (s : State) (core id : Nat) (m : MatCmd) : Bool :=
  let k := s.core core
  let t := matTimes m.i
  let from_ := match m.i with
    | .mmac _ => m.fired
    | _ => some m.issued
  !m.waits && s.spDrained m.group id && (s.gang m.gang).acquireDone id && (match from_ with
    | none => false
    | some f => f + t.1 ≤ s.cyc core && (m.wrote || k.arrayFree + t.2 ≤ s.cyc core))

/-- MATRIX_COMMAND_COMPLETE: the head of the core's matrix queue (R206). -/
def execMatrixCommandComplete (core : Nat) (s : State) : Host.Outcome State Fault Refusal :=
  match (s.core core).matq with
  | [] => .next s
  | (id, m) :: _ => if s.matReady core id m then .next (s.runMat core id m) else .next s

/-- Participants of a set on a cluster that have not fired: (core, command number, command) (R221). -/
def State.participants (s : State) (c cluster set : Nat) : List (Nat × Nat × MatCmd) :=
  (List.range 8).flatMap (fun p => ((s.core (cluster * 8 + p)).matq.filter (fun e =>
    e.2.fired.isNone && (s.gang e.2.gang).ctx = c && (match e.2.i with
      | .mmac o => o.set.val = set
      | _ => false))).map (fun e => (cluster * 8 + p, e.1, e.2)))

/-- The half of an MMAC. -/
def MatCmd.half (m : MatCmd) : Nat :=
  match m.i with
  | .mmac o => o.half
  | _ => 0

/-- The participant of a core's position and half. -/
def seat (l : List (Nat × Nat × MatCmd)) (p h : Nat) : Option (Nat × Nat × MatCmd) :=
  l.find? (fun x => x.1 % 8 = p && x.2.2.half = h)

/-- The A operand of a participant's active rows; other rows are +0 (R222). -/
def activeA (m : MatCmd) : List (Nat × Word) := m.a.filter (fun e => m.rows.testBit (e.1 / 16))

/-- The A sides of two format-blocks agree (R223). -/
def sameA (x y : Nat) : Bool := fbA x = fbA y && fbAsc x = fbAsc y && fbALen x = fbALen y

/-- A complete instance fires (R222, R223): every participant takes the A side of the position-0 participant of its half
(log entry 11, DEDUCED). -/
def State.fire (s : State) (l : List (Nat × Nat × MatCmd)) (z0 z1 : MatCmd) (cluster : Nat) : State :=
  let lead := fun (m : MatCmd) => if m.half = 0 then z0 else z1
  let bad := l.any (fun x => !(sameA x.2.2.fb (lead x.2.2).fb))
  let ameta := fun (m : MatCmd) => match shapeOf m.fb with
    | none => []
    | some h => s.aMeta m.group m.fb h
  let t := s.cyc (cluster * 8)
  l.foldl (fun s x =>
    let z := lead x.2.2
    s.modMat x.1 x.2.1 (fun m => { m with
      fired := some t, a := activeA z, afb := z.fb, ameta := ameta z, failed := bad })) s

/-- MMAC_INSTANCE_COMPLETE (R221, R222): the oldest instance of the set, once its 16 participants have entered. -/
def execMmacInstanceComplete (ctx cluster set : Nat) (s : State) : Host.Outcome State Fault Refusal :=
  let l := s.participants ctx cluster set
  match l with
  | [] => .next s
  | x :: xs =>
    let j := xs.foldl (fun n y => min n y.2.2.inst) x.2.2.inst
    let mine := l.filter (fun y => y.2.2.inst = j)
    match seat mine 0 0, seat mine 0 1 with
    | some a, some b =>
      if (List.range 16).all (fun n => (seat mine (n / 2) (n % 2)).isSome) && s.spDrained a.2.2.group a.2.1
          && s.spDrained b.2.2.group b.2.1 then
        .next (s.fire mine a.2.2 b.2.2 cluster)
      else .next s
    | _, _ => .next s

end Sys2Proof.Machine
end

