-- ==== Sys2Proof/Machine/Copy.lean ====
section
/-! DEFINITION. The copy engine (R206, R225 to R231, R234, R235) and its events. -/

namespace Sys2Proof.Machine

/-- The bytes of element `n` that it leaves: those that no element of a higher linear index writes (R226). -/
def CopyCmd.leaves (m : CopyCmd) (n : Nat) (bs : List Byte) : List (Nat × Byte) :=
  let b := m.dstAt n
  let later := ((List.range m.elems).filter (fun k => n < k)).map m.dstAt
  (bs.mapIdx (fun i x => (b + i, x))).filter (fun x => later.all (fun o => !(o ≤ x.1 && x.1 < o + cdEsize m.desc)))

/-- Change a copy command. -/
def State.modCopy (s : State) (core id : Nat) (f : CopyCmd → CopyCmd) : State :=
  s.modCore core (fun k => { k with copyq := smMod k.copyq id f })

/-- Fields of a scratchpad token (R228). -/
def tokPkg (t : Nat) : Nat := fld t 55 9
def tokCore (t : Nat) : Nat := fld t 46 9
def tokGroup (t : Nat) : Nat := fld t 22 24

/-- The launch of a group as a transaction names it (R228): context, queue and sequence number (log entry 20, DEDUCED). -/
def Group.launchId (x : Group) : Nat × Nat × Nat := (x.ctx, x.q, x.seq)

/-- The resident group of a launch that a token names on this package (R228). -/
def State.tokTarget (s : State) (t : Nat) (launch : Nat × Nat × Nat) : Option Nat :=
  (s.groups.find? (fun e => e.2.st = .resident && e.2.core = tokCore t && e.2.index = tokGroup t && e.2.launchId = launch)).map (·.1)

/-- Count delivered bytes into a hurdle (R234, R331) (log entry 35, DEDUCED). -/
def State.countHurdle (s : State) (grp off n : Nat) : State :=
  s.bankCell grp off (fun bs => bytesOf 8 (ofBytes (bs.take 8) + n) ++ bs.drop 8)

/-- Deliver bytes of `n` elements' size to a scratchpad, counting into a hurdle (R234). -/
def State.deliverSp (s : State) (grp : Nat) (ws : List (Nat × Byte)) (n : Nat) (hurdle : Option Nat) : State :=
  let s := s.spWrAll grp ws
  match hurdle with
  | some h => s.countHurdle grp h n
  | none => s

/-- The hurdle of a copy. -/
def CopyCmd.hurdle (m : CopyCmd) : Option Nat := if cdHen m.desc then some (cdHoff m.desc) else none

/-- The checks that a remote core makes of a CPYR, and the lock of its range (R228): REFUSED, LOCKED, or accepted. A table
without a free entry answers as locked (log entry 20, DEDUCED). -/
def State.lockRemote (s : State) (grp : Option Nat) (off n : Nat) (dest : Bool) (hurdle : Option Nat) (owner : Nat) :
    AnsKind × State :=
  match grp with
  | none => (.refused, s)
  | some g =>
    let x := s.group g
    let size := (s.kernel g).spad
    let lk : Lock := ⟨off, off + n, dest, false, g, owner⟩
    if size < off + n || (match hurdle with
      | some h => size < h + 16
      | none => false) then (.refused, s)
    else if (s.core x.core).locks.any (fun e => e.2.meets lk) || !((s.core x.core).locksFit [lk]) then (.locked, s)
    else (.done [], s.modCore x.core (fun k => k.addLocks [lk]))

/-- The group whose scratchpad an accepted transfer has locked (R228): it runs to its end there, whatever the group's state. -/
def State.lockedTarget (s : State) (t owner lo hi : Nat) (dest : Bool) : Option Nat :=
  ((s.core (tokCore t)).locks.find? (fun e => e.2.owner = owner && !e.2.glob && e.2.dest = dest && e.2.lo ≤ lo && hi ≤ e.2.hi
    && (s.group e.2.space).index = tokGroup t)).map (fun e => e.2.space)

/-- Free the lock that a transfer of a package holds on a remote range (R228). -/
def State.unlockRemote (s : State) (owner : Nat) : State :=
  { s with cores := s.cores.map (fun c => (c.1, c.2.dropLocks owner)) }

/-- A copy fails (R230): its failure is recorded, and it completes without its other bytes. -/
def State.failCopy (s : State) (core id bit : Nat) : State :=
  let m := (smFind (s.core core).copyq id).getD default
  (s.modCopy core id (fun m => { m with failed := true })).fail m.gang bit 1

/-- The remote side of a CPYR: its offset, length and whether it is the destination. -/
def CopyCmd.far (m : CopyCmd) : Nat × Nat × Bool :=
  let push := cdDst m.desc = 2
  let e := normExt (if push then cdExtent m.desc m.dst (cdDstr m.desc) else cdExtent m.desc m.src (cdSstr m.desc))
  (e.1, e.2 - e.1, push)

/-- Ask the remote side of a CPYR for its lock (R228). -/
def State.askLock (s : State) (core id : Nat) (m : CopyCmd) : State :=
  let t := cdToken m.desc
  let f := m.far
  let h := if f.2.2 then m.hurdle else none
  if tokPkg t = s.dev.pkgid then
    match s.lockRemote (s.tokTarget t (s.group m.group).launchId) f.1 f.2.1 f.2.2 h id with
    | (.done _, s) => s.modCopy core id (fun m => { m with locked := 2 })
    | (.locked, s) => s.failCopy core id fLocked
    | (_, s) => s.failCopy core id fRefused
  else
    match linkFails (s.peer (tokPkg t)).st with
    | some bit => s.failCopy core id bit
    | none =>
      let (r, s) := s.request (tokPkg t) (.lock (s.group m.group).launchId t f.1 f.2.1 f.2.2 h) none (.copy core id []) [] 0 m.gang
      s.modCopy core id (fun m => { m with locked := 1, reqs := m.reqs ++ [r] })

/-- Elements have been performed. -/
def State.doneElems (s : State) (core id : Nat) (ns : List Nat) : State :=
  s.modCopy core id (fun m => { m with done := m.done ++ ns, sent := m.sent.filter (fun n => !(ns.contains n)) })

/-- Elements have been sent over the fabric with a request. -/
def State.sentElems (s : State) (core id r : Nat) (ns : List Nat) : State :=
  s.modCopy core id (fun m => { m with sent := m.sent ++ ns, reqs := m.reqs ++ [r] })

/-- Send part of a copy to a peer; a link that cannot carry it fails the copy (R180, R358). -/
def State.sendCopy (s : State) (core id peer : Nat) (op : RemoteOp) (ns : List Nat) : State :=
  let m := (smFind (s.core core).copyq id).getD default
  match linkFails (s.peer peer).st with
  | some bit => if m.failed then s else s.failCopy core id bit
  | none =>
    let (r, s) := s.request peer op none (.copy core id ns) [] 0 m.gang
    s.sentElems core id r ns

/-- What an element asks of a peer: kind 0 write, 1 push, 2 read, 3 pull; its address there, and what it writes. -/
structure FarElem where
  peer : Nat
  kind : Nat
  addr : Nat
  n : Nat
  bytes : List (Nat × Byte)
  deriving DecidableEq, Repr

/-- Send elements in transactions of one 256-byte block each (R367). -/
def State.sendElems (s : State) (core id : Nat) (m : CopyCmd) (l : List FarElem) : State :=
  let size := cdEsize m.desc
  let key := fun (x : FarElem) => (x.peer, x.kind, x.addr / 256)
  ((l.map key).eraseDups).foldl (fun s k =>
    let xs := l.filter (fun x => key x = k)
    let lo := xs.foldl (fun a x => min a x.addr) ((xs.head?.map (·.addr)).getD 0)
    let hi := xs.foldl (fun a x => max a (x.addr + size)) 0
    let bs := xs.flatMap (·.bytes)
    let t := cdToken m.desc
    let op : RemoteOp :=
      match k.2.1 with
      | 0 => .write bs
      | 1 => .push t bs (m.hurdle.map (fun h => (h, size * xs.length)))
      | 2 => .read lo (hi - lo)
      | _ => .pull t lo (hi - lo)
    s.sendCopy core id k.1 op (xs.map (·.n))) s

/-- What one element of a copy finds on its global side. -/
inductive Side where
  | here
  | place (p : Place)
  deriving DecidableEq, Repr

/-- Translate the global side of an element, if it has one, and count its access (R348). -/
def State.sideOf (s : State) (core c va : Nat) (glob : Bool) (u : Use) : Side × State :=
  if glob then
    let (p, s) := s.engineTranslate core c va u
    (.place p, s.countPlace core c va p)
  else (.here, s)

/-- Hold a copy on a fixable fault, or park its group on another (R230) (log entry 37, DEDUCED). In a context that is being killed it
fails (log entry 10, DEDUCED). -/
def State.copyFault (s : State) (core id : Nat) (m : CopyCmd) (va : Nat) (p : Place) (write : Bool) : State :=
  let g := s.gang m.gang
  if s.ctxDying g.ctx then s.failCopy core id 0
  else
  match p with
  | .wait ask =>
    if s.faultRoom (dieOf core) g.ctx va then
      (s.modCopy core id (fun m => { m with held := some (va / 0x10000) })).engineFault core g.ctx va ask write
    else s.miss (dieOf core) g.ctx va
  | _ => (s.modCopy core id (fun m => { m with barred := true })).sysFault m.gang p.engineCause.1 m.pc va p.engineCause.2

/-- A transaction of a copy that fails on a die-to-die path (R354): the write is dropped, or the data marked, and the copy's group consumes
the error. -/
def State.copyCrossed (s : State) (m : CopyCmd) (d : Nat) : State := (s.crossed d).later (.uncorrectableErrorConsumed m.group m.gang 4)

/-- An element's bytes go to its destination (R227, R228): performed here, or to be sent to a peer. The hurdle of
a pull is the local one (log entry 91, DESIGN CHOICE). -/
def State.putElem (s : State) (core id : Nat) (m : CopyCmd) (n : Nat) (bs : List Byte) : List FarElem × State :=
  let g := s.gang m.gang
  let ws := m.leaves n bs
  let va := m.dstAt n
  if cdDst m.desc = 1 then ([], (s.deliverSp m.group ws bs.length m.hurdle).doneElems core id [n])
  else if cdDst m.desc = 2 then
    (if tokPkg (cdToken m.desc) = s.dev.pkgid then
      (match s.lockedTarget (cdToken m.desc) id va (va + bs.length) true with
       | none => ([], s.failCopy core id fRefused)
       | some t =>
         if s.crossDie (dieOf core) (dieOf (tokCore (cdToken m.desc))) then ([], (s.copyCrossed m (dieOf core)).doneElems core id [n])
         else ([], (s.deliverSp t ws bs.length m.hurdle).doneElems core id [n]))
     else ([⟨tokPkg (cdToken m.desc), 1, va, n, ws⟩], s))
  else
    let cells := fun (a : Nat) => ws.map (fun (w : Nat × Byte) => (a + (w.1 - va), w.2))
    match s.sideOf core g.ctx va true .write with
    | (.place (.hbm pa), s) =>
      if s.crossFails core pa then ([], (s.copyCrossed m (dieOf core)).doneElems core id [n])
      else ([], (((s.touch pa).wrAll (cells pa)).tickSerial).doneElems core id [n])
    | (.place (.host io), s) =>
      let s : State := { s with host := Memory.writeAll s.host (cells (hostKey g.ctx io)) }
      ([], s.tickSerial.doneElems core id [n])
    | (.place (.peer p pa), s) => ([⟨p, 0, pa, n, cells pa⟩], s)
    | (.place .poison, s) => ([], (s.later (.uncorrectableErrorConsumed m.group m.gang 4)).doneElems core id [n])
    | (.place p, s) => ([], s.copyFault core id m va p true)
    | (.here, s) => ([], s)

/-- An earlier store or atomic of the gang has still to write bytes of a range, which a load would wait for (R181, R206). -/
def State.storesAhead (s : State) (u id va n : Nat) : Bool :=
  let g := s.gang u
  g.accs.any (fun e => e.1 < id && e.2.global && e.2.use ≠ .read && !e.2.parks
    && e.2.lanes.any (fun l => l.st.pending && s.meets g.ctx false l.addr e.2.size va n))

/-- The 256-byte block of its fabric side that an element belongs to, which travels as one transaction (R367). -/
def State.farBlock (s : State) (m : CopyCmd) (n : Nat) : Option (Bool × Nat) :=
  let c := (s.gang m.gang).ctx
  let far := fun (sp va : Nat) => if sp = 2 then tokPkg (cdToken m.desc) ≠ s.dev.pkgid else sp = 0 && s.remotePage c va
  if far (cdSrc m.desc) (m.srcAt n) && !(m.zeroed n) then some (true, m.srcAt n / 256)
  else if far (cdDst m.desc) (m.dstAt n) then some (false, m.dstAt n / 256)
  else none

/-- Elements of a copy, with the others of the 256-byte blocks on the fabric that they belong to (R367). -/
def State.withBlocks (s : State) (m : CopyCmd) (elems : List Nat) : List Nat :=
  let bs := (elems.filterMap (s.farBlock m)).eraseDups
  if bs.isEmpty then elems
  else elems ++ (List.range m.elems).filter (fun n => !(elems.contains n) && (s.farBlock m n).any (fun b => bs.contains b))

/-- Perform one element of a copy (R226 to R228), or add it to those to be sent. -/
def State.copyElem (core id : Nat) (acc : List FarElem × State) (n : Nat) : List FarElem × State :=
  let (l, s) := acc
  match smFind (s.core core).copyq id with
  | none => acc
  | some m =>
    let g := s.gang m.gang
    let size := cdEsize m.desc
    let va := m.srcAt n
    let put := fun (s : State) (bs : List Byte) =>
      let (x, s) := s.putElem core id m n bs
      (l ++ x, s)
    if m.waits || m.failed || m.done.contains n || m.sent.contains n || m.elems ≤ n then acc
    else if cdSrc m.desc = 0 && !(m.zeroed n) && s.storesAhead m.gang id va size then acc
    else if m.zeroed n then put s (List.replicate size 0)
    else if cdSrc m.desc = 2 then
      (if tokPkg (cdToken m.desc) = s.dev.pkgid then
        (match s.lockedTarget (cdToken m.desc) id va (va + size) false with
         | none => (l, s.failCopy core id fRefused)
         | some t =>
           let d := dieOf (tokCore (cdToken m.desc))
           put (if s.crossDie d (dieOf core) then s.copyCrossed m d else s) (s.spRd t va size))
       else (l ++ [⟨tokPkg (cdToken m.desc), 3, va, n, []⟩], s))
    else
      match s.sideOf core g.ctx va (cdSrc m.desc = 0) .read with
      | (.here, s) => put s (s.spRd m.group va size)
      | (.place (.hbm pa), s) =>
        let bs := s.rd pa size
        let s := s.touch pa
        if s.crossFails core pa then put (s.copyCrossed m (dieOf core)) bs
        else
        put (if s.poisoned pa size then s.later (.uncorrectableErrorConsumed m.group m.gang (s.poisonSite pa size)) else s) bs
      | (.place (.host io), s) => put s (s.hostRd g.ctx io size)
      | (.place (.peer p pa), s) => (l ++ [⟨p, 2, pa, n, []⟩], s)
      | (.place .poison, s) => put (s.later (.uncorrectableErrorConsumed m.group m.gang 4)) (List.replicate size 0)
      | (.place p, s) => (l, s.copyFault core id m va p false)

/-- The gang's earlier accesses to global memory have been performed, so that the copy sees them (R206). -/
def State.copyDrained (s : State) (m : CopyCmd) (id : Nat) : Bool :=
  s.spDrained m.group id && (s.gang m.gang).acquireDone id && (s.gang m.gang).accs.all (fun e => id ≤ e.1 || e.2.parks || e.2.strm || e.2.lanes.all (fun l => match l.st with
    | .queued => false
    | _ => true))

/-- COPY_BYTES_PERFORMED: some elements of a copy, in any order (R226). A CPYR first asks for its lock (R228). -/
def execCopyBytesPerformed (core cmd : Nat) (elems : List Nat) (s : State) : Host.Outcome State Fault Refusal :=
  match smFind (s.core core).copyq cmd with
  | none => .next s
  | some m =>
    if m.failed || m.waits || m.desc.isEmpty || !(s.copyDrained m cmd) then .next s
    else if m.remote && m.locked = 0 then .next (s.askLock core cmd m)
    else if m.remote && m.locked = 1 then .next s
    else
      let (l, s) := (s.withBlocks m elems.eraseDups).foldl (State.copyElem core cmd) ([], s)
      .next (s.sendElems core cmd m l)

/-- A copy of a batch is finished (R231): batches without unfinished copies finish and set their flags. -/
def State.batchDone (s : State) (u id : Nat) : State :=
  let s := s.modGang u (fun g => { g with
    openBatch := g.openBatch.filter (fun x => x ≠ id)
    batches := g.batches.map (fun b => { b with copies := b.copies.filter (fun x => x ≠ id) }) })
  let fin := (s.gang u).batches.filter (fun b => b.copies.isEmpty)
  let s := s.modGang u (fun g => { g with batches := g.batches.filter (fun b => !b.copies.isEmpty) })
  fin.foldl (fun s b => match b.flag with
    | some k => s.setFlag u b.slices k
    | none => s) s

/-- The least time of a command (R235). -/
def CopyCmd.least (m : CopyCmd) : Nat :=
  if m.desc.isEmpty || m.remote || cdSrc m.desc ≠ 1 || cdDst m.desc ≠ 1 then 0
  else max 20 (ceilDiv (m.elems * cdEsize m.desc) 64)

/-- The copy has performed everything, or has failed with nothing left unanswered. -/
def CopyCmd.finished (m : CopyCmd) : Bool := m.reqs.isEmpty && (m.failed || m.elems ≤ m.done.length)

/-- COPY_COMPLETE (R207, R209, R228, R231). -/
def execCopyComplete (core cmd : Nat) (s : State) : Host.Outcome State Fault Refusal :=
  match smFind (s.core core).copyq cmd with
  | none => .next s
  | some m =>
    if !m.finished || s.cyc core < m.issued + m.least then .next s
    else
      let t := cdToken m.desc
      let f := m.far
      let s :=
        if m.remote && m.locked = 2 then
          (if tokPkg t = s.dev.pkgid then s.unlockRemote cmd
           else if (linkFails (s.peer (tokPkg t)).st).isSome then s
           else (s.request (tokPkg t) (.unlock t f.1 f.2.1) none (.copy core cmd []) [] 0 m.gang).2)
        else s
      let s := s.modCore core (fun k => { k.dropLocks cmd with copyq := smDel k.copyq cmd })
      let s := s.batchDone m.gang cmd
      match m.f with
      | some k => .next (s.setFlag m.gang m.slices k)
      | none => .next s

end Sys2Proof.Machine
end

