-- ==== Sys2Proof/Machine/Issue.lean ====
section
/-! DEFINITION. Issue: eligibility, the pick, current charges, and what comes before and after a bundle's slots act (R31,
R35, R38, R39, R84, R93, R102, R103, R147, R175, R253, R321, R372, R384, R386). -/

namespace Sys2Proof.Machine

/-- The type of a vector instruction's result, for its path and charge. -/
def vecType : Instr → Option Ty
  | .vadd o | .vsub o | .vmul o | .vmulh o | .vmin o | .vmax o | .vand o | .vor o | .vxor o | .vshl o | .vshr o | .vrot o
  | .vfadd o | .vfsub o | .vfmul o | .vfmin o | .vfmax o | .vbfx o => some o.ty
  | .vmad o | .vfma o | .vbfi o => some o.ty
  | .vabs o | .vneg o | .vnot o | .vpopc o | .vclz o | .vbrev o | .vfabs o | .vfneg o | .vmov o => some o.ty
  | .vcmp o => some o.ty
  | .vsel o => some o.ty
  | .vred o => some o.ty
  | _ => none

/-- The instruction is a transcendental. -/
def isTrans : Instr → Bool
  | .vrcp _ | .vrsq _ | .vsqrt _ | .vexp2 _ | .vlog2 _ | .vsin _ | .vcos _ | .vtanh _ => true
  | _ => false

/-- The path of R102 that an instruction uses (R147): 0 FP64, 1 transcendental. -/
def pathOf (i : Instr) : Option Nat :=
  if isTrans i then some 1 else if vecType i = some .f64 then some 0 else none

/-- The charge of one slot of a bundle over `n` slices (R386). -/
def charge (n : Nat) (i : Instr) : Nat :=
  match i with
  | .vrcp _ | .vrsq _ | .vsqrt _ | .vexp2 _ | .vlog2 _ | .vsin _ | .vcos _ | .vtanh _ => 3 * n
  | .vcvt _ | .vpack _ | .vunpk _ | .vqnt _ => 2 * n
  | .vred o => if o.ty = .f64 then 3 * n else 2 * n
  | .vote _ | .vballot _ | .shfl _ => n
  | .ld _ | .st _ | .ldsp _ | .stsp _ | .pref _ | .atom _ | .atomq _ | .atomsp _ | .fence _ | .stb _ | .stk _ | .bwait _
  | .strm _ | .strmx | .fput _ | .fwait _ | .bcmin _ | .bcrd _ => n
  | .mma _ => 192
  | .mmac _ => 384
  | .zld _ | .zst _ | .zclr _ | .zret _ | .zretSp _ | .zretG _ => 32
  | .cpy _ | .cpyr _ | .hset _ => 16
  | _ =>
    match vecType i with
    | none => 0
    | some .f64 => 3 * n
    | some .f32 | some .f16 | some .bf16 => 2 * n
    | some _ => n

/-- The charge of a bundle (R386). -/
def bundleCharge (m : Nat) (is : List Instr) : Nat := (is.map (charge (popCount 8 m))).sum

/-- A gang's window at a cycle, before the bundle issuing in it (R386). -/
def Gang.windowSum (g : Gang) (cyc : Nat) : Nat :=
  ((g.window.filter (fun e => cyc < e.1 + 64)).map (·.2)).sum

/-- The lowest class whose limit a window meets, or 7 (R386). -/
def classFor (x : Nat) : Nat := ((List.range 8).find? (fun c => x ≤ classLimit c)).getD 7

/-- The current-exceeded trap (R369, R386): a bundle without charge takes its window above nothing, in the words of R145 and R369
(log entry 80, DEDUCED). -/
def State.currentCheck (s : State) (c : Cursor) (is : List Instr) : Option State :=
  let g := s.gang c.gang
  let w := g.windowSum c.cyc + bundleCharge c.slices is
  if 0 < bundleCharge c.slices is && classLimit g.curcls < w then
    some (s.preTrap c 5 (g.curcls + 256 * classFor w))
  else none

/-- LDQ entries a bundle's naming of Q pops (R93). -/
def popsOf (is : List Instr) : Nat :=
  match (is.flatMap instrOpds).find? (fun o => o.2 = .q) with
  | none => 0
  | some o => if is64 o.1 then 2 else 1

/-- The entries that a pop takes: the oldest, or in a handler the oldest not captured (R374). -/
def Gang.popList (g : Gang) (m k n : Nat) : List LdqEntry :=
  let es := (g.slice k).ldq
  (if g.inHandler m then es.filter (fun e => !e.cap) else es).take n

/-- An entry's lanes have all arrived. -/
def LdqEntry.ready (e : LdqEntry) : Bool := e.need = 0

/-- Every slice of the part has the entries that the bundle pops (R93). -/
def Gang.qReady (g : Gang) (m n : Nat) : Bool :=
  (bitsOf 8 m).all (fun k => decide ((g.popList m k n).length = n) && (g.popList m k n).all LdqEntry.ready)

/-- LAQ and LDQ entries that a memory instruction needs on each slice (R174, R175, R178, R380). -/
def needsOf : Instr → Nat × Nat
  | .ld o | .ldsp o => (entriesOf o.ty, entriesOf o.ty)
  | .atomq o | .atomsp o => (laqOf (o.op = .cas) o.ty, entriesOf o.ty)
  | .fwait o => (entriesOf o.ty, entriesOf o.ty)
  | .bcrd o => (entriesOf o.ty, entriesOf o.ty)
  | .st o => (entriesOf o.ty, 0)
  | .stb o | .stk o => (entriesOf o.ty, 0)
  | .atom o => (laqOf (o.op = .cas) o.ty, 0)
  | .fput o => (entriesOf o.ty, 0)
  | _ => (0, 0)

/-- Memory and stream instructions have room (R103, R175, R198, R363). -/
def State.memRoom (s : State) (u m : Nat) (i : Instr) : Bool :=
  let g := s.gang u
  let (a, n) := needsOf i
  let room := (bitsOf 8 m).all (fun k => (a = 0 || g.laqHeld k + a ≤ 32) && (n = 0 || (g.slice k).ldq.length + n ≤ 32))
  match i with
  | .strm _ => (s.core g.core).locks.length < 32
  | .stb _ => s.batonCount < 4096 && room
  | _ => room

/-- The instruction places a command in the matrix queue (R206). -/
def isMatrix : Instr → Bool
  | .mma _ | .mmac _ | .zld _ | .zst _ | .zclr _ | .zret _ | .zretSp _ | .zretG _ => true
  | _ => false

/-- The instruction places a command in the copy queue (R206). -/
def isCopy : Instr → Bool
  | .cpy _ | .cpyr _ | .hset _ => true
  | _ => false

/-- The instruction is of the copy-or-matrix slot. -/
def isX : Instr → Bool
  | .cpseal _ | .cpwait _ => true
  | i => isMatrix i || isCopy i

/-- The checks that come before a copy's room (R229, R372). -/
def State.beforeRoom (s : State) (c : Cursor) (is : List Instr) : Option State :=
  firstOf (is.map (s.checkMode c) ++ [s.currentCheck c is] ++ is.map (s.memChecks c) ++ is.map (s.xChecks c))

/-- Copy-or-matrix instructions have queue entries, range-lock entries and batches free (R103, R207, R231). -/
def State.xRoom (s : State) (c : Cursor) (is : List Instr) (i : Instr) : Bool :=
  let k := s.core (s.gang c.gang).core
  match i with
  | .cpseal _ => (s.gang c.gang).batches.length < 16 || (s.gang c.gang).openBatch.isEmpty
  | _ =>
    if isMatrix i then k.matq.length < 8 && k.locksFit (s.cmdLocks c [] 0 i)
    else if isCopy i then
      let d := match i with
        | .cpy o | .cpyr o => s.copyDesc c (s.readS c o.sx)
        | _ => []
      -- room comes last of the checks of R229: a bundle that they stop is not held for it
      (k.copyq.length < 16 && k.locksFit (s.cmdLocks c d 0 i)) || (s.beforeRoom c is).isSome
    else true

/-- Keys of the paths that an instruction of a part needs (R102). -/
def Gang.pathKeys (g : Gang) (m : Nat) (i : Instr) : List Nat :=
  match pathOf i with
  | none => []
  | some p => (bitsOf 8 m).map (fun k => (g.quarter * 8 + g.base + k) * 2 + p)

/-- The paths that a bundle needs are free (R102). -/
def Core.pathsFree (k : Core) (cyc : Nat) (keys : List Nat) : Bool := keys.all (fun x => smGet 0 k.paths x ≤ cyc)

/-- A part's next bundle as it would issue: its cursor, and its decoded slots or the slot and reason of a refusal. -/
inductive Next where
  | bundle (c : Cursor) (h : Header) (is : List Instr)
  | refused (slot reason : Nat)
  /-- The code page is in flight. -/
  | wait
  | bad (cause detail : Nat)

/-- The code of a slot in a refusal (R110): 0 header, 1 vector, 2 memory, 3 copy-or-matrix, 4 control. -/
def slotCode : Slot → Nat
  | .hdr => 0 | .v => 1 | .m => 2 | .x => 3 | .c => 4

/-- Fetch and decode the next bundle of the part of gang slice `k`. -/
def State.nextBundle (s : State) (u k : Nat) : Next :=
  let g := s.gang u
  let m := match g.part k with
    | none => 0
    | some p => p.slices
  let pc := g.pcOf m
  match s.fetch g.ctx pc with
  | .wait => .wait
  | .bad cause detail => .bad cause detail
  | .ok bs =>
    match decodeBytes bs with
    | .error e => .refused (slotCode e.1) e.2
    | .ok b =>
      let n := popsOf b.instrs
      let c : Cursor :=
        { gang := u, part := lowSlice m, slices := m, pc := pc, next := wrap64 ((pc : Int) + 4 * (b.h.words : Nat)),
          gap := b.h.gapCycles, cyc := s.cyc g.core, check := b.h.check,
          q := (bitsOf 8 m).map (fun k => (k, g.popList m k n)), desc := [], checked := false, draw := s.serial }
      .bundle c b.h b.instrs

/-- The WAITF of a bundle, if it has one. -/
def waitfOf (is : List Instr) : Option (Nat × Bool) :=
  is.findSome? (fun i => match i with
    | .waitf m a => some (m.toNat, a)
    | _ => none)

/-- What keeps the part's next bundle from issuing, its issue-ready cycle and state aside (R31, R93, R102, R103, R134, R175,
R178, R231). -/
def State.bundleFree (s : State) (u k : Nat) : Bool :=
  match s.nextBundle u k with
  | .wait => false
  | .bad _ _ | .refused _ _ => true
  | .bundle c _ is =>
    let g := s.gang u
    g.qReady c.slices (popsOf is)
      && is.all (fun i => s.memRoom u c.slices i && s.xRoom c is i)
      && (s.core g.core).pathsFree c.cyc (is.flatMap (g.pathKeys c.slices))
      && (match waitfOf is with
        | none => true
        | some (m, a) => g.flagsHold c.slices c.cyc m a)

/-- A hold that keeps the next bundle from issuing. -/
def Hold.bars : Hold → Bool
  | .marked _ => false
  | _ => true

/-- Power controls let the cluster issue in this cycle (R385, R388). -/
def Cluster.mayIssue (k : Cluster) : Bool :=
  k.change.isNone && !((k.hot105 || k.overI) && k.cyc % 2 = 1)

/-- The gang may issue at all: live, not stopped, in a group that runs, on a cluster that issues. -/
def State.gangRuns (s : State) (u : Nat) : Bool :=
  let g := s.gang u
  let x := s.group g.group
  g.live && g.stopped.isNone && (x.st = .resident || x.st = .draining) && !x.rolling && (s.cluster (clusterOf g.core)).mayIssue

/-- The part may issue as far as its own state goes (R31, R36, R84, R178, R187). -/
def State.partRuns (s : State) (u : Nat) (p : Part) : Bool :=
  let g := s.gang u
  p.holds.all (fun h => !h.bars) && p.stop.isNone
    && (bitsOf 8 p.slices).all (fun k =>
      (match (g.slice k).curSet with
       | none => false
       | some y => y.st = .run) && g.laqClear k)
    && g.readyOf p.slices ≤ s.cyc g.core
    && !(g.replaying p.slices)

/-- The part of gang slice `k` is an eligible issuer (R38). -/
def State.eligible (s : State) (u k : Nat) : Bool :=
  match (s.gang u).part k with
  | none => false
  | some p => s.gangRuns u && s.partRuns u p && s.bundleFree u (lowSlice p.slices)

/-- The gang's group has parked in the current cycle, and the gang with it (R317). -/
def State.justParked (s : State) (u : Nat) : Bool :=
  let g := s.gang u
  (s.group g.group).st = .parked && g.stopped = some (s.cyc g.core)

/-- The machine as it was for gangs whose group has parked in the cycle, before it parked: faults before the issue of several gangs in
one cycle all count (R317). -/
def State.asRunning (s : State) (us : List Nat) : State :=
  (us.filter s.justParked).foldl (fun s u =>
    (s.modGroup (s.gang u).group (fun y => { y with st := y.from_ })).modGang u (fun g => { g with stopped := none })) s

/-- The class that ranks an issuer of a gang (R38, R54). -/
def Gang.rankClass (g : Gang) : Nat := if g.raised then min 7 (g.cls + 1) else g.cls

/-- An issuer of a quarter. -/
structure Issuer where
  u : Nat
  k : Nat
  prom : Option Nat
  cls : Nat
  phys : Nat
  x : Bool
  yielded : Bool
  deriving DecidableEq, Repr

/-- Issuer `a` ranks above issuer `b` (R38). -/
def Issuer.above (a b : Issuer) : Bool :=
  let tie := if a.cls ≠ b.cls then decide (b.cls < a.cls) else if a.u ≠ b.u then decide (a.u < b.u) else decide (a.k < b.k)
  match a.prom, b.prom with
  | some x, some y => if x ≠ y then decide (x < y) else tie
  | some _, none => true
  | none, some _ => false
  | none, none => tie

/-- The highest-ranking issuer of a list. -/
def bestIssuer : List Issuer → Option Issuer
  | [] => none
  | x :: xs => some (xs.foldl (fun b y => if y.above b then y else b) x)

/-- The eligible issuers of a quarter. -/
def State.issuers (s : State) (core quarter : Nat) : List Issuer :=
  let gs := s.gangs.filter (fun e => e.2.live && e.2.core = core && e.2.quarter = quarter)
  gs.flatMap (fun e => e.2.parts.filterMap (fun p =>
    let k := lowSlice p.slices
    if s.eligible e.1 k then
      some { u := e.1, k := k, prom := p.promoted, cls := e.2.rankClass, phys := p.slices * 2 ^ e.2.base, yielded := p.yielded
             x := match s.nextBundle e.1 k with
               | .bundle _ _ is => is.any isX
               | _ => false }
    else none))

/-- The two picks of a quarter (R38): an issuer that yields stands back when another is eligible (R253). -/
def pickTwo (l : List Issuer) : List Issuer :=
  let l' := if l.length ≤ 1 then l else l.filter (fun x => !x.yielded)
  match bestIssuer l' with
  | none => []
  | some a =>
    match bestIssuer (l'.filter (fun b => b.phys &&& a.phys = 0 && !(a.x && b.x))) with
    | none => [a]
    | some b => [a, b]

/-- Parts blocked at a WAITF go on once its condition holds in every slice of the part; a deferred lane set stands alone
(R134). Parts whose WAITF does not hold block. -/
def State.serveWaitf (s : State) (u : Nat) : State :=
  let t := s.cycOf u
  let holds := fun (g : Gang) (k : Nat) (y : LaneSet) => match y.st with
    | .waitf m a =>
      let cur := (g.slice k).curSet = some y
      let ms := if cur then (match g.part k with
        | none => 2 ^ k
        | some p => p.slices) else 2 ^ k
      g.flagsHold ms t m a
    | _ => false
  let g := s.gang u
  let s := if (List.range g.slices.length).any (fun k => (g.slice k).sets.any (fun e => holds g k e.2)) then
      s.modGang u (fun g => g.wake 0 (fun k y => holds g k y))
    else s
  (s.gang u).parts.foldl (fun s p =>
    if s.gangRuns u && s.partRuns u p then
      (match s.nextBundle u (lowSlice p.slices) with
       | .bundle c _ is =>
         (match waitfOf is with
          | some (m, a) =>
            if (s.gang u).flagsHold c.slices t m a then s
            else s.modGang u (fun g => g.block c.slices (.waitf m a) c.pc c.pc)
          | none => s)
       | _ => s)
    else s) s

/-- A lane waits on a peer in RECOVERY (R384): for an answer of the peer, or in the replay buffer for a move from it. -/
def State.onRecovery (s : State) (ctx : Nat) (l : AccLane) : Bool :=
  match l.st with
  | .sent r => (s.peer (s.req r).peer).st = .recovery
  | .replay => s.moves.any (fun m =>
      m.ctx = ctx && m.vpage = l.addr / 0x10000 && entKind m.old = 1 && (s.peer (entPeer m.old)).st = .recovery)
  | _ => false

/-- Every wait of the part is on a peer in RECOVERY, so that the watchdog is suspended for it (R384): every replay lane of it, every head
that a Q pop awaits, and a held FENCE, BWAIT or CPWAIT with an outstanding access to such a peer. -/
def State.suspended (s : State) (u : Nat) (p : Part) : Bool :=
  let g := s.gang u
  let replays := g.accs.any (fun e => !e.2.strm && e.2.lanes.any (fun l => l.st.buffered && p.slices.testBit (l.lane / 8)))
  let moving := g.accs.all (fun e => e.2.strm || e.2.lanes.all (fun l => !(l.st.buffered && p.slices.testBit (l.lane / 8)) || s.onRecovery g.ctx l))
  if (bitsOf 8 p.slices).any (fun k => (g.slice k).curSet.any (fun y => y.st ≠ .run)) then false
  else if !p.holds.isEmpty then
    (!replays || moving) && p.holds.all (fun h => match h with
      | .fence .. | .bwait _ | .cpwait _ => true
      | _ => false)
      && (g.accs.any (fun e => e.2.lanes.any (fun l => !l.st.buffered && s.onRecovery g.ctx l))
        || s.link.reqs.any (fun e => e.2.gang = u && (s.peer e.2.peer).st = .recovery))
  else
    let n := match s.nextBundle u (lowSlice p.slices) with
      | .bundle _ _ is => popsOf is
      | _ => 0
    let pops := n ≠ 0 && !(g.qReady p.slices n)
    (replays || pops) && (!replays || moving) && (!pops || (bitsOf 8 p.slices).all (fun k =>
      n ≤ (g.popList p.slices k n).length && (g.popList p.slices k n).all (fun e => e.ready || (g.acc e.acc).lanes.any (s.onRecovery g.ctx)
        && (g.acc e.acc).lanes.all (fun l => l.st = .done || l.st = .arriving || s.onRecovery g.ctx l))))

/-- Count a cycle against the watchdog of a gang's parts and switched-away lane sets (R384). -/
def State.watch (s : State) (u : Nat) : State :=
  let g := s.gang u
  let x := s.group g.group
  if !g.live || g.stopped.isSome || !(x.st = .resident || x.st = .draining) then s
  else
    let lim := (s.ctx g.ctx).limit
    let s := s.modGang u (fun g => { g with
      parts := g.parts.map (fun p => if s.suspended u p then p else { p with idle := p.idle + 1 })
      slices := g.slices.map (fun y => { y with sets := y.sets.map (fun e =>
        if some e.1 ≠ y.cur && e.2.st ≠ .run then (e.1, { e.2 with idle := e.2.idle + 1 }) else e) }) })
    let g := s.gang u
    let due := fun (k : Nat) (e : Nat × LaneSet) =>
      if some e.1 = (g.slice k).cur then g.parts.any (fun p => lim ≤ p.idle && lowSlice p.slices = k)
      else decide (e.2.st ≠ .run ∧ lim ≤ e.2.idle)
    let hits := (List.range g.slices.length).flatMap (fun k => ((g.slice k).sets.filter (due k)).map (fun e => (k, e.1)))
    hits.foldl (fun s x => s.later (.watchdogExpiry u x.1 x.2)) s

/-- Age the eligible issuers that neither pick took (R39). -/
def State.age (s : State) (l : List Issuer) : State :=
  l.foldl (fun s x =>
    let s := s.modGang x.u (fun g => g.modPart x.k (fun p => { p with aging := p.aging + 1 }))
    let old := ((s.gang x.u).part x.k).any (fun p => p.aging = 256 && p.promoted.isNone)
    if old then s.later (.promotion x.u x.k) else s) s

/-- QUARTER_ISSUE_PICK (R38, R39): the picks of a quarter in this cycle, which the next steps issue in order
(log entry 1, DESIGN CHOICE). -/
def execQuarterIssuePick (core quarter : Nat) (s : State) : Host.Outcome State Fault Refusal :=
  let us := (s.gangs.filter (fun e => e.2.live && e.2.core = core && e.2.quarter = quarter)).map (·.1)
  let s := us.foldl State.serveWaitf s
  let s := us.foldl State.watch s
  let l := (s.asRunning us).issuers core quarter
  let two := pickTwo l
  -- a YIELD's mark is spent in the issuer's next eligible cycle (R253)
  let s := l.foldl (fun s x => s.modGang x.u (fun g => g.modPart x.k (fun p => { p with yielded := false }))) s
  let s := s.age (l.filter (fun x => !(two.any (fun y => y.u = x.u && y.k = x.k))))
  .next { s with picked := s.picked ++ two.map (fun x => (x.u, x.k)) }

/-- PROMOTION (R39). -/
def execPromotion (gang part : Nat) (s : State) : Host.Outcome State Fault Refusal :=
  let t := s.cycOf gang
  .next (s.modGang gang (fun g => g.modPart part (fun p =>
    if 256 ≤ p.aging && p.promoted.isNone then { p with promoted := some t } else p)))

/-- REGANG_RELEASE (R35, R37). -/
def execRegangRelease (gang : Nat) (s : State) : Host.Outcome State Fault Refusal :=
  .next (s.modGang gang Gang.regang)

/-- The bundle commits its group's interval (R321). -/
def commits (scratch : Bool) : Instr → Bool
  | .atom _ | .atomq _ | .stb _ | .stk _ | .zretG _ | .mma _ | .mmac _ | .zld _ | .zclr _ | .fork .. | .launch .. => true
  | .cpy _ => !scratch
  | .cpyr _ => !scratch
  | .fwait o => o.take
  | _ => false

/-- The bundle of a cursor has been checked and issues: Q is popped, the part moves on, its charge and paths are taken, and
its counters are cleared (R39, R84, R93, R102, R117, R321, R384, R386). -/
def State.commence (s : State) (c : Cursor) (is : List Instr) : State :=
  let n := popsOf is
  let g0 := s.gang c.gang
  let pop := fun (k : Nat) (x : Slice) =>
    let gone := g0.popList c.slices k n
    let (keep, _) := x.ldq.foldl (fun (a : List LdqEntry × List LdqEntry) e =>
      match a.2 with
      | y :: ys => if e = y then (a.1, ys) else (a.1 ++ [e], a.2)
      | [] => (a.1 ++ [e], [])) ([], gone)
    { x with ldq := keep }
  let w := bundleCharge c.slices is
  let s := s.modGang c.gang (fun g =>
    let g := (g.modCurs c.slices (fun y => { y with pc := c.next, nxt := c.next, ready := c.cyc + c.gap, edge := false, jumped := false })).modPart c.part
      (fun p => { p with aging := 0, promoted := none, idle := 0 })
    { g with
      slices := g.slices.mapIdx (fun k x => if c.slices.testBit k then pop k x else x)
      window := (if w = 0 then [] else [(c.cyc, w)]) ++ g.window.filter (fun e => c.cyc < e.1 + 64) })
  let keys := is.flatMap (g0.pathKeys c.slices)
  let s := if keys.isEmpty then s else
    s.modCore g0.core (fun k => { k with paths := keys.foldl (fun m x => smSet 0 m x (c.cyc + 4)) (k.paths.filter (fun e => c.cyc < e.2)) })
  let s := if is.any (fun i => isMatrix i || isCopy i) then s.modCore g0.core (fun k => { k with served := g0.quarter }) else s
  let s := if is.any (commits (cdDst c.desc = 1)) then s.modGroup g0.group (fun x => { x with commit := true }) else s
  let now := s.time
  (s.modCluster (clusterOf g0.core) (fun k => { k with lastIssue := now })).tickSerial

/-- What becomes of a picked part. -/
inductive Begin where
  | stop (s : State)
  | slots (s : State) (is : List Instr)
  | refused (slot reason : Nat)

/-- The bundle holds a MARK that acts and that the pacer has not answered: the lap and its `.wait` form (R245). -/
def State.marking (s : State) (c : Cursor) (is : List Instr) : Option (Nat × Bool) :=
  is.findSome? (fun i => match i with
    | .mark g n => if s.acts c g && !((s.gang c.gang).lapMarked c.part (s.src16 c n)) then some (s.src16 c n, false) else none
    | .markWait g n => if s.acts c g && !((s.gang c.gang).lapMarked c.part (s.src16 c n)) then some (s.src16 c n, true) else none
    | _ => none)

/-- A pick whose group another pick of the same cycle has just parked: a system fault before the issue of its own bundle counts too, and
the record names the lowest gang index (R317). -/
def State.lateFault (s : State) (u k : Nat) : State :=
  let g := s.gang u
  let x := s.group g.group
  if !(s.justParked u) || !x.fault.any (fun f => g.idx < f.gang) then s
  else
    let v := s.asRunning [u]
    if !(v.eligible u k) then s
    else
      let r := match v.nextBundle u k with
        | .bad cause detail =>
          let pc := g.pcOf (2 ^ k)
          if cause = 3 && detail = 4 then v else v.sysFault u cause pc pc detail
        | .bundle c _ is => (v.preAll c is (v.currentCheck c is) none).getD v
        | _ => v
      match (r.group g.group).st, (r.group g.group).fault with
      | .parked, some f => s.park g.group f
      | _, _ => s

/-- The scratchpad ranges that an instruction, or the engine command or stream that it starts, reads. -/
def State.spadReads (s : State) (c : Cursor) (desc : List Nat) (i : Instr) : List (Nat × Nat) :=
  let each := fun (l : List (Nat × Nat)) n => l.map (fun e => (e.2, n))
  (match i with
   | .ldsp o => each (s.addrs c o.g o.at_ o.off.toInt) (sizeOf o.ty)
   | .atomsp o => each (s.addrs c o.g o.at_ o.off.toInt) (sizeOf o.ty)
   | .fwait o => if inSpad o.scope then each (s.addrs c o.g o.at_ o.off.toInt) 8 else []
   | .strm o =>
     let a := wrap64 (s.readS c o.base + o.off.toInt)
     let d := s.strmDesc c a
     let e := normExt (sdExtent d o.ty (s.partLanes c))
     (a, 64) :: (if sdSpace d = 2 then [(e.1, e.2 - e.1)] else [])
   | .cpy o | .cpyr o => [(s.readS c o.sx, 96)]
   | .hwait _ x => [(s.readS c x, 16)]
   | _ => [])
  ++ ((s.cmdLocks c desc 0 i).filter (fun l => !l.dest && !l.glob)).map (fun l => (l.lo, l.hi - l.lo))

/-- The tiles that an instruction's engine command reads (R206, R214, R219). -/
def tileReads : Instr → List Nat
  | .mma o => [o.zt.val]
  | .mmac o => [o.zt.val, o.zu.val]
  | .zst o | .zretSp o | .zretG o => [o.zt.val]
  | _ => []

/-- An instruction, or the engine command that it starts, reads a word of the pool that an error has hit (R383): a V register of an
active lane, or of every live lane for the A of a matrix command, a scratchpad word, or a word of a tile. -/
def State.readsBad (s : State) (c : Cursor) (desc : List Nat) (i : Instr) : Bool :=
  let g := s.gang c.gang
  let x := s.group g.group
  let act := match instrGuard i with
    | none => s.partLanes c
    | some gd => s.active c gd
  let vs := (instrOpds i).flatMap (fun o => opdV o.1 o.2)
  g.badV.any (fun k => (act.contains (k / 256) && vs.contains (k % 256)) || (g.liveLanes.contains (k / 256) && (s.aRegs c i).contains (k % 256)))
    || (!x.badSpad.isEmpty && (s.spadReads c desc i).any (fun r => x.badSpad.any (fun w => overlaps (4 * w) 4 r.1 r.2)))
    || x.badZ.any (fun k => (tileReads i).contains (k / 4096))

/-- A picked part starts to issue (R372): a bundle that a check stops does not issue, and a MARK first asks the pacer. A POISONED page of code
is consumed (R338), and so is a bad word of the pool that the bundle reads (R383). A page that has lost X refuses the target of an indirect transfer with subcode 4 (R302). -/
def State.begin (s : State) (u k : Nat) : Begin :=
  let g := s.gang u
  if !(s.eligible u k) then .stop (s.lateFault u k)
  else if g.tainted then .stop ((s.modGang u (fun g => { g with tainted := false })).later (.uncorrectableErrorConsumed g.group u 7))
  else
    match s.nextBundle u k with
    | .wait => .stop s
    | .bad cause detail =>
      let pc := g.pcOf (2 ^ k)
      let far := (g.slice k).curSet.any (fun y => y.jumped)
      if cause = 3 && detail = 4 then .stop (s.later (.uncorrectableErrorConsumed g.group u 4)) else
      .stop (s.sysFault u cause pc pc (if far && detail = 21 then 4 else detail))
    | .refused a b => .refused a b
    | .bundle c _ is =>
      let d := (is.findSome? (fun i => match i with
        | .cpy o | .cpyr o => some (s.copyDesc c (s.readS c o.sx))
        | _ => none)).getD []
      let c := { c with desc := d }
      match s.preAll c is (s.currentCheck c is) none with
      | some s' => .stop s'
      | none =>
        if is.any (s.readsBad c d) then .stop (s.later (.uncorrectableErrorConsumed g.group u 1)) else
        match s.marking c is with
        | some (lap, w) => .stop (s.hold u k (.mark lap w))
        | none =>
          let s := s.commence c is
          .slots { s with cur := some { c with checked := true } } is

/-- A bundle's slots have acted: the writes of a gang that stops land (R117, R317), new lane sets wait at regang bundles, slices switch, and the part divides as its lane sets
have (R32, R34, R35). -/
def State.finish (s : State) : State :=
  match s.cur with
  | none => s
  | some c =>
    let s := if (s.gang c.gang).stopped.isSome then s.modGang c.gang (fun g => g.landEvery c.cyc) else s
    let s := s.arriveSets c.gang (fun y => y.created = c.cyc && y.ready = c.cyc + c.gap)
    let s := s.arriveCurs c.gang c.slices
    { s.modGang c.gang (fun g => g.repart c.slices) with cur := none }

end Sys2Proof.Machine
end

