-- ==== Sys2Proof/Machine/PageOps.lean ====
section
/-! DEFINITION. Pages: the pacer's free HBM, changing the translation of a page, local copies of replicas, and the end of a
shoot-down (R273, R283, R338, R341, R343, R346, R350, R352). -/

namespace Sys2Proof.Machine

/-- 64 KiB units of local HBM that some page maps. -/
def State.mappedUnits (s : State) : List Nat :=
  s.ctxs.flatMap (fun c => c.2.pages.filterMap (fun p =>
    match s.walk c.1 (p.1 * 0x10000) with
    | .leaf e base _ => if entKind e = 0 then some ((entAddr e + (p.1 * 0x10000 - base)) / 0x10000) else none
    | _ => none))

/-- Units that the pacer may not allocate (R341, R352): those that hold the root table of a context among them (R281). -/
def State.usedUnits (s : State) : List Nat :=
  s.alloc ++ s.failed ++ s.mappedUnits ++ (s.ctxs.filter (fun c => c.1 ≠ safeCtx)).map (fun c => c.2.root / 0x10000)

/-- Units per die. -/
def dieUnits : Nat := 0x180000
/-- The table region in units (log entry 6, DESIGN CHOICE). -/
def tableUnits : Nat × Nat := (0xB0000, 0xC0000)

/-- Free units of a die. -/
def freeUnits (used : List Nat) (d : Nat) : Nat :=
  dieUnits - ((used.eraseDups.filter (fun u => u / dieUnits = d)).length + (if d = 0 then 0x10000 else 0))

/-- The first aligned run of `n` free units below `hi` (log entry 21, DESIGN CHOICE). -/
def firstFree (used : List Nat) (n hi : Nat) : Nat → Nat → Option Nat
  | 0, _ => none
  | f + 1, b =>
    if hi < b + n then none
    else if b < tableUnits.2 && tableUnits.1 < b + n then firstFree used n hi f tableUnits.2
    else
      match used.find? (fun u => b ≤ u && u < b + n) with
      | some u => firstFree used n hi f ((u / n + 1) * n)
      | none => some b

/-- The die with the most free space (R341). -/
def roomiest (used : List Nat) : Nat :=
  [1, 2, 3].foldl (fun b d => if freeUnits used b < freeUnits used d then d else b) 0

/-- Allocate and zero a page of a size, on a die or on the roomiest (R341). -/
def State.allocPage (s : State) (size : Nat) (die : Option Nat) : Option (Nat × State) :=
  let used := s.usedUnits
  let d := die.getD (roomiest used)
  let n := size / 0x10000
  match firstFree used n ((d + 1) * dieUnits) (used.length + 2) (d * dieUnits) with
  | none => none
  | some u =>
    let pa := u * 0x10000
    some (pa, ({ s with
      alloc := s.alloc ++ (List.range n).map (fun i => u + i)
      mem := Memory.clear s.mem pa size
      futs := s.futs.filter (fun a => !(pa ≤ a && a < pa + size)) } : State).unmark pa size)

/-- Acknowledge the pages of a range on which lanes or copies wait (R342). -/
def State.ackRange (s : State) (c va size : Nat) : State :=
  let in_ := fun (p : Nat) => decide (va / 0x10000 ≤ p ∧ p < (va + size) / 0x10000)
  let lanes := (s.everyGangOfCtx c).flatMap (fun u => (s.gang u).accs.flatMap (fun e =>
    e.2.lanes.filterMap (fun l => if l.st = .replay && in_ (l.addr / 0x10000) then some (l.addr / 0x10000) else none)))
  let known := s.dies.flatMap (fun d => d.2.merge.flatMap (fun m => if m.ctx = c then m.faults.filter in_ else []))
  ((va / 0x10000) :: (lanes ++ known)).eraseDups.foldl (fun s p => s.ackPage c p) s

/-- Records for the 64 KiB pieces of a range (R338). -/
def State.putPages (s : State) (c va size : Nat) (r : PageRec) : State :=
  s.modCtx c (fun x => { x with
    pages := (List.range (size / 0x10000)).foldl (fun m i => smPut m (va / 0x10000 + i) r) x.pages })

/-- Pages that are no longer executable leave the proofs of their context (R81, R111). -/
def State.dropProofs (s : State) (c va size : Nat) : State :=
  let out := fun (x : Nat) => !(decide (va / 0x10000 ≤ x ∧ x < (va + size) / 0x10000))
  let cut := fun (p : Proof) => if p.ctx = c then ({ p with pages := p.pages.filter out } : Proof) else p
  { s with proofs := (s.proofs.map cut).filter (fun p => !p.pages.isEmpty) }

/-- Units of a context's spill area that hold evicted pages of a range (R341). -/
def State.spilledIn (s : State) (c : Nat) (in_ : Nat → Bool) : List Nat :=
  match (s.ctx c).spill with
  | none => []
  | some (lo, _) => ((s.ctx c).pages.filter (fun p => in_ p.1)).filterMap (fun p =>
      match s.walk c (p.1 * 0x10000) with
      | .leaf e base _ =>
        let io := entAddr e + (p.1 * 0x10000 - base)
        if entKind e = 2 && lo ≤ io && (s.ctx c).spillUsed.contains ((io - lo) / 0x10000) then some ((io - lo) / 0x10000) else none
      | _ => none)

/-- The translation of a page is removed (R283, R341): HBM that the pacer allocated for it is free, and so is its place in the spill
area, and requests to the host for it are dropped. -/
def State.clearPage (s : State) (c va size : Nat) : State :=
  let in_ := fun (p : Nat) => decide (va / 0x10000 ≤ p ∧ p < (va + size) / 0x10000)
  let own := ((s.ctx c).pages.filter (fun p => in_ p.1 && p.2.owned)).filterMap (fun p =>
    match s.walk c (p.1 * 0x10000) with
    | .leaf e base _ => if entKind e = 0 then some ((entAddr e + (p.1 * 0x10000 - base)) / 0x10000) else none
    | _ => none)
  let spilled := s.spilledIn c in_
  let s := s.modCtx c (fun x => { x with spillUsed := x.spillUsed.filter (fun k => !(spilled.contains k)) })
  let s : State := { s with
    alloc := s.alloc.filter (fun u => !(own.contains u)), pageReqs := s.pageReqs.filter (fun p => !(p.1 = c && in_ p.2))
    asks := s.asks.filter (fun a => !(a.2.1 = c && in_ (a.2.2 / 0x10000))) }
  let s := own.foldl (fun s u => s.dropL1 (u * 0x10000) 0x10000) (s.dropProofs c va size)
  ((s.setPage c va size 0).dropTlb c va size).modCtx c (fun x => { x with pages := x.pages.filter (fun p => !(in_ p.1)) })

/-- The state of a page that a leaf of a kind maps (R338). -/
def kindState (k : Nat) : PState := if k = 0 then .resident else if k = 1 then .remote else .host

/-- The attribute of the page that holds a piece is revoked (R350): it is writable, RESIDENT or REMOTE, L1 lines that were read
during the shoot-down go, and the waiting lanes are replayed. -/
def State.openPage (s : State) (c vpage : Nat) : State :=
  let s := s.dropCopy c vpage
  let va := vpage * 0x10000
  match s.walk c va with
  | .leaf e base size =>
    if !(entRo e) then s.ackPage c vpage
    else
      let s := if entKind e = 0 then s.dropL1 (entAddr e) size else s
      let e' := mkLeaf (entAddr e) (entKind e) (entPeer e) true false false
      ((((s.dropProofs c base size).setPage c base size e').dropTlb c base size).modPages c base size
        (fun r => { r with st := kindState (entKind e), wrev := false })).ackPage c vpage
  | _ => s.ackPage c vpage

/-- Launches of a context that run under a timetable: queue and sequence number. -/
def State.timed (s : State) (c : Nat) : List (Nat × Nat) :=
  (s.ctx c).queues.flatMap (fun q => q.2.launches.filterMap (fun l =>
    if l.2.ttOn && (l.2.st = 1 || l.2.st = 2) then some (q.1, l.1) else none))

/-- Change the timetable entry of a move's launch. -/
def State.modEntry (s : State) (m : Move) (f : TtEntry → TtEntry) : State :=
  s.modLaunch m.ctx m.q m.seq (fun l => { l with tt := setNth l.tt m.entry f })

/-- An entry that has begun is carried out once none of its moves is left and none has failed (R346, R347). -/
def State.settleEntry (s : State) (m : Move) : State :=
  match (s.launch m.ctx m.q m.seq).tt[m.entry]? with
  | none => s
  | some e =>
    if e.st = 1 && e.fails.isEmpty && !(s.moves.any (fun x => !x.auto && x.ctx = m.ctx && x.q = m.q && x.seq = m.seq && x.entry = m.entry)) then
      (s.modEntry m (fun e => { e with st := 2 })).modLaunch m.ctx m.q m.seq (fun l => { l with completed := l.completed + 1 })
    else s

/-- A move is over (R343, R347): its launch counts it, or every launch of the context under a timetable counts an automatic
one. `n` bytes have moved; a failure is logged. -/
def State.moveOver (s : State) (m : Move) (ok : Bool) (n : Nat) : State :=
  let s : State := { s with moves := s.moves.filter (fun x => x ≠ m) }
  let s := if ok then s else s.note (.moveFailed m.ctx m.vpage)
  if m.auto then
    (s.timed m.ctx).foldl (fun s l => s.modLaunch m.ctx l.1 l.2 (fun l =>
      if ok then { l with autoMoves := l.autoMoves + 1 } else { l with failed := l.failed + 1 })) s
  else if ok then
    (s.modLaunch m.ctx m.q m.seq (fun l =>
      if m.out then { l with evicted := l.evicted + n } else { l with fetched := l.fetched + n })).settleEntry m
  else
    (s.modEntry m (fun e => { e with fails := m.vpage :: e.fails })).modLaunch m.ctx m.q m.seq (fun l => { l with failed := l.failed + 1 })


/-- A move is abandoned (R343): the old entry is restored, the space it took is free, and the failure counts. -/
def State.abandonMove (s : State) (m : Move) : State :=
  let va := m.vpage * 0x10000
  let s := (s.setPage m.ctx va 0x10000 m.old).modPages m.ctx va 0x10000
    (fun r => { r with st := if entRo m.old && entKind m.old ≠ 2 then .replica else kindState (entKind m.old), entry := 0 })
  (s.freeMoveSpace m).moveOver m false 0

/-- Moves of a page that the host does not supply are given up, one from the host's space that is under way among them (R343). -/
def State.dropMoves (s : State) (c vpage : Nat) : State :=
  (s.moves.filter (fun m => m.ctx = c && m.vpage = vpage && (!m.began || entKind m.old = 2))).foldl (fun s m =>
    if m.began then s.abandonMove m else s.moveOver m false 0) s

/-- A lane or an engine still uses a translation of a range from before access number `upTo` (R283): it has been sent, or it waits in
the hold queue. -/
def State.oldUse (s : State) (c va len upTo : Nat) : Bool :=
  (s.everyGangOfCtx c).any (fun u => (s.gang u).accs.any (fun e => !e.2.sp && e.2.lanes.any (fun l =>
    decide (va ≤ l.addr ∧ l.addr < va + len) && (match l.st with
    | .sent r | .held r => decide (r < upTo)
    | _ => false))))
    || s.link.reqs.any (fun e => e.1 < upTo && (s.gang e.2.gang).ctx = c && (match e.2.origin with
      | .copy _ _ els => !els.isEmpty
      | .mat _ _ => true
      | _ => false))

/-- Every read here that was served from a replica before the shoot-down has been delivered (R273, step 2). -/
def State.readsOver (s : State) (x : Shoot) : Bool :=
  (s.everyGangOfCtx x.ctx).all (fun u => (s.gang u).accs.all (fun e => e.2.sp || x.upTo ≤ e.1 || e.2.lanes.all (fun l =>
    !(l.st = .arriving && l.addr / 0x10000 = x.vpage))))

/-- A shoot-down has every acknowledgement it waits for (R350, R351), this package's own among them; one whose home cannot answer any
more ends too. -/
def State.shootOver (s : State) (x : Shoot) : Bool :=
  if x.home = s.dev.pkgid then
    x.waiting.isEmpty && s.link.shoots.all (fun y => !(y.home = x.home && y.pa = x.pa) || s.readsOver y)
  else (linkFails (s.peer x.home).st).isSome

/-- Shoot-downs of other homes whose reads here have all been delivered are acknowledged (R273, step 3). -/
def State.ackShoots (s : State) : State :=
  let open_ := s.link.shoots.filter (fun x => !x.told)
  let key := fun (x : Shoot) => (x.home, x.pa, x.serial)
  let ready := ((open_.map key).eraseDups).filter (fun k => open_.all (fun x => key x ≠ k || s.readsOver x))
  ready.foldl (fun s k =>
    (s.modLink (fun l => { l with shoots := l.shoots.map (fun x => if key x = k then { x with told := true } else x) })).sendMsg
      k.1 .sdack k.2.2 k.2.1) s

/-- Shoot-downs that are over end: the joined packages are told, the attribute is revoked, and the lanes are replayed. -/
def State.settleShoots (s : State) : State :=
  let s := s.ackShoots
  let fin := s.link.shoots.filter s.shootOver
  if fin.isEmpty then s
  else
    let s := s.modLink (fun l => { l with shoots := l.shoots.filter (fun x => !(fin.contains x)) })
    let tell := ((fin.filter (fun x => x.home = s.dev.pkgid && x.serial ≠ 0)).map (fun x => (x.serial, x.pa))).eraseDups
    let s := tell.foldl (fun s t => s.joined.foldl (fun s p => s.sendMsg p .sddone t.1 t.2) s) s
    fin.foldl (fun s x => s.openPage x.ctx x.vpage) s

end Sys2Proof.Machine
end

