-- ==== Sys2Proof/Machine/Arrive.lean ====
section
/-! DEFINITION. Arrivals in the queues, the stream engine, walks, answers of the pacer and the host to faults, and the end
of holds (R174, R178, R186, R187, R195, R197, R199, R232, R282, R334, R342, R398). -/

namespace Sys2Proof.Machine

/-- The value that an access delivers to lane `j` of slice `k`. -/
def Acc.lane (a : Acc) (k j : Nat) : Option AccLane := a.lanes.find? (fun l => l.lane = 8 * k + j)

/-- Site of R383 whose error a bad lane carries. -/
def State.badSite (s : State) (c : Nat) (l : AccLane) (n : Nat) : Nat :=
  match s.walk c l.addr with
  | .leaf e base _ => if entKind e = 0 then s.poisonSite (entAddr e + (l.addr - base)) n else 4
  | _ => 4

/-- An LDQ entry takes its lanes' data (R174); a lane that the access no longer has keeps what the entry holds. -/
def LdqEntry.fill (e : LdqEntry) (a : Acc) (k : Nat) : LdqEntry :=
  { e with
    need := 0
    vals := (List.range 8).map (fun j => match a.lane k j with
      | none => e.vals.getD j 0
      | some l => if e.second then l.val / 2 ^ 32 % 2 ^ 32 else l.val % 2 ^ 32) }

/-- LOAD_DATA_ARRIVAL (R31, R174, R354): the entry at a position of a slice's LDQ becomes data, in reservation order, once
every lane of its access on the slice has been read; marked data is consumed. For a dead slice it is discarded (R125). -/
def execLoadDataArrival (gang slice pos : Nat) (s : State) : Host.Outcome State Fault Refusal :=
  let g := s.gang gang
  let es := (g.slice slice).ldq
  match es[pos]? with
  | none => .next s
  | some e =>
    let a := g.acc e.acc
    let mine := a.lanes.filter (fun l => l.lane / 8 = slice)
    if (g.slice slice).sets.isEmpty then
      if mine.all (fun l => l.st = .arriving) then
        .next ((s.modGang gang (fun g => g.modSlice slice (fun x => { x with ldq := x.ldq.filter (fun y => y.acc ≠ e.acc) }))).sweepAccs gang)
      else .next s
    else if e.ready || e.second || !((es.take pos).all LdqEntry.ready) || !(mine.all (fun l => l.st = .arriving)) || s.atBank gang e.acc then
      .next s
    else
      let s := s.modGang gang (fun g => (g.modSlice slice (fun x => { x with
        ldq := x.ldq.map (fun y => if y.acc = e.acc then y.fill a slice else y) })).modAcc e.acc (fun a => { a with
        lanes := a.lanes.map (fun l => if l.lane / 8 = slice then { l with st := .done } else l) }))
      let s := match mine.find? (fun l => l.bad) with
        | some l => s.later (.uncorrectableErrorConsumed g.group gang (s.badSite g.ctx l (sizeOf a.ty)))
        | none => s
      .next (s.sweepAccs gang)

/-- Index `k` of element `n` of a stream: the last level varies fastest (R197). -/
def sdIndex (d : List Nat) (n k : Nat) : Nat :=
  n / ((List.range (sdDepth d)).filter (fun j => k < j)).foldl (fun p j => p * sdCount d j) 1 % sdCount d k

/-- The address of element `n` for a gang lane (R197). -/
def sdAddr (d : List Nat) (n lane : Nat) : Nat :=
  wrap64 ((dw d 0 : Int) + (lane : Int) * sdLstride d
    + ((List.range (sdDepth d)).map (fun k => (sdIndex d n k : Int) * sdStride d k)).sum)

/-- The stream of a slice may place its next element now (R175, R197, R373): a load that reaches the LAQ in the cycle goes first
(R176). -/
def State.streamReady (s : State) (u k : Nat) : Bool :=
  let g := s.gang u
  let x := g.slice k
  let grp := s.group g.group
  match x.strm with
  | none => false
  | some t =>
    let n := entriesOf t.ty
    let held := (x.ldq.filter (fun e => e.strm && x.streams e.acc)).length
    g.live && g.stopped.isNone && (grp.st = .resident || grp.st = .draining) && t.next < t.total
      && x.ldq.all (fun e => e.strm || e.cyc ≠ s.cycOf u) && held + n ≤ sdAhead t.desc && g.laqHeld k + n ≤ 32 && x.ldq.length + n ≤ 32
      && g.parts.all (fun p => !(p.slices.testBit k) || p.holds.all (fun h => match h with
        | .strmx _ _ => false
        | _ => true))
      && !(match x.curSet with
        | none => false
        | some y => y.inh)

/-- STREAM_ELEMENT (R197): the slice's stream places its next element, and ends with the placing of its last (log entry 90, DESIGN
CHOICE). -/
def execStreamElement (gang slice : Nat) (s : State) : Host.Outcome State Fault Refusal :=
  if !(s.streamReady gang slice) then .next s
  else
    let g := s.gang gang
    let x := g.slice slice
    match x.strm with
    | none => .next s
    | some t =>
      let sp := sdSpace t.desc = 2
      let lanes := (bitsOf 8 t.lanes).map (fun j => mkLane (8 * slice + j) (sdAddr t.desc t.next (8 * slice + j)) 0 0)
      match lanes.find? (fun l => (!sp && !(canonical l.addr)) || l.addr % sizeOf t.ty ≠ 0) with
      | some l => .next (s.protFault gang (g.pcOf (2 ^ slice)) l.addr 1)
      | none =>
        let a : Acc :=
          { op := if sp then 0x02 else 0x00, ty := t.ty, scope := .none, ord := .plain, atop := .add, ro := sdSpace t.desc = 1,
            strm := true, take := false, inh := false, slices := 2 ^ slice, pc := none,
            owner := (x.cur.map (fun e => (slice, e))).toList, own := none, carries := [], lanes := lanes, cyc := s.cycOf gang,
            hold := (s.ctx g.ctx).bound, failed := false }
        let last := t.total ≤ t.next + 1
        let s := s.modGang gang (fun g => g.modSlice slice (fun x =>
          { x with strm := if last then none else some { t with next := t.next + 1 } }))
        let s := if last then s.dropStrmLock g.core t.lock else s
        .next (s.enter gang a)

/-- Give an outcome with no fix, or a POISONED page, to the lanes that wait for a walk of a page (R178, R338). -/
def State.refuseLanes (s : State) (die c page : Nat) (w : Walk) : State :=
  (s.everyGangOfCtx c).foldl (fun s u =>
    let g := s.gang u
    if dieOf g.core ≠ die then s
    else
      g.accs.foldl (fun s e =>
        if e.2.sp then s
        else
          e.2.lanes.foldl (fun s l =>
            if l.st ≠ .queued || l.addr / 0x10000 ≠ page then s
            else
              match s.placeWalk c l.addr w e.2.use with
              | .bad cause detail =>
                s.stickLane u e.1 e.2 l cause detail
              | .poison => s.poisonLane u e.1 e.2 l
              | _ => s) s) s) s

/-- One page of a walk is answered (R282, R339). -/
def State.answerPage (die c : Nat) (s : State) (page : Nat) : State :=
  match s.walk c (page * 0x10000) with
  | .leaf e base size => s.installDie die ⟨c, base, size, e⟩
  | w =>
    match s.placeWalk c (page * 0x10000) w .read with
    | .wait _ => s.faultPage die c (page * 0x10000)
    | _ => s.refuseLanes die c page w

/-- TRANSLATION_WALK (R282): the oldest queued entry of the die is walked and every joined requester is answered. -/
def execTranslationWalk (die : Nat) (s : State) : Host.Outcome State Fault Refusal :=
  match (s.die die).merge.find? (fun m => !m.pages.isEmpty) with
  | none => .next s
  | some m =>
    let s := s.modDie die (fun d => { d with
      merge := (d.merge.map (fun x => if x.ctx = m.ctx && x.key = m.key then { x with pages := [] } else x)).filter
        (fun x => !(x.pages.isEmpty && x.faults.isEmpty)) })
    let s := m.pages.foldl (State.answerPage die m.ctx) s
    .next (((s.refillMerge die).touch tableRegion).pump (s.everyGangOfCtx m.ctx))

/-- FAULT_ACKNOWLEDGE (R342): the page is servable, or its fault has no fix any more. A shoot-down that waits for nobody is
over (R350). -/
def execFaultAcknowledge (ctx vpage : Nat) (s : State) : Host.Outcome State Fault Refusal :=
  let s := s.settleShoots
  match s.place ctx (vpage * 0x10000) .read with
  | .wait _ => .next s
  | _ => .next (s.ackPage ctx vpage)

/-- Engine commands held on a page that the host has refused take an unfixable fault (R230, R342). -/
def State.refuseEngines (s : State) (c vpage : Nat) : State :=
  s.cores.foldl (fun s k =>
    let s := (k.2.copyq.filter (fun e => e.2.held = some vpage && (s.gang e.2.gang).ctx = c)).foldl (fun s e =>
      (s.modCopy k.1 e.1 (fun m => { m with held := none, barred := true })).sysFault e.2.gang 2 e.2.pc (vpage * 0x10000) 20) s
    (k.2.matq.filter (fun e => e.2.held = some vpage && (s.gang e.2.gang).ctx = c)).foldl (fun s e =>
      (s.modMat k.1 e.1 (fun m => { m with held := none, barred := true })).sysFault e.2.gang 2 e.2.pc (vpage * 0x10000) 20) s) s

/-- Lanes that wait for a page that the host has refused take an unfixable fault (R342); so do copies
(log entry 43, DEDUCED). -/
def State.refusePage (s : State) (c vpage : Nat) : State :=
  let hit := fun (l : AccLane) => l.st = .replay && l.addr / 0x10000 = vpage
  let s : State := { s with dies := s.dies.map (fun d => (d.1, { d.2 with
    merge := (d.2.merge.map (fun m => if m.ctx = c then { m with faults := m.faults.filter (fun p => p ≠ vpage) } else m)).filter
      (fun m => !(m.pages.isEmpty && m.faults.isEmpty)) })) }
  let s := ((s.dies.map (·.1)).foldl State.refillMerge s).refuseEngines c vpage
  (s.everyGangOfCtx c).foldl (fun s u =>
    let g := s.gang u
    match g.accs.find? (fun e => !e.2.sp && e.2.lanes.any hit) with
    | none => s
    | some e =>
      let a := ((e.2.lanes.find? hit).map (·.addr)).getD 0
      let s := s.modGang u (fun g => { g with accs := g.accs.map (fun e => if e.2.sp then e else
        (e.1, { e.2 with lanes := e.2.lanes.map (fun l => if hit l then { l with st := .stuck } else l) })) })
      s.sysFault u 1 (g.faultPc e.2) a (s.hostRefusal c (vpage * 0x10000))) s

/-- Reads and writes of the hub that wait for a page of the host are answered: a refusal is known to each (R342). -/
def State.answerAsks (s : State) (c vpage : Nat) (refused : Bool) : State :=
  let mine := fun (a : FarUse × Nat × Nat) => a.2.1 = c && a.2.2 / 0x10000 = vpage
  { s with
    asks := s.asks.filter (fun a => !(mine a))
    far := s.far ++ (if refused then (s.asks.filter mine).map (fun a => ⟨a.1, a.2.2, none, 0⟩) else []) }

/-- HOST_PAGE_RESPONSE (R338, R398): the host makes a page present, or refuses it. -/
def execHostPageResponse (ctx vpage : Nat) (present : Bool) (s : State) : Host.Outcome State Fault Refusal :=
  if !(s.pageReqs.contains (ctx, vpage)) then .next s
  else
    let s := ({ s with pageReqs := s.pageReqs.filter (fun p => p ≠ (ctx, vpage)) } : State).answerAsks ctx vpage (!present)
    if !present then .next ((s.refusePage ctx vpage).dropMoves ctx vpage)
    else
      match s.walk ctx (vpage * 0x10000) with
      | .leaf e base _ =>
        let k := (ctx, (entAddr e + (vpage * 0x10000 - base)) / 0x10000)
        let s : State := if entKind e = 2 && !(s.hostHere.contains k) then { s with hostHere := k :: s.hostHere } else s
        .next (s.ackPage ctx vpage)
      | _ =>
        -- a page whose move from the host is under way
        let ks := (s.moves.filter (fun m => m.began && m.ctx = ctx && m.vpage = vpage && entKind m.old = 2)).map (fun m =>
          (ctx, entAddr m.old / 0x10000))
        .next (({ s with hostHere := (ks ++ s.hostHere).eraseDups } : State).ackPage ctx vpage)

/-- HOST_ADDRESS_TRANSLATION_CHANGE (R341): the host has a page of its memory present for a context, or not. -/
def execHostAddressTranslationChange (ctx iova : Nat) (present : Bool) (s : State) : Host.Outcome State Fault Refusal :=
  let k := (ctx, iova / 0x10000)
  .next { s with hostHere := if present then (if s.hostHere.contains k then s.hostHere else k :: s.hostHere)
                             else s.hostHere.filter (fun x => x ≠ k) }

/-- The park was told at a cycle to come again, and 64 cycles have passed (R334). -/
def LaneSt.retries (x : LaneSt) (cyc : Nat) : Bool :=
  match x with
  | .retry c => decide (c + 64 ≤ cyc)
  | _ => false

/-- FUTURE_PARK_RETRY (R334): a part that found no waiter entry presents its parks again. -/
def execFutureParkRetry (gang part : Nat) (s : State) : Host.Outcome State Fault Refusal :=
  let t := s.cycOf gang
  let s := s.modGang gang (fun g => { g with accs := g.accs.map (fun e =>
    if e.2.parks && e.2.slices.testBit part then
      (e.1, { e.2 with lanes := e.2.lanes.map (fun l => if l.st.retries t then { l with st := .queued } else l) })
    else e) })
  .next (s.pump [gang])

/-- Copies of a gang that have not completed. -/
def State.copiesOf (s : State) (u : Nat) : List (Nat × CopyCmd) :=
  ((s.core (s.gang u).core).copyq).filter (fun e => e.2.gang = u)

/-- The hold is over (R186, R195, R199, R232): what it waits for has been performed. A release at `.dev` comes before a
LAUNCH reads its packet and before a FORK pushes (R247, R249). -/
def State.holdOver (s : State) (u : Nat) (h : Hold) : Bool :=
  let g := s.gang u
  match h with
  | .fence sc _ _ n => g.earlierDone sc n
  | .bwait qs => qs.all (fun q => !(s.batonPending q))
  | .cpwait n => g.batches.length ≤ n
  | .strmx accs _ => accs.all (fun id => (smFind g.accs id).isNone)
  | .fork _ _ n => g.earlierDone .dev n
  | _ => false

/-- The deque of a core for a context, if it has one (R50). -/
def Core.deque (k : Core) (c : Nat) : Deque :=
  (k.deques.find? (fun d => d.ctx = c)).getD { ctx := c, recs := [], blocked := [], draining := 0, busy := none }

/-- Change the deque of a core for a context. -/
def State.modDeque (s : State) (core c : Nat) (f : Deque → Deque) : State :=
  s.modCore core (fun k =>
    if k.deques.any (fun d => d.ctx = c) then { k with deques := k.deques.map (fun d => if d.ctx = c then f d else d) }
    else { k with deques := k.deques ++ [f (k.deque c)] })

/-- Task gangs running records of a deque are raised one class, or return to their own (R54). -/
def State.raise (s : State) (core c : Nat) (up : Bool) : State :=
  { s with gangs := s.gangs.map (fun e =>
      if e.2.task && e.2.deque = some (core, c) then (e.1, { e.2 with raised := up }) else e) }

/-- A gang that has died leaves the blocked FORKs of its core's deques, whose task gangs return to their class with the last (R54). -/
def State.leaveForks (s : State) (u : Nat) : State :=
  let c := (s.gang u).ctx
  let core := (s.gang u).core
  let d := (s.core core).deque c
  let mine := fun (b : Nat × Nat × Nat) => b.1 ≠ u
  if d.blocked.all mine then s
  else
    let s := s.modDeque core c (fun d => { d with blocked := d.blocked.filter mine, draining := ((d.blocked.take d.draining).filter mine).length })
    if (d.blocked.filter mine).isEmpty then s.raise core c false else s

/-- The task record of a FORK with its launch and class (R51). -/
def State.taskRec (s : State) (u bits : Nat) : TaskRec :=
  let g := s.gang u
  let x := s.group g.group
  { bits := bits, q := x.q, seq := x.seq, cls := g.cls }

/-- The operation of a deque in this cycle has been taken (R53). -/
def State.dequeBusy (s : State) (core c : Nat) : Bool := ((s.core core).deque c).busy = some (s.cyc core)

/-- Change the deque of a core by the operation of this cycle (R53). -/
def State.dequeOp (s : State) (core c : Nat) (f : Deque → Deque) : State :=
  let t := s.cyc core
  s.modDeque core c (fun d => { f d with busy := some t })

/-- No FORK that was issued before number `n` on the same deque is ready to push too: pushes go in issue order (R53). -/
def State.forkFirst (s : State) (u n : Nat) : Bool :=
  let g := s.gang u
  s.gangs.all (fun e => !(e.2.core = g.core && e.2.ctx = g.ctx) || e.2.parts.all (fun p => p.holds.all (fun h => match h with
    | .fork _ _ m => !(decide (m < n) && s.holdOver e.1 h)
    | _ => true)))

/-- A FORK pushes its record, or blocks its part at the watermark (R53, R54, R249). -/
def State.push (s : State) (u bits pc id : Nat) (h : Hold) : State :=
  let g := s.gang u
  let d := (s.core g.core).deque g.ctx
  if s.dequeBusy g.core g.ctx then s
  else if d.recs.length < 224 then
    let r := s.taskRec u bits
    (s.dequeOp g.core g.ctx (fun d => { d with recs := r :: d.recs })).unhold u h
  else
    ((s.dequeOp g.core g.ctx (fun d => { d with blocked := d.blocked ++ [(u, id, bits)] })).raise g.core g.ctx true).holdBlocks u h (.fork id) pc

/-- One hold of a part is tried (R187): a fence reports, a FORK pushes, and the part goes on. -/
def State.endHold (u : Nat) (s : State) (h : Hold) : State :=
  if !(s.holdOver u h) then s
  else
    match h with
    | .fence _ o sd _ =>
      let g := s.gang u
      let t := s.cycOf u
      let s := s.modGang u (fun g => (g.setS sd g.fenceWord).report t)
      let s := if o ≠ .rel then s.acquired u else s
      (s.unhold u h).pump (if g.accs.isEmpty then [] else [u])
    | .fork bits pc n => if s.forkFirst u n then s.push u bits pc n h else s
    | .strmx _ locks => locks.foldl (fun s l => s.dropStrmLock (s.gang u).core l) (s.unhold u h)
    | .cpwait _ => (s.unhold u h).acquired u
    | _ => s.unhold u h

/-- FENCE_COMPLETE (R187, R195, R199, R232, R249): the holds of a part that are over end. -/
def execFenceComplete (gang part : Nat) (s : State) : Host.Outcome State Fault Refusal :=
  match (s.gang gang).part part with
  | none => .next s
  | some p => .next (p.holds.foldl (State.endHold gang) s)

/-- The blocked FORK at the head of a deque pushes (R54), and the lane sets that it blocked go on. -/
def State.pushBlocked (s : State) (core ctx : Nat) : State :=
  match ((s.core core).deque ctx).blocked with
  | [] => s
  | (u, id, bits) :: rest =>
    let r := s.taskRec u bits
    let s := s.dequeOp core ctx (fun d => { d with recs := r :: d.recs, blocked := rest, draining := d.draining - 1 })
    s.wakeSets u (s.cycOf u + 1) (fun _ y => y.st = .fork id)

/-- FORK_RETRY (R53, R54): once a deque has fallen below 64 records, its raised gangs return to their class and the FORKs then blocked
push one by one in the order in which they blocked; one that finds the deque at the watermark again blocks again. -/
def execForkRetry (core ctx : Nat) (s : State) : Host.Outcome State Fault Refusal :=
  let d := (s.core core).deque ctx
  let s := if d.draining = 0 && d.recs.length < 64 then
      (s.modDeque core ctx (fun d => { d with draining := d.blocked.length })).raise core ctx false else s
  if d.blocked.isEmpty || s.dequeBusy core ctx || ((s.core core).deque ctx).draining = 0 then .next s
  else if d.recs.length < 224 then .next (s.pushBlocked core ctx)
  else .next ((s.dequeOp core ctx (fun d => { d with draining := 0 })).raise core ctx true)

end Sys2Proof.Machine
end

