-- ==== Sys2Proof/Machine/Proofer.lean ====
section
/-! DEFINITION. The proofer (R80 to R85, R93, R95, R101, R109 to R113, R172, R236, R421, R423) and its event. -/

namespace Sys2Proof.Machine

/-- What a proof record says (R113). -/
structure Finding where
  status : Nat
  off : Nat
  reason : Nat
  slot : Nat
  word : Nat
  headerw : Nat
  detail : Nat
  bundles : Nat
  pages : Nat
  deriving DecidableEq, Repr, Inhabited

/-- V registers an instruction of a slot names, destination first (R110); MMA and MMAC name VA to VA + 15 whatever their
operand types (R205). -/
def vNamed : Instr → List Nat
  | .vadd o | .vsub o | .vmul o | .vmulh o | .vmin o | .vmax o | .vand o | .vor o | .vxor o | .vshl o | .vshr o | .vrot o
  | .vfadd o | .vfsub o | .vfmul o | .vfmin o | .vfmax o | .vbfx o => opdV o.ty (.v o.d)
  | .vmad o | .vfma o | .vbfi o => opdV o.ty (.v o.d)
  | .vabs o | .vneg o | .vnot o | .vpopc o | .vclz o | .vbrev o | .vfabs o | .vfneg o | .vrcp o | .vrsq o | .vsqrt o
  | .vexp2 o | .vlog2 o | .vsin o | .vcos o | .vtanh o | .vmov o => opdV o.ty (.v o.d)
  | .vsel o => opdV o.ty (.v o.d)
  | .vcvt o => opdV o.dt (.v o.d)
  | .vpack o => opdV o.dt (.v o.d)
  | .vunpk o => opdV o.dt (.v o.d)
  | .vqnt o => opdV .i64 (.v o.d)
  | .shfl o => opdV o.ty (.v o.d)
  | .vred o => opdV o.ty (.v o.d)
  | .mma o => (List.range 16).map (fun n => o.va.val + n)
  | .mmac o => (List.range 16).map (fun n => o.va.val + n)
  | .sysrd _ (.v d) _ => [d.val]
  | _ => []

/-- Accumulator tiles an instruction names. -/
def tilesNamed : Instr → List Nat
  | .mma o => [o.zt.val]
  | .mmac o => [o.zt.val, o.zu.val]
  | .zld o => [o.zt.val]
  | .zst o | .zretSp o | .zretG o => [o.zt.val]
  | .zclr o => [o.zt.val]
  | .zret o => [o.zt.val]
  | _ => []

/-- The group barrier a SYNC names. -/
def barrierNamed : Instr → List Nat
  | .sync _ (.grp n) => [n.val]
  | _ => []

/-- Copy opcodes (check 0x33). -/
def isCopyOp : Instr → Bool
  | .cpy _ | .cpyr _ | .cpseal _ | .cpwait _ | .hset _ => true
  | _ => false

/-- A direct transfer's word offset, FORK's entry among them (R110, R120, R236). -/
def transfer : Instr → Option Int
  | .br _ o | .call o =>
    some (match o with
      | .short x => x.toInt
      | .long x => x.toInt)
  | .bsz _ o | .bsnz _ o =>
    some (match o with
      | .short x => x.toInt
      | .long x => x.toInt)
  | .lbrk _ o =>
    some (match o with
      | .short x => x.toInt
      | .long x => x.toInt)
  | .fork _ _ _ _ o => some o.toInt
  | _ => none

/-- The gap code of R101. -/
def minGap : Instr → Nat
  | .br .. | .jmpr _ | .call _ | .callr _ | .ret _ | .bsz .. | .bsnz .. | .loop .. | .endl _ | .lbrk .. => 1
  | .syswr .. => 3
  | _ => 0

/-- The control instruction cannot continue to the next word (R80). -/
def ends : Instr → Bool
  | .exit | .tret _ | .ret _ | .jmpr _ => true
  | .br g _ => g.p.val = 31 && !g.neg
  | _ => false

/-- What the proofer knows of a range: length, declared counts, features, the heads below `h`, and `h`. -/
structure Scan where
  len : Nat
  vregs : Nat
  ztiles : Nat
  barriers : Nat
  pen : Bool
  feat : Nat
  heads : List Nat
  h : Nat
  deriving DecidableEq, Repr

/-- The checks 0x14 and 0x30 to 0x40 of a decoded slot of the bundle at `off`: reason and detail (R110, R421). Of several registers
beyond the limit DETAIL names the destination's before the sources' (log entry 59, DESIGN CHOICE). -/
def slotFinding (x : Scan) (off : Nat) (i : Instr) : Option (Nat × Nat) :=
  let vs := vNamed i ++ (instrOpds i).flatMap (fun o => opdV o.1 o.2)
  let tgt := (transfer i).map (fun o => (off : Int) + 4 * o)
  let judged := fun (t : Int) =>
    t < 0 || (x.len : Int) ≤ t || (t < (x.h : Int) && !(x.heads.contains t.toNat))
      || (match i with
        | .fork .. => decide (2 ^ 25 ≤ t)
        | _ => false)
  match (features i).find? (fun b => !(x.feat.testBit b)), vs.find? (fun r => x.vregs ≤ r), (tilesNamed i).find? (fun t => x.ztiles ≤ t),
    (barrierNamed i).find? (fun b => x.barriers ≤ b), tgt with
  | some b, _, _, _, _ => some (0x14, b)
  | none, some r, _, _, _ => some (0x30, r)
  | none, none, some t, _, _ => some (0x31, t)
  | none, none, none, some b, _ => some (0x32, b)
  | none, none, none, none, t =>
    if isCopyOp i && !x.pen then some (0x33, 0)
    else
      match t with
      | some t => if judged t then some (0x40, wrap 32 t) else none
      | none => none

/-- The level of a loop instruction (check 0x34). -/
def loopLevel (w : Nat) : Nat :=
  match candC (splitC w false 0) with
  | some (.loop n _) | some (.endl n) | some (.lbrk n _) => n.val
  | _ => 0

/-- The DETAIL of a refusal of a slot's fields (R421). -/
def fieldDetail (slot e word : Nat) : Nat := if slot = 4 && e = 0x34 then loopLevel (word % 2 ^ 32) else 0

/-- One slot's finding: its number, word, and what its decoding gave. -/
def slotCheck (x : Scan) (off : Nat) (slot word : Nat) (d : Option (Except Nat Instr)) : Option (Nat × Nat × Nat × Nat) :=
  match d with
  | none => none
  | some (.error e) => some (e, slot, word, fieldDetail slot e word)
  | some (.ok i) => (slotFinding x off i).map (fun f => (f.1, slot, word, f.2))

/-- The bank that is read twice (R95), of several that of the first operand that shares one (log entry 59, DESIGN CHOICE). -/
def bankClash : List Nat → Option Nat
  | [] => none
  | r :: rs => if rs.any (fun q => q ≠ r && q % 4 = r % 4) then some (r % 4) else bankClash rs

/-- The bank rule of the memory slot (R95, R172): INDEX in none of DATA's banks, unless they name one register. -/
def memClash (i : Instr) : Option Nat :=
  let ix := match (instrOpds i).getLast? with
    | some (_, .v n) => some n.val
    | _ => none
  let data := ((instrOpds i).dropLast).flatMap (fun o => opdV o.1 o.2)
  match ix with
  | none => none
  | some n => if data ≠ [n] && data.any (fun r => r % 4 = n % 4) then some (n % 4) else none

/-- The hints that a bundle's slots read (R83). -/
def hintsOf (v : Option Instr) (is : List Instr) : Nat × Bool × Bool × Bool :=
  let os := match v with
    | none => []
    | some i => instrOpds i
  (maskOf (((os.flatMap (fun o => opdV o.1 o.2)).map (· % 4)).eraseDups),
    os.any (fun o => (opdL o.1 o.2).contains 1), os.any (fun o => (opdL o.1 o.2).contains 0),
    (is.flatMap instrOpds).any (fun o => o.2 = .q))

/-- Slots that name Q, each as often as it does (R93). -/
def qNamings (b : Bundle) : List Nat :=
  let f := fun (n : Nat) (i : Option Instr) => match i with
    | none => []
    | some i => ((instrOpds i).filter (fun o => o.2 = .q)).map (fun _ => n)
  f 1 b.v ++ f 2 b.m ++ f 3 b.x ++ f 4 b.c

/-- The checks of one bundle in the order of R421: reason, slot, word, detail. -/
def bundleFinding (x : Scan) (off : Nat) (ws : List Nat) (last : Bool) : Option (Nat × Nat × Nat × Nat) :=
  let r := splitBundle ws
  let word := fun (s : Nat) => match s with
    | 1 => slot64 ws 1
    | 2 => slot64 ws (1 + 2 * r.h.pv.toNat)
    | 3 => slot64 ws (1 + 2 * r.h.pv.toNat + 2 * r.h.pm.toNat)
    | 4 =>
      let p := 1 + 2 * r.h.pv.toNat + 2 * r.h.pm.toNat + 2 * r.h.px.toNat
      if r.h.long then slot64 ws p else ws.getD p 0
    | _ => r.hw
  let slots := [(1, r.v.map decodeV), (2, r.m.map decodeM), (3, r.x.map decodeX), (4, r.c.map decodeC)]
  match slots.findSome? (fun s => slotCheck x off s.1 (word s.1) s.2), decodeBundle ws with
  | some f, _ => some f
  | none, .error e => some (e.2, 0, r.hw, 0)
  | none, .ok b =>
    let (banks, l1, l0, q) := hintsOf b.v b.instrs
    let clashV := match b.v with
      | none => none
      | some i => bankClash ((instrOpds i).flatMap (fun o => opdV o.1 o.2))
    let clashM := b.m.bind memClash
    let qs := qNamings b
    let need := match b.c with
      | none => 0
      | some i => minGap i
    if b.h.banks ≠ banks || b.h.latch1 ≠ l1 || b.h.latch0 ≠ l0 || b.h.qpop ≠ q then some (0x02, 0, r.hw, 0)
    else
      match clashV, clashM with
      | some k, _ => some (0x20, 1, word 1, k)
      | none, some k => some (0x20, 2, word 2, k)
      | none, none =>
        if 2 ≤ qs.length then some (0x21, qs.getD 1 0, word (qs.getD 1 0), 0)
        else if b.h.gap < need then some (0x22, 0, r.hw, need)
        else if last && !(b.c.any ends) then
          (if b.c.isSome then some (0x42, 4, word 4, 0) else some (0x42, 0, r.hw, 0))
        else none

/-- The words of the bundle at an offset of the code. -/
def codeWords (code : List Byte) (off : Nat) : List Nat := wordsOf 9 (code.drop off)

/-- Walk the headers (R421 step 2): the offsets of bundles, and the first header that fails: offset, reason, detail. -/
def walkHeads (code : List Byte) (len : Nat) : Nat → Nat → List Nat × Option (Nat × Nat × Nat)
  | 0, _ => ([], none)
  | f + 1, off =>
    if len ≤ off then ([], none)
    else
      let h := splitH (ofBytes ((code.drop off).take 4))
      let n := 4 * h.words
      if !h.ok then ([], some (off, 0x01, 0))
      else if len < off + n then ([], some (off, 0x03, n))
      else
        let (hs, e) := walkHeads code len f (off + n)
        (off :: hs, e)

/-- The 64 KiB units of a range. -/
def rangePages (base len : Nat) : List Nat :=
  (List.range ((base + len + 0xFFFF) / 0x10000 - base / 0x10000)).map (fun i => (base / 0x10000 + i) * 0x10000)

/-- Scan a code range that has been read (R110, R421): refused, or passed with the offsets of its bundles. -/
def scanCode (vregs ztiles barriers : Nat) (pen : Bool) (feat : Nat) (code : List Byte) : Finding × List Nat :=
  let len := code.length
  let (heads, bad) := walkHeads code len (len / 4 + 1) 0
  let h := match bad with
    | none => len
    | some b => b.1
  let x : Scan := ⟨len, vregs, ztiles, barriers, pen, feat, heads, h⟩
  let hit := (heads.zipIdx).findSome? (fun e =>
    let last := bad.isNone && e.2 + 1 = heads.length
    (bundleFinding x e.1 (codeWords code e.1) last).map (fun f => (e.1, e.2, f)))
  let hw := fun (off : Nat) => ofBytes ((code.drop off).take 4)
  match hit, bad with
  | some (off, n, r, s, w, d), _ => (⟨1, off, r, s, w, hw off, d, n, 0⟩, heads)
  | none, some (off, r, d) => (⟨1, off, r, 0, hw off, hw off, d, heads.length, 0⟩, heads)
  | none, none => (⟨0, len, 0, 0, 0, 0, 0, heads.length, 0⟩, heads)

/-- The bytes of a proof record (R113). -/
def Finding.bytes (f : Finding) : List Byte :=
  bytesOf 8 (f.off % 2 ^ 32 * 2 ^ 32 + f.reason * 2 ^ 16 + f.slot * 2 ^ 12 + f.status) ++ bytesOf 8 f.word
    ++ bytesOf 8 (f.headerw % 2 ^ 32 * 2 ^ 32 + f.detail % 2 ^ 32) ++ bytesOf 8 (f.bundles * 2 ^ 32 + f.pages)

/-- A proof that ends with STATUS 2 (R423). -/
def unproofed (detail off : Nat) : Finding := ⟨2, off, 0, 0, 0, 0, detail, 0, 0⟩

/-- The page that holds an address: its first address and its size; an address that no leaf maps counts as a 64 KiB page. -/
def State.leafAt (s : State) (c va : Nat) : Nat × Nat :=
  match s.walk c va with
  | .leaf _ base size => (base, size)
  | _ => (va / 0x10000 * 0x10000, 0x10000)

/-- The pages of a code range, of whatever sizes, in ascending order (R111, R280). -/
def State.codePages (s : State) (c base len : Nat) : List (Nat × Nat) := ((rangePages base len).map (s.leafAt c)).eraseDups

/-- The first of VER, CODELEN and CODEBASE that breaks R299, as its byte offset (R301, R423). -/
def headerBad (d : List Nat) : Option Nat :=
  if dw d 0 % 256 ≠ 1 then some 0
  else if (dw d 0 / 2 ^ 32) < 4 || (dw d 0 / 2 ^ 32) % 4 ≠ 0 then some 4
  else if dw d 1 % 256 ≠ 0 || !(canonical (dw d 1)) then some 8
  else none

/-- The first page of a range that code of another proof class occupies (check 0x41). -/
def State.classClash (s : State) (c base len : Nat) (p : Proof) : Option Nat :=
  ((s.codePages c base len).find? (fun g =>
    (match s.walk c g.1 with
     | .leaf e _ _ => entX e
     | _ => false) && s.proofs.any (fun q => q.ctx = c
      && q.pages.any (fun k => decide (g.1 / 0x10000 ≤ k) && decide (k < (g.1 + g.2) / 0x10000))
      && !(q.vregs = p.vregs && q.ztiles = p.ztiles && q.barriers = p.barriers && q.pen = p.pen && q.feat = p.feat)))).map (·.1)

/-- Make a page executable (R111): X set and W cleared in its entry. -/
def State.setX (s : State) (c va : Nat) : State :=
  match s.walk c va with
  | .leaf e base size =>
    let e' := mkLeaf (entAddr e) (entKind e) (entPeer e) false true (entRo e)
    (s.setPage c base size e').dropTlb c base size
  | _ => s

/-- The read of a code range piece by piece: the bytes, or the offset of the first word that cannot be read. -/
inductive CodeRead where
  | got (bs : List Byte)
  | wait
  | bad (off : Nat)
  deriving DecidableEq, Repr

/-- The first word of a 256-byte block whose read fails or carries a mark (R354, R423), as its byte offset in the block. -/
def State.badWord (s : State) (c va : Nat) (use : FarUse) : Nat :=
  let first := fun (p : Nat → Bool) => 4 * ((List.range 64).find? p).getD 0
  match s.place c va .read with
  | .hbm pa => first (fun j => s.poisoned (pa + 4 * j) 4)
  | .peer _ pa =>
    (match s.far.find? (fun f => f.use = use && f.addr = va && f.data.isSome) with
     | some f => first (fun j => sectorsOf (pa + 4 * j) 4 &&& f.poison ≠ 0)
     | none => 0)
  | _ => 0

/-- Read a code range through the context's translation (R109), in blocks of 256 bytes. -/
def State.readCode (s : State) (c base len : Nat) : CodeRead × State :=
  let far := s.far
  let n := (len + 255) / 256
  let (r, s) := (List.range n).foldl (fun (acc : CodeRead × State) i =>
    match acc.1 with
    | .got bs =>
      let (x, s) := acc.2.hubReadPage c (base + 256 * i) (min 256 (len - 256 * i)) (.proof c)
      (match x with
       | .got b => (.got (bs ++ b), s)
       | .wait => (.wait, s)
       | .bad _ _ => (.bad (256 * i), s)
       | .failed => (.bad (256 * i + acc.2.badWord c (base + 256 * i) (.proof c)), s))
    | _ => acc) (.got [], s)
  match r with
  | .wait => (.wait, { s with far := far.filter (fun f => f.use = .proof c) ++ s.far.filter (fun f => f.use ≠ .proof c) })
  | r => (r, s)

/-- Bytes of a range that lie on pages outside local HBM: the machine runs them as they were proofed
(log entry 13, DEDUCED). -/
def State.farBytes (s : State) (c base : Nat) (code : List Byte) : List (Nat × Byte) :=
  let l := (code.mapIdx (fun i b => (base + i, b))).filter (fun x =>
    match s.walk c x.1 with
    | .leaf e _ _ => entKind e ≠ 0
    | _ => false)
  l.foldl (fun m x => smSet Memory.unlisted m x.1 x.2) []

/-- A code range has been read: judge it, and on a pass mark its pages (R110, R111). -/
def State.judgeCode (s : State) (c : Nat) (d : List Nat) (code : List Byte) : Finding × State :=
  let base := dw d 1
  let v := fld (dw d 3) 39 9
  let z := fld (dw d 3) 34 5
  let b := fld (dw d 3) 29 5
  let pen := (dw d 3).testBit 19
  let p : Proof := ⟨c, base, code.length, v, z, b, pen, s.dev.feat, [], [], []⟩
  match s.classClash c base code.length p with
  | some va => (⟨1, 0, 0x41, 0, 0, 0, wrap 32 ((va : Int) - base), 0, 0⟩, s)
  | none =>
    let (f, heads) := scanCode v z b pen s.dev.feat code
    if f.status ≠ 0 then (f, s)
    else
      let pages := s.codePages c base code.length
      let units := pages.flatMap (fun g => (List.range (g.2 / 0x10000)).map (fun i => g.1 / 0x10000 + i))
      let p := { p with heads := heads, pages := units, far := s.farBytes c base code }
      let s := pages.foldl (fun s g => s.setX c g.1) s
      ({ f with pages := pages.length }, { s with proofs := p :: s.proofs.filter (fun q => !(q.ctx = c && q.base = base && q.len = p.len)) })

/-- One proof request is carried as far as its data goes (R109). Of the header the proofer reads dwords 0 to 3, which hold its fields
(R299, R301). -/
def State.proofStep (s : State) (r : ProofReq) : Option Finding × State :=
  let (h, s) := s.hubRead r.ctx r.khdr 32 (.proof r.ctx)
  match h with
  | .wait => (none, s)
  | .bad _ _ | .failed => (some (unproofed 1 0), s)
  | .got hb =>
    let d := dwordsOf 32 hb
    match headerBad d with
    | some o => (some (unproofed 2 o), s)
    | none =>
      let len := dw d 0 / 2 ^ 32
      let (r', s) := s.readCode r.ctx (dw d 1) len
      match r' with
      | .wait => (none, s)
      | .bad o => (some (unproofed 3 o), s)
      | .got code =>
        let (f, s) := s.judgeCode r.ctx d code
        (some f, s)

/-- Write a status record of R275 at a physical address, unless it lies outside local HBM (log entry 94, DESIGN CHOICE). -/
def State.status (s : State) (rec_ st detail value : Nat) : State :=
  let s : State := { s with stats := (rec_, detail * 2 ^ 32 + st, value) :: s.stats }
  if rec_ + 16 ≤ Config.hbmBytes then s.wr rec_ (bytesOf 8 (detail * 2 ^ 32 + st) ++ bytesOf 8 value) else s

/-- The safe kernel's proof has ended (R397): SAFESTAT tells. -/
def State.safeProofed (s : State) (f : Finding) : State :=
  if f.status = 0 then s.modQueue safeCtx 0 (fun x => { x with st := .draining })
  else ({ s with ctxs := smDel s.ctxs safeCtx } : State).modDev (fun d => { d with safeState := 3, safeReason := f.reason, safeOffset := f.off })

/-- PROOFER_SCAN (R109 to R113, R421, R423): the oldest request, once its data can be read. The record's address is physical, and a
record beyond local HBM is not written (log entry 58, DESIGN CHOICE). -/
def execProoferScan (s : State) : Host.Outcome State Fault Refusal :=
  match s.proofq with
  | [] => .next s
  | r :: rest =>
    let (f, s) := s.proofStep r
    match f with
    | none => .next s
    | some f =>
      let s : State := { s with proofq := rest, far := s.far.filter (fun x => x.use ≠ .proof r.ctx), asks := s.asks.filter (fun x => x.1 ≠ .proof r.ctx) }
      if r.safe then .next (s.safeProofed f)
      else
        let s := if r.recordPa + 32 ≤ Config.hbmBytes then s.wr r.recordPa f.bytes else s
        if f.status = 0 then .next (s.status r.statrec 0 0 f.pages) else .next (s.status r.statrec 5 0 0)

end Sys2Proof.Machine
end

