-- ==== Sys2Proof/Machine/Pacer.lean ====
section
/-! DEFINITION. The pacer: moves of pages, timetables and laps, the answers to MARK, and automatic placement (R343 to R349,
R425). -/

namespace Sys2Proof.Machine

/-- The table entry of a 64 KiB page, as it would map the page by itself. -/
def State.pageEntry (s : State) (c vpage : Nat) : Option Nat :=
  match s.walk c (vpage * 0x10000) with
  | .leaf e base _ => some (e + (vpage * 0x10000 - base))
  | _ => none

/-- What a move of a page has to do. -/
inductive MoveNeed where
  /-- The page is where it should be. -/
  | no
  /-- The page cannot be moved. -/
  | never
  /-- Another move or a shoot-down of the page comes first (R341, R350). -/
  | later
  | go (entry : Nat)
  deriving DecidableEq, Repr

/-- What a move of a page to a die, or to the spill area, has to do (R343, R346). A local copy of a peer's replica stays where it
is (log entry 75, DESIGN CHOICE). -/
def State.moveNeed (s : State) (c vpage : Nat) (out : Bool) (tier : Nat) : MoveNeed :=
  let r := s.pageRec c (vpage * 0x10000)
  match r.st with
  | .unmapped | .poisoned => .never
  | .inflight | .shootdown => .later
  | _ =>
    match s.pageEntry c vpage with
    | none => .never
    | some e =>
      let copy := r.owned && entKind r.entry = 1
      if out then (if entKind e ≠ 0 || copy then .no else .go e)
      else if entKind e = 0 && (copy || tier = 15 || homeDie (entAddr e) = tier) then .no
      else .go e

/-- A free unit of a context's spill area: its number and its address in the host's space (R341). -/
def Ctx.spillUnit (x : Ctx) : Option (Nat × Nat) :=
  match x.spill with
  | none => none
  | some (base, n) =>
    ((List.range (min n (x.spillUsed.length + 1))).find? (fun k => !(x.spillUsed.contains k))).map (fun k => (k, base + k * 0x10000))

/-- A move begins (R343, steps 1 and 2): the entry is held, the record is INFLIGHT, and translations are dropped. -/
def State.startMove (s : State) (m : Move) (e dst : Nat) : State :=
  let va := m.vpage * 0x10000
  let s := (s.setPage m.ctx va 0x10000 heldEntry).dropTlb m.ctx va 0x10000
  let s := if entKind e = 0 then s.dropL1 (entAddr e) 0x10000 else s
  let s := s.modPages m.ctx va 0x10000 (fun r => { r with st := .inflight, entry := e })
  let (upTo, s) := s.fresh
  { s with moves := s.moves.map (fun x => if x = m then { x with began := true, old := e, dst := dst, upTo := upTo } else x) }

/-- An earlier move of the same page is still to be carried out: they keep their order (R349). -/
def State.behind (s : State) (m : Move) : Bool :=
  (s.moves.takeWhile (fun x => x ≠ m)).any (fun x => x.ctx = m.ctx && x.vpage = m.vpage && (m.auto || !x.auto))

/-- The entry covers a 64 KiB page. -/
def TtEntry.covers (e : TtEntry) (vpage : Nat) : Bool := e.va / 0x10000 ≤ vpage && vpage < e.va / 0x10000 + e.npages

/-- The 64 KiB pages of an entry. -/
def TtEntry.pages (e : TtEntry) : List Nat := (List.range e.npages).map (fun i => e.va / 0x10000 + i)

/-- The entry fetches. -/
def TtEntry.fetches (e : TtEntry) : Bool := (e.act = 1 || e.act = 2) && e.st ≠ 3

/-- The entry evicts. -/
def TtEntry.evicts (e : TtEntry) : Bool := e.act = 3 && e.st ≠ 3

/-- Groups of a launch packet (R291). -/
def pktGroups (p : List Nat) : Nat := fld (dw p 0) 16 24

/-- A page is claimed by a fetch entry that has begun, until a later evict entry that covers it has been carried out (R346). -/
def State.claimed (s : State) (c vpage : Nat) : Bool :=
  (s.timed c).any (fun l =>
    let tt := ((s.launch c l.1 l.2).tt).zipIdx
    tt.any (fun e => e.1.fetches && e.1.st ≠ 0 && e.1.covers vpage
      && !(tt.any (fun x => x.1.evicts && x.1.st = 2 && x.1.covers vpage
        && (e.1.due < x.1.due || (e.1.due = x.1.due && e.2 < x.2))))))

/-- A waiting move begins, waits on, or is given up (R343): 64 run at a time. A page with a full future bit or a poison mark
is not evicted. An automatic move whose page has been pinned or claimed since is taken back (R346, R348). -/
def State.tryMove (s : State) (m : Move) : State :=
  if m.auto && ((s.pageRec m.ctx (m.vpage * 0x10000)).pinned || s.claimed m.ctx m.vpage) then
    { s with moves := s.moves.filter (fun x => x ≠ m) }
  else if 64 ≤ (s.moves.filter (fun x => x.began)).length || s.behind m then s
  else
    match s.moveNeed m.ctx m.vpage m.out m.tier with
    | .later => s
    | .no => (if m.out then s.dropCopy m.ctx m.vpage else s).moveOver m true 0
    | .never => s.moveOver m false 0
    | .go e =>
      let pa := entAddr e
      if m.out then
        if s.futs.any (fun a => pa ≤ a && a < pa + 0x10000) || s.poisoned pa 0x10000 then s.moveOver m false 0
        else
          match (s.ctx m.ctx).spillUnit with
          | none => s.moveOver m false 0
          | some (k, io) =>
            (s.startMove m e io).modCtx m.ctx (fun x => { x with spillUsed := k :: x.spillUsed })
      else if entKind e = 1 && (linkFails (s.peer (entPeer e)).st).isSome then s.moveOver m false 0
      else if entKind e = 2 && !(s.hostPresent m.ctx pa) then s.askHost m.ctx (m.vpage * 0x10000)
      else
        match s.allocPage 0x10000 (if m.tier < 4 then some m.tier else none) with
        | none => s
        | some (dst, s) => s.startMove m e dst

/-- Waiting moves begin in order, automatic ones behind those of timetables (R348). -/
def State.pumpMoves (s : State) : State :=
  let ms := s.moves.filter (fun m => !m.began)
  (ms.filter (fun m => !m.auto) ++ ms.filter (fun m => m.auto)).foldl State.tryMove s

/-- The trailing lap of a launch (R346): a group that has not become resident counts with 0. -/
def State.trailing (s : State) (c q n : Nat) : Nat :=
  let l := s.launch c q n
  let laps := (s.groupsOfLaunch c q n).map (fun g =>
    if (s.group g).st = .placed then 0 else (s.group g).lap)
  let laps := if l.nextPlace < pktGroups l.pkt || !l.back.isEmpty then 0 :: laps else laps
  match laps with
  | [] => l.lead
  | x :: xs => xs.foldl min x

/-- Pin or unpin the pages of an entry. -/
def State.pinRange (s : State) (c va size : Nat) (on : Bool) : State := s.modPages c va size (fun r => { r with pinned := on })

/-- An entry of a timetable begins (R346): its pages are pinned or unpinned, and its moves are queued. -/
def State.beginEntry (c q n : Nat) (s : State) (i : Nat) : State :=
  match (s.launch c q n).tt[i]? with
  | none => s
  | some e =>
    let m : Move :=
      { ctx := c, vpage := 0, out := e.act = 3, tier := e.tier, auto := false, q := q, seq := n, entry := i, began := false,
        old := 0, dst := 0, upTo := 0 }
    let s := s.modEntry m (fun e => { e with st := 1 })
    let s := if e.act = 2 || e.act = 4 then s.pinRange c e.va (e.npages * 0x10000) true
      else if e.act = 5 then s.pinRange c e.va (e.npages * 0x10000) false else s
    let s := e.pages.foldl (fun s p =>
      match (if s.moves.any (fun x => x.ctx = c && x.vpage = p) then .later
        else s.moveNeed c p m.out (if e.act = 4 || e.act = 5 then 15 else e.tier)) with
      | .never => s.modEntry m (fun e => { e with fails := p :: e.fails })
      | .no => if m.out then s.dropCopy c p else s
      | _ => if e.act = 4 || e.act = 5 then s else { s with moves := s.moves ++ [{ m with vpage := p }] }) s
    s.settleEntry m

/-- The pacer follows a launch's laps (R346, R349): due entries begin in order of lap and index. -/
def State.pace (s : State) (c q n : Nat) : State :=
  let l := s.launch c q n
  let t := s.trailing c q n
  let due := (l.tt.zipIdx).filter (fun e => e.1.st = 0 && (if e.1.act = 3 then e.1.due ≤ t else e.1.start ≤ l.lead))
  if due.isEmpty then s
  else
    let order := sortKey (fun e => (if e.1.act = 3 then e.1.due else e.1.start) * 2 ^ 32 + e.2) due
    ((order.map (·.2)).foldl (State.beginEntry c q n) s).pumpMoves

/-- The pacer follows every launch that runs under a timetable. -/
def State.paceAll (s : State) : State :=
  s.ctxs.foldl (fun s c => (s.timed c.1).foldl (fun s l => s.pace c.1 l.1 l.2) s) s

/-- The page is resident in this package (R347). -/
def State.pageHere (s : State) (c vpage : Nat) : Bool :=
  let r := s.pageRec c (vpage * 0x10000)
  r.st = .resident || (r.st = .replica && (s.pageEntry c vpage).any (fun e => entKind e = 0))

/-- Why a due page is not resident (R347). -/
def State.missReason (s : State) (c vpage tier : Nat) (failed : Bool) : Nat :=
  match s.moves.find? (fun m => m.ctx = c && m.vpage = vpage && m.began), s.moves.any (fun m => m.ctx = c && m.vpage = vpage) with
  | some _, _ => 1
  | none, true => if (s.allocPage 0x10000 (if tier < 4 then some tier else none)).isNone then 3 else 2
  | none, false =>
    match (s.pageRec c (vpage * 0x10000)).st with
    | .shootdown => 2
    | .unmapped => 5
    | _ => if failed then 4 else 5

/-- The first entry whose due pages are not all resident at a lap (R347): its index, the reason, the first such address,
and their number. -/
def State.lapMissing (s : State) (c q n lap : Nat) : Option (Nat × Nat × Nat × Nat) :=
  let tt := (s.launch c q n).tt
  (tt.zipIdx).findSome? (fun e =>
    if !e.1.fetches || lap < e.1.due then none
    else
      let gone := tt.filter (fun x => x.evicts && e.1.due < x.due && x.due ≤ lap)
      let miss := e.1.pages.filter (fun p => gone.all (fun x => !(x.covers p)) && !(s.pageHere c p))
      match miss with
      | [] => none
      | p :: _ => some (e.2, s.missReason c p e.1.tier (e.1.fails.contains p), p * 0x10000, miss.length))

/-- The pacer's answer for a lap: what is missing. A launch without a timetable misses nothing (R245). -/
def State.lapAnswer (s : State) (c q n lap : Nat) : Option (Nat × Nat × Nat × Nat) :=
  if (s.launch c q n).ttOn then s.lapMissing c q n lap else none

/-- A plain MARK misses its lap (R347): the miss record is written where there is room. False: it has to wait. -/
def State.missRecord (s : State) (x : Group) (lap : Nat) (miss : Nat × Nat × Nat × Nat) : Bool × State :=
  let l := s.launch x.ctx x.q x.seq
  let log := l.logaddr ≠ 0 && l.misses < l.logmax
  let (ok, s) := if log then
      s.record x.ctx (l.logaddr + 64 + 32 * l.misses)
        (bytesOf 8 (lap % 2 ^ 16 * 2 ^ 48 + x.index % 2 ^ 24 * 2 ^ 24 + miss.1 % 2 ^ 16 * 2 ^ 8 + miss.2.1)
          ++ bytesOf 8 miss.2.2.1 ++ bytesOf 8 s.timens ++ bytesOf 8 (miss.2.2.2 * 2 ^ 32)) 4
    else (true, s)
  if !ok then (false, s)
  else (true, s.modLaunch x.ctx x.q x.seq (fun l => { l with
    misses := l.misses + 1, unlogged := if log then l.unlogged else l.unlogged + 1 }))

/-- A part's question to the pacer is taken back or answered: the hold goes, and another may take its place. -/
def Gang.setMark (g : Gang) (k : Nat) (h : List Hold) : Gang :=
  g.modPart k (fun p => { p with holds := p.holds.filter (fun x => match x with
    | .mark _ _ => false
    | _ => true) ++ h })

/-- The lap that a held MARK of a part asks about. -/
def Part.asks (p : Part) : Option (Nat × Bool) :=
  p.holds.findSome? (fun h => match h with
    | .mark lap w => some (lap, w)
    | _ => none)

/-- MARK_PACER_ANSWER (R245, R346, R347): the pacer answers a held MARK; `.wait` blocks until the ranges are resident, and a
plain one traps. Lane sets that wait for a lap go on. -/
def execMarkPacerAnswer (gang part : Nat) (s : State) : Host.Outcome State Fault Refusal :=
  let x := s.groupOf gang
  let g := s.gang gang
  if !(g.live && g.stopped.isNone && (x.st = .resident || x.st = .draining)) then .next s
  else
    let s := s.wakeSets gang (s.cycOf gang + 1) (fun _ y => match y.st with
      | .mark lap => (s.lapAnswer x.ctx x.q x.seq lap).isNone
      | _ => false)
    match (s.gang gang).part part with
    | none => .next s
    | some p =>
      match p.asks with
      | none => .next s
      | some (lap, w) =>
        let s := (s.modLaunch x.ctx x.q x.seq (fun l => { l with lead := max l.lead lap })).pace x.ctx x.q x.seq
        match s.lapAnswer x.ctx x.q x.seq lap with
        | none => .next (s.modGang gang (fun g => g.setMark part [.marked lap]))
        | some miss =>
          let pc := g.pcOf p.slices
          if w then .next (s.modGang gang (fun g => (g.setMark part []).block p.slices (.mark lap) pc pc))
          else
            let (ok, s) := s.missRecord x lap miss
            if !ok then .next s
            else
              let s := s.modGang gang (fun g => g.setMark part [])
              .next (s.trap gang p.slices 2 lap pc pc (s.cycOf gang + 1))

/-- A header of a timetable is malformed (R425). -/
def ttBad (d : List Nat) : Bool :=
  dw d 0 % 2 ^ 32 ≠ 1 || 2 ^ 32 ≤ dw d 2 || (List.range 5).any (fun i => dw d (3 + i) ≠ 0)
    || dw d 1 % 64 ≠ 0 || !(canonical (dw d 1))

/-- An entry of a timetable, marked when it is malformed (R344, R425). -/
def ttEntry (d : List Nat) : TtEntry :=
  let w := dw d 2
  let e : TtEntry :=
    { va := dw d 0, npages := dw d 1 / 2 ^ 32, due := fld w 48 16, start := fld w 32 16, tier := fld w 8 4, act := fld w 0 4,
      st := 0, fails := [] }
  let bad := e.act = 0 || 6 ≤ e.act || e.npages = 0 || e.va % 0x10000 ≠ 0 || !(canonical e.va) || e.due < e.start
    || (4 ≤ e.tier && e.tier < 15) || dw d 1 % 2 ^ 32 ≠ 0 || fld w 12 20 ≠ 0 || fld w 4 4 ≠ 0 || dw d 3 ≠ 0
  if bad then { e with st := 3 } else e

/-- A launch starts under its timetable (R344, R425); a malformed header is ignored whole. -/
def Launch.withTable (l : Launch) (head body : List Byte) : Launch :=
  let d := dwordsOf 8 head
  if ttBad d then l
  else
    let es := (List.range (dw d 0 / 2 ^ 32)).map (fun i => ttEntry (dwordsOf 4 (body.drop (32 * i))))
    { l with tt := es, ttOn := true, logaddr := dw d 1, logmax := dw d 2, malformed := (es.filter (fun e => e.st = 3)).length }

/-- Automatic placement may move the page (R348). -/
def State.placeable (s : State) (c vpage : Nat) (r : PageRec) : Bool :=
  !r.pinned && r.st ≠ .inflight && !(s.claimed c vpage) && !(s.moves.any (fun m => m.ctx = c && m.vpage = vpage))

/-- The count of a die in a 2 MiB region (R348). -/
def Ctx.count (x : Ctx) (region die : Nat) : Nat := smGet 0 x.regions (region * 4 + die)

/-- The die of a list with the largest count in a region; the lowest of equals. -/
def Ctx.busiest (x : Ctx) (region : Nat) : List Nat → Nat
  | [] => 0
  | d :: ds => ds.foldl (fun b d => if x.count region b < x.count region d then d else b) d

/-- The sum of a region's counts. -/
def Ctx.regionSum (x : Ctx) (region : Nat) : Nat := ((List.range 4).map (x.count region)).sum

/-- An automatic move. -/
def autoMove (c vpage : Nat) (out : Bool) (tier : Nat) : Move :=
  { ctx := c, vpage := vpage, out := out, tier := tier, auto := true, q := 0, seq := 0, entry := 0, began := false, old := 0, dst := 0, upTo := 0 }

/-- The page lies in local memory, or is on its way (R338). -/
def State.pageLocal (s : State) (c : Nat) (p : Nat × PageRec) : Bool :=
  p.2.st = .inflight || (s.pageEntry c p.1).any (fun e => entKind e = 0)

/-- The automatic moves that a context's counters call for (R348). A 2 MiB region is REMOTE or HOST when none of its pages is local
(log entry 40, DEDUCED). -/
def State.autoMoves (s : State) (c : Nat) (x : Ctx) : List Move :=
  x.pages.filterMap (fun p =>
    let r := p.1 / 32
    match s.placeable c p.1 p.2, s.pageEntry c p.1 with
    | true, some e =>
      if entKind e ≠ 0 then
        (if 256 ≤ x.regionSum r && x.pages.all (fun y => y.1 / 32 ≠ r || !(s.pageLocal c y)) then
          some (autoMove c p.1 false (x.busiest r [0, 1, 2, 3])) else none)
      else
        let h := homeDie (entAddr e)
        let b := x.busiest r ((List.range 4).filter (fun d => d ≠ h))
        if 256 < x.count r b && 2 * x.count r h < x.count r b then some (autoMove c p.1 false b) else none
    | _, _ => none)

/-- Local pages of a die that may be evicted, least used first (R348) (log entry 40, DEDUCED). -/
def State.evictable (s : State) (die : Nat) : List Move :=
  let ps := s.ctxs.flatMap (fun c => if c.2.spill.isNone then [] else c.2.pages.filterMap (fun p =>
    if s.placeable c.1 p.1 p.2 then
      (match s.pageEntry c.1 p.1 with
       | none => none
       | some e =>
         if entKind e = 0 && homeDie (entAddr e) = die && !(s.futs.any (fun a => entAddr e ≤ a && a < entAddr e + 0x10000)) then
           some (c.2.regionSum (p.1 / 32), autoMove c.1 p.1 true 15)
         else none)
    else none))
  (sortKey (·.1) ps).map (·.2)

/-- A die with less than 1 GiB free evicts until 2 GiB is free (R348). -/
def State.makeRoom (s : State) (die : Nat) : State :=
  let free := freeUnits s.usedUnits die
  let leaving := (s.moves.filter (fun m => m.out && (match s.pageEntry m.ctx m.vpage with
    | some e => homeDie (entAddr e) = die
    | none => homeDie (entAddr m.old) = die))).length
  if 16384 ≤ free then s else { s with moves := s.moves ++ (s.evictable die).take (32768 - free - leaving) }

/-- PLACEMENT_COUNTER_HALVING (R348): once a millisecond the counters are judged and halved. -/
def execPlacementCounterHalving (s : State) : Host.Outcome State Fault Refusal :=
  let s : State := { s with moves := s.moves ++ s.ctxs.flatMap (fun c => s.autoMoves c.1 c.2) }
  let s := [0, 1, 2, 3].foldl State.makeRoom s
  let halve := fun (x : Ctx) => { x with regions := (x.regions.map (fun e => (e.1, e.2 / 2))).filter (fun e => e.2 ≠ 0) }
  .next ({ s with ctxs := s.ctxs.map (fun c => (c.1, halve c.2)) } : State).pumpMoves

end Sys2Proof.Machine
end

