-- ==== Sys2Proof/Machine/Maps.lean ====
section
/-! DEFINITION. The map command window (R283, R301, R340, R341, R399) and the end of a page's move (R342, R343, R349). -/

namespace Sys2Proof.Machine

/-- SIZE of a map command in bytes; 0 for the malformed code. -/
def mapSize (d : List Nat) : Nat :=
  match fld (dw d 4) 14 2 with
  | 0 => 0x10000
  | 1 => 0x200000
  | 2 => 0x40000000
  | _ => 0

/-- KIND of a map command. -/
def mapKind (d : List Nat) : Nat := fld (dw d 4) 10 2

/-- Byte offset of the first bad field of a map command (R340), by the byte that holds the field's lowest bit; a reserved field is
ignored (R7) (log entry 41, DEDUCED). -/
def mapBad (d : List Nat) : Option Nat :=
  let op := dw d 0 % 256
  let va := dw d 1
  let n := dw d 2 / 2 ^ 32
  let size := mapSize d
  let t := dw d 3
  let ranged := op = 1 || op = 2 || op = 3 || op = 5 || op = 6
  let kind := mapKind d
  let top := if kind = 0 then Config.hbmBytes else 2 ^ 52
  let bad : List (Bool × Nat) := [
    (op = 0 || 8 ≤ op, 0),
    ((ranged && size ≠ 0 && (va % size ≠ 0 || !(canonical va))) || (op = 4 && (va % 256 ≠ 0 || !(canonical va))), 8),
    (ranged && n ≠ 0 && !(decide (va + n * size ≤ 2 ^ 56 ∨ (2 ^ 63 ≤ va ∧ va + n * size ≤ 2 ^ 64))), 20),
    ((op = 1 && t ≠ 0 && size ≠ 0 && (t % size ≠ 0 || top < t + n * size)) || (op = 7 && t % 0x10000 ≠ 0), 24),
    (size = 0 || (op = 1 && kind = 3), 33), (dw d 6 % 16 ≠ 0, 48)]
  (bad.find? (·.1)).map (·.2)

/-- The function may not reach the window of the context (R399). -/
def State.foreign (s : State) (fn c : Nat) : Bool :=
  let x := s.ctx c
  if x.st = .free then fn ≠ 0 else x.vf ≠ fn

/-- A page of the range is in flight or in a shoot-down (R341). -/
def State.rangeBusy (s : State) (c va size : Nat) : Bool :=
  (s.ctx c).pages.any (fun p => va / 0x10000 ≤ p.1 && p.1 < (va + size) / 0x10000 && (p.2.st = .inflight || p.2.st = .shootdown))

/-- Pages of a size in a range that have a mapping. -/
def State.mappedIn (s : State) (c va size n : Nat) : Nat :=
  ((List.range n).filter (fun i =>
    let lo := va + i * size
    (s.ctx c).pages.any (fun p => lo / 0x10000 ≤ p.1 && p.1 < (lo + size) / 0x10000 && p.2.st ≠ .unmapped))).length

/-- A command has been carried out: its status waits for what still uses the old translation (R283). -/
def State.mapDone (s : State) (c va len rec_ value : Nat) : State :=
  { s with mapFin := s.mapFin ++ [⟨c, va, len, rec_, value, s.nextId⟩] }

/-- The pacer allocates a page for each of `n`, or none (R341). -/
def allocAll (size : Nat) : Nat → State → Option (List Nat × State)
  | 0, s => some ([], s)
  | n + 1, s =>
    match s.allocPage size none with
    | none => none
    | some (pa, s) => (allocAll size n s).map (fun r => (pa :: r.1, r.2))

/-- Map one page (R341): the old translation goes first, and a local page's future bits start 0 (R333). -/
def State.mapPage (c size kind peer : Nat) (w ro wrev owned : Bool) (s : State) (p : Nat × Nat) : State :=
  let s := s.clearPage c p.1 size
  let s : State := if kind = 0 then { s with futs := s.futs.filter (fun a => !(p.2 ≤ a && a < p.2 + size)) } else s
  let r : PageRec := { st := if ro then .replica else kindState kind, wrev := wrev, pinned := false, owned := owned, entry := 0, size := size }
  (s.setPage c p.1 size (mkLeaf p.2 kind (if kind = 1 then peer else 0) w false ro)).putPages c p.1 size r

/-- Map (R341): the new state, or none where the pacer has no space. ROREP and WREV read as zero without their feature (R24)
(log entry 71, DESIGN CHOICE). -/
def State.mapRange (s : State) (c : Nat) (d : List Nat) : Option State :=
  let size := mapSize d
  let n := dw d 2 / 2 ^ 32
  let kind := mapKind d
  let own := kind = 0 && dw d 3 = 0
  let bit := fun (k : Nat) => (dw d 4).testBit k && (k = 7 || s.feature 11)
  let got := if own then allocAll size n s else some ((List.range n).map (fun i => dw d 3 + i * size), s)
  match got with
  | none => none
  | some (addrs, s) =>
    let pages := addrs.mapIdx (fun i a => (dw d 1 + i * size, a))
    let s := pages.foldl (State.mapPage c size kind (fld (dw d 4) 55 9) (bit 7) (bit 8) (bit 9) own) s
    some (s.ackRange c (dw d 1) (n * size))

/-- Set the attributes of the leaves of a range (R341): a leaf that reaches beyond it is divided. W clears X (R81). -/
def setAttrs (c hi : Nat) (w ro wrev : Bool) : Nat → Nat → State → State
  | 0, _, s => s
  | f + 1, va, s =>
    if hi ≤ va then s
    else
      match s.walk c va with
      | .leaf e base size =>
        let n := if base = va && va + size ≤ hi then size else 0x10000
        let e' := mkLeaf (entAddr (e + (va - base))) (entKind e) (entPeer e) w (entX e && !w) ro
        let s := if entX e && w then s.dropProofs c va n else s
        -- a page that the command divides is a page no more
        let s := if n = size then s else s.modPages c base size (fun r => { r with size := 0x10000 })
        let s := ((s.setPage c va n e').dropTlb c base size).modPages c va n
          (fun r => { r with st := if ro then .replica else kindState (entKind e), wrev := wrev })
        setAttrs c hi w ro wrev f (va + n) s
      | _ => setAttrs c hi w ro wrev f (va + 0x10000) s

/-- REPLICA pages of a range. -/
def State.replicasIn (s : State) (c va len : Nat) : List Nat :=
  ((s.ctx c).pages.filter (fun p => va / 0x10000 ≤ p.1 && p.1 < (va + len) / 0x10000 && p.2.st = .replica)).map (·.1)

/-- Carry out a map command of a live context; none: it waits (R341). One with ROREP or WREV is not supported without their feature
(R24) (log entry 71, DESIGN CHOICE). -/
def State.mapAct (s : State) (c : Nat) (d : List Nat) : Option State :=
  let op := dw d 0 % 256
  let va := dw d 1
  let n := dw d 2 / 2 ^ 32
  let len := n * mapSize d
  let rec_ := dw d 6
  let w := (dw d 4).testBit 7
  let ro := (dw d 4).testBit 8
  let wrev := (dw d 4).testBit 9
  let count := s.mappedIn c va (mapSize d) n
  if (op = 1 || op = 3) && (ro || wrev) && !(s.feature 11) then some (s.status rec_ (13 + Config.notSupported.toNat % 243) 0 0)
  else if op = 4 then some { s with proofq := s.proofq ++ [⟨c, va, dw d 5, rec_, false⟩] }
  else if op = 7 then
    if !((s.ctx c).spillUsed.isEmpty) then some (s.status rec_ 4 0 0)
    else some ((s.modCtx c (fun x => { x with spill := some (dw d 3, n) })).status rec_ 0 0 n)
  else if s.rangeBusy c va len then none
  else if (op = 1 || op = 3) && ((w && ro) || (wrev && !ro)) then some (s.status rec_ 4 0 0)
  else if op = 1 then
    match s.mapRange c d with
    | none => some (s.status rec_ 3 0 0)
    | some s => some (s.mapDone c va len rec_ n)
  else if op = 2 then
    let s := (List.range n).foldl (fun s i => s.clearPage c (va + i * mapSize d) (mapSize d)) s
    some ((s.ackRange c va len).mapDone c va len rec_ count)
  else if op = 3 then
    let reps := s.replicasIn c va len
    if w && !reps.isEmpty then none
    else
      let s := if ro then s else reps.foldl (fun s p => s.dropCopy c p) s
      let s := setAttrs c (va + len) w ro wrev (len / 0x10000) va s
      some ((s.ackRange c va len).mapDone c va len rec_ count)
  else some ((s.pinRange c va len (op = 5)).status rec_ 0 0 count)

/-- Execute one map command of a context (R340); none: it waits. Setting W on a REPLICA page first runs its shoot-down
(R341). -/
def State.runMap (s : State) (fn : Nat) (cmd : List Dword) : Option State × State :=
  let d := cmd.map (·.toNat)
  let c := fld (dw d 0) 16 6
  let rec_ := dw d 6
  if s.foreign fn c then (some (s.status rec_ 11 0 0), s)
  else
    match mapBad d with
    | some off => (some (s.status rec_ 2 off 0), s)
    | none =>
      if (s.ctx c).st ≠ .live then (some (s.status rec_ 1 0 0), s)
      else
        match s.mapAct c d with
        | some s' => (some s', s)
        | none =>
          let len := dw d 2 / 2 ^ 32 * mapSize d
          if dw d 0 % 256 = 3 && (dw d 4).testBit 7 then
            (none, (s.replicasIn c (dw d 1) len).foldl (fun s p => s.shootDown c (p * 0x10000)) s)
          else (none, s)

/-- Statuses of map commands that wait for nothing more are written. -/
def State.finMaps (s : State) : State :=
  (s.mapFin.filter (fun m => !(s.oldUse m.ctx m.va m.len m.upTo))).foldl (fun s m =>
    ({ s with mapFin := s.mapFin.filter (fun x => x ≠ m) } : State).status m.statrec 0 0 m.value) s

/-- A map command of the context is still under way (R340). -/
def State.mapBusy (s : State) (c : Nat) : Bool :=
  s.mapFin.any (fun m => m.ctx = c) || s.proofq.any (fun r => r.ctx = c && !r.safe)

/-- The context that a command names. -/
def cmdCtx (cmd : List Dword) : Nat := fld (cdw cmd 0) 16 6

/-- Waiting map commands of a context are taken in order, as far as they go (R340). -/
def State.mapsOn (c : Nat) : Nat → State → State
  | 0, s => s
  | n + 1, s =>
    if s.mapBusy c then s
    else
      match s.mapWait.find? (fun w => cmdCtx w.2 = c) with
      | none => s
      | some w =>
        match s.runMap w.1 w.2 with
        | (none, s) => s
        | (some s', _) => State.mapsOn c n ({ s' with mapWait := s'.mapWait.erase w } : State).finMaps

/-- Map commands go on where they can. -/
def State.settleMaps (s : State) : State :=
  let s := s.finMaps
  ((s.mapWait.map (fun w => cmdCtx w.2)).eraseDups).foldl (fun s c => State.mapsOn c s.mapWait.length s) s

/-- A store to the map command window with operation `op` (R340): commands of one context run in the order of their stores.
Another number of bytes is dropped. -/
def State.mapStore (s : State) (op fn : Nat) (cmd : List Dword) : State :=
  let k := cdw cmd 0 % 256
  if cmd.length ≠ 8 || s.writeStage = none || !(k = op || (op = 1 && (k = 0 || 8 ≤ k))) then s
  else ({ s with mapWait := s.mapWait ++ [(fn, cmd)] } : State).settleMaps

/-- MAP (R341), and a store whose operation is none of R340's. -/
def execMapMap (fn : Nat) (cmd : List Dword) (s : State) : Host.Outcome State Fault Refusal := .next (s.mapStore 1 fn cmd)
/-- UNMAP (R341). -/
def execMapUnmap (fn : Nat) (cmd : List Dword) (s : State) : Host.Outcome State Fault Refusal := .next (s.mapStore 2 fn cmd)
/-- SET ATTRIBUTES (R341). -/
def execMapSetAttributes (fn : Nat) (cmd : List Dword) (s : State) : Host.Outcome State Fault Refusal :=
  .next (s.mapStore 3 fn cmd)
/-- PROOF (R109, R341): the request goes to the proofer. -/
def execMapProof (fn : Nat) (cmd : List Dword) (s : State) : Host.Outcome State Fault Refusal := .next (s.mapStore 4 fn cmd)
/-- PIN (R341). -/
def execMapPin (fn : Nat) (cmd : List Dword) (s : State) : Host.Outcome State Fault Refusal := .next (s.mapStore 5 fn cmd)
/-- UNPIN (R341). -/
def execMapUnpin (fn : Nat) (cmd : List Dword) (s : State) : Host.Outcome State Fault Refusal := .next (s.mapStore 6 fn cmd)
/-- SPILL AREA (R341). -/
def execMapSpillArea (fn : Nat) (cmd : List Dword) (s : State) : Host.Outcome State Fault Refusal :=
  .next (s.mapStore 7 fn cmd)

/-- Copy `n` bytes of a memory. -/
def copyCells (src dst : Memory) (from_ to_ n : Nat) : Memory :=
  Memory.writeAll (Memory.clear dst to_ n)
    ((src.filter (fun e => from_ ≤ e.1 && e.1 < from_ + n)).map (fun e => (to_ + (e.1 - from_), e.2)))

/-- What reading a peer's page gives: its bytes and the 32-byte sectors that are marked. -/
inductive Pull where
  | wait
  | failed
  | got (bs : List Byte) (bad : List Nat)
  deriving DecidableEq, Repr

/-- Read a page of a peer block by block (R343): answers are kept until the whole is there. -/
def State.pullPage (s : State) (m : Move) : Pull × State :=
  let use : FarUse := .move m.ctx m.vpage m.upTo
  let pa := entAddr m.old
  let far := s.far
  let (as, s) := (List.range 256).foldl (fun (acc : List (Option FarData) × State) i =>
    let (a, s) := acc.2.farAsk (entPeer m.old) (.read (pa + 256 * i) 256) use (pa + 256 * i)
    (acc.1 ++ [a], s)) ([], s)
  if as.any (fun a => a.isNone) then
    (.wait, { s with far := far.filter (fun f => f.use = use) ++ s.far.filter (fun f => f.use ≠ use) })
  else
    let fs := as.filterMap id
    if fs.any (fun f => f.data.isNone) then (.failed, s)
    else (.got (fs.flatMap (fun f => f.data.getD [])) (fs.zipIdx.flatMap (fun f =>
      ((List.range 8).filter (fun k => f.1.poison.testBit k)).map (fun k => f.2 * 8 + k))), s)

/-- The data of a move has arrived (R343, steps 3 and 4): the new entry is written. `s` already holds the bytes. -/
def State.placeMoved (s : State) (m : Move) : State :=
  let va := m.vpage * 0x10000
  let r := s.pageRec m.ctx va
  let kind := if m.out then 2 else 0
  let copy := entRo m.old && entKind m.old = 1
  let s := s.setPage m.ctx va 0x10000 (mkLeaf m.dst kind 0 (entW m.old) (entX m.old) (entRo m.old))
  let s := s.modPages m.ctx va 0x10000 (fun r => { r with
    st := if entRo m.old && !m.out then .replica else kindState kind, owned := !m.out, entry := if copy then m.old else 0 })
  let s := if entKind m.old = 0 && r.owned then s.freeHbm (entAddr m.old) 0x10000 else s
  let s := if entKind m.old = 2 then s.freeSpill m.ctx (entAddr m.old) else s
  s.moveOver m true 0x10000

/-- Parks on futures of a local page that moves are presented again at its new home (R333, R334). -/
def State.unparkPage (s : State) (pa : Nat) : State :=
  let hit := fun (w : Waiter) => pa ≤ w.cell && w.cell < pa + 0x10000
  let us := ((s.fwait.filter hit).flatMap (fun w => w.parts.map (·.1))).eraseDups
  us.foldl (fun s u => s.modGang u (fun g => g.unpark (s.cyc g.core))) { s with fwait := s.fwait.filter (fun w => !(hit w)) }

/-- Code bytes of a page that leaves local memory stay with the proofs of its context (log entry 13, DEDUCED). -/
def State.keepCode (s : State) (m : Move) : State :=
  let va := m.vpage * 0x10000
  let bs := s.rd (entAddr m.old) 0x10000
  let keep := fun (p : Proof) =>
    if p.ctx = m.ctx && p.pages.contains m.vpage then
      ({ p with far := Memory.writeAll p.far ((bs.mapIdx (fun i b => (va + i, b))).filter (fun x => p.base ≤ x.1 && x.1 < p.base + p.len)) } : Proof)
    else p
  if entX m.old then { s with proofs := s.proofs.map keep } else s

/-- Copy the data of a move from local memory, with the future bits and poison marks of the page. Data of a transaction that fails on the
way to another die arrives marked (R354) (log entry 65, DEDUCED). -/
def State.moveLocal (s : State) (m : Move) : State :=
  let a := entAddr m.old
  if m.out then
    let k := (m.ctx, m.dst / 0x10000)
    let s := s.keepCode m
    { s with
      host := copyCells s.mem s.host a (hostKey m.ctx m.dst) 0x10000
      hostHere := if s.hostHere.contains k then s.hostHere else k :: s.hostHere }
  else
    let to_ := fun (x : Nat) => m.dst + (x - a)
    let here := fun (x : Nat) => decide (a ≤ x ∧ x < a + 0x10000)
    let lost := s.crossDie (homeDie a) (homeDie m.dst)
    let s : State := { s with
      mem := copyCells s.mem s.mem a m.dst 0x10000
      futs := s.futs.map (fun x => if here x then to_ x else x)
      poison := s.poison ++ (s.poison.filter (fun x => here (32 * x.1))).map (fun x => (to_ (32 * x.1) / 32, x.2)) }
    if lost then (List.range 8).foldl (fun s k => s.mark (m.dst + 32 * k) 4) (s.crossed (homeDie a)) else s

/-- A move is over: commands that wait for the page come first (R349), then its lanes (R342), then other moves. -/
def State.afterMove (s : State) (c vpage : Nat) : State := (s.settleMaps.ackPage c vpage).pumpMoves

/-- PAGE_MOVE_COMPLETE (R343): the data of a page under way has been copied, if every access through the old translation has been
performed (R283) and the data can be read by now. -/
def execPageMoveComplete (ctx vpage : Nat) (s : State) : Host.Outcome State Fault Refusal :=
  match s.moves.find? (fun m => m.ctx = ctx && m.vpage = vpage && m.began) with
  | none => .next s
  | some m =>
    if s.oldUse ctx (vpage * 0x10000) 0x10000 m.upTo then .next s
    else
    match entKind m.old with
    | 0 => .next ((((s.moveLocal m).unparkPage (entAddr m.old)).placeMoved m).afterMove ctx vpage)
    | 1 =>
      (match s.pullPage m with
       | (.wait, s) => .next s
       | (.failed, s) => .next ((s.abandonMove m).afterMove ctx vpage)
       | (.got bs bad, s) =>
         let s : State := { s with
           mem := Memory.writeN s.mem m.dst bs
           poison := s.poison ++ bad.map (fun k => (m.dst / 32 + k, 4)) }
         .next ((s.placeMoved m).afterMove ctx vpage))
    | _ =>
      let io := entAddr m.old
      if !(s.hostPresent ctx io) then .next (s.askHost ctx (vpage * 0x10000))
      else
        let s : State := { s with mem := copyCells s.host s.mem (hostKey ctx io) m.dst 0x10000 }
        .next ((s.placeMoved m).afterMove ctx vpage)

end Sys2Proof.Machine
end

