-- ==== Sys2Proof/Machine/Queue.lean ====
section
/-! DEFINITION. Queues: submissions, commands, and the start of launches (R247, R290 to R297, R299 to R302, R305). -/

namespace Sys2Proof.Machine

/-- The fixed checks of a packet (R292): the PKTERR of the first that fails. -/
def packetErr (p : List Nat) : Option Nat :=
  let dep := fun (k : Nat) => dw p (6 + k)
  if dw p 0 % 256 ≠ 1 then some 1
  else if dw p 0 / 2 ^ 40 ≠ 0 || fld (dw p 0) 11 5 ≠ 0 || fld (dep 0) 32 24 ≠ 0 || fld (dep 1) 32 24 ≠ 0
      || (List.range 7).any (fun i => dw p (9 + i) ≠ 0) then some 2
  else if pktGroups p = 0 then some 3
  else if dw p 1 % 256 ≠ 0 || !(canonical (dw p 1)) || dw p 3 % 64 ≠ 0 || !(canonical (dw p 3))
      || dw p 4 % 8 ≠ 0 || !(canonical (dw p 4)) then some 4
  else if fld (dep 0) 56 2 = 3 || fld (dep 1) 56 2 = 3 then some 5
  else none

/-- The sequence number after one (R292): it wraps from 0xFFFF_FFFF to 1. -/
def seqNext (n : Nat) : Nat := if n = 0xFFFFFFFF then 1 else n + 1
/-- The sequence number before one. -/
def seqPrev (n : Nat) : Nat := if n ≤ 1 then 0xFFFFFFFF else n - 1

/-- A launch as it is accepted. -/
def Launch.held (p : List Nat) : Launch := { (default : Launch) with pkt := p, throttled := [0, 0, 0, 0, 0, 0] }

/-- What becomes of a submission (R292): accepted, or its PKTERR. -/
def Queue.accepts (x : Queue) (p : List Nat) : Option Nat :=
  if x.st ≠ .idle && x.st ≠ .active then some 0x10
  else if 64 ≤ x.heldCount then some 0x11
  else packetErr p

/-- Accept a packet into a queue (R292, R294). -/
def Queue.take (x : Queue) (p : List Nat) : Queue :=
  let n := seqNext x.last
  { x with last := n, launches := smPut x.launches n (Launch.held p), st := .active, ended := smDel x.ended n }

/-- Count a host submission that is dropped (R290, R292). -/
def Queue.drop (x : Queue) (reason : Nat) : Queue := { x with drops := min 0xFFFFFFFF (x.drops + 1), pkterr := reason }

/-- A submission arrives at its queue processor (R293). -/
def State.arrive (s : State) (c q : Nat) (x : Submission) : State := s.modQueue c q (fun y => { y with inbox := y.inbox ++ [x] })

/-- HOST_SUBMISSION (R290, R292, R293, R399): a write of `len` bytes at offset `off` of the submission range of a window. It is
accepted, or dropped, in a later cycle of the queue processor. -/
def execHostSubmission (fn ctx q off len : Nat) (dwords : List Dword) (s : State) : Host.Outcome State Fault Refusal :=
  if 64 ≤ ctx || s.foreign fn ctx || (s.ctx ctx).st = .free || 64 ≤ q || 0x80 ≤ off then .next s
  else if off ≠ 0 || len ≠ 128 || dwords.length ≠ 16 then .next (s.modQueue ctx q (fun x => x.drop 0x12))
  else
    .next (s.arrive ctx q ⟨s.hubCycle, 0, 0, dwords.map (·.toNat), none⟩)

/-- The LAUNCH status of a refusal (R247, R292). -/
def launchStatus (e : Nat) : Nat := if e = 0x10 then 1 else if e = 0x11 then 2 else 3

/-- LAUNCH is answered: S[d] takes the status and the part goes on (R247). -/
def State.answerLaunch (s : State) (u : Nat) (h : Hold) (sd st : Nat) : State :=
  (s.modGang u (fun g => g.setS sd st)).unhold u h

/-- The part of a gang that has a hold, if it is still there. -/
def Gang.hasHold (g : Gang) (h : Hold) : Bool := g.parts.any (fun p => p.holds.contains h)

/-- Accept one submission of a queue, or refuse it (R292, R294): a host store that fails is dropped, a LAUNCH gets its status. -/
def State.submit (s : State) (c q : Nat) (x : Submission) : State :=
  let answer := fun (s : State) (st : Nat) => match x.asker with
    | some (u, .submitted sd n) => if (s.gang u).hasHold (.submitted sd n) then s.answerLaunch u (.submitted sd n) sd st else s
    | _ => s
  match (s.queue c q).accepts x.pkt with
  | none => answer (s.modQueue c q (fun y => y.take x.pkt)) 0
  | some e => if x.asker.isNone then s.modQueue c q (fun y => y.drop e) else answer s (launchStatus e)

/-- The place of a submission in the order of R293: the cycle of its arrival, host stores first, then LAUNCHes by core and issue. -/
def Submission.key (x : Submission) : Nat := (x.cyc * 512 + x.rank) * 2 ^ 64 + x.order

/-- A queue's processor accepts one submission in its cycle (R293), of those that arrived in earlier ones. -/
def State.acceptOne (s : State) (c q : Nat) : State :=
  match sortKey Submission.key (s.queue c q).inbox with
  | [] => s
  | x :: rest =>
    if s.hubCycle ≤ x.cyc then s
    else (s.modQueue c q (fun y => { y with inbox := rest })).submit c q x

/-- A cycle of the queue processors begins: no group has been placed in it, and each queue accepts a submission (R293, R313). -/
def State.hubBegin (s : State) : State :=
  let s : State := { s with placed := [] }
  s.ctxs.foldl (fun s c => c.2.queues.foldl (fun s q => if q.2.inbox.isEmpty then s else s.acceptOne c.1 q.1) s) s

/-- The failure bit of a packet read that failed (R180, R247). -/
def State.packetFail (s : State) (c pa : Nat) : Nat :=
  match s.walk c pa with
  | .leaf e _ _ => if entKind e = 1 && (s.peer (entPeer e)).st = .dead then fDead else fRefused
  | _ => fRefused

/-- LAUNCH_PACKET_READ (R247, R292, R293, R296): once the gang's earlier accesses are released at `.dev`, the packet is read and
submitted. The part goes on when the queue processor has accepted or refused it. A
queue number of 64 or more is answered without a read (log entry 92, DESIGN CHOICE). -/
def execLaunchPacketRead (gang part : Nat) (s : State) : Host.Outcome State Fault Refusal :=
  let g := s.gang gang
  let x := s.group g.group
  match (g.part part).bind (fun p => p.holds.find? (fun h => match h with
    | .launch _ _ _ _ => true
    | _ => false)) with
  | some (.launch sd q pa n) =>
    if !(g.earlierDone .dev n) || !(x.st = .resident || x.st = .draining) then .next s
    else if 64 ≤ q then .next (s.answerLaunch gang (.launch sd q pa n) sd 4)
    else
      (match s.hubRead g.ctx pa 128 (.packet gang part) with
       | (.wait, s) => .next s
       | (.bad cause detail, s) =>
         let at_ := g.pcOf (2 ^ part)
         -- the LAUNCH made the access: the bundle before the one at which the held part stands (log entry 24, DEDUCED)
         .next (s.sysFault gang cause ((s.prevHead g.ctx at_).getD at_) pa detail)
       | (.failed, s) =>
         .next ((s.fail gang (s.packetFail g.ctx pa) 1).answerLaunch gang (.launch sd q pa n) sd 3)
       | (.got bs, s) =>
         let s := s.modGang gang (fun g => { g with parts := g.parts.map (fun p => { p with
           holds := p.holds.map (fun h => if h = .launch sd q pa n then .submitted sd n else h) }) })
         .next (s.arrive g.ctx q ⟨s.hubCycle, g.core + 1, n, dwordsOf 16 bs, some (gang, .submitted sd n)⟩))
  | _ => .next s

/-- Groups of a queue that are in one of some states. -/
def State.queueGroups (s : State) (c q : Nat) : List Nat :=
  (s.groups.filter (fun e => e.2.ctx = c && e.2.q = q)).map (·.1)

/-- The window's function owns the context, and the context exists (R399). -/
def State.queueOwned (s : State) (fn c q : Nat) : Bool := c < 64 && !(s.foreign fn c) && (s.ctx c).st ≠ .free && q < 64

/-- A command acts if the queue's state allows it; otherwise it sets CMDERR (R294). A window of another function drops it. -/
def State.queueCmd (s : State) (fn c q : Nat) (ok : Bool) (act : State → State) : State :=
  if !(s.queueOwned fn c q) then s
  else if ok then act (s.modQueue c q (fun x => { x with cmderr := 0 }))
  else s.modQueue c q (fun x => { x with cmderr := 1 })

/-- A launch ends without having run, or all its groups have retired (R295, R305): it is ENDING from now on, and one that was STARTED
has triggered. -/
def State.ending (s : State) (c q n st err : Nat) : State :=
  let t := s.timens
  s.modLaunch c q n (fun l => if l.st = 0 then
      { l with st := 3, status := st, hdrErr := err, tstart := t, ttrig := t, tend := t }
    else { l with st := 3, status := st, ttrig := if l.st = 1 then t else l.ttrig, tend := t })

/-- Started launches that have not ended keep their groups; the others end with a status (R294). -/
def State.cancelHeld (s : State) (c q st : Nat) : State :=
  ((s.queue c q).launches.filter (fun l => l.2.st = 0)).foldl (fun s l => s.ending c q l.1 st 0) s

/-- The key of a launch that a disable has ended and whose record is still to be written, once the queue's numbers begin again: it is
beyond every sequence number, which it equals modulo 2^32. -/
def oldKey (n : Nat) : Nat := n + 2 ^ 32

/-- QUEUE_ENABLE: QCMD 1 (R294). -/
def execQueueEnable (fn ctx q : Nat) (s : State) : Host.Outcome State Fault Refusal :=
  let x := s.queue ctx q
  .next (s.queueCmd fn ctx q (x.st = .disabled && x.qbuf ≠ 0 && x.faultbase ≠ 0) (fun s =>
    s.modQueue ctx q (fun x => { x with
      st := .idle, last := 0, done := 0, ended := [], launches := x.launches.map (fun l => (oldKey l.1, l.2)) })))

/-- QUEUE_DRAIN: QCMD 2 (R294); a queue that holds nothing is DISABLED at once. -/
def execQueueDrain (fn ctx q : Nat) (s : State) : Host.Outcome State Fault Refusal :=
  let x := s.queue ctx q
  .next (s.queueCmd fn ctx q (x.st = .idle || x.st = .active) (fun s =>
    s.modQueue ctx q (fun x => { x with st := if x.heldCount = 0 then .disabled else .draining })))

/-- QUEUE_HALT: QCMD 3 (R294). -/
def execQueueHalt (fn ctx q : Nat) (s : State) : Host.Outcome State Fault Refusal :=
  let x := s.queue ctx q
  .next (s.queueCmd fn ctx q (x.st = .idle || x.st = .active) (fun s => s.modQueue ctx q (fun x => { x with st := .halted })))

/-- QUEUE_RESUME: QCMD 4 (R294). -/
def execQueueResume (fn ctx q : Nat) (s : State) : Host.Outcome State Fault Refusal :=
  let x := s.queue ctx q
  .next (s.queueCmd fn ctx q (x.st = .halted) (fun s =>
    s.modQueue ctx q (fun x => { x with st := if x.heldCount = 0 then .idle else .active })))

/-- QUEUE_DISABLE: QCMD 5 (R294): in HALTED, with no group of the queue placed or resident, held launches end with status
2, started ones too (log entry 9, DEDUCED). Any group that has not retired bars it (log entry 95, DESIGN CHOICE). -/
def execQueueDisable (fn ctx q : Nat) (s : State) : Host.Outcome State Fault Refusal :=
  let x := s.queue ctx q
  let clear := (s.queueGroups ctx q).isEmpty
  .next (s.queueCmd fn ctx q (x.st = .idle || (x.st = .halted && clear)) (fun s =>
    let s := x.launches.foldl (fun s l => if l.2.st = 3 then s else s.ending ctx q l.1 2 0) s
    s.modQueue ctx q (fun x => { x with st := .disabled })))

/-- A group leaves its fault-record slot (R294, R298): waiting records are written, and with no group parked the prior state of the
queue returns. -/
def State.freeSlot (s : State) (c q slot : Nat) : State :=
  let s := s.modQueue c q (fun x => { x with slots := smDel x.slots slot })
  let s := s.tryRecords c q 16
  if (s.queueGroups c q).any (fun g => (s.group g).st = .parked) then s
  else
    s.modQueue c q (fun x => { x with st := match x.kept with
      | .active | .idle => if x.heldCount = 0 then .idle else .active
      | .draining => if x.heldCount = 0 then .disabled else .draining
      | st => st })

/-- A parked group resumes (R311, R318): its gangs go on at their stopped bundles, lanes and engine commands that wait on a
fault try again, its watchdog counts start at 0 (R384), and errors consumed while it was PARKED are resolved. -/
def State.resumeGroup (s : State) (g : Nat) : State :=
  let owed := (s.group g).owed
  let s := s.modGroup g (fun x => { x with st := x.from_, fault := none, owed := [] })
  let us := ((s.gangs.filter (fun e => e.2.group = g)).map (·.1))
  let s := us.foldl (fun s u => s.modGang u (fun y => { y with
    stopped := none
    parts := y.parts.map (fun p => { p with idle := 0 })
    slices := y.slices.map (fun x => x.modSets (fun z => { z with idle := 0 }))
    accs := y.accs.map (fun e => (e.1, { e.2 with lanes := e.2.lanes.map (fun l =>
      if l.st.buffered then { l with st := .queued } else l) })) })) s
  let core := (s.group g).core
  let s := s.modCore core (fun k => { k with
    copyq := k.copyq.map (fun e => if us.contains e.2.gang then (e.1, { e.2 with held := none, barred := false }) else e)
    matq := k.matq.map (fun e => if e.2.group = g then (e.1, { e.2 with held := none, barred := false }) else e) })
  owed.foldl (fun s e => s.later (.uncorrectableErrorConsumed g e.1 e.2)) (s.pump us)

/-- A kill drops a gang's lanes in the replay buffer (R289), and the data that has not arrived. -/
def Gang.dropLanes (g : Gang) : Gang :=
  { g with accs := g.accs.map (fun e => (e.1, { e.2 with lanes := e.2.lanes.map (fun l =>
      if l.st.buffered || l.st = .arriving then { l with st := .done } else l) })) }

/-- A gang is killed where it stopped (R289, R311): its lanes in the replay buffer and its parks are dropped. One that has exited
dies no more. -/
def State.killGang (s : State) (u : Nat) : State :=
  let g := s.gang u
  if !g.live && !g.waiting then s
  else
    let s := s.modGang u (fun g => { g.dropLanes with
      slices := g.slices.map (fun x => { x with sets := [], cur := none, ldq := [] })
      parts := [], stopped := none, waiting := false })
    ((s.gangDied u).leaveForks u).sweepAccs u

/-- The command of a killed group will never complete by itself: it is held on a fault, or its MMAC instance is not
complete. -/
def MatCmd.stuck (m : MatCmd) : Bool :=
  m.waits || (match m.i with
    | .mmac _ => m.fired.isNone
    | _ => false)

/-- The commands of a killed group that would never complete end in failure (R209, R289): copies and a ZRET of mode 10 that are held on
a fault, and an MMAC whose instance is not complete (log entry 10, DEDUCED). -/
def State.failCmds (s : State) (g : Nat) : State :=
  let core := (s.group g).core
  let held := ((s.core core).copyq.filter (fun e => e.2.group = g && e.2.waits)).map (·.1)
  let stuck := ((s.core core).matq.filter (fun e => e.2.group = g && e.2.stuck)).map (·.1)
  let t := s.cyc core
  let s := held.foldl (fun s k => s.failCopy core k 0) s
  stuck.foldl (fun s k => s.modMat core k (fun m => { m with
    failed := true, wrote := true, held := none, barred := false, fired := some (m.fired.getD t) })) s

/-- The clears of some groups go; where that brings another to the head, it starts now (R314). -/
def Core.dropClears (k : Core) (gs : List Nat) (now : Nat) : Core :=
  { k with clears := match k.clears.filter (fun e => !(gs.contains e.group)) with
    | [] => []
    | e :: es => (if k.clears.head? = some e then e else { e with start := max e.start now }) :: es }

/-- Lanes of a killed group (R289): what waits on a fault is dropped, and what waited behind it goes on. -/
def State.dropWaits (s : State) (us : List Nat) : State := (us.foldl (fun s u => s.modGang u Gang.dropLanes) s).pump us

/-- A group is killed (R311, R322): every gang dies where it stopped, and it drains. -/
def State.killGroup (s : State) (g cause : Nat) : State :=
  let x := s.group g
  let us := (s.gangs.filter (fun e => e.2.group = g)).map (·.1)
  let s := (s.modGroup g (fun y => { y with killed := some (x.killed.getD cause) })).dropWaits us
  let s := (us.foldl State.killGang s).failCmds g
  let s := s.modCore x.core (fun k => k.dropClears [g] (s.cyc x.core))
  s.modGroup g (fun y => { y with
    st := .draining, from_ := .draining, killed := some (x.killed.getD cause), fault := none, snapDue := none, rolling := false, owed := [] })

/-- Commands on parked groups go on (R294, R422): once VALID := 0 is written, or dropped, the group resumes (R318) or dies for its
fault's cause (R311, R370), and its slot is free. -/
def State.leaveSlots (s : State) (c q : Nat) : State :=
  (s.queue c q).leaving.foldl (fun s e =>
    let (ok, s) := s.record c e.2.1 [0] 1
    if !ok then s
    else
      let s := s.modQueue c q (fun x => { x with leaving := x.leaving.filter (fun y => y ≠ e) })
      match smFind (s.queue c q).slots e.1 with
      | none => s
      | some g =>
        let cause := ((s.group g).fault.map (·.cause)).getD 0
        (if e.2.2 then s.killGroup g cause else s.resumeGroup g).freeSlot c q e.1) s

/-- Every queue's commands on parked groups go on. -/
def State.leaveAllSlots (s : State) : State :=
  s.ctxs.foldl (fun s c => c.2.queues.foldl (fun s q => if q.2.leaving.isEmpty then s else s.leaveSlots c.1 q.1) s) s

/-- A command on a VALID slot begins (R294, R298). The command waits for its write to the record (R422), and another on the slot is
not allowed meanwhile (log entry 77, DESIGN CHOICE). -/
def State.leaveSlot (s : State) (fn c q slot : Nat) (kill : Bool) : State :=
  let x := s.queue c q
  let ok := x.st = .faulted && (smFind x.slots slot).isSome && x.leaving.all (fun e => e.1 ≠ slot)
  s.queueCmd fn c q ok (fun s =>
    (s.modQueue c q (fun x => { x with leaving := x.leaving ++ [(slot, x.faultbase + 64 * slot, kill)] })).leaveSlots c q)

/-- QUEUE_RESUME_PARKED: QCMD 6 (R294, R298, R318). -/
def execQueueResumeParked (fn ctx q slot : Nat) (s : State) : Host.Outcome State Fault Refusal :=
  .next (s.leaveSlot fn ctx q slot false)

/-- QUEUE_KILL_PARKED: QCMD 7 (R294, R298, R311): the group dies for its fault's cause (R370). -/
def execQueueKillParked (fn ctx q slot : Nat) (s : State) : Host.Outcome State Fault Refusal :=
  .next (s.leaveSlot fn ctx q slot true)

/-- The distance of a sequence number from DONESEQ. -/
def Queue.ahead (x : Queue) (n : Nat) : Nat := (n + 2 ^ 32 - x.done % 2 ^ 32) % 2 ^ 32

/-- The launches of a queue in the order of their sequence numbers. -/
def Queue.inOrder (x : Queue) : List (Nat × Launch) := sortKey (fun l => x.ahead l.1) x.launches

/-- A dependence (R291, R295): satisfied, and failed. -/
def State.depState (s : State) (c d : Nat) : Bool × Bool :=
  let kind := fld d 56 2
  let x := s.queue c (fld d 58 6)
  let n := d % 2 ^ 32
  if kind = 0 then (true, false)
  else
    -- one that has been accepted and has left, before earlier ones perhaps
    let left := decide ((x.last + 2 ^ 32 - n) % 2 ^ 32 < 2 ^ 31) && (smFind x.ended n).isSome
    let ended := decide ((x.done + 2 ^ 32 - n) % 2 ^ 32 < 2 ^ 31) || left
    if ended then (true, (smFind x.ended n).getD 0 ≠ 0)
    else
      match smFind x.launches n with
      | none => (false, false)
      -- a launch that ends unrun has not triggered (R305)
      | some l => (kind = 1 && (l.st = 2 || (l.st = 3 && l.status ≤ 1)), false)

/-- Both dependences of a launch: satisfied, and whether one has failed. -/
def State.deps (s : State) (c : Nat) (l : Launch) : Bool × Bool :=
  let a := s.depState c (dw l.pkt 6)
  let b := s.depState c (dw l.pkt 7)
  (a.1 && b.1, a.2 || b.2)

/-- The launch ends unrun when a dependence has failed (R291). -/
def Launch.depfail (l : Launch) : Bool := (dw l.pkt 0).testBit 10

/-- Every group of a launch has been placed. -/
def State.allPlaced (s : State) (c q n : Nat) : Bool :=
  let l := s.launch c q n
  l.st ≠ 0 && (l.st = 3 || (pktGroups l.pkt ≤ l.nextPlace && l.back.isEmpty))

/-- The queue's previous launch lets this one start (R295, condition 2). -/
def State.prevDone (s : State) (c q n : Nat) (l : Launch) : Bool :=
  let p := seqPrev n
  match smFind (s.queue c q).launches p with
  | none => true
  | some _ => !((dw l.pkt 0).testBit 9) && s.allPlaced c q p

/-- The fields of a kernel header (R299). -/
def parseHeader (d : List Nat) : Kernel :=
  let w := dw d 3
  { codelen := dw d 0 / 2 ^ 32, codebase := dw d 1, entry := dw d 2 / 2 ^ 32, handler := dw d 2 % 2 ^ 32,
    vregs := fld w 39 9, ztiles := fld w 34 5, barriers := fld w 29 5, width := fld w 25 4, gangs := fld w 20 5,
    pen := w.testBit 19, producer := fld w 15 4, curclass := fld w 12 3, coreq := w.testBit 3, rollback := w.testBit 2,
    check := w.testBit 1, ftz := w.testBit 0, spad := dw d 4 / 2 ^ 32, maxdepth := fld (dw d 4) 16 16,
    vgran := fld (dw d 5) 16 8, sgran := fld (dw d 5) 8 8, zgran := fld (dw d 5) 0 8,
    timetable := dw d 6, anchor := dw d 7, astride := dw d 8 }

/-- The header as this package runs it: ROLLBACK and TIMETABLE read as zero without their features (R24, R299), and for the
safe kernel (R397). -/
def State.trimHeader (s : State) (c : Nat) (h : Kernel) : Kernel :=
  if c = safeCtx then { h with rollback := false, timetable := 0, coreq := false }
  else
    { h with rollback := h.rollback && s.feature 10, timetable := if s.feature 6 then h.timetable else 0 }

/-- Granules of the vector registers of one gang of `w` slices (R300, R315). -/
def Kernel.gangGran (h : Kernel) (w : Nat) : Nat := ceilDiv (h.vregs * w) 512

/-- P of R300. -/
def Kernel.granules (h : Kernel) : Nat :=
  h.vgran + h.sgran + h.zgran + (if h.rollback then h.vgran + h.sgran else 0)

/-- A reserved field of the header is not 0, or VER is not 1 (check 2 of R302). -/
def headerReserved (d : List Nat) : Bool :=
  dw d 0 % 256 ≠ 1 || fld (dw d 0) 8 24 ≠ 0 || fld (dw d 3) 48 16 ≠ 0 || fld (dw d 3) 4 8 ≠ 0 || fld (dw d 4) 0 16 ≠ 0
    || fld (dw d 5) 24 40 ≠ 0 || (List.range 15).any (fun i => dw d (9 + i) ≠ 0)

/-- A count, offset or alignment breaks R299 (check 3). -/
def Kernel.countsBad (h : Kernel) : Bool :=
  h.codelen < 4 || h.codelen % 4 ≠ 0 || h.codebase % 256 ≠ 0 || !(canonical h.codebase)
    || h.vregs < 8 || 256 < h.vregs || h.vregs % 8 ≠ 0 || 16 < h.ztiles || 16 < h.barriers
    || h.width = 0 || 8 < h.width || h.gangs = 0 || 16 < h.gangs
    || (if h.pen then h.gangs ≤ h.producer else h.producer ≠ 0) || h.spad % 16384 ≠ 0 || h.timetable % 64 ≠ 0

/-- A page of the code range is not executable, or its proof class is above the header (check 6). -/
def State.codeBad (s : State) (c : Nat) (h : Kernel) : Bool :=
  (rangePages h.codebase h.codelen).any (fun va =>
    !(match s.walk c va with
      | .leaf e _ _ => entX e
      | _ => false)
      || !(s.proofs.any (fun p => p.ctx = c && p.pages.contains (va / 0x10000) && p.vregs ≤ h.vregs && p.ztiles ≤ h.ztiles
        && p.barriers ≤ h.barriers && (p.feat &&& s.dev.feat) = p.feat)))

/-- An entry point is a bundle header of a proofed range (check 7). -/
def State.entryBad (s : State) (c : Nat) (h : Kernel) (off : Nat) : Bool :=
  h.codelen ≤ off || !(s.proofs.any (fun p => p.ctx = c && p.base ≤ h.codebase + off && p.heads.contains (h.codebase + off - p.base)
    && p.pages.contains ((h.codebase + off) / 0x10000)))

/-- The checks 2 to 7 of R302, in order. -/
def State.headerErr (s : State) (c : Nat) (d : List Nat) : Nat :=
  let h := s.trimHeader c (parseHeader d)
  if headerReserved d then 2
  else if h.countsBad then 3
  else if h.vgran ≠ h.gangs * h.gangGran h.width || h.sgran ≠ h.spad / 16384 || h.zgran ≠ h.ztiles then 4
  else if 128 < h.granules then 5
  else if s.codeBad c h then 6
  else if s.entryBad c h h.entry || (h.handler ≠ 0 && s.entryBad c h h.handler) then 7
  else 0

/-- The launch is co-resident (R299). -/
def Launch.coresident (l : Launch) : Bool := (dw l.pkt 0).testBit 8 || l.hdr.coreq

/-- Groups of a kernel that an empty core holds (R49). -/
def Kernel.perCore (h : Kernel) : Nat := min (64 / h.gangs) (min (128 / h.granules) 64)

/-- What the queue processor reads at a launch's start: the header and the timetable (R301, R302). -/
inductive StartRead where
  | wait
  | bad
  | got (d : List Nat) (head body : List Byte)
  deriving DecidableEq, Repr

/-- Read the header and, if there is one, the timetable. Dwords 24 to 31 are not read (R299). -/
def State.startRead (s : State) (c q n kh : Nat) : StartRead × State :=
  let use : FarUse := .header c q n
  let far := s.far
  let back := fun (s : State) => ({ s with far := far.filter (fun f => f.use = use) ++ s.far.filter (fun f => f.use ≠ use) } : State)
  match s.hubRead c kh 192 use with
  | (.wait, s) => (.wait, s)
  | (.got hb, s) =>
    let d := dwordsOf 32 hb
    let tt := (s.trimHeader c (parseHeader d)).timetable
    if tt = 0 then (.got d [] [], s)
    else
      (match s.hubRead c tt 64 use with
       | (.wait, s) => (.wait, back s)
       | (.got head, s) =>
         let t := dwordsOf 8 head
         if ttBad t then (.got d head [], s)
         else
           (match s.hubRead c (tt + 64) (32 * (dw t 0 / 2 ^ 32)) use with
            | (.wait, s) => (.wait, back s)
            | (.got body, s) => (.got d head body, s)
            | (_, s) => (.bad, s))
       | (_, s) => (.bad, s))
  | (_, s) => (.bad, s)

/-- A held launch whose conditions hold starts (R295, R302, R305), or ends for what its header says. -/
def State.startLaunch (s : State) (c q n : Nat) : State :=
  match s.startRead c q n (dw (s.launch c q n).pkt 1) with
  | (.wait, s) => s
  | (.bad, s) => s.ending c q n 5 1
  | (.got d head body, s) =>
    let e := s.headerErr c d
    if e ≠ 0 then s.ending c q n 5 e
    else
      let h := s.trimHeader c (parseHeader d)
      let t := s.timens
      let l : Launch := { s.launch c q n with hdr := h }
      if l.coresident && Config.cores * h.perCore < pktGroups l.pkt then s.ending c q n 4 0
      else
        let l := if h.timetable = 0 then l else l.withTable head body
        (s.modLaunch c q n (fun _ => { l with st := 1, tstart := t })).pace c q n

/-- LAUNCH_START (R295, R301, R302, R305): a launch whose dependence failed under DEPFAIL ends; else the first held launch
of a queue starts once its conditions hold. -/
def execLaunchStart (ctx q : Nat) (s : State) : Host.Outcome State Fault Refusal :=
  let x := s.queue ctx q
  if (s.ctx ctx).st ≠ .live then .next s
  else
    let held := x.inOrder.filter (fun l => l.2.st = 0)
    match held.find? (fun l => l.2.depfail && (s.deps ctx l.2).2) with
    | some l => .next (s.ending ctx q l.1 3 0)
    | none =>
      match held.head? with
      | none => .next s
      | some (n, l) =>
        if (x.st = .active || x.st = .draining) && s.prevDone ctx q n l && (s.deps ctx l).1 then .next (s.startLaunch ctx q n)
        else .next s

end Sys2Proof.Machine
end

