-- ==== Sys2Proof/Machine/Place.lean ====
section
/-! DEFINITION. Placement: gang slots, granules, groups, the pool clear, and tasks (R27, R28, R49 to R54, R71, R112, R300,
R303, R304, R310 to R316, R387). -/

namespace Sys2Proof.Machine

/-- The gang holds its slot and register granules (R45, R316): it is placed or live, or its group's snapshot holds it. -/
def State.holdsSlot (s : State) (u : Nat) (g : Gang) : Bool :=
  g.live || g.waiting || (s.group g.group).snap.any (fun n => (smFind n.gangs u).isSome)

/-- Slots taken on a core: quarter, base and width of each (R28). -/
def State.slotsOn (s : State) (core : Nat) : List (Nat × Nat × Nat) :=
  (s.gangs.filter (fun e => e.2.core = core && s.holdsSlot e.1 e.2)).map (fun e => (e.2.quarter, e.2.base, e.2.width))

/-- The multiple that a base of width `w` needs (R27). -/
def baseStep (w : Nat) : Nat := if w ≤ 1 then 1 else if w ≤ 2 then 2 else if w ≤ 4 then 4 else 8

/-- The first of a list with the least key. -/
def leastBy {α : Type} (key : α → Nat) : List α → Option α
  | [] => none
  | x :: xs => some (xs.foldl (fun b y => if key y < key b then y else b) x)

/-- The quarter and base that a gang of width `w` takes (R28): the quarter with the fewest gangs and a free slot, and the
legal base that overlaps the fewest gangs. -/
def seatFor (occ : List (Nat × Nat × Nat)) (w : Nat) : Option (Nat × Nat) :=
  let count := fun (q : Nat) => (occ.filter (fun o => o.1 = q)).length
  (leastBy count ([0, 1, 2, 3].filter (fun q => count q < 16))).bind (fun q =>
    let bases := (List.range 8).filter (fun b => b % baseStep w = 0 && b + w ≤ 8)
    (leastBy (fun b => (occ.filter (fun o => o.1 = q && overlaps o.2.1 o.2.2 b w)).length) bases).map (fun b => (q, b)))

/-- Seats for `n` gangs of width `w`, one after another. -/
def seatsFor (w : Nat) : Nat → List (Nat × Nat × Nat) → Option (List (Nat × Nat))
  | 0, _ => some []
  | n + 1, occ =>
    match seatFor occ w with
    | none => none
    | some x => (seatsFor w n (occ ++ [(x.1, x.2, w)])).map (fun l => x :: l)

/-- A group that holds resources on a core. -/
def Group.onCore (x : Group) (core : Nat) : Bool :=
  x.core = core && (x.st = .placed || x.st = .resident || x.st = .parked || x.st = .draining)

/-- Granules taken on a core (R300, R315, R316). -/
def State.usedGran (s : State) (core : Nat) : Nat :=
  let gs := s.groups.filter (fun e => e.2.onCore core)
  (gs.map (fun e =>
    let h := s.kernel e.1
    h.sgran + h.zgran + (if h.rollback then h.vgran + h.sgran else 0))).sum
  + ((s.gangs.filter (fun e => e.2.core = core && s.holdsSlot e.1 e.2)).map (fun e => (s.kernel e.2.group).gangGran e.2.width)).sum

/-- The core can hold a group of the context (R50, R312): it has a deque for it, or fewer than four contexts. -/
def State.ctxFits (s : State) (core c : Nat) : Bool :=
  let l := (((s.groups.filter (fun e => e.2.onCore core)).map (fun e => e.2.ctx))
    ++ ((s.core core).deques.filter (fun d => !d.recs.isEmpty || !d.blocked.isEmpty)).map (fun d => d.ctx)).eraseDups
  l.contains c || l.length < 4

/-- What placing a group of the kernel adds to a core's charge (R387). -/
def State.placeRaise (s : State) (core : Nat) (h : Kernel) : Nat :=
  let now := (s.classesOn core).foldl (fun n e => n + classLimit e.2) 0
  min 4096 (now + h.gangs * classLimit h.curclass) - min 4096 now

/-- The die's arbiter grants the placement request at once (R304, R387): one that raises nothing always. -/
def State.placeGranted (s : State) (core : Nat) (h : Kernel) : Bool :=
  let d := dieOf core
  s.placeRaise core h = 0 || ((s.die d).pwrq.all (fun e => (s.pwrFits e.gang e.want).1)
    && s.dieCharge d + s.placeRaise core h ≤ (s.die d).budget)

/-- The core has room for a group: a deque, gang slots, granules and a group record (R312). -/
def State.roomOn (s : State) (core c : Nat) (h : Kernel) : Bool :=
  s.ctxFits core c && (seatsFor h.width h.gangs (s.slotsOn core)).isSome
    && s.usedGran core + h.granules ≤ 128 && (s.groups.filter (fun e => e.2.onCore core)).length < 64

/-- The core is a candidate for a group (R312): it has room, as `v` stands, and its die's arbiter grants the request now. -/
def State.candidate (s v : State) (core c : Nat) (h : Kernel) : Bool := v.roomOn core c h && s.placeGranted core h

/-- The preferred die of group `i` of a launch (R303). -/
def State.preferred (s : State) (c : Nat) (h : Kernel) (i : Nat) : Option Nat :=
  if h.anchor = 0 then none
  else
    match s.place c (wrap64 ((h.anchor : Int) + (i : Int) * sx 64 h.astride)) .read with
    | .hbm pa => some (homeDie pa)
    | _ => none

/-- The core for group `i` of a launch (R312) among the cores as `v` has them; the safe kernel runs on the stage-0 cluster (R397). -/
def State.chooseFrom (s v : State) (c : Nat) (h : Kernel) (i : Nat) : Option Nat :=
  if c = safeCtx then leastBy (fun core => (v.slotsOn core).length) ((List.range 8).filter (fun core => s.candidate v core c h))
  else
  let d0 := (s.preferred c h i).getD (i % 4)
  ((List.range 4).map (fun k => (d0 + k) % 4)).findSome? (fun d =>
    leastBy (fun core => (v.slotsOn core).length) (((List.range 96).map (fun k => d * 96 + k)).filter (fun core => s.candidate v core c h)))

/-- The core for group `i` of a launch where no other processor places in the cycle (R312). -/
def State.chooseCore (s : State) (c : Nat) (h : Kernel) (i : Nat) : Option Nat := s.chooseFrom s c h i

/-- Seed of a lane's G from its id (R71). -/
def seedG (seed id : Nat) : Nat :=
  let hi := seed / 2 ^ 32 % 2 ^ 32
  let x := seed % 2 ^ 32 ^^^ (hi * 128 % 2 ^ 32 + hi / 2 ^ 25) ^^^ id % 2 ^ 32 * 0x9E3779B9 % 2 ^ 32
  if x = 0 then 1 else x

/-- A gang as it is placed, waiting for its granules (R28, R314). -/
def newGang (h : Kernel) (c grp core quarter base width idx : Nat) (task : Bool) (cls : Nat) : Gang :=
  { (default : Gang) with
    ctx := c, group := grp, core := core, quarter := quarter, base := base, width := width, idx := idx, task := task,
    waiting := true, cls := cls, chk := h.check, curcls := h.curclass }

/-- Allocate pool granules: the clear engine takes them in order (R314). -/
def State.queueClear (s : State) (core grp : Nat) (u : Option Nat) (bits n : Nat) : State :=
  let t := s.cyc core
  s.modCore core (fun k => { k with clears := k.clears ++ [⟨grp, u, bits, n, t⟩] })

/-- Place a group on a core (R311, R312): its gangs take slots, and the clear of its granules is queued. -/
def State.placeOn (s : State) (gid : Nat) (x : Group) (h : Kernel) (core : Nat) : State :=
  let seats := (seatsFor h.width h.gangs (s.slotsOn core)).getD []
  let u0 := s.nextId
  let us := (List.range h.gangs).map (fun i => u0 + i)
  let gs := seats.mapIdx (fun i b => (u0 + i, newGang h x.ctx gid core b.1 b.2 h.width i false 0))
  let s : State := { s with
    nextId := u0 + h.gangs
    gangs := gs.foldl (fun m g => smPut m g.1 g.2) s.gangs
    groups := smPut s.groups gid { x with st := .placed, core := core, gangs := us, launchGangs := us } }
  s.queueClear core gid none 0 h.granules

/-- The next group of a queue to place: its key, as it stands (R312). Groups that a restore left pending come first. -/
def State.nextGroup (s : State) (c q : Nat) : Option (Nat × Group) :=
  match (s.queue c q).inOrder.find? (fun l => (l.2.st = 1 || l.2.st = 2) && (!l.2.back.isEmpty || l.2.nextPlace < pktGroups l.2.pkt)) with
  | none => none
  | some (n, l) => some (s.nextId, { (default : Group) with ctx := c, q := q, seq := n, index := l.back.headD l.nextPlace })

/-- The machine as the queue processors saw it when their cycle began: without the groups placed since (R313). -/
def State.beforePlaced (s : State) : State :=
  let new := fun (g : Nat) => s.placed.any (fun p => p.2 = g)
  { s with groups := s.groups.filter (fun e => !(new e.1)), gangs := s.gangs.filter (fun e => !(new e.2.group)) }

/-- Place the next group of a queue on the core that it chooses among the cores as `v` has them, if the core can still hold it. -/
def State.placeNext (s v : State) (c q : Nat) : Option State :=
  match s.nextGroup c q with
  | none => none
  | some (gid, x) =>
    let h := (s.launch c q x.seq).hdr
    match (s.chooseFrom v c h x.index).filter (fun core => s.roomOn core c h) with
    | none => none
    | some core =>
      let s : State := { s with placed := s.placed ++ [(procOf c q, gid)] }
      let s := ({ s with nextId := s.nextId + 1 } : State).modLaunch c q x.seq (fun l => match l.back with
        | [] => { l with nextPlace := l.nextPlace + 1 }
        | _ :: rest => { l with back := rest })
      some (s.placeOn gid x h core)

/-- Place `n` groups, or none of them (R49), each on the core that it chooses without the groups that other processors have placed in
the cycle (R313): `old` are those. -/
def State.placeMany (c q : Nat) (old : List (Nat × Nat)) : Nat → State → Option State
  | 0, s => some s
  | n + 1, s =>
    match s.placeNext ({ s with placed := old } : State).beforePlaced c q with
    | none => none
    | some s => State.placeMany c q old n s

/-- Groups of a launch still to be placed. -/
def State.unplaced (s : State) (c q n : Nat) : Nat :=
  let l := s.launch c q n
  pktGroups l.pkt - l.nextPlace + l.back.length

/-- GROUP_PLACE (R311 to R313): the queue processor places the queue's next group, one in a cycle; a co-resident launch whole (R49, R312;
log entry 84, DEDUCED). A core that a lower processor has just filled is given up for this cycle. -/
def execGroupPlace (ctx q : Nat) (s : State) : Host.Outcome State Fault Refusal :=
  let x := s.queue ctx q
  if (s.ctx ctx).st ≠ .live || !(x.st = .active || x.st = .draining) || s.placed.any (fun p => p.1 = procOf ctx q) then .next s
  else
    match s.nextGroup ctx q with
    | none => .next s
    | some (_, g) =>
      if (s.launch ctx q g.seq).coresident then .next ((State.placeMany ctx q s.placed (s.unplaced ctx q g.seq) s).getD s)
      else .next ((s.placeNext s.beforePlaced ctx q).getD s)

/-- A gang starts at a bundle (R314): every lane of its slices live, its registers zero, G seeded. -/
def Gang.start (g : Gang) (pc cyc : Nat) (seed : Nat) (id : Nat → Nat) : Gang :=
  let y : LaneSet := { (default : LaneSet) with pc := pc, nxt := pc, mask := 255, ready := cyc, st := .run, created := cyc, jumped := true }
  let x : Slice := { (default : Slice) with sets := [(0, y)], cur := some 0 }
  let g : Gang := { g with
    live := true, waiting := false, slices := List.replicate g.width x, parts := [newPart (2 ^ g.width - 1)] }
  (List.range (8 * g.width)).foldl (fun g i => g.setG i (seedG seed (id i))) g

/-- A gang's first bundle must be a proofed entry (R112); the gang then stands at it (R35). -/
def State.enterCode (s : State) (u pc : Nat) : State :=
  if s.targetOk u pc then s.arriveCurs u (2 ^ (s.gang u).width - 1) else s.protFault u pc 0 4

/-- The stochastic-rounding seed of a group's launch: without the feature it reads as zero (R24, R71). -/
def State.launchSeed (s : State) (g : Nat) : Nat := if s.feature 3 then dw (s.launchOf g).pkt 5 else 0

/-- Start a launch gang at the kernel's entry: later than every write so far, which its read-only loads see (R263, R268). -/
def State.startGang (s : State) (u cls : Nat) : State :=
  let g := s.gang u
  let x := s.group g.group
  let h := s.kernel g.group
  let pc := h.codebase + h.entry
  let t := s.cyc g.core
  let seed := s.launchSeed g.group
  s.modGang u (fun g => { g.start pc t seed (fun i => (x.index * 16 + g.idx) * 64 + i) with cls := cls, acq := s.serial })

/-- The live launch gangs of a group as a snapshot keeps them. -/
def State.snapGangs (s : State) (g : Nat) : List (Nat × Gang) :=
  s.gangs.filter (fun e => e.2.group = g && e.2.live && !e.2.task)

/-- The pool of a group is clear (R311, R314): it becomes RESIDENT in the queue's class (R297), and its gangs start in one
cycle; with ROLLBACK its state is the first snapshot (R320). -/
def State.becomeResident (s : State) (g : Nat) : State :=
  let x := s.group g
  let cls := (s.queue x.ctx x.q).cls
  let h := s.kernel g
  let s := s.modGroup g (fun x => { x with st := .resident, from_ := .resident, cls := cls, since := s.hubCycle })
  let s := x.launchGangs.foldl (fun s u => s.startGang u cls) s
  let gs := s.snapGangs g
  let s := if h.rollback then s.modGroup g (fun x => { x with snap := some ⟨[], [], gs, []⟩ }) else s
  x.launchGangs.foldl (fun s u => s.enterCode u (h.codebase + h.entry)) s

/-- Entry and future address of a task record (R248). -/
def taskEntry (b : Nat) : Nat := fld b 0 23
/-- Width of a task's gang. -/
def taskWidth (b : Nat) : Nat := fld b 23 3 + 1
/-- The future of a task: bits [56:3] of a canonical address. -/
def taskFut (b : Nat) : Nat := wrap64 (sx 57 (fld b 26 54 * 8))
/-- Argument `i` of a task, sign-extended from bit 43 (log entry 52, DEDUCED). -/
def taskArg (b i : Nat) : Nat := wrap64 (sx 44 (fld b (80 + 44 * i) 44))

/-- Start a task gang from its record (R51, R71, R314), later than the writes of the gang that forked it (R263, R268). -/
def State.startTask (s : State) (u bits : Nat) : State :=
  let g := s.gang u
  let h := s.kernel g.group
  let pc := wrap64 ((h.codebase : Int) + 4 * (taskEntry bits : Nat))
  let t := s.cyc g.core
  let seed := s.launchSeed g.group
  let f := taskFut bits
  let acq := s.serial
  let s := s.modGang u (fun g =>
    let g : Gang := { g.start pc t seed (fun i => f % 2 ^ 32 ^^^ i) with acq := acq }
    [0, 1, 2, 3].foldl (fun g i => g.setS i (taskArg bits i)) (g.setS 4 f))
  s.enterCode u pc

/-- POOL_CLEAR_DONE (R314): the core's oldest clear has had 32 cycles a granule; what it was for starts. -/
def execPoolClearDone (core : Nat) (s : State) : Host.Outcome State Fault Refusal :=
  match (s.core core).clears with
  | [] => .next s
  | c :: rest =>
    let t := s.cyc core
    if t < c.start + 32 * c.grans then .next s
    else
      let s := s.modCore core (fun k => { k with clears := match rest with
        | [] => []
        | d :: ds => { d with start := max d.start t } :: ds })
      match c.gang with
      | none => .next (s.becomeResident c.group)
      | some u => .next (s.startTask u c.record)

/-- The group that hosts a task of a launch on a core (R51, R315). -/
def State.hostFor (s : State) (core c : Nat) (r : TaskRec) : Option Nat :=
  let w := taskWidth r.bits
  let count := fun (g : Nat) => (s.gangs.filter (fun e => e.2.group = g && (e.2.live || e.2.waiting))).length
  let hosts := s.groups.filter (fun e => e.2.ctx = c && e.2.q = r.q && e.2.seq = r.seq && e.2.core = core && e.2.st = .resident
    && count e.1 < 16 && s.usedGran core + (s.kernel e.1).gangGran w ≤ 128)
  if (seatFor (s.slotsOn core) w).isNone then none
  else (leastBy (fun e => count e.1 * 2 ^ 24 + e.2.index) hosts).map (·.1)

/-- A core starts a task from a record of a deque (R51, R54): a gang of the host is placed, and its granules are cleared. It takes the
lowest of the host's 16 gang indices that is free, which R51 leaves open (log entry 56, DESIGN CHOICE). -/
def State.placeTask (s : State) (core c owner host : Nat) (r : TaskRec) : State :=
  let w := taskWidth r.bits
  let h := s.kernel host
  let seat := (seatFor (s.slotsOn core) w).getD (0, 0)
  let used := (s.gangs.filter (fun e => e.2.group = host && (e.2.live || e.2.waiting))).map (fun e => e.2.idx)
  let idx := ((List.range 16).find? (fun i => !(used.contains i))).getD 0
  let (u, s) := s.fresh
  let up := !((s.core owner).deque c).blocked.isEmpty
  let g : Gang := { newGang h c host core seat.1 seat.2 w idx true r.cls with deque := some (owner, c), raised := up }
  let s : State := { s with gangs := smPut s.gangs u g }
  (s.modGroup host (fun x => { x with gangs := x.gangs ++ [u] })).queueClear core host (some u) r.bits (h.gangGran w)

/-- TASK_TAKE (R51, R53): the core takes the head record of its own deque. -/
def execTaskTake (core ctx : Nat) (s : State) : Host.Outcome State Fault Refusal :=
  match ((s.core core).deque ctx).recs with
  | [] => .next s
  | r :: rest =>
    match (if (s.ctx ctx).st = .live && !(s.dequeBusy core ctx) then s.hostFor core ctx r else none) with
    | none => .next s
    | some h => .next ((s.dequeOp core ctx (fun d => { d with recs := rest })).placeTask core ctx core h r)

/-- The victims of a steal, in order (R52). -/
def victims (core : Nat) : List Nat :=
  let k := core / 8
  let own := (List.range 7).map (fun i => k * 8 + (core % 8 + 1 + i) % 8)
  let die := k / 12
  let others := (List.range 11).map (fun i => die * 12 + (k % 12 + 1 + i) % 12)
  own ++ others.flatMap (fun k => (List.range 8).map (fun p => k * 8 + p))

/-- TASK_STEAL (R52, R53): a core whose deque for a context is empty takes the tail record of another core of its die. -/
def execTaskSteal (core ctx : Nat) (s : State) : Host.Outcome State Fault Refusal :=
  if !((s.core core).deque ctx).recs.isEmpty || (s.ctx ctx).st ≠ .live then .next s
  else
    let hit := (victims core).findSome? (fun v =>
      match ((s.core v).deque ctx).recs.getLast? with
      | none => none
      | some r => (s.hostFor core ctx r).map (fun h => (v, h, r)))
    match hit with
    | none => .next s
    | some (v, h, r) =>
      if s.dequeBusy v ctx then .next s
      else .next ((s.dequeOp v ctx (fun d => { d with recs := d.recs.dropLast })).placeTask core ctx v h r)

end Sys2Proof.Machine
end

