-- ==== Sys2Proof/Machine/Group.lean ====
section
/-! DEFINITION. Barriers, triggers, rollback, errors, the watchdog, retirement and the end of launches (R46, R246, R288,
R305 to R309, R319 to R330, R352, R383, R384). -/

namespace Sys2Proof.Machine

/-- The clock period of a cluster (R385). -/
def Cluster.period (k : Cluster) : Nat := if !k.high then 56 else if k.sprint then 30 else 35

/-- A barrier's record. -/
def State.bar (s : State) : BarRef → Bar
  | .grp g n => (smFind (s.group g).bars n).getD default
  | .clu c k n => (smFind (s.ctx c).clubar (k * 16 + n)).getD default
  | .dev c n => (smFind (s.ctx c).devbar n).getD default

/-- Change a barrier's record. -/
def State.modBar (s : State) (b : BarRef) (f : Bar → Bar) : State :=
  let x := f (s.bar b)
  match b with
  | .grp g n => s.modGroup g (fun y => { y with bars := smPut y.bars n x })
  | .clu c k n => s.modCtx c (fun y => { y with clubar := smPut y.clubar (k * 16 + n) x })
  | .dev c n => s.modCtx c (fun y => { y with devbar := smPut y.devbar n x })

/-- The gang is a member of a barrier (R324). -/
def Gang.member (u : Nat) (g : Gang) (x : Group) : BarRef → Bool
  | .grp k _ => g.live && !g.task && g.group = k && x.launchGangs.contains u
  | .clu c k n => g.live && g.ctx = c && clusterOf g.core = k && g.dmr.toNat.testBit 20 && fld g.dmr.toNat 16 4 = n
  | .dev c n => g.live && g.ctx = c && g.dmr.toNat.testBit 28 && fld g.dmr.toNat 24 4 = n

/-- The members of a barrier. -/
def State.members (s : State) (b : BarRef) : List Nat :=
  (s.gangs.filter (fun e => e.2.member e.1 (s.group e.2.group) b)).map (·.1)

/-- The scope at which a barrier orders (R324). -/
def barScope : BarRef → Scope
  | .grp .. => .grp
  | .clu .. => .clu
  | .dev .. => .dev

/-- Cycles from completion to the earliest release (R330). -/
def barDelay : BarRef → Nat
  | .grp .. => 4
  | .clu .. => 24
  | .dev .. => 200

/-- A barrier begins its release (R330): its earliest cycle on the clock of every cluster that has an arrived gang (R5). -/
def State.releasing (s : State) (b : BarRef) : State :=
  let ks := ((s.bar b).arrived.map (fun u => clusterOf (s.gang u).core)).eraseDups
  let l := ks.map (fun k => (k, (s.cluster k).cyc + barDelay b))
  s.modBar b (fun x => { x with release := some l })

/-- The completion test (R325, R329): a group barrier of a group with ROLLBACK takes its snapshot first (R320)
(log entry 33, DEDUCED). -/
def State.testBar (s : State) (b : BarRef) : State :=
  let x := s.bar b
  match x.arrived with
  | [] => s
  | u :: _ =>
    if x.release.isSome || !((s.members b).all (fun m => x.arrived.contains m)) then s
    else
      match b with
      | .grp g n =>
        if (s.kernel g).rollback then
          (match (s.group g).snapDue with
           | some _ => s
           | none => s.modGroup g (fun y => { y with snapDue := some (n, s.cycOf u) }))
        else s.releasing b
      | _ => s.releasing b

/-- The one barrier on which every live lane set of a gang is blocked, and the accesses its release waits for (R46, R47). -/
def Gang.waitsAt (g : Gang) : Option (BarRef × Nat) :=
  let l := g.slices.flatMap (fun x => x.sets.map (fun e => match e.2.st with
    | .barrier b _ _ n => some (b, n)
    | _ => none))
  match l with
  | some (b, n) :: rest =>
    if rest.all (fun y => match y with
      | some (b', _) => b' = b
      | none => false) then some (b, rest.foldl (fun m y => max m ((y.map (·.2)).getD 0)) n)
    else none
  | _ => none

/-- BARRIER_ARRIVAL (R46, R325, R329): the last live lane set of the gang has issued its SYNC, and its release is performed. The
completion test comes after the other events of the cycle. -/
def execBarrierArrival (gang : Nat) (s : State) : Host.Outcome State Fault Refusal :=
  let g := s.gang gang
  match g.waitsAt with
  | none => .next s
  | some (b, n) =>
    let x := s.bar b
    if !(g.member gang (s.group g.group) b) || x.arrived.contains gang || x.release.isSome || !(g.earlierDone (barScope b) n) then
      .next s
    else .next ((s.modBar b (fun x => { x with arrived := x.arrived ++ [gang] })).later (.barrierRelease b))

/-- Lane sets of a gang blocked on a barrier go on, each at its own bundle (R46), with an acquire at the barrier's level. -/
def State.wakeBar (b : BarRef) (s : State) (u : Nat) : State :=
  (s.wakeSets u (s.cycOf u + 1) (fun _ y => match y.st with
    | .barrier b' _ _ _ => b' = b
    | _ => false)).acquired u

/-- Events that come after every change of membership and every arrival of their cycle (R329, R391). -/
def lastInCycle : Instr → Bool
  | .barrierRelease _ | .leaseGrant _ => true
  | _ => false

/-- BARRIER_RELEASE (R325 to R330): the phase of a barrier completes, its test coming after all other events of the cycle, or its release
has been performed. -/
def execBarrierRelease (b : BarRef) (s : State) : Host.Outcome State Fault Refusal :=
  let x := s.bar b
  match x.release with
  | none => .next (if s.agenda.all lastInCycle then s.testBar b else s.later (.barrierRelease b))
  | some l =>
    if l.any (fun e => (s.cluster e.1).cyc < e.2) then .next s
    else
      let s := s.modBar b (fun x => { x with phase := (x.phase + 1) % 2 ^ 16, arrived := [], release := none })
      .next (x.arrived.foldl (State.wakeBar b) s)

/-- Engines write a group's scratchpad: a destination range of it is locked (R207, R320). -/
def State.spadBusy (s : State) (g : Nat) : Bool :=
  (s.core (s.group g).core).locks.any (fun e => e.2.dest && !e.2.glob && e.2.space = g)

/-- Granules that a snapshot copies (R320): those of its live launch gangs' registers, and the scratchpad. -/
def State.snapGran (s : State) (g : Nat) : Nat :=
  ((s.snapGangs g).map (fun e => (s.kernel g).gangGran e.2.width)).sum + (s.kernel g).sgran

/-- SNAPSHOT_COMPLETE (R320): the snapshot of a group with ROLLBACK is taken, and its barrier goes on to its release. -/
def execSnapshotComplete (group : Nat) (s : State) : Host.Outcome State Fault Refusal :=
  let x := s.group group
  match x.snapDue with
  | none => .next s
  | some (n, t0) =>
    let loads := (s.snapGangs group).all (fun e => e.2.accs.all (fun a => !(delivers a.2.op) || a.2.lanes.all (fun l =>
      l.st = .done || l.st.buffered)))
    if s.spadBusy group || !loads || s.cyc x.core < t0 + 32 * s.snapGran group then .next s
    else
      let k := s.core x.core
      let al := fun (u : Nat) => k.al.bind (fun a => if a.gang = u then some (a.va, a.fmt) else none)
      let gs := (s.snapGangs group).map (fun e => (e.1, { e.2.landEvery (s.cyc x.core) with al := al e.1 }))
      let cmds := k.copyq.filterMap (fun e => if e.2.group = group then e.2.f.map (fun f => (e.2.gang, e.2.slices, f)) else none)
        ++ k.matq.filterMap (fun e => if e.2.group = group then (matFlag e.2.i).map (fun f => (e.2.gang, e.2.slices, f)) else none)
      let s := s.modGroup group (fun x => { x with
        snap := some ⟨x.spad, x.futs, gs, cmds⟩, snapDue := none, commit := false, ueCount := 0 })
      .next (s.releasing (.grp group n))

/-- The extent of a slice's stream is registered again (R289, R378). -/
def State.relock (s : State) (u : Nat) : State :=
  let g := s.gang u
  let old := (g.slices.filterMap (fun x => x.strm.map (fun t => t.lock))).eraseDups
  old.foldl (fun s l =>
    let g := s.gang u
    let mine := (g.slices.zipIdx).filter (fun x => (x.1.strm.map (fun t => t.lock)) = some l)
    match (mine.head?.bind (fun x => x.1.strm)) with
    | none => s
    | some t =>
      let lanes := mine.flatMap (fun x => (bitsOf 8 ((x.1.strm.map (fun t => t.lanes)).getD 0)).map (fun j => 8 * x.2 + j))
      let ext := normExt (sdExtent t.desc t.ty lanes)
      let sp := sdSpace t.desc = 2
      let e := (s.core g.core).freeLock
      let lk : Lock := lockOver ext false (!sp) (if sp then g.group else g.ctx) u
      let s := s.modCore g.core (fun k => { k with locks := smPut k.locks e lk })
      s.modGang u (fun g => { g with slices := g.slices.mapIdx (fun k x =>
        if mine.any (fun y => y.2 = k) then { x with strm := x.strm.map (fun t => { t with lock := e }) } else x) })) s

/-- Every command of a group in its core's queues has completed (R319, R322). -/
def State.enginesDone (s : State) (g : Nat) : Bool :=
  let k := s.core (s.group g).core
  k.matq.all (fun e => e.2.group ≠ g) && k.copyq.all (fun e => e.2.group ≠ g)

/-- A gang of a snapshot catches up with what has been answered or completed since (R320, R322): its requests that have their answers,
its carried stores that have been applied, and the copies of its batches (log entry 78, DEDUCED). -/
def State.catchUp (s : State) (u : Nat) : State :=
  let k := s.core (s.gang u).core
  let open_ := fun (x : Nat) => (smFind k.copyq x).isSome
  let st := fun (x : LaneSt) => match x with
    | .sent r => if (smFind s.link.reqs r).isSome then x else .done
    | .held h => if (smFind s.link.held h).isSome then x else .done
    | _ => x
  let s := s.modGang u (fun g => { g with
    accs := g.accs.map (fun e => (e.1, { e.2 with lanes := e.2.lanes.map (fun l => { l with st := st l.st }) }))
    openBatch := g.openBatch.filter open_
    batches := g.batches.map (fun b => { b with copies := b.copies.filter open_ }) })
  ((s.batchDone u s.nextId).sweepAccs u).recapture u

/-- A rollback (R322): the snapshot is copied back, and every gang of it goes on after its barrier wait. What the gangs have asked of
the arbiter since is withdrawn, and the flags of commands that were under way at the snapshot are set. -/
def State.rollBack (s : State) (g : Nat) : State :=
  let x := s.group g
  match x.snap with
  | none => s
  | some n =>
    let us := (s.gangs.filter (fun e => e.2.group = g && !e.2.task)).map (·.1)
    let s := us.foldl (fun s u => ((s.endStreams u 255).leaveBarriers u).leaveWaiters u) s
    let s := s.modDie (dieOf x.core) (fun d => { d with
      pwrq := d.pwrq.filter (fun r => !(us.contains r.gang)), leaseq := d.leaseq.filter (fun r => !(us.contains r.gang)) })
    let s : State := { s with gangs := n.gangs.foldl (fun m e => smPut m e.1 { e.2 with stopped := none, badV := [] }) s.gangs }
    let s := s.modGroup g (fun x => { x with
      spad := n.spad, badSpad := [], futs := n.futs, rolling := false, snapDue := none, st := .resident
      bars := x.bars.map (fun b => (b.1, { b.2 with arrived := [], release := none })) })
    let s := n.gangs.foldl (fun s e => (s.relock e.1).catchUp e.1) s
    let s := n.cmds.foldl (fun s f => s.setFlag f.1 f.2.1 f.2.2) s
    let s := n.gangs.foldl (fun s e => s.wakeSets e.1 (s.cycOf e.1 + 1) (fun _ y => match y.st with
      | .barrier (.grp k _) _ _ _ => k = g
      | _ => false)) s
    s.pump (n.gangs.map (·.1))

/-- Groups that are stopping for a rollback go back once their engine commands have completed; one that has parked meanwhile stays
PARKED until it is resumed (R311). -/
def State.rollAll (s : State) : State :=
  s.groups.foldl (fun s e => if e.2.rolling && (e.2.st = .resident || e.2.st = .draining) && s.enginesDone e.1 then s.rollBack e.1 else s) s

/-- UNCORRECTABLE_ERROR_CONSUMED (R322, R370): a system fault, a rollback, or the group's end. One that a PARKED group consumes is
resolved when it resumes (log entry 82, DEDUCED). -/
def execUncorrectableErrorConsumed (group gang site : Nat) (s : State) : Host.Outcome State Fault Refusal :=
  let x := s.group group
  if x.st = .parked then .next (s.modGroup group (fun x => { x with owed := x.owed ++ [(gang, site)] }))
  else if !(x.st = .resident || x.st = .draining) then .next s
  else if !(s.kernel group).rollback then
    let g := s.gang gang
    .next (s.sysFault gang 3 ((g.parts.head?.map (fun p => g.pcOf p.slices)).getD 0) 0 site)
  else
    let hosts := s.gangs.any (fun e => e.2.group = group && e.2.live && e.2.task)
    if x.commit || hosts || 3 ≤ x.ueCount then
      .next ((s.killGroup group 3).note (.killedGroup group 3))
    else .next (s.modGroup group (fun x => { x with ueCount := x.ueCount + 1, rolling := true }))

/-- STORAGE_ERROR_DETECTED (R354, R383). One of site 1 stays with its word until a bundle reads it or a write replaces it; one of site 7 is
consumed at the gang's next bundle. -/
def execStorageErrorDetected (site : ErrSite) (corrected : Bool) (s : State) : Host.Outcome State Fault Refusal :=
  if corrected then .next (s.note .corrected)
  else
    match site with
    | .poolV u i r => .next (s.modGang u (fun g => { g with badV := (i * 256 + r) :: g.badV }))
    | .poolSpad g off => .next (s.modGroup g (fun x => { x with badSpad := off / 4 :: x.badSpad }))
    | .poolZ g t i n => .next (s.modGroup g (fun x => { x with badZ := (t * 4096 + i * 64 + n) :: x.badZ }))
    | .l1 core pa => .next (s.modCore core (fun k => { k with l1 := k.l1.filter (fun l => l.pa ≠ pa / 128 * 128) }))
    | .l2 pa => .next (s.mark pa 3)
    | .hbm pa => .next (s.mark pa 4)
    | .tlb c p => .next (s.dropTlb c (p * 0x10000) 0x10000)
    | .table u =>
      let g := s.gang u
      .next (s.sysFault u 3 ((g.parts.head?.map (fun p => g.pcOf p.slices)).getD 0) 0 6)
    | .gangState u => .next (s.modGang u (fun g => { g with tainted := true }))
    | .baton q => .next ((s.failBaton q).settleHeld)
    | .hold id => .next ((s.dropHeld id 2).settleHeld)
    | .dieToDie d => .next { s with dieFails := d :: s.dieFails }

/-- The pages that map a unit of local HBM: context and page. -/
def State.mapsUnit (s : State) (unit_ : Nat) : List (Nat × Nat) :=
  s.ctxs.flatMap (fun c => c.2.pages.filterMap (fun p =>
    match s.pageEntry c.1 p.1 with
    | some e => if entKind e = 0 && entAddr e / 0x10000 = unit_ then some (c.1, p.1) else none
    | none => none))

/-- A page becomes POISONED (R338, R352): all of it, whatever its size, with a held entry; HBM that the pacer gave it is free. -/
def State.poisonPage (s : State) (c vpage : Nat) : State :=
  let va := vpage * 0x10000
  let (e, base, size) := match s.walk c va with
    | .leaf e base size => (e, base, size)
    | _ => (0, va, 0x10000)
  let s := if entKind e = 0 then (if (s.pageRec c va).owned then s.freeHbm (entAddr e) size else s).dropL1 (entAddr e) size else s
  (((s.setPage c base size heldEntry).dropTlb c base size).dropProofs c base size).modPages c base size
    (fun r => { r with st := .poisoned, owned := false, entry := 0 })

/-- A move whose page has lost its HBM at either end, POISONED itself, is over (R343, R352) (log entry 74, DEDUCED). -/
def State.poisonMove (s : State) (m : Move) : State :=
  let s := if entKind m.old = 0 && (s.pageRec m.ctx (m.vpage * 0x10000)).owned then s.freeHbm (entAddr m.old) 0x10000 else s
  let s := s.freeMoveSpace m
  let s := if entKind m.old = 2 then s.freeSpill m.ctx (entAddr m.old) else s
  (s.moveOver m false 0).poisonPage m.ctx m.vpage

/-- HBM_REPAIR_FAILURE (R352): the page is POISONED wherever it is mapped, one in flight to or from this HBM among them, and its HBM is
never allocated again. -/
def execHbmRepairFailure (pa : Nat) (s : State) : Host.Outcome State Fault Refusal :=
  let k := pa / 0x10000
  let ms := s.moves.filter (fun m => m.began && ((entKind m.old = 0 && entAddr m.old / 0x10000 = k) || (!m.out && m.dst / 0x10000 = k)))
  let hit := s.mapsUnit k ++ ms.map (fun m => (m.ctx, m.vpage))
  let s := (s.mapsUnit k).foldl (fun s x => s.poisonPage x.1 x.2) s
  let s := ms.foldl State.poisonMove s
  let s := s.freeHbm (k * 0x10000) 0x10000
  let s : State := { s with failed := if s.failed.contains k then s.failed else k :: s.failed }
  .next (hit.foldl (fun s x => s.ackPage x.1 x.2) (s.note (.poisonedPage pa)))

/-- STATE of a lane set (R380). -/
def waitCode : Wait → Nat
  | .run => 0 | .regang => 1 | .waitf _ _ => 2 | .barrier .. => 3 | .future .. => 4 | .hurdle _ => 5 | .pwr .. => 6 | .fork _ => 7
  | .mark _ => 8

/-- WAITARG of a lane set (R380). -/
def waitArg : Wait → Nat
  | .waitf m a => a.toNat * 2 ^ 16 + m
  | .barrier _ l id _ => id * 16 + l
  | .future a _ _ => a
  | .hurdle o => o
  | .pwr c _ => c
  | .mark l => l
  | _ => 0

/-- WATCHDOG_EXPIRY (R370, R384): a count has reached the limit of the context. -/
def execWatchdogExpiry (gang slice set : Nat) (s : State) : Host.Outcome State Fault Refusal :=
  let g := s.gang gang
  let lim := (s.ctx g.ctx).limit
  match smFind (g.slice slice).sets set with
  | none => .next s
  | some y =>
    let count := if (g.slice slice).cur = some set then ((g.part slice).map (fun p => p.idle)).getD 0 else y.idle
    if count < lim || !g.live then .next s
    else .next (s.sysFault gang 7 y.pc 0 (waitArg y.st % 2 ^ 56 * 256 + waitCode y.st))

/-- A gang's triggering release has been performed (R246). -/
def Gang.triggered (g : Gang) : Bool := g.trig && g.earlierDone .dev g.trigUpTo

/-- Groups trigger once all their launch gangs have (R246). -/
def State.triggerGroups (s : State) : State :=
  { s with groups := s.groups.map (fun e =>
      if !e.2.triggered && (e.2.st = .resident || e.2.st = .draining || e.2.st = .parked)
          && e.2.launchGangs.all (fun u => (s.gang u).triggered) then (e.1, { e.2 with triggered := true }) else e) }

/-- Every group of a started launch has been placed once, and none of those left is without its trigger. -/
def State.launchTriggered (s : State) (c q n : Nat) : Bool :=
  let l := s.launch c q n
  pktGroups l.pkt ≤ l.nextPlace && l.back.isEmpty && (s.groupsOfLaunch c q n).all (fun g => (s.group g).triggered && !(s.group g).barred)

/-- A started launch moves on (R305): TRIGGERED, then ENDING. -/
def State.settleLaunch (s : State) (c q n : Nat) : State :=
  let t := s.timens
  let s := if (s.launch c q n).st = 1 && s.launchTriggered c q n then
      s.modLaunch c q n (fun l => { l with st := 2, ttrig := t }) else s
  let l := s.launch c q n
  if l.st = 2 && (s.groupsOfLaunch c q n).isEmpty && l.back.isEmpty then s.ending c q n (if l.killed = 0 && !(s.ctxDying c) then 0 else 1) 0 else s

/-- Every launch moves on as it can. -/
def State.settleLaunches (s : State) : State :=
  let s := s.triggerGroups
  s.ctxs.foldl (fun s c => c.2.queues.foldl (fun s q => q.2.launches.foldl (fun s l =>
    if l.2.st = 1 || l.2.st = 2 then s.settleLaunch c.1 q.1 l.1 else s) s) s) s

/-- The gang's in-flight count is zero (R288): copies, ZRET of mode 10, remote stores and atomics, and baton and carried
stores; lanes in the replay buffer are not waited for (R289). -/
def State.quiet (s : State) (u : Nat) : Bool :=
  let g := s.gang u
  let k := s.core g.core
  k.copyq.all (fun e => e.2.gang ≠ u || e.2.desc.isEmpty)
    && k.matq.all (fun e => e.2.gang ≠ u || (match e.2.i with
      | .zretG _ => false
      | _ => true))
    && g.accs.all (fun e => e.2.use = .read || e.2.lanes.all (fun l => match l.st with
      | .sent _ | .held _ => false
      | .queued => e.2.own.isNone && e.2.carries.isEmpty
      | _ => true))

/-- A DRAINING group may retire (R306, R319): hosted tasks have exited, counts are zero, commands have completed, nothing
from outside writes its scratchpad, and every access has been performed or has failed. -/
def State.mayRetire (s : State) (g : Nat) : Bool :=
  let x := s.group g
  let mine := s.gangs.filter (fun e => e.2.group = g)
  x.st = .draining && !x.rolling && mine.all (fun e => !e.2.live && !e.2.waiting && s.quiet e.1
      && e.2.accs.all (fun a => a.2.parks || a.2.lanes.all (fun l => !l.st.pending)))
    && s.enginesDone g && (s.core x.core).locks.all (fun e => e.2.glob || e.2.space ≠ g)

/-- The value of a group's event (R306). -/
def Group.event (x : Group) : Nat :=
  match x.killed with
  | none => 0
  | some c => c * 256 + 1

/-- Fill a group's event (R306, R422), whether or not futures are accepted (log entry 96, DESIGN CHOICE). False: it has to wait. -/
def State.fillEvent (s : State) (x : Group) : Bool × State :=
  let base := dw (s.launch x.ctx x.q x.seq).pkt 4
  let va := wrap64 ((base : Int) + 8 * (x.index : Nat))
  if base = 0 then (true, s)
  else
    match s.recPlace x.ctx va with
    | .here pa =>
      if s.crossDie hubDie (homeDie pa) then (true, (s.crossed hubDie).note (.dropped 2 va))
      else
        let (us, s) := (s.wr pa (bytesOf 8 x.event)).fill x.ctx none pa
        (true, s.pump us)
    | .wait false => (false, s)
    | _ => (true, s.note (.dropped 2 va))

/-- GROUP_RETIRE (R305, R306, R311, R319): the event is filled, and everything the group holds is freed. -/
def execGroupRetire (group : Nat) (s : State) : Host.Outcome State Fault Refusal :=
  let x := s.group group
  if !(s.mayRetire group) then .next s
  else
    match s.fillEvent x with
    | (false, s) => .next s
    | (true, s) =>
      let s : State := { s with
        groups := smDel s.groups group, gangs := s.gangs.filter (fun e => e.2.group ≠ group) }
      let s := s.modLaunch x.ctx x.q x.seq (fun l =>
        if x.killed.isNone then { l with retired := l.retired + 1 } else { l with killed := l.killed + 1 })
      .next ((if (s.launch x.ctx x.q x.seq).ttOn then s.pace x.ctx x.q x.seq else s).settleLaunch x.ctx x.q x.seq)

/-- The pacer's summary (R347). -/
def Launch.summary (l : Launch) : List Byte :=
  [l.misses, l.unlogged, l.completed, l.malformed, l.fetched, l.evicted, l.autoMoves, l.failed].flatMap (bytesOf 8)

/-- MEANMHZ (R308): clock cycles over the time of holding, to the nearest MHz. -/
def Launch.meanMhz (l : Launch) : Nat :=
  if l.heldTime = 0 then 0 else (2 * l.cycles * Config.us + l.heldTime) / (2 * l.heldTime)

/-- ENERGY (R308): whole µJ. -/
def Launch.microJoules (l : Launch) : Nat := l.energy.1 / (1000 * max 1 l.energy.2)

/-- The completion record (R307). -/
def Launch.complete (l : Launch) (q n : Nat) : List Byte :=
  bytesOf 8 (n % 2 ^ 32 * 2 ^ 32 + q * 256 + l.status) ++ bytesOf 8 (dw l.pkt 8) ++ bytesOf 8 l.tstart ++ bytesOf 8 l.ttrig ++ bytesOf 8 l.tend
    ++ bytesOf 8 (l.microJoules * 2 ^ 16 + l.meanMhz % 2 ^ 16) ++ bytesOf 8 (l.retired % 2 ^ 24 * 2 ^ 40 + l.killed % 2 ^ 24 * 2 ^ 16)
    ++ bytesOf 8 l.hdrErr ++ ((List.range 6).flatMap (fun i => bytesOf 8 (l.throttled.getD i 0))) ++ bytesOf 16 0

/-- A launch has left its queue (R294, R295): DONESEQ, HELD and the state of the queue follow. One from before an enable moves no
DONESEQ. -/
def Queue.ended_ (x : Queue) (n st : Nat) : Queue :=
  let rest := smDel x.launches n
  let done := match leastBy (fun l => x.ahead l.1) (rest.filter (fun l => l.1 < 2 ^ 32)) with
    | none => x.last
    | some l => if l.1 = seqNext x.done then x.done else seqPrev l.1
  { x with
    launches := rest
    done := if 2 ^ 32 ≤ n then x.done else done
    ended := if 2 ^ 32 ≤ n then x.ended else (n, st) :: x.ended
    st := if !rest.isEmpty then x.st else (match x.st with
      | .active => .idle
      | .draining => .disabled
      | st => st) }

/-- The safe kernel's launch has ended (R397): SAFESTAT tells, and its context goes. -/
def State.safeEnded (s : State) (st : Nat) : State :=
  let s := s.modDev (fun d => { d with safeState := 2, safeEnd := st })
  ({ s with ctxs := smDel s.ctxs safeCtx, proofs := s.proofs.filter (fun p => p.ctx ≠ safeCtx) } : State).dropCtx safeCtx

/-- LAUNCH_END (R295, R305, R307, R347): the summary and the completion record are written; then DONESEQ and HELD move. -/
def execLaunchEnd (ctx q seq : Nat) (s : State) : Host.Outcome State Fault Refusal :=
  match smFind (s.queue ctx q).launches seq with
  | none => .next s
  | some l =>
    if l.st ≠ 3 then .next s
    else
      let (ok, s) := if l.ttOn && l.logaddr ≠ 0 && !l.summed then s.record ctx l.logaddr l.summary 5 else (true, s)
      if !ok then .next s
      else
        let s := s.modLaunch ctx q seq (fun l => { l with summed := true })
        let (ok, s) := s.record ctx (dw l.pkt 3) (l.complete q seq) 3
        if !ok then .next s
        else
          let s := s.modQueue ctx q (fun x => x.ended_ seq l.status)
          .next (if ctx = safeCtx then s.safeEnded l.status else s)

end Sys2Proof.Machine
end

