-- ==== Sys2Proof/Machine/Save.lean ====
section
/-! DEFINITION. Stopping for a save, and the save area's layout (R218, R284, R288, R289, R326, R376 to R381). -/

namespace Sys2Proof.Machine

/-- Bytes at an offset. -/
abbrev Piece := Nat × List Byte

/-- A dword at an offset. -/
def dwAt (off x : Nat) : Piece := (off, bytesOf 8 x)

/-- Dwords in order from an offset. -/
def dwsAt (off : Nat) (l : List Nat) : List Piece := l.mapIdx (fun i x => dwAt (off + 8 * i) x)

/-- Move pieces by a base. -/
def shiftPieces (base : Nat) (l : List Piece) : List Piece := l.map (fun p => (base + p.1, p.2))

/-- Put pieces into a memory. -/
def putPieces (m : Memory) (l : List Piece) : Memory := l.foldl (fun m p => Memory.writeN m p.1 p.2) m

/-- Two dwords of a loop entry (R380). -/
def loopDwords (l : Loop) : List Nat := [l.count % 2 ^ 32 * 2 ^ 32 + l.index % 2 ^ 32, l.ret]

/-- The bundle address that a save records for a lane set: the one at which it goes on (log entry 24, DEDUCED). -/
def LaneSet.savedPc (y : LaneSet) : Nat := if y.st = .run || y.st = .regang then y.pc else y.nxt

/-- A lane-set entry (R380); `t` is its stop cycle and `part` the lowest slice of its part. -/
def LaneSet.pieces (y : LaneSet) (t part : Nat) : List Piece :=
  dwsAt 0 ([y.savedPc, min 1024 (y.ready - t) * 2 ^ 32 + part * 2 ^ 24 + y.mask * 2 ^ 16 + waitCode y.st * 2 ^ 8 + y.inh.toNat * 2 ^ 7 + y.loops.length,
    waitArg y.st, 0] ++ y.loops.flatMap loopDwords)

/-- A trap frame (R380). -/
def Frame.pieces (f : Frame) : List Piece :=
  dwsAt 0 ([f.cause, f.pc, f.info, f.valid.toNat * 2 ^ 22 + f.capLdq * 2 ^ 16 + f.capLaq * 2 ^ 8 + f.loops.length]
    ++ f.loops.flatMap loopDwords)

/-- The data dwords of a lane in the LAQ entries of its access (R380): low and high words of a 64-bit operand, and of each of
the pair of `.cas`. -/
def Acc.laqData (a : Acc) (l : AccLane) (n : Nat) : Nat :=
  match is64 a.ty, a.isCas, n with
  | true, true, 0 | true, false, 0 => l.data % 2 ^ 32
  | true, true, 1 | true, false, 1 => l.data / 2 ^ 32
  | true, true, 2 => l.data2 % 2 ^ 32
  | true, true, _ => l.data2 / 2 ^ 32
  | true, false, _ => 0
  | false, true, 1 => l.data2
  | false, _, _ => l.data

/-- LAQ entry `n` of an access on a slice (R380): its active lanes; where none waits in the replay buffer, those that still have to be
presented (log entry 89, DEDUCED). -/
def Acc.laqEntry (a : Acc) (id k n : Nat) (x : Slice) : List Nat :=
  let mine := a.lanes.filter (fun l => l.lane / 8 = k)
  let lanes := if mine.any (fun l => l.st.buffered) then mine else mine.filter (fun l => l.st ≠ .done && l.st ≠ .arriving)
  let second := is64 a.ty && n % 2 = 1
  let idx := if delivers a.op && n < entriesOf a.ty then
      (((x.ldq.zipIdx).find? (fun e => e.1.acc = id && e.1.second = second)).map (·.2)).getD 63 else 63
  let held := maskOf ((lanes.filter (fun l => l.st.buffered)).map (fun l => l.lane % 8))
  let owner := ((a.owner.find? (fun o => o.1 = k)).map (·.2)).getD 0
  let at_ := fun (f : AccLane → Nat) => (List.range 8).map (fun j => ((lanes.find? (fun l => l.lane % 8 = j)).map f).getD 0)
  [a.op * 2 ^ 56 + tyCode a.ty * 2 ^ 52 + scopeCode a.scope * 2 ^ 49 + ordCode a.ord * 2 ^ 47 + atomCode a.atop * 2 ^ 43 + a.ro.toNat * 2 ^ 42
      + second.toNat * 2 ^ 41 + a.strm.toNat * 2 ^ 40 + (decide (1 ≤ a.carries.length)).toNat * 2 ^ 39
      + (decide (2 ≤ a.carries.length)).toNat * 2 ^ 38 + maskOf (lanes.map (fun l => l.lane % 8)) * 2 ^ 24 + held * 2 ^ 16
      + (if held = 0 then 0 else 2) * 2 ^ 14 + idx * 2 ^ 8 + owner * 2 ^ 5,
    a.carries.getD 0 0 % 2 ^ 32 * 2 ^ 32 + a.carries.getD 1 0 % 2 ^ 32] ++ at_ (fun l => l.addr) ++ at_ (fun l => a.laqData l n)

/-- The LAQ entries of a slice, from the head (R174, R380). One whose lanes have all arrived stands in the LDQ alone. -/
def Gang.laqEntries (g : Gang) (k : Nat) : List (List Nat) :=
  g.accs.flatMap (fun e => if e.2.inLaq k && e.2.op ≠ opJoin && e.2.hasLane k (fun x => x ≠ .done && x ≠ .arriving) then
    (List.range e.2.laqSize).map (fun n => e.2.laqEntry e.1 k n (g.slice k)) else [])

/-- The lowest slice of the part that holds gang slice `k`, and its stop cycle. -/
def Gang.stopOf (g : Gang) (k : Nat) : Nat × Nat :=
  match g.part k with
  | none => (k, g.stopped.getD 0)
  | some p => (lowSlice p.slices, p.stop.getD (g.stopped.getD 0))

/-- A stream's progress (R380). -/
def Strm.pieces (t : Strm) : List Piece := dwsAt 0 t.desc ++ dwsAt 0x40 [t.next, tyCode t.ty * 2 ^ 12 + 2 ^ 8 + t.lanes]

/-- The values of an LDQ entry of a slice, with the lanes that have arrived (R178, R380). -/
def Gang.ldqVals (g : Gang) (k : Nat) (e : LdqEntry) : List Nat :=
  if e.ready then e.vals
  else (List.range 8).map (fun j => match (g.acc e.acc).lanes.find? (fun l => l.lane = 8 * k + j && l.st = .arriving) with
    | some l => if e.second then l.val / 2 ^ 32 % 2 ^ 32 else l.val % 2 ^ 32
    | none => e.vals.getD j 0)

/-- A slice block (R380). -/
def Gang.slicePieces (g : Gang) (k : Nat) : List Piece :=
  let x := g.slice k
  let cur := g.current k
  let (part, t) := g.stopOf k
  let laq := g.laqEntries k
  let lane := fun (j : Nat) => 8 * k + j
  let head := x.flags.ended * 2 ^ 32 + maskOf (x.sets.map (·.1)) * 2 ^ 24 + cur.getD 0 * 2 ^ 18 + cur.isNone.toNat * 2 ^ 17
    + x.sets.isEmpty.toNat * 2 ^ 16 + laq.length * 2 ^ 8 + x.ldq.length
  [dwAt 0 head] ++ x.sets.flatMap (fun e => shiftPieces (0x40 + 128 * e.1) (e.2.pieces t part))
    ++ shiftPieces 0x440 x.frame.pieces
    ++ (List.range 8).flatMap (fun j => [
      (0x540 + 8 * j, bytesOf 4 (g.latch0 (lane j)) ++ bytesOf 4 (g.latch1 (lane j))),
      (0x580 + 8 * j, bytesOf 4 (smGet (0 : Word) g.c0 (lane j)).toNat ++ bytesOf 4 (smGet (0 : Word) g.c1 (lane j)).toNat),
      (0x5C0 + 4 * j, bytesOf 4 (maskOf ((List.range 32).filter (fun n => g.pReg (lane j) n)))),
      (0x5E0 + 4 * j, bytesOf 4 (g.gReg (lane j)))])
    ++ x.ldq.mapIdx (fun i e => (0x600 + 32 * i, (g.ldqVals k e).flatMap (bytesOf 4)))
    ++ (match x.strm with
      | none => []
      | some t => shiftPieces 0xA00 t.pieces)
    ++ (laq.mapIdx (fun i e => dwsAt (0xA80 + 144 * i) e)).flatten

/-- A gang block (R379). -/
def Gang.pieces (g : Gang) (u : Nat) : List Piece :=
  let live := maskOf ((List.range g.width).filter (fun k => (g.slice k).live ≠ 0))
  let (va, fmt) := g.al.getD (0, 0)
  dwsAt 0 [u % 2 ^ 32 * 2 ^ 32 + g.width * 2 ^ 24 + live * 2 ^ 16 + g.idx * 2 ^ 12 + g.task.toNat * 2 ^ 11 + g.chk.toNat * 2 ^ 10
      + g.al.isSome.toNat * 2 ^ 9 + g.inReg.toNat * 2 ^ 8 + g.cls * 2 ^ 5 + g.curcls,
    g.dmr.toNat, g.fenceWord, g.fstat, g.leaseLeft % 2 ^ 16 * 2 ^ 32 + va * 2 ^ 8 + fmt]
    ++ dwsAt 0x40 ((List.range 8).map g.kReg) ++ dwsAt 0x100 ((List.range 64).map g.sReg)
    ++ (List.range g.width).flatMap (fun k => shiftPieces (0x400 + 0x1C80 * k) (g.slicePieces k))

/-- The register granules of a gang: register r of lane i at 4 × (r × lanes + i). -/
def vPieces (v : List (Nat × Word)) (w : Nat) : List Piece :=
  v.map (fun e => (4 * (e.1 % 256 * (8 * w) + e.1 / 256), bytesOf 4 e.2.toNat))

/-- Gangs of a group that a save records (R284): its live ones, launch gangs first. -/
def State.savedGangs (s : State) (g : Nat) : List (Nat × Gang) :=
  let l := s.gangs.filter (fun e => e.2.group = g && e.2.live)
  sortKey (fun e => e.2.task.toNat * 16 + e.2.idx) l

/-- The register images of a group's pool, each with its size in granules: launch gangs by index, those whose granules are
held among them (R316, R322). -/
def State.launchImages (s : State) (g : Nat) : List (List Piece × Nat) :=
  let h := s.kernel g
  (s.group g).launchGangs.filterMap (fun u =>
    let x := s.gang u
    if x.live || h.rollback then some (if x.live then vPieces x.v x.width else [], h.gangGran h.width) else none)

/-- The shadow copies of a group with ROLLBACK (R300, R320). -/
def State.shadowImages (s : State) (g : Nat) : List (List Piece × Nat) :=
  let x := s.group g
  let h := s.kernel g
  if !h.rollback then []
  else
    let n := x.snap.getD ⟨[], [], [], []⟩
    (x.launchGangs.map (fun u => ((match smFind n.gangs u with
      | none => []
      | some y => vPieces y.v y.width), h.gangGran h.width))) ++ [(n.spad.map (fun c => (c.1, [c.2])), h.sgran)]

/-- The pool image of a group (R284, R300, R315), as blocks with their sizes in granules: registers, scratchpad, tiles, shadow
copies, and the registers of task gangs. -/
def State.poolImages (s : State) (g : Nat) : List (List Piece × Nat) :=
  let x := s.group g
  let h := s.kernel g
  s.launchImages g ++ [(x.spad.map (fun c => (c.1, [c.2])), h.sgran), (x.z.map (fun e => (4 * e.1, bytesOf 4 e.2.toNat)), h.zgran)]
    ++ s.shadowImages g
    ++ ((s.savedGangs g).filter (fun e => e.2.task)).map (fun e => (vPieces e.2.v e.2.width, h.gangGran e.2.width))

/-- Lay blocks of granules one after another. -/
def layGranules : Nat → List (List Piece × Nat) → List Piece
  | _, [] => []
  | off, (l, n) :: rest => shiftPieces off l ++ layGranules (off + 0x4000 * n) rest

/-- The code of a group state (R310). -/
def gstateCode : GState → Nat
  | .pending => 0 | .placed => 1 | .resident => 2 | .parked => 3 | .draining => 4 | .retired => 5

/-- The state word of a group barrier (R326). -/
def State.barWord (s : State) (g n : Nat) : Nat :=
  let x := s.group g
  let b := (smFind x.bars n).getD default
  let idx := fun (u : Nat) => (s.gang u).idx
  b.phase * 2 ^ 32 + maskOf ((x.launchGangs.filter (fun u => (s.gang u).live)).map idx) * 2 ^ 16 + maskOf (b.arrived.map idx)

/-- A byte of FUTBITS (R381). -/
def futByte (futs : List Nat) (i : Nat) : Nat := maskOf ((futs.filter (fun c => c / 8 = i)).map (· % 8))

/-- A group block (R381) with its state and the number of gang blocks that follow. -/
def groupPieces (x : Group) (h : Kernel) (khdr st n : Nat) (bars : List Nat) : List Piece :=
  dwsAt 0 ([x.index * 2 ^ 40 + st * 2 ^ 32 + h.vgran * 2 ^ 16 + h.sgran * 2 ^ 8 + h.zgran, khdr,
      x.seq * 2 ^ 32 + x.cls * 2 ^ 29 + n * 2 ^ 24, x.ueCount * 2 + x.commit.toNat]
    ++ (List.range 4).map (fun i => ((List.range 4).map (fun j => smGet 0 x.depth (4 * i + j) * 2 ^ (16 * j))).sum) ++ bars)
    ++ (match x.fault with
      | none => []
      | some f => [(0x100, faultBytes f)])
    ++ ((x.futs.map (· / 8)).eraseDups).map (fun i => (0x1000 + i, bytesOf 1 (futByte x.futs i)))

/-- A record of the save area: core, index, queue, co-resident flag, state, length, and contents. -/
structure SaveRec where
  core : Nat
  index : Nat
  q : Nat
  coreq : Bool
  st : Nat
  len : Nat
  body : List Piece

/-- The record of a group that has been placed (R284). -/
def State.groupRec (s : State) (g : Nat) : SaveRec :=
  let x := s.group g
  let l := s.launchOf g
  let gs := s.savedGangs g
  let pool := s.poolImages g
  let n := (pool.map (·.2)).sum
  { core := x.core, index := x.index, q := x.q, coreq := l.coresident, st := gstateCode x.st
    len := 0x10000 * (1 + gs.length) + 0x4000 * n
    body := groupPieces x l.hdr (dw l.pkt 1) (gstateCode x.st) gs.length ((List.range 16).map (s.barWord g))
      ++ (gs.mapIdx (fun i e => shiftPieces (0x10000 * (1 + i)) (e.2.pieces e.1))).flatten
      ++ layGranules (0x10000 * (1 + gs.length)) pool }

/-- The record of a group that is PENDING (R311). -/
def pendingRec (q n : Nat) (l : Launch) (i : Nat) : SaveRec :=
  let x : Group := { (default : Group) with q := q, seq := n, index := i }
  { core := 0, index := i, q := q, coreq := l.coresident, st := 0, len := 0x10000
    body := groupPieces x l.hdr (dw l.pkt 1) 0 0 [] }

/-- The groups of started launches that have no core (R311). -/
def State.pendingRecs (s : State) (c : Nat) : List SaveRec :=
  (s.ctx c).queues.flatMap (fun q => (q.2.inOrder.filter (fun l => l.2.st = 1 || l.2.st = 2)).flatMap (fun l =>
    (l.2.back ++ (List.range (pktGroups l.2.pkt - l.2.nextPlace)).map (· + l.2.nextPlace)).map (pendingRec q.1 l.1 l.2)))

/-- The records of a context's save area; the directory holds 24,576 (R284), and others are left out (log entry 93,
DESIGN CHOICE). -/
def State.saveRecs (s : State) (c : Nat) : List SaveRec :=
  ((s.groupsOfCtx c).map s.groupRec ++ s.pendingRecs c).take 24576

/-- Lay records at multiples of 64 KiB: the directory entries, the contents, and the end. -/
def layRecs : Nat → Nat → List SaveRec → List Piece × Nat
  | _, off, [] => ([], off)
  | i, off, r :: rest =>
    let next := (off + r.len + 0xFFFF) / 0x10000 * 0x10000
    let (l, e) := layRecs (i + 1) next rest
    (dwsAt (0x310000 + 16 * i) [off, r.core * 2 ^ 55 + r.index * 2 ^ 31 + r.q * 2 ^ 24 + r.coreq.toNat * 2 ^ 8 + r.st]
      ++ shiftPieces off r.body ++ l, if rest.isEmpty then off + r.len else e)

/-- A queue record (R284, R290). -/
def State.queuePieces (s : State) (c q : Nat) (x : Queue) (code : Nat) : List Piece :=
  let parked := ((s.queueGroups c q).filter (fun g => (s.group g).st = .parked)).length
  dwsAt (0x3000 + 128 * q) [0, x.last * 2 ^ 32 + parked % 256 * 2 ^ 16 + x.heldCount * 2 ^ 8 + code, x.cls, x.qbuf, x.faultbase, x.done,
    x.drops * 2 ^ 32 + x.cmderr * 2 ^ 8 + x.pkterr]

/-- The code of a queue's state (R294). -/
def qstateCode : QState → Nat
  | .disabled => 0 | .idle => 1 | .active => 2 | .draining => 3 | .halted => 4 | .faulted => 5

/-- A context descriptor (R276). -/
def Ctx.descriptor (x : Ctx) : List Nat :=
  [x.root, x.holdus * 2 ^ 32 + x.wdlog * 2 ^ 24 + x.killexp.toNat * 2 ^ 9 + x.check.toNat * 2 ^ 8 + x.vf]

/-- The save area of a context (R284): its contents and its size. -/
def State.saveArea (s : State) (c : Nat) : List Piece × Nat :=
  let x := s.ctx c
  let recs := s.saveRecs c
  let (body, size) := layRecs 0 0x370000 recs
  let used := maskOf ((s.groupsOfCtx c).map (fun g => clusterOf (s.group g).core))
  (dwsAt 0 [size * 2 ^ 32 + recs.length * 2 ^ 16 + 2 ^ 8 + 1, s.dev.pkgid * 2 ^ 48 + used, s.timens, s.dev.feat % 2 ^ 64, s.dev.feat / 2 ^ 64]
    ++ dwsAt 0x100 x.descriptor
    ++ (List.range 48).flatMap (fun k => dwsAt (0x1000 + 128 * k) ((List.range 16).map (fun n => x.word (bcKey k n))))
    ++ x.queues.flatMap (fun q => s.queuePieces c q.1 q.2 (qstateCode q.2.st))
    ++ (List.range 384).flatMap (fun k => ((s.core k).deque c).recs.mapIdx (fun j r => (0x10000 + 0x2000 * k + 32 * j, bytesOf 32 r.bits)))
    ++ body, size)

/-- An MMA or MMAC of the bundle would raise a tile from depth 0 (R376). -/
def State.opensTile (s : State) (u k : Nat) : Bool :=
  match s.nextBundle u k with
  | .bundle c _ is =>
    let depth := fun (t : Fin 16) => smGet 0 (s.groupOf u).depth t
    is.any (fun i => match i with
      | .mma o => s.acts c o.g && depth o.zt = 0
      | .mmac o => s.acts c o.g && (depth o.zt = 0 || depth o.zu = 0)
      | _ => false)
  | _ => false

/-- The part is at a safe point (R376): a wait at a regang bundle is no block of R36. -/
def State.safePoint (s : State) (u : Nat) (p : Part) : Bool :=
  let g := s.gang u
  let ys := (bitsOf 8 p.slices).filterMap (fun k => (g.slice k).curSet)
  (g.loopsOf p.slices).isEmpty || g.inHandler p.slices || ys.all (fun y => y.edge)
    || ys.any (fun y => y.st ≠ .run && y.st ≠ .regang) || g.replaying p.slices
    || p.holds.any (fun h => match h with
      | .mark _ true => true
      | _ => false)
    || s.opensTile u (lowSlice p.slices)

/-- Holds that a stop ends: a SPRINT's, and questions to the pacer, which are asked again (R377, R378). -/
def Hold.endsAtStop : Hold → Bool
  | .sprint _ | .lease _ | .mark .. | .marked _ => true
  | _ => false

/-- A part stops (R377): its writes land, and a MARK that waits becomes the wait of its lane sets. -/
def State.stopPart (s : State) (u : Nat) (p : Part) : State :=
  let g := s.gang u
  let t := g.stopped.getD (s.cyc g.core)
  let ids := p.holds.filterMap (fun h => match h with
    | .sprint id | .lease id => some id
    | _ => none)
  let lap := p.holds.findSome? (fun h => match h with
    | .mark n true => some n
    | _ => none)
  let s := s.modDie (dieOf g.core) (fun d => { d with leaseq := d.leaseq.filter (fun r => !(ids.contains r.id)) })
  s.modGang u (fun g =>
    let g := g.landPart (s.cyc g.core) p.slices
    let g := match lap with
      | none => g
      | some n => g.modCurs p.slices (fun y => { y with st := .mark n, nxt := y.pc })
    { g with parts := g.parts.map (fun x =>
        if x.slices = p.slices then { x with stop := some t, holds := x.holds.filter (fun h => !h.endsAtStop) } else x) })

/-- A gang's parts stop where they can (R377); with all of them stopped the gang is. -/
def State.stopParts (s : State) (u : Nat) : State :=
  let g := s.gang u
  let t := s.cyc g.core
  let open_ := !(s.group g.group).depth.isEmpty && g.stopped.isNone
  let s := if open_ then s else
    (g.parts.filter (fun p => p.stop.isNone && (g.stopped.isSome || s.safePoint u p))).foldl (fun s p => s.stopPart u p) s
  if (s.gang u).parts.all (fun p => p.stop.isSome) then
    s.modGang u (fun g => { g.landEvery t with stopped := some (g.stopped.getD t) }) else s

/-- GANG_STOP (R377): the parts of a gang of a context that is to be saved stop as they reach safe points. -/
def execGangStop (gang : Nat) (s : State) : Host.Outcome State Fault Refusal :=
  let g := s.gang gang
  let x := s.ctx g.ctx
  if x.st ≠ .stopping || x.stop.any (fun p => p.kill) || !g.live then .next s else .next (s.stopParts gang)

/-- An access's arrived lanes on a slice cannot be delivered before lanes that wait in the replay buffer or on a park: its own, or those of
an entry before it (R174, R377). -/
def Gang.behindWait (g : Gang) (id k : Nat) : Bool :=
  let es := (g.slice k).ldq
  ((es.takeWhile (fun e => e.acc ≠ id)).map (·.acc) ++ [id]).any (fun i => (g.acc i).hasLane k (fun x => x.buffered || x.asleep))

/-- A gang has stopped, and what step 3 of R377 waits for has happened. -/
def State.gangStopped (s : State) (u : Nat) : Bool :=
  let g := s.gang u
  (!g.live || (g.stopped.isSome && g.parts.all (fun p => p.stop.isSome && p.holds.isEmpty))) && !g.waiting && s.quiet u
    && g.accs.all (fun e => e.2.lanes.all (fun l => match l.st with
      | .done | .replay | .stuck | .parked | .retry _ => true
      | .arriving => g.behindWait e.1 (l.lane / 8)
      | _ => false))

/-- Nothing of the context is under way any more (R288, R377). -/
def State.ctxStopped (s : State) (c : Nat) : Bool :=
  (s.everyGangOfCtx c).all s.gangStopped
    && (s.groupsOfCtx c).all (fun g =>
      let x := s.group g
      let k := s.core x.core
      x.st ≠ .placed && (!x.rolling || x.st = .parked) && x.snapDue.isNone && k.matq.all (fun e => e.2.group ≠ g)
        && k.locks.all (fun e => e.2.glob || e.2.space ≠ g || e.2.owner < 2 ^ 40))
    && (s.ctx c).queues.all (fun q => q.2.launches.all (fun l => l.2.st ≠ 3) && q.2.leaving.isEmpty && q.2.inbox.isEmpty)
    && s.link.shoots.all (fun x => x.ctx ≠ c)

/-- A stopped gang gives up AL, its lease and its streams' locks, and what it asks for (R377 step 4, R256, R289, R336). -/
def State.releaseGang (s : State) (u : Nat) : State :=
  let g := s.gang u
  let k := s.core g.core
  let left := max g.leaseLeft (s.leaseLeft g)
  let al := k.al.bind (fun a => if a.gang = u then some (a.va, a.fmt) else none)
  let locks := g.slices.filterMap (fun x => x.strm.map (fun t => t.lock))
  let s := (s.leaveWaiters u).leaveAl u
  -- a save records no baton of a store in the replay buffer (R380) (log entry 70, DEDUCED)
  let lost := (g.accs.filterMap (fun e => if e.2.lanes.any (fun l => l.st.buffered) then e.2.own else none)).eraseDups
  let s := if lost.isEmpty then s else (lost.foldl State.failBaton s).settleHeld
  let s := s.modDie (dieOf g.core) (fun d =>
    { d with pwrq := d.pwrq.filter (fun r => r.gang ≠ u), leaseq := d.leaseq.filter (fun r => r.gang ≠ u) })
  let s := s.modCore g.core (fun k => { k with locks := k.locks.filter (fun e => !(locks.contains e.1)) })
  s.modGang u (fun g => { g with al := al, leaseLeft := left, leaseEnd := none, leaseCut := none })

end Sys2Proof.Machine
end

