-- ==== Sys2Proof/Machine/Restore.lean ====
section
/-! DEFINITION. Reading a save area, the checks of a restore, and resuming gangs (R284 to R289, R336, R378, R410). -/

namespace Sys2Proof.Machine

/-- `n` dwords at a physical address. -/
def State.dws (s : State) (a n : Nat) : List Nat := (List.range n).map (fun i => s.rdN (a + 8 * i) 8)

/-- The first `n` loop entries of a list of dwords (R380). -/
def loadLoops (l : List Nat) (n : Nat) : List Loop :=
  (List.range n).map (fun i => ⟨dw l (2 * i) / 2 ^ 32, dw l (2 * i) % 2 ^ 32, dw l (2 * i + 1)⟩)

/-- A lane-set entry as a save area holds it (R380). -/
structure SetImage where
  e : Nat
  pc : Nat
  remain : Nat
  part : Nat
  mask : Nat
  st : Nat
  inh : Bool
  arg : Nat
  loops : List Loop

/-- Entry `e` of the slice block at `a`. -/
def State.setImage (s : State) (a e : Nat) : SetImage :=
  let d := s.dws (a + 0x40 + 128 * e) 16
  let w := dw d 1
  { e := e, pc := dw d 0, remain := fld w 32 11, part := fld w 24 3, mask := fld w 16 8, st := fld w 8 4, inh := w.testBit 7
    arg := dw d 2, loops := loadLoops (d.drop 4) (fld w 0 3) }

/-- The lane sets of the slice block at `a`. -/
def State.setImages (s : State) (a : Nat) : List SetImage := (bitsOf 8 (fld (s.rdN a 8) 24 8)).map (s.setImage a)

/-- A trap frame (R380). The layout has no place for the flags at entry, which R374 lets the frame hold: it takes the slice's flags
(log entry 81, DESIGN CHOICE). -/
def State.frameImage (s : State) (a : Nat) : Frame :=
  let d := s.dws (a + 0x440) 16
  let w := dw d 3
  { cause := dw d 0, pc := dw d 1, info := dw d 2, valid := w.testBit 22, capLdq := fld w 16 6, capLaq := fld w 8 6
    flags := fld (s.rdN a 8) 32 16
    loops := loadLoops (d.drop 4) (fld w 0 3) }

/-- The access of LAQ entries `rows` of slice `k` (R380): its faulted lanes wait in the replay buffer, and the others have been
performed, or have arrived; without a faulted lane every lane is presented. -/
def loadAcc (k : Nat) (rows : List (List Nat)) : Acc :=
  let h := dw (rows.headD []) 0
  let ty := tyOf (fld h 52 4)
  let row := fun (n j : Nat) => dw (rows.getD n []) (10 + j)
  let a : Acc :=
    { op := h / 2 ^ 56, ty := ty, scope := scopeOf (fld h 49 3), ord := ordOf (fld h 47 2), atop := atomOf (fld h 43 4), ro := h.testBit 42
      strm := h.testBit 40, take := h / 2 ^ 56 = 0x29 && ordOf (fld h 47 2) = .ar, inh := false, slices := 2 ^ k, pc := none, owner := [(k, fld h 5 3)]
      own := none
      carries := (if h.testBit 39 then [dw (rows.headD []) 1 / 2 ^ 32] else []) ++ (if h.testBit 38 then [dw (rows.headD []) 1 % 2 ^ 32] else [])
      lanes := [], cyc := 0, hold := 0, failed := false }
  let lane := fun (j : Nat) =>
    let (x, y) := match is64 ty, a.isCas with
      | true, true => (row 0 j + 2 ^ 32 * row 1 j, row 2 j + 2 ^ 32 * row 3 j)
      | true, false => (row 0 j + 2 ^ 32 * row 1 j, 0)
      | false, true => (row 0 j, row 1 j)
      | false, false => (row 0 j, 0)
    ({ lane := 8 * k + j, addr := dw (rows.headD []) (2 + j), data := x, data2 := y, st := if (fld h 16 8).testBit j then .replay else if fld h 16 8 = 0 then .queued else if delivers (h / 2 ^ 56) then .arriving else .done
       val := 0, bad := false } : AccLane)
  { a with lanes := (bitsOf 8 (fld h 24 8)).map lane }

/-- The accesses of a slice's LAQ, each with the LDQ entries it delivers into. -/
def laqAccs (k : Nat) : Nat → List (List Nat) → List (Acc × List Nat)
  | 0, _ => []
  | _, [] => []
  | f + 1, d :: ds =>
    let n := (loadAcc k [d]).laqSize - 1
    let rows := d :: ds.take n
    (loadAcc k rows, rows.map (fun r => fld (dw r 0) 8 6)) :: laqAccs k f (ds.drop n)

/-- A slice block as it is read. -/
structure SliceImage where
  k : Nat
  at_ : Nat
  head : Nat
  sets : List SetImage
  frame : Frame
  laq : List (Acc × List Nat)

/-- The block of slice `k` of the gang block at `a`. -/
def State.sliceImage (s : State) (a k : Nat) : SliceImage :=
  let b := a + 0x400 + 0x1C80 * k
  let h := s.rdN b 8
  let n := fld h 8 6
  let val := fun (refs : List Nat) (j : Nat) =>
    ((refs.take 2).mapIdx (fun i e => if e = 63 then 0 else s.rdN (b + 0x600 + 32 * e + 4 * j) 4 * 2 ^ (32 * i))).sum
  let arrived := fun (x : Acc × List Nat) => ({ x.1 with lanes := x.1.lanes.map (fun l =>
    if l.st = .arriving then { l with val := val x.2 (l.lane % 8) } else l) }, x.2)
  { k := k, at_ := b, head := h, sets := s.setImages b, frame := s.frameImage b
    laq := (laqAccs k n ((List.range n).map (fun i => s.dws (b + 0xA80 + 144 * i) 18))).map arrived }

/-- The lane sets of one wait: the part and the PC that their entries hold. -/
def SetImage.key (y : SetImage) : Nat × Nat := (y.part, y.pc)

/-- An access of a gang that is being restored: the key of its owner, and the LDQ entries of each slice. -/
structure AccImage where
  key : Nat × Nat
  acc : Acc
  refs : List (Nat × List Nat)

/-- Two LAQ entries of different slices are of one bundle's access whose lanes go together, as far as the area tells: an FWAIT, or one with
an order, of one part's lane sets and of the same form. -/
def AccImage.joins (y x : AccImage) : Bool :=
  (x.acc.op = 0x29 || x.acc.acquires || x.acc.releases) && y.key = x.key && y.refs.all (fun r => x.refs.all (fun q => q.1 ≠ r.1))
    && decide ({ y.acc with slices := 0, owner := [], lanes := [] } = { x.acc with slices := 0, owner := [], lanes := [] })

/-- Add an access: an FWAIT, an acquire or a release of one bundle is one access again, over its slices. -/
def addAcc (l : List AccImage) (x : AccImage) : List AccImage :=
  match l.findIdx? (fun y => y.joins x) with
  | none => l ++ [x]
  | some n => l.modify n (fun y => { y with
      acc := { y.acc with slices := y.acc.slices ||| x.acc.slices, owner := y.acc.owner ++ x.acc.owner, lanes := y.acc.lanes ++ x.acc.lanes }
      refs := y.refs ++ x.refs })

/-- The accesses of a gang's slices. -/
def gangAccs (sl : List SliceImage) : List AccImage :=
  (sl.flatMap (fun x => x.laq.map (fun a =>
    let owner := ((a.1.owner.headD (0, 0)).2)
    let y := x.sets.find? (fun y => y.e = owner)
    let inh := (y.map (fun y => y.inh)).getD false
    (⟨(y.map (fun y => y.key)).getD (0, 0), { a.1 with inh := inh }, [(x.k, a.2)]⟩ : AccImage)))).foldl addAcc []

/-- The instructions of the bundle before an address. -/
def State.prevInstrs (s : State) (c pc : Nat) : List Instr :=
  match s.prevHead c pc with
  | none => []
  | some a =>
    match s.fetch c a with
    | .ok bs =>
      (match decodeBytes bs with
       | .ok b => b.instrs
       | .error _ => [])
    | _ => []

/-- The register that a JOIN delivers into (R250). -/
def State.joinDst (s : State) (c pc : Nat) : Nat :=
  ((s.prevInstrs c pc).findSome? (fun i => match i with
    | .join _ sd _ => some sd.val
    | _ => none)).getD 0

/-- The JOINs of a gang: keys of lane sets in STATE 4 that own no FWAIT, with the address. -/
def joinKeys (sl : List SliceImage) (l : List AccImage) : List (Nat × Nat × Nat) :=
  (sl.flatMap (fun x => (x.sets.filter (fun y => y.st = 4 && !(l.any (fun a => a.acc.op = 0x29 && a.acc.owner.contains (x.k, y.e))))).map
    (fun y => (y.part, y.pc, y.arg)))).eraseDups

/-- The access of a JOIN. -/
def State.joinAcc (s : State) (c : Nat) (sl : List SliceImage) (x : Nat × Nat × Nat) : AccImage :=
  let mine := sl.flatMap (fun y => (y.sets.filter (fun z => z.key = (x.1, x.2.1))).map (fun z => (y.k, z.e)))
  let lane : AccLane :=
    { lane := 8 * x.1, addr := x.2.2, data := s.joinDst c x.2.1, data2 := 0, st := .queued, val := 0, bad := false }
  { key := (x.1, x.2.1), refs := []
    acc := { (default : Acc) with
      op := opJoin, ty := .n64, scope := .dev, ord := .acq, slices := maskOf (mine.map (·.1)), owner := mine, lanes := [lane] } }

/-- What names the new place of a gang that is restored. -/
structure NewPlace where
  ctx : Nat
  group : Nat
  core : Nat
  /-- The identity of the gang's first access. -/
  id : Nat

/-- The wait of a lane set (R380). -/
def SetImage.wait (y : SetImage) (w : NewPlace) (k : Nat) (l : List AccImage) : Wait :=
  match y.st with
  | 1 => .regang
  | 2 => .waitf (y.arg % 2 ^ 16) (y.arg.testBit 16)
  | 3 =>
    let n := fld y.arg 4 4
    let b := match y.arg % 4 with
      | 0 => BarRef.grp w.group n
      | 1 => .clu w.ctx (clusterOf w.core) n
      | _ => .dev w.ctx n
    .barrier b (y.arg % 4) n (w.id + l.length)
  | 4 =>
    let hit := (l.zipIdx).find? (fun a => a.1.acc.parks && a.1.acc.owner.contains (k, y.e))
    .future y.arg (hit.map (fun a => w.id + a.2)) ((hit.map (fun a => ((a.1.acc.lanes.headD default).data))).getD 0)
  | 5 => .hurdle y.arg
  | 6 => .pwr y.arg (y.pc * 8 + y.part)
  | 7 => .fork (y.pc * 8 + y.part)
  | _ => .run

/-- A lane set, stopped at cycle 0 with its REMAIN (R378). R380 saves no creation cycle (R34): the set takes its table entry number
for one (log entry 54, DESIGN CHOICE), and no set is marked as standing at the target of an indirect transfer (log entry 73, DESIGN
CHOICE). -/
def State.loadSet (s : State) (w : NewPlace) (k : Nat) (l : List AccImage) (y : SetImage) : Nat × LaneSet :=
  let st := y.wait w k l
  let behind := 3 ≤ y.st && y.st ≤ 7
  (y.e, { pc := if behind then (s.prevHead w.ctx y.pc).getD 0 else y.pc, nxt := y.pc, mask := y.mask, loops := y.loops, ready := y.remain
          st := st, inh := y.inh, edge := false, jumped := false, created := y.e, idle := 0 })

/-- Entry `i` of a slice's LDQ (R174, R380). -/
def State.loadLdq (s : State) (x : SliceImage) (w : NewPlace) (l : List AccImage) (i : Nat) : LdqEntry :=
  let vals := (List.range 8).map (fun j => s.rdN (x.at_ + 0x600 + 32 * i + 4 * j) 4)
  let hit := (l.zipIdx).findSome? (fun a => match a.1.refs.find? (fun r => r.1 = x.k) with
    | none => none
    | some r => (r.2.findIdx? (· = i)).map (fun n => (a.1.acc, a.2, n)))
  let cap := x.frame.valid && i < x.frame.capLdq
  match hit with
  | none => { acc := 0, cyc := 0, second := false, vals := vals, need := 0, cap := cap, strm := false, inh := x.frame.valid && !cap, bad := 0 }
  | some (a, p, n) =>
    { acc := w.id + p, cyc := 0, second := n = 1, vals := vals
      need := maskOf ((a.lanes.filter (fun y => y.lane / 8 = x.k)).map (fun y => y.lane % 8))
      cap := cap, strm := a.strm, inh := a.inh || (x.frame.valid && !cap), bad := 0 }

/-- The entry that stands in the slice's part: the current one, or, where the save found none current (R34), the first of its table,
which the area does not tell apart from the slice's other blocked ones (log entry 18, DEDUCED). -/
def SliceImage.stands (x : SliceImage) : Option Nat :=
  if x.head.testBit 17 then x.sets.head?.map (fun y => y.e) else some (fld x.head 18 3)

/-- The stream of a slice (R196, R380). Slices of one part stream together. Of the stream elements in the LAQ the last ones, as many as
it has placed, are its own; what has arrived carries no mark of a stream (log entry 69, DEDUCED). -/
def State.loadStrm (s : State) (w : NewPlace) (l : List AccImage) (x : SliceImage) : Option Strm :=
  let d := s.dws (x.at_ + 0xA00) 8
  let p := s.rdN (x.at_ + 0xA48) 8
  let part := ((x.sets.find? (fun y => x.stands = some y.e)).map (fun y => y.part)).getD x.k
  if !(p.testBit 8) then none
  else
    let next := s.rdN (x.at_ + 0xA40) 8
    let mine := (l.zipIdx.filter (fun a => a.1.acc.strm && a.1.acc.slices.testBit x.k)).map (·.2)
    some { desc := d, ty := tyOf (fld p 12 4), next := next, lanes := p % 256, lock := 1000 + part
           first := w.id + (mine.drop (mine.length - next)).headD l.length
           total := (List.range (sdDepth d)).foldl (fun n k => n * sdCount d k) 1 }

/-- A slice. -/
def State.loadSlice (s : State) (w : NewPlace) (l : List AccImage) (x : SliceImage) : Slice :=
  { flags := ⟨fld x.head 32 16, 0, 0, 0⟩, sets := x.sets.map (s.loadSet w x.k l)
    cur := x.stands, out := 0
    ldq := (List.range (fld x.head 0 6)).map (s.loadLdq x w l), strm := s.loadStrm w l x, frame := x.frame }

/-- The latches, predicates and random state of a slice's lanes. -/
def State.loadLanes (s : State) (g : Gang) (x : SliceImage) : Gang :=
  (List.range 8).foldl (fun g j =>
    let i := 8 * x.k + j
    let wd := fun (o n : Nat) => BitVec.ofNat 32 (s.rdN (x.at_ + o) n)
    let p := s.rdN (x.at_ + 0x5C0 + 4 * j) 4
    { g with
      l0 := smSet 0 g.l0 i (wd (0x540 + 8 * j) 4), l1 := smSet 0 g.l1 i (wd (0x544 + 8 * j) 4)
      c0 := smSet 0 g.c0 i (wd (0x580 + 8 * j) 4), c1 := smSet 0 g.c1 i (wd (0x584 + 8 * j) 4)
      g := smSet 0 g.g i (wd (0x5E0 + 4 * j) 4)
      p := (List.range 31).foldl (fun m n => smSet false m (i * 32 + n) (p.testBit n)) g.p }) g

/-- The parts of a restored gang: slices whose current lane sets name one part, stopped at cycle 0. -/
def loadParts (sl : List SliceImage) : List Part :=
  let cur := sl.filterMap (fun x => (x.sets.find? (fun y => x.stands = some y.e)).map (fun y => (x.k, y.part)))
  ((cur.map (·.2)).eraseDups).map (fun p =>
    { newPart (maskOf ((cur.filter (fun x => x.2 = p)).map (·.1))) with stop := some 0 })

/-- A gang block (R379), as the gang stopped; `base` holds what the block does not. Its registers stand in the pool image. -/
def State.loadGang (s : State) (w : NewPlace) (a : Nat) (base : Gang) : Gang × Nat :=
  let d := s.dws a 16
  let h := dw d 0
  let width := fld h 24 4
  let sl := (List.range width).map (s.sliceImage a)
  let l := gangAccs sl
  let l := l ++ (joinKeys sl l).map (s.joinAcc w.ctx sl)
  let g : Gang := { base with
    ctx := w.ctx, group := w.group, core := w.core, width := width, idx := fld h 12 4, task := h.testBit 11, live := true, waiting := false
    cls := fld h 5 3, chk := h.testBit 10, curcls := fld h 0 3, inReg := h.testBit 8, raised := false
    v := [], badV := [], p := [], l0 := [], l1 := [], c0 := [], c1 := [], latchAt := [], g := []
    s := (List.range 64).foldl (fun m n => smSet 0 m n (BitVec.ofNat 64 (s.rdN (a + 0x100 + 8 * n) 8))) []
    k := (List.range 8).foldl (fun m n => smSet 0 m n (BitVec.ofNat 64 (dw d (8 + n)))) []
    dmr := BitVec.ofNat 64 (dw d 1), pendBits := dw d 2 % 16, pendCount := fld (dw d 2) 16 16, fstat := dw d 3, fstatSet := (0, 0)
    leaseEnd := none, leaseCut := none, tainted := false, leaseLeft := fld (dw d 4) 32 16, window := [], openBatch := [], batches := [], flight := []
    accs := l.mapIdx (fun i x => (w.id + i, { x.acc with hold := (s.ctx w.ctx).bound })), trigUpTo := w.id + l.length, stopped := some 0, acq := s.serial
    al := if h.testBit 9 then some (fld (dw d 4) 8 8, fld (dw d 4) 0 4) else none
    slices := sl.map (s.loadSlice w l), parts := loadParts sl }
  (sl.foldl s.loadLanes g, l.length)

/-- The registers of a gang from its granules at `a`. -/
def State.loadRegs (s : State) (a w vregs : Nat) : List (Nat × Word) :=
  (List.range (8 * w)).foldl (fun m i => (List.range vregs).foldl (fun m r =>
    smSet 0 m (i * 256 + r) (BitVec.ofNat 32 (s.rdN (a + 4 * (r * (8 * w) + i)) 4))) m) []

/-- A group record as the area holds it (R284, R381). -/
structure GroupImage where
  /-- Its place in the directory, and its address. -/
  n : Nat
  at_ : Nat
  core : Nat
  index : Nat
  q : Nat
  st : Nat
  seq : Nat
  khdr : Nat
  cls : Nat
  gangs : Nat

/-- Directory entry `n` of the area at `a`. -/
def State.groupImage (s : State) (a n : Nat) : GroupImage :=
  let d := s.dws (a + 0x310000 + 16 * n) 2
  let b := a + dw d 0
  let x := s.dws b 3
  { n := n, at_ := b, core := fld (dw d 1) 55 9, index := fld (dw d 1) 31 24, q := fld (dw d 1) 24 6, st := fld (dw d 1) 0 8
    seq := dw x 2 / 2 ^ 32, khdr := dw x 1, cls := fld (dw x 2) 29 3, gangs := fld (dw x 2) 24 5 }

/-- The groups of the area at `a`. -/
def State.groupImages (s : State) (a : Nat) : List GroupImage := (List.range (fld (s.rdN a 8) 16 16)).map (s.groupImage a)

/-- The address of gang block `i` of a group record. -/
def GroupImage.gangAt (x : GroupImage) (i : Nat) : Nat := x.at_ + 0x10000 * (1 + i)

/-- AGE, width, index and kind of gang block `i`. -/
def State.gangHead (s : State) (x : GroupImage) (i : Nat) : Nat × Nat × Nat × Bool :=
  let h := s.rdN (x.gangAt i) 8
  (h / 2 ^ 32, fld h 24 4, fld h 12 4, h.testBit 11)

/-- A bundle may go on at an address under a kernel (R112, R285). -/
def State.pcOk (s : State) (c : Nat) (h : Kernel) (pc : Nat) : Bool :=
  s.proofs.any (fun p => p.ctx = c && p.base ≤ pc && p.pages.contains (pc / 0x10000) && p.heads.contains (pc - p.base)
    && p.vregs ≤ h.vregs && p.ztiles ≤ h.ztiles && p.barriers ≤ h.barriers && (!p.pen || h.pen) && (p.feat &&& s.dev.feat) = p.feat)
    && (match s.walk c pc with
      | .leaf e _ _ => entX e
      | _ => false)

/-- Every saved PC and trap PC of a group's gangs (R285). -/
def State.savedPcs (s : State) (x : GroupImage) : List Nat :=
  (List.range x.gangs).flatMap (fun i =>
    (List.range (s.gangHead x i).2.1).flatMap (fun k =>
      let y := s.sliceImage (x.gangAt i) k
      y.sets.map (fun z => z.pc) ++ (if y.frame.valid then [y.frame.pc] else [])))

/-- Streams that a group's gangs register again: one entry for each part with a stream. -/
def State.savedStrms (s : State) (x : GroupImage) : Nat :=
  ((List.range x.gangs).map (fun i =>
    (((List.range (s.gangHead x i).2.1).filterMap (fun k => (s.loadStrm ⟨0, 0, 0, 0⟩ [] (s.sliceImage (x.gangAt i) k)).map (fun t => t.lock))).eraseDups).length)).sum

/-- The target cluster of a saved one (R286). -/
def State.mapCluster (s : State) (p : Stop) (k : Nat) : Nat := if p.map = 0 then k else s.rdN (p.map + k) 1

/-- The target core of a saved one (R286). -/
def State.mapCore (s : State) (p : Stop) (core : Nat) : Nat := 8 * s.mapCluster p (core / 8) + core % 8

/-- The first of the header, map and feature checks that fails (R285, 1 to 3): status, DETAIL (log entry 94, DESIGN CHOICE). -/
def State.areaBad (s : State) (p : Stop) : Option (Nat × Nat) :=
  let d := s.dws p.area 5
  let used := (List.range 48).filter (fun k => (dw d 1).testBit k)
  let to_ := s.mapCluster p
  let feats := dw d 3 + dw d 4 * 2 ^ 64
  if dw d 0 % 256 ≠ 1 then some (4, 0)
  else if fld (dw d 0) 8 8 ≠ 1 then some (4, 1)
  else if p.arealen < dw d 0 / 2 ^ 32 then some (4, 4)
  else if p.free && dw d 1 / 2 ^ 48 ≠ s.dev.pkgid then some (4, 8)
  else
    match used.find? (fun k => 48 ≤ to_ k || used.any (fun j => j < k && to_ j = to_ k)) with
    | some k => some (5, k)
    | none => ((List.range 128).find? (fun b => feats.testBit b && !(s.dev.feat.testBit b))).map (fun b => (7, b))

/-- The headers that a restore reads: of each kernel of the area. -/
def State.readKernels (s : State) (c : Nat) (l : List GroupImage) : Option (List (Nat × Option (List Nat))) × State :=
  ((l.map (fun x => x.khdr)).eraseDups).foldl (fun (acc : Option (List (Nat × Option (List Nat))) × State) kh =>
    match acc.1 with
    | none => acc
    | some r =>
      match acc.2.hubRead c kh 256 (.header c 64 kh) with
      | (.wait, s) => (none, s)
      | (.got bs, s) => (some (r ++ [(kh, some (dwordsOf 32 bs))]), s)
      | (_, s) => (some (r ++ [(kh, none)]), s)) (some [], s)

/-- What the hub kept of the saved context (log entry 8, DESIGN CHOICE). -/
def State.keptFor (s : State) (p : Stop) : Option Kept :=
  s.kept.find? (fun k => k.timens = s.rdN (p.area + 16) 8 && k.root = s.rdN (p.area + 0x100) 8 && s.rdN (p.area + 8) 8 / 2 ^ 48 = s.dev.pkgid)

/-- A launch that had started, from what the hub kept, or with free values where neither it nor the area holds them. -/
def State.loadStarted (s : State) (c : Nat) (kept : Option Kept) (hs : List (Nat × Option (List Nat))) (l : List GroupImage)
    (q n : Nat) : Launch :=
  let mine := l.filter (fun x => x.q = q && x.seq = n)
  let pend := sortKey id ((mine.filter (fun x => x.st = 0)).map (fun x => x.index))
  let top := mine.foldl (fun m x => max m (x.index + 1)) 0
  match kept.bind (fun k => (smFind k.ctx.queues q).bind (fun y => smFind y.launches n)) with
  | some y => { y with back := pend, nextPlace := pend.foldl (fun m i => max m (i + 1)) y.nextPlace }
  | none =>
    let kh := (mine.head?.map (fun x => x.khdr)).getD 0
    let lost := Config.lostDword s.serial
    let d := ((hs.find? (fun h => h.1 = kh)).bind (·.2)).getD []
    let pkt := [1 + top % 2 ^ 24 * 2 ^ 16, kh] ++ (List.range 14).map (fun i => lost (64 * n + i))
    { Launch.held pkt with
      st := 1, hdr := s.trimHeader c (parseHeader d), nextPlace := top, back := pend, retired := lost (64 * n + 16), killed := lost (64 * n + 17)
      tstart := lost (64 * n + 18) }

/-- Held launches of a queue that had not started: those the hub kept, or the last HELD ones. -/
def heldSeqs (kept : Option Kept) (q last held : Nat) (started : List Nat) : List Nat :=
  match kept.bind (fun k => smFind k.ctx.queues q) with
  | some x => (x.launches.filter (fun l => l.2.st = 0)).map (·.1)
  | none =>
    (((List.range 64).map (fun i => (last + 2 ^ 32 - 1 - i) % (2 ^ 32 - 1))).map (fun n => if n = 0 then 2 ^ 32 - 1 else n)).filter
      (fun n => !(started.contains n)) |>.take (held - started.length)

/-- Read the packets of a queue's held launches from its QBUF slots (R290). -/
def State.readHeld (s : State) (c qbuf : Nat) (l : List Nat) : Option (List (Nat × Launch)) × State :=
  l.foldl (fun (acc : Option (List (Nat × Launch)) × State) n =>
    match acc.1 with
    | none => acc
    | some r =>
      match acc.2.hubRead c (wrap64 ((qbuf : Int) + 128 * (n % 64 : Nat))) 128 (.header c 65 n) with
      | (.wait, s) => (none, s)
      | (.got bs, s) => (some (smPut r n (Launch.held (dwordsOf 16 bs))), s)
      | (_, s) => (some (smPut r n (Launch.held ((List.range 16).map (fun i => Config.lostDword s.serial (64 * n + i))))), s)) (some [], s)

/-- The state of a queue by its code (R294). -/
def qstateOf : Nat → QState
  | 1 => .idle | 2 => .active | 3 => .draining | 4 => .halted | 5 => .faulted | _ => .disabled

/-- A queue from its record (R284, R290). What a FAULTED queue returns to is the hub's, or ACTIVE. -/
def State.loadQueue (s : State) (c : Nat) (p : Stop) (kept : Option Kept) (hs : List (Nat × Option (List Nat))) (l : List GroupImage)
    (q : Nat) : Option Queue × State :=
  let d := s.dws (p.area + 0x3000 + 128 * q) 8
  let started := ((l.filter (fun x => x.q = q)).map (fun x => x.seq)).eraseDups
  let old := (kept.bind (fun k => smFind k.ctx.queues q)).getD { Queue.reset with kept := .active }
  match s.readHeld c (dw d 3) (heldSeqs kept q (dw d 1 / 2 ^ 32) (fld (dw d 1) 8 8) started) with
  | (none, s) => (none, s)
  | (some held, s) =>
    let ls := started.foldl (fun m n => smPut m n (s.loadStarted c kept hs l q n)) held
    (some { st := qstateOf (fld (dw d 1) 0 3), kept := old.kept, last := dw d 1 / 2 ^ 32, done := dw d 5, cls := dw d 2 % 8, qbuf := dw d 3
            faultbase := dw d 4, drops := dw d 6 / 2 ^ 32, cmderr := fld (dw d 6) 8 8, pkterr := fld (dw d 6) 0 8, launches := ls, slots := []
            waiting := [], leaving := [], inbox := [], ended := old.ended }, s)

/-- Every queue of the area. -/
def State.loadQueues (s : State) (c : Nat) (p : Stop) (kept : Option Kept) (hs : List (Nat × Option (List Nat))) (l : List GroupImage) :
    Option (List (Nat × Queue)) × State :=
  (List.range 64).foldl (fun (acc : Option (List (Nat × Queue)) × State) q =>
    match acc.1 with
    | none => acc
    | some r =>
      match acc.2.loadQueue c p kept hs l q with
      | (none, s) => (none, s)
      | (some x, s) => (some (r ++ [(q, x)]), s)) (some [], s)

/-- The kernel of a group of the area. -/
def State.imageKernel (s : State) (c : Nat) (hs : List (Nat × Option (List Nat))) (x : GroupImage) : Option Kernel :=
  ((hs.find? (fun h => h.1 = x.khdr)).bind (·.2)).map (fun d => s.trimHeader c (parseHeader d))

/-- Granules that a group of the area holds (R285). -/
def State.imageGran (s : State) (h : Kernel) (x : GroupImage) : Nat :=
  let hs := (List.range x.gangs).map (s.gangHead x)
  let launch := if h.rollback then 2 * h.vgran + 2 * h.sgran else ((hs.filter (fun y => !y.2.2.2)).map (fun y => h.gangGran y.2.1)).sum + h.sgran
  launch + h.zgran + ((hs.filter (fun y => y.2.2.2)).map (fun y => h.gangGran y.2.1)).sum

/-- Seats for gangs of given widths, one after another (R28). -/
def seatsOf : List Nat → List (Nat × Nat × Nat) → Option (List (Nat × Nat))
  | [], _ => some []
  | w :: ws, occ =>
    match seatFor occ w with
    | none => none
    | some x => (seatsOf ws (occ ++ [(x.1, x.2, w)])).map (fun l => x :: l)

/-- The gang blocks of a group, oldest first (R379). -/
def State.byAge (s : State) (x : GroupImage) : List Nat := sortKey (fun i => (s.gangHead x i).1) (List.range x.gangs)

/-- A parked group's fault record (R381). -/
def State.loadFault (s : State) (a : Nat) : FaultRec :=
  let d := s.dws (a + 0x100) 6
  { seq := dw d 0 / 2 ^ 32, cause := fld (dw d 0) 8 8, group := dw d 1 / 2 ^ 40, core := fld (dw d 1) 31 9, gang := fld (dw d 1) 27 4
    pc := dw d 2, addr := dw d 3, detail := dw d 4, time := dw d 5 }

/-- Where the images of a group's pool begin: of each launch gang in turn, of the scratchpad, of the tiles, of the shadow
copies, and of the task gangs. -/
def State.poolAt (s : State) (h : Kernel) (x : GroupImage) : List (Nat × Nat) × Nat × Nat × Nat × List (Nat × Nat) :=
  let hs := (List.range x.gangs).map (s.gangHead x)
  let p0 := x.gangAt x.gangs
  let launch := if h.rollback then List.range h.gangs else sortKey id ((hs.filter (fun y => !y.2.2.2)).map (fun y => y.2.2.1))
  let size := 0x4000 * h.gangGran h.width
  let sp := p0 + size * launch.length
  let z := sp + 0x4000 * h.sgran
  let sh := z + 0x4000 * h.zgran
  let tasks := if h.rollback then sh + size * launch.length + 0x4000 * h.sgran else sh
  let tl := sortKey (fun y => y.1) ((hs.filter (fun y => y.2.2.2)).map (fun y => (y.2.2.1, y.2.1)))
  (launch.mapIdx (fun i n => (n, p0 + size * i)), sp, z, sh,
    (tl.foldl (fun (acc : List (Nat × Nat) × Nat) y => (acc.1 ++ [(y.1, acc.2)], acc.2 + 0x4000 * h.gangGran y.2)) ([], tasks)).1)

/-- The snapshot of a restored group (R320): its shadow copies in the area with the gang blocks that the hub kept, or the
restored state itself (log entry 8, DESIGN CHOICE). -/
def State.loadSnap (s : State) (h : Kernel) (x : GroupImage) (old : Option Snapshot) (us : List (Nat × Nat)) (gs : List (Nat × Gang))
    (spad : List (Nat × Byte)) (futs : List Nat) : Option Snapshot :=
  if !h.rollback then none
  else
    match old with
    | none => some ⟨spad, futs, gs.filter (fun g => !g.2.task), []⟩
    | some n =>
      let (launch, _, _, sh, _) := s.poolAt h x
      let size := 0x4000 * h.gangGran h.width
      let back := n.gangs.filterMap (fun e => (us.find? (fun u => u.1 = e.2.idx)).map (fun u =>
        let place := ((gs.find? (fun g => g.1 = u.2)).map (·.2)).getD e.2
        (u.2, { e.2 with ctx := place.ctx, group := place.group, core := place.core, quarter := place.quarter, base := place.base,
                         v := s.loadRegs (sh + size * ((launch.findIdx? (fun y => y.1 = e.2.idx)).getD 0)) e.2.width h.vregs })))
      let moved := fun (u : Nat) => (smFind n.gangs u).bind (fun g => (us.find? (fun y => y.1 = g.idx)).map (·.2))
      some ⟨copyCells s.mem [] (sh + size * launch.length) 0 h.spad, n.futs, back,
        n.cmds.filterMap (fun f => (moved f.1).map (fun u => (u, f.2)))⟩

/-- Place one group of the area on its target core, in the new order of ages (R285, R286); none: the core cannot hold it.
`ages` gives each AGE its new placement number. -/
def State.loadGroup (s : State) (c : Nat) (p : Stop) (kept : Option Kept) (h : Kernel) (ages : List (Nat × Nat)) (x : GroupImage) : Option State :=
  let core := s.mapCore p x.core
  let order := s.byAge x
  let hd := s.gangHead x
  match seatsOf (order.map (fun i => (hd i).2.1)) (s.slotsOn core) with
  | none => none
  | some seats =>
    if 128 < s.usedGran core + s.imageGran h x || 64 ≤ (s.groups.filter (fun e => e.2.onCore core)).length || !(s.ctxFits core c) then none
    else
      let (gid, s) := s.fresh
      let old := kept.bind (fun k => (k.groups.find? (fun e => e.2.q = x.q && e.2.seq = x.seq && e.2.index = x.index)).map (·.2))
      let (launch, sp, z, _, tasks) := s.poolAt h x
      let number := fun (i : Nat) => ((ages.find? (fun a => a.1 = (hd i).1)).map (·.2)).getD 0
      let step := fun (acc : State × List (Nat × Gang)) (e : Nat × (Nat × Nat)) =>
        let (s, gs) := acc
        let i := e.1
        let base := (kept.bind (fun k => (k.gangs.find? (fun g => g.1 % 2 ^ 32 = (hd i).1 && g.2.idx = (hd i).2.2.1)).map (·.2))).getD
          { (default : Gang) with trig := (Config.lostDword s.serial (x.at_ + i)).testBit 0 }
        let (g, n) := s.loadGang ⟨c, gid, core, s.nextId⟩ (x.gangAt i) base
        let place := if g.task then tasks else launch
        let at_ := ((place.find? (fun y => y.1 = g.idx)).map (·.2)).getD 0
        let g : Gang := { g with
          quarter := e.2.1, base := e.2.2, v := s.loadRegs at_ g.width h.vregs, deque := if g.task then some (core, c) else none }
        (({ s with nextId := s.nextId + n } : State), gs ++ [(number i, g)])
      let (s, gs) := (order.zip seats).foldl step (s, [])
      -- launch gangs that have exited count as triggered (R246)
      let gone := (List.range h.gangs).filter (fun i => !(gs.any (fun g => !g.2.task && g.2.idx = i)))
      let (s, dead) := gone.foldl (fun (acc : State × List (Nat × Gang)) i =>
        let (u, s) := acc.1.fresh
        (s, acc.2 ++ [(u, { (default : Gang) with ctx := c, group := gid, core := core, width := h.width, idx := i, trig := true })])) (s, [])
      let all := gs ++ dead
      let us := ((all.filter (fun g => !g.2.task)).map (fun g => (g.2.idx, g.1)))
      let lg := (List.range h.gangs).map (fun i => ((us.find? (fun u => u.1 = i)).map (·.2)).getD 0)
      let d := s.dws x.at_ 24
      let spad := copyCells s.mem [] sp 0 h.spad
      let futs := (List.range 0x8000).flatMap (fun i => (bitsOf 8 (s.rdN (x.at_ + 0x1000 + i) 1)).map (fun b => 8 * i + b))
      let st : GState := if x.st = 3 then .parked else if x.st = 4 then .draining else .resident
      let grp : Group :=
        { (old.getD { (default : Group) with lap := Config.lostDword s.serial x.at_ }) with
          ctx := c, q := x.q, seq := x.seq, index := x.index, core := core, st := st
          from_ := if gs.any (fun g => !g.2.task) then .resident else .draining
          cls := x.cls, gangs := all.map (·.1), launchGangs := lg, spad := spad, badSpad := [], badZ := [], futs := futs
          z := (List.range (4096 * h.ztiles)).foldl (fun m i => smSet 0 m i (BitVec.ofNat 32 (s.rdN (z + 4 * i) 4))) []
          depth := (List.range 16).foldl (fun m t => smSet 0 m t (fld (dw d (4 + t / 4)) (16 * (t % 4)) 16)) []
          bars := (List.range 16).map (fun n => (n, ({ phase := fld (dw d (8 + n)) 32 16, release := none
                                                       arrived := (bitsOf 16 (fld (dw d (8 + n)) 0 16)).map (fun i => lg.getD i 0) } : Bar)))
          fault := if x.st = 3 then some (s.loadFault x.at_) else none
          snap := s.loadSnap h x (old.bind (fun o => o.snap)) us gs spad futs, snapDue := none
          commit := (dw d 3).testBit 0, ueCount := fld (dw d 3) 1 3 }
      some { s with groups := smPut s.groups gid grp, gangs := all.foldl (fun m g => smPut m g.1 g.2) s.gangs }

/-- A parked group takes the slot whose record is its own, or its record waits (R289, R298). -/
def State.loadSlot (c : Nat) (s : State) (g : Nat) : State :=
  let x := s.group g
  match x.fault with
  | none => s
  | some f =>
    let base := (s.queue c x.q).faultbase
    let hit := (List.range 16).find? (fun k => match s.place c (base + 64 * k) .read with
      | .hbm pa => s.rd pa 64 = faultBytes f
      | _ => false)
    s.modQueue c x.q (fun q => match hit with
      | some k => { q with slots := smPut q.slots k g }
      | none => { q with waiting := q.waiting ++ [g] })

/-- The name of the FORK at whose watermark a lane set is blocked. -/
def LaneSet.forkId (y : LaneSet) : Option Nat :=
  match y.st with
  | .fork id => some id
  | _ => none

/-- The record that a blocked FORK kept across a save holds: that of lane set `e` of slice `k` of the gang whose AGE was `old`. -/
def Kept.forkBits (x : Kept) (old core k e : Nat) : Option Nat :=
  let gang := x.gangs.find? (fun g => g.1 % 2 ^ 32 = old)
  let id := gang.bind (fun g => (smFind (g.2.slice k).sets e).bind LaneSet.forkId)
  (x.deques.find? (fun d => d.1 = core)).bind (fun d =>
    (d.2.blocked.find? (fun b => some b.1 = gang.map (·.1) && some b.2.1 = id)).map (fun b => b.2.2))

/-- The record that the FORK before `pc` forms from its bundle and the gang's registers (R249). -/
def State.reformFork (s : State) (u pc : Nat) : Nat :=
  let g := s.gang u
  ((s.prevInstrs g.ctx pc).findSome? (fun i => match i with
    | .fork _ sa sf w off =>
      let h := s.kernelOf u
      let at_ := (s.prevHead g.ctx pc).getD 0
      let a := fun (n : Nat) => g.sReg ((sa.val + n) % 64)
      some (taskRecord ((wrap64 ((at_ : Int) + 4 * off.toInt) - h.codebase) / 4) w (g.sReg sf) (a 0) (a 1) (a 2) (a 3))
    | _ => none)).getD 0

/-- The FORKs at which lane sets of a gang are blocked, each by its name with a lane set that it blocks: slice, entry and the bundle
after it. -/
def Gang.forks (g : Gang) : List (Nat × Nat × Nat × Nat) :=
  let all := (List.range g.slices.length).flatMap (fun k =>
    (g.slice k).sets.filterMap (fun e => e.2.forkId.map (fun id => (id, k, e.1, e.2.nxt))))
  all.foldl (fun l x => if l.any (fun y => y.1 = x.1) then l else l ++ [x]) []

/-- Blocked FORKs are retried: the record is the one kept, or is formed again from the bundle (R378) (log entry 25, DEDUCED). -/
def State.refork (s : State) (u : Nat) (kept : Option Kept) (old core : Nat) : State :=
  let g := s.gang u
  g.forks.foldl (fun s f =>
    let bits := ((kept.bind (fun x => x.forkBits old core f.2.1 f.2.2.1)).getD (s.reformFork u f.2.2.2))
    (s.modDeque g.core g.ctx (fun d => { d with blocked := d.blocked ++ [(u, f.1, bits)] })).raise g.core g.ctx true) s

/-- A resumed PWRACQ asks again: one that raises nothing is granted in the cycle in which it arrives (R378, R387). -/
def State.resumeClass (s : State) (u k id : Nat) : State :=
  if (s.pwrFits u k).1 then s.grantClass ⟨u, k, id, s.time⟩ else s.askClass u k id

/-- A stopped gang goes on (R378): its lane sets are ready after REMAIN, its waits are presented again, and a lease that it
held is asked for again. -/
def State.resumeGang (s : State) (u : Nat) : State :=
  let g := s.gang u
  let t := s.cyc g.core
  let parked := (s.group g.group).st = .parked
  let s := s.modGang u (fun g => { g with
    slices := g.slices.mapIdx (fun k x =>
      let (_, t0) := g.stopOf k
      { x with sets := x.sets.map (fun e => (e.1, { e.2 with
          ready := t + (e.2.ready - t0), st := (match e.2.st with
            | .mark _ => .run
            | st => st), idle := 0 })) })
    parts := g.parts.map (fun p => { p with stop := none, aging := 0, promoted := none, yielded := false, idle := 0 })
    stopped := if parked then some t else none
    accs := g.accs.map (fun e => (e.1, { e.2 with lanes := e.2.lanes.map (fun l =>
      if parked && l.st = .replay then { l with st := .stuck }
      else if l.st = .replay || l.st.asleep then { l with st := .queued } else l) })) })
  let asks := (g.slices.flatMap (fun x => x.sets.filterMap (fun e => match e.2.st with
    | .pwr c id => some (c, id)
    | _ => none))).eraseDups
  let s := asks.foldl (fun s a =>
    let (id, s) := s.fresh
    (s.modGang u (fun g => { g with slices := g.slices.map (fun x => x.modSets (fun y =>
      if y.st = .pwr a.1 a.2 then { y with st := .pwr a.1 id } else y)) })).resumeClass u a.1 id) s
  let s := if g.leaseLeft = 0 then s else
    let (id, s) := s.fresh
    (s.modGang u (fun g => { g with parts := g.parts.map (fun p => { p with holds := p.holds ++ [.lease id] }) })).askLease u g.leaseLeft id
  (s.recapture u).relock u

end Sys2Proof.Machine
end

