-- ==== Sys2Proof/Machine/Context.lean ====
section
/-! DEFINITION. The context command window and the ends of stops, saves and restores (R274 to R279, R284 to R289, R399). -/

namespace Sys2Proof.Machine

/-- Byte offset of the first bad field of a context command (R274, R275), by the byte that holds the field's lowest bit. A reserved field is
ignored (R7). -/
def ctxBad (d : List Nat) : Option Nat :=
  let op := dw d 0 % 256
  let bad : List (Bool × Nat) := [
    (op = 0 || 7 ≤ op, 0),
    ((op = 1 || op = 2) && (dw d 1 % 16 ≠ 0 || Config.hbmBytes < dw d 1 + 16), 8),
    ((op = 3 || op = 4) && (dw d 2 % 0x10000 ≠ 0 || Config.hbmBytes ≤ dw d 2), 16),
    (op = 4 && dw d 4 ≠ 0 && Config.hbmBytes < dw d 4 + 48, 32), (dw d 5 % 16 ≠ 0, 40)]
  (bad.find? (·.1)).map (·.2)

/-- ROOT of a descriptor (R276). -/
def descRoot (d : List Nat) : Nat := fld (dw d 0) 12 40 * 4096
/-- VF of a descriptor. -/
def descVf (d : List Nat) : Nat := fld (dw d 1) 0 8

/-- Byte offset of the first bad field of a descriptor (R276). Set ignores ROOT and VF; a reserved field is ignored (R7). -/
def descBad (create : Bool) (d : List Nat) : Option Nat :=
  let w := fld (dw d 1) 24 5
  let bad : List (Bool × Nat) := [
    (create && Config.hbmBytes < descRoot d + 4096, 1), (create && 63 < descVf d, 8), (1 ≤ w && w ≤ 15, 11)]
  (bad.find? (·.1)).map (·.2)

/-- What a descriptor sets while the context runs (R277). -/
def Ctx.tune (x : Ctx) (d : List Nat) : Ctx :=
  { x with
    holdus := fld (dw d 1) 32 16, wdlog := fld (dw d 1) 24 5, killexp := (dw d 1).testBit 9, check := (dw d 1).testBit 8 }

/-- A context with a descriptor's fields (R276, R279). -/
def Ctx.ofDesc (x : Ctx) (d : List Nat) : Ctx := { x.tune d with root := descRoot d, vf := descVf d }

/-- The code of a context state (R278). -/
def cstateCode : CState → Nat
  | .free => 0 | .live => 1 | .stopping => 2 | .saving => 3 | .restoring => 4

/-- The function may not name the context (R274): a virtual one names only its own. -/
def ctxForeign (fn vf : Nat) : Bool := fn ≠ 0 && vf ≠ fn

/-- A context command (R274, R275) with operation `op`: what ends every command, then what it does. Another number of bytes is
dropped. -/
def State.ctxCmd (s : State) (op fn : Nat) (cmd : List Dword) (act : List Nat → Nat → Nat → State → State) : State :=
  let d := cmd.map (·.toNat)
  let k := dw d 0 % 256
  let c := fld (dw d 0) 16 6
  let rec_ := dw d 5
  let x := s.ctx c
  if cmd.length ≠ 8 || s.writeStage = none || !(k = op || (op = 1 && (k = 0 || 7 ≤ k))) then s
  else if s.writeStage = some 0 then s.status rec_ 1 0 0
  else if x.st ≠ .free && ctxForeign fn x.vf then s.status rec_ 11 0 0
  else
    match ctxBad d with
    | some off => s.status rec_ 2 off 0
    | none => act d c rec_ s

/-- The command is not one for the context's state (R279). -/
def State.wrongState (s : State) (c rec_ : Nat) : State := s.status rec_ 1 (cstateCode (s.ctx c).st) 0

/-- CTX_CREATE (R276, R279), and a store whose operation is none of R274's. -/
def execCtxCreate (fn : Nat) (cmd : List Dword) (s : State) : Host.Outcome State Fault Refusal :=
  .next (s.ctxCmd 1 fn cmd (fun d c rec_ s =>
    let desc := s.dws (dw d 1) 2
    if (s.ctx c).st ≠ .free then s.wrongState c rec_
    else
      match descBad true desc with
      | some off => s.status rec_ 2 (64 + off) 0
      | none =>
        if ctxForeign fn (descVf desc) then s.status rec_ 11 0 0
        else
          let x : Ctx := { (default : Ctx).ofDesc desc with st := .live }
          ({ s with ctxs := smPut s.ctxs c x } : State).status rec_ 0 0 0))

/-- CTX_SET (R277, R279). -/
def execCtxSet (fn : Nat) (cmd : List Dword) (s : State) : Host.Outcome State Fault Refusal :=
  .next (s.ctxCmd 2 fn cmd (fun d c rec_ s =>
    let desc := s.dws (dw d 1) 2
    if (s.ctx c).st ≠ .live then s.wrongState c rec_
    else
      match descBad false desc with
      | some off => s.status rec_ 2 (64 + off) 0
      | none => (s.modCtx c (fun x => x.tune desc)).status rec_ 0 0 0))

/-- A placed group is pending again (R311): its gangs and its clear go. -/
def State.revertGroup (s : State) (g : Nat) : State :=
  let x := s.group g
  let t := s.cyc x.core
  let s : State := { s with groups := smDel s.groups g, gangs := s.gangs.filter (fun e => e.2.group ≠ g) }
  let s := s.modCore x.core (fun k => k.dropClears [g] t)
  s.modLaunch x.ctx x.q x.seq (fun l => { l with back := insertKey id x.index l.back })

/-- The placed groups of a context are pending again. -/
def State.revertPlaced (s : State) (c : Nat) : State :=
  ((s.groups.filter (fun e => e.2.ctx = c && e.2.st = .placed)).map (·.1)).foldl State.revertGroup s

/-- Bytes of local HBM that an area may take (log entry 50, DEDUCED). -/
def areaRoom (d : List Nat) : Nat := min (dw d 3) (Config.hbmBytes - dw d 2)

/-- Bytes that a save may need (R279, R284): a task gang that waits for its granules may start before the context has stopped, and a
rollback may bring back a gang of the last snapshot that has exited (log entry 83, DEDUCED). -/
def State.saveNeed (s : State) (c : Nat) : Nat :=
  let back := fun (u g : Nat) => (s.group g).snap.any (fun n => n.gangs.any (fun e => e.1 = u))
  (({ s with gangs := s.gangs.map (fun e => (e.1, { e.2 with live := e.2.live || e.2.waiting || back e.1 e.2.group })) } : State).saveArea c).2

/-- CTX_SAVE (R279, R284, R377): the context stops. -/
def execCtxSave (fn : Nat) (cmd : List Dword) (s : State) : Host.Outcome State Fault Refusal :=
  .next (s.ctxCmd 3 fn cmd (fun d c rec_ s =>
    if (s.ctx c).st ≠ .live then s.wrongState c rec_
    else
      let s' := s.revertPlaced c
      let need := s'.saveNeed c
      if areaRoom d < need then s.status rec_ 3 0 need
      else s'.modCtx c (fun x => { x with st := .stopping, stop := some ⟨false, dw d 2, areaRoom d, 0, rec_, [], false⟩ })))

/-- A launch of a killed context (R294): held ones end with status 2, and started ones end once their groups have retired. -/
def State.killLaunch (s : State) (c q n : Nat) : State :=
  let l := s.launch c q n
  if l.st = 0 then s.ending c q n 2 0
  else if l.st = 3 then s
  else
    let any_ := l.back.length < l.nextPlace
    let s := s.modLaunch c q n (fun l => { l with nextPlace := max l.nextPlace (pktGroups l.pkt), back := [] })
    if (s.groupsOfLaunch c q n).isEmpty then s.ending c q n (if any_ then 1 else 2) 0 else s

/-- A group of a killed context: one that only waits to retire is not killed, but what waits on a fault does not hold it up (R289)
(log entry 50, DEDUCED). -/
def State.killResident (s : State) (g : Nat) : State :=
  if (s.group g).st = .draining && s.gangs.all (fun e => e.2.group ≠ g || !(e.2.live || e.2.waiting)) then
    (s.dropWaits ((s.gangs.filter (fun e => e.2.group = g)).map (·.1))).failCmds g
  else s.killGroup g 0

/-- A kill acts on a LIVE context, or on one that stops for a save (R279, R289, R294). -/
def State.killCtx (s : State) (c rec_ : Nat) : State :=
  let s := s.modCtx c (fun x => { x with st := .stopping, stop := some ⟨true, 0, 0, 0, rec_, [], false⟩ })
  let s := (s.groupsOfCtx c).foldl State.killResident s
  let s := (s.ctx c).queues.foldl (fun s q => q.2.launches.foldl (fun s l => s.killLaunch c q.1 l.1) s) s
  s.modCtx c (fun x => { x with queues := x.queues.map (fun q => (q.1, { q.2 with st := .disabled, slots := [], waiting := [], leaving := [] })) })

/-- CTX_KILL (R279, R289): a save that has not reached SAVING is superseded; a kill during SAVING waits. -/
def execCtxKill (fn : Nat) (cmd : List Dword) (s : State) : Host.Outcome State Fault Refusal :=
  .next (s.ctxCmd 5 fn cmd (fun _ c rec_ s =>
    let x := s.ctx c
    match x.st, x.stop with
    | .live, _ => s.killCtx c rec_
    | .stopping, some p => if p.kill then s.wrongState c rec_ else (s.status p.statrec 10 0 0).killCtx c rec_
    | .saving, some p => s.modCtx c (fun x => { x with stop := some { p with kills := p.kills ++ [rec_] } })
    | _, _ => s.wrongState c rec_))

/-- Units of local HBM that the pages of a context map, with what the pacer allocated (R341). -/
def State.unitsOf (s : State) (c : Nat) : List (Nat × Bool) :=
  (s.ctx c).pages.filterMap (fun p => match s.pageEntry c p.1 with
    | some e => if entKind e = 0 then some (entAddr e / 0x10000, p.2.owned) else none
    | none => none)

/-- A context number is FREE (R279): everything tagged with it goes. -/
def State.dropContext (s : State) (c : Nat) : State :=
  let s := (s.moves.filter (fun m => m.ctx = c && m.began)).foldl State.abandonMove s
  let gs := (s.groups.filter (fun e => e.2.ctx = c)).map (·.1)
  let s : State := { s with
    moves := s.moves.filter (fun m => m.ctx ≠ c)
    groups := s.groups.filter (fun e => e.2.ctx ≠ c)
    gangs := s.gangs.filter (fun e => e.2.ctx ≠ c)
    ctxs := smDel s.ctxs c
    proofs := s.proofs.filter (fun p => p.ctx ≠ c)
    pageReqs := s.pageReqs.filter (fun p => p.1 ≠ c)
    asks := s.asks.filter (fun a => a.2.1 ≠ c)
    fwait := s.fwait.filter (fun w => w.ctx ≠ c)
    cores := s.cores.map (fun k => (k.1, { k.2.dropClears gs (s.cyc k.1) with
      deques := k.2.deques.filter (fun d => d.ctx ≠ c)
      waiters := k.2.waiters.filter (fun w => w.ctx ≠ c)
      mmacs := k.2.mmacs.filter (fun e => e.1 / 32 ≠ c) })) }
  s.dropCtx c

/-- CTX_DESTROY (R279): a context without groups goes, and so do pages that the pacer allocated for it. -/
def execCtxDestroy (fn : Nat) (cmd : List Dword) (s : State) : Host.Outcome State Fault Refusal :=
  .next (s.ctxCmd 6 fn cmd (fun _ c rec_ s =>
    let n := (s.groupsOfCtx c).length
    if (s.ctx c).st ≠ .live then s.wrongState c rec_
    else if n ≠ 0 then s.status rec_ 12 n 0
    else
      let own := ((s.unitsOf c).filter (·.2)).map (·.1)
      (({ s with alloc := s.alloc.filter (fun u => !(own.contains u)) } : State).dropContext c).status rec_ 0 0 0))

/-- CTX_STOP_COMPLETE (R279, R288, R377): for a save the area may be written; for a kill the context is gone. -/
def execCtxStopComplete (ctx : Nat) (s : State) : Host.Outcome State Fault Refusal :=
  let x := s.ctx ctx
  match x.st, x.stop with
  | .stopping, some p =>
    if p.kill then
      if (s.groupsOfCtx ctx).isEmpty && x.queues.all (fun q => q.2.launches.isEmpty) then
        let own := ((s.unitsOf ctx).filter (·.2)).map (·.1)
        .next ((({ s with alloc := s.alloc.filter (fun u => !(own.contains u)) } : State).dropContext ctx).status p.statrec 0 0 0)
      else .next s
    else if !(s.ctxStopped ctx) then .next s
    else
      let s := (s.gangsOfCtx ctx).foldl State.releaseGang s
      .next (s.modCtx ctx (fun x => { x with st := .saving }))
  | _, _ => .next s

/-- Packets of held launches that have not started go to their slots (R290). False: one has to wait. -/
def State.writeHeld (s : State) (c : Nat) : Bool × State :=
  let ps := (s.ctx c).queues.flatMap (fun q => (q.2.launches.filter (fun l => l.2.st = 0)).map (fun l =>
    (wrap64 ((q.2.qbuf : Int) + 128 * (l.1 % 64 : Nat)), l.2.pkt.flatMap (bytesOf 8))))
  ps.foldl (fun (acc : Bool × State) p =>
    let (ok, s) := acc.2.record c p.1 p.2 1
    (acc.1 && ok, s)) (true, s)

/-- What the hub keeps of a context that it has saved (log entry 8, DESIGN CHOICE). -/
def State.keep (s : State) (c : Nat) : State :=
  let x := s.ctx c
  let k : Kept :=
    { timens := s.timens, root := x.root, ctx := x, groups := s.groups.filter (fun e => e.2.ctx = c), gangs := s.gangs.filter (fun e => e.2.ctx = c)
      deques := s.cores.flatMap (fun k => (k.2.deques.filter (fun d => d.ctx = c)).map (fun d => (k.1, d)))
      proofs := s.proofs.filter (fun p => p.ctx = c) }
  let units := ((s.unitsOf c).filter (fun u => !u.2)).map (·.1)
  { s with kept := k :: s.kept, alloc := s.alloc ++ units }

/-- CTX_SAVE_AREA_WRITTEN (R279, R284): the area is written and the number is FREE; or writing failed, and the context goes on.
Kills that waited then act. -/
def execCtxSaveAreaWritten (ctx : Nat) (error : Option Nat) (s : State) : Host.Outcome State Fault Refusal :=
  let x := s.ctx ctx
  match x.st, x.stop with
  | .saving, some p =>
    (match error with
     | some off =>
       let us := s.gangsOfCtx ctx
       let s := (s.modCtx ctx (fun x => { x with st := .live, stop := none })).status p.statrec 9 off 0
       let s := (us.foldl State.resumeGang s).pump us
       (match p.kills with
        | [] => .next s
        | k :: ks => .next (ks.foldl (fun s r => s.wrongState ctx r) (s.killCtx ctx k)))
     | none =>
       let (ok, s) := s.writeHeld ctx
       if !ok then .next s
       else
         let (ps, size) := s.saveArea ctx
         let s := ({ s with mem := putPieces (Memory.clear s.mem p.area size) (shiftPieces p.area ps) } : State).unmark p.area size
         let s := ((s.keep ctx).dropContext ctx).status p.statrec 0 0 size
         .next (p.kills.foldl (fun s r => s.wrongState ctx r) s))
  | _, _ => .next s

/-- The first marked byte of an area (R275). -/
def State.areaPoison (s : State) (a n : Nat) : Option Nat :=
  (leastBy id ((s.poison.filter (fun x => overlaps (32 * x.1) 32 a n)).map (fun x => max a (32 * x.1)))).map (fun b => b - a)

/-- The context that a restore reads into, before its groups are placed (R279): a FREE number takes the descriptor of the area,
and what the hub kept (log entry 8, DESIGN CHOICE). -/
def State.installCtx (s : State) (c : Nat) (p : Stop) : State :=
  if !p.free then s.modCtx c (fun x => { x with st := .restoring, stop := some p })
  else
    let kept := s.keptFor p
    let old := match kept with
      | none => (default : Ctx)
      | some k => { k.ctx with queues := [], bcast := [], bcOld := [], clubar := [], devbar := [] }
    let x : Ctx := { old.ofDesc (s.dws (p.area + 0x100) 2) with st := .restoring, stop := some p }
    let ps := match kept with
      | none => []
      | some k => k.proofs.map (fun q => { q with ctx := c })
    let s : State := { s with ctxs := smPut s.ctxs c x, proofs := ps ++ s.proofs }
    let units := ((s.unitsOf c).filter (fun u => !u.2)).map (·.1)
    { s with alloc := s.alloc.filter (fun u => !(units.contains u)) }

/-- A restore fails (R279, R285): the context is as it was before. -/
def State.restoreFails (s : State) (c : Nat) (p : Stop) (st detail : Nat) : State :=
  let s := if p.free then
      let units := ((s.unitsOf c).filter (fun u => !u.2)).map (·.1)
      (({ s with alloc := s.alloc ++ units } : State).dropContext c)
    else s.modCtx c (fun x => { x with st := .live, stop := none })
  s.status p.statrec st detail 0

/-- Every group of the area is placed in directory order, or none (R285): the new state, or the saved cluster whose core cannot
hold what it held. -/
def State.loadGroups (s : State) (c : Nat) (p : Stop) (kept : Option Kept) (hs : List (Nat × Option (List Nat))) (l : List GroupImage) :
    Except Nat State :=
  let ages := sortKey id (l.flatMap (fun x => (List.range x.gangs).map (fun i => (s.gangHead x i).1)))
  let news := ages.mapIdx (fun i a => (a, s.nextId + i))
  let s : State := { s with nextId := s.nextId + ages.length }
  let full := fun (core : Nat) =>
    decide (32 < (s.core core).locks.length + ((l.filter (fun x => s.mapCore p x.core = core)).map s.savedStrms).sum)
  l.foldl (fun (acc : Except Nat State) x =>
    match acc with
    | .error k => .error k
    | .ok s =>
      if full (s.mapCore p x.core) then .error (clusterOf x.core)
      else
        match (s.imageKernel c hs x).bind (fun h => s.loadGroup c p kept h news x) with
        | none => .error (clusterOf x.core)
        | some s => .ok s) (.ok s)

/-- The broadcast words of the area (R286). -/
def State.loadWords (s : State) (c : Nat) (p : Stop) : State :=
  let used := s.rdN (p.area + 8) 8
  let ks := (List.range 48).filter (fun k => used.testBit k && s.mapCluster p k < 48)
  -- words of a saved cluster without groups go to its target too, unless a used cluster goes there
  let free := (List.range 48).filter (fun k => !(used.testBit k) && s.mapCluster p k < 48 && !(ks.any (fun j => s.mapCluster p j = s.mapCluster p k)))
  let ks := free ++ ks
  s.modCtx c (fun x => { x with
    bcast := ks.foldl (fun m k => (List.range 16).foldl (fun m n =>
      smSet bcInit m (bcKey (s.mapCluster p k) n) (s.rdN (p.area + 0x1000 + 128 * k + 8 * n) 8)) m) []
    bcOld := [] })

/-- Cluster and device barriers that the hub kept (R326): their gangs arrive again. -/
def State.loadBars (s : State) (c : Nat) (p : Stop) (kept : Option Kept) : State :=
  match kept with
  | none => s
  | some k =>
    let again := fun (b : Bar) => { b with arrived := [], release := none }
    s.modCtx c (fun x => { x with
      clubar := k.ctx.clubar.foldl (fun m b => smPut m (s.mapCluster p (b.1 / 16) * 16 + b.1 % 16) (again b.2)) []
      devbar := k.ctx.devbar.map (fun b => (b.1, again b.2)) })

/-- The records of the deque image of a core (R284). -/
def State.dequeImage (s : State) (p : Stop) (kept : Option Kept) (l : List GroupImage) (core : Nat) : List TaskRec :=
  let a := p.area + 0x10000 + 0x2000 * core
  let old := kept.bind (fun k => (k.deques.find? (fun d => d.1 = core)).map (fun d => d.2.recs))
  match old with
  | some rs => rs.mapIdx (fun j r => { r with bits := s.rdN (a + 32 * j) 32 })
  | none =>
    let bs := (List.range 256).map (fun j => s.rdN (a + 32 * j) 32)
    let n := (bs.zipIdx).foldl (fun n b => if b.1 = 0 then n else b.2 + 1) 0
    let host := l.find? (fun x => x.core = core)
    (bs.take n).map (fun b => ⟨b, (host.map (·.q)).getD 0, (host.map (·.seq)).getD 0, (host.map (·.cls)).getD 0⟩)

/-- The deques of the area (R286), or the saved cluster of a core whose target has no free deque for its records (R50, R285). -/
def State.loadDeques (s : State) (c : Nat) (p : Stop) (kept : Option Kept) (l : List GroupImage) : Except Nat State :=
  (List.range 384).foldl (fun (acc : Except Nat State) core =>
    match acc with
    | .error k => .error k
    | .ok s =>
      let rs := s.dequeImage p kept l core
      let to_ := if s.mapCluster p (core / 8) < 48 then s.mapCore p core else core
      if rs.isEmpty then .ok s
      else if !(s.ctxFits to_ c) || 256 < ((s.core to_).deque c).recs.length + rs.length then .error (clusterOf core)
      else .ok (s.modDeque to_ c (fun d => { d with recs := d.recs ++ rs }))) (.ok s)

/-- The gangs of the area go on in the order of their ages (R378). -/
def State.resumeAll (s : State) (c : Nat) (p : Stop) (kept : Option Kept) (l : List GroupImage) (ages : List Nat) (base : Nat) : State :=
  let us := s.gangsOfCtx c
  let s := us.foldl State.resumeGang s
  us.foldl (fun s u =>
    let core := ((l.find? (fun x => s.mapCore p x.core = (s.gang u).core)).map (fun x => x.core)).getD 0
    s.refork u kept (ages.getD (u - base) 0) core) s

/-- A restore goes on (R285 to R289, R378): kernels and packets are read, the checks are made, and every group is placed. -/
def State.restoreStep (s : State) (c : Nat) : State :=
  match (s.ctx c).stop with
  | none => s
  | some p =>
    if (s.ctx c).st ≠ .restoring then s
    else
      let l := s.groupImages p.area
      let kept := s.keptFor p
      match s.readKernels c l with
      | (none, s) => s
      | (some hs, s) =>
        match s.loadQueues c p kept hs l with
        | (none, s) => s
        | (some qs, s) =>
          let badPc := fun (x : GroupImage) => match s.imageKernel c hs x with
            | none => true
            | some h => x.st ≠ 0 && (s.savedPcs x).any (fun pc => !(s.pcOk c h pc))
          match l.find? badPc with
          | some x => s.restoreFails c p 8 x.n
          | none =>
            let on := l.filter (fun x => x.st ≠ 0)
            let ages := sortKey id (on.flatMap (fun x => (List.range x.gangs).map (fun i => (s.gangHead x i).1)))
            match ((s.modCtx c (fun x => { x with queues := qs })).loadGroups c p kept hs on).bind (fun t => t.loadDeques c p kept l) with
            | .error k => (s.restoreFails c p 6 k)
            | .ok t =>
              let t := (t.loadWords c p).loadBars c p kept
              let t := (t.groupsOfCtx c).foldl (State.loadSlot c) t
              let t := t.modCtx c (fun x => { x with st := .live, stop := none })
              let t := (t.resumeAll c p kept l ages s.nextId).pump (t.gangsOfCtx c)
              t.tickSerial.status p.statrec 0 0 (t.rdN p.area 8 / 2 ^ 32)

/-- Restores go on where they can. -/
def State.settleRestores (s : State) : State :=
  ((s.ctxs.filter (fun c => c.2.st = .restoring)).map (·.1)).foldl State.restoreStep s

/-- CTX_RESTORE (R279, R285 to R287): the VF and the mark of the header come before R285's checks (log entry 94, DESIGN CHOICE). -/
def execCtxRestore (fn : Nat) (cmd : List Dword) (s : State) : Host.Outcome State Fault Refusal :=
  .next (s.ctxCmd 4 fn cmd (fun d c rec_ s =>
    let x := s.ctx c
    let n := (s.groupsOfCtx c).length
    let p : Stop := ⟨false, dw d 2, areaRoom d, dw d 4, rec_, [], x.st = .free⟩
    let size := s.rdN p.area 8 / 2 ^ 32
    if !(x.st = .free || x.st = .live) then s.wrongState c rec_
    else if x.st = .live && n ≠ 0 then s.status rec_ 12 n 0
    else if x.st = .live && x.queues.any (fun q => q.2.st ≠ .disabled) then s.wrongState c rec_
    else if p.free && ctxForeign fn (descVf (s.dws (p.area + 0x100) 2)) then s.status rec_ 11 0 0
    else
      match s.areaPoison p.area 0x110, s.areaBad p with
      | some off, _ => s.status rec_ 9 off 0
      | none, some (st, detail) => s.status rec_ st detail 0
      | none, none =>
        match s.areaPoison p.area size with
        | some off => s.status rec_ 9 off 0
        | none => (s.installCtx c p).restoreStep c))

end Sys2Proof.Machine
end

