-- ==== Sys2Proof/Machine/Link.lean ====
section
/-! DEFINITION. The fabric agents' events: requests and answers, resends, hold bounds, messages, peer links and ports
(R353 to R368). -/

namespace Sys2Proof.Machine

/-- The package has joined its domain (R404). -/
def State.linked (s : State) : Bool := s.dev.stage = 2

/-- What the receiver makes of the incarnations of a request or message (R358, R360): `none` accepts it. -/
def State.screen (s : State) (src srcInc dstInc : Nat) : Option State :=
  let p := s.peer src
  if p.st = .dead && srcInc = p.inc then some ((s.stale src).notice src .deadn)
  else if p.st ≠ .none && newer p.inc srcInc then some (s.stale src)
  else if dstInc ≠ s.link.inc then some (s.stale src)
  else none

/-- Bytes that a transaction carries or asks for (R355). -/
def opSize : RemoteOp → Nat
  | .read _ n => n
  | .write bs => bs.length
  | .atomic op ty _ ds => atomBytes op ty * ds.length
  | .push _ bs _ => bs.length
  | .pull _ _ n => n
  | .lock .. | .unlock .. | .other | .message _ => 0

/-- The physical addresses that a transaction names all lie in memory here (R337), and a store touches no page table (R281). -/
def State.opInside (s : State) : RemoteOp → Bool
  | .read pa n => pa + n ≤ Config.hbmBytes
  | .write bs => bs.all (fun b => b.1 < Config.hbmBytes && !(s.inTables b.1))
  | .atomic _ ty pa _ => pa + sizeOf ty ≤ Config.hbmBytes && !(s.inTables pa)
  | _ => true

/-- The owner code of a lock that a peer's transfer holds (R228) (log entry 49, DEDUCED). -/
def peerOwner (src : Nat) : Nat := 2 ^ 40 + src

/-- Free one lock that a peer holds on a range (R228). -/
def State.unlockFor (s : State) (src core off n : Nat) : State :=
  s.modCore core (fun k =>
    match k.locks.find? (fun e => e.2.owner = peerOwner src && e.2.lo = off && e.2.hi = off + n) with
    | none => k
    | some e => { k with locks := smDel k.locks e.1 })

/-- The marked sectors of a range of bytes, all of them where the page is POISONED (R352, R354). -/
def State.markedSectors (s : State) (pa n : Nat) : Nat :=
  if s.failedAt pa then sectorsOf pa n else maskOf ((bitsOf 8 (sectorsOf pa n)).filter (fun k => s.poisoned (pa / 256 * 256 + 32 * k) 32))

/-- Perform a transaction of a peer and give its outcome, with the poison marks of its data (R183, R185, R228, R354, R367). A write to
a POISONED page is dropped, and its answer says so to its issuer, which consumes the error (R354) (log entry 65, DEDUCED). -/
def State.serve (s : State) (r : RemoteReq) : AnsKind × Nat × State :=
  let s := match r.op with
    | .read pa _ | .atomic _ _ pa _ => s.touch pa
    | .write bs => s.touch (opAddr (.write bs))
    | _ => s
  match r.op with
  | .read pa n => (.done (s.rd pa n), s.markedSectors pa n, s)
  | .write bs => if bs.any (fun b => s.failedAt b.1) then (.lost [], 0, s) else (.done [], 0, (s.wrAll bs).tickSerial)
  | .atomic op ty pa ds =>
    let n := sizeOf ty
    let bad := s.markedSectors pa n
    let (olds, m) := ds.foldl (fun (acc : List Byte × State) d =>
      let old := acc.2.rdN pa n
      (acc.1 ++ bytesOf n old, (acc.2.wr pa (bytesOf n (atomNew op ty old d.1 d.2))).tickSerial)) ([], s)
    if s.failedAt pa then (.lost olds, bad, s) else (.done olds, bad, m)
  | .push t bs h =>
    let (lo, n) := opSpan (.push t bs h)
    (match s.lockedTarget t (peerOwner r.srcPkg) lo (lo + n) true with
     | none => (.refused, 0, s)
     | some g =>
       if tokPkg t ≠ s.dev.pkgid then (.refused, 0, s)
       else
         match h with
         | some x => (.done [], 0, s.deliverSp g bs x.2 (some x.1))
         | none => (.done [], 0, s.deliverSp g bs bs.length none))
  | .pull t off n =>
    (match s.lockedTarget t (peerOwner r.srcPkg) off (off + n) false with
     | none => (.refused, 0, s)
     | some g =>
       if tokPkg t ≠ s.dev.pkgid then (.refused, 0, s)
       else (.done (s.spRd g off n), 0, s))
  | .lock launch t off n dest h =>
    if tokPkg t ≠ s.dev.pkgid then (.refused, 0, s)
    else
      let (a, s) := s.lockRemote (s.tokTarget t launch) off n dest h (peerOwner r.srcPkg)
      (a, 0, s)
  | .unlock t off n => (.done [], 0, s.unlockFor r.srcPkg (tokCore t) off n)
  | .other | .message _ => (.refused, 0, s)

/-- A carried store is placed in the hold queue (R364): HELDACK; a full queue answers busy. -/
def State.holdFor (s : State) (r : RemoteReq) (bs : List (Nat × Byte)) : State :=
  if 16384 ≤ s.link.held.length then s.reply r.srcPkg r.srcInc r.tag .busy 0
  else
    let (id, s) := s.fresh
    let h : Held :=
      { src := r.srcPkg, srcInc := r.srcInc, gang := r.gang, order := id, carries := r.carries, got := [], bytes := bs,
        tag := r.tag, number := r.number, origin := .msg, hold := r.hold, since := s.time }
    (s.modLink (fun l => { l with held := smPut l.held id h })).sendMsg r.srcPkg .heldack (r.carries.headD 0) r.tag

/-- A message whose TYPE R353 does not list. -/
def unlisted : RemoteOp → Bool
  | .message _ => true
  | _ => false

/-- The outcome kept of this use of a tag (R368). -/
def State.keptOutcome (s : State) (src tag number : Nat) : Option TagRec :=
  s.link.tags.find? (fun t => t.src = src && t.tag = tag && t.number = number)

/-- The carried store of a use of a tag is held here. -/
def State.holdsStore (s : State) (src inc tag number : Nat) : Bool :=
  s.link.held.any (fun e => e.2.src = src && e.2.srcInc = inc && e.2.tag = tag && e.2.number = number)

/-- REMOTE_REQUEST_RECEIVE (R353, R354, R355, R360, R364, R367, R368): a request sent again is answered from the outcome of the first
attempt, and a store that is held already is reported again. -/
def execRemoteRequestReceive (r : RemoteReq) (s : State) : Host.Outcome State Fault Refusal :=
  if !s.linked then .next s
  else if !r.crcOk then .next (s.reply r.srcPkg r.srcInc r.tag .negative 0)
  else
    match s.screen r.srcPkg r.srcInc r.dstInc with
    | some s' => .next s'
    | none =>
      if unlisted r.op then .next (s.stale r.srcPkg) else
      let refuse := fun (s : State) => s.answer r.srcPkg r.srcInc r.tag r.number .refused 0
      match s.keptOutcome r.srcPkg r.tag r.number with
      | some t => .next (t.ans.elim s (fun a => s.reply r.srcPkg r.srcInc r.tag a t.poison))
      | none =>
        if s.holdsStore r.srcPkg r.srcInc r.tag r.number then .next (s.sendMsg r.srcPkg .heldack (r.carries.headD 0) r.tag)
        else if 256 < opSize r.op || !(s.opInside r.op) then .next (refuse s)
        else if r.carries.isEmpty then
          let (a, bad, s) := s.serve r
          .next (s.answer r.srcPkg r.srcInc r.tag r.number a bad)
        else
          match r.op with
          | .write bs => .next (s.holdFor r bs)
          | _ => .next (refuse s)

/-- Lanes whose data no queue entry awaits any more are done (R125, R199). -/
def Gang.dropOrphans (g : Gang) (id : Nat) : Gang :=
  let wanted := fun (k : Nat) => (g.slice k).ldq.any (fun e => e.acc = id)
  g.modAcc id (fun a => { a with lanes := a.lanes.map (fun l =>
    if l.st = .arriving && !(wanted (l.lane / 8)) then { l with st := .done } else l) })

/-- A request of a copy is answered or has failed. -/
def State.copyAnswered (s : State) (core cmd r : Nat) : State :=
  s.modCopy core cmd (fun m => { m with reqs := m.reqs.filter (fun x => x ≠ r) })

/-- A request fails (R180, R188, R361, R365): its lanes, copy, rows or record take the failure. -/
def State.failReq (s : State) (id bit : Nat) : State :=
  let r := s.req id
  let s := s.delReq id
  match r.origin with
  | .acc u a lanes =>
    let own := ((s.gang u).acc a).own
    let s := (s.failLanes u a lanes bit).modGang u (fun g => g.dropOrphans a)
    let s := match own with
      | some q => s.failBaton q
      | none => s
    let s := r.carries.foldl State.tellDests s
    s.settleHeld.pump [u]
  | .copy core cmd _ =>
    (match smFind (s.core core).copyq cmd with
     | none => s
     | some m =>
       let s := s.copyAnswered core cmd id
       if m.failed then s else s.failCopy core cmd bit)
  | .mat core cmd =>
    (match smFind (s.core core).matq cmd with
     | none => s
     | some m => (s.modMat core cmd (fun m => { m with reqs := m.reqs.filter (fun x => x ≠ id) })).fail m.gang bit 1)
  | .far use addr => if s.wantsFar use then { s with far := s.far ++ [⟨use, addr, none, 0⟩] } else s
  | .msg => s.sweepBatons

/-- Every replica and shoot-down of a peer's pages here goes (R359, R361), and the peer counts as acknowledged in the
shoot-downs of this package (R351). -/
def State.dropReplicas (s : State) (p : Nat) : State :=
  let mine := s.ctxs.flatMap (fun c => c.2.pages.filterMap (fun x =>
    if x.2.st = .replica && (s.homeOf c.1 x.1).any (fun h => h.1 = p) then some (c.1, x.1) else none))
  let s := mine.foldl (fun s x => s.dropCopy x.1 x.2) s
  -- a shoot-down that awaits the peer's word ends: its writers then meet the peer itself (log entry 17, DEDUCED)
  let fin := s.link.shoots.filter (fun x => x.home = p)
  let s := s.modLink (fun l => { l with shoots := l.shoots.filter (fun x => x.home ≠ p) })
  let s := fin.foldl (fun s x => s.openPage x.ctx x.vpage) s
  (s.modLink (fun l => { l with shoots := l.shoots.map (fun x => { x with waiting := x.waiting.filter (fun w => w ≠ p) }) })).settleShoots

/-- Fail every unanswered request to a peer. -/
def State.failPeer (s : State) (p bit : Nat) : State :=
  ((s.link.reqs.filter (fun e => e.2.peer = p)).map (·.1)).foldl (fun s id =>
    if (smFind s.link.reqs id).isSome then s.failReq id bit else s) s

/-- Drop held stores of a peer for a reason (R359, R361). -/
def State.dropHeldOf (s : State) (p reason : Nat) : State :=
  (((s.link.held.filter (fun e => e.2.src = p)).map (·.1)).foldl (fun s id => s.dropHeld id reason) s).settleHeld

/-- Every baton with a store to a peer fails (R359). -/
def State.failBatonsTo (s : State) (p : Nat) : State :=
  ((s.link.batons.filter (fun e => e.2.st = .pending && e.2.peers.contains p)).map (·.1)).foldl State.failBaton s

/-- A peer link enters DEAD (R359), and the peer's transfers into scratchpads here have ended (R228). Its held stores expire: reason 1
(log entry 39, DEDUCED). -/
def State.enterDead (s : State) (p : Nat) : State :=
  let s := s.modPeer p (fun x => { x with st := .dead })
  (((((s.failPeer p fDead).failBatonsTo p).settleHeld.dropHeldOf p 1).dropReplicas p).unlockRemote (peerOwner p)).sweepBatons

/-- A newer incarnation of a peer is recorded (R361), and this package announces itself to it (R360). -/
def State.renew (s : State) (p inc : Nat) : State :=
  let known := (s.peer p).st ≠ .none
  let s := s.modPeer p (fun x => { x with st := .up, inc := inc })
  let s := if known then (((s.failPeer p fRefused).dropHeldOf p 4).dropReplicas p).unlockRemote (peerOwner p) else s
  -- what was kept of the old incarnation's requests goes (R361)
  let s := s.modLink (fun l => { l with tags := l.tags.filter (fun t => t.src ≠ p) })
  s.sweepBatons.notice p .incann

/-- An answer came while the link was in RECOVERY (R358): the link is UP, and what is unanswered is sent again. -/
def State.revive (s : State) (p : Nat) : State :=
  if (s.peer p).st ≠ .recovery then s
  else
    let s := s.modPeer p (fun x => { x with st := .up })
    let ids := (s.link.reqs.filter (fun e => e.2.peer = p)).map (·.1)
    ids.foldl (fun s id => (s.modReq id (fun r => { r with attempts := 0, crcFails := 0 })).transmit id) s

/-- The bytes of a lane in the data of a read that began at physical address `lo`: pages keep the low 16 address bits. -/
def laneBytes (data : List Byte) (lo va n : Nat) : Nat := ofBytes ((data.drop ((va + 0x10000 - lo % 0x10000) % 0x10000)).take n)

/-- The lanes of a request have been performed at the peer (R192, R367); `lost` if its write was dropped there (R354). -/
def State.lanesAnswered (s : State) (u id : Nat) (lanes : List Nat) (op : RemoteOp) (data : List Byte) (marks : Nat) (lost : Bool) : State :=
  let a := (s.gang u).acc id
  let n := sizeOf a.ty
  let val := fun (l : AccLane) => match op with
    | .read lo _ => extendTo a.ty (laneBytes data lo (l.addr % 0x10000) n)
    | .atomic .. => ofBytes ((data.drop (n * ((lanes.findIdx? (fun i => i = l.lane)).getD 0))).take n)
    | _ => 0
  let bad := fun (l : AccLane) => sectorsOf l.addr n &&& marks ≠ 0
  let s := s.setLanes u id lanes (fun l => performed a.op (val l) (delivers a.op && bad l) l)
  let s := (s.tickSerial.noteAcquire u a).modGang u (fun g => g.dropOrphans id)
  let s := if lost then s.lostStore u id else if a.use = .write then s.ackOwn a lanes.length else s
  s.settleHeld.pump [u]

/-- Elements of a copy that read a peer get their bytes (R226, R367). -/
def State.elemsRead (s : State) (core cmd : Nat) (ns : List Nat) (lo : Nat) (data : List Byte) : State :=
  match smFind (s.core core).copyq cmd with
  | none => s
  | some m =>
    let (l, s) := ns.foldl (fun (acc : List FarElem × State) n =>
      let bs := (data.drop ((m.srcAt n % 0x10000 + 0x10000 - lo % 0x10000) % 0x10000)).take (cdEsize m.desc)
      let (x, s) := (acc.2.modCopy core cmd (fun m => { m with sent := m.sent.filter (fun k => k ≠ n) })).putElem core cmd m n bs
      (acc.1 ++ x, s)) ([], s)
    s.sendElems core cmd m l

/-- A copy's request has been performed at the peer; what a failed copy has read there is dropped (R230). -/
def State.copyReplied (s : State) (core cmd r : Nat) (ns : List Nat) (op : RemoteOp) (data : List Byte) (marks : Nat) (lost : Bool) : State :=
  match smFind (s.core core).copyq cmd with
  | none => s
  | some m =>
    let s := s.copyAnswered core cmd r
    match op with
    | .lock .. => s.modCopy core cmd (fun m => { m with locked := 2 })
    | .read lo _ | .pull _ lo _ =>
      if m.failed then s else
      let bad := ns.any (fun n => sectorsOf (m.srcAt n) (cdEsize m.desc) &&& marks ≠ 0)
      let s := if bad then s.later (.uncorrectableErrorConsumed m.group m.gang 4) else s
      s.elemsRead core cmd ns lo data
    | _ => (if lost then s.later (.uncorrectableErrorConsumed m.group m.gang 4) else s).doneElems core cmd ns

/-- A request has been performed at the peer, but for a write that was `lost`: its answer goes where the request came from. -/
def State.completeReq (s : State) (id : Nat) (data : List Byte) (marks : Nat) (lost : Bool) : State :=
  let r := s.req id
  let s := s.delReq id
  match r.origin with
  | .acc u a lanes => (r.carries.foldl State.tellDests s).lanesAnswered u a lanes r.op data marks lost
  | .copy core cmd ns => s.copyReplied core cmd id ns r.op data marks lost
  | .mat core cmd =>
    let s := match smFind (s.core core).matq cmd with
      | some m => if lost then s.later (.uncorrectableErrorConsumed m.group m.gang 4) else s
      | none => s
    s.modMat core cmd (fun m => { m with reqs := m.reqs.filter (fun x => x ≠ id) })
  | .far use addr => if s.wantsFar use then { s with far := s.far ++ [⟨use, addr, if lost then none else some data, marks⟩] } else s
  | .msg => s.sweepBatons

/-- REMOTE_ANSWER (R354, R358, R360, R367, R368). -/
def execRemoteAnswer (a : RemoteAns) (s : State) : Host.Outcome State Fault Refusal :=
  let p := s.peer a.srcPkg
  if !s.linked || !a.crcOk then .next s
  else if p.st = .dead && a.srcInc = p.inc then .next ((s.stale a.srcPkg).notice a.srcPkg .deadn)
  else if p.st = .none || a.srcInc ≠ p.inc then .next (s.stale a.srcPkg)
  else
    let s := s.revive a.srcPkg
    match s.link.reqs.find? (fun e => e.2.peer = a.srcPkg && e.2.tag = a.tag) with
    | none => .next s
    | some (id, r) =>
      match a.ans with
      | .done data => .next (s.completeReq id data a.poison false).flushLink
      | .lost data => .next (s.completeReq id data a.poison true).flushLink
      | .refused => .next (s.failReq id fRefused).flushLink
      | .locked => .next (s.failReq id fLocked).flushLink
      | .busy => .next (s.modReq id (fun r => { r with busy := true, sent := s.time }))
      | .negative =>
        if p.st = .recovery then .next s
        else if 4 ≤ r.attempts then .next (s.recover a.srcPkg)
        else .next ((s.modReq id (fun r => { r with crcFails := r.crcFails + 1 })).transmit id)

/-- REQUEST_RESEND_TIMEOUT (R353, R368): after 100 µs on the next usable port; with 4 attempts made the link enters
RECOVERY (R358), unless its destination has said that it holds the store (log entry 86, DEDUCED). -/
def execRequestResendTimeout (req : Nat) (s : State) : Host.Outcome State Fault Refusal :=
  match smFind s.link.reqs req with
  | none => .next s
  | some r =>
    if r.attempts = 0 || r.busy || s.time < r.sent + 100 * Config.us then .next s
    else if 4 ≤ r.attempts then .next (if r.held then s else s.recover r.peer)
    else .next (s.transmit req)

/-- The gangs whose lanes an origin names. -/
def originGangs : Origin → List Nat
  | .acc u _ _ => [u]
  | _ => []

/-- CARRIED_STORE_RESEND (R364): a store answered busy is sent again after 2 µs. -/
def execCarriedStoreResend (req : Nat) (s : State) : Host.Outcome State Fault Refusal :=
  match smFind s.link.reqs req with
  | none => .next s
  | some r =>
    if !r.busy || s.time < r.sent + 2 * Config.us then .next s
    else if r.peer = s.dev.pkgid then .next ((s.holdAgain req).pump (originGangs r.origin))
    else .next ((s.modReq req (fun r => { r with attempts := 0 })).transmit req)

/-- HOLD_BOUND_EXPIRY (R364, R365): a held store is dropped here; one never held is dropped at its issuer. -/
def execHoldBoundExpiry (h : HoldRef) (s : State) : Host.Outcome State Fault Refusal :=
  match h with
  | .held id =>
    (match smFind s.link.held id with
     | none => .next s
     | some e =>
       if s.time < e.since + e.hold * Config.us then .next s
       else .next ((s.dropHeld id 1).settleHeld.pump (originGangs e.origin)))
  | .unheld req =>
    (match smFind s.link.reqs req with
     | none => .next s
     | some r =>
       if r.carries.isEmpty || r.held || !r.went || s.time < r.first + r.hold * Config.us then .next s
       else
         let q := s.firstUnreleased r.carries
         let fall := s.ownBaton r.origin
         let s := ((s.delReq req).expiry s.link.inc s.dev.pkgid 3 q (opAddr r.op)).expireOrigin r.origin q
         let s := r.carries.foldl State.tellDests (fall.foldl State.failBaton s)
         .next (s.settleHeld.pump (originGangs r.origin)).flushLink)

/-- A message that passes the checks of R353, R354 and R360 acts, and is answered; one sent again is only answered again (R368). -/
def State.receive (s : State) (m : Msg) (act : State → State) : State :=
  if !s.linked then s
  else if !m.crcOk then s.reply m.srcPkg m.srcInc m.tag .negative 0
  else if m.dstPkg ≠ s.dev.pkgid then s.stale m.srcPkg
  else
    match s.screen m.srcPkg m.srcInc m.dstInc with
    | some s' => s'
    | none =>
      let again := (s.keptOutcome m.srcPkg m.tag m.number).isSome
      (if again then s else act s).answer m.srcPkg m.srcInc m.tag m.number (.done []) 0

/-- Held stores of the sender that carry a baton (R364). -/
def State.heldWith (s : State) (m : Msg) : List Nat :=
  (s.link.held.filter (fun e => e.2.src = m.srcPkg && e.2.srcInc = m.srcInc && e.2.carries.contains m.seq)).map (·.1)

/-- BREL (R353, R364). -/
def execBrel (m : Msg) (s : State) : Host.Outcome State Fault Refusal :=
  .next (s.receive m (fun s =>
    let ids := s.heldWith m
    (s.modLink (fun l => { l with held := l.held.map (fun e =>
      if ids.contains e.1 && !(e.2.got.contains m.seq) then (e.1, { e.2 with got := e.2.got ++ [m.seq] }) else e) })).settleHeld))

/-- BFAIL (R353, R365). -/
def execBfail (m : Msg) (s : State) : Host.Outcome State Fault Refusal :=
  .next (s.receive m (fun s => ((s.heldWith m).foldl (fun s id => s.dropHeld id 2) s).settleHeld))

/-- The carried store that a HELDACK or BEXP names. -/
def State.carried (s : State) (m : Msg) : Option (Nat × Req) :=
  s.link.reqs.find? (fun e => e.2.peer = m.srcPkg && e.2.tag = m.addr && !e.2.carries.isEmpty)

/-- A store that carries a failed baton has become held at a destination: it is told again (R365). -/
def State.tellLate (s : State) (peer q : Nat) : State :=
  if s.batonFailed q then s.modBaton q (fun b => { b with told := b.told.filter (fun d => d ≠ peer) }) else s

/-- HELDACK (R353, R364, R365). -/
def execHeldack (m : Msg) (s : State) : Host.Outcome State Fault Refusal :=
  .next (s.receive m (fun s =>
    match s.carried m with
    | none => s
    | some (id, r) =>
      let s := r.carries.foldl (fun s q => s.tellLate r.peer q) (s.modReq id (fun r => { r with held := true, busy := false }))
      (r.carries.foldl State.tellDests s).pump (originGangs r.origin)))

/-- BEXP (R194, R353, R365). -/
def execBexp (m : Msg) (s : State) : Host.Outcome State Fault Refusal :=
  .next (s.receive m (fun s =>
    match s.carried m with
    | none => s
    | some (id, r) =>
      let fall := s.ownBaton r.origin
      let s := fall.foldl State.failBaton ((s.delReq id).expireOrigin r.origin m.seq)
      ((r.carries.foldl State.tellDests s).settleHeld.pump (originGangs r.origin)).flushLink))

/-- SDREQ (R273, R353): the replicas here of the home's page go, the page becomes SHOOTDOWN, and SDACK is sent, at once or as soon as
every read served from them has been delivered. -/
def execSdreq (m : Msg) (s : State) : Host.Outcome State Fault Refusal :=
  .next (s.receive m (fun s =>
    if (s.replicasOf m.srcPkg m.addr).isEmpty then s.sendMsg m.srcPkg .sdack m.seq m.addr
    else (s.shootHere m.srcPkg m.addr m.seq []).ackShoots))

/-- SDACK (R273, R353): one with another serial than the current one is dropped. -/
def execSdack (m : Msg) (s : State) : Host.Outcome State Fault Refusal :=
  .next (s.receive m (fun s =>
    (s.modLink (fun l => { l with shoots := l.shoots.map (fun x =>
      if x.home = s.dev.pkgid && x.pa = m.addr && x.serial = m.seq then
        { x with waiting := x.waiting.filter (fun w => w ≠ m.srcPkg) } else x) })).settleShoots))

/-- SDDONE (R273, R350, R353). -/
def execSddone (m : Msg) (s : State) : Host.Outcome State Fault Refusal :=
  .next (s.receive m (fun s =>
    let fin := s.link.shoots.filter (fun x => x.home = m.srcPkg && x.pa = m.addr)
    let s := s.modLink (fun l => { l with shoots := l.shoots.filter (fun x => !(fin.contains x)) })
    fin.foldl (fun s x => s.openPage x.ctx x.vpage) s))

/-- INCANN (R358, R360, R361): one whose sender does not know this package's incarnation has DSTINC 0 (log entry 22, DEDUCED). -/
def execIncann (m : Msg) (s : State) : Host.Outcome State Fault Refusal :=
  let p := s.peer m.srcPkg
  if !s.linked || !m.crcOk || (s.usablePorts m.srcPkg).isEmpty then .next s
  else if m.dstPkg ≠ s.dev.pkgid || (m.dstInc ≠ 0 && m.dstInc ≠ s.link.inc) then .next (s.stale m.srcPkg)
  else if p.st = .none then .next (s.renew m.srcPkg m.srcInc)
  else if m.srcInc = p.inc then (if p.st = .dead then .next ((s.stale m.srcPkg).notice m.srcPkg .deadn) else .next s)
  else if newer m.srcInc p.inc then .next (s.renew m.srcPkg m.srcInc)
  else .next (s.stale m.srcPkg)

/-- DEADN (R358): it names this package's current incarnation. -/
def execDeadn (m : Msg) (s : State) : Host.Outcome State Fault Refusal :=
  let p := s.peer m.srcPkg
  if !s.linked || !m.crcOk then .next s
  else if (p.st ≠ .none && newer p.inc m.srcInc) || m.dstInc ≠ s.link.inc || m.dstPkg ≠ s.dev.pkgid then .next (s.stale m.srcPkg)
  else if p.st = .dead then .next s
  else .next (s.enterDead m.srcPkg)

/-- PEER_RECOVERY_TIMEOUT (R358): after 20 ms in RECOVERY the link is DEAD. -/
def execPeerRecoveryTimeout (peer : Nat) (s : State) : Host.Outcome State Fault Refusal :=
  let p := s.peer peer
  if p.st = .recovery && p.since + 20 * Config.ms ≤ s.time then .next (s.enterDead peer) else .next s

/-- A port enters a state; links left without a usable port enter RECOVERY, and waiting requests go out (R356, R358). -/
def State.setPort (s : State) (k : Nat) (st : PortSt) : State :=
  let s := s.modPort k (fun p => { p with st := st, since := s.time, lastUse := s.time, low := false })
  (((s.link.peers.map (·.1)).filter (fun p => (s.usablePorts p).isEmpty)).foldl State.recover s).flushLink

/-- A port enters RETRAIN, or FAILED with its third within 1 s (R357). -/
def State.retrain (s : State) (k : Nat) : State :=
  let l := s.time :: ((s.port k).retrains.filter (fun t => s.time < t + 1000 * Config.ms))
  let s := s.modPort k (fun p => { p with retrains := l })
  if 3 ≤ l.length then (s.setPort k .failed).note (.portFailed k) else s.setPort k .retrain

/-- PORT_TRAINED (R357). -/
def execPortTrained (port lanes : Nat) (s : State) : Host.Outcome State Fault Refusal :=
  let p := s.port port
  let lim := if p.st = .training then 100 * Config.ms else 10 * Config.ms
  if !(p.st = .training || p.st = .retrain) || p.since + lim < s.time then .next s
  else
    match lanes with
    | 2 => .next (s.setPort port .active)
    | 1 => .next (s.setPort port .degraded)
    | _ => .next s

/-- PORT_LANE_FAILURE (R357): one lane left, or none. -/
def execPortLaneFailure (port : Nat) (s : State) : Host.Outcome State Fault Refusal :=
  match (s.port port).st with
  | .active => .next (s.setPort port .degraded)
  | .degraded => .next (s.retrain port)
  | _ => .next s

/-- PORT_REPLAY_EXHAUSTED (R357). -/
def execPortReplayExhausted (port : Nat) (s : State) : Host.Outcome State Fault Refusal :=
  if (s.port port).st.usable then .next (s.retrain port) else .next s

/-- PORT_TRAINING_TIMEOUT (R357). -/
def execPortTrainingTimeout (port : Nat) (s : State) : Host.Outcome State Fault Refusal :=
  let p := s.port port
  if (p.st = .training && p.since + 100 * Config.ms ≤ s.time) || (p.st = .retrain && p.since + 10 * Config.ms ≤ s.time) then
    .next ((s.setPort port .failed).note (.portFailed port))
  else .next s

/-- PORT_IDLE_TIMEOUT (19): a port without traffic for 100 µs enters its low-power state. -/
def execPortIdleTimeout (port : Nat) (s : State) : Host.Outcome State Fault Refusal :=
  let p := s.port port
  if p.st.usable && p.lastUse + 100 * Config.us ≤ s.time then .next (s.modPort port (fun p => { p with low := true }))
  else .next s

end Sys2Proof.Machine
end

