-- ==== Sys2Proof/Machine/Start.lean ====
section
/-! DEFINITION. Start-up, the host's registers and attestation (R23, R25, R290, R357, R362, R389, R392 to R404). -/

namespace Sys2Proof.Machine

/-- POWER_GOOD (R393, R394, R400): the starter image verifies, stage 0 begins, and the security core reconstructs the identity key, or
ERR is 6 from then on (log entry 85, DEDUCED); or the image fails, ERR is 1, and nothing else works. -/
def execPowerGood (verified : Bool) (s : State) : Host.Outcome State Fault Refusal :=
  if s.dev.powered || s.dev.err = 1 then .next s
  else if verified then
    let key := Config.keyRebuilt s.serial s.dev.helper
    .next (((s.toStage 0).modDev (fun d => { d with t0 := s.time, identity := key, err := if key then 0 else 6 })).tickSerial)
  else .next (s.modDev (fun d => { d with err := 1 }))

/-- A cluster mask of the unit map holds exactly 12 ones (R396). -/
def maskOk (m : Nat) : Bool := m < 2 ^ 13 && popCount 13 m = 12

/-- What the security core finds wrong with a record (R394 to R396): ERR, and the record type as its DETAIL. -/
def Dev.recordErr (d : Dev) (r : SignedRecord) : Option (Nat × Nat) :=
  if !r.signed then some (2, r.kind.code)
  else if r.version < d.counters.getD (r.kind.code - 1) 0 then some (3, r.kind.code)
  else if r.kind = .unitMap && (r.content.length ≠ 4 || !(r.content.all maskOk)) then some (4, r.kind.code)
  else none

/-- What ends stage 0 with an error (R393, R394): the first record that fails in the order in which they are verified, or a stack that
does not train. -/
def Dev.bootErr (d : Dev) (r : BootResult) : Option (Nat × Nat) :=
  match r.records.findSome? d.recordErr with
  | some e => some e
  | none => r.untrained.map (fun k => (5, k.val))

/-- What the record of a type says. -/
def contentOf (r : BootResult) (k : RecordKind) : List Nat := ((r.records.find? (fun x => x.kind = k)).map (·.content)).getD []

/-- The unit map, the trims and the repairs are applied, and stage 1 begins (R393, R395, R396, R389). -/
def State.enterStage1 (s : State) (r : BootResult) : State :=
  let budgets := contentOf r .trims
  let s := (s.toStage 1).modDev (fun d => { d with
    boot := none, masks := contentOf r .unitMap, records := budgets, repairs := (List.finRange 8).map (fun k => (k.val, contentOf r (.repair k))) })
  { s with dies := s.dies.map (fun d => (d.1, { d.2 with budget := budgets.getD d.1 0 })) }

/-- STAGE1_ENTRY (R393 to R396): the records are verified and the stacks trained, or ERR says what failed, and stage 0 stays. The entry
waits until any running safe kernel has ended. A set of records in which one of a type is missing enters nothing (log entry 85,
DEDUCED). -/
def execStage1Entry (r : BootResult) (s : State) : Host.Outcome State Fault Refusal :=
  if !s.dev.powered || s.dev.stage ≠ 0 || (s.dev.err ≠ 0 && s.dev.err ≠ 6) then .next s
  else
    match s.dev.bootErr r with
    | some (err, detail) => .next (s.modDev (fun d => { d with err := err, detail := detail, boot := none }))
    | none =>
      if !([RecordKind.unitMap, .trims] ++ (List.finRange 8).map RecordKind.repair).all (fun k => r.records.any (fun x => x.kind = k)) then .next s
      else if s.dev.safeState = 1 then .next (s.modDev (fun d => { d with boot := some r }))
      else .next (s.enterStage1 r)

/-- A write of JOIN (R404). -/
def execJoinWrite (value : Dword) (s : State) : Host.Outcome State Fault Refusal :=
  let v := value.toNat
  if (s.writeStage.getD 0) = 0 || s.dev.go || 6 ≤ fld v 16 3 then .next s
  else
    let s := s.modDev (fun d => { d with pkgid := fld v 0 9, planes := fld v 16 3, go := v.testBit 31 })
    .next (if v.testBit 31 then s.modLink (fun l => { l with inc := (l.inc + 1) % 2 ^ 32 }) else s)

/-- The planes of the fabric (R356, R404). -/
def State.planeList (s : State) : List Nat := List.range s.planeCount

/-- The ports of a plane that can carry traffic, ascending. -/
def State.planePorts (s : State) (p : Nat) : List Nat := (List.range 32).filter (fun k => (s.port k).st.usable && k % s.planeCount = p)

/-- Every plane has a usable port (R356, R404). -/
def State.planesUp (s : State) : Bool := s.planeList.all (fun p => !(s.planePorts p).isEmpty)

/-- INCANN goes to a package on a plane (R353, R404): on the first of the plane's usable ports from the one that R356 gives. -/
def State.announce (s : State) (plane d : Nat) : State :=
  match ((List.range 32).map (fun i => (d + i) % 32)).find? (fun k => k % s.planeCount = plane && s.portUsable d k) with
  | none => s
  | some k => s.noticeOn k d .incann

/-- JOIN_COMPLETE (R404): INCANN is sent on every plane (R353), and the stage is 2. -/
def execJoinComplete (s : State) : Host.Outcome State Fault Refusal :=
  if s.dev.stage ≠ 1 || !s.dev.go || !s.planesUp then .next s
  else
    let others := (List.range 512).filter (fun d => d ≠ s.dev.pkgid)
    let s := s.planeList.foldl (fun s p => others.foldl (fun s d => s.announce p d) s) s
    .next (s.toStage 2)

/-- FEATACPT_WRITE (R23, R25, R403): the single write, of 16 aligned bytes at stage 1 or later. -/
def execFeatacptWrite (off size : Nat) (value : BitVec 128) (s : State) : Host.Outcome State Fault Refusal :=
  if (s.writeStage.getD 0) = 0 || s.dev.featWr || off ≠ 0x20 || size ≠ 16 then .next s
  else .next (s.modDev (fun d => { d with featWr := true, feat := (value.toNat &&& Config.featAvail) ||| 1 }))

/-- The launch packet as the starter runs it (R397): CORES and the dependences are ignored (log entry 42, DEDUCED). -/
def safePacket (p : List Nat) : List Nat :=
  p.mapIdx (fun i x => if i = 0 then (if x.testBit 8 then x - 256 else x) else if i = 6 || i = 7 then 0 else x)

/-- The starter's internal context (R397): one queue with one launch, which is distributed once its code is proofed. -/
def safeCtxWith (p : List Nat) : Ctx :=
  let q : Queue := { Queue.reset with st := .halted, last := 1, launches := [(1, Launch.held p)] }
  { (default : Ctx) with st := .live, queues := [(0, q)] }

/-- SAFELP_WRITE (R397): at stage 0 the starter proofs and runs the kernel of a launch packet in stack 0. -/
def execSafelpWrite (value : Dword) (s : State) : Host.Outcome State Fault Refusal :=
  let a := value.toNat
  if s.writeStage ≠ some 0 || s.dev.safeState = 1 then .next s
  else
    let s := s.modDev (fun d => { d with safelp := a })
    let p := safePacket (dwordsOf 16 (s.rd a 128))
    if Config.stackBytes < a + 128 || (packetErr p).isSome then .next s
    else
      let s := s.modDev (fun d => { d with safeState := 1, safeEnd := 0, safeReason := 0, safeOffset := 0 })
      .next { s with
        ctxs := smPut s.ctxs safeCtx (safeCtxWith p)
        proofq := s.proofq ++ [{ ctx := safeCtx, khdr := dw p 1, recordPa := 0, statrec := 0, safe := true }] }

/-- One bit of PORTEN takes effect (R357): enabling a disabled port starts its training, and clearing disables it. -/
def State.enablePort (v : Nat) (s : State) (k : Nat) : State :=
  let st := (s.port k).st
  if v.testBit k then (if st = .disabled then s.setPort k .training else s)
  else if st = .disabled then s else s.setPort k .disabled

/-- PORTEN_WRITE (R357, R402). -/
def execPortenWrite (value : Dword) (s : State) : Host.Outcome State Fault Refusal :=
  if s.writeStage = none then .next s
  else
    let v := value.toNat % 2 ^ 32
    .next ((List.range 32).foldl (State.enablePort v) (s.modDev (fun d => { d with porten := v })))

/-- DIECAP_WRITE (R389): a value above the record's stores the record's. -/
def execDiecapWrite (die : Nat) (value : Dword) (s : State) : Host.Outcome State Fault Refusal :=
  if s.writeStage = none then .next s
  else .next (s.modDie die (fun d => { d with budget := min (value.toNat % 2 ^ 32) (s.dev.records.getD die 0) }))

/-- PEERSTAT_STALE_CLEAR (R362): a write of STALE with any bit set clears the field. -/
def execPeerstatStaleClear (peer : Nat) (value : Dword) (s : State) : Host.Outcome State Fault Refusal :=
  if fld value.toNat 16 16 = 0 || (smFind s.link.peers peer).isNone then .next s
  else .next (s.modPeer peer (fun p => { p with stale := 0 }))

/-- Groups of a queue that became resident in this cycle of the queue processors take the class that is written in it (R297), in their
first snapshot too. -/
def State.reclass (s : State) (c q cls : Nat) : State :=
  let now := s.hubCycle
  let gs := (s.groups.filter (fun e => e.2.ctx = c && e.2.q = q && (e.2.st = .resident || e.2.st = .draining || e.2.st = .parked) && e.2.since = now)).map (·.1)
  gs.foldl (fun s g =>
    (s.group g).launchGangs.foldl (fun s u => s.modGang u (fun x => { x with cls := cls })) (s.modGroup g (fun x => { x with
      cls := cls
      snap := x.snap.map (fun n => { n with gangs := n.gangs.map (fun e => (e.1, { e.2 with cls := cls })) }) }))) s

/-- The windows of a function's BAR2 (R399): the context command window, the map command window, and the window of a queue (R290), each
with the offset in it. -/
inductive Window where
  | ctxCmd (off : Nat)
  | mapCmd (off : Nat)
  | queue (ctx q off : Nat)
  deriving DecidableEq, Repr

/-- The window that an offset of the 2 MiB of BAR2 lies in (R290, R399). -/
def bar2Window (off : Nat) : Option Window :=
  if off < 0x40 then some (.ctxCmd off)
  else if off < 0x80 then some (.mapCmd (off - 0x40))
  else if 0x100000 ≤ off && off < 0x200000 then
    let o := off - 0x100000
    some (.queue (o / 0x4000) (o % 0x4000 / 0x100) (o % 0x100))
  else none

/-- A write of a register that stores a value and does nothing more (R290, R402); every other offset ignores it. A value
that is not aligned as the register asks is ignored. -/
def State.storeReg (s : State) (r : RegAddr) (v : Nat) : State :=
  match r with
  | .bar0 0x40 => if v % 4096 = 0 then s.modDev (fun d => { d with expbase := v }) else s
  | .bar0 _ => s
  | .bar2 fn off =>
    match bar2Window off with
    | some (.queue c q off) =>
      if !(s.queueOwned fn c q) then s
      else
        let off_ := (s.queue c q).st = .disabled
        match off with
        -- a CMD that is none of R294's is not allowed in any state
        | 0x80 => if v % 256 = 0 || 8 ≤ v % 256 then s.modQueue c q (fun x => { x with cmderr := 1 }) else s
        | 0x90 => (s.modQueue c q (fun x => { x with cls := v % 8 })).reclass c q (v % 8)
        | 0x98 => if off_ && v % 8192 = 0 then s.modQueue c q (fun x => { x with qbuf := v }) else s
        | 0xA0 => if off_ && v % 1024 = 0 then s.modQueue c q (fun x => { x with faultbase := v }) else s
        | _ => s
    | _ => s

/-- REGISTER_WRITE (R290, R402): only an aligned 8-byte write takes effect. -/
def execRegisterWrite (r : RegAddr) (size : Nat) (value : Dword) (s : State) : Host.Outcome State Fault Refusal :=
  if s.writeStage = none || size ≠ 8 then .next s else .next (s.storeReg r value.toNat)

/-- The event that a host's write of dwords at an offset of a function's BAR2 is (R274, R290, R294, R340, R399): a command, a queue
command, a submission, or a plain register write (log entry 88, DEDUCED). -/
def hostWrite (fn off : Nat) (ds : List Dword) : Option Instr :=
  let k := dw (ds.map (·.toNat)) 0 % 256
  match bar2Window off with
  | none => none
  | some (.ctxCmd o) =>
    if o ≠ 0 then none
    else some (match k with
      | 2 => .ctxSet fn ds | 3 => .ctxSave fn ds | 4 => .ctxRestore fn ds | 5 => .ctxKill fn ds | 6 => .ctxDestroy fn ds
      | _ => .ctxCreate fn ds)
  | some (.mapCmd o) =>
    if o ≠ 0 then none
    else some (match k with
      | 2 => .mapUnmap fn ds | 3 => .mapSetAttributes fn ds | 4 => .mapProof fn ds | 5 => .mapPin fn ds | 6 => .mapUnpin fn ds
      | 7 => .mapSpillArea fn ds | _ => .mapMap fn ds)
  | some (.queue c q o) =>
    if o < 0x80 then some (.hostSubmission fn c q o (8 * ds.length) ds)
    else
      let slot := fld (dw (ds.map (·.toNat)) 0) 16 4
      let plain := Instr.registerWrite (.bar2 fn off) (8 * ds.length) (ds.headD 0)
      some (if o ≠ 0x80 || ds.length ≠ 1 then plain
        else match k with
          | 1 => .queueEnable fn c q | 2 => .queueDrain fn c q | 3 => .queueHalt fn c q | 4 => .queueResume fn c q
          | 5 => .queueDisable fn c q | 6 => .queueResumeParked fn c q slot | 7 => .queueKillParked fn c q slot
          | _ => plain)

/-- The end code of a peer link's state (R362). -/
def lstateCode : LState → Nat
  | .none => 0 | .up => 1 | .recovery => 2 | .dead => 3

/-- A lease is in force on a cluster. -/
def State.leased (s : State) (k : Nat) : Bool :=
  s.gangs.any (fun e => e.2.live && clusterOf e.2.core = k && (match e.2.leaseEnd with
    | some t => s.time < t
    | none => false))

/-- CLUPWR (R392). -/
def State.clupwr (s : State) (k : Nat) : Nat :=
  let x := s.cluster k
  let clock := if !x.high then 0 else if x.sprint then 2 else 1
  x.iEff.toNat % 2 ^ 16 * 2 ^ 40 + min 255 x.tEff.toNat * 2 ^ 32 + x.iSusp.toNat * 128 + x.tSusp.toNat * 64 + (s.leased k).toNat * 32
    + x.rhold.isSome.toNat * 16 + clock * 4 + x.high.toNat

/-- PEERSTAT (R362). -/
def State.peerstat (s : State) (p : Nat) : Nat :=
  let x := s.peer p
  x.inc * 2 ^ 32 + x.stale * 2 ^ 16 + (s.usablePorts p).length * 2 ^ 8 + lstateCode x.st

/-- An aligned dword of BAR0 as it reads (R402). -/
def State.bar0 (s : State) (off : Nat) : Nat :=
  let d := s.dev
  match off with
  | 0x00 => d.detail * 2 ^ 32 + d.err * 2 ^ 24 + d.stage
  | 0x10 => Config.featAvail % 2 ^ 64
  | 0x18 => Config.featAvail / 2 ^ 64
  | 0x20 => d.feat % 2 ^ 64
  | 0x28 => d.feat / 2 ^ 64
  | 0x30 => d.go.toNat * 2 ^ 31 + d.planes * 2 ^ 16 + d.pkgid
  | 0x38 => d.porten
  | 0x40 => d.expbase
  | 0x48 => d.expcnt
  | 0x50 => d.safelp
  | 0x58 => d.safeOffset * 2 ^ 32 + d.safeReason * 2 ^ 16 + d.safeEnd * 2 ^ 8 + d.safeState
  | _ =>
    if off % 8 ≠ 0 then 0
    else if 0x100 ≤ off && off < 0x120 then (s.die ((off - 0x100) / 8)).budget
    else if 0x200 ≤ off && off < 0x380 then s.clupwr ((off - 0x200) / 8)
    else if 0x1000 ≤ off && off < 0x2000 then s.peerstat ((off - 0x1000) / 8)
    else 0

/-- A read of `size` bytes of BAR0 (R402): an aligned unit of 4 or 8 bytes reads the bytes addressed (log entry 47, DEDUCED: any other
reads 0). -/
def State.bar0Read (s : State) (off size : Nat) : Nat :=
  if size = 8 && off % 8 = 0 then s.bar0 off
  else if size = 4 && off % 4 = 0 then fld (s.bar0 (off - off % 8)) (off % 8 * 8) 32
  else 0

/-- An aligned dword of a queue window as it reads (R290). -/
def State.queueReg (s : State) (c q off : Nat) : Nat :=
  let x := s.queue c q
  let parked := ((s.queueGroups c q).filter (fun g => (s.group g).st = .parked)).length
  match off with
  | 0x88 => x.last * 2 ^ 32 + parked % 256 * 2 ^ 16 + x.heldCount * 2 ^ 8 + qstateCode x.st
  | 0x90 => x.cls
  | 0x98 => x.qbuf
  | 0xA0 => x.faultbase
  | 0xA8 => x.done
  | 0xB0 => x.drops * 2 ^ 32 + x.cmderr * 2 ^ 8 + x.pkterr
  | _ => 0

/-- What an attestation answer carries (R400, R401): the version, the two algorithms offered, the chain that flash holds, and FEATACPT as
block 6; the spec does not give the other words (log entry 30, DESIGN CHOICE). Without an identity, and to a request that is not
supported, the answer is an error (R394). -/
def State.attest (s : State) (r : SpdmReq) : Option SpdmAns :=
  if !s.dev.identity then none
  else
    match r with
    | .getVersion => some (.version 1 3)
    | .negotiateAlgorithms => some (.algorithms [.ed448, .shake256])
    | .getCertificate => some (.chain s.dev.chain)
    | .getMeasurements 6 => some (.block s.dev.feat)
    | .getMeasurements n => if 1 ≤ n && n ≤ 5 then some (.word (Config.spdmDword s.serial)) else none
    | .other _ => none
    | _ => some (.word (Config.spdmDword s.serial))

/-- SPDM_REQUEST (R401): the security core answers a request that arrives over the mailbox. -/
def execSpdmRequest (r : SpdmReq) (s : State) : Host.Outcome State Fault Refusal :=
  if !s.dev.powered then .next s
  else .next ({ s with spdm := (r, s.attest r) :: s.spdm } : State).tickSerial

end Sys2Proof.Machine
end

