-- ==== Sys2Proof/Machine/Power.lean ====
section
/-! DEFINITION. Power and heat: rails and clocks, the current arbiter, leases, sensors, energy and throttled cycles (R256,
R308, R309, R382, R385 to R392). -/

namespace Sys2Proof.Machine

/-- How long a change of rail or clock takes (R385): 20 ns. -/
def changeTime : Nat := 840

/-- The clusters of a die. -/
def clustersOf (die : Nat) : List Nat := (List.range 12).map (fun i => die * 12 + i)

/-- The rail a cluster is forced to, if any (R382, R388) (log entry 45, DEDUCED). -/
def Cluster.forced (k : Cluster) : Option Bool := if k.hot100 then some false else if k.rhold.isSome then some true else none

/-- A cluster takes a rail and a lease state; a change of its clock or rail begins (R385). -/
def Cluster.retune (k : Cluster) (t : Nat) (high sprint : Bool) : Cluster :=
  let k' : Cluster := { k with high := high, sprint := sprint }
  if k'.period = k.period && high = k.high then k' else { k' with change := some (t + changeTime) }

/-- The cluster's clock follows its rail, as it is forced, and its leases (R385). -/
def State.settleClock (s : State) (c : Nat) : State :=
  let k := s.cluster c
  s.modCluster c (fun _ => k.retune s.time (k.forced.getD k.high) (s.leased c))

/-- A part of the cluster could issue but for the rail's change (R385). -/
def State.wantsRail (s : State) (c : Nat) : Bool :=
  s.gangs.any (fun e => e.2.live && clusterOf e.2.core = c && e.2.parts.any (fun p => s.eligible e.1 (lowSlice p.slices)))

/-- A cluster on the low rail returns to the high rail when a part becomes eligible (R385). -/
def State.raiseRail (s : State) (c : Nat) : State :=
  let k := s.cluster c
  if k.high || k.change.isSome || k.forced = some false || !(s.wantsRail c) then s
  else s.modCluster c (fun k => k.retune s.time true k.sprint)

/-- CLUSTER_IDLE_TIMEOUT (R385): 10 µs without an issued bundle. -/
def execClusterIdleTimeout (cluster : Nat) (s : State) : Host.Outcome State Fault Refusal :=
  let k := s.cluster cluster
  if !k.high || k.change.isSome || k.forced.isSome || s.time < k.lastIssue + 10 * Config.us then .next s
  else .next (s.modCluster cluster (fun k => k.retune s.time false k.sprint))

/-- RAIL_CHANGE_COMPLETE (R385). -/
def execRailChangeComplete (cluster : Nat) (s : State) : Host.Outcome State Fault Refusal :=
  match (s.cluster cluster).change with
  | none => .next s
  | some t => if s.time < t then .next s else .next (s.modCluster cluster (fun k => { k with change := none }))

/-- CURRENT_GRANT (R387): the oldest PWRACQ of a die, once its raise fits. -/
def execCurrentGrant (die : Nat) (s : State) : Host.Outcome State Fault Refusal :=
  match (s.die die).pwrq with
  | [] => .next s
  | r :: rest =>
    let fits := s.pwrFits r.gang r.want
    if fits.1 || fits.2 then .next ((s.modDie die (fun d => { d with pwrq := rest })).grantClass r) else .next s

/-- Clusters of a die that hold a lease. -/
def State.leasedClusters (s : State) (die : Nat) : List Nat := (clustersOf die).filter s.leased

/-- A lease may be granted on a cluster (R391). -/
def State.mayLease (s : State) (c : Nat) : Bool :=
  let k := s.cluster c
  let l := s.leasedClusters (c / 12)
  (l.contains c || l.length < 4) && k.tEff < 90 && !k.hot90 && k.rhold.isNone && !k.hot100

/-- Events that may break a condition of a lease (R388, R382). -/
def endsLeases : Instr → Bool
  | .temperatureReading _ _ | .sensorSuspectClear _ _ | .timingReplay _ => true
  | _ => false

/-- LEASE_GRANT (R256, R391): the oldest waiting request of a die is granted once its conditions hold. An event of the same cycle that may
break one comes first, so that the request keeps waiting. -/
def execLeaseGrant (die : Nat) (s : State) : Host.Outcome State Fault Refusal :=
  match (s.die die).leaseq with
  | [] => .next s
  | r :: _ =>
    if s.agenda.any endsLeases then .next (s.later (.leaseGrant die))
    else if !(s.mayLease (clusterOf (s.gang r.gang).core)) then .next s
    else
    let s := s.modDie die (fun d => { d with leaseq := d.leaseq.filter (fun x => x ≠ r) })
    let s := s.modGang r.gang (fun g => { g with leaseEnd := some (s.time + r.want * Config.us), leaseCut := none, leaseLeft := 0 })
    .next (((s.unhold r.gang (.sprint r.id)).unhold r.gang (.lease r.id)).settleClock (clusterOf (s.gang r.gang).core))

/-- LEASE_EXPIRY (R256, R391). -/
def execLeaseExpiry (gang : Nat) (s : State) : Host.Outcome State Fault Refusal :=
  match (s.gang gang).leaseEnd with
  | none => .next s
  | some t =>
    if s.time < t then .next s
    else .next ((s.modGang gang (fun g => { g with leaseEnd := none })).settleClock (clusterOf (s.gang gang).core))

/-- Every lease of a cluster ends, and none is asked for again (R391). -/
def State.endLeases (s : State) (c : Nat) : State :=
  { s with gangs := s.gangs.map (fun e => if clusterOf e.2.core = c then
      (e.1, { e.2 with leaseEnd := none, leaseCut := if e.2.leaseEnd.isSome then e.2.leaseEnd else e.2.leaseCut }) else e) }

/-- The clusters beside a cluster on its die's ring (R392). -/
def ringOf (c : Nat) : List Nat := [c / 12 * 12 + (c % 12 + 11) % 12, c / 12 * 12 + (c % 12 + 1) % 12]

/-- Readings kept: those of the last 10 ms, and the newest of those before. -/
def keepHist (t : Nat) (l : List (Nat × Int)) : List (Nat × Int) :=
  let (new, old) := l.span (fun x => t < x.1 + 10 * Config.ms)
  new ++ old.take 1

/-- The most that kept readings change by. -/
def spread (l : List (Nat × Int)) : Int :=
  match l with
  | [] => 0
  | x :: xs => xs.foldl (fun m y => max m y.2) x.2 - xs.foldl (fun m y => min m y.2) x.2

/-- A sensor's reading is stuck (R392): it has not changed for 10 ms while a neighbour's has by two codes. -/
def stuck (t : Nat) (own : List (Nat × Int)) (ring : List (List (Nat × Int))) : Bool :=
  own.any (fun x => x.1 + 10 * Config.ms ≤ t) && spread own < 1 && ring.any (fun l => 2 ≤ spread (keepHist t l))

/-- The readings of the neighbours that are not suspect, as their sum and their number (R392). -/
def meanOf (l : List Int) : Int × Int := (l.foldl (· + ·) 0, l.length)

/-- A case of R392 holds for a thermal reading: out of range, or stuck or disagreeing (log entry 31, DESIGN CHOICE). -/
def tempCase (t : Nat) (raw : Int) (own : List (Nat × Int)) (ring : List (List (Nat × Int))) (m : Int × Int) : Bool × Bool :=
  (raw < -20 || 150 < raw, stuck t own ring || (m.2 ≠ 0 && 8 * m.2 < (raw * m.2 - m.1).natAbs))

/-- The effective temperature of a suspect reading (R392). -/
def tempInstead (out : Bool) (m : Int × Int) : Int := if out || m.2 = 0 then 105 else m.1 / m.2 + 5

/-- A threshold of R388 with its hysteresis of 5 °C (log entry 45, DEDUCED). -/
def hotAt (lim eff : Int) (was : Bool) : Bool := lim ≤ eff || (was && lim - 5 ≤ eff)

/-- The management controller removes power from the package (R388): what flash and the host keep stays
(log entry 46, DEDUCED). -/
def State.powerOff (s : State) (c : Nat) : State :=
  { State.reset with
    time := s.time
    clusters := s.clusters.map (fun k => (k.1, { Cluster.reset with edge := k.2.edge }))
    dev := { Dev.reset with counters := s.dev.counters, helper := s.dev.helper, chain := s.dev.chain }
    link := { Link.reset with inc := s.link.inc }
    host := s.host, hostHere := s.hostHere, log := .shutdown c :: s.log, agenda := s.agenda, serial := s.serial, nextId := s.nextId }

/-- A cluster's effective temperature is `eff` (R388): its thresholds act, and a reading that is not suspect removes power at 110 °C. -/
def State.heat (s : State) (c : Nat) (eff : Int) (susp : Bool) : State :=
  let k := s.cluster c
  if !susp && 110 ≤ eff then s.powerOff c
  else
    let s := s.modCluster c (fun k => { k with
      tEff := eff, tSubst := susp, hot90 := hotAt 90 eff k.hot90, hot100 := hotAt 100 eff k.hot100, hot105 := hotAt 105 eff k.hot105 })
    (if hotAt 90 eff k.hot90 then s.endLeases c else s).settleClock c

/-- A cluster's effective current is `n` / `d` units of 0.1 A (R388). -/
def Cluster.draw (k : Cluster) (n d : Int) (susp : Bool) : Cluster :=
  { k with iEff := n / d, iSubst := susp, overI := 1300 * d < n || (k.overI && 1200 * d ≤ n) }

/-- When a case of R392 last held: now, if one holds or has held up to now. -/
def lastCase (t : Nat) (now before : Bool) (since : Nat) : Nat := if now || before then t else since

/-- A cluster's standing temperature is judged (R392): a reading for which a case holds is suspect, and stays so for the 10 ms in which none
holds. -/
def State.judgeTemp (s : State) (c : Nat) : State :=
  let k := s.cluster c
  let ring := (ringOf c).map s.cluster
  let m := meanOf ((ring.filter (fun x => !x.tSusp && !x.tHist.isEmpty)).map (fun x => x.tRaw))
  let (out, odd) := tempCase s.time k.tRaw (keepHist s.time k.tHist) (ring.map (fun x => x.tHist)) m
  let held := out || odd
  let since := lastCase s.time held k.tHeld k.tSince
  let susp := held || (k.tSusp && s.time < since + 10 * Config.ms)
  let s := s.modCluster c (fun k => { k with tSusp := susp, tHeld := held, tSince := since })
  s.heat c (if susp then tempInstead out m else k.tRaw) susp

/-- The neighbours of a cluster whose sensors have read something. -/
def State.readNeighbours (s : State) (c : Nat) (hist : Cluster → List (Nat × Int)) : List Nat :=
  (ringOf c).filter (fun j => !(hist (s.cluster j)).isEmpty)

/-- TEMPERATURE_READING (R388, R392): a raw reading in °C, by which the readings of the neighbours are judged too. -/
def execTemperatureReading (cluster : Nat) (raw : Int) (s : State) : Host.Outcome State Fault Refusal :=
  let s := s.modCluster cluster (fun k => { k with tRaw := raw, tHist := keepHist s.time ((s.time, raw) :: k.tHist) })
  .next (((s.judgeTemp cluster).readNeighbours cluster (·.tHist)).foldl State.judgeTemp (s.judgeTemp cluster))

/-- A case of R392 holds for a current reading. -/
def ampCase (t : Nat) (raw : Int) (own : List (Nat × Int)) (ring : List (List (Nat × Int))) (m : Int × Int) : Bool × Bool :=
  (raw < 0 || 4000 < raw, stuck t own ring || (m.2 ≠ 0 && 15 * m.1 < 100 * ((raw * m.2 - m.1).natAbs : Int)))

/-- A cluster's standing current is judged (R392). -/
def State.judgeAmps (s : State) (c : Nat) : State :=
  let k := s.cluster c
  let ring := (ringOf c).map s.cluster
  let m := meanOf ((ring.filter (fun x => !x.iSusp && !x.iHist.isEmpty)).map (fun x => x.iRaw))
  let (out, odd) := ampCase s.time k.iRaw (keepHist s.time k.iHist) (ring.map (fun x => x.iHist)) m
  let held := out || odd
  let since := lastCase s.time held k.iHeld k.iSince
  let susp := held || (k.iSusp && s.time < since + 10 * Config.ms)
  -- the effective reading as a fraction of 0.1 A
  let (n, d) : Int × Int := if !susp then (k.iRaw, 1) else if out || m.2 = 0 then (1300, 1) else (11 * m.1, 10 * m.2)
  s.modCluster c (fun k => { k with iSusp := susp, iHeld := held, iSince := since }.draw n d susp)

/-- CURRENT_READING (R388, R392): a raw reading in units of 0.1 A, by which the readings of the neighbours are judged too. -/
def execCurrentReading (cluster : Nat) (raw : Int) (s : State) : Host.Outcome State Fault Refusal :=
  let s := s.modCluster cluster (fun k => { k with iRaw := raw, iHist := keepHist s.time ((s.time, raw) :: k.iHist) })
  .next (((s.judgeAmps cluster).readNeighbours cluster (·.iHist)).foldl State.judgeAmps (s.judgeAmps cluster))

/-- SENSOR_SUSPECT_CLEAR (R392): once 10 ms have passed in which no case held, the raw reading is the effective one again; a reading for which
a case still holds stays suspect. -/
def execSensorSuspectClear (cluster : Nat) (thermal : Bool) (s : State) : Host.Outcome State Fault Refusal :=
  let k := s.cluster cluster
  if thermal then
    if !k.tSusp || s.time < k.tSince + 10 * Config.ms then .next s else .next (s.judgeTemp cluster)
  else if !k.iSusp || s.time < k.iSince + 10 * Config.ms then .next s
  else .next (s.judgeAmps cluster)

/-- A group is resident on its core (R310, R311). -/
def Group.here (x : Group) : Bool := x.st = .resident || x.st = .parked || x.st = .draining

/-- The launches resident on some cores, each as context, queue and sequence number. -/
def State.launchesOn (s : State) (p : Nat → Bool) : List (Nat × Nat × Nat) :=
  ((s.groups.filter (fun e => e.2.here && p e.2.core)).map (fun e => (e.2.ctx, e.2.q, e.2.seq))).eraseDups

/-- Add fractions, in lowest terms. -/
def addFrac (a b : Nat × Nat) : Nat × Nat :=
  let d := max 1 a.2
  let n := a.1 * b.2 + b.1 * d
  let g := max 1 (Nat.gcd n (d * b.2))
  (n / g, d * b.2 / g)

/-- ENERGY_INTERVAL (R308): the energy of 1 µs, in nJ, is shared by the gang slots that each launch occupies, those of gangs that wait
for their granules and those that a snapshot holds among them (R45, R316). -/
def execEnergyInterval (cluster energy : Nat) (s : State) : Host.Outcome State Fault Refusal :=
  let slots := fun (l : Nat × Nat × Nat) => (s.gangs.filter (fun e => s.holdsSlot e.1 e.2 && clusterOf e.2.core = cluster
    && (let x := s.group e.2.group; (x.ctx, x.q, x.seq) = l))).length
  let ls := s.launchesOn (fun c => clusterOf c = cluster)
  let total := (ls.map slots).sum
  if total = 0 then .next s
  else .next (ls.foldl (fun t l => t.modLaunch l.1 l.2.1 l.2.2 (fun x => { x with
    energy := addFrac x.energy (energy * slots l, total) })) s)

/-- The cores of a cluster that hold some group. -/
def State.coresHolding (s : State) (c : Nat) : List Nat :=
  ((s.groups.filter (fun e => e.2.here && clusterOf e.2.core = c)).map (fun e => e.2.core)).eraseDups

/-- A core repeats its cycle at half its clock (R382): it takes the next two cycles of its cluster that it does not repeat one in already,
and counts neither. -/
def Core.repeat_ (k : Core) (cyc : Nat) : Core :=
  let last := k.again.foldl max cyc
  { k with again := k.again ++ [last + 1, last + 2] }

/-- TIMING_REPLAY (R382): a core repeats its cycle at half its clock, and the extra cycle counts for the launches that it holds (R309); 16
replays of a cluster within 1 ms put it on the high rail without leases. -/
def execTimingReplay (core : Nat) (s : State) : Host.Outcome State Fault Refusal :=
  let cluster := clusterOf core
  let k := s.cluster cluster
  let l := s.time :: k.replays.filter (fun t => s.time < t + Config.ms)
  let s := (s.modCluster cluster (fun k => { k with replays := l })).modCore core (fun x => x.repeat_ k.cyc)
  let s := (s.launchesOn (fun c => c = core)).foldl (fun s x =>
    s.modLaunch x.1 x.2.1 x.2.2 (fun y => { y with throttled := setNth y.throttled 5 (· + 1) })) s
  if l.length < 16 then .next s
  else
    let s := (s.modCluster cluster (fun k => { k with replays := [] })).note (.replay cluster)
    if k.high && !(s.leased cluster) then .next s
    else
      let s := s.modCluster cluster (fun k => { k with rhold := some (s.time + 100 * Config.ms) })
      .next ((s.endLeases cluster).settleClock cluster)

/-- REPLAY_HOLD_EXPIRY (R382). -/
def execReplayHoldExpiry (cluster : Nat) (s : State) : Host.Outcome State Fault Refusal :=
  match (s.cluster cluster).rhold with
  | none => .next s
  | some t => if s.time < t then .next s else .next (s.modCluster cluster (fun k => { k with rhold := none }))

/-- HBM_IDLE_TIMEOUT (19): a stack without an access for 1 ms enters self-refresh. -/
def execHbmIdleTimeout (stack : Nat) (s : State) : Host.Outcome State Fault Refusal :=
  let t := ((smFind s.hbm stack).getD (0, false)).1
  if s.time < t + Config.ms then .next s else .next { s with hbm := smPut s.hbm stack (t, true) }

/-- A die's charge were some requests of it granted (R387). -/
def State.chargeAfter (s : State) (d : Nat) (rs : List PwrReq) : Nat :=
  ((List.range 96).map (fun k =>
    min 4096 ((s.classesOn (d * 96 + k)).foldl (fun n e =>
      n + classLimit (((rs.find? (fun r => r.gang = e.1)).map (·.want)).getD e.2)) 0))).sum

/-- Request `n` of a die's queue waits only because BUDGET is below the record (R390): with the budget at the record it and those before it
would all be granted. -/
def State.budgetHolds (s : State) (d n : Nat) : Bool :=
  let q := (s.die d).pwrq
  (s.die d).budget < s.dev.records.getD d 0
    && (List.range (n + 1)).all (fun i => s.chargeAfter d (q.take (i + 1)) ≤ s.dev.records.getD d 0)

/-- A PWRACQ of a gang of the launch waits on the core: whether the arbiter holds one back, and whether one waits only because the budget is
below the record (R390) (log entry 45, DEDUCED). -/
def State.pwrWait (s : State) (core : Nat) (l : Nat × Nat × Nat) : Bool × Bool :=
  let d := dieOf core
  let mine := ((s.die d).pwrq.zipIdx.filter (fun r => (s.gang r.1.gang).core = core
    && (let x := s.groupOf r.1.gang; (x.ctx, x.q, x.seq) = l))).map (·.2)
  (mine.any (fun n => !(s.budgetHolds d n)), mine.any (s.budgetHolds d))

/-- A lease that R388 or R382 ended on a cluster would still be in force (R309). -/
def State.leaseLost (s : State) (c : Nat) : Bool :=
  s.gangs.any (fun e => e.2.live && clusterOf e.2.core = c && e.2.leaseCut.any (fun t => s.time < t))

/-- The cluster would be on the high rail if nothing forced it (R385). -/
def State.awake (s : State) (c : Nat) : Bool :=
  let k := s.cluster c
  (k.lastIssue ≠ 0 && s.time < k.lastIssue + 10 * Config.us) || s.wantsRail c

/-- The reason for which a cycle of a core is throttled for a launch, as a place among dwords 8 to 13 (R309, R390). -/
def State.throttle (s : State) (core : Nat) (l : Nat × Nat × Nat) : Option Nat :=
  let k := s.cluster (clusterOf core)
  let odd := k.cyc % 2 = 1
  let c := clusterOf core
  let slow := k.high && !k.sprint && s.leaseLost c
  -- a lease that waits for its grant keeps every core of the cluster at 1.2 GHz, and R388 may be what bars it
  let lease := k.high && !k.sprint && (s.die (dieOf core)).leaseq.any (fun r => clusterOf (s.gang r.gang).core = c)
  let heat := (k.hot100 && s.awake c) || (k.hot105 && odd) || (k.hot90 && (slow || lease))
  let amps := k.overI && odd
  let (held, capped) := s.pwrWait core l
  if heat && !k.tSubst then some 0
  else if (amps && !k.iSubst) || held then some 1
  else if heat || amps then some 2
  else if capped then some 3
  else if lease then some 4
  else if k.rhold.isSome && slow then some 5
  else none

/-- The core spends its cluster's current cycle repeating one of its own (R382). -/
def State.repeats (s : State) (core : Nat) : Bool := (s.core core).again.contains (s.cluster (clusterOf core)).cyc

/-- Cores that repeat a cycle fall behind their cluster by it (R382). -/
def State.fallBehind (s : State) (c : Nat) : State :=
  (s.cores.filter (fun e => clusterOf e.1 = c && !e.2.again.isEmpty)).foldl (fun s e =>
    let n := (s.repeats e.1).toNat
    let now := (s.cluster c).cyc
    s.modCore e.1 (fun k => { k with lag := k.lag + n, again := k.again.filter (fun t => now ≤ t) })) s

/-- Count one cycle of a cluster in the launches that its cores hold (R308, R309): of a core that repeats one, the time alone (R382). -/
def State.countCycle (s : State) (c : Nat) : State :=
  let period := (s.cluster c).period
  (s.coresHolding c).foldl (fun s core => (s.launchesOn (fun x => x = core)).foldl (fun s l =>
    let r := if s.repeats core then none else s.throttle core l
    s.modLaunch l.1 l.2.1 l.2.2 (fun x => { x with
      cycles := x.cycles + (!(s.repeats core)).toNat, heldTime := x.heldTime + period
      throttled := match r with
        | none => x.throttled
        | some i => setNth x.throttled i (· + 1) })) s) s

end Sys2Proof.Machine
end

