-- ==== Sys2Proof/Machine/Dispatch.lean ====
section
/-! DEFINITION. `exec`: one arm per row of the opcode table, each one call of its meaning. -/

namespace Sys2Proof.Machine

/-- The effect of one instruction, or of one event of the device. -/
def exec (i : Instr) (s : State) : Host.Outcome State Fault Refusal :=
  match i with
  | .emptyRun gap run regang check => Sys2Proof.Machine.execEmptyRun gap run regang check s
  | .vadd o => Sys2Proof.Machine.execVadd o s
  | .vsub o => Sys2Proof.Machine.execVsub o s
  | .vmul o => Sys2Proof.Machine.execVmul o s
  | .vmulh o => Sys2Proof.Machine.execVmulh o s
  | .vmad o => Sys2Proof.Machine.execVmad o s
  | .vmin o => Sys2Proof.Machine.execVmin o s
  | .vmax o => Sys2Proof.Machine.execVmax o s
  | .vabs o => Sys2Proof.Machine.execVabs o s
  | .vneg o => Sys2Proof.Machine.execVneg o s
  | .vand o => Sys2Proof.Machine.execVand o s
  | .vor o => Sys2Proof.Machine.execVor o s
  | .vxor o => Sys2Proof.Machine.execVxor o s
  | .vnot o => Sys2Proof.Machine.execVnot o s
  | .vshl o => Sys2Proof.Machine.execVshl o s
  | .vshr o => Sys2Proof.Machine.execVshr o s
  | .vrot o => Sys2Proof.Machine.execVrot o s
  | .vbfx o => Sys2Proof.Machine.execVbfx o s
  | .vbfi o => Sys2Proof.Machine.execVbfi o s
  | .vpopc o => Sys2Proof.Machine.execVpopc o s
  | .vclz o => Sys2Proof.Machine.execVclz o s
  | .vbrev o => Sys2Proof.Machine.execVbrev o s
  | .vfadd o => Sys2Proof.Machine.execVfadd o s
  | .vfsub o => Sys2Proof.Machine.execVfsub o s
  | .vfmul o => Sys2Proof.Machine.execVfmul o s
  | .vfma o => Sys2Proof.Machine.execVfma o s
  | .vfmin o => Sys2Proof.Machine.execVfmin o s
  | .vfmax o => Sys2Proof.Machine.execVfmax o s
  | .vfabs o => Sys2Proof.Machine.execVfabs o s
  | .vfneg o => Sys2Proof.Machine.execVfneg o s
  | .vrcp o => Sys2Proof.Machine.execVrcp o s
  | .vrsq o => Sys2Proof.Machine.execVrsq o s
  | .vsqrt o => Sys2Proof.Machine.execVsqrt o s
  | .vexp2 o => Sys2Proof.Machine.execVexp2 o s
  | .vlog2 o => Sys2Proof.Machine.execVlog2 o s
  | .vsin o => Sys2Proof.Machine.execVsin o s
  | .vcos o => Sys2Proof.Machine.execVcos o s
  | .vtanh o => Sys2Proof.Machine.execVtanh o s
  | .vcmp o => Sys2Proof.Machine.execVcmp o s
  | .vsel o => Sys2Proof.Machine.execVsel o s
  | .vmov o => Sys2Proof.Machine.execVmov o s
  | .vcvt o => Sys2Proof.Machine.execVcvt o s
  | .vpack o => Sys2Proof.Machine.execVpack o s
  | .vunpk o => Sys2Proof.Machine.execVunpk o s
  | .vqnt o => Sys2Proof.Machine.execVqnt o s
  | .vote o => Sys2Proof.Machine.execVote o s
  | .vballot o => Sys2Proof.Machine.execVballot o s
  | .shfl o => Sys2Proof.Machine.execShfl o s
  | .vred o => Sys2Proof.Machine.execVred o s
  | .ld o => Sys2Proof.Machine.execLd o s
  | .st o => Sys2Proof.Machine.execSt o s
  | .ldsp o => Sys2Proof.Machine.execLdsp o s
  | .stsp o => Sys2Proof.Machine.execStsp o s
  | .pref o => Sys2Proof.Machine.execPref o s
  | .atom o => Sys2Proof.Machine.execAtom o s
  | .atomq o => Sys2Proof.Machine.execAtomq o s
  | .atomsp o => Sys2Proof.Machine.execAtomsp o s
  | .fence o => Sys2Proof.Machine.execFence o s
  | .stb o => Sys2Proof.Machine.execStb o s
  | .stk o => Sys2Proof.Machine.execStk o s
  | .bwait o => Sys2Proof.Machine.execBwait o s
  | .strm o => Sys2Proof.Machine.execStrm o s
  | .strmx => Sys2Proof.Machine.execStrmx s
  | .fput o => Sys2Proof.Machine.execFput o s
  | .fwait o => Sys2Proof.Machine.execFwait o s
  | .bcmin o => Sys2Proof.Machine.execBcmin o s
  | .bcrd o => Sys2Proof.Machine.execBcrd o s
  | .mma o => Sys2Proof.Machine.execMma o s
  | .mmac o => Sys2Proof.Machine.execMmac o s
  | .zld o => Sys2Proof.Machine.execZld o s
  | .zst o => Sys2Proof.Machine.execZst o s
  | .zclr o => Sys2Proof.Machine.execZclr o s
  | .zret o => Sys2Proof.Machine.execZret o s
  | .zretSp o => Sys2Proof.Machine.execZretSp o s
  | .zretG o => Sys2Proof.Machine.execZretG o s
  | .cpy o => Sys2Proof.Machine.execCpy o s
  | .cpyr o => Sys2Proof.Machine.execCpyr o s
  | .cpseal f => Sys2Proof.Machine.execCpseal f s
  | .cpwait n => Sys2Proof.Machine.execCpwait n s
  | .hset o => Sys2Proof.Machine.execHset o s
  | .br g off => Sys2Proof.Machine.execBr g off s
  | .jmpr a => Sys2Proof.Machine.execJmpr a s
  | .call off => Sys2Proof.Machine.execCall off s
  | .callr a => Sys2Proof.Machine.execCallr a s
  | .ret a => Sys2Proof.Machine.execRet a s
  | .exit => Sys2Proof.Machine.execExit s
  | .bsz a off => Sys2Proof.Machine.execBsz a off s
  | .bsnz a off => Sys2Proof.Machine.execBsnz a off s
  | .loop n c => Sys2Proof.Machine.execLoop n c s
  | .endl n => Sys2Proof.Machine.execEndl n s
  | .lbrk n off => Sys2Proof.Machine.execLbrk n off s
  | .waitf mask any => Sys2Proof.Machine.execWaitf mask any s
  | .testf d neg mask any => Sys2Proof.Machine.execTestf d neg mask any s
  | .clrf mask => Sys2Proof.Machine.execClrf mask s
  | .pand o => Sys2Proof.Machine.execPand o s
  | .por o => Sys2Proof.Machine.execPor o s
  | .pxor o => Sys2Proof.Machine.execPxor o s
  | .sadd o => Sys2Proof.Machine.execSadd o s
  | .ssub o => Sys2Proof.Machine.execSsub o s
  | .smul o => Sys2Proof.Machine.execSmul o s
  | .sand o => Sys2Proof.Machine.execSand o s
  | .sor o => Sys2Proof.Machine.execSor o s
  | .sxor o => Sys2Proof.Machine.execSxor o s
  | .sshl o => Sys2Proof.Machine.execSshl o s
  | .sshr o => Sys2Proof.Machine.execSshr o s
  | .ssra o => Sys2Proof.Machine.execSsra o s
  | .smin o => Sys2Proof.Machine.execSmin o s
  | .smax o => Sys2Proof.Machine.execSmax o s
  | .smov d b => Sys2Proof.Machine.execSmov d b s
  | .sysrd g dst num => Sys2Proof.Machine.execSysrd g dst num s
  | .syswr g num t => Sys2Proof.Machine.execSyswr g num t s
  | .trap g code => Sys2Proof.Machine.execTrap g code s
  | .tret g => Sys2Proof.Machine.execTret g s
  | .mark g n => Sys2Proof.Machine.execMark g n s
  | .markWait g n => Sys2Proof.Machine.execMarkWait g n s
  | .trig g => Sys2Proof.Machine.execTrig g s
  | .launch g sd sq sp => Sys2Proof.Machine.execLaunch g sd sq sp s
  | .fork g sa sf w off => Sys2Proof.Machine.execFork g sa sf w off s
  | .join g sd sf => Sys2Proof.Machine.execJoin g sd sf s
  | .yield g => Sys2Proof.Machine.execYield g s
  | .pwracq g c => Sys2Proof.Machine.execPwracq g c s
  | .pwrrel g => Sys2Proof.Machine.execPwrrel g s
  | .sprint g t => Sys2Proof.Machine.execSprint g t s
  | .sync g l => Sys2Proof.Machine.execSync g l s
  | .hwait g sx => Sys2Proof.Machine.execHwait g sx s
  | .chkm g on => Sys2Proof.Machine.execChkm g on s
  | .quarterIssuePick core quarter => Sys2Proof.Machine.execQuarterIssuePick core quarter s
  | .promotion gang part => Sys2Proof.Machine.execPromotion gang part s
  | .regangRelease gang => Sys2Proof.Machine.execRegangRelease gang s
  | .loadDataArrival gang slice pos => Sys2Proof.Machine.execLoadDataArrival gang slice pos s
  | .streamElement gang slice => Sys2Proof.Machine.execStreamElement gang slice s
  | .translationWalk die => Sys2Proof.Machine.execTranslationWalk die s
  | .faultAcknowledge ctx vpage => Sys2Proof.Machine.execFaultAcknowledge ctx vpage s
  | .hostPageResponse ctx vpage present => Sys2Proof.Machine.execHostPageResponse ctx vpage present s
  | .fenceComplete gang part => Sys2Proof.Machine.execFenceComplete gang part s
  | .matrixCommandComplete core => Sys2Proof.Machine.execMatrixCommandComplete core s
  | .mmacInstanceComplete ctx cluster set => Sys2Proof.Machine.execMmacInstanceComplete ctx cluster set s
  | .copyBytesPerformed core cmd elems => Sys2Proof.Machine.execCopyBytesPerformed core cmd elems s
  | .copyComplete core cmd => Sys2Proof.Machine.execCopyComplete core cmd s
  | .remoteRequestReceive r => Sys2Proof.Machine.execRemoteRequestReceive r s
  | .remoteAnswer a => Sys2Proof.Machine.execRemoteAnswer a s
  | .requestResendTimeout req => Sys2Proof.Machine.execRequestResendTimeout req s
  | .carriedStoreResend req => Sys2Proof.Machine.execCarriedStoreResend req s
  | .holdBoundExpiry h => Sys2Proof.Machine.execHoldBoundExpiry h s
  | .brel m => Sys2Proof.Machine.execBrel m s
  | .bfail m => Sys2Proof.Machine.execBfail m s
  | .heldack m => Sys2Proof.Machine.execHeldack m s
  | .bexp m => Sys2Proof.Machine.execBexp m s
  | .sdreq m => Sys2Proof.Machine.execSdreq m s
  | .sdack m => Sys2Proof.Machine.execSdack m s
  | .sddone m => Sys2Proof.Machine.execSddone m s
  | .incann m => Sys2Proof.Machine.execIncann m s
  | .deadn m => Sys2Proof.Machine.execDeadn m s
  | .peerRecoveryTimeout peer => Sys2Proof.Machine.execPeerRecoveryTimeout peer s
  | .portTrained port lanes => Sys2Proof.Machine.execPortTrained port lanes s
  | .portLaneFailure port => Sys2Proof.Machine.execPortLaneFailure port s
  | .portReplayExhausted port => Sys2Proof.Machine.execPortReplayExhausted port s
  | .portTrainingTimeout port => Sys2Proof.Machine.execPortTrainingTimeout port s
  | .portIdleTimeout port => Sys2Proof.Machine.execPortIdleTimeout port s
  | .hostSubmission fn ctx q off len dwords => Sys2Proof.Machine.execHostSubmission fn ctx q off len dwords s
  | .launchPacketRead gang part => Sys2Proof.Machine.execLaunchPacketRead gang part s
  | .queueEnable fn ctx q => Sys2Proof.Machine.execQueueEnable fn ctx q s
  | .queueDrain fn ctx q => Sys2Proof.Machine.execQueueDrain fn ctx q s
  | .queueHalt fn ctx q => Sys2Proof.Machine.execQueueHalt fn ctx q s
  | .queueResume fn ctx q => Sys2Proof.Machine.execQueueResume fn ctx q s
  | .queueDisable fn ctx q => Sys2Proof.Machine.execQueueDisable fn ctx q s
  | .queueResumeParked fn ctx q slot => Sys2Proof.Machine.execQueueResumeParked fn ctx q slot s
  | .queueKillParked fn ctx q slot => Sys2Proof.Machine.execQueueKillParked fn ctx q slot s
  | .launchStart ctx q => Sys2Proof.Machine.execLaunchStart ctx q s
  | .groupPlace ctx q => Sys2Proof.Machine.execGroupPlace ctx q s
  | .poolClearDone core => Sys2Proof.Machine.execPoolClearDone core s
  | .taskTake core ctx => Sys2Proof.Machine.execTaskTake core ctx s
  | .taskSteal core ctx => Sys2Proof.Machine.execTaskSteal core ctx s
  | .forkRetry core ctx => Sys2Proof.Machine.execForkRetry core ctx s
  | .barrierArrival gang => Sys2Proof.Machine.execBarrierArrival gang s
  | .barrierRelease b => Sys2Proof.Machine.execBarrierRelease b s
  | .snapshotComplete group => Sys2Proof.Machine.execSnapshotComplete group s
  | .futureParkRetry gang part => Sys2Proof.Machine.execFutureParkRetry gang part s
  | .groupRetire group => Sys2Proof.Machine.execGroupRetire group s
  | .launchEnd ctx q seq => Sys2Proof.Machine.execLaunchEnd ctx q seq s
  | .uncorrectableErrorConsumed group gang site => Sys2Proof.Machine.execUncorrectableErrorConsumed group gang site s
  | .storageErrorDetected site corrected => Sys2Proof.Machine.execStorageErrorDetected site corrected s
  | .hbmRepairFailure pa => Sys2Proof.Machine.execHbmRepairFailure pa s
  | .watchdogExpiry gang slice set => Sys2Proof.Machine.execWatchdogExpiry gang slice set s
  | .gangStop gang => Sys2Proof.Machine.execGangStop gang s
  | .ctxCreate fn cmd => Sys2Proof.Machine.execCtxCreate fn cmd s
  | .ctxSet fn cmd => Sys2Proof.Machine.execCtxSet fn cmd s
  | .ctxSave fn cmd => Sys2Proof.Machine.execCtxSave fn cmd s
  | .ctxRestore fn cmd => Sys2Proof.Machine.execCtxRestore fn cmd s
  | .ctxKill fn cmd => Sys2Proof.Machine.execCtxKill fn cmd s
  | .ctxDestroy fn cmd => Sys2Proof.Machine.execCtxDestroy fn cmd s
  | .ctxStopComplete ctx => Sys2Proof.Machine.execCtxStopComplete ctx s
  | .ctxSaveAreaWritten ctx error => Sys2Proof.Machine.execCtxSaveAreaWritten ctx error s
  | .mapMap fn cmd => Sys2Proof.Machine.execMapMap fn cmd s
  | .mapUnmap fn cmd => Sys2Proof.Machine.execMapUnmap fn cmd s
  | .mapSetAttributes fn cmd => Sys2Proof.Machine.execMapSetAttributes fn cmd s
  | .mapProof fn cmd => Sys2Proof.Machine.execMapProof fn cmd s
  | .mapPin fn cmd => Sys2Proof.Machine.execMapPin fn cmd s
  | .mapUnpin fn cmd => Sys2Proof.Machine.execMapUnpin fn cmd s
  | .mapSpillArea fn cmd => Sys2Proof.Machine.execMapSpillArea fn cmd s
  | .prooferScan => Sys2Proof.Machine.execProoferScan s
  | .pageMoveComplete ctx vpage => Sys2Proof.Machine.execPageMoveComplete ctx vpage s
  | .markPacerAnswer gang part => Sys2Proof.Machine.execMarkPacerAnswer gang part s
  | .placementCounterHalving => Sys2Proof.Machine.execPlacementCounterHalving s
  | .currentGrant die => Sys2Proof.Machine.execCurrentGrant die s
  | .leaseGrant die => Sys2Proof.Machine.execLeaseGrant die s
  | .leaseExpiry gang => Sys2Proof.Machine.execLeaseExpiry gang s
  | .clusterIdleTimeout cluster => Sys2Proof.Machine.execClusterIdleTimeout cluster s
  | .railChangeComplete cluster => Sys2Proof.Machine.execRailChangeComplete cluster s
  | .temperatureReading cluster raw => Sys2Proof.Machine.execTemperatureReading cluster raw s
  | .currentReading cluster raw => Sys2Proof.Machine.execCurrentReading cluster raw s
  | .sensorSuspectClear cluster thermal => Sys2Proof.Machine.execSensorSuspectClear cluster thermal s
  | .energyInterval cluster energy => Sys2Proof.Machine.execEnergyInterval cluster energy s
  | .timingReplay core => Sys2Proof.Machine.execTimingReplay core s
  | .replayHoldExpiry cluster => Sys2Proof.Machine.execReplayHoldExpiry cluster s
  | .hbmIdleTimeout stack => Sys2Proof.Machine.execHbmIdleTimeout stack s
  | .powerGood verified => Sys2Proof.Machine.execPowerGood verified s
  | .stage1Entry r => Sys2Proof.Machine.execStage1Entry r s
  | .joinWrite value => Sys2Proof.Machine.execJoinWrite value s
  | .joinComplete => Sys2Proof.Machine.execJoinComplete s
  | .featacptWrite off size value => Sys2Proof.Machine.execFeatacptWrite off size value s
  | .safelpWrite value => Sys2Proof.Machine.execSafelpWrite value s
  | .portenWrite value => Sys2Proof.Machine.execPortenWrite value s
  | .diecapWrite die value => Sys2Proof.Machine.execDiecapWrite die value s
  | .peerstatStaleClear peer value => Sys2Proof.Machine.execPeerstatStaleClear peer value s
  | .registerWrite r size value => Sys2Proof.Machine.execRegisterWrite r size value s
  | .spdmRequest r => Sys2Proof.Machine.execSpdmRequest r s
  | .hostAddressTranslationChange ctx iova present => Sys2Proof.Machine.execHostAddressTranslationChange ctx iova present s

end Sys2Proof.Machine
end

