-- ==== Sys2Proof/Machine/Tick.lean ====
section
/-! DEFINITION. The clock edges of one time: which clusters' cycles come next, what those cycles settle, and which events of the device
they bring (log entry 1, DESIGN CHOICE). -/

namespace Sys2Proof.Machine

/-- Clusters whose clock runs: at stage 0 the one that the starter uses (R393, R397). -/
def State.clocked (s : State) : List Nat := if s.dev.stage = 0 then [0] else s.clusters.map (·.1)

/-- The time of the next clock edge, if a clock runs. -/
def State.nextEdge (s : State) : Option Nat :=
  (leastBy (fun k => (s.cluster k).edge) s.clocked).map (fun k => max s.time (s.cluster k).edge)

/-- Cores of a cluster that hold anything. -/
def State.coresOf (s : State) (k : Nat) : List Nat :=
  sortKey id (((s.gangs.map (fun e => e.2.core)) ++ s.cores.map (·.1)).filter (fun c => clusterOf c = k)).eraseDups

/-- Gangs of a cluster. -/
def State.gangsAt (s : State) (k : Nat) : List Nat := (s.gangs.filter (fun e => clusterOf e.2.core = k)).map (·.1)

/-- Quarters of a core in the order in which they offer commands (R103): the one after the last served comes first
(log entry 36, DEDUCED). -/
def State.quarterTurn (s : State) (core : Nat) : List Nat :=
  ((List.range 4).map (fun i => ((s.core core).served + 1 + i) % 4)).filter (fun q =>
    s.gangs.any (fun e => e.2.live && e.2.core = core && e.2.quarter = q))

/-- Events of a gang: those that go before the picks. -/
def State.gangFirst (s : State) (u : Nat) : List Instr :=
  let g := s.gang u
  (if (s.ctx g.ctx).st = .stopping && g.live then [.gangStop u] else [])
    ++ (if g.slices.any (fun x => x.sets.any (fun e => e.2.st = .regang)) then [.regangRelease u] else [])

/-- Events of one slice of a gang: the next data to arrive, and the next element of its stream. -/
def Gang.sliceEvents (g : Gang) (u k : Nat) : List Instr :=
  let x := g.slice k
  (match x.ldq.findIdx? (fun e => !e.ready) with
   | none => []
   | some p => [.loadDataArrival u k p])
    ++ (if x.strm.isSome then [.streamElement u k] else [])

/-- Events of one part of a gang. -/
def Gang.partEvents (u : Nat) (p : Part) : List Instr :=
  let k := lowSlice p.slices
  (if p.holds.isEmpty then [] else [.fenceComplete u k])
    ++ (if p.holds.any (fun h => match h with
        | .launch .. => true
        | _ => false) then [.launchPacketRead u k] else [])
    ++ (if p.asks.isSome then [.markPacerAnswer u k] else [])

/-- Parks of a gang that are presented again (R334). -/
def Gang.retryEvents (g : Gang) (u cyc : Nat) : List Instr :=
  ((g.accs.filter (fun e => e.2.parks && e.2.lanes.any (fun l => l.st.retries cyc))).map (fun e => lowSlice e.2.slices)).eraseDups.map
    (fun k => .futureParkRetry u k)

/-- Events of a gang: those that come after the picks. -/
def State.gangThen (s : State) (u : Nat) : List Instr :=
  let g := s.gang u
  let waits := g.slices.any (fun x => x.sets.any (fun e => match e.2.st with
    | .mark _ => true
    | _ => false))
  (List.range g.slices.length).flatMap (g.sliceEvents u) ++ g.parts.flatMap (Gang.partEvents u) ++ g.retryEvents u (s.cyc g.core)
    ++ (if waits then [.markPacerAnswer u 0] else [])
    ++ (if g.waitsAt.isSome then [.barrierArrival u] else [])
    ++ (match g.leaseEnd with
      | some t => if t ≤ s.time then [.leaseExpiry u] else []
      | none => [])

/-- The elements of a copy that the engine moves next: 64 bytes at least (R226, R235) (log entry 48, DESIGN CHOICE). -/
def CopyCmd.nextElems (m : CopyCmd) : List Nat :=
  (((List.range (min m.elems (m.done.length + m.sent.length + 64))).filter (fun n => !(m.done.contains n || m.sent.contains n))).take
    (max 1 (64 / max 1 (cdEsize m.desc))))

/-- The blocked FORKs of a core's deques, which were issued before any other (R53, R54). -/
def State.forkEvents (s : State) (c : Nat) : List Instr :=
  ((s.core c).deques.filter (fun d => !d.blocked.isEmpty)).map (fun d => .forkRetry c d.ctx)

/-- The pops of a core's own deques (R51, R53). -/
def State.takeEvents (s : State) (c : Nat) : List Instr :=
  ((s.core c).deques.filter (fun d => !d.recs.isEmpty)).map (fun d => .taskTake c d.ctx)

/-- The steals of a core (R52). -/
def State.stealEvents (s : State) (c : Nat) : List Instr :=
  let home := ((s.groups.filter (fun e => e.2.core = c && e.2.st = .resident)).map (fun e => e.2.ctx)).eraseDups
  let some_ := fun (x : Nat) => s.cores.any (fun e => dieOf e.1 = dieOf c && !((e.2.deque x).recs.isEmpty))
  (home.filter (fun x => ((s.core c).deque x).recs.isEmpty && some_ x)).map (fun x => .taskSteal c x)

/-- Events of a core's engines and its pool. -/
def State.coreEvents (s : State) (c : Nat) : List Instr :=
  let k := s.core c
  (if k.matq.isEmpty then [] else [.matrixCommandComplete c])
    ++ k.copyq.flatMap (fun e => [.copyBytesPerformed c e.1 e.2.nextElems, .copyComplete c e.1])
    ++ (if k.clears.isEmpty then [] else [.poolClearDone c])

/-- MMAC instances of a cluster that wait for participants. -/
def State.mmacEvents (s : State) (k : Nat) : List Instr :=
  (((s.coresOf k).flatMap (fun c => (s.core c).matq.filterMap (fun e => match e.2.i with
    | .mmac o => if e.2.fired.isNone then some ((s.gang e.2.gang).ctx, o.set.val) else none
    | _ => none))).eraseDups).map (fun x => .mmacInstanceComplete x.1 k x.2)

/-- Barriers of a list that have arrivals, or that are releasing (R327). -/
def arrivedBars (l : List (Nat × Bar)) (mk : Nat → BarRef) : List Instr :=
  (l.filter (fun b => !b.2.arrived.isEmpty || b.2.release.isSome)).map (fun b => .barrierRelease (mk b.1))

/-- Events of the groups and barriers of a cluster. -/
def State.groupEvents (s : State) (k : Nat) : List Instr :=
  (s.groups.filter (fun e => clusterOf e.2.core = k && !(s.repeats e.2.core))).flatMap (fun e =>
      arrivedBars e.2.bars (fun n => .grp e.1 n) ++ (if e.2.snapDue.isSome then [.snapshotComplete e.1] else [])
        ++ (if e.2.st = .draining then [.groupRetire e.1] else []))
    ++ s.ctxs.flatMap (fun c => arrivedBars (c.2.clubar.filter (fun b => b.1 / 16 = k)) (fun n => .clu c.1 (n / 16) (n % 16)))

/-- Events of the device barriers. -/
def State.devBarEvents (s : State) : List Instr := s.ctxs.flatMap (fun c => arrivedBars c.2.devbar (fun n => .dev c.1 n))

/-- Events of a cluster's clock, rail and sensors. -/
def State.clusterEvents (s : State) (k : Nat) : List Instr :=
  let x := s.cluster k
  (if x.high && x.change.isNone && x.lastIssue + 10 * Config.us ≤ s.time then [.clusterIdleTimeout k] else [])
    ++ (if x.change.any (fun t => t ≤ s.time) then [.railChangeComplete k] else [])
    ++ (if x.tSusp && x.tSince + 10 * Config.ms ≤ s.time then [.sensorSuspectClear k true] else [])
    ++ (if x.iSusp && x.iSince + 10 * Config.ms ≤ s.time then [.sensorSuspectClear k false] else [])
    ++ (if x.rhold.any (fun t => t ≤ s.time) then [.replayHoldExpiry k] else [])

/-- Events of a die's walkers, arbiter and leases. -/
def State.dieEvents (s : State) (d : Nat) : List Instr :=
  let x := s.die d
  (if x.merge.any (fun m => !m.pages.isEmpty) then [.translationWalk d] else [])
    ++ (x.merge.flatMap (fun m => m.faults.filterMap (fun p => match s.place m.ctx (p * 0x10000) .read with
      | .wait _ => none
      | _ => some (.faultAcknowledge m.ctx p))))
    ++ (if x.pwrq.isEmpty then [] else [.currentGrant d]) ++ (if x.leaseq.isEmpty then [] else [.leaseGrant d])

/-- Events of one queue. -/
def queueEvents (c q : Nat) (x : Queue) : List Instr :=
  (if x.launches.any (fun l => l.2.st = 0) then [.launchStart c q] else [])
    ++ (if x.launches.any (fun l => l.2.st = 1 || l.2.st = 2) then [.groupPlace c q] else [])
    ++ (x.launches.filter (fun l => l.2.st = 3)).map (fun l => .launchEnd c q l.1)

/-- Events of the queues, in the order of their processors (R313). -/
def State.allQueueEvents (s : State) : List Instr :=
  let l := s.ctxs.flatMap (fun c => c.2.queues.map (fun q => (c.1, q.1, q.2)))
  (sortKey (fun e => (procOf e.1 e.2.1 * 128 + e.1) * 64 + e.2.1) l).flatMap (fun e => queueEvents e.1 e.2.1 e.2.2)

/-- Events of the hub: queues, contexts, the proofer and the pacer. `old` is the time of the last edge. -/
def State.hubEvents (s : State) (old : Nat) : List Instr :=
  (if s.dev.safeState = 1 then [] else s.dev.boot.toList.map .stage1Entry)
    ++ (if old / 35 = s.time / 35 then [] else s.allQueueEvents)
    ++ s.ctxs.flatMap (fun c => (if c.2.st = .stopping then [.ctxStopComplete c.1] else if c.2.st = .saving then [.ctxSaveAreaWritten c.1 none] else []))
    ++ (if s.proofq.isEmpty then [] else [.prooferScan])
    ++ (s.moves.filter (fun m => m.began)).map (fun m => .pageMoveComplete m.ctx m.vpage)
    ++ (if old / Config.ms = s.time / Config.ms then [] else [.placementCounterHalving])
    ++ (s.hbm.filter (fun e => !e.2.2 && e.2.1 + Config.ms ≤ s.time)).map (fun e => .hbmIdleTimeout e.1)

/-- Events of the fabric agents whose time has come. -/
def State.linkEvents (s : State) : List Instr :=
  s.link.reqs.flatMap (fun e =>
      (if e.2.sent + 100 * Config.us ≤ s.time && !e.2.busy && !(e.2.held && decide (4 ≤ e.2.attempts)) then [.requestResendTimeout e.1] else [])
        ++ (if e.2.busy && e.2.sent + 2 * Config.us ≤ s.time then [.carriedStoreResend e.1] else [])
        ++ (if !e.2.carries.isEmpty && !e.2.held && e.2.first + e.2.hold * Config.us ≤ s.time then [.holdBoundExpiry (.unheld e.1)] else []))
    ++ (s.link.held.filter (fun e => e.2.since + e.2.hold * Config.us ≤ s.time)).map (fun e => .holdBoundExpiry (.held e.1))
    ++ (s.link.peers.filter (fun e => e.2.st = .recovery && e.2.since + 20 * Config.ms ≤ s.time)).map (fun e => .peerRecoveryTimeout e.1)
    ++ (s.link.ports.filter (fun e => e.2.st = .training || e.2.st = .retrain)).map (fun e => .portTrainingTimeout e.1)
    ++ (s.link.ports.filter (fun e => e.2.st.usable && !e.2.low && e.2.lastUse + 100 * Config.us ≤ s.time)).map (fun e => .portIdleTimeout e.1)
    ++ (if s.dev.stage = 1 && s.dev.go then [.joinComplete] else [])

/-- The events that cycles beginning together in clusters `ks` bring, in the order in which they happen: those that meet in one cycle
follow the order of the rules across the clusters (R53). -/
def State.events (s : State) (ks : List Nat) (old : Nat) : List Instr :=
  let us := (ks.flatMap s.gangsAt).filter (fun u => !(s.repeats (s.gang u).core))
  let cores := (ks.flatMap s.coresOf).filter (fun c => !(s.repeats c))
  us.flatMap s.gangFirst ++ cores.flatMap (fun c => (s.quarterTurn c).map (fun q => .quarterIssuePick c q))
    ++ cores.flatMap s.forkEvents ++ us.flatMap s.gangThen ++ cores.flatMap s.takeEvents ++ cores.flatMap s.stealEvents
    ++ cores.flatMap s.coreEvents ++ ks.flatMap s.mmacEvents ++ ks.flatMap s.groupEvents ++ s.devBarEvents ++ ks.flatMap s.clusterEvents
    ++ (s.dies.map (·.1)).flatMap s.dieEvents ++ s.hubEvents old ++ s.linkEvents

/-- Writes whose landing cycle has come land in the gangs of a cluster (R96). -/
def State.landCluster (s : State) (k : Nat) : State :=
  { s with gangs := s.gangs.map (fun e => if clusterOf e.2.core = k then (e.1, e.2.landUpTo (s.cyc e.2.core)) else e) }

/-- What every agent settles at an edge. -/
def State.settle (s : State) : State :=
  ((((s.tryAllRecords.settleMaps.rollAll.settleLaunches).paceAll).pumpMoves).settleShoots).settleRestores

/-- A cycle of cluster `k` begins (R385): it lasts a period of the clock that is in force in it. -/
def State.beginCycle (s : State) (k : Nat) : State :=
  let s := (((s.modCluster k (fun x => { x with cyc := x.cyc + 1 })).fallBehind k).landCluster k |>.raiseRail k).settleClock k
  let s := s.modCluster k (fun x => { x with edge := s.time + x.period })
  ((s.countCycle k).presentParks k).testHurdles k

/-- The clock edges at time `now`: the cycles of their clusters begin, and bring their events. -/
def State.edgesAt (s : State) (now : Nat) : State :=
  let old := s.time
  let ks := s.clocked.filter (fun k => decide ((s.cluster k).edge ≤ now))
  let s := ks.foldl State.beginCycle { s with time := now }
  let s := (if old / 35 = now / 35 then s else s.hubBegin).leaveAllSlots.settle
  { s with agenda := s.agenda ++ s.events ks old }

/-- Time goes on to the next clock edge; without power nothing happens (R393). -/
def State.tick (s : State) : State :=
  if !s.dev.powered then s
  else
    match s.nextEdge with
    | none => s
    | some t => s.edgesAt t

/-- Where `withFetchWord` puts code: its virtual page, and the physical page. -/
def testPage : Nat × Nat := (0x10000, 0x100000)

/-- The kernel under which `withFetchWord` runs an instruction: all registers, tiles and barriers, one gang of one slice. -/
def testKernel : Kernel :=
  { (default : Kernel) with
    codelen := 36, codebase := testPage.1, vregs := 256, ztiles := 16, barriers := 16, width := 1, gangs := 1, pen := true, curclass := 7
    vgran := 1, zgran := 16 }

/-- A launch in context 0 as it runs: one resident group of one gang on core 0, standing at the first byte of a code page that
holds `code`, and picked to issue (log entry 23, DESIGN CHOICE). -/
def State.armed (s : State) (code : List Byte) : State :=
  let gid := s.nextId
  let u := s.nextId + 1
  let root := s.tblNext
  let l : Launch := { Launch.held [0x10001, 0x20000, 0, 0, 0, 0, 0, 0, 0] with st := 1, hdr := testKernel, nextPlace := 1 }
  let q : Queue := { Queue.reset with st := .active, last := 1, launches := [(1, l)] }
  let page : PageRec := { (default : PageRec) with st := .resident, size := 0x10000 }
  let x : Ctx := { (default : Ctx) with st := .live, root := root, queues := [(0, q)], pages := [(testPage.1 / 0x10000, page)] }
  let g := (newGang testKernel 0 gid 0 0 0 1 0 false 0).start testPage.1 (s.cyc 0) 0 id
  let grp : Group := { (default : Group) with seq := 1, st := .resident, from_ := .resident, gangs := [u], launchGangs := [u] }
  let s : State := { s with
    dev := { s.dev with powered := true, stage := max 1 s.dev.stage }
    nextId := u + 1, tblNext := root + 4096
    ctxs := smPut s.ctxs 0 x, groups := smPut s.groups gid grp, gangs := smPut s.gangs u { g with core := 0 }
    agenda := [], picked := [(u, 0)], cur := none }
  let s := s.setPage 0 testPage.1 0x10000 (mkLeaf testPage.2 0 0 false true false)
  { s with
    mem := Memory.writeN s.mem testPage.2 code
    clusters := smMod s.clusters 0 (fun k => { k with change := none, hot105 := false, overI := false }) }

end Sys2Proof.Machine
end

