-- ==== Sys2Proof/Machine/Step.lean ====
section
/-! DEFINITION. One step of the machine: a picked issuer's bundle issues, or the next event happens, or time goes on by one
clock edge (log entry 1, DESIGN CHOICE). -/

namespace Sys2Proof.Machine

/-- The slots of a bundle act in order (R117, R206): V, M, X, C, which the spec does not order throughout (log entry 57, DESIGN
CHOICE). -/
def runSlots : List Instr → State → Host.Outcome State Fault Refusal
  | [], s => .next s
  | i :: is, s =>
    match exec i s with
    | .next s => runSlots is s
    | .fault f => .fault f
    | .refused r => .refused r

/-- The bundle has issued. -/
def finishBundle : Host.Outcome State Fault Refusal → Host.Outcome State Fault Refusal
  | .next s => .next s.finish
  | .fault f => .fault f
  | .refused r => .refused r

/-- A picked part issues its next bundle. Code that the proofer would not pass has no defined behaviour (R81, R108). -/
def issue (u k : Nat) (s : State) : Host.Outcome State Fault Refusal :=
  match s.begin u k with
  | .stop s => .next s
  | .refused slot reason => .refused (.unproofedCode slot reason)
  | .slots s is => finishBundle (runSlots is s)

/-- One step. -/
def step (s : State) : Host.Outcome State Fault Refusal :=
  match s.picked, s.agenda with
  | p :: rest, _ => issue p.1 p.2 { s with picked := rest }
  | [], i :: rest => exec i { s with agenda := rest }
  | [], [] => .next s.tick

/-- `s` with an instruction's words where the very next step fetches and issues it (log entry 23, DESIGN CHOICE). -/
def State.withFetchWord (s : State) (nbits w : Nat) : State := s.armed (tableBytes nbits w)

end Sys2Proof.Machine
end

