-- ==== Sys2Proof/Laws/Enc.lean ====
section
/-! SUPPORT. Encoding and decoding agree, slot by slot: codes and their inverses, slot words and their fields, bundles of one
slot. -/

namespace Sys2Proof.Machine

@[simp] theorem tyOf_tyCode (t : Ty) : tyOf (tyCode t) = t := by cases t <;> rfl
@[simp] theorem rmOf_rmCode (m : Rm) : rmOf (rmCode m) = m := by cases m <;> rfl
@[simp] theorem scopeOf_scopeCode (x : Scope) : scopeOf (scopeCode x) = x := by cases x <;> rfl
@[simp] theorem ordOf_ordCode (x : Order) : ordOf (ordCode x) = x := by cases x <;> rfl
@[simp] theorem atomOf_atomCode (x : AtomOp) : atomOf (atomCode x) = x := by cases x <;> rfl
@[simp] theorem condOf_condCode (x : Cond) : condOf (condCode x) = x := by cases x <;> rfl
@[simp] theorem voteOf_voteCode (x : VoteMode) : voteOf (voteCode x) = x := by cases x <;> rfl
@[simp] theorem redOf_redCode (x : RedOp) : redOf (redCode x) = x := by cases x <;> rfl

theorem tyCode_lt (t : Ty) : tyCode t < 16 := by cases t <;> decide
theorem rmCode_lt (m : Rm) : rmCode m < 5 := by cases m <;> decide
theorem scopeCode_lt (x : Scope) : scopeCode x < 6 := by cases x <;> decide
theorem ordCode_lt (x : Order) : ordCode x < 4 := by cases x <;> decide
theorem atomCode_lt (x : AtomOp) : atomCode x < 11 := by cases x <;> decide
theorem condCode_lt (x : Cond) : condCode x < 8 := by cases x <;> decide
theorem voteCode_lt (x : VoteMode) : voteCode x < 3 := by cases x <;> decide
theorem redCode_lt (x : RedOp) : redCode x < 6 := by cases x <;> decide
theorem boolNat_lt (b : Bool) : b.toNat < 2 := by cases b <;> decide

@[simp] theorem bitB_toNat (b : Bool) : bitB b.toNat = b := by cases b <;> rfl

theorem guardCode_lt (g : Guard) : guardCode g < 64 := by
  have := g.p.isLt
  have := boolNat_lt g.neg
  simp only [guardCode]; omega

@[simp] theorem guardOf_guardCode (g : Guard) : guardOf (guardCode g) = g := by
  obtain ⟨p, n⟩ := g
  have := p.isLt
  cases n <;> (simp [guardOf, guardCode, Fin.ext_iff]; try omega)

theorem kCode_lt (k : KRef) : kCode k < 16 := by
  have := k.k.isLt
  have := boolNat_lt k.valid
  simp only [kCode]; omega

@[simp] theorem kOf_kCode (k : KRef) : kOf (kCode k) = k := by
  obtain ⟨v, n⟩ := k
  have := n.isLt
  cases v <;> (simp [kOf, kCode, Fin.ext_iff]; omega)

theorem opdCode_lt (o : Opd) : opdCode o < 1024 := by
  cases o with
  | v n => have := n.isLt; simp only [opdCode]; omega
  | s n => have := n.isLt; simp only [opdCode]; omega
  | l0 => decide
  | l1 => decide
  | q => decide
  | idx n => have := n.isLt; simp only [opdCode]; omega
  | imm i => have := i.isLt; simp only [opdCode]; omega

@[simp] theorem opdOf_opdCode (o : Opd) : opdOf (opdCode o) = o := by
  cases o with
  | v n => have := n.isLt; simp [opdCode, opdOf]
  | s n =>
    have := n.isLt
    show opdOf (0x100 + n) = _
    unfold opdOf
    rw [if_neg (by omega), if_pos (by omega)]
    simp
  | l0 => rfl
  | l1 => rfl
  | q => rfl
  | idx n =>
    have := n.isLt
    show opdOf (0x148 + n) = _
    unfold opdOf
    simp (disch := omega) only [if_neg, if_pos]
    simp
  | imm i =>
    have := i.isLt
    show opdOf (0x200 + i.toNat) = _
    unfold opdOf
    simp (disch := omega) only [if_neg]
    simp

/-- Every field fits its width (R88). -/
def RawV.fits (r : RawV) : Prop :=
  r.op < 256 ∧ r.ty < 16 ∧ r.rm < 8 ∧ r.sat < 2 ∧ r.g < 64 ∧ r.d < 256 ∧ r.a < 1024 ∧ r.b < 1024 ∧ r.c < 1024 ∧ r.xm < 16

/-- Every field fits its width (R90). -/
def RawM.fits (r : RawM) : Prop :=
  r.op < 256 ∧ r.ty < 16 ∧ r.scope < 8 ∧ r.ord < 4 ∧ r.g < 64 ∧ r.data < 1024 ∧ r.base < 64 ∧ r.index < 1024 ∧ r.aux < 4096
    ∧ r.ro < 2 ∧ r.sc < 4

/-- Every field fits its width (R91). -/
def RawX.fits (r : RawX) : Prop :=
  r.op < 64 ∧ r.g < 64 ∧ r.flag < 16 ∧ r.fe < 2 ∧ r.sx < 64 ∧ r.sy < 64 ∧ r.sz < 64 ∧ r.va < 256 ∧ r.zt < 16 ∧ r.zu < 16
    ∧ r.mx < 8192

/-- Every field fits its width, and EXT is there only with LONG (R91). -/
def RawC.fits (r : RawC) : Prop :=
  r.op < 64 ∧ r.g < 64 ∧ r.body < 2 ^ 20 ∧ r.ext < 2 ^ 32 ∧ (r.long = false → r.ext = 0)

theorem splitV_joinV (r : RawV) (h : r.fits) : splitV (joinV r) = r := by
  obtain ⟨op, ty, rm, sat, g, d, a, b, c, xm⟩ := r
  simp only [RawV.fits] at h
  simp only [splitV, joinV, fld, RawV.mk.injEq]
  refine ⟨?_, ?_, ?_, ?_, ?_, ?_, ?_, ?_, ?_, ?_⟩ <;> omega

theorem splitM_joinM (r : RawM) (h : r.fits) : splitM (joinM r) = r := by
  obtain ⟨op, ty, scope, ord, g, data, base, index, aux, ro, sc⟩ := r
  simp only [RawM.fits] at h
  simp only [splitM, joinM, fld, RawM.mk.injEq]
  refine ⟨?_, ?_, ?_, ?_, ?_, ?_, ?_, ?_, ?_, ?_, ?_⟩ <;> omega

theorem splitX_joinX (r : RawX) (h : r.fits) : splitX (joinX r) = r := by
  obtain ⟨op, g, flag, fe, sx, sy, sz, va, zt, zu, mx⟩ := r
  simp only [RawX.fits] at h
  simp only [splitX, joinX, fld, RawX.mk.injEq]
  refine ⟨?_, ?_, ?_, ?_, ?_, ?_, ?_, ?_, ?_, ?_, ?_⟩ <;> omega

theorem splitC_joinC (r : RawC) (h : r.fits) : splitC (joinC r) r.long r.ext = r := by
  obtain ⟨op, g, body, long, ext⟩ := r
  simp only [RawC.fits] at h
  simp only [splitC, joinC, fld, RawC.mk.injEq, true_and]
  refine ⟨?_, ?_, ?_, ?_⟩
  · omega
  · omega
  · omega
  · cases long
    · simp [h.2.2.2.2 rfl]
    · rfl

theorem joinV_lt (r : RawV) (h : r.fits) : joinV r < 2 ^ 64 := by
  obtain ⟨op, ty, rm, sat, g, d, a, b, c, xm⟩ := r
  simp only [RawV.fits] at h
  simp only [joinV]; omega

theorem joinM_lt (r : RawM) (h : r.fits) : joinM r < 2 ^ 64 := by
  obtain ⟨op, ty, scope, ord, g, data, base, index, aux, ro, sc⟩ := r
  simp only [RawM.fits] at h
  simp only [joinM]; omega

theorem joinX_lt (r : RawX) (h : r.fits) : joinX r < 2 ^ 64 := by
  obtain ⟨op, g, flag, fe, sx, sy, sz, va, zt, zu, mx⟩ := r
  simp only [RawX.fits] at h
  simp only [joinX]; omega

/-- Fields that an instruction's own encoding gives back decode to it. -/
theorem decodeV_raw {i : Instr} {r : RawV} (hc : candV r = some i) (hr : rawV i = some r) (hl : legalErrs i = []) :
    decodeV r = .ok i := by
  simp [decodeV, errsOfV, hc, hr, hl, lostV, chk, judge, least]

theorem decodeM_raw {i : Instr} {r : RawM} (hc : candM r = some i) (hr : rawM i = some r) (hl : legalErrs i = []) :
    decodeM r = .ok i := by
  simp [decodeM, errsOfM, hc, hr, hl, lostM, chk, judge, least]

theorem decodeX_raw {i : Instr} {r : RawX} (hc : candX r = some i) (hr : rawX i = some r) (hl : legalErrs i = []) :
    decodeX r = .ok i := by
  simp [decodeX, errsOfX, hc, hr, hl, lostX, chk, judge, least]

theorem decodeC_raw {i : Instr} {r : RawC} (hc : candC r = some i) (hr : rawC i = some r) (hl : legalErrs i = []) :
    decodeC r = .ok i := by
  simp [decodeC, errsOfC, hc, hr, hl, lostC, chk, judge, least]

theorem wf_legal {i : Instr} (h : i.wf = true) : legalErrs i = [] := by simpa [Instr.wf] using h

/-- A 64-bit slot's two words give it back (R78). -/
theorem slot64_words64 (h w : Nat) (hw : w < 2 ^ 64) : slot64 (h :: words64 w) 1 = w := by
  simp [slot64, words64]; omega

/-- What decoding gives back: the one instruction of the bundle. -/
def Decodes (i : Instr) : Prop := ∃ b, decodeBundle (soloWords i) = .ok b ∧ b.instrs = [i]

theorem decodes_v {i : Instr} {r : RawV} (hw : i.wf = true) (hc : candV r = some i) (hr : rawV i = some r) (hf : r.fits) :
    Decodes i := by
  have hd := decodeV_raw hc hr (wf_legal hw)
  have hs : soloWords i = 0x80000000 :: words64 (joinV r) := by
    simp [soloWords, slotOf, encode, hr, encodeHeader]
  refine ⟨⟨splitH 0x80000000, some i, none, none, none⟩, ?_, ?_⟩
  · have hb : splitBundle (soloWords i) = ⟨splitH 0x80000000, 0x80000000, some r, none, none, none⟩ := by
      rw [hs]
      simp [splitBundle, show splitH 0x80000000 = ⟨true, false, false, false, 0, 0, false, false, 0, false, false, false, false, 0⟩ from rfl,
        slot64_words64 _ _ (joinV_lt r hf), splitV_joinV r hf]
    simp [decodeBundle, hb, hd, decodeSlot, show (splitH 0x80000000).ok = true from rfl]
  · simp [Bundle.instrs, show (splitH 0x80000000).empty = false from rfl]

theorem decodes_m {i : Instr} {r : RawM} (hw : i.wf = true) (hv : rawV i = none) (hc : candM r = some i) (hr : rawM i = some r)
    (hf : r.fits) : Decodes i := by
  have hd := decodeM_raw hc hr (wf_legal hw)
  have hs : soloWords i = 0x40000000 :: words64 (joinM r) := by
    simp [soloWords, slotOf, encode, hv, hr, encodeHeader]
  refine ⟨⟨splitH 0x40000000, none, some i, none, none⟩, ?_, ?_⟩
  · have hb : splitBundle (soloWords i) = ⟨splitH 0x40000000, 0x40000000, none, some r, none, none⟩ := by
      rw [hs]
      simp [splitBundle, show splitH 0x40000000 = ⟨false, true, false, false, 0, 0, false, false, 0, false, false, false, false, 0⟩ from rfl,
        slot64_words64 _ _ (joinM_lt r hf), splitM_joinM r hf]
    simp [decodeBundle, hb, hd, decodeSlot, show (splitH 0x40000000).ok = true from rfl]
  · simp [Bundle.instrs, show (splitH 0x40000000).empty = false from rfl]

theorem decodes_x {i : Instr} {r : RawX} (hw : i.wf = true) (hv : rawV i = none) (hm : rawM i = none) (hc : candX r = some i)
    (hr : rawX i = some r) (hf : r.fits) : Decodes i := by
  have hd := decodeX_raw hc hr (wf_legal hw)
  have hs : soloWords i = 0x20000000 :: words64 (joinX r) := by
    simp [soloWords, slotOf, encode, hv, hm, hr, encodeHeader]
  refine ⟨⟨splitH 0x20000000, none, none, some i, none⟩, ?_, ?_⟩
  · have hb : splitBundle (soloWords i) = ⟨splitH 0x20000000, 0x20000000, none, none, some r, none⟩ := by
      rw [hs]
      simp [splitBundle, show splitH 0x20000000 = ⟨false, false, true, false, 0, 0, false, false, 0, false, false, false, false, 0⟩ from rfl,
        slot64_words64 _ _ (joinX_lt r hf), splitX_joinX r hf]
    simp [decodeBundle, hb, hd, decodeSlot, show (splitH 0x20000000).ok = true from rfl]
  · simp [Bundle.instrs, show (splitH 0x20000000).empty = false from rfl]

theorem decodes_c {i : Instr} {r : RawC} (hw : i.wf = true) (hv : rawV i = none) (hm : rawM i = none) (hx : rawX i = none)
    (hc : candC r = some i) (hr : rawC i = some r) (hf : r.fits) : Decodes i := by
  have hd := decodeC_raw hc hr (wf_legal hw)
  obtain ⟨op, g, body, long, ext⟩ := r
  have hj := splitC_joinC _ hf
  cases long with
  | false =>
    have he : ext = 0 := hf.2.2.2.2 rfl
    subst he
    have hs : soloWords i = [0x10000000, joinC ⟨op, g, body, false, 0⟩] := by
      simp [soloWords, slotOf, encode, hv, hm, hx, hr, encodeHeader]
    refine ⟨⟨splitH 0x10000000, none, none, none, some i⟩, ?_, ?_⟩
    · have hb : splitBundle (soloWords i) = ⟨splitH 0x10000000, 0x10000000, none, none, none, some ⟨op, g, body, false, 0⟩⟩ := by
        rw [hs]
        simpa [splitBundle, show splitH 0x10000000 = ⟨false, false, false, true, 0, 0, false, false, 0, false, false, false, false, 0⟩ from rfl]
          using hj
      simp [decodeBundle, hb, hd, decodeSlot, show (splitH 0x10000000).ok = true from rfl]
    · simp [Bundle.instrs, show (splitH 0x10000000).empty = false from rfl]
  | true =>
    have hs : soloWords i = [0x10000100, joinC ⟨op, g, body, true, ext⟩, ext] := by
      simp [soloWords, slotOf, encode, hv, hm, hx, hr, encodeHeader]
    refine ⟨⟨splitH 0x10000100, none, none, none, some i⟩, ?_, ?_⟩
    · have hb : splitBundle (soloWords i) = ⟨splitH 0x10000100, 0x10000100, none, none, none, some ⟨op, g, body, true, ext⟩⟩ := by
        rw [hs]
        simpa [splitBundle, show splitH 0x10000100 = ⟨false, false, false, true, 0, 0, false, false, 0, false, false, false, true, 0⟩ from rfl]
          using hj
      simp [decodeBundle, hb, hd, decodeSlot, show (splitH 0x10000100).ok = true from rfl]
    · simp [Bundle.instrs, show (splitH 0x10000100).empty = false from rfl]

theorem fits_rawV1 (op : Nat) (o : V1) (h : op < 256) : (rawV1 op o).fits := by
  have := tyCode_lt o.ty; have := rmCode_lt o.rm; have := boolNat_lt o.sat; have := guardCode_lt o.g; have := opdCode_lt o.a
  have := o.d.isLt
  simp only [RawV.fits, rawV1]; omega

theorem fits_rawV2 (op : Nat) (o : V2) (h : op < 256) : (rawV2 op o).fits := by
  have := tyCode_lt o.ty; have := rmCode_lt o.rm; have := boolNat_lt o.sat; have := guardCode_lt o.g; have := opdCode_lt o.a
  have := opdCode_lt o.b; have := o.d.isLt
  simp only [RawV.fits, rawV2]; omega

theorem fits_rawV3 (op : Nat) (o : V3) (h : op < 256) : (rawV3 op o).fits := by
  have := tyCode_lt o.ty; have := rmCode_lt o.rm; have := boolNat_lt o.sat; have := guardCode_lt o.g; have := opdCode_lt o.a
  have := opdCode_lt o.b; have := opdCode_lt o.c; have := o.d.isLt
  simp only [RawV.fits, rawV3]; omega

/-- The fields of a scalar instruction: its registers and its second source (R139). -/
theorem fits_scalar (op d a : Nat) (b : SSrc) (ho : op < 64) (hd : d < 64) (ha : a < 64) : (rawScalar op d a b).fits := by
  have : guardCode guardAll = 62 := rfl
  cases b with
  | reg b => have := b.isLt; simp [RawC.fits, rawScalar]; omega
  | imm i => have := i.isLt; simp [RawC.fits, rawScalar]; omega
  | ext i => have := i.isLt; simp [RawC.fits, rawScalar]; omega

theorem finAt {n : Nat} [NeZero n] (x : Fin n) (e : Nat) (h : e % n = x.val) : Fin.ofNat n e = x := Fin.ext (by simpa using h)
theorem ofNat_val {n : Nat} [NeZero n] (x : Fin n) : Fin.ofNat n x.val = x := finAt x _ (Nat.mod_eq_of_lt x.isLt)
theorem bvAt {n : Nat} (x : BitVec n) (e : Nat) (h : e % 2 ^ n = x.toNat) : BitVec.ofNat n e = x :=
  BitVec.eq_of_toNat_eq (by simpa using h)
theorem bitAt (b : Bool) (e : Nat) (h : e % 2 = b.toNat) : bitB e = b := by cases b <;> simp_all [bitB]

theorem scalarSrc_reg {r : RawC} (h : r.long = false) (hb : bitB (r.body / 2 ^ 7) = false) : scalarSrc r = .reg (sAt r 0) := by
  rw [scalarSrc, if_neg (by simp [h]), if_neg (by rw [hb]; decide)]
theorem scalarSrc_imm {r : RawC} (h : r.long = false) (hb : bitB (r.body / 2 ^ 7) = true) :
    scalarSrc r = .imm (BitVec.ofNat 7 r.body) := by
  rw [scalarSrc, if_neg (by simp [h]), if_pos hb]
theorem scalarSrc_ext {r : RawC} (h : r.long = true) : scalarSrc r = .ext (BitVec.ofNat 32 r.ext) := by simp [scalarSrc, h]

theorem src16_reg {r : RawC} {k : Nat} (h : bitB (r.body / 2 ^ k) = true) : src16 r k = .reg (sAt r 0) := if_pos h
theorem src16_imm {r : RawC} {k : Nat} (h : bitB (r.body / 2 ^ k) = false) : src16 r k = .imm (BitVec.ofNat 16 r.body) :=
  if_neg (by rw [h]; decide)
theorem loopCount_reg {r : RawC} (h : bitB (r.body / 2 ^ 16) = false) : loopCount r = .reg (sAt r 0) := if_neg (by rw [h]; decide)
theorem loopCount_imm {r : RawC} (h : bitB (r.body / 2 ^ 16) = true) (hl : r.long = false) :
    loopCount r = .imm (BitVec.ofNat 16 r.body) := by
  rw [loopCount, if_pos h, if_neg (by simp [hl])]
theorem loopCount_ext {r : RawC} (h : bitB (r.body / 2 ^ 16) = true) (hl : r.long = true) :
    loopCount r = .ext (BitVec.ofNat 32 r.ext) := by
  rw [loopCount, if_pos h, if_pos hl]

/-- The second source of a scalar instruction is read back (R139). -/
theorem scalarSrc_raw (op d a : Nat) (b : SSrc) : scalarSrc (rawScalar op d a b) = b := by
  cases b with
  | reg b =>
    have := b.isLt
    rw [scalarSrc_reg rfl (bitAt false _ (by simp only [rawScalar, Bool.toNat_false]; omega))]
    exact congrArg _ (finAt b _ (by simp only [rawScalar]; omega))
  | imm i =>
    have := i.isLt
    rw [scalarSrc_imm rfl (bitAt true _ (by simp only [rawScalar, Bool.toNat_true]; omega))]
    exact congrArg _ (bvAt i _ (by simp only [rawScalar]; omega))
  | ext i =>
    rw [scalarSrc_ext rfl]
    exact congrArg _ (bvAt i _ (Nat.mod_eq_of_lt i.isLt))

theorem sAt_rawScalar (op : Nat) (d a : Fin 64) (b : SSrc) :
    sAt (rawScalar op d a b) 14 = d ∧ sAt (rawScalar op d a b) 8 = a := by
  have := d.isLt; have := a.isLt
  cases b with
  | reg b => have := b.isLt; exact ⟨finAt _ _ (by simp only [rawScalar]; omega), finAt _ _ (by simp only [rawScalar]; omega)⟩
  | imm i => have := i.isLt; exact ⟨finAt _ _ (by simp only [rawScalar]; omega), finAt _ _ (by simp only [rawScalar]; omega)⟩
  | ext i => exact ⟨finAt _ _ (by simp only [rawScalar]; omega), finAt _ _ (by simp only [rawScalar]; omega)⟩

theorem rawScalar_op (op d a : Nat) (b : SSrc) : (rawScalar op d a b).op = op := by cases b <;> rfl

/-- A scalar instruction's fields are read back (R139). -/
theorem scalar_raw (op : Nat) (o : SBin) :
    (⟨sAt (rawScalar op o.d o.a o.b) 14, sAt (rawScalar op o.d o.a o.b) 8, scalarSrc (rawScalar op o.d o.a o.b)⟩ : SBin) = o := by
  rw [(sAt_rawScalar op o.d o.a o.b).1, (sAt_rawScalar op o.d o.a o.b).2, scalarSrc_raw]

theorem soloWords_emptyRun (gap : Fin 16) (run : Fin 64) (regang check : Bool) : soloWords (.emptyRun gap run regang check)
    = [(gap : Nat) * 2 ^ 24 + (run : Nat) * 2 ^ 18 + regang.toNat * 2 ^ 17 + check.toNat * 2 ^ 16] := by
  simp only [soloWords, slotOf, encode, rawV, rawM, rawX, rawC]

/-- The header of an empty run (R82, R85). -/
theorem splitH_emptyRun (gap run : Nat) (hg : gap < 16) (hr : run < 64) (regang check : Bool) :
    splitH (gap * 2 ^ 24 + run * 2 ^ 18 + regang.toNat * 2 ^ 17 + check.toNat * 2 ^ 16)
      = ⟨false, false, false, false, gap, run, regang, check, 0, false, false, false, false, 0⟩ := by
  have := boolNat_lt regang; have := boolNat_lt check
  simp only [splitH, fld, Header.mk.injEq]
  refine ⟨bitAt _ _ ?_, bitAt _ _ ?_, bitAt _ _ ?_, bitAt _ _ ?_, ?_, ?_, bitAt _ _ ?_, bitAt _ _ ?_, ?_, bitAt _ _ ?_, bitAt _ _ ?_,
    bitAt _ _ ?_, bitAt _ _ ?_, ?_⟩ <;> (try simp only [Bool.toNat_false]) <;> omega

/-- A bundle of a header alone (R85). -/
theorem decodeBundle_alone (w gap run : Nat) (regang check : Bool)
    (h : splitH w = ⟨false, false, false, false, gap, run, regang, check, 0, false, false, false, false, 0⟩) :
    decodeBundle [w] = .ok ⟨⟨false, false, false, false, gap, run, regang, check, 0, false, false, false, false, 0⟩,
      none, none, none, none⟩ := by
  simp [decodeBundle, splitBundle, h, decodeSlot, Header.ok, Header.empty]

/-- An empty run decodes to itself. -/
theorem decodes_emptyRun (gap : Fin 16) (run : Fin 64) (regang check : Bool) : Decodes (.emptyRun gap run regang check) :=
  ⟨_, (congrArg decodeBundle (soloWords_emptyRun gap run regang check)).trans
      (decodeBundle_alone _ _ _ _ _ (splitH_emptyRun gap run gap.isLt run.isLt regang check)),
    by simp [Bundle.instrs, Header.empty, -Fin.ofNat_eq_cast]⟩

end Sys2Proof.Machine
end

