-- ==== Sys2Proof/Laws/PerInstr.lean ====
section
/-! SUPPORT. The encoding family, one lemma per constructor of `Instr`: a well-formed code instruction, alone in a bundle, decodes
to itself. An event of the device has no code words. -/

namespace Sys2Proof.Laws.Enc

open Sys2Proof.Machine

set_option Elab.async false
set_option linter.unusedSimpArgs false

/-- A well-formed instruction of a slot, encoded in a bundle of its own, is what the decoder reads back. -/
def Statement (i : Instr) : Prop := i.wf = true → slotOf i ≠ none → Decodes i

theorem emptyRun (gap : Fin 16) (run : Fin 64) (regang check : Bool) : Statement (.emptyRun gap run regang check) := fun _ _ => decodes_emptyRun gap run regang check
theorem vadd (o : V2) : Statement (.vadd o) := fun hw _ => decodes_v hw (hr := rfl) (by simp [candV, rawV2]) (fits_rawV2 _ _ (by decide))
theorem vsub (o : V2) : Statement (.vsub o) := fun hw _ => decodes_v hw (hr := rfl) (by simp [candV, rawV2]) (fits_rawV2 _ _ (by decide))
theorem vmul (o : V2) : Statement (.vmul o) := fun hw _ => decodes_v hw (hr := rfl) (by simp [candV, rawV2]) (fits_rawV2 _ _ (by decide))
theorem vmulh (o : V2) : Statement (.vmulh o) := fun hw _ => decodes_v hw (hr := rfl) (by simp [candV, rawV2]) (fits_rawV2 _ _ (by decide))
theorem vmad (o : V3) : Statement (.vmad o) := fun hw _ => decodes_v hw (hr := rfl) (by simp [candV, rawV3]) (fits_rawV3 _ _ (by decide))
theorem vmin (o : V2) : Statement (.vmin o) := fun hw _ => decodes_v hw (hr := rfl) (by simp [candV, rawV2]) (fits_rawV2 _ _ (by decide))
theorem vmax (o : V2) : Statement (.vmax o) := fun hw _ => decodes_v hw (hr := rfl) (by simp [candV, rawV2]) (fits_rawV2 _ _ (by decide))
theorem vabs (o : V1) : Statement (.vabs o) := fun hw _ => decodes_v hw (hr := rfl) (by simp [candV, rawV1]) (fits_rawV1 _ _ (by decide))
theorem vneg (o : V1) : Statement (.vneg o) := fun hw _ => decodes_v hw (hr := rfl) (by simp [candV, rawV1]) (fits_rawV1 _ _ (by decide))
theorem vand (o : V2) : Statement (.vand o) := fun hw _ => decodes_v hw (hr := rfl) (by simp [candV, rawV2]) (fits_rawV2 _ _ (by decide))
theorem vor (o : V2) : Statement (.vor o) := fun hw _ => decodes_v hw (hr := rfl) (by simp [candV, rawV2]) (fits_rawV2 _ _ (by decide))
theorem vxor (o : V2) : Statement (.vxor o) := fun hw _ => decodes_v hw (hr := rfl) (by simp [candV, rawV2]) (fits_rawV2 _ _ (by decide))
theorem vnot (o : V1) : Statement (.vnot o) := fun hw _ => decodes_v hw (hr := rfl) (by simp [candV, rawV1]) (fits_rawV1 _ _ (by decide))
theorem vshl (o : V2) : Statement (.vshl o) := fun hw _ => decodes_v hw (hr := rfl) (by simp [candV, rawV2]) (fits_rawV2 _ _ (by decide))
theorem vshr (o : V2) : Statement (.vshr o) := fun hw _ => decodes_v hw (hr := rfl) (by simp [candV, rawV2]) (fits_rawV2 _ _ (by decide))
theorem vrot (o : V2) : Statement (.vrot o) := fun hw _ => decodes_v hw (hr := rfl) (by simp [candV, rawV2]) (fits_rawV2 _ _ (by decide))
theorem vbfx (o : V2) : Statement (.vbfx o) := fun hw _ => decodes_v hw (hr := rfl) (by simp [candV, rawV2]) (fits_rawV2 _ _ (by decide))
theorem vbfi (o : V3) : Statement (.vbfi o) := fun hw _ => decodes_v hw (hr := rfl) (by simp [candV, rawV3]) (fits_rawV3 _ _ (by decide))
theorem vpopc (o : V1) : Statement (.vpopc o) := fun hw _ => decodes_v hw (hr := rfl) (by simp [candV, rawV1]) (fits_rawV1 _ _ (by decide))
theorem vclz (o : V1) : Statement (.vclz o) := fun hw _ => decodes_v hw (hr := rfl) (by simp [candV, rawV1]) (fits_rawV1 _ _ (by decide))
theorem vbrev (o : V1) : Statement (.vbrev o) := fun hw _ => decodes_v hw (hr := rfl) (by simp [candV, rawV1]) (fits_rawV1 _ _ (by decide))
theorem vfadd (o : V2) : Statement (.vfadd o) := fun hw _ => decodes_v hw (hr := rfl) (by simp [candV, rawV2]) (fits_rawV2 _ _ (by decide))
theorem vfsub (o : V2) : Statement (.vfsub o) := fun hw _ => decodes_v hw (hr := rfl) (by simp [candV, rawV2]) (fits_rawV2 _ _ (by decide))
theorem vfmul (o : V2) : Statement (.vfmul o) := fun hw _ => decodes_v hw (hr := rfl) (by simp [candV, rawV2]) (fits_rawV2 _ _ (by decide))
theorem vfma (o : V3) : Statement (.vfma o) := fun hw _ => decodes_v hw (hr := rfl) (by simp [candV, rawV3]) (fits_rawV3 _ _ (by decide))
theorem vfmin (o : V2) : Statement (.vfmin o) := fun hw _ => decodes_v hw (hr := rfl) (by simp [candV, rawV2]) (fits_rawV2 _ _ (by decide))
theorem vfmax (o : V2) : Statement (.vfmax o) := fun hw _ => decodes_v hw (hr := rfl) (by simp [candV, rawV2]) (fits_rawV2 _ _ (by decide))
theorem vfabs (o : V1) : Statement (.vfabs o) := fun hw _ => decodes_v hw (hr := rfl) (by simp [candV, rawV1]) (fits_rawV1 _ _ (by decide))
theorem vfneg (o : V1) : Statement (.vfneg o) := fun hw _ => decodes_v hw (hr := rfl) (by simp [candV, rawV1]) (fits_rawV1 _ _ (by decide))
theorem vrcp (o : V1) : Statement (.vrcp o) := fun hw _ => decodes_v hw (hr := rfl) (by simp [candV, rawV1]) (fits_rawV1 _ _ (by decide))
theorem vrsq (o : V1) : Statement (.vrsq o) := fun hw _ => decodes_v hw (hr := rfl) (by simp [candV, rawV1]) (fits_rawV1 _ _ (by decide))
theorem vsqrt (o : V1) : Statement (.vsqrt o) := fun hw _ => decodes_v hw (hr := rfl) (by simp [candV, rawV1]) (fits_rawV1 _ _ (by decide))
theorem vexp2 (o : V1) : Statement (.vexp2 o) := fun hw _ => decodes_v hw (hr := rfl) (by simp [candV, rawV1]) (fits_rawV1 _ _ (by decide))
theorem vlog2 (o : V1) : Statement (.vlog2 o) := fun hw _ => decodes_v hw (hr := rfl) (by simp [candV, rawV1]) (fits_rawV1 _ _ (by decide))
theorem vsin (o : V1) : Statement (.vsin o) := fun hw _ => decodes_v hw (hr := rfl) (by simp [candV, rawV1]) (fits_rawV1 _ _ (by decide))
theorem vcos (o : V1) : Statement (.vcos o) := fun hw _ => decodes_v hw (hr := rfl) (by simp [candV, rawV1]) (fits_rawV1 _ _ (by decide))
theorem vtanh (o : V1) : Statement (.vtanh o) := fun hw _ => decodes_v hw (hr := rfl) (by simp [candV, rawV1]) (fits_rawV1 _ _ (by decide))
theorem vcmp (o : VCmp) : Statement (.vcmp o) := fun hw _ => by
  have := tyCode_lt o.ty; have := guardCode_lt o.g; have := o.pd.isLt; have := opdCode_lt o.a; have := opdCode_lt o.b; have := condCode_lt o.cc; have := boolNat_lt o.h1
  have e0 : (condCode o.cc + 8 * o.h1.toNat) % 8 = condCode o.cc := by omega
  have e1 := bitAt o.h1 ((condCode o.cc + 8 * o.h1.toNat) / 8) (by omega)
  exact decodes_v hw (hr := rfl) (by simp only [candV, tyOf_tyCode, rmOf_rmCode, scopeOf_scopeCode, ordOf_ordCode, atomOf_atomCode, condOf_condCode, voteOf_voteCode, redOf_redCode, bitB_toNat, guardOf_guardCode, kOf_kCode, opdOf_opdCode, BitVec.ofNat_toNat, BitVec.setWidth_eq, ofNat_val, e0, e1]) (by simp [RawV.fits, show guardCode guardAll = 62 from rfl]; try omega)
theorem vsel (o : VSel) : Statement (.vsel o) := fun hw _ => by
  have := tyCode_lt o.ty; have := guardCode_lt o.g; have := o.d.isLt; have := opdCode_lt o.a; have := opdCode_lt o.b; have := o.pc.isLt; have := boolNat_lt o.neg
  have e0 := finAt o.pc (o.pc + 32 * o.neg.toNat) (by omega)
  have e1 := bitAt o.neg ((o.pc + 32 * o.neg.toNat) / 32) (by omega)
  exact decodes_v hw (hr := rfl) (by simp only [candV, tyOf_tyCode, rmOf_rmCode, scopeOf_scopeCode, ordOf_ordCode, atomOf_atomCode, condOf_condCode, voteOf_voteCode, redOf_redCode, bitB_toNat, guardOf_guardCode, kOf_kCode, opdOf_opdCode, BitVec.ofNat_toNat, BitVec.setWidth_eq, ofNat_val, e0, e1]) (by simp [RawV.fits, show guardCode guardAll = 62 from rfl]; try omega)
theorem vmov (o : V1) : Statement (.vmov o) := fun hw _ => decodes_v hw (hr := rfl) (by simp [candV, rawV1]) (fits_rawV1 _ _ (by decide))
theorem vcvt (o : VCvt) : Statement (.vcvt o) := fun hw _ => by
  have := tyCode_lt o.dt; have := tyCode_lt o.st; have := rmCode_lt o.rm; have := boolNat_lt o.sat; have := guardCode_lt o.g; have := o.d.isLt; have := opdCode_lt o.a
  exact decodes_v hw (hr := rfl) (by simp only [candV, tyOf_tyCode, rmOf_rmCode, scopeOf_scopeCode, ordOf_ordCode, atomOf_atomCode, condOf_condCode, voteOf_voteCode, redOf_redCode, bitB_toNat, guardOf_guardCode, kOf_kCode, opdOf_opdCode, BitVec.ofNat_toNat, BitVec.setWidth_eq, ofNat_val]) (by simp [RawV.fits, show guardCode guardAll = 62 from rfl]; try omega)
theorem vpack (o : VPack) : Statement (.vpack o) := fun hw _ => by
  have := tyCode_lt o.dt; have := tyCode_lt o.st; have := rmCode_lt o.rm; have := boolNat_lt o.sat; have := guardCode_lt o.g; have := o.d.isLt; have := opdCode_lt o.a; have := opdCode_lt o.b; have := opdCode_lt o.c
  exact decodes_v hw (hr := rfl) (by simp only [candV, tyOf_tyCode, rmOf_rmCode, scopeOf_scopeCode, ordOf_ordCode, atomOf_atomCode, condOf_condCode, voteOf_voteCode, redOf_redCode, bitB_toNat, guardOf_guardCode, kOf_kCode, opdOf_opdCode, BitVec.ofNat_toNat, BitVec.setWidth_eq, ofNat_val]) (by simp [RawV.fits, show guardCode guardAll = 62 from rfl]; try omega)
theorem vunpk (o : VUnpk) : Statement (.vunpk o) := fun hw _ => by
  have := tyCode_lt o.dt; have := tyCode_lt o.st; have := rmCode_lt o.rm; have := boolNat_lt o.sat; have := guardCode_lt o.g; have := o.d.isLt; have := opdCode_lt o.a; have := opdCode_lt o.j; have := opdCode_lt o.h
  exact decodes_v hw (hr := rfl) (by simp only [candV, tyOf_tyCode, rmOf_rmCode, scopeOf_scopeCode, ordOf_ordCode, atomOf_atomCode, condOf_condCode, voteOf_voteCode, redOf_redCode, bitB_toNat, guardOf_guardCode, kOf_kCode, opdOf_opdCode, BitVec.ofNat_toNat, BitVec.setWidth_eq, ofNat_val]) (by simp [RawV.fits, show guardCode guardAll = 62 from rfl]; try omega)
theorem vqnt (o : VQnt) : Statement (.vqnt o) := fun hw _ => by
  have := rmCode_lt o.rm; have := guardCode_lt o.g; have := o.d.isLt; have := opdCode_lt o.a; have := boolNat_lt o.k32
  exact decodes_v hw (hr := rfl) (by simp only [candV, tyOf_tyCode, rmOf_rmCode, scopeOf_scopeCode, ordOf_ordCode, atomOf_atomCode, condOf_condCode, voteOf_voteCode, redOf_redCode, bitB_toNat, guardOf_guardCode, kOf_kCode, opdOf_opdCode, BitVec.ofNat_toNat, BitVec.setWidth_eq, ofNat_val]) (by simp [RawV.fits, show guardCode guardAll = 62 from rfl]; try omega)
theorem vote (o : VVote) : Statement (.vote o) := fun hw _ => by
  have := voteCode_lt o.mode; have := guardCode_lt o.g; have := o.pd.isLt; have := o.pa.isLt; have := boolNat_lt o.neg
  have e0 := finAt o.pa (o.pa + 32 * o.neg.toNat) (by omega)
  have e1 := bitAt o.neg ((o.pa + 32 * o.neg.toNat) / 32) (by omega)
  exact decodes_v hw (hr := rfl) (by simp only [candV, tyOf_tyCode, rmOf_rmCode, scopeOf_scopeCode, ordOf_ordCode, atomOf_atomCode, condOf_condCode, voteOf_voteCode, redOf_redCode, bitB_toNat, guardOf_guardCode, kOf_kCode, opdOf_opdCode, BitVec.ofNat_toNat, BitVec.setWidth_eq, ofNat_val, e0, e1]) (by simp [RawV.fits, show guardCode guardAll = 62 from rfl]; try omega)
theorem vballot (o : VBallot) : Statement (.vballot o) := fun hw _ => by
  have := guardCode_lt o.g; have := o.sd.isLt; have := o.pa.isLt; have := boolNat_lt o.neg
  have e0 := finAt o.pa (o.pa + 32 * o.neg.toNat) (by omega)
  have e1 := bitAt o.neg ((o.pa + 32 * o.neg.toNat) / 32) (by omega)
  exact decodes_v hw (hr := rfl) (by simp only [candV, tyOf_tyCode, rmOf_rmCode, scopeOf_scopeCode, ordOf_ordCode, atomOf_atomCode, condOf_condCode, voteOf_voteCode, redOf_redCode, bitB_toNat, guardOf_guardCode, kOf_kCode, opdOf_opdCode, BitVec.ofNat_toNat, BitVec.setWidth_eq, ofNat_val, e0, e1]) (by simp [RawV.fits, show guardCode guardAll = 62 from rfl]; try omega)
theorem shfl (o : VShfl) : Statement (.shfl o) := fun hw _ => by
  have := tyCode_lt o.ty; have := guardCode_lt o.g; have := o.d.isLt; have := opdCode_lt o.a; have := opdCode_lt o.sel; have := opdCode_lt o.f; have := o.e.isLt
  exact decodes_v hw (hr := rfl) (by simp only [candV, tyOf_tyCode, rmOf_rmCode, scopeOf_scopeCode, ordOf_ordCode, atomOf_atomCode, condOf_condCode, voteOf_voteCode, redOf_redCode, bitB_toNat, guardOf_guardCode, kOf_kCode, opdOf_opdCode, BitVec.ofNat_toNat, BitVec.setWidth_eq, ofNat_val]) (by simp [RawV.fits, show guardCode guardAll = 62 from rfl]; try omega)
theorem vred (o : VRed) : Statement (.vred o) := fun hw _ => by
  have := redCode_lt o.op; have := tyCode_lt o.ty; have := rmCode_lt o.rm; have := guardCode_lt o.g; have := o.d.isLt; have := opdCode_lt o.a
  exact decodes_v hw (hr := rfl) (by simp only [candV, tyOf_tyCode, rmOf_rmCode, scopeOf_scopeCode, ordOf_ordCode, atomOf_atomCode, condOf_condCode, voteOf_voteCode, redOf_redCode, bitB_toNat, guardOf_guardCode, kOf_kCode, opdOf_opdCode, BitVec.ofNat_toNat, BitVec.setWidth_eq, ofNat_val]) (by simp [RawV.fits, show guardCode guardAll = 62 from rfl]; try omega)
theorem ld (o : MLoad) : Statement (.ld o) := fun hw _ => by
  have := tyCode_lt o.ty; have := scopeCode_lt o.scope; have := ordCode_lt o.ord; have := guardCode_lt o.g; have := o.at_.base.isLt; have := opdCode_lt o.at_.index; have := o.at_.sc.isLt; have := o.off.isLt; have := boolNat_lt o.ro
  exact decodes_m hw rfl (hr := rfl) (by simp only [candM, tyOf_tyCode, rmOf_rmCode, scopeOf_scopeCode, ordOf_ordCode, atomOf_atomCode, condOf_condCode, voteOf_voteCode, redOf_redCode, bitB_toNat, guardOf_guardCode, kOf_kCode, opdOf_opdCode, BitVec.ofNat_toNat, BitVec.setWidth_eq, ofNat_val]) (by simp [RawM.fits, show guardCode guardAll = 62 from rfl]; try omega)
theorem st (o : MStore) : Statement (.st o) := fun hw _ => by
  have := tyCode_lt o.ty; have := scopeCode_lt o.scope; have := ordCode_lt o.ord; have := guardCode_lt o.g; have := opdCode_lt o.data; have := o.at_.base.isLt; have := opdCode_lt o.at_.index; have := o.at_.sc.isLt; have := o.off.isLt
  exact decodes_m hw rfl (hr := rfl) (by simp only [candM, tyOf_tyCode, rmOf_rmCode, scopeOf_scopeCode, ordOf_ordCode, atomOf_atomCode, condOf_condCode, voteOf_voteCode, redOf_redCode, bitB_toNat, guardOf_guardCode, kOf_kCode, opdOf_opdCode, BitVec.ofNat_toNat, BitVec.setWidth_eq, ofNat_val]) (by simp [RawM.fits, show guardCode guardAll = 62 from rfl]; try omega)
theorem ldsp (o : MLoad) : Statement (.ldsp o) := fun hw _ => by
  have := tyCode_lt o.ty; have := scopeCode_lt o.scope; have := ordCode_lt o.ord; have := guardCode_lt o.g; have := o.at_.base.isLt; have := opdCode_lt o.at_.index; have := o.at_.sc.isLt; have := o.off.isLt; have := boolNat_lt o.ro
  exact decodes_m hw rfl (hr := rfl) (by simp only [candM, tyOf_tyCode, rmOf_rmCode, scopeOf_scopeCode, ordOf_ordCode, atomOf_atomCode, condOf_condCode, voteOf_voteCode, redOf_redCode, bitB_toNat, guardOf_guardCode, kOf_kCode, opdOf_opdCode, BitVec.ofNat_toNat, BitVec.setWidth_eq, ofNat_val]) (by simp [RawM.fits, show guardCode guardAll = 62 from rfl]; try omega)
theorem stsp (o : MStore) : Statement (.stsp o) := fun hw _ => by
  have := tyCode_lt o.ty; have := scopeCode_lt o.scope; have := ordCode_lt o.ord; have := guardCode_lt o.g; have := opdCode_lt o.data; have := o.at_.base.isLt; have := opdCode_lt o.at_.index; have := o.at_.sc.isLt; have := o.off.isLt
  exact decodes_m hw rfl (hr := rfl) (by simp only [candM, tyOf_tyCode, rmOf_rmCode, scopeOf_scopeCode, ordOf_ordCode, atomOf_atomCode, condOf_condCode, voteOf_voteCode, redOf_redCode, bitB_toNat, guardOf_guardCode, kOf_kCode, opdOf_opdCode, BitVec.ofNat_toNat, BitVec.setWidth_eq, ofNat_val]) (by simp [RawM.fits, show guardCode guardAll = 62 from rfl]; try omega)
theorem pref (o : MPref) : Statement (.pref o) := fun hw _ => by
  have := guardCode_lt o.g; have := o.at_.base.isLt; have := opdCode_lt o.at_.index; have := o.at_.sc.isLt; have := o.off.isLt; have := boolNat_lt o.ro
  exact decodes_m hw rfl (hr := rfl) (by simp only [candM, tyOf_tyCode, rmOf_rmCode, scopeOf_scopeCode, ordOf_ordCode, atomOf_atomCode, condOf_condCode, voteOf_voteCode, redOf_redCode, bitB_toNat, guardOf_guardCode, kOf_kCode, opdOf_opdCode, BitVec.ofNat_toNat, BitVec.setWidth_eq, ofNat_val]) (by simp [RawM.fits, show guardCode guardAll = 62 from rfl]; try omega)
theorem atom (o : MAtom) : Statement (.atom o) := fun hw _ => by
  have := atomCode_lt o.op; have := tyCode_lt o.ty; have := scopeCode_lt o.scope; have := ordCode_lt o.ord; have := guardCode_lt o.g; have := opdCode_lt o.data; have := o.at_.base.isLt; have := opdCode_lt o.at_.index; have := o.at_.sc.isLt; have := o.off.isLt
  have e0 : (atomCode o.op * 256 + o.off.toNat) / 256 = atomCode o.op := by omega
  have e1 := bvAt o.off (atomCode o.op * 256 + o.off.toNat) (by omega)
  exact decodes_m hw rfl (hr := rfl) (by simp only [candM, tyOf_tyCode, rmOf_rmCode, scopeOf_scopeCode, ordOf_ordCode, atomOf_atomCode, condOf_condCode, voteOf_voteCode, redOf_redCode, bitB_toNat, guardOf_guardCode, kOf_kCode, opdOf_opdCode, BitVec.ofNat_toNat, BitVec.setWidth_eq, ofNat_val, e0, e1]) (by simp [RawM.fits, show guardCode guardAll = 62 from rfl]; try omega)
theorem atomq (o : MAtom) : Statement (.atomq o) := fun hw _ => by
  have := atomCode_lt o.op; have := tyCode_lt o.ty; have := scopeCode_lt o.scope; have := ordCode_lt o.ord; have := guardCode_lt o.g; have := opdCode_lt o.data; have := o.at_.base.isLt; have := opdCode_lt o.at_.index; have := o.at_.sc.isLt; have := o.off.isLt
  have e0 : (atomCode o.op * 256 + o.off.toNat) / 256 = atomCode o.op := by omega
  have e1 := bvAt o.off (atomCode o.op * 256 + o.off.toNat) (by omega)
  exact decodes_m hw rfl (hr := rfl) (by simp only [candM, tyOf_tyCode, rmOf_rmCode, scopeOf_scopeCode, ordOf_ordCode, atomOf_atomCode, condOf_condCode, voteOf_voteCode, redOf_redCode, bitB_toNat, guardOf_guardCode, kOf_kCode, opdOf_opdCode, BitVec.ofNat_toNat, BitVec.setWidth_eq, ofNat_val, e0, e1]) (by simp [RawM.fits, show guardCode guardAll = 62 from rfl]; try omega)
theorem atomsp (o : MAtom) : Statement (.atomsp o) := fun hw _ => by
  have := atomCode_lt o.op; have := tyCode_lt o.ty; have := scopeCode_lt o.scope; have := ordCode_lt o.ord; have := guardCode_lt o.g; have := opdCode_lt o.data; have := o.at_.base.isLt; have := opdCode_lt o.at_.index; have := o.at_.sc.isLt; have := o.off.isLt
  have e0 : (atomCode o.op * 256 + o.off.toNat) / 256 = atomCode o.op := by omega
  have e1 := bvAt o.off (atomCode o.op * 256 + o.off.toNat) (by omega)
  exact decodes_m hw rfl (hr := rfl) (by simp only [candM, tyOf_tyCode, rmOf_rmCode, scopeOf_scopeCode, ordOf_ordCode, atomOf_atomCode, condOf_condCode, voteOf_voteCode, redOf_redCode, bitB_toNat, guardOf_guardCode, kOf_kCode, opdOf_opdCode, BitVec.ofNat_toNat, BitVec.setWidth_eq, ofNat_val, e0, e1]) (by simp [RawM.fits, show guardCode guardAll = 62 from rfl]; try omega)
theorem fence (o : MFence) : Statement (.fence o) := fun hw _ => by
  have := scopeCode_lt o.scope; have := ordCode_lt o.ord; have := o.sd.isLt
  exact decodes_m hw rfl (hr := rfl) (by simp only [candM, tyOf_tyCode, rmOf_rmCode, scopeOf_scopeCode, ordOf_ordCode, atomOf_atomCode, condOf_condCode, voteOf_voteCode, redOf_redCode, bitB_toNat, guardOf_guardCode, kOf_kCode, opdOf_opdCode, BitVec.ofNat_toNat, BitVec.setWidth_eq, ofNat_val]) (by simp [RawM.fits, show guardCode guardAll = 62 from rfl]; try omega)
theorem stb (o : MBaton) : Statement (.stb o) := fun hw _ => by
  have := tyCode_lt o.ty; have := scopeCode_lt o.scope; have := ordCode_lt o.ord; have := guardCode_lt o.g; have := opdCode_lt o.data; have := o.at_.base.isLt; have := opdCode_lt o.at_.index; have := o.at_.sc.isLt; have := kCode_lt o.ka; have := kCode_lt o.kb; have := kCode_lt o.kd
  have e0 : (kCode o.ka * 256 + kCode o.kb * 16 + kCode o.kd) / 256 = kCode o.ka := by omega
  have e1 : (kCode o.ka * 256 + kCode o.kb * 16 + kCode o.kd) / 16 % 16 = kCode o.kb := by omega
  have e2 : (kCode o.ka * 256 + kCode o.kb * 16 + kCode o.kd) % 16 = kCode o.kd := by omega
  exact decodes_m hw rfl (hr := rfl) (by simp only [candM, tyOf_tyCode, rmOf_rmCode, scopeOf_scopeCode, ordOf_ordCode, atomOf_atomCode, condOf_condCode, voteOf_voteCode, redOf_redCode, bitB_toNat, guardOf_guardCode, kOf_kCode, opdOf_opdCode, BitVec.ofNat_toNat, BitVec.setWidth_eq, ofNat_val, e0, e1, e2]) (by simp [RawM.fits, show guardCode guardAll = 62 from rfl]; try omega)
theorem stk (o : MBaton) : Statement (.stk o) := fun hw _ => by
  have := tyCode_lt o.ty; have := scopeCode_lt o.scope; have := ordCode_lt o.ord; have := guardCode_lt o.g; have := opdCode_lt o.data; have := o.at_.base.isLt; have := opdCode_lt o.at_.index; have := o.at_.sc.isLt; have := kCode_lt o.ka; have := kCode_lt o.kb; have := kCode_lt o.kd
  have e0 : (kCode o.ka * 256 + kCode o.kb * 16 + kCode o.kd) / 256 = kCode o.ka := by omega
  have e1 : (kCode o.ka * 256 + kCode o.kb * 16 + kCode o.kd) / 16 % 16 = kCode o.kb := by omega
  have e2 : (kCode o.ka * 256 + kCode o.kb * 16 + kCode o.kd) % 16 = kCode o.kd := by omega
  exact decodes_m hw rfl (hr := rfl) (by simp only [candM, tyOf_tyCode, rmOf_rmCode, scopeOf_scopeCode, ordOf_ordCode, atomOf_atomCode, condOf_condCode, voteOf_voteCode, redOf_redCode, bitB_toNat, guardOf_guardCode, kOf_kCode, opdOf_opdCode, BitVec.ofNat_toNat, BitVec.setWidth_eq, ofNat_val, e0, e1, e2]) (by simp [RawM.fits, show guardCode guardAll = 62 from rfl]; try omega)
theorem bwait (o : MBwait) : Statement (.bwait o) := fun hw _ => by
  have := kCode_lt o.ka; have := kCode_lt o.kb; have := kCode_lt o.kd
  have e0 : (kCode o.ka * 256 + kCode o.kb * 16 + kCode o.kd) / 256 = kCode o.ka := by omega
  have e1 : (kCode o.ka * 256 + kCode o.kb * 16 + kCode o.kd) / 16 % 16 = kCode o.kb := by omega
  have e2 : (kCode o.ka * 256 + kCode o.kb * 16 + kCode o.kd) % 16 = kCode o.kd := by omega
  exact decodes_m hw rfl (hr := rfl) (by simp only [candM, tyOf_tyCode, rmOf_rmCode, scopeOf_scopeCode, ordOf_ordCode, atomOf_atomCode, condOf_condCode, voteOf_voteCode, redOf_redCode, bitB_toNat, guardOf_guardCode, kOf_kCode, opdOf_opdCode, BitVec.ofNat_toNat, BitVec.setWidth_eq, ofNat_val, e0, e1, e2]) (by simp [RawM.fits, show guardCode guardAll = 62 from rfl]; try omega)
theorem strm (o : MStrm) : Statement (.strm o) := fun hw _ => by
  have := tyCode_lt o.ty; have := o.base.isLt; have := o.off.isLt
  exact decodes_m hw rfl (hr := rfl) (by simp only [candM, tyOf_tyCode, rmOf_rmCode, scopeOf_scopeCode, ordOf_ordCode, atomOf_atomCode, condOf_condCode, voteOf_voteCode, redOf_redCode, bitB_toNat, guardOf_guardCode, kOf_kCode, opdOf_opdCode, BitVec.ofNat_toNat, BitVec.setWidth_eq, ofNat_val]) (by simp [RawM.fits, show guardCode guardAll = 62 from rfl]; try omega)
theorem strmx : Statement .strmx := fun hw _ => by
  exact decodes_m hw rfl (hr := rfl) (by simp only [candM, tyOf_tyCode, rmOf_rmCode, scopeOf_scopeCode, ordOf_ordCode, atomOf_atomCode, condOf_condCode, voteOf_voteCode, redOf_redCode, bitB_toNat, guardOf_guardCode, kOf_kCode, opdOf_opdCode, BitVec.ofNat_toNat, BitVec.setWidth_eq, ofNat_val]) (by simp [RawM.fits, show guardCode guardAll = 62 from rfl]; try omega)
theorem fput (o : MFput) : Statement (.fput o) := fun hw _ => by
  have := tyCode_lt o.ty; have := scopeCode_lt o.scope; have := guardCode_lt o.g; have := opdCode_lt o.data; have := o.at_.base.isLt; have := opdCode_lt o.at_.index; have := o.at_.sc.isLt; have := o.off.isLt
  exact decodes_m hw rfl (hr := rfl) (by simp only [candM, tyOf_tyCode, rmOf_rmCode, scopeOf_scopeCode, ordOf_ordCode, atomOf_atomCode, condOf_condCode, voteOf_voteCode, redOf_redCode, bitB_toNat, guardOf_guardCode, kOf_kCode, opdOf_opdCode, BitVec.ofNat_toNat, BitVec.setWidth_eq, ofNat_val]) (by simp [RawM.fits, show guardCode guardAll = 62 from rfl]; try omega)
theorem fwait (o : MFwait) : Statement (.fwait o) := fun hw _ => by
  have := tyCode_lt o.ty; have := scopeCode_lt o.scope; have := boolNat_lt o.take; have := guardCode_lt o.g; have := o.at_.base.isLt; have := opdCode_lt o.at_.index; have := o.at_.sc.isLt; have := o.off.isLt
  exact decodes_m hw rfl (hr := rfl) (by obtain ⟨ty, sc, t, g, a, off⟩ := o; cases t <;> simp [candM, -Fin.ofNat_eq_cast, ofNat_val]) (by simp only [RawM.fits]; split <;> omega)
theorem bcmin (o : MBcmin) : Statement (.bcmin o) := fun hw _ => by
  have := guardCode_lt o.g; have := opdCode_lt o.data; have := o.w.isLt
  exact decodes_m hw rfl (hr := rfl) (by simp only [candM, tyOf_tyCode, rmOf_rmCode, scopeOf_scopeCode, ordOf_ordCode, atomOf_atomCode, condOf_condCode, voteOf_voteCode, redOf_redCode, bitB_toNat, guardOf_guardCode, kOf_kCode, opdOf_opdCode, BitVec.ofNat_toNat, BitVec.setWidth_eq, ofNat_val]) (by simp [RawM.fits, show guardCode guardAll = 62 from rfl]; try omega)
theorem bcrd (o : MBcrd) : Statement (.bcrd o) := fun hw _ => by
  have := tyCode_lt o.ty; have := guardCode_lt o.g; have := o.w.isLt
  exact decodes_m hw rfl (hr := rfl) (by simp only [candM, tyOf_tyCode, rmOf_rmCode, scopeOf_scopeCode, ordOf_ordCode, atomOf_atomCode, condOf_condCode, voteOf_voteCode, redOf_redCode, bitB_toNat, guardOf_guardCode, kOf_kCode, opdOf_opdCode, BitVec.ofNat_toNat, BitVec.setWidth_eq, ofNat_val]) (by simp [RawM.fits, show guardCode guardAll = 62 from rfl]; try omega)
theorem mma (o : XMma) : Statement (.mma o) := fun hw _ => by
  have := guardCode_lt o.g; have := boolNat_lt o.f.fe; have := o.f.k.isLt; have := o.sx.isLt; have := o.sy.isLt; have := o.va.isLt; have := o.zt.isLt; have := boolNat_lt o.ru
  have e0 := bitAt o.ru (fld (4096 * o.ru.toNat) 12 1) (by simp only [fld]; omega)
  exact decodes_x hw rfl rfl (hr := rfl) (by simp only [candX, tyOf_tyCode, rmOf_rmCode, scopeOf_scopeCode, ordOf_ordCode, atomOf_atomCode, condOf_condCode, voteOf_voteCode, redOf_redCode, bitB_toNat, guardOf_guardCode, kOf_kCode, opdOf_opdCode, BitVec.ofNat_toNat, BitVec.setWidth_eq, ofNat_val, e0]) (by simp [RawX.fits, show guardCode guardAll = 62 from rfl]; try omega)
theorem mmac (o : XMmac) : Statement (.mmac o) := fun hw _ => by
  have := guardCode_lt o.g; have := boolNat_lt o.f.fe; have := o.f.k.isLt; have := o.sx.isLt; have := o.sy.isLt; have := o.va.isLt; have := o.zt.isLt; have := o.zu.isLt; have := o.set.isLt; have := o.half.isLt
  have e0 := finAt o.set (fld (2 * o.set + o.half) 1 4) (by simp only [fld]; omega)
  have e1 := finAt o.half (2 * o.set + o.half) (by omega)
  exact decodes_x hw rfl rfl (hr := rfl) (by simp only [candX, tyOf_tyCode, rmOf_rmCode, scopeOf_scopeCode, ordOf_ordCode, atomOf_atomCode, condOf_condCode, voteOf_voteCode, redOf_redCode, bitB_toNat, guardOf_guardCode, kOf_kCode, opdOf_opdCode, BitVec.ofNat_toNat, BitVec.setWidth_eq, ofNat_val, e0, e1]) (by simp [RawX.fits, show guardCode guardAll = 62 from rfl]; try omega)
theorem zld (o : XZld) : Statement (.zld o) := fun hw _ => by
  have := guardCode_lt o.g; have := boolNat_lt o.f.fe; have := o.f.k.isLt; have := o.sx.isLt; have := o.sz.isLt; have := o.zt.isLt
  exact decodes_x hw rfl rfl (hr := rfl) (by simp only [candX, tyOf_tyCode, rmOf_rmCode, scopeOf_scopeCode, ordOf_ordCode, atomOf_atomCode, condOf_condCode, voteOf_voteCode, redOf_redCode, bitB_toNat, guardOf_guardCode, kOf_kCode, opdOf_opdCode, BitVec.ofNat_toNat, BitVec.setWidth_eq, ofNat_val]) (by simp [RawX.fits, show guardCode guardAll = 62 from rfl]; try omega)
theorem zst (o : XZst) : Statement (.zst o) := fun hw _ => by
  have := guardCode_lt o.g; have := boolNat_lt o.f.fe; have := o.f.k.isLt; have := o.sx.isLt; have := o.sy.isLt; have := o.sz.isLt; have := o.zt.isLt; have := scopeCode_lt o.scope
  have hs : o.scope = .none := by simpa [legalErrs, chk, flagErrs] using (List.append_eq_nil_iff.1 (wf_legal hw)).2
  exact decodes_x hw rfl rfl (hr := rfl) (by obtain ⟨g, f, sx, sy, sz, zt, sc⟩ := o; cases hs; simp [candX, -Fin.ofNat_eq_cast, ofNat_val, scopeCode]) (by simp [RawX.fits, show guardCode guardAll = 62 from rfl]; try omega)
theorem zclr (o : XZclr) : Statement (.zclr o) := fun hw _ => by
  have := guardCode_lt o.g; have := boolNat_lt o.f.fe; have := o.f.k.isLt; have := o.zt.isLt
  exact decodes_x hw rfl rfl (hr := rfl) (by simp only [candX, tyOf_tyCode, rmOf_rmCode, scopeOf_scopeCode, ordOf_ordCode, atomOf_atomCode, condOf_condCode, voteOf_voteCode, redOf_redCode, bitB_toNat, guardOf_guardCode, kOf_kCode, opdOf_opdCode, BitVec.ofNat_toNat, BitVec.setWidth_eq, ofNat_val]) (by simp [RawX.fits, show guardCode guardAll = 62 from rfl]; try omega)
theorem zret (o : XZret) : Statement (.zret o) := fun hw _ => by
  have := boolNat_lt o.f.fe; have := o.f.k.isLt; have := o.zt.isLt
  exact decodes_x hw rfl rfl (hr := rfl) (by simp only [candX, tyOf_tyCode, rmOf_rmCode, scopeOf_scopeCode, ordOf_ordCode, atomOf_atomCode, condOf_condCode, voteOf_voteCode, redOf_redCode, bitB_toNat, guardOf_guardCode, kOf_kCode, opdOf_opdCode, BitVec.ofNat_toNat, BitVec.setWidth_eq, ofNat_val]) (by simp [RawX.fits, show guardCode guardAll = 62 from rfl]; try omega)
theorem zretSp (o : XZst) : Statement (.zretSp o) := fun hw _ => by
  have := guardCode_lt o.g; have := boolNat_lt o.f.fe; have := o.f.k.isLt; have := o.sx.isLt; have := o.sy.isLt; have := o.sz.isLt; have := o.zt.isLt; have := scopeCode_lt o.scope
  have hs : o.scope = .none := by simpa [legalErrs, chk, flagErrs] using (List.append_eq_nil_iff.1 (wf_legal hw)).2
  exact decodes_x hw rfl rfl (hr := rfl) (by obtain ⟨g, f, sx, sy, sz, zt, sc⟩ := o; cases hs; simp [candX, -Fin.ofNat_eq_cast, ofNat_val, scopeCode]) (by simp [RawX.fits, show guardCode guardAll = 62 from rfl]; try omega)
theorem zretG (o : XZst) : Statement (.zretG o) := fun hw _ => by
  have := guardCode_lt o.g; have := boolNat_lt o.f.fe; have := o.f.k.isLt; have := o.sx.isLt; have := o.sy.isLt; have := o.sz.isLt; have := o.zt.isLt; have := scopeCode_lt o.scope
  have e0 : (512 * scopeCode o.scope + 2) % 4 = 2 := by omega
  have e1 : fld (512 * scopeCode o.scope + 2) 9 3 = scopeCode o.scope := by simp only [fld]; omega
  exact decodes_x hw rfl rfl (hr := rfl) (by simp only [candX, e0, e1, scopeOf_scopeCode, bitB_toNat, guardOf_guardCode, ofNat_val]) (by simp [RawX.fits, show guardCode guardAll = 62 from rfl]; try omega)
theorem cpy (o : XCpy) : Statement (.cpy o) := fun hw _ => by
  have := boolNat_lt o.f.fe; have := o.f.k.isLt; have := o.sx.isLt; have := o.sy.isLt; have := o.sz.isLt; have := scopeCode_lt o.scope
  have e0 : fld (512 * scopeCode o.scope) 9 3 = scopeCode o.scope := by simp only [fld]; omega
  exact decodes_x hw rfl rfl (hr := rfl) (by simp only [candX, tyOf_tyCode, rmOf_rmCode, scopeOf_scopeCode, ordOf_ordCode, atomOf_atomCode, condOf_condCode, voteOf_voteCode, redOf_redCode, bitB_toNat, guardOf_guardCode, kOf_kCode, opdOf_opdCode, BitVec.ofNat_toNat, BitVec.setWidth_eq, ofNat_val, e0]) (by simp [RawX.fits, show guardCode guardAll = 62 from rfl]; try omega)
theorem cpyr (o : XCpy) : Statement (.cpyr o) := fun hw _ => by
  have := boolNat_lt o.f.fe; have := o.f.k.isLt; have := o.sx.isLt; have := o.sy.isLt; have := o.sz.isLt; have := scopeCode_lt o.scope
  have e0 : fld (512 * scopeCode o.scope) 9 3 = scopeCode o.scope := by simp only [fld]; omega
  exact decodes_x hw rfl rfl (hr := rfl) (by simp only [candX, tyOf_tyCode, rmOf_rmCode, scopeOf_scopeCode, ordOf_ordCode, atomOf_atomCode, condOf_condCode, voteOf_voteCode, redOf_redCode, bitB_toNat, guardOf_guardCode, kOf_kCode, opdOf_opdCode, BitVec.ofNat_toNat, BitVec.setWidth_eq, ofNat_val, e0]) (by simp [RawX.fits, show guardCode guardAll = 62 from rfl]; try omega)
theorem cpseal (f : Flag) : Statement (.cpseal f) := fun hw _ => by
  have := boolNat_lt f.fe; have := f.k.isLt
  exact decodes_x hw rfl rfl (hr := rfl) (by simp only [candX, tyOf_tyCode, rmOf_rmCode, scopeOf_scopeCode, ordOf_ordCode, atomOf_atomCode, condOf_condCode, voteOf_voteCode, redOf_redCode, bitB_toNat, guardOf_guardCode, kOf_kCode, opdOf_opdCode, BitVec.ofNat_toNat, BitVec.setWidth_eq, ofNat_val]) (by simp [RawX.fits, show guardCode guardAll = 62 from rfl]; try omega)
theorem cpwait (n : Fin 16) : Statement (.cpwait n) := fun hw _ => by
  have := n.isLt
  exact decodes_x hw rfl rfl (hr := rfl) (by simp only [candX, tyOf_tyCode, rmOf_rmCode, scopeOf_scopeCode, ordOf_ordCode, atomOf_atomCode, condOf_condCode, voteOf_voteCode, redOf_redCode, bitB_toNat, guardOf_guardCode, kOf_kCode, opdOf_opdCode, BitVec.ofNat_toNat, BitVec.setWidth_eq, ofNat_val]) (by simp [RawX.fits, show guardCode guardAll = 62 from rfl]; try omega)
theorem hset (o : XHset) : Statement (.hset o) := fun hw _ => by
  have := boolNat_lt o.f.fe; have := o.f.k.isLt; have := o.sx.isLt; have := o.sy.isLt
  exact decodes_x hw rfl rfl (hr := rfl) (by simp only [candX, tyOf_tyCode, rmOf_rmCode, scopeOf_scopeCode, ordOf_ordCode, atomOf_atomCode, condOf_condCode, voteOf_voteCode, redOf_redCode, bitB_toNat, guardOf_guardCode, kOf_kCode, opdOf_opdCode, BitVec.ofNat_toNat, BitVec.setWidth_eq, ofNat_val]) (by simp [RawX.fits, show guardCode guardAll = 62 from rfl]; try omega)
theorem br (g : Guard) (off : Off20) : Statement (.br g off) := fun hw _ => by
  have := guardCode_lt g
  cases off with
  | short o =>
    have := o.isLt
    refine decodes_c hw rfl rfl rfl (hr := rfl) ?_ (by simp [RawC.fits, rawOff20, show guardCode guardAll = 62 from rfl]; try omega)
    refine congrArg some ?_
    show Instr.br (guardOf (guardCode g)) (.short (BitVec.ofNat 20 o.toNat)) = _
    rw [guardOf_guardCode, bvAt o _ (by omega)]
  | long o =>
    have := o.isLt
    refine decodes_c hw rfl rfl rfl (hr := rfl) ?_ (by simp [RawC.fits, rawOff20, show guardCode guardAll = 62 from rfl]; try omega)
    refine congrArg some ?_
    show Instr.br (guardOf (guardCode g)) (.long (BitVec.ofNat 32 o.toNat)) = _
    rw [guardOf_guardCode, bvAt o _ (by omega)]
theorem jmpr (a : Fin 64) : Statement (.jmpr a) := fun hw _ => by
  have := a.isLt
  refine decodes_c hw rfl rfl rfl (hr := rfl) ?_ (by simp [RawC.fits, rawBody, rawSrc16, rawPred, show guardCode guardAll = 62 from rfl]; try omega)
  · exact congrArg (fun x => some (Instr.jmpr x)) (finAt _ _ (by (try dsimp only [rawBody, rawSrc16, rawPred, rawOff14]); omega))
theorem call (off : Off20) : Statement (.call off) := fun hw _ => by
  cases off with
  | short o =>
    have := o.isLt
    refine decodes_c hw rfl rfl rfl (hr := rfl) ?_ (by simp [RawC.fits, rawOff20, show guardCode guardAll = 62 from rfl]; try omega)
    refine congrArg some ?_
    show Instr.call (.short (BitVec.ofNat 20 o.toNat)) = _
    rw [bvAt o _ (by omega)]
  | long o =>
    have := o.isLt
    refine decodes_c hw rfl rfl rfl (hr := rfl) ?_ (by simp [RawC.fits, rawOff20, show guardCode guardAll = 62 from rfl]; try omega)
    refine congrArg some ?_
    show Instr.call (.long (BitVec.ofNat 32 o.toNat)) = _
    rw [bvAt o _ (by omega)]
theorem callr (a : Fin 64) : Statement (.callr a) := fun hw _ => by
  have := a.isLt
  refine decodes_c hw rfl rfl rfl (hr := rfl) ?_ (by simp [RawC.fits, rawBody, rawSrc16, rawPred, show guardCode guardAll = 62 from rfl]; try omega)
  · exact congrArg (fun x => some (Instr.callr x)) (finAt _ _ (by (try dsimp only [rawBody, rawSrc16, rawPred, rawOff14]); omega))
theorem ret (a : Fin 64) : Statement (.ret a) := fun hw _ => by
  have := a.isLt
  refine decodes_c hw rfl rfl rfl (hr := rfl) ?_ (by simp [RawC.fits, rawBody, rawSrc16, rawPred, show guardCode guardAll = 62 from rfl]; try omega)
  · exact congrArg (fun x => some (Instr.ret x)) (finAt _ _ (by (try dsimp only [rawBody, rawSrc16, rawPred, rawOff14]); omega))
theorem exit : Statement .exit := fun hw _ => by
  refine decodes_c hw rfl rfl rfl (hr := rfl) ?_ (by simp [RawC.fits, rawBody, rawSrc16, rawPred, show guardCode guardAll = 62 from rfl]; try omega)
  · rfl
theorem bsz (a : Fin 64) (off : Off14) : Statement (.bsz a off) := fun hw _ => by
  have := a.isLt
  cases off with
  | short o =>
    have := o.isLt
    refine decodes_c hw rfl rfl rfl (hr := rfl) ?_ (by simp [RawC.fits, rawOff14, show guardCode guardAll = 62 from rfl]; try omega)
    refine congrArg some ?_
    refine congrArg₂ Instr.bsz (finAt _ _ (by (try dsimp only [rawBody, rawSrc16, rawPred, rawOff14]); omega)) (congrArg Off14.short (bvAt _ _ (by (try dsimp only [rawBody, rawSrc16, rawPred, rawOff14]); omega)))
  | long o =>
    have := o.isLt
    refine decodes_c hw rfl rfl rfl (hr := rfl) ?_ (by simp [RawC.fits, rawOff14, show guardCode guardAll = 62 from rfl]; try omega)
    refine congrArg some ?_
    refine congrArg₂ Instr.bsz (finAt _ _ (by (try dsimp only [rawBody, rawSrc16, rawPred, rawOff14]); omega)) (congrArg Off14.long (bvAt _ _ (by (try dsimp only [rawBody, rawSrc16, rawPred, rawOff14]); omega)))
theorem bsnz (a : Fin 64) (off : Off14) : Statement (.bsnz a off) := fun hw _ => by
  have := a.isLt
  cases off with
  | short o =>
    have := o.isLt
    refine decodes_c hw rfl rfl rfl (hr := rfl) ?_ (by simp [RawC.fits, rawOff14, show guardCode guardAll = 62 from rfl]; try omega)
    refine congrArg some ?_
    refine congrArg₂ Instr.bsnz (finAt _ _ (by (try dsimp only [rawBody, rawSrc16, rawPred, rawOff14]); omega)) (congrArg Off14.short (bvAt _ _ (by (try dsimp only [rawBody, rawSrc16, rawPred, rawOff14]); omega)))
  | long o =>
    have := o.isLt
    refine decodes_c hw rfl rfl rfl (hr := rfl) ?_ (by simp [RawC.fits, rawOff14, show guardCode guardAll = 62 from rfl]; try omega)
    refine congrArg some ?_
    refine congrArg₂ Instr.bsnz (finAt _ _ (by (try dsimp only [rawBody, rawSrc16, rawPred, rawOff14]); omega)) (congrArg Off14.long (bvAt _ _ (by (try dsimp only [rawBody, rawSrc16, rawPred, rawOff14]); omega)))
theorem loop (n : Fin 8) (c : LoopCount) : Statement (.loop n c) := fun hw _ => by
  have := n.isLt
  cases c with
  | imm k =>
    have := k.isLt
    refine decodes_c hw rfl rfl rfl (hr := rfl) ?_ (by simp [RawC.fits, rawBody, show guardCode guardAll = 62 from rfl]; try omega)
    refine congrArg some ?_
    refine congrArg₂ Instr.loop (finAt _ _ (by (try dsimp only [rawBody, rawSrc16, rawPred, rawOff14]); omega)) ((loopCount_imm (bitAt true _ (by simp only [rawBody, Bool.toNat_true, Bool.toNat_false]; omega)) rfl).trans (congrArg LoopCount.imm (bvAt _ _ (by (try dsimp only [rawBody, rawSrc16, rawPred, rawOff14]); omega))))
  | ext k =>
    have := k.isLt
    refine decodes_c hw rfl rfl rfl (hr := rfl) ?_ (by simp [RawC.fits, rawBody, show guardCode guardAll = 62 from rfl]; try omega)
    refine congrArg some ?_
    refine congrArg₂ Instr.loop (finAt _ _ (by (try dsimp only [rawBody, rawSrc16, rawPred, rawOff14]); omega)) ((loopCount_ext (bitAt true _ (by simp only [rawBody, Bool.toNat_true, Bool.toNat_false]; omega)) rfl).trans (congrArg LoopCount.ext (bvAt _ _ (by (try dsimp only [rawBody, rawSrc16, rawPred, rawOff14]); omega))))
  | reg k =>
    have := k.isLt
    refine decodes_c hw rfl rfl rfl (hr := rfl) ?_ (by simp [RawC.fits, rawBody, show guardCode guardAll = 62 from rfl]; try omega)
    refine congrArg some ?_
    refine congrArg₂ Instr.loop (finAt _ _ (by (try dsimp only [rawBody, rawSrc16, rawPred, rawOff14]); omega)) ((loopCount_reg (bitAt false _ (by simp only [rawBody, Bool.toNat_true, Bool.toNat_false]; omega))).trans (congrArg LoopCount.reg (finAt _ _ (by (try dsimp only [rawBody, rawSrc16, rawPred, rawOff14]); omega))))
theorem endl (n : Fin 8) : Statement (.endl n) := fun hw _ => by
  have := n.isLt
  refine decodes_c hw rfl rfl rfl (hr := rfl) ?_ (by simp [RawC.fits, rawBody, rawSrc16, rawPred, show guardCode guardAll = 62 from rfl]; try omega)
  · exact congrArg (fun x => some (Instr.endl x)) (finAt _ _ (by (try dsimp only [rawBody, rawSrc16, rawPred, rawOff14]); omega))
theorem lbrk (n : Fin 8) (off : Off16) : Statement (.lbrk n off) := fun hw _ => by
  have := n.isLt
  cases off with
  | short o =>
    have := o.isLt
    refine decodes_c hw rfl rfl rfl (hr := rfl) ?_ (by simp [RawC.fits, rawBody, show guardCode guardAll = 62 from rfl]; try omega)
    refine congrArg some ?_
    exact congrArg₂ Instr.lbrk (finAt _ _ (by (try dsimp only [rawBody, rawSrc16, rawPred, rawOff14]); omega)) (congrArg Off16.short (bvAt _ _ (by (try dsimp only [rawBody, rawSrc16, rawPred, rawOff14]); omega)))
  | long o =>
    have := o.isLt
    refine decodes_c hw rfl rfl rfl (hr := rfl) ?_ (by simp [RawC.fits, rawBody, show guardCode guardAll = 62 from rfl]; try omega)
    refine congrArg some ?_
    exact congrArg₂ Instr.lbrk (finAt _ _ (by (try dsimp only [rawBody, rawSrc16, rawPred, rawOff14]); omega)) (congrArg Off16.long (bvAt _ _ (by (try dsimp only [rawBody, rawSrc16, rawPred, rawOff14]); omega)))
theorem waitf (mask : BitVec 16) (any : Bool) : Statement (.waitf mask any) := fun hw _ => by
  have := mask.isLt; have := boolNat_lt any
  refine decodes_c hw rfl rfl rfl (hr := rfl) ?_ (by simp [RawC.fits, rawBody, rawSrc16, rawPred, show guardCode guardAll = 62 from rfl]; try omega)
  · refine congrArg some ?_
    simp only [Instr.waitf.injEq]
    exact ⟨bvAt _ _ (by (try dsimp only [rawBody, rawSrc16, rawPred, rawOff14]); omega), bitAt _ _ (by (try dsimp only [rawBody, rawSrc16, rawPred, rawOff14]); omega)⟩
theorem testf (d : Fin 32) (neg : Bool) (mask : BitVec 16) (any : Bool) : Statement (.testf d neg mask any) := fun hw _ => by
  have := d.isLt; have := boolNat_lt neg; have := mask.isLt; have := boolNat_lt any
  have := guardCode_lt ⟨d, neg⟩
  refine decodes_c hw rfl rfl rfl (hr := rfl) ?_ (by simp [RawC.fits, rawBody, rawSrc16, rawPred, show guardCode guardAll = 62 from rfl]; try omega)
  · refine congrArg some ?_
    have hg : guardOf (rawBody 0x0D (guardCode ⟨d, neg⟩) (mask.toNat * 2 ^ 4 + any.toNat * 2 ^ 3)).g = ⟨d, neg⟩ := guardOf_guardCode _
    simp only [Instr.testf.injEq, hg, true_and]
    exact ⟨bvAt _ _ (by (try dsimp only [rawBody, rawSrc16, rawPred, rawOff14]); omega), bitAt _ _ (by (try dsimp only [rawBody, rawSrc16, rawPred, rawOff14]); omega)⟩
theorem clrf (mask : BitVec 16) : Statement (.clrf mask) := fun hw _ => by
  have := mask.isLt
  refine decodes_c hw rfl rfl rfl (hr := rfl) ?_ (by simp [RawC.fits, rawBody, rawSrc16, rawPred, show guardCode guardAll = 62 from rfl]; try omega)
  · exact congrArg (fun x => some (Instr.clrf x)) (bvAt _ _ (by (try dsimp only [rawBody, rawSrc16, rawPred, rawOff14]); omega))
theorem pand (o : PBin) : Statement (.pand o) := fun hw _ => by
  obtain ⟨d, a, b, na, nb⟩ := o
  have := d.isLt; have := a.isLt; have := b.isLt; have := boolNat_lt na; have := boolNat_lt nb
  refine decodes_c hw rfl rfl rfl (hr := rfl) ?_ (by simp [RawC.fits, rawBody, rawSrc16, rawPred, show guardCode guardAll = 62 from rfl]; try omega)
  · refine congrArg some ?_
    simp only [Instr.pand.injEq, PBin.mk.injEq]
    exact ⟨finAt _ _ (by (try dsimp only [rawBody, rawSrc16, rawPred, rawOff14]); omega), finAt _ _ (by (try dsimp only [rawBody, rawSrc16, rawPred, rawOff14]); omega), finAt _ _ (by (try dsimp only [rawBody, rawSrc16, rawPred, rawOff14]); omega), bitAt _ _ (by (try dsimp only [rawBody, rawSrc16, rawPred, rawOff14]); omega), bitAt _ _ (by (try dsimp only [rawBody, rawSrc16, rawPred, rawOff14]); omega)⟩
theorem por (o : PBin) : Statement (.por o) := fun hw _ => by
  obtain ⟨d, a, b, na, nb⟩ := o
  have := d.isLt; have := a.isLt; have := b.isLt; have := boolNat_lt na; have := boolNat_lt nb
  refine decodes_c hw rfl rfl rfl (hr := rfl) ?_ (by simp [RawC.fits, rawBody, rawSrc16, rawPred, show guardCode guardAll = 62 from rfl]; try omega)
  · refine congrArg some ?_
    simp only [Instr.por.injEq, PBin.mk.injEq]
    exact ⟨finAt _ _ (by (try dsimp only [rawBody, rawSrc16, rawPred, rawOff14]); omega), finAt _ _ (by (try dsimp only [rawBody, rawSrc16, rawPred, rawOff14]); omega), finAt _ _ (by (try dsimp only [rawBody, rawSrc16, rawPred, rawOff14]); omega), bitAt _ _ (by (try dsimp only [rawBody, rawSrc16, rawPred, rawOff14]); omega), bitAt _ _ (by (try dsimp only [rawBody, rawSrc16, rawPred, rawOff14]); omega)⟩
theorem pxor (o : PBin) : Statement (.pxor o) := fun hw _ => by
  obtain ⟨d, a, b, na, nb⟩ := o
  have := d.isLt; have := a.isLt; have := b.isLt; have := boolNat_lt na; have := boolNat_lt nb
  refine decodes_c hw rfl rfl rfl (hr := rfl) ?_ (by simp [RawC.fits, rawBody, rawSrc16, rawPred, show guardCode guardAll = 62 from rfl]; try omega)
  · refine congrArg some ?_
    simp only [Instr.pxor.injEq, PBin.mk.injEq]
    exact ⟨finAt _ _ (by (try dsimp only [rawBody, rawSrc16, rawPred, rawOff14]); omega), finAt _ _ (by (try dsimp only [rawBody, rawSrc16, rawPred, rawOff14]); omega), finAt _ _ (by (try dsimp only [rawBody, rawSrc16, rawPred, rawOff14]); omega), bitAt _ _ (by (try dsimp only [rawBody, rawSrc16, rawPred, rawOff14]); omega), bitAt _ _ (by (try dsimp only [rawBody, rawSrc16, rawPred, rawOff14]); omega)⟩
theorem sadd (o : SBin) : Statement (.sadd o) := fun hw _ =>
  decodes_c hw rfl rfl rfl (hr := rfl) (by simp only [candC, rawScalar_op]; rw [scalar_raw]) (fits_scalar _ _ _ _ (by decide) o.d.isLt o.a.isLt)
theorem ssub (o : SBin) : Statement (.ssub o) := fun hw _ =>
  decodes_c hw rfl rfl rfl (hr := rfl) (by simp only [candC, rawScalar_op]; rw [scalar_raw]) (fits_scalar _ _ _ _ (by decide) o.d.isLt o.a.isLt)
theorem smul (o : SBin) : Statement (.smul o) := fun hw _ =>
  decodes_c hw rfl rfl rfl (hr := rfl) (by simp only [candC, rawScalar_op]; rw [scalar_raw]) (fits_scalar _ _ _ _ (by decide) o.d.isLt o.a.isLt)
theorem sand (o : SBin) : Statement (.sand o) := fun hw _ =>
  decodes_c hw rfl rfl rfl (hr := rfl) (by simp only [candC, rawScalar_op]; rw [scalar_raw]) (fits_scalar _ _ _ _ (by decide) o.d.isLt o.a.isLt)
theorem sor (o : SBin) : Statement (.sor o) := fun hw _ =>
  decodes_c hw rfl rfl rfl (hr := rfl) (by simp only [candC, rawScalar_op]; rw [scalar_raw]) (fits_scalar _ _ _ _ (by decide) o.d.isLt o.a.isLt)
theorem sxor (o : SBin) : Statement (.sxor o) := fun hw _ =>
  decodes_c hw rfl rfl rfl (hr := rfl) (by simp only [candC, rawScalar_op]; rw [scalar_raw]) (fits_scalar _ _ _ _ (by decide) o.d.isLt o.a.isLt)
theorem sshl (o : SBin) : Statement (.sshl o) := fun hw _ =>
  decodes_c hw rfl rfl rfl (hr := rfl) (by simp only [candC, rawScalar_op]; rw [scalar_raw]) (fits_scalar _ _ _ _ (by decide) o.d.isLt o.a.isLt)
theorem sshr (o : SBin) : Statement (.sshr o) := fun hw _ =>
  decodes_c hw rfl rfl rfl (hr := rfl) (by simp only [candC, rawScalar_op]; rw [scalar_raw]) (fits_scalar _ _ _ _ (by decide) o.d.isLt o.a.isLt)
theorem ssra (o : SBin) : Statement (.ssra o) := fun hw _ =>
  decodes_c hw rfl rfl rfl (hr := rfl) (by simp only [candC, rawScalar_op]; rw [scalar_raw]) (fits_scalar _ _ _ _ (by decide) o.d.isLt o.a.isLt)
theorem smin (o : SBin) : Statement (.smin o) := fun hw _ =>
  decodes_c hw rfl rfl rfl (hr := rfl) (by simp only [candC, rawScalar_op]; rw [scalar_raw]) (fits_scalar _ _ _ _ (by decide) o.d.isLt o.a.isLt)
theorem smax (o : SBin) : Statement (.smax o) := fun hw _ =>
  decodes_c hw rfl rfl rfl (hr := rfl) (by simp only [candC, rawScalar_op]; rw [scalar_raw]) (fits_scalar _ _ _ _ (by decide) o.d.isLt o.a.isLt)
theorem smov (d : Fin 64) (b : SSrc) : Statement (.smov d b) := fun hw _ => by
  have := d.isLt
  refine decodes_c hw rfl rfl rfl (hr := rfl) ?_ (fits_scalar _ _ _ _ (by decide) d.isLt (by decide))
  simp only [candC, rawScalar_op]
  rw [scalarSrc_raw, show sAt (rawScalar 35 d 0 b) 14 = d from (sAt_rawScalar 35 d 0 b).1]
theorem sysrd (g : Guard) (dst : SysDst) (num : BitVec 8) : Statement (.sysrd g dst num) := fun hw _ => by
  have := guardCode_lt g; have := num.isLt
  cases dst with
  | s d =>
    have := d.isLt
    refine decodes_c hw rfl rfl rfl (hr := rfl) ?_ (by simp [RawC.fits, rawBody, rawSrc16, rawPred, show guardCode guardAll = 62 from rfl]; try omega)
    refine congrArg some ?_
    show Instr.sysrd _ (if bitB _ then _ else _) _ = _
    rw [if_neg (by rw [bitAt false _ (by simp only [rawBody, rawSrc16, Bool.toNat_true, Bool.toNat_false]; omega)]; decide)]
    simp only [Instr.sysrd.injEq, SysDst.s.injEq, guardOf_guardCode]
    exact ⟨guardOf_guardCode g, finAt _ _ (by (try dsimp only [rawBody, rawSrc16, rawPred, rawOff14]); omega), bvAt _ _ (by (try dsimp only [rawBody, rawSrc16, rawPred, rawOff14]); omega)⟩
  | v d =>
    have := d.isLt
    refine decodes_c hw rfl rfl rfl (hr := rfl) ?_ (by simp [RawC.fits, rawBody, rawSrc16, rawPred, show guardCode guardAll = 62 from rfl]; try omega)
    refine congrArg some ?_
    show Instr.sysrd _ (if bitB _ then _ else _) _ = _
    rw [if_pos (bitAt true _ (by simp only [rawBody, rawSrc16, Bool.toNat_true, Bool.toNat_false]; omega))]
    simp only [Instr.sysrd.injEq, SysDst.v.injEq, guardOf_guardCode]
    exact ⟨guardOf_guardCode g, finAt _ _ (by (try dsimp only [rawBody, rawSrc16, rawPred, rawOff14]); omega), bvAt _ _ (by (try dsimp only [rawBody, rawSrc16, rawPred, rawOff14]); omega)⟩
theorem syswr (g : Guard) (num : BitVec 8) (s : Fin 64) : Statement (.syswr g num s) := fun hw _ => by
  have := guardCode_lt g; have := num.isLt; have := s.isLt
  refine decodes_c hw rfl rfl rfl (hr := rfl) ?_ (by simp [RawC.fits, rawBody, rawSrc16, rawPred, show guardCode guardAll = 62 from rfl]; try omega)
  · refine congrArg some ?_
    simp only [Instr.syswr.injEq]
    exact ⟨guardOf_guardCode g, bvAt _ _ (by (try dsimp only [rawBody, rawSrc16, rawPred, rawOff14]); omega), finAt _ _ (by (try dsimp only [rawBody, rawSrc16, rawPred, rawOff14]); omega)⟩
theorem trap (g : Guard) (code : BitVec 16) : Statement (.trap g code) := fun hw _ => by
  have := guardCode_lt g; have := code.isLt
  refine decodes_c hw rfl rfl rfl (hr := rfl) ?_ (by simp [RawC.fits, rawBody, rawSrc16, rawPred, show guardCode guardAll = 62 from rfl]; try omega)
  · refine congrArg some ?_
    simp only [Instr.trap.injEq]
    exact ⟨guardOf_guardCode g, bvAt _ _ (by (try dsimp only [rawBody, rawSrc16, rawPred, rawOff14]); omega)⟩
theorem tret (g : Guard) : Statement (.tret g) := fun hw _ => by
  have := guardCode_lt g
  refine decodes_c hw rfl rfl rfl (hr := rfl) ?_ (by simp [RawC.fits, rawBody, rawSrc16, rawPred, show guardCode guardAll = 62 from rfl]; try omega)
  · exact congrArg (fun x => some (Instr.tret x)) (guardOf_guardCode g)
theorem mark (g : Guard) (n : Src16) : Statement (.mark g n) := fun hw _ => by
  have := guardCode_lt g
  cases n with
  | imm k =>
    have := k.isLt
    refine decodes_c hw rfl rfl rfl (hr := rfl) ?_ (by simp [RawC.fits, rawBody, rawSrc16, rawPred, show guardCode guardAll = 62 from rfl]; try omega)
    show (if bitB _ then some (Instr.markWait _ _) else some (Instr.mark _ _)) = _
    rw [if_neg (by rw [bitAt false _ (by simp only [rawBody, rawSrc16, Bool.toNat_true, Bool.toNat_false]; omega)]; decide)]
    refine congrArg some ?_
    exact congrArg₂ Instr.mark (guardOf_guardCode g) ((src16_imm (bitAt false _ (by simp only [rawBody, rawSrc16, Bool.toNat_true, Bool.toNat_false]; omega))).trans (congrArg Src16.imm (bvAt _ _ (by (try dsimp only [rawBody, rawSrc16, rawPred, rawOff14]); omega))))
  | reg k =>
    have := k.isLt
    refine decodes_c hw rfl rfl rfl (hr := rfl) ?_ (by simp [RawC.fits, rawBody, rawSrc16, rawPred, show guardCode guardAll = 62 from rfl]; try omega)
    show (if bitB _ then some (Instr.markWait _ _) else some (Instr.mark _ _)) = _
    rw [if_neg (by rw [bitAt false _ (by simp only [rawBody, rawSrc16, Bool.toNat_true, Bool.toNat_false]; omega)]; decide)]
    refine congrArg some ?_
    exact congrArg₂ Instr.mark (guardOf_guardCode g) ((src16_reg (bitAt true _ (by simp only [rawBody, rawSrc16, Bool.toNat_true, Bool.toNat_false]; omega))).trans (congrArg Src16.reg (finAt _ _ (by (try dsimp only [rawBody, rawSrc16, rawPred, rawOff14]); omega))))
theorem markWait (g : Guard) (n : Src16) : Statement (.markWait g n) := fun hw _ => by
  have := guardCode_lt g
  cases n with
  | imm k =>
    have := k.isLt
    refine decodes_c hw rfl rfl rfl (hr := rfl) ?_ (by simp [RawC.fits, rawBody, rawSrc16, rawPred, show guardCode guardAll = 62 from rfl]; try omega)
    show (if bitB _ then some (Instr.markWait _ _) else some (Instr.mark _ _)) = _
    rw [if_pos (bitAt true _ (by simp only [rawBody, rawSrc16, Bool.toNat_true, Bool.toNat_false]; omega))]
    refine congrArg some ?_
    exact congrArg₂ Instr.markWait (guardOf_guardCode g) ((src16_imm (bitAt false _ (by simp only [rawBody, rawSrc16, Bool.toNat_true, Bool.toNat_false]; omega))).trans (congrArg Src16.imm (bvAt _ _ (by (try dsimp only [rawBody, rawSrc16, rawPred, rawOff14]); omega))))
  | reg k =>
    have := k.isLt
    refine decodes_c hw rfl rfl rfl (hr := rfl) ?_ (by simp [RawC.fits, rawBody, rawSrc16, rawPred, show guardCode guardAll = 62 from rfl]; try omega)
    show (if bitB _ then some (Instr.markWait _ _) else some (Instr.mark _ _)) = _
    rw [if_pos (bitAt true _ (by simp only [rawBody, rawSrc16, Bool.toNat_true, Bool.toNat_false]; omega))]
    refine congrArg some ?_
    exact congrArg₂ Instr.markWait (guardOf_guardCode g) ((src16_reg (bitAt true _ (by simp only [rawBody, rawSrc16, Bool.toNat_true, Bool.toNat_false]; omega))).trans (congrArg Src16.reg (finAt _ _ (by (try dsimp only [rawBody, rawSrc16, rawPred, rawOff14]); omega))))
theorem trig (g : Guard) : Statement (.trig g) := fun hw _ => by
  have := guardCode_lt g
  refine decodes_c hw rfl rfl rfl (hr := rfl) ?_ (by simp [RawC.fits, rawBody, rawSrc16, rawPred, show guardCode guardAll = 62 from rfl]; try omega)
  · exact congrArg (fun x => some (Instr.trig x)) (guardOf_guardCode g)
theorem launch (g : Guard) (sd sq sp : Fin 64) : Statement (.launch g sd sq sp) := fun hw _ => by
  have := guardCode_lt g; have := sd.isLt; have := sq.isLt; have := sp.isLt
  refine decodes_c hw rfl rfl rfl (hr := rfl) ?_ (by simp [RawC.fits, rawBody, rawSrc16, rawPred, show guardCode guardAll = 62 from rfl]; try omega)
  · refine congrArg some ?_
    simp only [Instr.launch.injEq]
    exact ⟨guardOf_guardCode g, finAt _ _ (by (try dsimp only [rawBody, rawSrc16, rawPred, rawOff14]); omega), finAt _ _ (by (try dsimp only [rawBody, rawSrc16, rawPred, rawOff14]); omega), finAt _ _ (by (try dsimp only [rawBody, rawSrc16, rawPred, rawOff14]); omega)⟩
theorem fork (g : Guard) (sa sf : Fin 64) (w : Fin 8) (off : BitVec 32) : Statement (.fork g sa sf w off) := fun hw _ => by
  have := guardCode_lt g; have := sa.isLt; have := sf.isLt; have := w.isLt; have := off.isLt
  refine decodes_c hw rfl rfl rfl (hr := rfl) ?_ (by simp [RawC.fits, rawBody, rawSrc16, rawPred, show guardCode guardAll = 62 from rfl]; try omega)
  refine congrArg some ?_
  simp only [Instr.fork.injEq, guardOf_guardCode, true_and]
  exact ⟨finAt _ _ (by (try dsimp only [rawBody, rawSrc16, rawPred, rawOff14]); omega), finAt _ _ (by (try dsimp only [rawBody, rawSrc16, rawPred, rawOff14]); omega), finAt _ _ (by (try dsimp only [rawBody, rawSrc16, rawPred, rawOff14]); omega), bvAt _ _ (by (try dsimp only [rawBody, rawSrc16, rawPred, rawOff14]); omega)⟩
theorem join (g : Guard) (sd sf : Fin 64) : Statement (.join g sd sf) := fun hw _ => by
  have := guardCode_lt g; have := sd.isLt; have := sf.isLt
  refine decodes_c hw rfl rfl rfl (hr := rfl) ?_ (by simp [RawC.fits, rawBody, rawSrc16, rawPred, show guardCode guardAll = 62 from rfl]; try omega)
  · refine congrArg some ?_
    simp only [Instr.join.injEq]
    exact ⟨guardOf_guardCode g, finAt _ _ (by (try dsimp only [rawBody, rawSrc16, rawPred, rawOff14]); omega), finAt _ _ (by (try dsimp only [rawBody, rawSrc16, rawPred, rawOff14]); omega)⟩
theorem yield (g : Guard) : Statement (.yield g) := fun hw _ => by
  have := guardCode_lt g
  refine decodes_c hw rfl rfl rfl (hr := rfl) ?_ (by simp [RawC.fits, rawBody, rawSrc16, rawPred, show guardCode guardAll = 62 from rfl]; try omega)
  · exact congrArg (fun x => some (Instr.yield x)) (guardOf_guardCode g)
theorem pwracq (g : Guard) (c : Src3) : Statement (.pwracq g c) := fun hw _ => by
  have := guardCode_lt g
  cases c with
  | imm k =>
    have := k.isLt
    refine decodes_c hw rfl rfl rfl (hr := rfl) ?_ (by simp [RawC.fits, rawBody, rawSrc16, rawPred, show guardCode guardAll = 62 from rfl]; try omega)
    refine congrArg some ?_
    show Instr.pwracq _ (if bitB _ then _ else _) = _
    rw [if_neg (by rw [bitAt false _ (by simp only [rawBody, rawSrc16, Bool.toNat_true, Bool.toNat_false]; omega)]; decide)]
    exact congrArg₂ Instr.pwracq (guardOf_guardCode g) (congrArg Src3.imm (bvAt _ _ (by (try dsimp only [rawBody, rawSrc16, rawPred, rawOff14]); omega)))
  | reg k =>
    have := k.isLt
    refine decodes_c hw rfl rfl rfl (hr := rfl) ?_ (by simp [RawC.fits, rawBody, rawSrc16, rawPred, show guardCode guardAll = 62 from rfl]; try omega)
    refine congrArg some ?_
    show Instr.pwracq _ (if bitB _ then _ else _) = _
    rw [if_pos (bitAt true _ (by simp only [rawBody, rawSrc16, Bool.toNat_true, Bool.toNat_false]; omega))]
    exact congrArg₂ Instr.pwracq (guardOf_guardCode g) (congrArg Src3.reg (finAt _ _ (by (try dsimp only [rawBody, rawSrc16, rawPred, rawOff14]); omega)))
theorem pwrrel (g : Guard) : Statement (.pwrrel g) := fun hw _ => by
  have := guardCode_lt g
  refine decodes_c hw rfl rfl rfl (hr := rfl) ?_ (by simp [RawC.fits, rawBody, rawSrc16, rawPred, show guardCode guardAll = 62 from rfl]; try omega)
  · exact congrArg (fun x => some (Instr.pwrrel x)) (guardOf_guardCode g)
theorem sprint (g : Guard) (t : Src16) : Statement (.sprint g t) := fun hw _ => by
  have := guardCode_lt g
  cases t with
  | imm k =>
    have := k.isLt
    refine decodes_c hw rfl rfl rfl (hr := rfl) ?_ (by simp [RawC.fits, rawBody, rawSrc16, rawPred, show guardCode guardAll = 62 from rfl]; try omega)
    refine congrArg some ?_
    exact congrArg₂ Instr.sprint (guardOf_guardCode g) ((src16_imm (bitAt false _ (by simp only [rawBody, rawSrc16, Bool.toNat_true, Bool.toNat_false]; omega))).trans (congrArg Src16.imm (bvAt _ _ (by (try dsimp only [rawBody, rawSrc16, rawPred, rawOff14]); omega))))
  | reg k =>
    have := k.isLt
    refine decodes_c hw rfl rfl rfl (hr := rfl) ?_ (by simp [RawC.fits, rawBody, rawSrc16, rawPred, show guardCode guardAll = 62 from rfl]; try omega)
    refine congrArg some ?_
    exact congrArg₂ Instr.sprint (guardOf_guardCode g) ((src16_reg (bitAt true _ (by simp only [rawBody, rawSrc16, Bool.toNat_true, Bool.toNat_false]; omega))).trans (congrArg Src16.reg (finAt _ _ (by (try dsimp only [rawBody, rawSrc16, rawPred, rawOff14]); omega))))
theorem sync (g : Guard) (l : SyncLevel) : Statement (.sync g l) := fun hw _ => by
  have := guardCode_lt g
  cases l with
  | grp n =>
    have := n.isLt
    refine decodes_c hw rfl rfl rfl (hr := rfl) ?_ (by simp [RawC.fits, rawBody, rawSrc16, rawPred, show guardCode guardAll = 62 from rfl]; try omega)
    have h0 : (n : Nat) / 2 ^ 18 = 0 := by omega
    simp only [candC, rawBody, h0, guardOf_guardCode, finAt n n (Nat.mod_eq_of_lt n.isLt)]
  | clu =>
    refine decodes_c hw rfl rfl rfl (hr := rfl) ?_ (by simp [RawC.fits, rawBody, rawSrc16, rawPred, show guardCode guardAll = 62 from rfl]; try omega)
    simp [candC, rawBody]
  | dev =>
    refine decodes_c hw rfl rfl rfl (hr := rfl) ?_ (by simp [RawC.fits, rawBody, rawSrc16, rawPred, show guardCode guardAll = 62 from rfl]; try omega)
    simp [candC, rawBody]
theorem hwait (g : Guard) (sx : Fin 64) : Statement (.hwait g sx) := fun hw _ => by
  have := guardCode_lt g; have := sx.isLt
  refine decodes_c hw rfl rfl rfl (hr := rfl) ?_ (by simp [RawC.fits, rawBody, rawSrc16, rawPred, show guardCode guardAll = 62 from rfl]; try omega)
  · refine congrArg some ?_
    simp only [Instr.hwait.injEq]
    exact ⟨guardOf_guardCode g, finAt _ _ (by (try dsimp only [rawBody, rawSrc16, rawPred, rawOff14]); omega)⟩
theorem chkm (g : Guard) (on : Bool) : Statement (.chkm g on) := fun hw _ => by
  have := guardCode_lt g; have := boolNat_lt on
  refine decodes_c hw rfl rfl rfl (hr := rfl) ?_ (by simp [RawC.fits, rawBody, rawSrc16, rawPred, show guardCode guardAll = 62 from rfl]; try omega)
  · refine congrArg some ?_
    simp only [Instr.chkm.injEq]
    exact ⟨guardOf_guardCode g, bitAt _ _ (by (try dsimp only [rawBody, rawSrc16, rawPred, rawOff14]); omega)⟩
theorem quarterIssuePick (core quarter : Nat) : Statement (.quarterIssuePick core quarter) := fun _ h => absurd rfl h
theorem promotion (gang part : Nat) : Statement (.promotion gang part) := fun _ h => absurd rfl h
theorem regangRelease (gang : Nat) : Statement (.regangRelease gang) := fun _ h => absurd rfl h
theorem loadDataArrival (gang slice pos : Nat) : Statement (.loadDataArrival gang slice pos) := fun _ h => absurd rfl h
theorem streamElement (gang slice : Nat) : Statement (.streamElement gang slice) := fun _ h => absurd rfl h
theorem translationWalk (die : Nat) : Statement (.translationWalk die) := fun _ h => absurd rfl h
theorem faultAcknowledge (ctx vpage : Nat) : Statement (.faultAcknowledge ctx vpage) := fun _ h => absurd rfl h
theorem hostPageResponse (ctx vpage : Nat) (present : Bool) : Statement (.hostPageResponse ctx vpage present) := fun _ h => absurd rfl h
theorem fenceComplete (gang part : Nat) : Statement (.fenceComplete gang part) := fun _ h => absurd rfl h
theorem matrixCommandComplete (core : Nat) : Statement (.matrixCommandComplete core) := fun _ h => absurd rfl h
theorem mmacInstanceComplete (ctx cluster set : Nat) : Statement (.mmacInstanceComplete ctx cluster set) := fun _ h => absurd rfl h
theorem copyBytesPerformed (core cmd : Nat) (elems : List Nat) : Statement (.copyBytesPerformed core cmd elems) := fun _ h => absurd rfl h
theorem copyComplete (core cmd : Nat) : Statement (.copyComplete core cmd) := fun _ h => absurd rfl h
theorem remoteRequestReceive (r : RemoteReq) : Statement (.remoteRequestReceive r) := fun _ h => absurd rfl h
theorem remoteAnswer (a : RemoteAns) : Statement (.remoteAnswer a) := fun _ h => absurd rfl h
theorem requestResendTimeout (req : Nat) : Statement (.requestResendTimeout req) := fun _ h => absurd rfl h
theorem carriedStoreResend (req : Nat) : Statement (.carriedStoreResend req) := fun _ h => absurd rfl h
theorem holdBoundExpiry (h : HoldRef) : Statement (.holdBoundExpiry h) := fun _ h => absurd rfl h
theorem brel (m : Msg) : Statement (.brel m) := fun _ h => absurd rfl h
theorem bfail (m : Msg) : Statement (.bfail m) := fun _ h => absurd rfl h
theorem heldack (m : Msg) : Statement (.heldack m) := fun _ h => absurd rfl h
theorem bexp (m : Msg) : Statement (.bexp m) := fun _ h => absurd rfl h
theorem sdreq (m : Msg) : Statement (.sdreq m) := fun _ h => absurd rfl h
theorem sdack (m : Msg) : Statement (.sdack m) := fun _ h => absurd rfl h
theorem sddone (m : Msg) : Statement (.sddone m) := fun _ h => absurd rfl h
theorem incann (m : Msg) : Statement (.incann m) := fun _ h => absurd rfl h
theorem deadn (m : Msg) : Statement (.deadn m) := fun _ h => absurd rfl h
theorem peerRecoveryTimeout (peer : Nat) : Statement (.peerRecoveryTimeout peer) := fun _ h => absurd rfl h
theorem portTrained (port lanes : Nat) : Statement (.portTrained port lanes) := fun _ h => absurd rfl h
theorem portLaneFailure (port : Nat) : Statement (.portLaneFailure port) := fun _ h => absurd rfl h
theorem portReplayExhausted (port : Nat) : Statement (.portReplayExhausted port) := fun _ h => absurd rfl h
theorem portTrainingTimeout (port : Nat) : Statement (.portTrainingTimeout port) := fun _ h => absurd rfl h
theorem portIdleTimeout (port : Nat) : Statement (.portIdleTimeout port) := fun _ h => absurd rfl h
theorem hostSubmission (fn ctx q off len : Nat) (dwords : List (BitVec 64)) : Statement (.hostSubmission fn ctx q off len dwords) := fun _ h => absurd rfl h
theorem launchPacketRead (gang part : Nat) : Statement (.launchPacketRead gang part) := fun _ h => absurd rfl h
theorem queueEnable (fn ctx q : Nat) : Statement (.queueEnable fn ctx q) := fun _ h => absurd rfl h
theorem queueDrain (fn ctx q : Nat) : Statement (.queueDrain fn ctx q) := fun _ h => absurd rfl h
theorem queueHalt (fn ctx q : Nat) : Statement (.queueHalt fn ctx q) := fun _ h => absurd rfl h
theorem queueResume (fn ctx q : Nat) : Statement (.queueResume fn ctx q) := fun _ h => absurd rfl h
theorem queueDisable (fn ctx q : Nat) : Statement (.queueDisable fn ctx q) := fun _ h => absurd rfl h
theorem queueResumeParked (fn ctx q slot : Nat) : Statement (.queueResumeParked fn ctx q slot) := fun _ h => absurd rfl h
theorem queueKillParked (fn ctx q slot : Nat) : Statement (.queueKillParked fn ctx q slot) := fun _ h => absurd rfl h
theorem launchStart (ctx q : Nat) : Statement (.launchStart ctx q) := fun _ h => absurd rfl h
theorem groupPlace (ctx q : Nat) : Statement (.groupPlace ctx q) := fun _ h => absurd rfl h
theorem poolClearDone (core : Nat) : Statement (.poolClearDone core) := fun _ h => absurd rfl h
theorem taskTake (core ctx : Nat) : Statement (.taskTake core ctx) := fun _ h => absurd rfl h
theorem taskSteal (core ctx : Nat) : Statement (.taskSteal core ctx) := fun _ h => absurd rfl h
theorem forkRetry (core ctx : Nat) : Statement (.forkRetry core ctx) := fun _ h => absurd rfl h
theorem barrierArrival (gang : Nat) : Statement (.barrierArrival gang) := fun _ h => absurd rfl h
theorem barrierRelease (b : BarRef) : Statement (.barrierRelease b) := fun _ h => absurd rfl h
theorem snapshotComplete (group : Nat) : Statement (.snapshotComplete group) := fun _ h => absurd rfl h
theorem futureParkRetry (gang part : Nat) : Statement (.futureParkRetry gang part) := fun _ h => absurd rfl h
theorem groupRetire (group : Nat) : Statement (.groupRetire group) := fun _ h => absurd rfl h
theorem launchEnd (ctx q seq : Nat) : Statement (.launchEnd ctx q seq) := fun _ h => absurd rfl h
theorem uncorrectableErrorConsumed (group gang site : Nat) : Statement (.uncorrectableErrorConsumed group gang site) := fun _ h => absurd rfl h
theorem storageErrorDetected (site : ErrSite) (corrected : Bool) : Statement (.storageErrorDetected site corrected) := fun _ h => absurd rfl h
theorem hbmRepairFailure (pa : Nat) : Statement (.hbmRepairFailure pa) := fun _ h => absurd rfl h
theorem watchdogExpiry (gang slice set : Nat) : Statement (.watchdogExpiry gang slice set) := fun _ h => absurd rfl h
theorem gangStop (gang : Nat) : Statement (.gangStop gang) := fun _ h => absurd rfl h
theorem ctxCreate (fn : Nat) (cmd : List (BitVec 64)) : Statement (.ctxCreate fn cmd) := fun _ h => absurd rfl h
theorem ctxSet (fn : Nat) (cmd : List (BitVec 64)) : Statement (.ctxSet fn cmd) := fun _ h => absurd rfl h
theorem ctxSave (fn : Nat) (cmd : List (BitVec 64)) : Statement (.ctxSave fn cmd) := fun _ h => absurd rfl h
theorem ctxRestore (fn : Nat) (cmd : List (BitVec 64)) : Statement (.ctxRestore fn cmd) := fun _ h => absurd rfl h
theorem ctxKill (fn : Nat) (cmd : List (BitVec 64)) : Statement (.ctxKill fn cmd) := fun _ h => absurd rfl h
theorem ctxDestroy (fn : Nat) (cmd : List (BitVec 64)) : Statement (.ctxDestroy fn cmd) := fun _ h => absurd rfl h
theorem ctxStopComplete (ctx : Nat) : Statement (.ctxStopComplete ctx) := fun _ h => absurd rfl h
theorem ctxSaveAreaWritten (ctx : Nat) (error : Option Nat) : Statement (.ctxSaveAreaWritten ctx error) := fun _ h => absurd rfl h
theorem mapMap (fn : Nat) (cmd : List (BitVec 64)) : Statement (.mapMap fn cmd) := fun _ h => absurd rfl h
theorem mapUnmap (fn : Nat) (cmd : List (BitVec 64)) : Statement (.mapUnmap fn cmd) := fun _ h => absurd rfl h
theorem mapSetAttributes (fn : Nat) (cmd : List (BitVec 64)) : Statement (.mapSetAttributes fn cmd) := fun _ h => absurd rfl h
theorem mapProof (fn : Nat) (cmd : List (BitVec 64)) : Statement (.mapProof fn cmd) := fun _ h => absurd rfl h
theorem mapPin (fn : Nat) (cmd : List (BitVec 64)) : Statement (.mapPin fn cmd) := fun _ h => absurd rfl h
theorem mapUnpin (fn : Nat) (cmd : List (BitVec 64)) : Statement (.mapUnpin fn cmd) := fun _ h => absurd rfl h
theorem mapSpillArea (fn : Nat) (cmd : List (BitVec 64)) : Statement (.mapSpillArea fn cmd) := fun _ h => absurd rfl h
theorem prooferScan : Statement .prooferScan := fun _ h => absurd rfl h
theorem pageMoveComplete (ctx vpage : Nat) : Statement (.pageMoveComplete ctx vpage) := fun _ h => absurd rfl h
theorem markPacerAnswer (gang part : Nat) : Statement (.markPacerAnswer gang part) := fun _ h => absurd rfl h
theorem placementCounterHalving : Statement .placementCounterHalving := fun _ h => absurd rfl h
theorem currentGrant (die : Nat) : Statement (.currentGrant die) := fun _ h => absurd rfl h
theorem leaseGrant (die : Nat) : Statement (.leaseGrant die) := fun _ h => absurd rfl h
theorem leaseExpiry (gang : Nat) : Statement (.leaseExpiry gang) := fun _ h => absurd rfl h
theorem clusterIdleTimeout (cluster : Nat) : Statement (.clusterIdleTimeout cluster) := fun _ h => absurd rfl h
theorem railChangeComplete (cluster : Nat) : Statement (.railChangeComplete cluster) := fun _ h => absurd rfl h
theorem temperatureReading (cluster : Nat) (raw : Int) : Statement (.temperatureReading cluster raw) := fun _ h => absurd rfl h
theorem currentReading (cluster : Nat) (raw : Int) : Statement (.currentReading cluster raw) := fun _ h => absurd rfl h
theorem sensorSuspectClear (cluster : Nat) (thermal : Bool) : Statement (.sensorSuspectClear cluster thermal) := fun _ h => absurd rfl h
theorem energyInterval (cluster energy : Nat) : Statement (.energyInterval cluster energy) := fun _ h => absurd rfl h
theorem timingReplay (core : Nat) : Statement (.timingReplay core) := fun _ h => absurd rfl h
theorem replayHoldExpiry (cluster : Nat) : Statement (.replayHoldExpiry cluster) := fun _ h => absurd rfl h
theorem hbmIdleTimeout (stack : Nat) : Statement (.hbmIdleTimeout stack) := fun _ h => absurd rfl h
theorem powerGood (verified : Bool) : Statement (.powerGood verified) := fun _ h => absurd rfl h
theorem stage1Entry (r : BootResult) : Statement (.stage1Entry r) := fun _ h => absurd rfl h
theorem joinWrite (value : BitVec 64) : Statement (.joinWrite value) := fun _ h => absurd rfl h
theorem joinComplete : Statement .joinComplete := fun _ h => absurd rfl h
theorem featacptWrite (off size : Nat) (value : BitVec 128) : Statement (.featacptWrite off size value) := fun _ h => absurd rfl h
theorem safelpWrite (value : BitVec 64) : Statement (.safelpWrite value) := fun _ h => absurd rfl h
theorem portenWrite (value : BitVec 64) : Statement (.portenWrite value) := fun _ h => absurd rfl h
theorem diecapWrite (die : Nat) (value : BitVec 64) : Statement (.diecapWrite die value) := fun _ h => absurd rfl h
theorem peerstatStaleClear (peer : Nat) (value : BitVec 64) : Statement (.peerstatStaleClear peer value) := fun _ h => absurd rfl h
theorem registerWrite (r : RegAddr) (size : Nat) (value : BitVec 64) : Statement (.registerWrite r size value) := fun _ h => absurd rfl h
theorem spdmRequest (r : SpdmReq) : Statement (.spdmRequest r) := fun _ h => absurd rfl h
theorem hostAddressTranslationChange (ctx iova : Nat) (present : Bool) : Statement (.hostAddressTranslationChange ctx iova present) := fun _ h => absurd rfl h

end Sys2Proof.Laws.Enc
end

