-- ==== Sys2Proof/Safety.lean ====
section
/-! DEFINITION. What claims are stated in terms of: which states are legal, which runs are safe, and when a bundle's
instruction issues with nothing in its way. -/

namespace Sys2Proof.Machine

/-- The device registers hold values that they can hold (R25, R357, R366, R393, R394, R397, R403, R404): FEATACPT keeps bit 0 and
accepts no feature that FEATAVAIL lacks, the stage is 0 to 2, JOIN holds a package number and 1, 2, 4, 8, 16 or 32 planes, and
EXPBASE is 4 KiB aligned. -/
def Dev.ok (d : Dev) : Prop :=
  d.feat.testBit 0 = true ∧ d.feat &&& Config.featAvail = d.feat ∧ d.stage ≤ 2 ∧ d.err ≤ 6 ∧ d.planes ≤ 5 ∧ d.pkgid < 512
    ∧ d.porten < 2 ^ 32 ∧ d.expbase % 4096 = 0 ∧ d.expcnt < 2 ^ 64 ∧ d.safeState ≤ 3

/-- A legal state: the device registers are legal, and local HBM and host memory are in their canonical form. -/
def State.Inv (s : State) : Prop := s.dev.ok ∧ Memory.wf s.mem = true ∧ Memory.wf s.host = true

/-- A safe step: it does not issue code that the proofer would refuse (R81, R108), and it does not fault. -/
def State.safe (s : State) : Prop := ∃ t, step s = .next t

/-- The bundle of cursor `c` is issuing, and no check of R372 stops instruction `i` of it. -/
def State.issues (s : State) (c : Cursor) (i : Instr) : Prop := s.cur = some c ∧ (c.checked = true ∨ s.pre c i = none)

/-- Nothing but the current gang's flight of fixed-latency writes, its RS states and the serial differs. -/
def State.onlyFlight (s t : State) (c : Cursor) : Prop :=
  ∃ (fl : List InFlight) (rs : List (Nat × Word)) (n : Nat),
    t = { s.modGang c.gang (fun g => { g with flight := fl, g := rs }) with serial := n }

/-- A bit vector of an integer type as a V register or pair, or a queue entry, holds it (R56): signed types by their sign. -/
def regBits (t : Ty) (x : BitVec (widthOf t)) : Nat :=
  if is64 t then x.toNat else if isSigned t then (x.signExtend 32).toNat else x.toNat

/-- The low bits of a source, as wide as its type (R148). -/
def State.srcBits (s : State) (c : Cursor) (t : Ty) (o : Opd) (i : Nat) : BitVec (widthOf t) :=
  BitVec.ofNat (widthOf t) (s.operand c o i t)

/-- A transfer's target (R120): the bundle's address and four times the offset, modulo 2^64. -/
def jumpTo {n : Nat} (pc : Nat) (off : BitVec n) : Nat := (BitVec.ofNat 64 pc + 4 * off.signExtend 64).toNat

/-- The gang of a cursor is there, has no access under way, and no fence of it holds back the next one. -/
def State.idleOf (s : State) (c : Cursor) : Prop :=
  (smFind s.gangs c.gang).isSome = true ∧ (s.gang c.gang).accs = [] ∧ ∀ a, (s.gang c.gang).fenced s.nextId a = false

/-- An access of a core to an address translates through the core's own TLB to a local physical address (R178, R282). -/
def State.hits (s : State) (core c va : Nat) (u : Use) (pa : Nat) : Prop :=
  s.faultPending (dieOf core) c va = false ∧ ∃ e, tlbFind (s.core core).tlb c va = some e ∧ s.placeLeaf c va e.e e.va u = .hbm pa

/-- Every register of every gang, and every device register, is as it was: V, predicate, latch, S, K, G and special registers, the
pending-failure record, the check mode, the current class and the writes in flight. -/
def State.sameRegs (s t : State) : Prop :=
  t.dev = s.dev ∧ ∀ u, let a := s.gang u
    let b := t.gang u
    b.v = a.v ∧ b.p = a.p ∧ b.l0 = a.l0 ∧ b.l1 = a.l1 ∧ b.c0 = a.c0 ∧ b.c1 = a.c1 ∧ b.g = a.g ∧ b.s = a.s ∧ b.k = a.k ∧ b.dmr = a.dmr
      ∧ b.fstat = a.fstat ∧ b.pendBits = a.pendBits ∧ b.pendCount = a.pendCount ∧ b.chk = a.chk ∧ b.curcls = a.curcls ∧ b.flight = a.flight

/-- Global memory, host memory and every group's scratchpad, tiles and futures but group `g`'s are as they were. -/
def State.sameMemBut (s t : State) (g : Nat) : Prop :=
  t.mem = s.mem ∧ t.host = s.host ∧ t.futs = s.futs ∧ ∀ h, h ≠ g → t.group h = s.group h

/-- A peer's traffic is current (R358, R360): this package has joined, the link is UP, and both incarnations are the present ones. -/
def State.current (s : State) (src srcInc dstInc : Nat) : Prop :=
  s.dev.stage = 2 ∧ (s.peer src).st = .up ∧ srcInc = (s.peer src).inc ∧ dstInc = s.link.inc

/-- A message for this package, whole (R354), from a peer whose traffic is current (R353). -/
def State.heeds (s : State) (m : Msg) : Prop := s.current m.srcPkg m.srcInc m.dstInc ∧ m.dstPkg = s.dev.pkgid ∧ m.crcOk = true

/-- The answer that a heeded message is given (R353, R368). -/
def State.answerTo (s : State) (m : Msg) : Reply := ⟨m.srcPkg, m.srcInc, s.link.inc, m.tag, .done [], 0⟩

/-- The guard of an instruction of the system class (R237). -/
def sysGuard : Instr → Option Guard
  | .sysrd g _ _ | .syswr g _ _ | .trap g _ | .tret g | .mark g _ | .markWait g _ | .trig g | .launch g _ _ _ | .fork g _ _ _ _
  | .join g _ _ | .yield g | .pwracq g _ | .pwrrel g | .sprint g _ | .sync g _ | .hwait g _ | .chkm g _ => some g
  | _ => none

/-- The number that an exact value is; an infinity or a NaN counts as 0. -/
def exVal : Ex → Rat
  | .fin neg m e => (if neg then -1 else 1) * (m : Rat) * (2 : Rat) ^ e
  | _ => 0

/-- The pairwise tree of R77 over the `2^n` lanes from `b` on: a node with one absent child passes the other on. -/
def pairTree (f : Nat → Nat → Nat) (leaf : Nat → Option Nat) : Nat → Nat → Option Nat
  | 0, b => leaf b
  | n + 1, b =>
    match pairTree f leaf n b, pairTree f leaf n (b + 2 ^ n) with
    | none, y => y
    | some x, none => some x
    | some x, some y => some (f x y)

/-- The destination of a vector-slot instruction that a write of it may have: a V register or pair, a predicate, or an S register. -/
def isDest : Instr → Write → Prop
  | .vadd o, w | .vsub o, w | .vmul o, w | .vmulh o, w | .vmin o, w | .vmax o, w | .vand o, w | .vor o, w | .vxor o, w
  | .vshl o, w | .vshr o, w | .vrot o, w | .vbfx o, w | .vfadd o, w | .vfsub o, w | .vfmul o, w | .vfmin o, w | .vfmax o, w =>
    ∃ l x, w = vWrite o.ty l o.d x true
  | .vmad o, w | .vbfi o, w | .vfma o, w => ∃ l x, w = vWrite o.ty l o.d x true
  | .vabs o, w | .vneg o, w | .vnot o, w | .vpopc o, w | .vclz o, w | .vbrev o, w | .vfabs o, w | .vfneg o, w | .vrcp o, w
  | .vrsq o, w | .vsqrt o, w | .vexp2 o, w | .vlog2 o, w | .vsin o, w | .vcos o, w | .vtanh o, w | .vmov o, w =>
    ∃ l x, w = vWrite o.ty l o.d x true
  | .vcmp o, w => ∃ l b, w = .p l o.pd b
  | .vsel o, w => ∃ l x, w = vWrite o.ty l o.d x true
  | .vcvt o, w => ∃ l x, w = vWrite o.dt l o.d x true
  | .vpack o, w => ∃ l x, w = vWrite .b32 l o.d x true
  | .vunpk o, w => ∃ l x, w = vWrite .b32 l o.d x true
  | .vqnt o, w => ∃ l lo hi, w = .v l o.d lo (some hi) true
  | .vote o, w => ∃ l b, w = .p l o.pd b
  | .vballot o, w => ∃ x, w = .s o.sd x
  | .shfl o, w => (∃ l x, w = vWrite o.ty l o.d x true) ∨ ∃ l b, w = .p l (16 + o.e.val) b
  | .vred o, w => ∃ l x, w = vWrite o.ty l o.d x true
  | _, _ => False

end Sys2Proof.Machine
end

