-- ==== Sys2Proof/Certificates/Slice0/Obligations.lean ====
section
/-! DEFINITION. The statements about the machine. -/

open Sys2Proof Sys2Proof.Machine

/-! The machine. -/

/-- What reset leaves (R6, R14, R25, R290, R356 to R358, R363, R389, R393, R397): the package is not powered, stage 0, no error,
FEATACPT holds bit 0 alone, every cluster is on the low rail (R392), no port and no peer link is up, every context is free, no gang or
group is placed, and nothing is written in memory. That memory lists nothing and that no port is enabled are the model's choices (log
entries 3 and 4, DESIGN CHOICE); the values of the other registers at reset are in State.reset. -/
def Sys2Proof.Claims.ResetValues : Prop :=
  let s := State.reset
  s.dev.powered = false ∧ s.dev.stage = 0 ∧ s.dev.err = 0 ∧ s.dev.feat = 1 ∧ s.dev.featWr = false ∧ s.dev.safeState = 0
    ∧ (∀ k < 48, (s.cluster k).high = false ∧ (s.cluster k).change = none) ∧ (∀ d < 4, (s.die d).budget = 327680)
    ∧ (∀ p, (s.peer p).st = .none) ∧ (∀ k, (s.port k).st = .disabled) ∧ s.link.batonNext = 1
    ∧ (∀ c, (s.ctx c).st = .free) ∧ s.gangs = [] ∧ s.groups = [] ∧ s.mem = []

/-- The state after reset is legal. -/
def Sys2Proof.Claims.ResetIsLegal : Prop := State.reset.Inv

/-- What reset leaves, and that it is a legal state: `ResetValues`, `ResetIsLegal`. -/
def Obligations.ResetState : Prop :=
  Claims.ResetValues ∧ Claims.ResetIsLegal

/-- Every step keeps the state legal: whatever instruction or event it runs, the device registers stay legal and memory keeps its
canonical form. -/
def Obligations.StepKeepsLegal : Prop := ∀ s t : State, s.Inv → step s = .next t → t.Inv

/-- No meaning faults or refuses: every instruction and every event answers a next state, in every state. That an event whose conditions
do not hold, or a slot with no bundle issuing, answers a next state too is the model's choice (log entry 1, DESIGN CHOICE). -/
def Obligations.EveryMeaningGoesOn : Prop := ∀ (i : Instr) (s : State), ∃ t, exec i s = .next t

/-- A step runs the decoded instruction. The bytes at a picked part's program counter that decode to a bundle make the part's next
bundle; when no check of R372 stops it, its gang's state is not tainted by an error and it reads no bad word of the pool (R383), and it is no MARK that the pacer still has to
answer, the step runs the bundle's slots in order over the state in which the bundle has issued, and then divides the part; a bundle of one
instruction runs `exec` of it. -/
def Obligations.StepRunsDecodedBundle : Prop :=
  (∀ (s : State) (u k : Nat) (p : Part) (bs : List Byte) (b : Bundle), (s.gang u).part k = some p →
    s.fetch (s.gang u).ctx ((s.gang u).pcOf p.slices) = .ok bs → decodeBytes bs = .ok b →
    ∃ c, s.nextBundle u k = .bundle c b.h b.instrs ∧ c.gang = u ∧ c.pc = (s.gang u).pcOf p.slices ∧ c.slices = p.slices
      ∧ c.gap = b.h.gapCycles ∧ c.next = wrap64 (((s.gang u).pcOf p.slices : Int) + 4 * (b.h.words : Nat)))
  ∧ (∀ (s : State) (u k : Nat) (rest : List (Nat × Nat)) (c : Cursor) (h : Header) (is : List Instr),
    let s0 : State := { s with picked := rest }
    let d := (is.findSome? (fun i => match i with
      | .cpy o | .cpyr o => some (s0.copyDesc c (s0.readS c o.sx))
      | _ => none)).getD []
    let c' : Cursor := { c with desc := d }
    s.picked = (u, k) :: rest → s0.eligible u k = true → (s.gang u).tainted = false → s0.nextBundle u k = .bundle c h is →
    s0.preAll c' is (s0.currentCheck c' is) none = none → is.any (s0.readsBad c' d) = false → s0.marking c' is = none →
    step s = finishBundle (runSlots is { s0.commence c' is with cur := some { c' with checked := true } }))
  ∧ (∀ (i : Instr) (s : State), runSlots [i] s = exec i s)

/-- With nothing picked, the step runs the oldest event of the agenda; with no event either, time goes on by a clock edge. The agenda and
the edges that fill it are the model's choice (log entry 1, DESIGN CHOICE). -/
def Sys2Proof.Claims.StepRunsAgenda : Prop :=
  (∀ (s : State) (i : Instr) (rest : List Instr), s.picked = [] → s.agenda = i :: rest →
    step s = exec i { s with agenda := rest })
  ∧ (∀ s : State, s.picked = [] → s.agenda = [] → step s = .next s.tick)

/-- A picked part whose code the decoder refuses stops the run by name (R81, R108: such code has no defined behaviour). -/
def Sys2Proof.Claims.UnproofedCodeRefused : Prop :=
  ∀ (s : State) (u k : Nat) (p : Part) (rest : List (Nat × Nat)) (bs : List Byte) (e : Slot × Nat),
    s.picked = (u, k) :: rest → (s.gang u).part k = some p → ({ s with picked := rest } : State).eligible u k = true →
    (s.gang u).tainted = false →
    s.fetch (s.gang u).ctx ((s.gang u).pcOf p.slices) = .ok bs → decodeBytes bs = .error e →
    step s = .refused (.unproofedCode (slotCode e.1) e.2)

/-- Events, clock edges, and code that the decoder refuses: `StepRunsAgenda` (log entry 1, DESIGN CHOICE), `UnproofedCodeRefused`. -/
def Obligations.StepWithoutABundle : Prop :=
  Claims.StepRunsAgenda ∧ Claims.UnproofedCodeRefused

/-! Encodings. -/

/-- Decoding and encoding agree: a well-formed code instruction, with every operand at every value that its encoding holds, encoded
in a bundle of its own, is what the decoder reads back. -/
def Obligations.DecodeEncode : Prop := ∀ i : Instr, Laws.Enc.Statement i

/-- The other direction for a slot word: a vector, memory or copy-or-matrix slot that decodes is the word that its instruction
encodes to, so that no bit of a decoded slot is dropped. -/
def Obligations.EncodeDecode : Prop :=
  (∀ (w : Nat) (i : Instr), w < 2 ^ 64 → decodeV (splitV w) = .ok i → encode i = words64 w)
  ∧ (∀ (w : Nat) (i : Instr), w < 2 ^ 64 → decodeM (splitM w) = .ok i → encode i = words64 w)
  ∧ (∀ (w : Nat) (i : Instr), w < 2 ^ 64 → decodeX (splitX w) = .ok i → encode i = words64 w)

/-- Words that the spec writes out decode to the instructions it gives for them: the worked bundle of 04 (FMA, load and ENDL in one
bundle), `@!P3 br` with offset −6 words, `testf.any P4, F1, F3`, `pand P3, P1, !P2`, the two SADDs
of 05, and of 21 the VAND with SYNC and the store of an immediate. -/
def Obligations.EncodingWords : Prop :=
  ((decodeBundle [0xD2003400, 0x01500040, 0x23A0F810, 0x04000000, 0x00007CA1, 0x27E00000]).toOption.map Bundle.instrs
    = some [.vfma ⟨.f32, .rne, false, guardAll, 4, .v 1, .l0, .v 4⟩,
        .ld ⟨.b32, .none, .plain, guardAll, ⟨2, .v 0, 0⟩, 0, false⟩, .endl 0])
  ∧ ((decodeBundle [0x10000000, 0x007FFFFA]).toOption.map Bundle.instrs = some [.br ⟨3, true⟩ (.short (-6))])
  ∧ ((decodeBundle [0x10000000, 0x348000A8]).toOption.map Bundle.instrs = some [.testf 4 false 0x000A true])
  ∧ ((decodeBundle [0x10000000, 0x43E18448]).toOption.map Bundle.instrs = some [.pand ⟨3, 1, 2, false, true⟩])
  ∧ ((decodeBundle [0x10000000, 0x63E104F8]).toOption.map Bundle.instrs = some [.sadd ⟨4, 4, .imm (-8)⟩])
  ∧ ((decodeBundle [0x10000100, 0x63E10480, 0x00010000]).toOption.map Bundle.instrs = some [.sadd ⟨4, 4, .ext 0x10000⟩])
  ∧ ((decodeBundle [0x93004000, 0x068FC000, 0x0930F818, 0xD7E00000]).toOption.map Bundle.instrs
    = some [.vand ⟨.i32, .rne, false, guardAll, 6, .v 6, .imm 63⟩, .sync guardAll (.grp 0)])
  ∧ ((decodeBundle [0x40000000, 0x85002000, 0x01097D00]).toOption.map Bundle.instrs
    = some [.st ⟨.b32, .dev, .rel, guardAll, .imm 1, ⟨2, .imm 0, 0⟩, 1024⟩])

/-! Registers and the writes that land in them. -/

/-- P31 is hard-wired (R12): it reads true in every lane of every state, a write to it changes nothing, and another predicate takes
what is written to it. -/
def Sys2Proof.Claims.PredicateThirtyOne : Prop :=
  (∀ (s : State) (c : Cursor) (i : Nat), s.readP c i 31 = true)
  ∧ (∀ (g : Gang) (t i : Nat) (b : Bool), g.landWrite t (.p i 31 b) = g)
  ∧ (∀ (g : Gang) (t i r : Nat) (b : Bool), r < 31 → smWf false g.p = true → (g.landWrite t (.p i r b)).pReg i r = b)

/-- A fixed-latency result lands exactly its number of cycles after issue (R96), and nothing else changes by it: an S register whose
gang has no other write in flight reads its old value up to the cycle before the landing and the result from then on; every other S
register, every V register, predicate and K register keeps its value. -/
def Sys2Proof.Claims.ResultLandsAtItsCycle : Prop :=
  ∀ (s : State) (c : Cursor) (lat r x : Nat), s.cur = some c → (smFind s.gangs c.gang).isSome = true →
    (s.gang c.gang).flight = [] → smWf (0 : Dword) (s.gang c.gang).s = true →
    let g := s.gang c.gang
    let t := (s.send lat [Write.s r x]).gang c.gang
    (∀ n, n < c.cyc + lat → (t.landUpTo n).sReg r = g.sReg r)
      ∧ (∀ n, c.cyc + lat ≤ n → (t.landUpTo n).sReg r = x % 2 ^ 64)
      ∧ (∀ n q, q ≠ r → (t.landUpTo n).sReg q = g.sReg q)
      ∧ (∀ n i q, (t.landUpTo n).vReg i q = g.vReg i q ∧ (t.landUpTo n).pReg i q = g.pReg i q ∧ (t.landUpTo n).kReg q = g.kReg q)

/-- A write with a later landing cycle overwrites one with an earlier landing cycle, even if it was issued first, and of two writes that
land in the same cycle the one issued later stays (R98). -/
def Sys2Proof.Claims.LaterLandingStays : Prop :=
  ∀ (g : Gang) (a b : InFlight) (r x y n : Nat), smWf (0 : Dword) g.s = true → a.w = .s r x → b.w = .s r y →
    (a.land < b.land ∨ (a.land = b.land ∧ a.seq < b.seq)) → b.land ≤ n →
    (({ g with flight := insertFlight b (insertFlight a []) } : Gang).landUpTo n).sReg r = y % 2 ^ 64
      ∧ (({ g with flight := insertFlight a (insertFlight b []) } : Gang).landUpTo n).sReg r = y % 2 ^ 64

/-- Results land at their cycle, and the later landing stays: `ResultLandsAtItsCycle`, `LaterLandingStays`. -/
def Obligations.ResultsLandInTheirCycle : Prop :=
  Claims.ResultLandsAtItsCycle ∧ Claims.LaterLandingStays

/-- A vector result lands in its destination and shifts the lane's latches; a 64-bit result shifts twice, so that its low word is left
in L1 and its high word in L0 (R92). The latches of other lanes, and those of a lane into which a predicate or a scalar result lands,
are left alone. -/
def Sys2Proof.Claims.ResultShiftsLatches : Prop :=
  ∀ (g : Gang) (t i r lo hi : Nat), smWf (0 : Word) g.v = true → smWf (0 : Word) g.l0 = true → smWf (0 : Word) g.l1 = true →
    lo < 2 ^ 32 → hi < 2 ^ 32 →
    (let h := g.landWrite t (.v i r lo none true)
     h.vReg i r = lo ∧ h.latch0 i = lo ∧ h.latch1 i = g.latch0 i ∧ ∀ j, j ≠ i → h.latch0 j = g.latch0 j ∧ h.latch1 j = g.latch1 j)
    ∧ (let h := g.landWrite t (.v i r lo (some hi) true)
       h.vReg i r = lo ∧ h.vReg i (r + 1) = hi ∧ h.latch0 i = hi ∧ h.latch1 i = lo
         ∧ ∀ j, j ≠ i → h.latch0 j = g.latch0 j ∧ h.latch1 j = g.latch1 j)
    ∧ (∀ (b : Bool) (x : Nat), (g.landWrite t (.p i r b)).latch0 = g.latch0 ∧ (g.landWrite t (.s r x)).latch0 = g.latch0
        ∧ (g.landWrite t (.p i r b)).latch1 = g.latch1 ∧ (g.landWrite t (.s r x)).latch1 = g.latch1)

/-- A byte of memory reads what was last written to it, every other byte reads as before, writing keeps the canonical form, and two
memories in that form that read alike are equal. -/
def Obligations.MemoryReadsWhatWasWritten : Prop :=
  (∀ (m : Memory) (a : Nat) (bs : List Byte), Memory.wf m = true →
    Memory.wf (Memory.writeN m a bs) = true ∧ Memory.readN (Memory.writeN m a bs) a bs.length = bs
      ∧ ∀ x, (x < a ∨ a + bs.length ≤ x) → (Memory.writeN m a bs).read x = m.read x)
  ∧ (∀ m n : Memory, Memory.wf m = true → Memory.wf n = true → (∀ a, m.read a = n.read a) → m = n)

/-! The control slot. -/

/-- The scalar operations, modulo 2^64, with their result 2 cycles after issue (R139 to R141): a 7-bit immediate is sign-extended,
shifts take the low six bits of their count, SSRA keeps the sign, and SMIN and SMAX compare as signed. -/
def Sys2Proof.Claims.ScalarArithmetic : Prop :=
  ∀ (s : State) (c : Cursor) (d a : Fin 64) (b : SSrc),
    let x : Dword := BitVec.ofNat 64 (s.readS c a)
    let y : Dword := match b with
      | .reg r => BitVec.ofNat 64 (s.readS c r)
      | .imm i => i.signExtend 64
      | .ext i => i.signExtend 64
    let gives := fun (i : Instr) (r : Dword) => s.issues c i → exec i s = .next (s.send 2 [Write.s d r.toNat])
    gives (.sadd ⟨d, a, b⟩) (x + y) ∧ gives (.ssub ⟨d, a, b⟩) (x - y) ∧ gives (.smul ⟨d, a, b⟩) (x * y)
      ∧ gives (.sand ⟨d, a, b⟩) (x &&& y) ∧ gives (.sor ⟨d, a, b⟩) (x ||| y) ∧ gives (.sxor ⟨d, a, b⟩) (x ^^^ y)
      ∧ gives (.sshl ⟨d, a, b⟩) (x <<< (y.toNat % 64)) ∧ gives (.sshr ⟨d, a, b⟩) (x >>> (y.toNat % 64))
      ∧ gives (.ssra ⟨d, a, b⟩) (x.sshiftRight (y.toNat % 64))
      ∧ gives (.smin ⟨d, a, b⟩) (if x.slt y then x else y) ∧ gives (.smax ⟨d, a, b⟩) (if x.slt y then y else x)
      ∧ gives (.smov d b) y

/-- PAND, POR and PXOR combine two predicates, each negated where asked, in every lane of the part, and TESTF writes the test of the
lane's own slice's flags as they stood at the end of the cycle before; the results land 2 cycles after issue (R135, R138). -/
def Sys2Proof.Claims.PredicateLogic : Prop :=
  ∀ (s : State) (c : Cursor) (o : PBin),
    let lit := fun (i : Nat) (p : Fin 32) (n : Bool) => if n then !(s.readP c i p) else s.readP c i p
    let gives := fun (i : Instr) (d : Fin 32) (r : Nat → Bool) =>
      s.issues c i → exec i s = .next (s.send 2 ((s.partLanes c).map (fun l => Write.p l d (r l))))
    gives (.pand o) o.d (fun l => lit l o.a o.na && lit l o.b o.nb)
      ∧ gives (.por o) o.d (fun l => lit l o.a o.na || lit l o.b o.nb)
      ∧ gives (.pxor o) o.d (fun l => lit l o.a o.na != lit l o.b o.nb)
      ∧ ∀ (d : Fin 32) (neg : Bool) (mask : BitVec 16) (any : Bool),
          gives (.testf d neg mask any) d (fun l =>
            let f := (((s.gang c.gang).slice (l / 8)).flags.read c.cyc)
            (if any then decide (f &&& mask.toNat ≠ 0) else decide (f &&& mask.toNat = mask.toNat)) != neg)

/-- Scalar arithmetic and predicate logic: `ScalarArithmetic`, `PredicateLogic`. -/
def Obligations.ScalarAndPredicateOperations : Prop :=
  Claims.ScalarArithmetic ∧ Claims.PredicateLogic

/-- CLRF clears the flags of its mask in every slice of the part, and no other flag: from the next cycle on, a flag of the mask reads 0
and another flag reads as before. Flags of slices outside the part are left alone (R133, R136). -/
def Obligations.ClrfClearsItsFlags : Prop :=
  ∀ (s : State) (c : Cursor) (m : BitVec 16), s.issues c (.clrf m) → (smFind s.gangs c.gang).isSome = true →
    ∃ t, exec (.clrf m) s = .next t ∧
      ∀ k j, k < (s.gang c.gang).slices.length →
        let old := ((s.gang c.gang).slice k).flags
        let new := ((t.gang c.gang).slice k).flags
        (c.slices.testBit k = false → new = old)
          ∧ (c.slices.testBit k = true → old.cyc < c.cyc →
              (new.read (c.cyc + 1)).testBit j = ((old.read c.cyc).testBit j && !(m.toNat.testBit j)))

/-- A flag that a completion sets in the very cycle in which a CLRF clears it is set afterwards (R133). -/
def Sys2Proof.Claims.CompletionBeatsClrf : Prop :=
  ∀ (b : FlagBank) (t m n j : Nat), b.cyc ≤ t → n.testBit j = true →
    (((b.setIn t n).clearIn t m).read (t + 1)).testBit j = true ∧ (((b.clearIn t m).setIn t n).read (t + 1)).testBit j = true

/-- WAITF goes on when every slice of the part meets its condition, as an acquire (R269), and otherwise blocks the part at its own bundle
(R134). -/
def Sys2Proof.Claims.WaitfBlocksUntilSet : Prop :=
  ∀ (s : State) (c : Cursor) (m : BitVec 16) (any : Bool), s.issues c (.waitf m any) →
    ((∀ k ∈ bitsOf 8 c.slices, let f := ((s.gang c.gang).slice k).flags.read c.cyc
        if any then f &&& m.toNat ≠ 0 else f &&& m.toNat = m.toNat) → exec (.waitf m any) s = .next (s.acquired c.gang))
      ∧ ((∃ k ∈ bitsOf 8 c.slices, let f := ((s.gang c.gang).slice k).flags.read c.cyc
        ¬(if any then f &&& m.toNat ≠ 0 else f &&& m.toNat = m.toNat)) →
          exec (.waitf m any) s = .next (s.modGang c.gang (fun g => g.block c.slices (.waitf m.toNat any) c.pc c.pc)))

/-- WAITF, and a completion in the cycle of a CLRF: `CompletionBeatsClrf`, `WaitfBlocksUntilSet`. -/
def Obligations.FlagsAreWaitedFor : Prop :=
  Claims.CompletionBeatsClrf ∧ Claims.WaitfBlocksUntilSet

/-- Where the transfers go (R120, R122 to R124, R130): the target is the bundle's address plus four times the sign-extended offset,
modulo 2^64; JMPR, CALLR and RET go to the address in their register, which CALLR reads before S63 takes the address of the next
bundle; BSZ and BSNZ decide once for the part. A lane set that goes to a target has it as its PC, marked where the transfer was indirect (R302),
and keeps all else; slices outside the part, and every register, are as they were. -/
def Sys2Proof.Claims.TransfersGoToTheirTarget : Prop :=
  ∀ (s : State) (c : Cursor) (a : Fin 64),
    (∀ o : BitVec 20, s.issues c (.call (.short o)) →
        exec (.call (.short o)) s = .next ((s.send 2 [Write.s 63 c.next]).goto c (jumpTo c.pc o)))
    ∧ (∀ o : BitVec 32, s.issues c (.call (.long o)) →
        exec (.call (.long o)) s = .next ((s.send 2 [Write.s 63 c.next]).goto c (jumpTo c.pc o)))
    ∧ (s.issues c (.callr a) → exec (.callr a) s = .next ((s.send 2 [Write.s 63 c.next]).gotoFar c (s.readS c a)))
    ∧ (s.issues c (.jmpr a) → exec (.jmpr a) s = .next (s.gotoFar c (s.readS c a)))
    ∧ (s.issues c (.ret a) → exec (.ret a) s = .next (s.gotoFar c (s.readS c a)))
    ∧ (∀ o : BitVec 14, s.issues c (.bsz a (.short o)) →
        exec (.bsz a (.short o)) s = .next (s.goto c (if s.readS c a = 0 then jumpTo c.pc o else c.next)))
    ∧ (∀ o : BitVec 32, s.issues c (.bsz a (.long o)) →
        exec (.bsz a (.long o)) s = .next (s.goto c (if s.readS c a = 0 then jumpTo c.pc o else c.next)))
    ∧ (∀ o : BitVec 14, s.issues c (.bsnz a (.short o)) →
        exec (.bsnz a (.short o)) s = .next (s.goto c (if s.readS c a ≠ 0 then jumpTo c.pc o else c.next)))
    ∧ (∀ o : BitVec 32, s.issues c (.bsnz a (.long o)) →
        exec (.bsnz a (.long o)) s = .next (s.goto c (if s.readS c a ≠ 0 then jumpTo c.pc o else c.next)))
    ∧ (∀ (t k : Nat) (y : LaneSet), k < (s.gang c.gang).slices.length → ((s.gang c.gang).slice k).curSet = some y → y.st = .run →
        let near := s.goto c t
        let far := s.gotoFar c t
        ((near.gang c.gang).slice k).curSet = some (if c.slices.testBit k then { y with pc := t } else y)
          ∧ ((far.gang c.gang).slice k).curSet = some (if c.slices.testBit k then { y with pc := t, jumped := true } else y)
          ∧ s.sameRegs near ∧ s.sameRegs far ∧ near.mem = s.mem ∧ far.mem = s.mem)

/-- BR decides per lane and splits the part by its predicate (R32, R121). A branch that every lane of the part takes moves each
current lane set to the target and divides no part: the lane-set tables keep their entries and the list of parts is as it was. In a
slice of which some lanes take it and others do not, the current set keeps the lanes that do and goes to the target, and a new set of the
others goes on at the bundle after; nothing else of the gang but its parts changes. -/
def Sys2Proof.Claims.BranchSplitsByPredicate : Prop :=
  (∀ (s : State) (c : Cursor) (g : Guard) (o : BitVec 20), s.issues c (.br g (.short o)) →
    exec (.br g (.short o)) s = .next (s.modGang c.gang (fun x =>
      x.split c.slices (maskOf ((s.partLanes c).filter (fun i => s.readP c i g.p != g.neg))) (jumpTo c.pc o) c.next c.cyc c.gap)))
  ∧ (∀ (s : State) (c : Cursor) (g : Guard) (o : BitVec 32), s.issues c (.br g (.long o)) →
    exec (.br g (.long o)) s = .next (s.modGang c.gang (fun x =>
      x.split c.slices (maskOf ((s.partLanes c).filter (fun i => s.readP c i g.p != g.neg))) (jumpTo c.pc o) c.next c.cyc c.gap)))
  ∧ (∀ (g : Gang) (m taken tgt fall cyc gap : Nat), m < 256 →
    (∀ k ∈ bitsOf 8 m, ∃ y, (g.slice k).curSet = some y ∧ y.mask &&& (taken / 2 ^ (8 * k) % 256) = y.mask ∧ y.mask ≠ 0) →
    let h := g.split m taken tgt fall cyc gap
    h.parts = g.parts ∧ ∀ k ∈ bitsOf 8 m, h.slice k = (g.slice k).modCur (LaneSet.goto tgt))
  ∧ (∀ (g : Gang) (m taken tgt fall cyc gap k e : Nat) (y : LaneSet), k < 8 → m.testBit k = true → k < g.slices.length →
    (g.slice k).cur = some e → (g.slice k).sets = [(e, y)] → e < 8 → y.st = .run →
    let t := y.mask &&& (taken / 2 ^ (8 * k) % 256)
    t ≠ 0 → t ≠ y.mask →
    let h := g.split m taken tgt fall cyc gap
    (h.slice k).curSet = some { y with pc := tgt, mask := t }
      ∧ (∃ f z, f ≠ e ∧ smFind (h.slice k).sets f = some z ∧ z.mask = maskDiff y.mask t ∧ z.pc = fall ∧ z.st = .run ∧ z.loops = y.loops
          ∧ z.ready = cyc + gap ∧ z.created = cyc ∧ (h.slice k).sets.length = 2)
      ∧ h.v = g.v ∧ h.p = g.p ∧ h.s = g.s ∧ h.k = g.k ∧ h.flight = g.flight ∧ h.accs = g.accs)

/-- Targets of transfers, and how BR splits a part: `TransfersGoToTheirTarget`, `BranchSplitsByPredicate`. -/
def Obligations.TransfersAndBranches : Prop :=
  Claims.TransfersGoToTheirTarget ∧ Claims.BranchSplitsByPredicate

/-- LOOP, ENDL and LBRK complete, and a loop opened with count n runs its body max(n, 1) times: the ENDL of its level repeats the body
max(n, 1) − 1 times and then closes the level (R128 to R130). -/
def Sys2Proof.Claims.LoopRunsItsCount : Prop :=
  (∀ (s : State) (c : Cursor) (n : Fin 8) (k : LoopCount), s.issues c (.loop n k) →
    exec (.loop n k) s = .next ((s.setLoops c (loopOpen (s.loops c) n (s.loopCount c k) c.next)).goto c c.next))
  ∧ (∀ (s : State) (c : Cursor) (n : Fin 8), s.issues c (.endl n) →
    exec (.endl n) s = .next ((s.setLoops c (loopEnd (s.loops c) n).1).goto c ((loopEnd (s.loops c) n).2.getD c.next)))
  ∧ (∀ (s : State) (c : Cursor) (n : Fin 8) (o : BitVec 16), s.issues c (.lbrk n (.short o)) →
    exec (.lbrk n (.short o)) s = .next ((s.setLoops c ((s.loops c).take n)).goto c (jumpTo c.pc o)))
  ∧ (∀ (s : State) (c : Cursor) (n : Fin 8) (o : BitVec 32), s.issues c (.lbrk n (.long o)) →
    exec (.lbrk n (.long o)) s = .next ((s.setLoops c ((s.loops c).take n)).goto c (jumpTo c.pc o)))
  ∧ (∀ (l : List Loop) (n k ret : Nat), k < 2 ^ 32 →
    let run := fun (j : Nat) => (List.range j).foldl (fun l _ => (loopEnd l n).1) (loopOpen l n k ret)
    (∀ j, j + 1 < max k 1 → (loopEnd (run j) n).2 = some ret ∧ ((run j).getD n default).index = j)
      ∧ (loopEnd (run (max k 1 - 1)) n).2 = none ∧ ((loopEnd (run (max k 1 - 1)) n).1).length = n)

/-- EXIT kills every lane of the part (R45, R125): a slice whose one lane set was the part's has no lane set left and no current one; one
with another runnable lane set goes on with that, not before the dead set's issue-ready cycle, in a part of its own (R34); every other
slice, and every register, is as it was. An empty run has no slot to act; its part's lane sets are ready again after
(RUN + 1) × (GAP + 1) cycles (R85). -/
def Sys2Proof.Claims.ExitAndEmptyRun : Prop :=
  (∀ (s : State) (c : Cursor), s.issues c .exit → exec .exit s = .next (s.exitLanes c.gang c.slices (c.cyc + c.gap)))
  ∧ (∀ (g : Gang) (m ready k e : Nat) (y : LaneSet), k < g.slices.length → k < 8 →
    let h := g.kill m ready
    (m.testBit k = true → (g.slice k).cur = some e →
        ((g.slice k).sets = [(e, y)] → (h.slice k).sets = [] ∧ (h.slice k).cur = none ∧ ∀ p ∈ h.parts, p.slices.testBit k = false)
          ∧ (∀ f z, (g.slice k).sets = [(e, y), (f, z)] → f ≠ e → z.st = .run →
            (h.slice k).sets = [(f, { z with ready := max z.ready ready, idle := 0 })] ∧ (h.slice k).cur = some f
              ∧ ∃ p ∈ h.parts, p.slices = 2 ^ k ∧ p.holds = []))
      ∧ (m.testBit k = false → h.slice k = g.slice k)
      ∧ h.v = g.v ∧ h.p = g.p ∧ h.s = g.s ∧ h.k = g.k ∧ h.flight = g.flight ∧ h.accs = g.accs)
  ∧ (∀ (s : State) (c : Cursor) (gap : Fin 16) (run : Fin 64) (regang check : Bool), s.issues c (.emptyRun gap run regang check) →
    ∃ t, exec (.emptyRun gap run regang check) s = .next t ∧ t.mem = s.mem ∧
      ∀ k < (s.gang c.gang).slices.length, c.slices.testBit k = true →
        (t.gang c.gang).slice k = ((s.gang c.gang).slice k).modCur (fun y => { y with ready := c.cyc + (run + 1) * (gap + 1) }))

/-- Loops run their count; EXIT and empty runs: `LoopRunsItsCount`, `ExitAndEmptyRun`. -/
def Obligations.LoopsAndExits : Prop :=
  Claims.LoopRunsItsCount ∧ Claims.ExitAndEmptyRun

/-! The vector slot. -/

/-- The integer operations without `.sat` wrap modulo 2^w (R57, R148): each active lane's result is the operation on w-bit vectors,
by the signedness of the type where that matters, and stands in the destination 4 cycles after issue. -/
def Sys2Proof.Claims.IntegerArithmeticWraps : Prop :=
  (∀ (s : State) (c : Cursor) (o : V2), isInt o.ty = true → o.sat = false →
    let x := s.srcBits c o.ty o.a
    let y := s.srcBits c o.ty o.b
    let less := fun (l : Nat) => if isSigned o.ty then (x l).slt (y l) else (x l).ult (y l)
    let gives := fun (i : Instr) (r : Nat → BitVec (widthOf o.ty)) =>
      s.issues c i → exec i s = .next (s.vOut c o.g o.ty o.d 4 (fun l => regBits o.ty (r l)))
    gives (.vadd o) (fun l => x l + y l) ∧ gives (.vsub o) (fun l => x l - y l) ∧ gives (.vmul o) (fun l => x l * y l)
      ∧ gives (.vmin o) (fun l => if less l then x l else y l) ∧ gives (.vmax o) (fun l => if less l then y l else x l)
      ∧ gives (.vmulh o) (fun l => (if isSigned o.ty then (x l).signExtend (2 * widthOf o.ty) * (y l).signExtend (2 * widthOf o.ty)
          else (x l).zeroExtend (2 * widthOf o.ty) * (y l).zeroExtend (2 * widthOf o.ty)).extractLsb' (widthOf o.ty) (widthOf o.ty)))
  ∧ (∀ (s : State) (c : Cursor) (o : V1), isSigned o.ty = true → o.sat = false →
    let x := s.srcBits c o.ty o.a
    let gives := fun (i : Instr) (r : Nat → BitVec (widthOf o.ty)) =>
      s.issues c i → exec i s = .next (s.vOut c o.g o.ty o.d 4 (fun l => regBits o.ty (r l)))
    gives (.vneg o) (fun l => - x l) ∧ gives (.vabs o) (fun l => if (x l).slt 0 then - x l else x l))
  ∧ (∀ (s : State) (c : Cursor) (o : V3), isInt o.ty = true → o.sat = false → s.issues c (.vmad o) →
    exec (.vmad o) s = .next (s.vOut c o.g o.ty o.d 4 (fun l =>
      regBits o.ty (s.srcBits c o.ty o.a l * s.srcBits c o.ty o.b l + s.srcBits c o.ty o.c l))))

/-- With `.sat`, the integer operations clamp their exact result to the range of the type (R57, R148). -/
def Sys2Proof.Claims.IntegerArithmeticSaturates : Prop :=
  ∀ (s : State) (c : Cursor) (t : Ty) (rm : Rm) (g : Guard) (d : Fin 256) (a b e : Opd), isInt t = true →
    let val := fun (o : Opd) (l : Nat) => if isSigned t then (s.srcBits c t o l).toInt else ((s.srcBits c t o l).toNat : Int)
    let lo : Int := if isSigned t then (BitVec.intMin (widthOf t)).toInt else 0
    let hi : Int := if isSigned t then (BitVec.intMax (widthOf t)).toInt else (BitVec.allOnes (widthOf t)).toNat
    let gives := fun (i : Instr) (r : Nat → Int) => s.issues c i →
      exec i s = .next (s.vOut c g t d 4 (fun l => regBits t (BitVec.ofInt (widthOf t) (if r l < lo then lo else if hi < r l then hi else r l))))
    gives (.vadd ⟨t, rm, true, g, d, a, b⟩) (fun l => val a l + val b l)
      ∧ gives (.vsub ⟨t, rm, true, g, d, a, b⟩) (fun l => val a l - val b l)
      ∧ gives (.vmul ⟨t, rm, true, g, d, a, b⟩) (fun l => val a l * val b l)
      ∧ gives (.vmad ⟨t, rm, true, g, d, a, b, e⟩) (fun l => val a l * val b l + val e l)
      ∧ (isSigned t = true → gives (.vneg ⟨t, rm, true, g, d, a⟩) (fun l => - val a l))
      ∧ (isSigned t = true → gives (.vabs ⟨t, rm, true, g, d, a⟩) (fun l => if val a l < 0 then - val a l else val a l))

/-- Integer vector arithmetic wraps, or saturates under .sat: `IntegerArithmeticWraps`, `IntegerArithmeticSaturates`. -/
def Obligations.IntegerArithmetic : Prop :=
  Claims.IntegerArithmeticWraps ∧ Claims.IntegerArithmeticSaturates

/-- The bit operations, shifts and bit fields (R148 to R150): a shift count is the low seven bits of its operand, and a count of the
width or more shifts everything out; a field's length is at most the width. -/
def Obligations.IntegerBitOperations : Prop :=
  (∀ (s : State) (c : Cursor) (o : V2),
    let x := s.srcBits c o.ty o.a
    let y := s.srcBits c o.ty o.b
    let n := fun (l : Nat) => s.operand c o.b l o.ty % 128
    let len := fun (l : Nat) => min (s.operand c o.b l o.ty / 256 % 128) (widthOf o.ty)
    let gives := fun (i : Instr) (r : Nat → BitVec (widthOf o.ty)) =>
      s.issues c i → exec i s = .next (s.vOut c o.g o.ty o.d 4 (fun l => regBits o.ty (r l)))
    (isLogic o.ty = true →
      gives (.vand o) (fun l => x l &&& y l) ∧ gives (.vor o) (fun l => x l ||| y l) ∧ gives (.vxor o) (fun l => x l ^^^ y l))
    ∧ (isInt o.ty = true →
      gives (.vshl o) (fun l => x l <<< n l)
        ∧ gives (.vshr o) (fun l => if isSigned o.ty then (x l).sshiftRight (n l) else x l >>> n l)
        ∧ gives (.vrot o) (fun l => (x l).rotateLeft (n l))
        ∧ gives (.vbfx o) (fun l => let f := (x l >>> n l).setWidth (len l)
            if isSigned o.ty then f.signExtend (widthOf o.ty) else f.zeroExtend (widthOf o.ty))))
  ∧ (∀ (s : State) (c : Cursor) (o : V1),
    let x := s.srcBits c o.ty o.a
    let gives := fun (i : Instr) (r : Nat → BitVec (widthOf o.ty)) =>
      s.issues c i → exec i s = .next (s.vOut c o.g o.ty o.d 4 (fun l => regBits o.ty (r l)))
    (isLogic o.ty = true → gives (.vnot o) (fun l => ~~~ (x l)) ∧ gives (.vbrev o) (fun l => (x l).reverse))
    ∧ (isInt o.ty = true →
      gives (.vpopc o) (fun l => BitVec.ofNat _ ((List.range (widthOf o.ty)).countP (fun k => (x l).getLsbD k)))
        ∧ gives (.vclz o) (fun l => (x l).clz)))
  ∧ (∀ (s : State) (c : Cursor) (o : V3), isInt o.ty = true → s.issues c (.vbfi o) →
    let x := s.srcBits c o.ty o.a
    let y := s.srcBits c o.ty o.b
    let pos := fun (l : Nat) => s.operand c o.c l o.ty % 128
    let len := fun (l : Nat) => min (s.operand c o.c l o.ty / 256 % 128) (widthOf o.ty)
    let inside := fun (l k : Nat) => decide (pos l ≤ k) && decide (k < pos l + len l)
    ∃ r : Nat → BitVec (widthOf o.ty), exec (.vbfi o) s = .next (s.vOut c o.g o.ty o.d 4 (fun l => regBits o.ty (r l)))
      ∧ ∀ l k, k < widthOf o.ty → (r l).getLsbD k = if inside l k then (y l).getLsbD (k - pos l) else (x l).getLsbD k)

/-- Exact values are numbers: the exact sum, difference and product of finite values have the value of the sum, difference and product
as rationals, and the comparisons are those of rationals. -/
def Sys2Proof.Claims.ExactArithmeticIsRational : Prop :=
  ∀ (a b : Bool) (m n : Nat) (e f : Int) (down : Bool),
    let x := Ex.fin a m e
    let y := Ex.fin b n f
    exVal (exAdd down x y) = exVal x + exVal y ∧ exVal (exAdd down x (exNeg y)) = exVal x - exVal y
      ∧ exVal (exMul x y) = exVal x * exVal y ∧ (exLt x y = true ↔ exVal x < exVal y) ∧ (exEq x y = true ↔ exVal x = exVal y)

/-- Float arithmetic (R61, R69, R151, R152): each element of the result is the exact sum, difference, product or fused product and sum
of the decoded sources, rounded once, flushed where the kernel says so, and lands 6 cycles after issue, or 10 for `.f64`; a NaN source
gives the canonical NaN of the type. -/
def Sys2Proof.Claims.FloatArithmeticRoundsOnce : Prop :=
  (∀ (s : State) (c : Cursor) (o : V2), isFlt o.ty = true →
    let x := fun (p : Opd) (l j : Nat) => exOf o.ty (s.felem c o.ty p l j)
    let down := decide (o.rm = .rdn)
    let lat := if o.ty = .f64 then 10 else 6
    let out := fun (r : Nat → Nat → Ex) => s.vOut c o.g o.ty o.d lat (fun l => packElems o.ty (fun j =>
      flush (s.ftz c) o.ty (roundEx (r l j) (fmtOf o.ty) o.rm o.sat 0)))
    let gives := fun (i : Instr) (r : Nat → Nat → Ex) => s.issues c i → exec i s = .next (out r)
      ∧ ∀ l j, (x o.a l j = .nan ∨ x o.b l j = .nan) → roundEx (r l j) (fmtOf o.ty) o.rm o.sat 0 = (fmtOf o.ty).nan
    gives (.vfadd o) (fun l j => exAdd down (x o.a l j) (x o.b l j))
      ∧ gives (.vfsub o) (fun l j => exAdd down (x o.a l j) (exNeg (x o.b l j)))
      ∧ gives (.vfmul o) (fun l j => exMul (x o.a l j) (x o.b l j)))
  ∧ (∀ (s : State) (c : Cursor) (o : V3), isFlt o.ty = true → s.issues c (.vfma o) →
    let x := fun (p : Opd) (l j : Nat) => exOf o.ty (s.felem c o.ty p l j)
    let r := fun (l j : Nat) => exAdd (decide (o.rm = .rdn)) (exMul (x o.a l j) (x o.b l j)) (x o.c l j)
    exec (.vfma o) s = .next (s.vOut c o.g o.ty o.d (if o.ty = .f64 then 10 else 6) (fun l => packElems o.ty (fun j =>
        flush (s.ftz c) o.ty (roundEx (r l j) (fmtOf o.ty) o.rm o.sat 0))))
      ∧ ∀ l j, (x o.a l j = .nan ∨ x o.b l j = .nan ∨ x o.c l j = .nan) →
          roundEx (r l j) (fmtOf o.ty) o.rm o.sat 0 = (fmtOf o.ty).nan)

/-- Float arithmetic is exact arithmetic rounded once: `ExactArithmeticIsRational`, `FloatArithmeticRoundsOnce`. -/
def Obligations.FloatArithmetic : Prop :=
  Claims.ExactArithmeticIsRational ∧ Claims.FloatArithmeticRoundsOnce

/-- Rounding to nearest gives the value of the format that is nearest: for a value of magnitude at most the largest finite one, the rounded
encoding is finite and no finite encoding of the format lies closer to the exact value (R69), and rounding toward zero, up and down give
a value on their side of it. -/
def Obligations.RoundingIsNearest : Prop :=
  ∀ (t : Ty) (neg : Bool) (m : Nat) (e : Int), (isFlt t = true ∨ t = .e4m3 ∨ t = .e5m2) →
    let x := Ex.fin neg m e
    let y := fun (rm : Rm) => decodeF (fmtOf t) (roundEx x (fmtOf t) rm false 0)
    let big := exVal (decodeF (fmtOf t) (maxEnc (fmtOf t) false))
    |exVal x| ≤ big →
      (∃ a n f, y .rne = .fin a n f)
        ∧ (∀ (z : Nat) (b : Bool) (k : Nat) (g : Int), decodeF (fmtOf t) z = .fin b k g →
            |exVal x - exVal (y .rne)| ≤ |exVal x - exVal (.fin b k g)|)
        ∧ |exVal (y .rz)| ≤ |exVal x| ∧ exVal (y .rdn) ≤ exVal x ∧ exVal x ≤ exVal (y .rup)

/-- VFMIN, VFMAX, VFABS and VFNEG do not round (R153): each element of a minimum or maximum is one of the two source elements, the
smaller or the larger by value with −0 below +0, the other one where one is NaN, and the canonical NaN where both are; VFABS clears and
VFNEG inverts the sign bit, and a NaN gives the canonical NaN. -/
def Sys2Proof.Claims.FloatSelectionAndSign : Prop :=
  (∀ (s : State) (c : Cursor) (o : V2) (mx : Bool), isFlt o.ty = true →
    let v := fun (p : Opd) (l j : Nat) => s.felem c o.ty p l j
    let i := if mx then Instr.vfmax o else Instr.vfmin o
    s.issues c i → ∃ r : Nat → Nat → Nat,
      exec i s = .next (s.vOut c o.g o.ty o.d (if o.ty = .f64 then 10 else 6) (fun l => packElems o.ty (r l)))
        ∧ ∀ l j, let a := v o.a l j
          let b := v o.b l j
          let x := exOf o.ty a
          let y := exOf o.ty b
          (x = .nan → y = .nan → r l j = (fmtOf o.ty).nan) ∧ (x = .nan → y ≠ .nan → r l j = b) ∧ (y = .nan → x ≠ .nan → r l j = a)
            ∧ (x ≠ .nan → y ≠ .nan → exLt x y = true → r l j = if mx then b else a)
            ∧ (x ≠ .nan → y ≠ .nan → exLt y x = true → r l j = if mx then a else b)
            ∧ (exEq x y = true → exSign x = true → exSign y = false → r l j = if mx then b else a)
            ∧ (exEq x y = true → exSign x = false → exSign y = true → r l j = if mx then a else b))
  ∧ (∀ (s : State) (c : Cursor) (o : V1), isFlt o.ty = true →
    let w := fmtBits (fmtOf o.ty)
    let v := fun (l j : Nat) => s.felem c o.ty o.a l j
    let gives := fun (i : Instr) (r : BitVec w → BitVec w) => s.issues c i →
      exec i s = .next (s.vOut c o.g o.ty o.d (if o.ty = .f64 then 10 else 6) (fun l => packElems o.ty (fun j =>
        if exOf o.ty (v l j) = .nan then (fmtOf o.ty).nan else (r (BitVec.ofNat w (v l j))).toNat)))
    gives (.vfabs o) (fun x => x &&& ~~~ (1#w <<< (w - 1))) ∧ gives (.vfneg o) (fun x => x ^^^ (1#w <<< (w - 1))))

/-- The transcendentals complete 16 cycles after issue with one rounded value in each element (R154), and their special cases: a NaN
gives the canonical NaN; VRCP takes a zero to an infinity of its sign and back; VRSQ takes a zero to an infinity of its sign, +∞ to +0
and a negative number to NaN; VSQRT takes a zero to itself, +∞ to itself and a negative number to NaN; VEXP2 takes a zero to 1, −∞ to +0 and
+∞ to itself; VLOG2 takes 1, however it is represented, to +0, a zero to −∞, +∞ to itself and a negative number to NaN; VSIN and VCOS take an infinity to NaN, VSIN an
integer to a zero of its sign and VCOS an integer and a half to +0; VTANH takes a zero to itself and ±∞ to ±1. -/
def Sys2Proof.Claims.TranscendentalsComplete : Prop :=
  (∀ (s : State) (c : Cursor) (o : V1),
    let gives := fun (i : Instr) (op : TOp) => s.issues c i → exec i s = .next (s.vOut c o.g o.ty o.d 16 (fun l =>
      packElems o.ty (fun j => transc op (fun x => flush (s.ftz c) o.ty (roundEx x (fmtOf o.ty) o.rm o.sat 0))
        (exOf o.ty (s.felem c o.ty o.a l j)))))
    gives (.vrcp o) .rcp ∧ gives (.vrsq o) .rsq ∧ gives (.vsqrt o) .sqrt ∧ gives (.vexp2 o) .exp2 ∧ gives (.vlog2 o) .log2
      ∧ gives (.vsin o) .sin ∧ gives (.vcos o) .cos ∧ gives (.vtanh o) .tanh)
  ∧ (∀ (rnd : Ex → Nat) (neg : Bool) (m : Nat) (e : Int), m ≠ 0 →
    (∀ op : TOp, transc op rnd .nan = rnd .nan)
    ∧ transc .rcp rnd (.fin neg 0 e) = rnd (.inf neg) ∧ transc .rcp rnd (.inf neg) = rnd (.fin neg 0 0)
    ∧ transc .rsq rnd (.fin neg 0 e) = rnd (.inf neg) ∧ transc .rsq rnd (.inf false) = rnd (.fin false 0 0)
    ∧ transc .rsq rnd (.fin true m e) = rnd .nan
    ∧ transc .sqrt rnd (.fin neg 0 e) = rnd (.fin neg 0 0) ∧ transc .sqrt rnd (.inf false) = rnd (.inf false)
    ∧ transc .sqrt rnd (.fin true m e) = rnd .nan
    ∧ transc .exp2 rnd (.fin neg 0 e) = rnd (exOfInt 1) ∧ transc .exp2 rnd (.inf true) = rnd (.fin false 0 0)
    ∧ transc .exp2 rnd (.inf false) = rnd (.inf false)
    ∧ (exVal (.fin neg m e) = 1 → transc .log2 rnd (.fin neg m e) = rnd (.fin false 0 0)) ∧ transc .log2 rnd (.fin neg 0 e) = rnd (.inf true)
    ∧ transc .log2 rnd (.inf false) = rnd (.inf false) ∧ transc .log2 rnd (.fin true m e) = rnd .nan
    ∧ transc .sin rnd (.inf neg) = rnd .nan ∧ transc .sin rnd (.fin neg 0 e) = rnd (.fin neg 0 0)
    ∧ (∀ n : Int, exVal (.fin neg m e) = n → transc .sin rnd (.fin neg m e) = rnd (.fin neg 0 0))
    ∧ transc .cos rnd (.inf neg) = rnd .nan
    ∧ (∀ n : Int, exVal (.fin neg m e) = n + 1 / 2 → transc .cos rnd (.fin neg m e) = rnd (.fin false 0 0))
    ∧ transc .tanh rnd (.fin neg 0 e) = rnd (.fin neg 0 0) ∧ transc .tanh rnd (.inf neg) = rnd (exOfInt (if neg then -1 else 1)))

/-- Float minimum, maximum and sign; the transcendentals: `FloatSelectionAndSign`, `TranscendentalsComplete`. -/
def Obligations.FloatSelectionAndTranscendentals : Prop :=
  Claims.FloatSelectionAndSign ∧ Claims.TranscendentalsComplete

/-- VCMP writes the comparison of its sources into its predicate of each active lane (R155): integers by the signedness of the type, floats
so that only `ne` and `un` hold with a NaN and +0 equals −0; it lands after 4, 6 or 10 cycles by type. -/
def Sys2Proof.Claims.ComparisonsByType : Prop :=
  ∀ (s : State) (c : Cursor) (o : VCmp), s.issues c (.vcmp o) →
    ∃ r : Nat → Bool, exec (.vcmp o) s = .next (s.send (if o.ty = .f64 then 10 else if isFlt o.ty then 6 else 4)
        ((s.active c o.g).map (fun l => Write.p l o.pd (r l))))
      ∧ (isFlt o.ty = false → ∀ l,
          let x := s.srcBits c o.ty o.a l
          let y := s.srcBits c o.ty o.b l
          let less := fun (a b : BitVec (widthOf o.ty)) => if isSigned o.ty then a.slt b else a.ult b
          (o.cc = .eq → r l = decide (x = y)) ∧ (o.cc = .ne → r l = decide (x ≠ y)) ∧ (o.cc = .lt → r l = less x y)
            ∧ (o.cc = .le → r l = !(less y x)) ∧ (o.cc = .gt → r l = less y x) ∧ (o.cc = .ge → r l = !(less x y)))
      ∧ (isFlt o.ty = true → ∀ l,
          let x := exOf o.ty (s.felem c o.ty o.a l o.h1.toNat)
          let y := exOf o.ty (s.felem c o.ty o.b l o.h1.toNat)
          ((x = .nan ∨ y = .nan) → r l = decide (o.cc = .ne ∨ o.cc = .un))
            ∧ (∀ (a : Bool) (m : Nat) (e : Int) (b : Bool) (n : Nat) (f : Int), x = .fin a m e → y = .fin b n f →
              r l = match o.cc with
                | .eq => decide (exVal x = exVal y)
                | .ne => decide (exVal x ≠ exVal y)
                | .lt => decide (exVal x < exVal y)
                | .le => decide (exVal x ≤ exVal y)
                | .gt => decide (exVal x > exVal y)
                | .ge => decide (exVal x ≥ exVal y)
                | .un => false
                | .ord => true))

/-- VMOV and VSEL write a source as its type reads it (R146, R156, R157): integers and raw bits copied and extended by the signedness of
the type, float elements flushed and every NaN made canonical; VSEL takes its first source where its predicate is true. -/
def Sys2Proof.Claims.MovesAndSelections : Prop :=
  ∀ (s : State) (c : Cursor) (t : Ty) (g : Guard) (d : Fin 256) (a b : Opd),
    let val := fun (p : Opd) (l : Nat) =>
      if isFlt t then packElems t (fun j => let x := s.felem c t p l j
        if exOf t x = .nan then (fmtOf t).nan else x)
      else regBits t (s.srcBits c t p l)
    let lat := if t = .f64 then 10 else if isFlt t then 6 else 4
    (∀ (rm : Rm) (sat : Bool), s.issues c (.vmov ⟨t, rm, sat, g, d, a⟩) →
        exec (.vmov ⟨t, rm, sat, g, d, a⟩) s = .next (s.vOut c g t d lat (val a)))
      ∧ (∀ (p : Fin 32) (neg : Bool), s.issues c (.vsel ⟨t, g, d, a, b, p, neg⟩) →
        exec (.vsel ⟨t, g, d, a, b, p, neg⟩) s = .next (s.vOut c g t d lat (fun l =>
          if xor (s.readP c l p) neg = true then val a l else val b l)))

/-- VCMP, VMOV and VSEL by type: `ComparisonsByType`, `MovesAndSelections`. -/
def Obligations.ComparisonsAndMoves : Prop :=
  Claims.ComparisonsByType ∧ Claims.MovesAndSelections

/-- Conversions (R57, R58, R159 to R161): the exact value of the source element, rounded to an integer and wrapped, or clamped under
`.sat`, for an integer destination (a NaN gives 0), and rounded to the format for a float destination; VPACK packs two results, with the
low half of its third source above 8-bit ones; VUNPK takes the element that its index names. Results land 6 cycles after issue. -/
def Sys2Proof.Claims.ConversionsAreOneRounding : Prop :=
  (∀ (s : State) (c : Cursor) (dt st : Ty) (rm : Rm) (sat : Bool) (r x : Nat), cvtKind dt st ≠ .bad → x < 2 ^ widthOf st →
    let v := if isInt st then exOfInt (if isSigned st then (BitVec.ofNat (widthOf st) x).toInt else (x : Int)) else exOf st x
    let lo : Int := if isSigned dt then -(2 ^ (widthOf dt - 1) : Int) else 0
    let hi : Int := if isSigned dt then 2 ^ (widthOf dt - 1) - 1 else 2 ^ widthOf dt - 1
    s.cvt c dt st rm sat r x =
      if isInt dt then
        (match v with
         | .nan => 0
         | .inf neg => if sat then (BitVec.ofInt (widthOf dt) (if neg then lo else hi)).toNat else 0
         | .fin neg m e =>
           let n := exToInt rm neg m e
           (BitVec.ofInt (widthOf dt) (if sat then (if n < lo then lo else if hi < n then hi else n) else n)).toNat)
      else flush (s.ftz c) dt (roundEx v (fmtOf dt) rm sat r))
  ∧ (∀ (s : State) (c : Cursor) (o : VCvt), s.issues c (.vcvt o) →
    exec (.vcvt o) s = .next ((s.vOut c o.g o.dt o.d 6 (fun l =>
      let y := s.cvt c o.dt o.st o.rm o.sat (s.draw c l 0) (s.cvtSrc c o.st o.a l)
      if isInt o.dt then regBits o.dt (BitVec.ofNat (widthOf o.dt) y) else y)).advance c o.g o.rm 1))
  ∧ (∀ (s : State) (c : Cursor) (o : VPack), s.issues c (.vpack o) →
    let e0 := fun l => s.cvt c o.dt o.st o.rm o.sat (s.draw c l 0) (s.cvtSrc c o.st o.a l)
    let e1 := fun l => s.cvt c o.dt o.st o.rm o.sat (s.draw c l 1) (s.cvtSrc c o.st o.b l)
    exec (.vpack o) s = .next ((s.vOut c o.g .b32 o.d 6 (fun l =>
      if pack8 o.dt then s.operand c o.c l o.st % 2 ^ 16 * 2 ^ 16 + e1 l * 2 ^ 8 + e0 l else e1 l * 2 ^ 16 + e0 l)).advance c o.g o.rm 2))
  ∧ (∀ (s : State) (c : Cursor) (o : VUnpk), s.issues c (.vunpk o) →
    let w := 32 / elemsOf o.st
    let x := fun l => s.operand c o.a l .b32 / 2 ^ (w * (s.operand c o.j l .b32 % elemsOf o.st)) % 2 ^ w
    let h := fun l => s.operand c o.h l .b32
    let rnd := fun (v : Ex) => flush (s.ftz c) .f32 (roundEx v fmtF32 o.rm o.sat 0)
    exec (.vunpk o) s = .next (s.vOut c o.g .b32 o.d 6 (fun l =>
      if isInt o.st then regBits o.st (BitVec.ofNat (widthOf o.st) (x l))
      else if o.st = .e2m1 then rnd (e2m1Decode (x l) (h l % 2 ^ 8) (h l / 2 ^ 8 % 2 ^ 8))
      else rnd (exOf o.st (flush (s.ftz c) o.st (x l))))))

/-- VQNT (R163): each active lane's register takes the eight codes of its slice's share of the block, and the next register the block's
header, after 10 cycles; lanes of the block that are not active count as +0, and under RS each active lane's state moves on once. -/
def Sys2Proof.Claims.BlocksAreQuantised : Prop :=
  ∀ (s : State) (c : Cursor) (o : VQnt), s.issues c (.vqnt o) →
    let n := if o.k32 then 32 else 16
    let act := s.active c o.g
    let elem := fun (l : Nat) => if l ∈ act then (s.felem c .f32 o.a l 0, s.draw c l 0) else (0, 0)
    let block := fun (l : Nat) => quantBlock o.rm ((List.range n).map (fun k => elem (l / n * n + k)))
    let code := fun (l j : Nat) => (block l).2.getD (l / 8 * 8 % n + j) 0 * 16 ^ j
    exec (.vqnt o) s = .next ((s.send 10 (act.map (fun l => Write.v l o.d
      ((code l 0 + code l 1 + code l 2 + code l 3 + code l 4 + code l 5 + code l 6 + code l 7) % 2 ^ 32)
      (some ((block l).1 % 2 ^ 16)) true))).advance c o.g o.rm 1)

/-- Conversions round once; VQNT quantises its block: `ConversionsAreOneRounding`, `BlocksAreQuantised`. -/
def Obligations.ConversionsAndBlocks : Prop :=
  Claims.ConversionsAreOneRounding ∧ Claims.BlocksAreQuantised

/-- VOTE, VBALLOT and SHFL read the active lanes of the part alone (R165 to R167, R169): VOTE writes one combined predicate to every
active lane, VBALLOT a mask of the active lanes in which its predicate reads true, and SHFL the value of the lane that the selector names
where that lane is active, with a true predicate, and its fallback with a false one elsewhere. -/
def Sys2Proof.Claims.LaneCrossing : Prop :=
  (∀ (s : State) (c : Cursor) (o : VVote), s.issues c (.vote o) →
    let act := s.active c o.g
    let t := fun l => xor (s.readP c l o.pa) o.neg
    ∃ r : Bool, exec (.vote o) s = .next (s.send 4 (act.map (fun l => Write.p l o.pd r)))
      ∧ (o.mode = .all → (r = true ↔ ∀ l ∈ act, t l = true)) ∧ (o.mode = .any → (r = true ↔ ∃ l ∈ act, t l = true))
      ∧ (o.mode = .uni → (r = true ↔ ∀ l ∈ act, ∀ k ∈ act, t l = t k)))
  ∧ (∀ (s : State) (c : Cursor) (o : VBallot), s.issues c (.vballot o) →
    ∃ x : Nat, exec (.vballot o) s = .next (s.send 4 [Write.s o.sd x])
      ∧ ∀ l, x.testBit l = true ↔ l ∈ s.active c o.g ∧ xor (s.readP c l o.pa) o.neg = true)
  ∧ (∀ (s : State) (c : Cursor) (o : VShfl), s.issues c (.shfl o) →
    let act := s.active c o.g
    let sel := fun l => s.operand c o.sel l .b32
    let from_ := fun (l : Nat) => if sel l / 64 % 4 = 0 then ((sel l % 64 : Nat) : Int) else if sel l / 64 % 4 = 1 then (l : Int) - (sel l % 64 : Nat)
      else if sel l / 64 % 4 = 2 then (l : Int) + (sel l % 64 : Nat) else ((l ^^^ (sel l % 64) : Nat) : Int)
    let found := fun (l : Nat) => decide (0 ≤ from_ l) && decide (from_ l ≤ 63) && act.contains (from_ l).toNat
    exec (.shfl o) s = .next (s.send 6
      (act.map (fun l => vWrite o.ty l o.d (if found l then s.operand c o.a (from_ l).toNat o.ty else s.operand c o.f l o.ty) true)
        ++ act.map (fun l => Write.p l (16 + o.e.val) (found l)))))

/-- VRED writes one value to every active lane (R77, R168): the reduction of the active lanes by the fixed pairwise tree over lane numbers,
whose nodes wrap, compare by the signedness of the type, or round; an integer sum is the sum of the active lanes modulo 2^w. A float sum
of a node is rounded once, and a float minimum or maximum is as R153 gives it: one of the two, −0 below +0, the other one where one is
NaN, and the canonical NaN where both are. -/
def Sys2Proof.Claims.ReductionsFollowTheTree : Prop :=
  ∀ (s : State) (c : Cursor) (o : VRed), s.issues c (.vred o) →
    let src := fun l => if isFlt o.ty then s.felem c o.ty o.a l 0 else s.operand c o.a l o.ty
    let leaf := fun l => if l ∈ s.active c o.g then some (src l) else none
    ∃ y : Nat, exec (.vred o) s = .next (s.vOut c o.g o.ty o.d (if o.ty = .f64 then 20 else 12) (fun _ => y))
      ∧ (isFlt o.ty = false → y = extendTo o.ty ((pairTree (s.redNode c o) leaf 6 0).getD 0))
      ∧ (isFlt o.ty = true → y = s.canon c o.ty ((pairTree (s.redNode c o) leaf 6 0).getD 0))
      ∧ (isWide o.ty = true → o.op = .add →
          y % 2 ^ widthOf o.ty = ((s.active c o.g).map (fun l => s.operand c o.a l o.ty)).sum % 2 ^ widthOf o.ty)
      ∧ (isFlt o.ty = false → ∀ a b : BitVec (widthOf o.ty),
          let less := fun (a b : BitVec (widthOf o.ty)) => if isSigned o.ty then a.slt b else a.ult b
          let node := s.redNode c o a.toNat b.toNat
          (o.op = .add → node = (a + b).toNat) ∧ (o.op = .min → node = (if less b a then b else a).toNat)
            ∧ (o.op = .max → node = (if less a b then b else a).toNat) ∧ (o.op = .and → node = (a &&& b).toNat)
            ∧ (o.op = .or → node = (a ||| b).toNat) ∧ (o.op = .xor → node = (a ^^^ b).toNat))
      ∧ (isFlt o.ty = true → ∀ a b : Nat,
          let x := exOf o.ty a
          let y := exOf o.ty b
          let node := s.redNode c o a b
          let mx := decide (o.op = .max)
          (o.op = .add → node = flush (s.ftz c) o.ty (roundEx (exAdd (decide (o.rm = .rdn)) x y) (fmtOf o.ty) o.rm false 0))
            ∧ ((o.op = .min ∨ o.op = .max) →
              (x = .nan → y = .nan → node = (fmtOf o.ty).nan) ∧ (x = .nan → y ≠ .nan → node = b) ∧ (y = .nan → x ≠ .nan → node = a)
                ∧ (x ≠ .nan → y ≠ .nan → exLt x y = true → node = if mx then b else a)
                ∧ (x ≠ .nan → y ≠ .nan → exLt y x = true → node = if mx then a else b)
                ∧ (exEq x y = true → exSign x = true → exSign y = false → node = if mx then b else a)
                ∧ (exEq x y = true → exSign x = false → exSign y = true → node = if mx then a else b)))

/-- VOTE, VBALLOT, SHFL and VRED over the active lanes: `LaneCrossing`, `ReductionsFollowTheTree`. -/
def Obligations.LanesCrossAndReduce : Prop :=
  Claims.LaneCrossing ∧ Claims.ReductionsFollowTheTree

/-- What a vector-slot instruction leaves unchanged: it completes, adds writes to its own destinations only (the V register or pair,
the predicate or the S register that it names), all of them landing later, and changes nothing else but the serial and, for a conversion
that rounds stochastically, the states of R71. All of memory, every other gang, group, queue and register is as before. -/
def Obligations.VectorSlotFrame : Prop :=
  ∀ (s : State) (c : Cursor) (i : Instr), slotOf i = some .v → s.issues c i → (smFind s.gangs c.gang).isSome = true →
    ∃ t, exec i s = .next t ∧ s.onlyFlight t c
      ∧ (∀ f ∈ (s.gang c.gang).flight, f ∈ (t.gang c.gang).flight)
      ∧ (∀ f ∈ (t.gang c.gang).flight, f ∈ (s.gang c.gang).flight ∨
          (isDest i f.w ∧ f.issue = c.cyc ∧ c.cyc + 4 ≤ f.land ∧ f.slices = c.slices))
      ∧ ((∀ o : VCvt, i = .vcvt o → o.rm ≠ .rs) → (∀ o : VPack, i = .vpack o → o.rm ≠ .rs) → (∀ o : VQnt, i = .vqnt o → o.rm ≠ .rs) →
          (t.gang c.gang).g = (s.gang c.gang).g)

/-- A write that lands changes its own target and nothing else (R92, R96, R239): a V register or pair and the latches of its lane, a
predicate, an S or K register, DMR, FSTAT, or TRAPPC of the slices of its part. -/
def Sys2Proof.Claims.LandingChangesOnlyItsTarget : Prop :=
  ∀ (g : Gang) (t : Nat) (w : Write),
    let h := g.landWrite t w
    (∀ l r, (∀ lo hi b, w ≠ .v l r lo hi b) → (∀ r' lo hi b, r' + 1 = r → w ≠ .v l r' lo (some hi) b) → r < 256 →
        (∀ l' r' lo hi b, w = .v l' r' lo hi b → r' < 256 ∧ (hi = none ∨ r' + 1 < 256)) → h.vReg l r = g.vReg l r)
      ∧ (∀ l r, r < 32 → (∀ b, w ≠ .p l r b) → (∀ l' r' b, w = .p l' r' b → r' < 32) → h.pReg l r = g.pReg l r)
      ∧ (∀ r, (∀ x, w ≠ .s r x) → h.sReg r = g.sReg r) ∧ (∀ r, (∀ x, w ≠ .k r x) → h.kReg r = g.kReg r)
      ∧ (∀ l, (∀ r lo hi, w ≠ .v l r lo hi true) → h.latch0 l = g.latch0 l ∧ h.latch1 l = g.latch1 l)
      ∧ ((∀ x m, w ≠ .sys 0x20 x m) → h.dmr = g.dmr) ∧ ((∀ n x m, w ≠ .sys n x m) → h.fstat = g.fstat)
      ∧ ((∀ x m, w ≠ .sys 0x19 x m) → h.slices = g.slices) ∧ h.flight = g.flight ∧ h.accs = g.accs ∧ h.parts = g.parts ∧ h.g = g.g
      ∧ h.chk = g.chk ∧ h.live = g.live ∧ h.stopped = g.stopped

/-- What a landing write changes: P31, latches, and nothing else: `PredicateThirtyOne`, `ResultShiftsLatches`, `LandingChangesOnlyItsTarget`. -/
def Obligations.WritesChangeTheirTargets : Prop :=
  Claims.PredicateThirtyOne ∧ Claims.ResultShiftsLatches ∧ Claims.LandingChangesOnlyItsTarget

/-! The memory slot. -/

/-- The address of a lane (R172): the base register, plus the lane's index times 2^SC, plus the sign-extended offset, modulo 2^64; a V
register, a latch or Q is a signed 32-bit index, an S register a 64-bit one, a loop index is not negative, and an immediate is signed. -/
def Sys2Proof.Claims.AddressOfALane : Prop :=
  ∀ (s : State) (c : Cursor) (b : Fin 64) (sc : Fin 4) (off : BitVec 12) (l : Nat),
    let base : Dword := BitVec.ofNat 64 (s.readSAt c l b)
    let gives := fun (o : Opd) (x : Dword) => s.ea c ⟨b, o, sc⟩ off.toInt l = (base + x <<< sc.val + off.signExtend 64).toNat
    (∀ n : Fin 256, gives (.v n) ((BitVec.ofNat 32 (s.readV c l n)).signExtend 64))
      ∧ gives .l0 ((BitVec.ofNat 32 ((s.gang c.gang).latch0 l)).signExtend 64)
      ∧ gives .l1 ((BitVec.ofNat 32 ((s.gang c.gang).latch1 l)).signExtend 64)
      ∧ gives .q ((BitVec.ofNat 32 (c.qWord l 0)).signExtend 64)
      ∧ (∀ n : Fin 64, gives (.s n) (BitVec.ofNat 64 (s.readSAt c l n)))
      ∧ (∀ n : Fin 6, gives (.idx n) (BitVec.ofNat 64 (s.readI c n)))
      ∧ (∀ i : BitVec 9, gives (.imm i) (i.signExtend 64))

/-- Every memory access issues: with its checks passed, the bundle enters one access whose lanes are the active lanes in ascending order,
each with its address and, for a store, the low bytes of its data read at issue (R172, R173, R181, R183, R184, R192, R193, R201, R202);
STB also sends its handle to its K register, to land after 4 cycles, and takes the next baton number; FWAIT with an active lane parks
its part. -/
def Sys2Proof.Claims.AccessesEnter : Prop :=
  ∀ (s : State) (c : Cursor),
    let lanes := fun (g : Guard) (a : Addr) (off : Int) (d : Nat → Nat × Nat) =>
      (s.active c g).map (fun l => mkLane l (s.ea c a off l) (d l).1 (d l).2)
    let low := fun (t : Ty) (o : Opd) (l : Nat) => (s.operand c o l t % 2 ^ widthOf t, 0)
    let acc := s.access c
    let pair := fun (o : MAtom) (l : Nat) => if o.op = .cas then s.casData c o.ty o.data l else low o.ty o.data l
    let done := fun (i : Instr) (t : State) => s.issues c i → exec i s = .next t
    (∀ o : MLoad, done (.ld o) (s.enter c.gang { acc 0x00 o.ty o.scope o.ord (lanes o.g o.at_ o.off.toInt (fun _ => (0, 0))) with ro := o.ro })
        ∧ done (.ldsp o) (s.enter c.gang (acc 0x02 o.ty o.scope o.ord (lanes o.g o.at_ o.off.toInt (fun _ => (0, 0))))))
    ∧ (∀ o : MStore, done (.st o) (s.enter c.gang (acc 0x01 o.ty o.scope o.ord (lanes o.g o.at_ o.off.toInt (low o.ty o.data))))
        ∧ done (.stsp o) (s.enter c.gang (acc 0x03 o.ty o.scope o.ord (lanes o.g o.at_ o.off.toInt (low o.ty o.data)))))
    ∧ (∀ o : MAtom,
        let ls := lanes o.g o.at_ o.off.toInt (pair o)
        done (.atom o) (s.enter c.gang { acc 0x08 o.ty o.scope o.ord ls with atop := o.op })
          ∧ done (.atomq o) (s.enter c.gang { acc 0x09 o.ty o.scope o.ord ls with atop := o.op })
          ∧ done (.atomsp o) (s.enter c.gang { acc 0x0A o.ty o.scope o.ord ls with atop := o.op }))
    ∧ (∀ o : MBaton,
        let ls := lanes o.g o.at_ 0 (low o.ty o.data)
        let cs := s.handles c [o.ka, o.kb]
        let q := s.link.batonNext
        done (.stk o) (s.enter c.gang { acc 0x19 o.ty o.scope o.ord ls with carries := cs })
          ∧ done (.stb o) (((s.send 4 [Write.k o.kd.k (2 ^ 63 + q)]).modLink (fun l => { l with
              batons := smPut l.batons q ⟨if ls = [] then .released else .pending, c.gang, ls.length, cs, [], [], []⟩
              batonNext := if q < 0xFFFFFFFF then q + 1 else 1 })).enter c.gang
              { acc 0x18 o.ty o.scope o.ord ls with own := some q, carries := cs }))
    ∧ (∀ o : MFput, done (.fput o) (s.enter c.gang (acc 0x28 o.ty o.scope .rel
        (lanes o.g o.at_ o.off.toInt (fun l => (s.operand c o.data l o.ty, 0))))))
    ∧ (∀ o : MFwait,
        let ls := lanes o.g o.at_ o.off.toInt (fun _ => (0, 0))
        done (.fwait o) (match ls with
          | [] => s.enter c.gang (acc 0x29 o.ty o.scope .acq [])
          | x :: _ =>
            let p := s.blockPart c (.future x.addr (some s.nextId) 0)
            p.enter c.gang { acc 0x29 o.ty o.scope (if o.take then .ar else .acq) ls with take := o.take }))

/-- Lane addresses, and how every memory access issues: `AddressOfALane`, `AccessesEnter`. -/
def Obligations.AccessesIssue : Prop :=
  Claims.AddressOfALane ∧ Claims.AccessesEnter

/-- A store to scratchpad (R181): with nothing earlier of the gang under way, STSP completes with each active lane's bytes at the lane's
address, in ascending lane order, so that the highest lane's stay; no other scratchpad, no byte of memory and no register changes, and
nothing of the access is left. -/
def Sys2Proof.Claims.ScratchpadStore : Prop :=
  ∀ (s : State) (c : Cursor) (o : MStore), s.issues c (.stsp o) → s.idleOf c →
    (smFind s.groups (s.gang c.gang).group).isSome = true →
    ∃ t, exec (.stsp o) s = .next t
      ∧ (t.group (s.gang c.gang).group).spad = (s.active c o.g).foldl (fun m l =>
          Memory.writeN m (s.ea c o.at_ o.off.toInt l) (bytesOf (Machine.sizeOf o.ty) (s.operand c o.data l o.ty))) (s.group (s.gang c.gang).group).spad
      ∧ s.sameMemBut t (s.gang c.gang).group ∧ s.sameRegs t ∧ (t.gang c.gang).accs = []

/-- A load from scratchpad (R173, R174, R181): LDSP reserves one entry, or two for a 64-bit type, at the end of each slice's queue, and
each active lane's bytes, extended by the type, stand ready to arrive in its entry; memory and registers are unchanged. -/
def Sys2Proof.Claims.ScratchpadLoad : Prop :=
  ∀ (s : State) (c : Cursor) (o : MLoad), s.issues c (.ldsp o) → s.idleOf c → s.active c o.g ≠ [] →
    ∃ t a, exec (.ldsp o) s = .next t ∧ (t.gang c.gang).accs = [(s.nextId, a)]
      ∧ a.lanes.map (fun l => (l.lane, l.st, l.val)) = (s.active c o.g).map (fun l => (l, LaneSt.arriving,
          regBits o.ty (BitVec.ofNat (widthOf o.ty) (ofBytes (s.spRd (s.gang c.gang).group (s.ea c o.at_ o.off.toInt l) (Machine.sizeOf o.ty))))))
      ∧ (∀ k, k < (s.gang c.gang).slices.length → ((t.gang c.gang).slice k).ldq.length = ((s.gang c.gang).slice k).ldq.length
          + (if c.slices.testBit k then (if is64 o.ty then 2 else 1) else 0))
      ∧ s.sameMemBut t (s.gang c.gang).group ∧ (∀ h, (t.group h).spad = (s.group h).spad) ∧ s.sameRegs t

/-- Stores and loads of scratchpad: `ScratchpadStore`, `ScratchpadLoad`. -/
def Obligations.ScratchpadAccesses : Prop :=
  Claims.ScratchpadStore ∧ Claims.ScratchpadLoad

/-- A store to a local page (R20, R181): with nothing earlier of the gang under way, no store of the package in the hold queue, no failed
transfer between the dies, and every active lane's address on no remote page and translating to a local physical address, ST completes with each lane's bytes there in ascending lane order; every
byte outside them, host memory, every group and every register is unchanged. -/
def Sys2Proof.Claims.LocalStore : Prop :=
  ∀ (s : State) (c : Cursor) (o : MStore) (pa : Nat → Nat), s.issues c (.st o) → s.idleOf c → s.link.held = [] → s.dieFails = [] →
    (∀ l ∈ s.active c o.g, s.remotePage (s.gang c.gang).ctx (s.ea c o.at_ o.off.toInt l) = false) →
    (∀ l ∈ s.active c o.g, s.hits (s.gang c.gang).core (s.gang c.gang).ctx (s.ea c o.at_ o.off.toInt l) .write (pa l)) →
    ∃ t, exec (.st o) s = .next t
      ∧ t.mem = (s.active c o.g).foldl (fun m l => Memory.writeN m (pa l) (bytesOf (Machine.sizeOf o.ty) (s.operand c o.data l o.ty))) s.mem
      ∧ (∀ x, Memory.wf s.mem = true → (∀ l ∈ s.active c o.g, x < pa l ∨ pa l + Machine.sizeOf o.ty ≤ x) → Memory.read t.mem x = Memory.read s.mem x)
      ∧ t.host = s.host ∧ t.groups = s.groups ∧ t.futs = s.futs ∧ s.sameRegs t ∧ (t.gang c.gang).accs = []

/-- A load from a local page (R173, R174, R181): each active lane's bytes, extended by the type, stand ready to arrive; memory and
registers are unchanged. -/
def Sys2Proof.Claims.LocalLoad : Prop :=
  ∀ (s : State) (c : Cursor) (o : MLoad) (pa : Nat → Nat), s.issues c (.ld o) → s.idleOf c → o.ro = false → s.active c o.g ≠ [] → s.dieFails = [] →
    (∀ l ∈ s.active c o.g, s.remotePage (s.gang c.gang).ctx (s.ea c o.at_ o.off.toInt l) = false) →
    (∀ l ∈ s.active c o.g, s.hits (s.gang c.gang).core (s.gang c.gang).ctx (s.ea c o.at_ o.off.toInt l) .read (pa l)) →
    ∃ t a, exec (.ld o) s = .next t ∧ (t.gang c.gang).accs = [(s.nextId, a)]
      ∧ a.lanes.map (fun l => (l.lane, l.st, l.val)) = (s.active c o.g).map (fun l => (l, LaneSt.arriving,
          regBits o.ty (BitVec.ofNat (widthOf o.ty) (ofBytes (s.rd (pa l) (Machine.sizeOf o.ty))))))
      ∧ t.mem = s.mem ∧ t.host = s.host ∧ t.groups = s.groups ∧ s.sameRegs t

/-- Stores and loads of a local page: `LocalStore`, `LocalLoad`. -/
def Obligations.LocalAccesses : Prop :=
  Claims.LocalStore ∧ Claims.LocalLoad

/-- The new values of the atomic operations (R183), modulo 2^w and by the signedness of the type, and the order of lanes (R185): the
active lanes of one ATOMSP that name one location are performed in ascending lane order, each reading what the lane before it left. -/
def Sys2Proof.Claims.AtomicsInLaneOrder : Prop :=
  (∀ (t : Ty) (x y z : BitVec (widthOf t)), isInt t = true ∨ t = .b32 →
    let new := fun (op : AtomOp) => atomNew op t x.toNat y.toNat z.toNat
    let less := fun (a b : BitVec (widthOf t)) => if isSigned t then a.slt b else a.ult b
    new .add = (x + y).toNat ∧ new .and = (x &&& y).toNat ∧ new .or = (x ||| y).toNat ∧ new .xor = (x ^^^ y).toNat
      ∧ new .exch = y.toNat ∧ new .cas = (if x = y then z else x).toNat
      ∧ new .min = (if less y x then y else x).toNat ∧ new .max = (if less x y then y else x).toNat)
  ∧ (∀ (s : State) (c : Cursor) (o : MAtom), s.issues c (.atomsp o) → s.idleOf c → s.active c o.g ≠ [] →
    (smFind s.groups (s.gang c.gang).group).isSome = true →
    let n := Machine.sizeOf o.ty
    let data := fun (l : Nat) => if o.op = .cas then s.casData c o.ty o.data l else (s.operand c o.data l o.ty % 2 ^ widthOf o.ty, 0)
    let old := fun (m : Memory) (l : Nat) => ofBytes (Memory.readN m (s.ea c o.at_ o.off.toInt l) n)
    let run := (s.active c o.g).foldl (fun (r : Memory × List Nat) l =>
      (Memory.writeN r.1 (s.ea c o.at_ o.off.toInt l) (bytesOf n (atomNew o.op o.ty (old r.1 l) (data l).1 (data l).2)), r.2 ++ [old r.1 l]))
      ((s.group (s.gang c.gang).group).spad, [])
    ∃ t a, exec (.atomsp o) s = .next t ∧ (t.group (s.gang c.gang).group).spad = run.1 ∧ (t.gang c.gang).accs = [(s.nextId, a)]
      ∧ a.lanes.map (fun l => (l.lane, l.st, l.val)) = ((s.active c o.g).zip run.2).map (fun p => (p.1, LaneSt.arriving, p.2))
      ∧ s.sameMemBut t (s.gang c.gang).group ∧ s.sameRegs t)

/-- Futures (R200 to R202, R334): a fill sets the cell full and changes no byte; FPUT writes its value to its cell, in scratchpad or in
global memory, and fills it; a full cell gives its value to a lane that presents a park, and is left full, or is left empty under
`.take`. -/
def Sys2Proof.Claims.FuturesFillAndGive : Prop :=
  (∀ (s : State) (ctx g cell : Nat), (smFind s.groups g).isSome = true →
    let t := (s.fill ctx (some g) cell).2
    t.futFull (some g) cell = true ∧ t.mem = s.mem ∧ (∀ h, (t.group h).spad = (s.group h).spad)
      ∧ ∀ x, x / 8 ≠ cell / 8 → t.futFull (some g) x = s.futFull (some g) x)
  ∧ (∀ (s : State) (ctx cell : Nat),
    let t := (s.fill ctx none cell).2
    t.futFull none cell = true ∧ t.mem = s.mem ∧ t.groups = s.groups ∧ ∀ x, x ≠ cell → t.futFull none x = s.futFull none x)
  ∧ (∀ (s : State) (u id : Nat) (a : Acc) (l : AccLane) (grp : Option Nat) (cell : Nat), a.op = 0x29 → s.futFull grp cell = true →
    (smFind s.gangs u).isSome = true → (smFind (s.gang u).accs id).isSome = true →
    let t := s.present u id a l grp cell
    t.futFull grp cell = !a.take ∧ t.futVal grp cell = s.futVal grp cell
      ∧ ((t.gang u).acc id).lanes = ((s.gang u).acc id).lanes.map (fun x =>
          if x.lane = l.lane then { x with st := .arriving, val := s.futVal grp cell, bad := grp.isNone && s.poisoned cell 8 } else x))
  ∧ (∀ (s : State) (c : Cursor) (o : MFput) (l : Nat), s.issues c (.fput o) → s.idleOf c → (smFind s.groups (s.gang c.gang).group).isSome = true →
    (o.scope = .gang ∨ o.scope = .grp) → s.active c o.g = [l] → s.ea c o.at_ o.off.toInt l % 8 = 0 →
    (∀ k, (s.core k).waiters = []) →
    ∃ t, exec (.fput o) s = .next t ∧ t.futFull (some (s.gang c.gang).group) (s.ea c o.at_ o.off.toInt l) = true
      ∧ (t.group (s.gang c.gang).group).spad = Memory.writeN (s.group (s.gang c.gang).group).spad (s.ea c o.at_ o.off.toInt l)
          (bytesOf 8 (s.operand c o.data l o.ty)) ∧ s.sameMemBut t (s.gang c.gang).group ∧ s.sameRegs t)
  ∧ (∀ (s : State) (c : Cursor) (o : MFput) (l pa : Nat), s.issues c (.fput o) → s.idleOf c → (o.scope = .clu ∨ o.scope = .dev ∨ o.scope = .sys) →
    s.active c o.g = [l] → s.dieFails = [] → s.fwait = [] →
    s.remotePage (s.gang c.gang).ctx (s.ea c o.at_ o.off.toInt l) = false →
    s.hits (s.gang c.gang).core (s.gang c.gang).ctx (s.ea c o.at_ o.off.toInt l) .fill pa →
    ∃ t, exec (.fput o) s = .next t ∧ t.futFull none pa = true ∧ t.mem = Memory.writeN s.mem pa (bytesOf 8 (s.operand c o.data l o.ty))
      ∧ t.host = s.host ∧ t.groups = s.groups ∧ s.sameRegs t)

/-- Atomics in lane order; futures fill and give: `AtomicsInLaneOrder`, `FuturesFillAndGive`. -/
def Obligations.AtomicsAndFutures : Prop :=
  Claims.AtomicsInLaneOrder ∧ Claims.FuturesFillAndGive

/-- FENCE, BWAIT and STRMX hold the part, whose next bundle then waits (R187, R195, R199): FENCE for the gang's accesses so far at its
scope, BWAIT for the batons that its valid K registers hold handles of, STRMX for the reads of the streams that it ends, whose entries
leave the queues and whose range-lock entries go with the hold: it waits for every such read that a peer still has to answer. -/
def Sys2Proof.Claims.HoldsOfTheMemorySlot : Prop :=
  ∀ (s : State) (c : Cursor),
    let held := fun (t : State) (h : Hold) => t.modGang c.gang (fun g => g.modPart (lowSlice c.slices) (fun p => { p with holds := p.holds ++ [h] }))
    (∀ o : MFence, s.issues c (.fence o) →
        exec (.fence o) s = .next (held { s with nextId := s.nextId + 1 } (.fence o.scope o.ord o.sd s.nextId)))
      ∧ (∀ o : MBwait, s.issues c (.bwait o) → exec (.bwait o) s = .next (held s (.bwait (s.handles c [o.ka, o.kb]))))
      ∧ (s.issues c .strmx → (smFind s.gangs c.gang).isSome = true → ∃ t ids locks,
          exec .strmx s = .next (held t (.strmx ids locks))
          ∧ (∀ k, k < (s.gang c.gang).slices.length → c.slices.testBit k = true →
              let x := (s.gang c.gang).slice k
              ((t.gang c.gang).slice k).strm = none ∧ ((t.gang c.gang).slice k).ldq = x.ldq.filter (fun e => !(e.strm && x.streams e.acc)))
          ∧ (∀ n, n ∈ locks ↔ ∃ k ∈ bitsOf 8 c.slices, ∃ x, ((s.gang c.gang).slice k).strm = some x ∧ x.lock = n)
          ∧ (((s.gang c.gang).accs.map (·.1)).Nodup → ∀ n ∈ ids, ∃ e ∈ (t.gang c.gang).accs, e.1 = n ∧ e.2.strm = true ∧ ∀ l ∈ e.2.lanes, ∃ r, l.st = .sent r)
          ∧ (((s.gang c.gang).accs.map (·.1)).Nodup → ∀ e ∈ (s.gang c.gang).accs, ∀ k ∈ bitsOf 8 c.slices, e.2.strm = true →
            e.2.slices.testBit k = true → ((s.gang c.gang).slice k).streams e.1 = true → (∃ l ∈ e.2.lanes, ∃ r, l.st = .sent r) → e.1 ∈ ids)
          ∧ t.mem = s.mem ∧ t.groups = s.groups ∧ s.sameRegs t)
      ∧ (∀ k : KRef, k.valid = true → ∀ q < 2 ^ 32, s.readK c k.k = 2 ^ 63 + q → s.handles c [k] = [q])

/-- STRM starts one stream on each slice of the part (R196 to R198): its descriptor, its type, no element taken yet, as many elements as
the descriptor's counts multiply to, and its live lanes; memory and registers are unchanged. That the streams of all slices of the part
share one range-lock entry is log entry 60 (DEDUCED). -/
def Sys2Proof.Claims.StreamsStart : Prop :=
  ∀ (s : State) (c : Cursor) (o : MStrm), s.issues c (.strm o) → (smFind s.gangs c.gang).isSome = true →
    let d := s.strmDesc c ((BitVec.ofNat 64 (s.readS c o.base) + o.off.signExtend 64).toNat)
    ∃ t lock, exec (.strm o) s = .next t
      ∧ (∀ k, k < (s.gang c.gang).slices.length → c.slices.testBit k = true →
          ∃ x, ((t.gang c.gang).slice k).strm = some x ∧ x.desc = d ∧ x.ty = o.ty ∧ x.next = 0 ∧ x.lock = lock
            ∧ x.total = ((List.range (sdDepth d)).map (sdCount d)).prod
            ∧ ∀ j < 8, x.lanes.testBit j = true ↔ 8 * k + j ∈ s.partLanes c)
      ∧ t.mem = s.mem ∧ t.groups = s.groups ∧ s.sameRegs t

/-- PREF never faults, delivers or traps on a range lock, and its only effect is on timing (R182): whatever its addresses, it completes in
every state in which no check mode finds fault with its sources, and nothing that the machine's state holds changes. -/
def Obligations.PrefetchOnlyTimes : Prop :=
  ∀ (s : State) (c : Cursor) (o : MPref), s.cur = some c →
    (s.checks c = false → s.pre c (.pref o) = none)
      ∧ (c.checked = true ∨ s.checks c = false ∨ s.scoreboard c (.pref o) = none → exec (.pref o) s = .next s)

/-- The broadcast words (R203, R204): BCMIN lowers its cluster's word to the signed minimum of the word and of the active lanes' data, and
does nothing with no active lane, so that a word never rises; BCRD delivers the word to every active lane once no BCMIN on it is less than
16 cycles old. -/
def Sys2Proof.Claims.BroadcastWords : Prop :=
  (∀ (s : State) (c : Cursor) (o : MBcmin), s.issues c (.bcmin o) → (smFind s.ctxs (s.gang c.gang).ctx).isSome = true →
    smWf bcInit (s.ctx (s.gang c.gang).ctx).bcast = true →
    let word := fun (t : State) => (BitVec.ofNat 64 ((t.ctx (s.gang c.gang).ctx).word (bcKey (clusterOf (s.gang c.gang).core) o.w))).toInt
    let data := fun (l : Nat) => (BitVec.ofNat 64 (s.operand c o.data l .i64)).toInt
    (s.active c o.g = [] → exec (.bcmin o) s = .next s)
      ∧ ∃ t, exec (.bcmin o) s = .next t ∧ word t ≤ word s ∧ (∀ l ∈ s.active c o.g, word t ≤ data l)
        ∧ (word t = word s ∨ ∃ l ∈ s.active c o.g, word t = data l) ∧ t.mem = s.mem ∧ t.gangs = s.gangs ∧ t.groups = s.groups)
  ∧ (∀ (s : State) (c : Cursor) (o : MBcrd), s.issues c (.bcrd o) →
    let g := s.gang c.gang
    let k := bcKey (clusterOf g.core) o.w
    (∀ e ∈ (s.ctx g.ctx).bcOld, e.1 = k → e.2.1 + 16 ≤ c.cyc) →
    exec (.bcrd o) s = .next (({ s with serial := s.serial + 1 } : State).enter c.gang
      (s.access c 0x31 o.ty .none .plain ((s.active c o.g).map (fun l => { mkLane l 0 0 0 with st := .arriving, val := (s.ctx g.ctx).word k })))))

/-- FENCE, BWAIT, STRMX, STRM and the broadcast words: `HoldsOfTheMemorySlot`, `StreamsStart`, `BroadcastWords`. -/
def Obligations.HoldsStreamsAndWords : Prop :=
  Claims.HoldsOfTheMemorySlot ∧ Claims.StreamsStart ∧ Claims.BroadcastWords

/-! The copy-or-matrix slot and its engines. -/

/-- The matrix instructions enter one command in the core's matrix queue (R206, R214, R215, R218, R219, R221) with their operands as they
read at issue: MMA and MMAC add one to the depth of the tiles they name, ZLD, ZCLR and the three forms of ZRET reset it, and ZST leaves it;
an MMA takes A from the reuse latch where its gang owns it (in a chain of one AFMT, as R216 wants it), and else from the V registers of every live lane. Memory, scratchpads, tiles and
registers are unchanged, but for the states of R71 under an RS output. -/
def Sys2Proof.Claims.MatrixCommandsEnterTheQueue : Prop :=
  ∀ (s : State) (c : Cursor),
    let g := s.gang c.gang
    let depth := fun (t : State) (z : Nat) => smGet 0 (t.group g.group).depth z
    let queued := fun (i : Instr) (p : MatCmd → Prop) (d : Nat → Nat) (rs : Bool) =>
      s.issues c i → (smFind s.groups g.group).isSome = true → smWf 0 (s.group g.group).depth = true →
      ∃ t m, exec i s = .next t ∧ smFind (t.core g.core).matq s.nextId = some m
        ∧ m.i = i ∧ m.gang = c.gang ∧ m.group = g.group ∧ m.slices = c.slices ∧ m.pc = c.pc ∧ m.issued = c.cyc ∧ m.fired = none ∧ p m
        ∧ (∀ id, id ≠ s.nextId → smFind (t.core g.core).matq id = smFind (s.core g.core).matq id)
        ∧ (∀ z, depth t z = d z) ∧ t.mem = s.mem ∧ (∀ h, (t.group h).spad = (s.group h).spad ∧ (t.group h).z = (s.group h).z)
        ∧ s.sameRegs (t.modGang c.gang (fun x => { x with g := g.g })) ∧ (rs = false → s.sameRegs t)
    let rows := fun (gd : Guard) (m : MatCmd) => ∀ l, l < 64 → (m.rows.testBit l = true ↔ l ∈ s.active c gd)
    (∀ o : XMma, queued (.mma o) (fun m => rows o.g m ∧ m.fb = s.readS c o.sy ∧ m.sx = s.readS c o.sx
        ∧ (∀ x, (s.core g.core).al = some x → x.gang = c.gang → tyOf (fbA (s.readS c o.sy)) = tyOf x.fmt → m.a = x.a)
        ∧ (((s.core g.core).al = none ∨ ∃ x, (s.core g.core).al = some x ∧ x.gang ≠ c.gang) → ∀ h, shapeOf m.fb = some h →
            ∀ l ∈ g.liveLanes, ∀ r < h.regs, (smGet (0 : Word) m.a (l * 16 + r)).toNat = s.readV c l (o.va + r)))
        (fun z => if z = o.zt then depth s z + 1 else depth s z) false)
      ∧ (∀ o : XMmac, queued (.mmac o) (fun m => rows o.g m ∧ m.fb = s.readS c o.sy ∧ m.sx = s.readS c o.sx
          ∧ m.inst = smGet 0 (s.core g.core).mmacs (g.ctx * 32 + o.set * 2 + o.half))
        (fun z => if z = o.zt ∨ z = o.zu then depth s z + 1 else depth s z) false)
      ∧ (∀ o : XZld, queued (.zld o) (fun m => rows o.g m ∧ m.sx = s.readS c o.sx ∧ m.sz = s.readS c o.sz)
        (fun z => if z = o.zt then 0 else depth s z) false)
      ∧ (∀ o : XZst, queued (.zst o) (fun m => rows o.g m ∧ m.fb = s.readS c o.sy ∧ m.sx = s.readS c o.sx ∧ m.sz = s.readS c o.sz)
        (fun z => depth s z) (fbOrm (s.readS c o.sy) = 4))
      ∧ (∀ o : XZclr, queued (.zclr o) (fun m => rows o.g m) (fun z => if z = o.zt then 0 else depth s z) false)
      ∧ (∀ o : XZret, queued (.zret o) (fun _ => True) (fun z => if z = o.zt then 0 else depth s z) false)
      ∧ (∀ o : XZst, queued (.zretSp o) (fun m => rows o.g m ∧ m.fb = s.readS c o.sy ∧ m.sx = s.readS c o.sx ∧ m.sz = s.readS c o.sz)
        (fun z => if z = o.zt then 0 else depth s z) (fbOrm (s.readS c o.sy) = 4))
      ∧ (∀ o : XZst, queued (.zretG o) (fun m => rows o.g m ∧ m.fb = s.readS c o.sy ∧ m.sx = s.readS c o.sx ∧ m.sz = s.readS c o.sz)
        (fun z => if z = o.zt then 0 else depth s z) (fbOrm (s.readS c o.sy) = 4))

/-- The first MMA of a chain leaves its A in the core's reuse latch with RU set, the next ones keep it while RU is set, and one with RU
clear empties it (R215). -/
def Sys2Proof.Claims.ReuseLatchHoldsAChain : Prop :=
  ∀ (s : State) (c : Cursor) (o : XMma), s.issues c (.mma o) →
    let core := (s.gang c.gang).core
    ∃ t, exec (.mma o) s = .next t
      ∧ ((s.core core).al = none → o.ru = false → (t.core core).al = none)
      ∧ ((s.core core).al = none → o.ru = true → ∃ x, (t.core core).al = some x ∧ x.gang = c.gang ∧ x.va = o.va ∧ x.fmt = fbA (s.readS c o.sy))
      ∧ (∀ x, (s.core core).al = some x → x.gang = c.gang → (t.core core).al = if o.ru then some x else none)
      ∧ (∀ x, (s.core core).al = some x → x.gang ≠ c.gang → (t.core core).al = some x)

/-- Matrix instructions enter commands; the reuse latch: `MatrixCommandsEnterTheQueue`, `ReuseLatchHoldsAChain`. -/
def Obligations.MatrixCommandsAndReuse : Prop :=
  Claims.MatrixCommandsEnterTheQueue ∧ Claims.ReuseLatchHoldsAChain

/-- MATRIX_COMMAND_COMPLETE with a ready command at the head of the queue (R44, R75, R76, R206, R214, R219): the command leaves the queue with its
range locks and sets its flag in its live slices, with the earlier accesses that it waits for done. MMA replaces each word of an active row of its tile by the dot product of that row of A with
that column of B on top of the word, INT8 modulo 2^32; ZLD takes the words from the row's image and ZCLR sets them to 0; ZST and ZRET mode 01
write each active row's 64 converted words to the row's image, a higher row after a lower one where two images overlap (log entry 61,
DESIGN CHOICE). Words of other rows and tiles are unchanged. -/
def Sys2Proof.Claims.MatrixEngineCompletes : Prop :=
  ∀ (s : State) (core id : Nat) (m : MatCmd) (rest : List (Nat × MatCmd)), (s.core core).matq = (id, m) :: rest →
    s.matReady core id m = true → smWf (0 : Word) (s.group m.group).z = true → (smFind s.groups m.group).isSome = true →
    (smFind s.gangs m.gang).isSome = true → m.fired = none →
    let word := fun (x : State) (z i n : Nat) => (x.group m.group).zWord z i n
    let active := fun (i : Nat) => m.rows.testBit i
    let imageWord := fun (i n : Nat) => ofBytes (((s.spRd m.group (m.rowAt i) 256).drop (4 * n)).take 4)
    let fires := fun (p : State → Prop) => ∃ t, exec (.matrixCommandComplete core) s = .next t ∧ (t.core core).matq = rest
      ∧ (∀ e ∈ (t.core core).locks, e.2.owner ≠ id)
      ∧ (∀ k, matFlag m.i = some k → ∀ j < (s.gang m.gang).slices.length, m.slices.testBit j = true → ((s.gang m.gang).slice j).sets ≠ [] →
          ((t.gang m.gang).slice j).flags.set.testBit k = true)
      ∧ t.mem = s.mem ∧ p t
    (∀ (o : XMma) (h : Shape), m.i = .mma o → shapeOf m.fb = some h → fires (fun t =>
        (∀ z i n, i < 64 → n < 64 → word t z i n = if z = o.zt ∧ active i = true then
            s.mulElem m h (s.aMeta m.group m.fb h) 64 i n (word s z i n) % 2 ^ 32 else word s z i n)
          ∧ (t.group m.group).spad = (s.group m.group).spad))
      ∧ (∀ (h : Shape) (am : List Byte) (cols i n acc : Nat), h = .int8 →
          s.mulElem m h am cols i n acc = (BitVec.ofNat 32 acc + ((List.range 64).map (fun k =>
            (BitVec.ofNat 8 (aCode m.a 8 i k)).signExtend 32 * (BitVec.ofNat 8 (s.bCode m.group (m.sx + n * 64) 8 k)).signExtend 32)).sum).toNat)
      ∧ (∀ o : XZld, m.i = .zld o → fires (fun t =>
        (∀ z i n, i < 64 → n < 64 → word t z i n = if z = o.zt ∧ active i = true then imageWord i n else word s z i n)
          ∧ (t.group m.group).spad = (s.group m.group).spad))
      ∧ (∀ o : XZclr, m.i = .zclr o → fires (fun t =>
        (∀ z i n, i < 64 → n < 64 → word t z i n = if z = o.zt ∧ active i = true then 0 else word s z i n)
          ∧ (t.group m.group).spad = (s.group m.group).spad))
      ∧ (∀ o : XZst, m.i = .zst o ∨ m.i = .zretSp o → fires (fun t =>
        (t.group m.group).spad = (rowList m.rows).foldl (fun x i => Memory.writeN x (m.rowAt i) ((List.range 64).flatMap (fun n =>
            bytesOf (outSize m.fb) (convOut m.fb (word s o.zt i n) (smGet 0 m.rnd (i * 64 + n)))))) (s.group m.group).spad
          ∧ (t.group m.group).z = (s.group m.group).z))
      ∧ (∀ o : XZret, m.i = .zret o → fires (fun t => (t.group m.group).z = (s.group m.group).z ∧ (t.group m.group).spad = (s.group m.group).spad))

/-- MMAC_INSTANCE_COMPLETE (R221, R222): once the sixteen participants of the oldest instance of a set stand in the matrix queues of the
cluster, with the earlier stores to the scratchpads that position 0 reads performed, each takes the A operand of the position-0 participant of its half and fires in this cycle, and no other command changes.
That an instance fires in the first cycle in which all sixteen stand ready is log entry 11 (DEDUCED). -/
def Sys2Proof.Claims.ClusterMultiplyFires : Prop :=
  ∀ (s : State) (ctx cluster set : Nat) (seatOf : Nat → Nat × Nat × MatCmd),
    (∀ p ∈ s.participants ctx cluster set, ∃ k < 16, p = seatOf k) → (∀ k < 16, seatOf k ∈ s.participants ctx cluster set) →
    (∀ k < 16, (seatOf k).1 = cluster * 8 + k / 2 ∧ (seatOf k).2.2.half = k % 2 ∧ (seatOf k).2.2.inst = (seatOf 0).2.2.inst) →
    (∀ j < 16, ∀ k < 16, j ≠ k → (seatOf j).1 = (seatOf k).1 → (seatOf j).2.1 ≠ (seatOf k).2.1) →
    (∀ k < 16, sameA (seatOf k).2.2.fb (seatOf (k % 2)).2.2.fb = true) →
    (∀ k < 2, s.spDrained (seatOf k).2.2.group (seatOf k).2.1 = true) →
    ∃ t, exec (.mmacInstanceComplete ctx cluster set) s = .next t
      ∧ (∀ k < 16, ∃ m, smFind (t.core (seatOf k).1).matq (seatOf k).2.1 = some m ∧ m.fired = some (s.cyc (cluster * 8))
          ∧ m.a = activeA (seatOf (k % 2)).2.2 ∧ m.afb = (seatOf (k % 2)).2.2.fb ∧ m.failed = false)
      ∧ (∀ core id, (∀ k < 16, (core, id) ≠ ((seatOf k).1, (seatOf k).2.1)) → smFind (t.core core).matq id = smFind (s.core core).matq id)
      ∧ t.mem = s.mem ∧ t.gangs = s.gangs ∧ t.groups = s.groups

/-- Matrix commands complete; MMAC instances fire: `MatrixEngineCompletes`, `ClusterMultiplyFires`. -/
def Obligations.MatrixEngines : Prop :=
  Claims.MatrixEngineCompletes ∧ Claims.ClusterMultiplyFires

/-- CPY and CPYR enter a copy of the gang's open batch, HSET, in a cycle without a store of the memory slot to the scratchpad, arms its hurdle
(count 0, the next phase and the target) and enters a command without bytes, CPSEAL closes the open batch, and CPWAIT holds the part until few enough batches are unfinished (R206, R225, R228, R231 to
R233, R331). No register changes. -/
def Sys2Proof.Claims.CopyCommandsEnterTheQueue : Prop :=
  ∀ (s : State) (c : Cursor), (smFind s.gangs c.gang).isSome = true →
    let g := s.gang c.gang
    (∀ (o : XCpy) (remote : Bool), let i := if remote then Instr.cpyr o else Instr.cpy o
      s.issues c i → ∃ t m, exec i s = .next t ∧ smFind (t.core g.core).copyq s.nextId = some m
        ∧ m.gang = c.gang ∧ m.group = g.group ∧ m.remote = remote ∧ m.scope = o.scope ∧ m.desc = s.curDesc c (s.readS c o.sx)
        ∧ m.src = s.readS c o.sy ∧ m.dst = s.readS c o.sz ∧ m.f = (if o.f.fe then some o.f.k.val else none) ∧ m.done = [] ∧ m.failed = false
        ∧ (t.gang c.gang).openBatch = g.openBatch ++ [s.nextId] ∧ t.mem = s.mem ∧ s.sameRegs t
        ∧ ∀ h, (t.group h).spad = (s.group h).spad ∧ (t.group h).z = (s.group h).z ∧ (t.group h).futs = (s.group h).futs)
    ∧ (∀ f : Flag, s.issues c (.cpseal f) → ∃ t, exec (.cpseal f) s = .next t ∧ (t.gang c.gang).openBatch = []
        ∧ (t.gang c.gang).batches = (if g.openBatch = [] then g.batches
            else g.batches ++ [⟨g.openBatch, if f.fe then some f.k.val else none, c.slices⟩])
        ∧ (g.openBatch = [] → f.fe = true → ∀ k < g.slices.length, c.slices.testBit k = true → (g.slice k).sets ≠ [] →
            ((t.gang c.gang).slice k).flags.set.testBit f.k = true)
        ∧ t.mem = s.mem ∧ t.groups = s.groups ∧ s.sameRegs t)
    ∧ (∀ n : Fin 16, s.issues c (.cpwait n) → exec (.cpwait n) s = .next (s.modGang c.gang (fun g =>
        g.modPart (lowSlice c.slices) (fun p => { p with holds := p.holds ++ [.cpwait n] }))))
    ∧ (∀ o : XHset, s.issues c (.hset o) → (smFind s.groups g.group).isSome = true → smWf (0 : Byte) (s.group g.group).spad = true →
        (s.group g.group).bank.cyc ≠ s.cyc (s.group g.group).core →
        let a := s.readS c o.sx
        ∃ t, exec (.hset o) s = .next t ∧ ofBytes (t.spRd g.group a 8) = 0 ∧ ofBytes (t.spRd g.group (a + 8) 6) = s.readS c o.sy % 2 ^ 48
          ∧ ofBytes (t.spRd g.group (a + 14) 2) = (ofBytes (s.spRd g.group (a + 14) 2) + 1) % 2 ^ 16
          ∧ (∀ x, x < a ∨ a + 16 ≤ x → Memory.read (t.group g.group).spad x = Memory.read (s.group g.group).spad x)
          ∧ (smFind (t.core g.core).copyq s.nextId).isSome = true ∧ s.sameMemBut t g.group ∧ s.sameRegs t)

/-- COPY_BYTES_PERFORMED performs elements of a copy (R226, R227): an element that a copy within the scratchpad has not performed yet takes its
bytes from its source address, or zeros where it reaches beyond LIMIT, leaves those that no element of a higher index writes, and is performed
once; nothing else in memory changes. -/
def Sys2Proof.Claims.CopyPerformsItsElements : Prop :=
  ∀ (s : State) (core cmd n : Nat) (m : CopyCmd), smFind (s.core core).copyq cmd = some m → m.failed = false → m.waits = false →
    m.desc ≠ [] → s.copyDrained m cmd = true → m.remote = false → cdSrc m.desc = 1 → cdDst m.desc = 1 → cdHen m.desc = false →
    n < m.elems → n ∉ m.done → n ∉ m.sent → (smFind s.groups m.group).isSome = true →
    let bytes := if cdLimit m.desc ≠ 0 ∧ cdLimit m.desc < m.srcAt n + cdEsize m.desc then List.replicate (cdEsize m.desc) 0
      else s.spRd m.group (m.srcAt n) (cdEsize m.desc)
    ∃ t m', exec (.copyBytesPerformed core cmd [n]) s = .next t
      ∧ (t.group m.group).spad = Memory.writeAll (s.group m.group).spad (m.leaves n bytes)
      ∧ smFind (t.core core).copyq cmd = some m' ∧ m'.done = m.done ++ [n] ∧ s.sameMemBut t m.group ∧ s.sameRegs t

/-- COPY_COMPLETE (R207, R209, R231, R235): a local copy all of whose elements are performed leaves the queue once its least time has passed, with
its range locks, sets its flag in its live slices, and counts as finished in its batch. -/
def Sys2Proof.Claims.CopyCompletes : Prop :=
  ∀ (s : State) (core cmd : Nat) (m : CopyCmd), smFind (s.core core).copyq cmd = some m → ((s.core core).copyq.map (·.1)).Nodup →
    m.remote = false → m.reqs = [] → m.elems ≤ m.done.length → m.issued + m.least ≤ s.cyc core → (smFind s.gangs m.gang).isSome = true →
    ∃ t, exec (.copyComplete core cmd) s = .next t ∧ smFind (t.core core).copyq cmd = none ∧ (∀ e ∈ (t.core core).locks, e.2.owner ≠ cmd)
      ∧ (∀ k, m.f = some k → ∀ j < (s.gang m.gang).slices.length, m.slices.testBit j = true → ((s.gang m.gang).slice j).sets ≠ [] →
          ((t.gang m.gang).slice j).flags.set.testBit k = true)
      ∧ (∀ b ∈ (t.gang m.gang).batches, cmd ∉ b.copies ∧ b.copies ≠ []) ∧ cmd ∉ (t.gang m.gang).openBatch
      ∧ t.mem = s.mem ∧ t.groups = s.groups ∧ s.sameRegs t

/-- Copy commands enter, perform their elements and complete: `CopyCommandsEnterTheQueue`, `CopyPerformsItsElements`, `CopyCompletes`. -/
def Obligations.CopyEngine : Prop :=
  Claims.CopyCommandsEnterTheQueue ∧ Claims.CopyPerformsItsElements ∧ Claims.CopyCompletes

/-! The system class. -/

/-- A system instruction whose guard reads true in no lane of the part has no effect (R237). -/
def Sys2Proof.Claims.SystemGuardFalse : Prop :=
  ∀ (s : State) (c : Cursor) (i : Instr) (g : Guard), sysGuard i = some g → s.issues c i →
    (∀ l ∈ s.partLanes c, xor (s.readP c l g.p) g.neg = false) → exec i s = .next s

/-- SYSRD (R239, R240): the S form takes the lowest active lane's value, the V form each active lane's own 32-bit value without shifting its
latches, after 4 cycles; and what each special register reads: the lane and slice numbers and the state of R71 per lane (0 without its feature), the places of the gang,
its group and its core, the package number, the cycle count, the time, the trap frame of the part's lowest slice, GWIDTH, DMR, FSTAT, LAP, no
time left without a lease, the current class and the address of the launch's arguments. -/
def Sys2Proof.Claims.SpecialRegistersRead : Prop :=
  ∀ (s : State) (c : Cursor) (g : Guard) (n : BitVec 8), s.acts c g = true →
    let u := s.gang c.gang
    let f := (u.slice (lowSlice c.slices)).frame
    (∀ d : Fin 64, s.issues c (.sysrd g (.s d) n) →
        exec (.sysrd g (.s d) n) s = .next (s.send 4 [Write.s d (s.special c n.toNat ((s.active c g).headD 0))]))
      ∧ (∀ d : Fin 256, s.issues c (.sysrd g (.v d) n) →
        exec (.sysrd g (.v d) n) s = .next (s.send 4 ((s.active c g).map (fun l => Write.v l d (s.special c n.toNat l % 2 ^ 32) none false))))
      ∧ (∀ l, s.special c 0x00 l = l ∧ s.special c 0x01 l = l / 8 ∧ s.special c 0x02 l = (if s.dev.feat.testBit 3 then u.gReg l else 0) ∧ s.special c 0x08 l = u.idx
        ∧ s.special c 0x09 l = (s.group u.group).index ∧ s.special c 0x0A l = u.core ∧ s.special c 0x0B l = u.core / 8
        ∧ s.special c 0x0C l = u.core / 96 ∧ s.special c 0x0D l = s.dev.pkgid ∧ s.special c 0x0E l = (if u.task then 1 else 0)
        ∧ s.special c 0x11 l = c.cyc ∧ (s.dev.powered = true → s.special c 0x12 l = (s.time - s.dev.t0) / 42)
        ∧ s.special c 0x18 l = f.cause ∧ s.special c 0x19 l = f.pc ∧ s.special c 0x1A l = f.info ∧ s.special c 0x20 l = u.dmr.toNat
        ∧ s.special c 0x21 l = u.fstat ∧ s.special c 0x22 l = (s.group u.group).lap ∧ (u.leaseEnd = none → s.special c 0x23 l = 0)
        ∧ s.special c 0x24 l = u.curcls ∧ s.special c 0x10 l = u.gwidth c.slices ∧ s.special c 0x25 l = dw (s.launchOf u.group).pkt 2)

/-- SYSWR sends its register's value to land at the end of the second cycle after issue (R239): DMR takes the bits that R241 gives it, TRAPPC
of each slice of the part takes the value, and a 1 clears a bit of FSTAT unless a fence set that bit in the same cycle (R242). -/
def Sys2Proof.Claims.SpecialRegistersWrite : Prop :=
  (∀ (s : State) (c : Cursor) (g : Guard) (n : BitVec 8) (r : Fin 64), s.acts c g = true → s.issues c (.syswr g n r) →
    exec (.syswr g n r) s = .next (s.send 3 [Write.sys n.toNat (s.readS c r) c.slices]))
  ∧ (∀ (g : Gang) (t x m : Nat),
    (g.landWrite t (.sys 0x20 x m)).dmr = BitVec.ofNat 64 x &&& 0x1F1F0000
      ∧ (∀ k < g.slices.length, ((g.landWrite t (.sys 0x19 x m)).slice k).frame.pc = if m.testBit k then x else (g.slice k).frame.pc)
      ∧ (g.fstatSet.1 ≠ t - 1 → ∀ k < 4, (g.landWrite t (.sys 0x21 x m)).fstat.testBit k = (g.fstat.testBit k && !(x.testBit k)))
      ∧ (g.fstatSet.1 = t - 1 → ∀ k < 4, (g.landWrite t (.sys 0x21 x m)).fstat.testBit k
          = (g.fstat.testBit k && (!(x.testBit k) || g.fstatSet.2.testBit k))))

/-- SYSRD and SYSWR for every special register: `SpecialRegistersRead`, `SpecialRegistersWrite`. -/
def Obligations.SpecialRegisters : Prop :=
  Claims.SpecialRegistersRead ∧ Claims.SpecialRegistersWrite

/-- TRAP enters the handler (R243, R373): with a handler that is a proofed target and outside the handler, each slice of the part keeps in its
frame the cause 1, the code, the address of the next bundle and its loop stack, and goes on at the handler with an empty loop stack; its writes
in flight land at once (R100), each register taking the value that would have landed last, and its latches are captured. -/
def Sys2Proof.Claims.TrapEntersTheHandler : Prop :=
  (∀ (s : State) (c : Cursor) (g : Guard) (code : BitVec 16), s.acts c g = true → s.issues c (.trap g code) →
    let h := s.kernelOf c.gang
    h.handler ≠ 0 → (s.gang c.gang).inHandler c.slices = false → s.targetOk c.gang (h.codebase + h.handler) = true →
    exec (.trap g code) s = .next ((s.modGang c.gang (fun x =>
      x.enterHandler (s.cycOf c.gang) c.slices 1 code.toNat c.next (h.codebase + h.handler) (c.cyc + c.gap))).arriveCurs c.gang c.slices))
  ∧ (∀ (g : Gang) (now m cause info pc handler ready k : Nat) (y : LaneSet), m.testBit k = true → k < g.slices.length → k < 8 →
    (∀ w ∈ g.flight, ∀ n x sl, w.w ≠ .sys n x sl) → (g.slice k).curSet = some y → smWf (0 : Word) g.c0 = true → smWf (0 : Word) g.c1 = true →
    let h := g.enterHandler now m cause info pc handler ready
    let f := (h.slice k).frame
    f.cause = cause ∧ f.info = info ∧ f.pc = pc ∧ f.valid = true ∧ f.loops = y.loops ∧ f.capLdq = (g.slice k).ldq.length
      ∧ (h.slice k).curSet = some { y with loops := [], pc := handler, nxt := handler, inh := true, ready := ready, st := .run, jumped := true }
      ∧ (∀ e ∈ (h.slice k).ldq, e.cap = true) ∧ (∀ w ∈ h.flight, w ∈ g.flight ∧ w.ofPart m = false)
      ∧ (∀ j, j / 8 = k → smGet (0 : Word) h.c0 j = smGet 0 h.l0 j ∧ smGet (0 : Word) h.c1 j = smGet 0 h.l1 j)
      ∧ (∀ j < g.slices.length, m.testBit j = false → h.slice j = g.slice j) ∧ h.accs = g.accs
      ∧ (let l := g.landPart now m
         h.v = l.v ∧ h.p = l.p ∧ h.s = l.s ∧ h.k = l.k ∧ h.l0 = l.l0 ∧ h.l1 = l.l1 ∧ h.dmr = l.dmr ∧ h.fstat = l.fstat ∧ h.flight = l.flight))
  ∧ (∀ (g : Gang) (now m r x : Nat) (fs : List InFlight) (f : InFlight) (rest : List InFlight), smWf (0 : Dword) g.s = true →
    g.flight = fs ++ f :: rest → f.w = .s r x → f.slices &&& m ≠ 0 → (∀ e ∈ rest, ∀ y, e.w ≠ .s r y) →
    (g.landPart now m).sReg r = x % 2 ^ 64)

/-- A trap without a handler, or inside the handler, is a system fault of cause 6 that names the trap's cause (R243, R369): the group parks. -/
def Sys2Proof.Claims.TrapWithoutAHandlerParks : Prop :=
  ∀ (s : State) (c : Cursor) (g : Guard) (code : BitVec 16), s.acts c g = true → s.issues c (.trap g code) →
    ((s.kernelOf c.gang).handler = 0 ∨ (s.gang c.gang).inHandler c.slices = true) →
    exec (.trap g code) s = .next (s.sysFault c.gang 6 c.pc 0 1)

/-- TRET leaves the handler (R244, R375): each slice's current lane set goes on at its TRAPPC with its captured loop stack, outside the
handler; its captured latches come back and the marks of its queue go; other slices are unchanged. -/
def Sys2Proof.Claims.TretRestores : Prop :=
  (∀ (s : State) (c : Cursor) (g : Guard), s.acts c g = true → s.issues c (.tret g) →
    exec (.tret g) s = .next (s.modGang c.gang (fun x => x.leaveHandler c.slices)))
  ∧ (∀ (g : Gang) (m k : Nat) (y : LaneSet), m.testBit k = true → k < g.slices.length → k < 8 → (g.slice k).curSet = some y →
    smWf (0 : Word) g.l0 = true → smWf (0 : Word) g.l1 = true →
    let h := g.leaveHandler m
    (h.slice k).curSet = some { y with loops := (g.slice k).frame.loops, pc := (g.slice k).frame.pc, nxt := (g.slice k).frame.pc, inh := false, jumped := true }
      ∧ (∀ e ∈ (h.slice k).ldq, e.cap = false)
      ∧ (∀ j, j / 8 = k → smGet (0 : Word) h.l0 j = smGet 0 g.c0 j ∧ smGet (0 : Word) h.l1 j = smGet 0 g.c1 j)
      ∧ (∀ j < g.slices.length, m.testBit j = false → h.slice j = g.slice j) ∧ h.v = g.v ∧ h.p = g.p ∧ h.s = g.s ∧ h.flight = g.flight)

/-- TRAP enters the handler or parks; TRET restores: `TrapEntersTheHandler`, `TrapWithoutAHandlerParks`, `TretRestores`. -/
def Obligations.TrapsAndReturns : Prop :=
  Claims.TrapEntersTheHandler ∧ Claims.TrapWithoutAHandlerParks ∧ Claims.TretRestores

/-- A system fault parks the group (R298, R311, R317): a resident or draining group becomes PARKED with a fault record of the cause, the gang, the
bundle, the address and the detail, it stands in its queue's list of records to be written, and every live gang of it stops with its writes
in flight landed (R100), those of a gang whose bundle is issuing when the bundle's slots have acted (R117); other groups and memory are
unchanged. -/
def Sys2Proof.Claims.SystemFaultParksTheGroup : Prop :=
  (∀ (s : State) (u cause pc addr detail : Nat),
    let g := (s.gang u).group
    let x := s.group g
    (smFind s.groups g).isSome = true → (x.st = .resident ∨ x.st = .draining) →
    let t := s.sysFault u cause pc addr detail
    (t.group g).st = .parked ∧ (t.group g).from_ = x.st
      ∧ (t.group g).fault = some ⟨x.seq, cause, x.index, x.core, (s.gang u).idx, pc, addr, detail, s.timens⟩
      ∧ (∀ v ∈ s.gangsOf g, let now := s.cyc (s.gang v).core
          t.gang v = { (if s.cur.any (fun z => z.gang = v) then s.gang v else (s.gang v).landEvery now) with
            stopped := some ((s.gang v).stopped.getD now) })
      ∧ ((smFind s.ctxs x.ctx).isSome = true → g ∈ (t.queue x.ctx x.q).waiting)
      ∧ (∀ h, h ≠ g → t.group h = s.group h) ∧ (∀ v, v ∉ s.gangsOf g → t.gang v = s.gang v) ∧ t.mem = s.mem ∧ t.dev = s.dev)
  ∧ (∀ (s : State) (c : Cursor), s.cur = some c → (s.gang c.gang).stopped.isSome = true →
    let l := (s.gang c.gang).landEvery c.cyc
    let h := s.finish.gang c.gang
    h.flight = [] ∧ h.v = l.v ∧ h.p = l.p ∧ h.s = l.s ∧ h.k = l.k ∧ h.l0 = l.l0 ∧ h.l1 = l.l1 ∧ h.dmr = l.dmr ∧ h.fstat = l.fstat)
  ∧ (∀ (g : Gang) (now r x : Nat) (fs : List InFlight) (f : InFlight) (rest : List InFlight), smWf (0 : Dword) g.s = true →
    g.flight = fs ++ f :: rest → f.w = .s r x → (∀ e ∈ rest, ∀ y, e.w ≠ .s r y) → (g.landEvery now).sReg r = x % 2 ^ 64 ∧ (g.landEvery now).flight = [])

/-- The checks that precede a bundle (R372) take the exception that the spec names and leave the instruction's effect out: TRET outside the
handler is a protection fault of subcode 11, a MARK whose lap falls or exceeds 65,535 of subcode 12, a SYNC at a cluster or device barrier that DMR
does not arm of subcode 13, a LAUNCH packet off its 128-byte alignment of subcode 14, a class above 7 or a lease above 65,535 µs of
subcode 15, and a scratchpad store beyond the declared scratchpad a trap of cause 4. -/
def Sys2Proof.Claims.ChecksStopTheBundle : Prop :=
  ∀ (s : State) (c : Cursor) (g : Guard), s.cur = some c → c.checked = false → s.checks c = false → s.acts c g = true →
    let stops := fun (i : Instr) (addr sub : Nat) => exec i s = .next (s.protFault c.gang c.pc addr sub)
    ((s.gang c.gang).inHandler c.slices = false → stops (.tret g) 0 11)
      ∧ (∀ n : Src16, (s.src16 c n < (s.group (s.gang c.gang).group).lap ∨ 0xFFFF < s.src16 c n) → stops (.mark g n) 0 12 ∧ stops (.markWait g n) 0 12)
      ∧ ((s.gang c.gang).dmr.toNat.testBit 20 = false → stops (.sync g .clu) 0 13)
      ∧ ((s.gang c.gang).dmr.toNat.testBit 28 = false → stops (.sync g .dev) 0 13)
      ∧ (∀ d q p : Fin 64, s.readS c p % 128 ≠ 0 → stops (.launch g d q p) (s.readS c p) 14)
      ∧ (∀ r : Fin 64, 7 < s.readS c r → stops (.pwracq g (.reg r)) 0 15)
      ∧ (∀ r : Fin 64, 0xFFFF < s.readS c r → stops (.sprint g (.reg r)) 0 15)
      ∧ (∀ (o : MStore) (l : Nat), s.active c o.g = [l] → s.spad c < s.ea c o.at_ o.off.toInt l + Machine.sizeOf o.ty →
          ∃ info, exec (.stsp o) s = .next (s.trap c.gang c.slices 4 info c.pc c.pc (c.cyc + 1)))

/-- A system fault parks the group; the checks before a bundle: `SystemFaultParksTheGroup`, `ChecksStopTheBundle`. -/
def Obligations.FaultsAndChecks : Prop :=
  Claims.SystemFaultParksTheGroup ∧ Claims.ChecksStopTheBundle

/-- MARK and its `.wait` form (R245): once the pacer has answered for the lap, LAP takes it and the mark is spent; before that the part is
held and nothing else changes. -/
def Sys2Proof.Claims.MarkTakesItsLap : Prop :=
  ∀ (s : State) (c : Cursor) (g : Guard) (n : Src16), s.acts c g = true →
    let lap := s.src16 c n
    let k := lowSlice c.slices
    ((s.gang c.gang).lapMarked k lap = true →
      (∀ i ∈ [Instr.mark g n, Instr.markWait g n], s.issues c i → ∃ t, exec i s = .next t
        ∧ ((smFind s.groups (s.gang c.gang).group).isSome = true → (t.group (s.gang c.gang).group).lap = lap)
        ∧ (t.gang c.gang).lapMarked k lap = false ∧ s.sameRegs t ∧ t.mem = s.mem))
      ∧ ((s.gang c.gang).lapMarked k lap = false →
        (s.issues c (.mark g n) → exec (.mark g n) s = .next (s.hold c.gang k (.mark lap false)))
          ∧ (s.issues c (.markWait g n) → exec (.markWait g n) s = .next (s.hold c.gang k (.mark lap true))))

/-- TRIG counts once for a launch gang, with the accesses issued so far, and has no effect in a task gang or a second time (R246); CHKM turns the
check mode on, and off but while the context's is on (R254, R277); YIELD clears the part's aging and promotion, marks it to stand back,
and leaves its lane sets at a safe point (R253); PWRREL returns the gang to its declared class and ends the region (R255). -/
def Sys2Proof.Claims.GangStateInstructions : Prop :=
  ∀ (s : State) (c : Cursor) (g : Guard), s.acts c g = true → (smFind s.gangs c.gang).isSome = true →
    let x := s.gang c.gang
    (s.issues c (.trig g) → ∃ t, exec (.trig g) s = .next t ∧ (x.task = true ∨ x.trig = true → t.gang c.gang = x)
        ∧ (x.task = false → x.trig = false → (t.gang c.gang).trig = true ∧ (t.gang c.gang).trigUpTo = s.nextId) ∧ s.sameRegs t ∧ t.mem = s.mem)
      ∧ (∀ on : Bool, s.issues c (.chkm g on) → ∃ t, exec (.chkm g on) s = .next t
        ∧ (t.gang c.gang).chk = (on || (x.chk && (s.ctx x.ctx).check)) ∧ t.mem = s.mem ∧ (t.gang c.gang).slices = x.slices)
      ∧ (s.issues c (.yield g) → ∃ t, exec (.yield g) s = .next t ∧ (t.gang c.gang).parts = x.parts.map (fun p =>
          if p.slices.testBit (lowSlice c.slices) then { p with aging := 0, promoted := none, yielded := true } else p)
        ∧ (∀ k < x.slices.length, c.slices.testBit k = true → ∀ y, ((t.gang c.gang).slice k).curSet = some y → y.edge = true)
        ∧ s.sameRegs t ∧ t.mem = s.mem)
      ∧ (s.issues c (.pwrrel g) → ∃ t, exec (.pwrrel g) s = .next t ∧ (t.gang c.gang).curcls = (s.kernelOf c.gang).curclass
        ∧ (t.gang c.gang).inReg = false ∧ (t.gang c.gang).slices = x.slices ∧ t.mem = s.mem)

/-- False guards, MARK, TRIG, CHKM, YIELD and PWRREL: `SystemGuardFalse`, `MarkTakesItsLap`, `GangStateInstructions`. -/
def Obligations.GangInstructions : Prop :=
  Claims.SystemGuardFalse ∧ Claims.MarkTakesItsLap ∧ Claims.GangStateInstructions

/-- PWRACQ and SPRINT (R255, R256, R387, R391): a class that adds nothing to the core's charge is taken at once; another blocks the part and waits
at the die's arbiter; a lease of 0 gives the lease up, and another holds the part and waits for the grant. -/
def Obligations.PowerRequests : Prop :=
  ∀ (s : State) (c : Cursor) (g : Guard), s.acts c g = true → (smFind s.gangs c.gang).isSome = true →
    (smFind s.dies (dieOf (s.gang c.gang).core)).isSome = true →
    let x := s.gang c.gang
    (∀ k : Src3, s.issues c (.pwracq g k) →
        (chargeWith (s.classesOn x.core) c.gang (s.src3 c k) ≤ s.coreCharge x.core → ∃ t, exec (.pwracq g k) s = .next t
          ∧ (t.gang c.gang).curcls = s.src3 c k ∧ (t.gang c.gang).inReg = true ∧ (t.gang c.gang).slices = x.slices)
        ∧ (s.coreCharge x.core < chargeWith (s.classesOn x.core) c.gang (s.src3 c k) → ∃ t, exec (.pwracq g k) s = .next t
          ∧ ⟨c.gang, s.src3 c k, s.nextId, s.time⟩ ∈ (t.die (dieOf x.core)).pwrq ∧ (t.gang c.gang).curcls = x.curcls
          ∧ ∀ j < x.slices.length, c.slices.testBit j = true → ∀ y, ((t.gang c.gang).slice j).curSet = some y → y.st = .pwr (s.src3 c k) s.nextId))
      ∧ (∀ n : Src16, s.issues c (.sprint g n) →
        (s.src16 c n = 0 → ∃ t, exec (.sprint g n) s = .next t ∧ (t.gang c.gang).leaseEnd = none ∧ s.sameRegs t)
        ∧ (s.src16 c n ≠ 0 → ∃ t, exec (.sprint g n) s = .next t ∧ ⟨c.gang, s.src16 c n, s.nextId, s.time⟩ ∈ (t.die (dieOf x.core)).leaseq
          ∧ (t.gang c.gang).parts = x.parts.map (fun p =>
            if p.slices.testBit (lowSlice c.slices) then { p with holds := p.holds ++ [.sprint s.nextId] } else p)
          ∧ s.sameRegs t))

/-- LAUNCH (R247, R293): it holds its part with the queue number and the address of the packet. Once its gang has no access under way, it is
answered 4 for a queue above 63, without a read of its packet (log entry 92, DESIGN CHOICE); else its packet is read and submitted, and when the queue's processor comes to it, in a later cycle
of its own, a queue that accepts it has the launch, S[d] is 0, and the part is held no more. The cycles of the queue processors are the
model's choice (log entry 76, DESIGN CHOICE). -/
def Sys2Proof.Claims.LaunchIsAnswered : Prop :=
  ∀ (s : State) (c : Cursor) (g : Guard) (d q p : Fin 64) (pt : Part), s.acts c g = true → s.issues c (.launch g d q p) →
    let x := s.gang c.gang
    let k := lowSlice c.slices
    let t := ({ s with nextId := s.nextId + 1 } : State).hold c.gang k (.launch d (s.readS c q) (s.readS c p) s.nextId)
    exec (.launch g d q p) s = .next t
      ∧ (x.part k = some pt → pt.holds = [] → x.parts = [pt] → x.accs = [] → smWf (0 : Dword) x.s = true →
        ((s.group x.group).st = .resident ∨ (s.group x.group).st = .draining) →
        (64 ≤ s.readS c q → ∃ t', exec (.launchPacketRead c.gang k) t = .next t' ∧ (t'.gang c.gang).sReg d = 4
            ∧ ∀ r ∈ (t'.gang c.gang).parts, r.holds = [])
        ∧ (∀ bs s1, s.readS c q < 64 → t.hubRead x.ctx (s.readS c p) 128 (.packet c.gang k) = (.got bs, s1) →
          (s1.queue x.ctx (s.readS c q)).inbox = [] → (s1.queue x.ctx (s.readS c q)).accepts (dwordsOf 16 bs) = none →
          (smFind s1.ctxs x.ctx).isSome = true →
          ∃ t', exec (.launchPacketRead c.gang k) t = .next t' ∧ ∀ n, s1.hubCycle < n / 35 →
            let f := ({ t' with time := n } : State).acceptOne x.ctx (s.readS c q)
            (f.gang c.gang).sReg d = 0 ∧ (∀ r ∈ (f.gang c.gang).parts, r.holds = [])
              ∧ f.queue x.ctx (s.readS c q) = (s1.queue x.ctx (s.readS c q)).take (dwordsOf 16 bs) ∧ f.mem = s1.mem))

/-- FORK (R53, R248, R249): it holds its part with its 256-bit task record: the entry's offset in words, the width less one, the future's
address and four 44-bit arguments. Once its gang has no access under way, its core's deque is free for an operation and holds fewer than
224 records, and no earlier FORK is to push there first, the record stands at the deque's head and the part is held no more; registers and memory are as they were. -/
def Sys2Proof.Claims.ForkPushesItsRecord : Prop :=
  ∀ (s : State) (c : Cursor) (g : Guard) (a f : Fin 64) (w : Fin 8) (off : BitVec 32) (pt : Part), s.acts c g = true → a.val ≤ 60 →
    s.issues c (.fork g a f w off) →
    let x := s.gang c.gang
    let k := lowSlice c.slices
    let entry := (BitVec.ofNat 64 (jumpTo c.pc off) - BitVec.ofNat 64 (s.kernelOf c.gang).codebase).toNat / 4 % 2 ^ 23
    let arg := fun (n : Nat) => s.readS c (a.val + n) % 2 ^ 44
    let bits := entry + w.val * 2 ^ 23 + s.readS c f / 8 % 2 ^ 54 * 2 ^ 26 + arg 0 * 2 ^ 80 + arg 1 * 2 ^ 124 + arg 2 * 2 ^ 168 + arg 3 * 2 ^ 212
    let t := ({ s with nextId := s.nextId + 1 } : State).hold c.gang k (.fork bits c.pc s.nextId)
    exec (.fork g a f w off) s = .next t
      ∧ (x.parts = [pt] → pt.slices.testBit k = true → pt.holds = [] → x.accs = [] → s.dequeBusy x.core x.ctx = false → s.forkFirst c.gang s.nextId = true →
        ((s.core x.core).deque x.ctx).recs.length < 224 →
        ∃ t', exec (.fenceComplete c.gang k) t = .next t'
          ∧ ((t'.core x.core).deque x.ctx).recs = s.taskRec c.gang bits :: ((s.core x.core).deque x.ctx).recs
          ∧ (∀ r ∈ (t'.gang c.gang).parts, r.holds = []) ∧ s.sameRegs t' ∧ t'.mem = s.mem ∧ t'.groups = s.groups)

/-- JOIN (R250): it parks its part on the future at S[f]. A full future in local memory, whose page its core's TLB translates, answers in a
later cycle: S[d] is the value, the future is left full, and no lane set waits for it any more. -/
def Sys2Proof.Claims.JoinTakesTheValue : Prop :=
  ∀ (s : State) (c : Cursor) (g : Guard) (d f : Fin 64) (pa n : Nat), s.acts c g = true → s.issues c (.join g d f) → s.idleOf c →
    c.cyc = s.cyc (s.gang c.gang).core → c.cyc < n → s.dieFails = [] → (s.gang c.gang).parts.all (fun p => p.holds.isEmpty) = true →
    smWf (0 : Dword) (s.gang c.gang).s = true → (smFind s.clusters (clusterOf (s.gang c.gang).core)).isSome = true →
    (∀ k, ∀ e ∈ ((s.gang c.gang).slice k).sets, e.2.st = .run) →
    s.hits (s.gang c.gang).core (s.gang c.gang).ctx (s.readS c f) .await pa → s.futFull none pa = true →
    let k := lowSlice c.slices
    ∃ t, exec (.join g d f) s = .next t
      ∧ (∀ j < (s.gang c.gang).slices.length, c.slices.testBit j = true → ((s.gang c.gang).slice j).cur ≠ none →
          ∀ y, ((t.gang c.gang).slice j).curSet = some y → y.st = .future (s.readS c f) (some s.nextId) d)
      ∧ ∃ t', exec (.futureParkRetry c.gang k) (t.modCluster (clusterOf (s.gang c.gang).core) (fun x => { x with cyc := n })) = .next t'
        ∧ (t'.gang c.gang).sReg d = s.futVal none pa ∧ t'.futFull none pa = true ∧ (t'.gang c.gang).accs = []
        ∧ (∀ j, ∀ e ∈ ((t'.gang c.gang).slice j).sets, ∀ a r, e.2.st ≠ .future a (some s.nextId) r) ∧ t'.mem = s.mem

/-- SYNC (R51, R251, R324): a task gang passes its group barrier at once. Elsewhere the part blocks at its barrier, and where the gang's lane
sets then all wait there, with no access of it under way, the gang arrives. That a blocked lane set keeps its SYNC's address as its PC is
log entry 24 (DEDUCED). -/
def Sys2Proof.Claims.SyncArrives : Prop :=
  ∀ (s : State) (c : Cursor) (g : Guard) (l : SyncLevel), s.acts c g = true → s.issues c (.sync g l) →
    let x := s.gang c.gang
    let b := x.barrier l
    let t := ({ s with nextId := s.nextId + 1 } : State).blockPart c (.barrier b.1 b.2.1 b.2.2 s.nextId)
    (x.task = true → b.2.1 = 0 → exec (.sync g l) s = .next s)
      ∧ (x.task = false ∨ b.2.1 ≠ 0 → exec (.sync g l) s = .next t
        ∧ (∀ k < x.slices.length, c.slices.testBit k = true → ∀ y, (x.slice k).curSet = some y → y.st = .run →
            ((t.gang c.gang).slice k).curSet = some { y with st := .barrier b.1 b.2.1 b.2.2 s.nextId, pc := c.pc, nxt := y.pc })
        ∧ (∀ n, (t.gang c.gang).waitsAt = some (b.1, n) → x.accs = [] → c.gang ∈ t.members b.1 → (s.gangs.map (·.1)).Nodup →
            c.gang ∉ (s.bar b.1).arrived → (s.bar b.1).release = none →
            (match b.1 with
              | .grp g _ => (smFind s.groups g).isSome
              | .clu c _ _ | .dev c _ => (smFind s.ctxs c).isSome) = true →
            ∃ t', exec (.barrierArrival c.gang) t = .next t' ∧ (t'.bar b.1).arrived = (s.bar b.1).arrived ++ [c.gang]
              ∧ (t'.bar b.1).phase = (s.bar b.1).phase ∧ t'.gangs = t.gangs ∧ t'.mem = s.mem))

/-- HWAIT (R252, R331, R332): it holds its part with the address of its hurdle, which the scratchpad's bank tests at the end of the cycle.
Where the count of the hurdle has reached the target then, the hold ends and every lane set goes on where it stands; where it has not, the part
blocks on the hurdle, to go on at the bundle after. A lane set that waits on a hurdle goes on, at the bundle after its HWAIT, from the cycle in
whose end the test holds. No register and no byte of memory changes. -/
def Sys2Proof.Claims.HwaitTestsItsHurdle : Prop :=
  (∀ (s : State) (c : Cursor) (g : Guard) (r : Fin 64), s.acts c g = true → s.issues c (.hwait g r) →
    exec (.hwait g r) s = .next (s.hold c.gang (lowSlice c.slices) (.hwait (s.readS c r) c.pc)))
  ∧ (∀ (s : State) (u cell pc : Nat), let h := Hold.hwait cell pc
    let count := ofBytes (s.spRd (s.gang u).group cell 8)
    let need := ofBytes (s.spRd (s.gang u).group (cell + 8) 6)
    let g := s.gang u
    let t := State.decideHwait u s h
    (∀ p ∈ (t.gang u).parts, h ∉ p.holds) ∧ s.sameRegs t ∧ t.mem = s.mem ∧ t.groups = s.groups
      ∧ (need ≤ count → ∀ k < g.slices.length, ((t.gang u).slice k).sets.map (fun e => (e.1, e.2.pc, e.2.mask, e.2.loops))
          = (g.slice k).sets.map (fun e => (e.1, e.2.pc, e.2.mask, e.2.loops)))
      ∧ (count < need → ∀ k < g.slices.length, k < 8 → (g.heldBy h).testBit k = true → ∀ e y, (g.slice k).sets = [(e, y)] →
          (g.slice k).cur = some e → y.st = .run → ((t.gang u).slice k).sets = [(e, { y with st := .hurdle cell, pc := pc, nxt := y.pc })]))
  ∧ (∀ (s : State) (u k e cell : Nat) (g : Gang) (y : LaneSet), s.gangs = [(u, g)] → g.live = true → g.stopped = none → g.accs = [] →
    (∀ p ∈ g.parts, p.holds = []) → g.slices[k]?.map (fun x => (x.sets, x.cur)) = some ([(e, y)], some e) → y.st = .hurdle cell →
    s.isRegang g.ctx y.nxt = false → ofBytes (s.spRd g.group (cell + 8) 6) ≤ ofBytes (s.spRd g.group cell 8) →
    let t := s.testHurdles (clusterOf g.core)
    (∃ n, ((t.gang u).slice k).sets = [(e, { y with st := .run, pc := y.nxt, ready := n })]) ∧ s.sameRegs t ∧ t.mem = s.mem ∧ t.groups = s.groups)

/-- LAUNCH is answered, FORK pushes, JOIN takes the value, SYNC arrives and HWAIT tests: `LaunchIsAnswered`, `ForkPushesItsRecord`,
`JoinTakesTheValue`, `SyncArrives`, `HwaitTestsItsHurdle`. -/
def Obligations.TaskAndBarrierInstructions : Prop :=
  Claims.LaunchIsAnswered ∧ Claims.ForkPushesItsRecord ∧ Claims.JoinTakesTheValue ∧ Claims.SyncArrives ∧ Claims.HwaitTestsItsHurdle

/-! Events of the cores and of translation. -/

/-- QUARTER_ISSUE_PICK (R38, R253) adds the picks of the quarter's eligible issuers to those that issue next: at most two, the first ranked above
every other that does not stand back after a YIELD, the second the best of those, standing back not either, on other slices that is not a second
user of the copy-or-matrix slot. Issuers that stand back are not picked while another is eligible; one alone is. PROMOTION marks a part that has aged 256 cycles (R39). -/
def Sys2Proof.Claims.QuarterPicksTwo : Prop :=
  (∀ (s : State) (core quarter : Nat),
    let us := (s.gangs.filter (fun e => e.2.live && e.2.core = core && e.2.quarter = quarter)).map (·.1)
    let s1 := us.foldl State.watch (us.foldl State.serveWaitf s)
    ∃ t, exec (.quarterIssuePick core quarter) s = .next t
      ∧ t.picked = s1.picked ++ (pickTwo ((s1.asRunning us).issuers core quarter)).map (fun x => (x.u, x.k)) ∧ t.mem = s1.mem)
  ∧ (∀ l : List Issuer, (∃ b ∈ l, b.yielded = false ∨ l = [b]) → ∃ a rest, pickTwo l = a :: rest ∧ a ∈ l ∧ (a.yielded = false ∨ l = [a])
    ∧ (∀ b ∈ l, b.yielded = false → b.above a = false)
    ∧ ((rest = [] ∧ ∀ d ∈ l, d.yielded = false → d.phys &&& a.phys = 0 → a.x = true ∧ d.x = true)
      ∨ ∃ b ∈ l, rest = [b] ∧ b.yielded = false ∧ b.phys &&& a.phys = 0 ∧ ¬(a.x = true ∧ b.x = true)
        ∧ ∀ d ∈ l, d.yielded = false → d.phys &&& a.phys = 0 → ¬(a.x = true ∧ d.x = true) → d.above b = false))
  ∧ (∀ l : List Issuer, 2 ≤ l.length → (∀ b ∈ l, b.yielded = true) → pickTwo l = [])
  ∧ (∀ (s : State) (u k : Nat) (p : Part), (s.gang u).part k = some p → 256 ≤ p.aging → p.promoted = none →
    ∃ t p', exec (.promotion u k) s = .next t ∧ (t.gang u).part k = some p' ∧ p' = { p with promoted := some (s.cycOf u) }
      ∧ s.sameRegs t ∧ t.mem = s.mem)

/-- REGANG_RELEASE (R35, R37): while any lane set of the gang is runnable, nothing changes; when two lane sets of a slice are all that is left, no part is
held, and both wait at one regang bundle with one loop stack, they become one runnable lane set with the lanes of both, in a part of its own;
that it keeps the first of the two table entries is the model's choice (log entry 55). -/
def Sys2Proof.Claims.ReconvergenceMerges : Prop :=
  (∀ (s : State) (u : Nat), exec (.regangRelease u) s = .next (s.modGang u Gang.regang))
  ∧ (∀ g : Gang, (∃ k < g.slices.length, ∃ e ∈ (g.slice k).sets, e.2.st = .run) → g.regang = g)
  ∧ (∀ (g : Gang) (x : Slice) (d e : Nat) (y z : LaneSet), g.slices = [x] → x.sets = [(d, y), (e, z)] → d < e → y.st = .regang → z.st = .regang →
    y.pc = z.pc → y.loops = z.loops → (∀ p ∈ g.parts, p.holds = []) →
    let h := g.regang
    (h.slice 0).sets = [(d, { y with mask := y.mask ||| z.mask, ready := max y.ready z.ready, created := min y.created z.created, st := .run })]
      ∧ (h.slice 0).cur = some d ∧ (∀ p ∈ h.parts, p.slices.testBit 0 = true → p.slices = 1 ∧ p.holds = []) ∧ (∃ p ∈ h.parts, p.slices = 1)
      ∧ h.v = g.v ∧ h.p = g.p ∧ h.s = g.s ∧ h.accs = g.accs)

/-- Picks, promotion and reconvergence: `QuarterPicksTwo`, `ReconvergenceMerges`. -/
def Obligations.PicksAndReconvergence : Prop :=
  Claims.QuarterPicksTwo ∧ Claims.ReconvergenceMerges

/-- LOAD_DATA_ARRIVAL (R31, R174): on a live slice, an entry whose lanes have all been read, behind entries that are data already, becomes data, with the value of
each lane of its access and, in the other lanes, what the entry held; memory and registers are unchanged. -/
def Sys2Proof.Claims.LoadDataArrives : Prop :=
  ∀ (s : State) (u k pos : Nat) (e : LdqEntry), ((s.gang u).slice k).ldq[pos]? = some e → e.ready = false → e.second = false →
    ((s.gang u).slice k).sets ≠ [] →
    (∀ x ∈ ((s.gang u).slice k).ldq.take pos, x.ready = true) → (smFind (s.gang u).accs e.acc).isSome = true →
    (∀ l ∈ ((s.gang u).acc e.acc).lanes, l.lane / 8 = k → l.st = .arriving) → s.atBank u e.acc = false →
    let lanes := ((s.gang u).acc e.acc).lanes
    ∃ t x, exec (.loadDataArrival u k pos) s = .next t ∧ ((t.gang u).slice k).ldq[pos]? = some x ∧ x.ready = true ∧ x.acc = e.acc
      ∧ x.vals.length = 8 ∧ (∀ j < 8, x.vals[j]? = some (((lanes.find? (fun l => l.lane = 8 * k + j)).map (fun l => l.val % 2 ^ 32)).getD (e.vals.getD j 0)))
      ∧ t.mem = s.mem ∧ t.groups = s.groups ∧ s.sameRegs t

/-- STREAM_ELEMENT (R197): a stream with room enters one access of its slice with a read at the element's address of each of its lanes, reserves
its entries, and ends after its last element, which is the model's choice (log entry 90, DESIGN CHOICE). With nothing else of the gang under way,
an element in scratchpad stands read in its access: each lane's bytes extended by the type; memory, registers and every other slice are
as they were. -/
def Sys2Proof.Claims.StreamPlacesItsElement : Prop :=
  ∀ (s : State) (u k : Nat) (x : Strm), s.streamReady u k = true → ((s.gang u).slice k).strm = some x → k < (s.gang u).slices.length →
    (∀ j ∈ bitsOf 8 x.lanes, (sdSpace x.desc = 2 ∨ canonical (sdAddr x.desc x.next (8 * k + j)) = true)
      ∧ sdAddr x.desc x.next (8 * k + j) % Machine.sizeOf x.ty = 0) →
    ∃ t, exec (.streamElement u k) s = .next t
      ∧ ((t.gang u).slice k).strm = (if x.next + 1 < x.total then some { x with next := x.next + 1 } else none)
      ∧ ((t.gang u).slice k).ldq.length = ((s.gang u).slice k).ldq.length + (if is64 x.ty then 2 else 1)
      ∧ (∃ s' : State, ∃ a : Acc, t = s'.enter u a ∧ s'.nextId = s.nextId ∧ (s'.gang u).accs = (s.gang u).accs
        ∧ a.op = (if sdSpace x.desc = 2 then 0x02 else 0x00) ∧ a.ty = x.ty ∧ a.ro = decide (sdSpace x.desc = 1) ∧ a.strm = true ∧ a.slices = 2 ^ k
        ∧ a.lanes = (bitsOf 8 x.lanes).map (fun j => mkLane (8 * k + j) (sdAddr x.desc x.next (8 * k + j)) 0 0))
      ∧ ((s.gang u).accs = [] → (∀ a, (s.gang u).fenced s.nextId a = false) → sdSpace x.desc = 2 → bitsOf 8 x.lanes ≠ [] →
        (∃ a, (t.gang u).accs = [(s.nextId, a)] ∧ a.lanes.map (fun l => (l.lane, l.addr, l.st, l.val)) = (bitsOf 8 x.lanes).map (fun j =>
            let y := sdAddr x.desc x.next (8 * k + j)
            (8 * k + j, y, LaneSt.arriving,
              regBits x.ty (BitVec.ofNat (widthOf x.ty) (ofBytes (s.spRd (s.gang u).group y (Machine.sizeOf x.ty)))))))
          ∧ (∀ j, j ≠ k → (t.gang u).slice j = (s.gang u).slice j) ∧ ((t.gang u).slice k).sets = ((s.gang u).slice k).sets
          ∧ (t.gang u).parts = (s.gang u).parts ∧ t.mem = s.mem ∧ t.groups = s.groups ∧ s.sameRegs t)

/-- Load data arrives; streams place their elements: `LoadDataArrives`, `StreamPlacesItsElement`. -/
def Obligations.LoadsAndStreamsArrive : Prop :=
  Claims.LoadDataArrives ∧ Claims.StreamPlacesItsElement

/-- TRANSLATION_WALK answers the pages of the oldest entry of a die's merge table that has some (R282): a page with a leaf entry goes into the die's
TLB, a held one becomes a fault that later misses join, and the accesses that waited go on. -/
def Sys2Proof.Claims.WalkAnswersItsPages : Prop :=
  (∀ (s : State) (die : Nat) (m : Merge), (s.die die).merge.find? (fun m => !m.pages.isEmpty) = some m →
    let s0 := s.modDie die (fun d => { d with merge := (d.merge.map (fun x =>
      if x.ctx = m.ctx ∧ x.key = m.key then { x with pages := [] } else x)).filter (fun x => !(x.pages.isEmpty && x.faults.isEmpty)) })
    let s1 := ((m.pages.foldl (State.answerPage die m.ctx) s0).refillMerge die).touch tableRegion
    exec (.translationWalk die) s = .next (s1.pump ((m.pages.foldl (State.answerPage die m.ctx) s0).everyGangOfCtx m.ctx)))
  ∧ (∀ (s : State) (die c page e base size : Nat), s.walk c (page * 0x10000) = .leaf e base size → (smFind s.dies die).isSome = true →
    let t := s.answerPage die c page
    (t.die die).tlb.head? = some ⟨c, base, size, e⟩ ∧ (t.die die).tlb.length ≤ 8192 ∧ t.mem = s.mem ∧ t.gangs = s.gangs)
  ∧ (∀ (s : State) (die c page l va size : Nat), s.walk c (page * 0x10000) = .held l va size → (s.pageRec c (page * 0x10000)).st ≠ .poisoned →
    (smFind s.dies die).isSome = true →
    (s.answerPage die c page).faultPending die c (page * 0x10000) = true)

/-- FAULT_ACKNOWLEDGE lets the accesses to a page that now has an outcome go on (R342); HOST_PAGE_RESPONSE ends the request and, with the page
present, makes it so and lets its accesses go on (R338, R398); HOST_ADDRESS_TRANSLATION_CHANGE says of one page of host memory whether it is
present (R341). -/
def Sys2Proof.Claims.PagesAreAcknowledged : Prop :=
  (∀ (s : State) (c vpage : Nat), s.link.shoots = [] → (∀ b, s.place c (vpage * 0x10000) .read ≠ .wait b) →
    exec (.faultAcknowledge c vpage) s = .next (s.ackPage c vpage))
  ∧ (∀ (s : State) (c vpage e base size : Nat), (c, vpage) ∈ s.pageReqs → s.walk c (vpage * 0x10000) = .leaf e base size → entKind e = 2 →
    ∃ h : List (Nat × Nat), exec (.hostPageResponse c vpage true) s = .next (({ s with
        pageReqs := s.pageReqs.filter (fun p => p ≠ (c, vpage)), hostHere := h } : State).ackPage c vpage)
      ∧ ∀ x, x ∈ h ↔ x ∈ s.hostHere ∨ x = (c, (entAddr e + (vpage * 0x10000 - base)) / 0x10000))
  ∧ (∀ (s : State) (c iova : Nat) (present : Bool), ∃ t, exec (.hostAddressTranslationChange c iova present) s = .next t
      ∧ t.hostPresent c iova = present ∧ (∀ x, x ≠ (c, iova / 0x10000) → (x ∈ t.hostHere ↔ x ∈ s.hostHere)) ∧ t.mem = s.mem ∧ t.gangs = s.gangs)

/-- Translation walks, acknowledgements and the host's pages: `WalkAnswersItsPages`, `PagesAreAcknowledged`. -/
def Obligations.WalksAndPages : Prop :=
  Claims.WalkAnswersItsPages ∧ Claims.PagesAreAcknowledged

/-- FENCE_COMPLETE (R187, R190, R195, R232, R242, R249): a part's fence with nothing of its gang under way ends: its status word, the count and bits of
the pending-failure record, stands in the S register that FENCE named, FSTAT takes the bits, and the record is cleared; a BWAIT whose batons
are all released or failed and a CPWAIT with few enough batches end; a FORK that is the next to push, on a deque of fewer than 224 records with
no operation in this cycle, pushes its record. -/
def Sys2Proof.Claims.HoldsEnd : Prop :=
  ∀ (s : State) (u k : Nat) (p : Part), (s.gang u).part k = some p →
    let g := s.gang u
    let goesOn := fun (t : State) (h : Hold) => ∀ q ∈ (t.gang u).parts, h ∉ q.holds
    (∀ (sc : Scope) (o : Order) (sd n : Nat), p.holds = [.fence sc o sd n] → g.accs = [] → smWf (0 : Dword) g.s = true →
        ∃ t, exec (.fenceComplete u k) s = .next t ∧ goesOn t (.fence sc o sd n)
          ∧ (t.gang u).sReg sd = (g.pendCount * 2 ^ 16 + g.pendBits % 16) % 2 ^ 64 ∧ (t.gang u).pendCount = 0 ∧ (t.gang u).pendBits = 0
          ∧ (t.gang u).fstat = g.fstat ||| g.pendBits % 16 ∧ (∀ r, r ≠ sd → (t.gang u).sReg r = g.sReg r)
          ∧ (t.gang u).v = g.v ∧ (t.gang u).p = g.p ∧ (t.gang u).k = g.k ∧ t.mem = s.mem ∧ t.groups = s.groups)
      ∧ (∀ qs : List Nat, p.holds = [.bwait qs] → (∀ q ∈ qs, s.batonPending q = false) →
        ∃ t, exec (.fenceComplete u k) s = .next t ∧ goesOn t (.bwait qs) ∧ s.sameRegs t ∧ t.mem = s.mem)
      ∧ (∀ n : Nat, p.holds = [.cpwait n] → g.batches.length ≤ n →
        ∃ t, exec (.fenceComplete u k) s = .next t ∧ goesOn t (.cpwait n) ∧ s.sameRegs t ∧ t.mem = s.mem)
      ∧ (∀ bits pc n : Nat, p.holds = [.fork bits pc n] → g.earlierDone .dev n = true → s.dequeBusy g.core g.ctx = false → s.forkFirst u n = true →
        ((s.core g.core).deque g.ctx).recs.length < 224 →
        ∃ t, exec (.fenceComplete u k) s = .next t ∧ goesOn t (.fork bits pc n)
          ∧ ((t.core g.core).deque g.ctx).recs = s.taskRec u bits :: ((s.core g.core).deque g.ctx).recs ∧ s.sameRegs t ∧ t.mem = s.mem)

/-- FORK_RETRY (R53, R54): with the deque below 64 records and free for an operation, the FORK that blocked first pushes its record and none of
its lane sets waits for it any longer. FUTURE_PARK_RETRY (R334): a lane told 64 cycles ago to come again presents its park again. -/
def Sys2Proof.Claims.BlockedPartsRetry : Prop :=
  (∀ (s : State) (core c u id bits : Nat) (rest : List (Nat × Nat × Nat)), ((s.core core).deque c).recs.length < 64 →
    ((s.core core).deque c).blocked = (u, id, bits) :: rest → s.dequeBusy core c = false →
    ∃ t, exec (.forkRetry core c) s = .next t ∧ ((t.core core).deque c).recs = s.taskRec u bits :: ((s.core core).deque c).recs
      ∧ ((t.core core).deque c).blocked = rest ∧ t.mem = s.mem
      ∧ ∀ k, ∀ e ∈ ((t.gang u).slice k).sets, e.2.st ≠ .fork id)
  ∧ (∀ (s : State) (u k id : Nat) (a : Acc) (l : AccLane), (s.gang u).accs = [(id, a)] → (smFind s.gangs u).isSome = true → a.op = 0x29 →
    (a.scope = .gang ∨ a.scope = .grp) → a.slices.testBit k = true → a.lanes = [l] → (∃ n, l.st = .retry n ∧ n + 64 ≤ s.cycOf u) → a.cyc < s.cycOf u → (s.gang u).fenced id a = false →
    (∃ e ∈ ((s.gang u).slice (l.lane / 8)).ldq, e.acc = id) → s.futFull (some (s.gang u).group) l.addr = true →
    ∃ t a', exec (.futureParkRetry u k) s = .next t ∧ (t.gang u).accs = [(id, a')]
      ∧ a'.lanes.map (fun x => (x.st, x.val)) = [(LaneSt.arriving, s.futVal (some (s.gang u).group) l.addr)]
      ∧ t.futFull (some (s.gang u).group) l.addr = !a.take)

/-- Holds end; blocked FORKs and parks are retried: `HoldsEnd`, `BlockedPartsRetry`. -/
def Obligations.HoldsEndAndRetry : Prop :=
  Claims.HoldsEnd ∧ Claims.BlockedPartsRetry

/-! Events of the fabric. -/

/-- REMOTE_REQUEST_RECEIVE (R183, R354, R360, R364, R367, R368): a current transaction inside local memory is performed once and answered: a read
with the bytes and the marks of its sectors, a write and an atomic with their effect; a write to a POISONED page is dropped, and its answer says
so; one that fails its check is answered negatively and not applied; a stale one is counted and not applied; a resend whose outcome is
kept gets the same answer and has no further effect; a carried store is placed in the hold queue. That a request sent again is known by the
number of its use of the tag is log entry 86 (DEDUCED). -/
def Sys2Proof.Claims.RemoteRequestsAreServed : Prop :=
  ∀ (s : State) (r : RemoteReq),
    let answer := fun (a : AnsKind) (marks : Nat) => (⟨r.srcPkg, r.srcInc, s.link.inc, r.tag, a, marks⟩ : Reply)
    let first := s.keptOutcome r.srcPkg r.tag r.number = none ∧ s.holdsStore r.srcPkg r.srcInc r.tag r.number = false
    (s.current r.srcPkg r.srcInc r.dstInc → r.crcOk = true → first → r.carries = [] → s.failed = [] →
      (∀ pa n, r.op = .read pa n → n ≤ 256 → pa + n ≤ Config.hbmBytes → ∃ t, exec (.remoteRequestReceive r) s = .next t
          ∧ t.link.answers = answer (.done (s.rd pa n)) (s.markedSectors pa n) :: s.link.answers ∧ t.mem = s.mem ∧ t.gangs = s.gangs)
        ∧ (∀ bs, r.op = .write bs → bs.length ≤ 256 → (∀ b ∈ bs, b.1 < Config.hbmBytes ∧ s.inTables b.1 = false) → ∃ t, exec (.remoteRequestReceive r) s = .next t
          ∧ t.link.answers = answer (.done []) 0 :: s.link.answers ∧ t.mem = Memory.writeAll s.mem bs ∧ t.gangs = s.gangs)
        ∧ (∀ op ty pa d, r.op = .atomic op ty pa [d] → pa + Machine.sizeOf ty ≤ Config.hbmBytes → s.inTables pa = false → ∃ t, exec (.remoteRequestReceive r) s = .next t
          ∧ t.link.answers = answer (.done (bytesOf (Machine.sizeOf ty) (s.rdN pa (Machine.sizeOf ty)))) (s.markedSectors pa (Machine.sizeOf ty)) :: s.link.answers
          ∧ t.mem = Memory.writeN s.mem pa (bytesOf (Machine.sizeOf ty) (atomNew op ty (s.rdN pa (Machine.sizeOf ty)) d.1 d.2)) ∧ t.gangs = s.gangs))
    ∧ (∀ bs, s.current r.srcPkg r.srcInc r.dstInc → r.crcOk = true → first → r.carries = [] → r.op = .write bs → bs.length ≤ 256 →
        (∀ b ∈ bs, b.1 < Config.hbmBytes ∧ s.inTables b.1 = false) → (∃ b ∈ bs, s.failedAt b.1 = true) →
        ∃ t, exec (.remoteRequestReceive r) s = .next t ∧ t.link.answers = answer (.lost []) 0 :: s.link.answers ∧ t.mem = s.mem ∧ t.gangs = s.gangs)
    ∧ (s.dev.stage = 2 → r.crcOk = false → ∃ t, exec (.remoteRequestReceive r) s = .next t
        ∧ t.link.answers = answer .negative 0 :: s.link.answers ∧ t.mem = s.mem ∧ t.gangs = s.gangs)
    ∧ (s.dev.stage = 2 → r.crcOk = true → (s.peer r.srcPkg).st = .up → r.srcInc = (s.peer r.srcPkg).inc → r.dstInc ≠ s.link.inc →
        ∃ t, exec (.remoteRequestReceive r) s = .next t ∧ (t.peer r.srcPkg).stale = min 0xFFFF ((s.peer r.srcPkg).stale + 1)
          ∧ t.link.answers = s.link.answers ∧ t.mem = s.mem ∧ t.gangs = s.gangs)
    ∧ (∀ k a, s.current r.srcPkg r.srcInc r.dstInc → r.crcOk = true → unlisted r.op = false →
        s.keptOutcome r.srcPkg r.tag r.number = some k → k.ans = some a →
        ∃ t, exec (.remoteRequestReceive r) s = .next t ∧ t.link.answers = answer a k.poison :: s.link.answers ∧ t.link.tags = s.link.tags ∧ t.mem = s.mem ∧ t.gangs = s.gangs)
    ∧ (∀ bs, s.current r.srcPkg r.srcInc r.dstInc → r.crcOk = true → first → r.carries ≠ [] → r.op = .write bs → bs.length ≤ 256 →
        (∀ b ∈ bs, b.1 < Config.hbmBytes ∧ s.inTables b.1 = false) → s.link.held.length < 16384 →
        ∃ t h, exec (.remoteRequestReceive r) s = .next t ∧ smFind t.link.held s.nextId = some h ∧ h.src = r.srcPkg ∧ h.srcInc = r.srcInc
          ∧ h.carries = r.carries ∧ h.bytes = bs ∧ h.tag = r.tag ∧ h.number = r.number ∧ h.hold = r.hold ∧ t.mem = s.mem ∧ t.gangs = s.gangs)

/-- REMOTE_ANSWER to a request of this package on an UP link (R180, R188, R354, R358, R367, R368): the outcome goes to what asked for it, a refusal as
the failure bit REFUSED, a lock as LOCKED; a busy answer marks the request; a negative one sends it again on the next usable port, or takes the link to
RECOVERY after the fourth attempt; a write that its home has dropped is answered as lost. The bytes of a read that the hub still wants stand ready for it. -/
def Sys2Proof.Claims.AnswersReachTheirRequests : Prop :=
  (∀ (s : State) (a : RemoteAns) (id : Nat) (r : Req), s.dev.stage = 2 → a.crcOk = true → (s.peer a.srcPkg).st = .up →
    a.srcInc = (s.peer a.srcPkg).inc → s.link.reqs.find? (fun e => e.2.peer = a.srcPkg && e.2.tag = a.tag) = some (id, r) →
    (∀ data, a.ans = .done data → exec (.remoteAnswer a) s = .next ((s.completeReq id data a.poison false).flushLink))
      ∧ (∀ data, a.ans = .lost data → exec (.remoteAnswer a) s = .next ((s.completeReq id data a.poison true).flushLink))
      ∧ (a.ans = .refused → exec (.remoteAnswer a) s = .next ((s.failReq id fRefused).flushLink))
      ∧ (a.ans = .locked → exec (.remoteAnswer a) s = .next ((s.failReq id fLocked).flushLink))
      ∧ (a.ans = .busy → exec (.remoteAnswer a) s = .next (s.modReq id (fun r => { r with busy := true, sent := s.time })))
      ∧ (a.ans = .negative → r.attempts < 4 →
          let x := s.modReq id (fun r => { r with crcFails := r.crcFails + 1 })
          exec (.remoteAnswer a) s = .next (x.transmit id)
            ∧ ∀ k, smFind s.link.reqs id = some r → s.portFrom r.peer (if r.attempts = 0 then r.start else r.port + 1) = some k → r.went = true →
              (x.transmit id).link.sentReqs = (id, k) :: s.link.sentReqs ∧ ((x.transmit id).req id).attempts = r.attempts + 1
                ∧ ((x.transmit id).req id).origin = r.origin ∧ (x.transmit id).mem = s.mem ∧ (x.transmit id).gangs = s.gangs)
      ∧ (a.ans = .negative → 4 ≤ r.attempts → ∃ t, exec (.remoteAnswer a) s = .next t ∧ (t.peer a.srcPkg).st = .recovery))
  ∧ (∀ (s : State) (id : Nat) (r : Req) (use : FarUse) (addr : Nat) (data : List Byte) (marks : Nat), smFind s.link.reqs id = some r →
    r.origin = .far use addr → (s.link.reqs.map (·.1)).Nodup → (s.delReq id).wantsFar use = true →
    let t := s.completeReq id data marks false
    t.far = s.far ++ [⟨use, addr, some data, marks⟩] ∧ smFind t.link.reqs id = none ∧ t.mem = s.mem ∧ t.gangs = s.gangs)

/-- A request is sent from its starting port, or the next usable one (R356), and its attempt counts; 100 µs without an answer send it again
on the next usable port, and after four attempts the link enters RECOVERY (R353, R358, R368); a carried store answered busy is sent again
after 2 µs (R364). -/
def Sys2Proof.Claims.RequestsAreResent : Prop :=
  (∀ (s : State) (id k : Nat) (r : Req), smFind s.link.reqs id = some r → (s.peer r.peer).st = .up →
    s.portFrom r.peer (if r.attempts = 0 then r.start else r.port + 1) = some k → s.lineBusy id r k = false →
    let t := s.transmit id
    t.link.sentReqs = (id, k) :: s.link.sentReqs ∧ (t.req id).attempts = r.attempts + 1 ∧ (t.req id).port = k ∧ (t.req id).sent = s.time
      ∧ t.mem = s.mem ∧ t.gangs = s.gangs)
  ∧ (∀ (s : State) (id : Nat) (r : Req), smFind s.link.reqs id = some r → (s.peer r.peer).st = .up → r.attempts ≠ 0 → r.held = false →
    r.busy = false → r.sent + 4200000 ≤ s.time →
    (r.attempts < 4 → exec (.requestResendTimeout id) s = .next (s.transmit id))
      ∧ (4 ≤ r.attempts → ∃ t, exec (.requestResendTimeout id) s = .next t ∧ (t.peer r.peer).st = .recovery ∧ (t.peer r.peer).since = s.time))
  ∧ (∀ (s : State) (id k : Nat) (r : Req), smFind s.link.reqs id = some r → (s.peer r.peer).st = .up → r.busy = true →
    r.sent + 84000 ≤ s.time → s.portFrom r.peer r.start = some k → r.went = true → r.peer ≠ s.dev.pkgid →
    ∃ t, exec (.carriedStoreResend id) s = .next t ∧ (t.req id).attempts = 1 ∧ (t.req id).busy = false ∧ (t.req id).first = r.first
      ∧ t.link.sentReqs.length = s.link.sentReqs.length + 1)

/-- Requests of peers, answers and resends: `RemoteRequestsAreServed`, `AnswersReachTheirRequests`, `RequestsAreResent`. -/
def Obligations.FabricRequests : Prop :=
  Claims.RemoteRequestsAreServed ∧ Claims.AnswersReachTheirRequests ∧ Claims.RequestsAreResent

/-- HOLD_BOUND_EXPIRY (R194, R364 to R366): a store that a peer sent and that has waited its bound here is dropped with an expiry record, never
applied; one of this package's that no destination has reported held, sent its bound ago, is given up at its issuer with reason 3. -/
def Sys2Proof.Claims.HoldBoundsExpire : Prop :=
  (∀ (s : State) (id : Nat) (h : Held), s.link.held = [(id, h)] → h.src ≠ s.dev.pkgid → h.since + h.hold * 42000 ≤ s.time → h.origin = .msg →
    ∃ t, exec (.holdBoundExpiry (.held id)) s = .next t ∧ t.link.held = [] ∧ t.dev.expcnt = (s.dev.expcnt + 1) % 2 ^ 64
      ∧ (∃ q, t.link.expiries = (q, 1) :: s.link.expiries) ∧ t.mem = s.mem ∧ t.gangs = s.gangs)
  ∧ (∀ (s : State) (id : Nat) (r : Req), s.link.reqs = [(id, r)] → r.carries ≠ [] → r.held = false → r.went = true →
    r.first + r.hold * 42000 ≤ s.time → r.origin = .msg → s.link.held = [] → s.link.batons = [] →
    ∃ t, exec (.holdBoundExpiry (.unheld id)) s = .next t ∧ t.link.reqs = [] ∧ t.dev.expcnt = (s.dev.expcnt + 1) % 2 ^ 64
      ∧ t.link.expiries = (r.carries.headD 0, 3) :: s.link.expiries ∧ t.mem = s.mem ∧ t.gangs = s.gangs)

/-- The baton messages from a current peer (R353, R364, R365): BREL applies a held store that carries that one baton, BFAIL drops it with an expiry
record of reason 2, HELDACK marks the carried store that it names as held, and BEXP ends it; each is answered. One that is sent again is only answered again
(R368; log entry 86, DEDUCED), one that fails its check is answered negatively (R354), and one for another package, of another incarnation of
this one or of an older one of its sender changes nothing but a count (R360). -/
def Sys2Proof.Claims.BatonMessagesAct : Prop :=
  (∀ (s : State) (m : Msg) (id : Nat) (h : Held), s.heeds m → s.keptOutcome m.srcPkg m.tag m.number = none → s.link.held = [(id, h)] →
    h.src = m.srcPkg → h.srcInc = m.srcInc → h.carries = [m.seq] → h.origin = .msg → m.srcPkg ≠ s.dev.pkgid → s.link.batons = [] → s.failed = [] →
    (∃ t, exec (.brel m) s = .next t ∧ t.link.answers.head? = some (s.answerTo m) ∧ t.link.held = [] ∧ t.mem = Memory.writeAll s.mem h.bytes ∧ t.dev = s.dev ∧ t.gangs = s.gangs)
      ∧ (h.got = [] → ∃ t, exec (.bfail m) s = .next t ∧ t.link.answers.head? = some (s.answerTo m) ∧ t.link.held = [] ∧ t.mem = s.mem ∧ t.dev.expcnt = (s.dev.expcnt + 1) % 2 ^ 64
          ∧ t.link.expiries = (m.seq, 2) :: s.link.expiries ∧ t.gangs = s.gangs))
  ∧ (∀ (s : State) (m : Msg) (id : Nat) (r : Req), s.heeds m → s.keptOutcome m.srcPkg m.tag m.number = none → s.link.reqs = [(id, r)] → r.peer = m.srcPkg → r.tag = m.addr → r.carries ≠ [] →
    s.link.batons = [] → s.link.held = [] → r.origin = .msg →
    (∃ t, exec (.heldack m) s = .next t ∧ t.link.answers.head? = some (s.answerTo m) ∧ (t.req id).held = true ∧ (t.req id).busy = false ∧ t.mem = s.mem ∧ t.gangs = s.gangs)
      ∧ (∃ t, exec (.bexp m) s = .next t ∧ t.link.answers.head? = some (s.answerTo m) ∧ t.link.reqs = [] ∧ t.mem = s.mem ∧ t.gangs = s.gangs))
  ∧ (∀ (s : State) (m : Msg), s.dev.stage = 2 → m.crcOk = true → m.dstPkg ≠ s.dev.pkgid →
    ∀ i ∈ [Instr.brel m, .bfail m, .heldack m, .bexp m, .sdreq m, .sdack m, .sddone m], exec i s = .next (s.stale m.srcPkg))
  ∧ (∀ (s : State) (m : Msg), s.dev.stage = 2 → m.crcOk = true → m.dstPkg = s.dev.pkgid → (s.peer m.srcPkg).st = .up →
    (newer (s.peer m.srcPkg).inc m.srcInc = true ∨ m.dstInc ≠ s.link.inc) →
    ∀ i ∈ [Instr.brel m, .bfail m, .heldack m, .bexp m, .sdreq m, .sdack m, .sddone m], exec i s = .next (s.stale m.srcPkg))
  ∧ (∀ (s : State) (m : Msg), s.dev.stage = 2 → m.crcOk = false →
    ∀ i ∈ [Instr.brel m, .bfail m, .heldack m, .bexp m, .sdreq m, .sdack m, .sddone m],
      exec i s = .next (s.reply m.srcPkg m.srcInc m.tag .negative 0))
  ∧ (∀ (s : State) (m : Msg), s.heeds m → (s.keptOutcome m.srcPkg m.tag m.number).isSome = true →
    ∀ i ∈ [Instr.brel m, .bfail m, .heldack m, .bexp m, .sdreq m, .sdack m, .sddone m],
      exec i s = .next (s.answer m.srcPkg m.srcInc m.tag m.number (.done []) 0))

/-- Hold bounds and the baton messages: `HoldBoundsExpire`, `BatonMessagesAct`. -/
def Obligations.BatonEvents : Prop :=
  Claims.HoldBoundsExpire ∧ Claims.BatonMessagesAct

/-- The shoot-down messages from a current peer (R273, R350, R353): SDREQ with no replica here is answered with SDACK at once; the last SDACK of
the present serial lets a shoot-down of this package end, and one of another serial changes no shoot-down; SDDONE ends those of its home's page. -/
def Sys2Proof.Claims.ShootdownMessagesAct : Prop :=
  (∀ (s : State) (m : Msg), s.heeds m → s.keptOutcome m.srcPkg m.tag m.number = none → s.replicasOf m.srcPkg m.addr = [] →
    exec (.sdreq m) s = .next ((s.sendMsg m.srcPkg .sdack m.seq m.addr).answer m.srcPkg m.srcInc m.tag m.number (.done []) 0))
  ∧ (∀ (s : State) (m : Msg) (x : Shoot), s.heeds m → s.keptOutcome m.srcPkg m.tag m.number = none → s.link.shoots = [x] → x.home = s.dev.pkgid → x.pa = m.addr → x.told = true →
    (∀ q, q ≠ m.srcPkg → x.waiting = [m.srcPkg, q] → ∃ t, exec (.sdack m) s = .next t ∧ t.mem = s.mem
        ∧ t.link.shoots = [{ x with waiting := if x.serial = m.seq then [q] else [m.srcPkg, q] }])
      ∧ (x.waiting = [m.srcPkg] → x.serial = m.seq → (∀ e ∈ s.gangs, e.2.accs = []) →
        ∃ t, exec (.sdack m) s = .next t ∧ t.link.shoots = []))
  ∧ (∀ (s : State) (m : Msg), s.heeds m → s.keptOutcome m.srcPkg m.tag m.number = none → (∀ x ∈ s.link.shoots, ¬(x.home = m.srcPkg ∧ x.pa = m.addr)) →
    exec (.sddone m) s = .next (s.answer m.srcPkg m.srcInc m.tag m.number (.done []) 0))
  ∧ (∀ (s : State) (m : Msg) (x : Shoot), s.heeds m → s.keptOutcome m.srcPkg m.tag m.number = none → s.link.shoots = [x] → x.home = m.srcPkg → x.pa = m.addr →
    exec (.sddone m) s = .next (((s.modLink (fun l => { l with shoots := [] })).openPage x.ctx x.vpage).answer m.srcPkg m.srcInc m.tag m.number (.done []) 0))

/-- Peer links (R358 to R361): the first INCANN of a peer brings its link UP with its incarnation and is answered by this package's own, a later one of
a newer incarnation renews it: what was asked of the old incarnation fails, its held stores are dropped with an expiry record of reason 4, and this
package announces itself again; DEADN that names this incarnation, and 20 ms in RECOVERY, make the link DEAD. That an INCANN whose sender does not
know this package's incarnation has DSTINC 0 is log entry 22 (DEDUCED), and what becomes of a shoot-down that awaits a dead peer is log
entry 17 (DEDUCED). -/
def Sys2Proof.Claims.PeerLinksFollowTheirNotices : Prop :=
  (∀ (s : State) (m : Msg), s.dev.stage = 2 → m.crcOk = true → s.usablePorts m.srcPkg ≠ [] → (s.peer m.srcPkg).st = .none →
    m.dstPkg = s.dev.pkgid → (m.dstInc = 0 ∨ m.dstInc = s.link.inc) →
    ∃ t, exec (.incann m) s = .next t ∧ (t.peer m.srcPkg).st = .up ∧ (t.peer m.srcPkg).inc = m.srcInc
      ∧ (∃ k x, t.link.sentMsgs.head? = some (k, .incann, x) ∧ x.dstPkg = m.srcPkg ∧ x.srcInc = s.link.inc) ∧ t.mem = s.mem ∧ t.gangs = s.gangs)
  ∧ (∀ (s : State) (m : Msg), s.dev.stage = 2 → m.crcOk = true → s.usablePorts m.srcPkg ≠ [] → m.dstPkg = s.dev.pkgid →
    (m.dstInc = 0 ∨ m.dstInc = s.link.inc) → (s.peer m.srcPkg).st ≠ .none → newer m.srcInc (s.peer m.srcPkg).inc = true →
    exec (.incann m) s = .next (s.renew m.srcPkg m.srcInc))
  ∧ (∀ (s : State) (p inc id : Nat) (h : Held), (s.peer p).st ≠ .none → (∀ e ∈ s.link.reqs, e.2.peer ≠ p) → s.link.held = [(id, h)] → h.src = p →
    p ≠ s.dev.pkgid → s.ctxs = [] → s.link.shoots = [] → s.link.batons = [] →
    let t := s.renew p inc
    (t.peer p).st = .up ∧ (t.peer p).inc = inc ∧ (∀ q, q ≠ p → t.peer q = s.peer q) ∧ t.link.held = [] ∧ (∃ q, t.link.expiries = (q, 4) :: s.link.expiries)
      ∧ (∀ x ∈ t.link.tags, x.src ≠ p) ∧ t.mem = s.mem ∧ t.gangs = s.gangs)
  ∧ (∀ (s : State) (p inc id addr : Nat) (r : Req) (use : FarUse), (s.peer p).st ≠ .none → s.link.reqs = [(id, r)] → r.peer = p →
    r.origin = .far use addr → (s.delReq id).wantsFar use = true → s.link.held = [] → s.ctxs = [] → s.link.shoots = [] → s.link.batons = [] →
    let t := s.renew p inc
    t.link.reqs = [] ∧ t.far = s.far ++ [⟨use, addr, none, 0⟩])
  ∧ (∀ (s : State) (m : Msg), s.dev.stage = 2 → m.crcOk = true → (s.peer m.srcPkg).st = .up → m.srcInc = (s.peer m.srcPkg).inc → m.dstInc = s.link.inc →
    m.dstPkg = s.dev.pkgid → exec (.deadn m) s = .next (s.enterDead m.srcPkg))
  ∧ (∀ (s : State) (p : Nat), (s.peer p).st = .recovery → (s.peer p).since + 840000000 ≤ s.time →
    exec (.peerRecoveryTimeout p) s = .next (s.enterDead p))
  ∧ (∀ (s : State) (p : Nat), (∀ e ∈ s.link.reqs, e.2.peer ≠ p) → s.link.held = [] → s.ctxs = [] → s.link.shoots = [] → s.link.batons = [] →
    let t := s.enterDead p
    (t.peer p).st = .dead ∧ (∀ q, q ≠ p → t.peer q = s.peer q) ∧ t.mem = s.mem ∧ t.gangs = s.gangs)

/-- Shoot-down messages and peer links: `ShootdownMessagesAct`, `PeerLinksFollowTheirNotices`. -/
def Obligations.DomainMessages : Prop :=
  Claims.ShootdownMessagesAct ∧ Claims.PeerLinksFollowTheirNotices

/-- The ports (R357): training that ends in time with two lanes makes a port ACTIVE, with one DEGRADED; a lane lost degrades an ACTIVE port and
retrains a DEGRADED one, and so does an exhausted replay; the third RETRAIN within a second, and a training that takes too long, make the port
FAILED; a usable port without traffic for 100 µs enters its low-power state. -/
def Obligations.PortsTrainAndFail : Prop :=
  ∀ (s : State) (k : Nat),
    let p := s.port k
    let becomes := fun (i : Instr) (st : PortSt) => ∃ t, exec i s = .next t ∧ (t.port k).st = st ∧ t.mem = s.mem ∧ t.gangs = s.gangs
    (((p.st = .training ∧ s.time ≤ p.since + 4200000000) ∨ (p.st = .retrain ∧ s.time ≤ p.since + 420000000)) →
        becomes (.portTrained k 2) .active ∧ becomes (.portTrained k 1) .degraded)
      ∧ (p.st = .active → becomes (.portLaneFailure k) .degraded)
      ∧ ((p.retrains.filter (fun t => s.time < t + 42000000000)).length < 2 →
        (p.st = .degraded → becomes (.portLaneFailure k) .retrain) ∧ ((p.st = .active ∨ p.st = .degraded) → becomes (.portReplayExhausted k) .retrain))
      ∧ (2 ≤ (p.retrains.filter (fun t => s.time < t + 42000000000)).length →
        (p.st = .active ∨ p.st = .degraded) → becomes (.portReplayExhausted k) .failed)
      ∧ (((p.st = .training ∧ p.since + 4200000000 ≤ s.time) ∨ (p.st = .retrain ∧ p.since + 420000000 ≤ s.time)) →
        becomes (.portTrainingTimeout k) .failed)
      ∧ ((p.st = .active ∨ p.st = .degraded) → p.lastUse + 4200000 ≤ s.time →
        ∃ t, exec (.portIdleTimeout k) s = .next t ∧ (t.port k).low = true ∧ (t.port k).st = p.st ∧ t.mem = s.mem ∧ t.gangs = s.gangs)

/-! Events of the queues. -/

/-- HOST_SUBMISSION (R290, R292, R293): 128 bytes at the start of a window's submission range are a packet, which arrives at the queue's processor; a
write of another size or place is dropped with PKTERR 0x12. In a later cycle of its own the processor accepts one packet: a queue that is IDLE or
ACTIVE, holds fewer than 64 launches and gets a well-formed packet takes it under the next sequence number and is ACTIVE; else the submission is
dropped, counted, and PKTERR says why. Of two that have arrived, the earlier comes first, and in one cycle the host's, then the lower core's,
then the one issued first. The cycles of the processors are the model's choice (log entry 76). -/
def Sys2Proof.Claims.SubmissionsAreTaken : Prop :=
  ∀ (s : State) (fn c q : Nat) (d : List Dword), s.queueOwned fn c q = true →
    let x := s.queue c q
    let p := d.map (·.toNat)
    let next := s.acceptOne c q
    (d.length = 16 → ∃ t, exec (.hostSubmission fn c q 0 128 d) s = .next t
        ∧ t.queue c q = { x with inbox := x.inbox ++ [⟨s.hubCycle, 0, 0, p, none⟩] } ∧ t.mem = s.mem ∧ t.gangs = s.gangs)
      ∧ (∀ off len, off < 0x80 → (off ≠ 0 ∨ len ≠ 128 ∨ d.length ≠ 16) → ∃ t, exec (.hostSubmission fn c q off len d) s = .next t
        ∧ t.queue c q = { x with drops := min 0xFFFFFFFF (x.drops + 1), pkterr := 0x12 } ∧ t.mem = s.mem ∧ t.gangs = s.gangs)
      ∧ (∀ y, x.inbox = [y] → y.asker = none → y.cyc < s.hubCycle →
        let drops := fun (e : Nat) => next.queue c q = { x with inbox := [], drops := min 0xFFFFFFFF (x.drops + 1), pkterr := e }
        ((x.st = .idle ∨ x.st = .active) → x.launches.length < 64 → packetErr y.pkt = none →
            ∃ l, (next.queue c q).last = (if x.last = 0xFFFFFFFF then 1 else x.last + 1) ∧ (next.queue c q).st = .active
              ∧ (next.queue c q).inbox = [] ∧ smFind (next.queue c q).launches (next.queue c q).last = some l ∧ l.pkt = y.pkt ∧ l.st = 0
              ∧ ∀ n, n ≠ (next.queue c q).last → smFind (next.queue c q).launches n = smFind x.launches n)
          ∧ (x.st ≠ .idle → x.st ≠ .active → drops 0x10)
          ∧ ((x.st = .idle ∨ x.st = .active) → 64 ≤ x.launches.length → drops 0x11)
          ∧ (∀ e, (x.st = .idle ∨ x.st = .active) → x.launches.length < 64 → packetErr y.pkt = some e → drops e)
          ∧ next.mem = s.mem ∧ next.gangs = s.gangs)
      ∧ (∀ y, x.inbox = [y] → s.hubCycle ≤ y.cyc → next = s)
      ∧ (∀ y z, x.inbox = [y, z] → y.rank < 512 → z.rank < 512 → y.order < 2 ^ 64 → z.order < 2 ^ 64 → z.cyc < s.hubCycle →
        (z.cyc < y.cyc ∨ (z.cyc = y.cyc ∧ (z.rank < y.rank ∨ (z.rank = y.rank ∧ z.order < y.order)))) →
        next = (s.modQueue c q (fun w => { w with inbox := [y] })).submit c q z)

/-- QCMD 1 to 5 (R294): each acts in the states of the queue that allow it, with CMDERR 0, and in every other state leaves the queue as it is but
for CMDERR 1. Launches that a disable has ended, and whose records are still to be written, keep apart from the numbers that an enable begins
anew. That a drain of a queue that holds nothing disables it at once is log entry 44 (DEDUCED), and that any group not yet retired bars a
disable is log entry 95 (DESIGN CHOICE). -/
def Sys2Proof.Claims.QueueCommandsFollowTheState : Prop :=
  ∀ (s : State) (fn c q : Nat), s.queueOwned fn c q = true →
    let x := s.queue c q
    let does := fun (i : Instr) (y : Queue) => ∃ t, exec i s = .next t ∧ t.queue c q = y
      ∧ (∀ k n, (k, n) ≠ (c, q) → t.queue k n = s.queue k n) ∧ t.mem = s.mem ∧ t.gangs = s.gangs ∧ t.groups = s.groups
    (x.st = .disabled → x.qbuf ≠ 0 → x.faultbase ≠ 0 →
        does (.queueEnable fn c q) { x with
          cmderr := 0, st := .idle, last := 0, done := 0, ended := [], launches := x.launches.map (fun l => (oldKey l.1, l.2)) })
      ∧ ((x.st = .idle ∨ x.st = .active) →
        does (.queueDrain fn c q) { x with cmderr := 0, st := if x.launches = [] then .disabled else .draining }
          ∧ does (.queueHalt fn c q) { x with cmderr := 0, st := .halted })
      ∧ (x.st = .halted → does (.queueResume fn c q) { x with cmderr := 0, st := if x.launches = [] then .idle else .active })
      ∧ (x.launches = [] → (x.st = .idle ∨ (x.st = .halted ∧ s.queueGroups c q = [])) →
        does (.queueDisable fn c q) { x with cmderr := 0, st := .disabled })
      ∧ (x.st = .halted → s.queueGroups c q = [] → ∃ t, exec (.queueDisable fn c q) s = .next t ∧ (t.queue c q).st = .disabled
        ∧ ∀ n l, smFind (t.queue c q).launches n = some l → l.st = 3)
      ∧ ((x.st ≠ .disabled ∨ x.qbuf = 0 ∨ x.faultbase = 0) → does (.queueEnable fn c q) { x with cmderr := 1 })
      ∧ (x.st ≠ .idle → x.st ≠ .active → does (.queueDrain fn c q) { x with cmderr := 1 } ∧ does (.queueHalt fn c q) { x with cmderr := 1 })
      ∧ (x.st ≠ .halted → does (.queueResume fn c q) { x with cmderr := 1 })
      ∧ (x.st ≠ .idle → (x.st ≠ .halted ∨ s.queueGroups c q ≠ []) → does (.queueDisable fn c q) { x with cmderr := 1 })

/-- QCMD 6 and 7 (R294, R298, R311, R318, R422): its record no longer VALID, the parked group in a slot of a FAULTED queue resumes in the state that
it parked from, or is killed and drains with the cause of its fault; the slot is free then, and with no group of the queue parked the queue's
earlier state returns. Where the record's page has to be waited for, nothing is done yet, which is the model's choice (log entry 77); on
another queue CMDERR is 1. -/
def Sys2Proof.Claims.ParkedGroupsGoOnOrDie : Prop :=
  (∀ (s : State) (fn c q slot g : Nat), s.queueOwned fn c q = true → smFind (s.queue c q).slots slot = some g → (s.queue c q).st = .faulted →
    (s.queue c q).leaving = [] →
    let va := (s.queue c q).faultbase + 64 * slot
    let s0 := s.modQueue c q (fun x => { x with cmderr := 0 })
    (∀ pa, s.recPlace c va = .here pa →
        let s1 := ((s0.touch pa).wr pa [0]).tickSerial
        exec (.queueResumeParked fn c q slot) s = .next ((s1.resumeGroup g).freeSlot c q slot)
          ∧ exec (.queueKillParked fn c q slot) s = .next ((s1.killGroup g (((s.group g).fault.map (·.cause)).getD 0)).freeSlot c q slot)
          ∧ s1.mem = Memory.writeN s.mem pa [0])
      ∧ (s.recPlace c va = .wait false → ∃ t, exec (.queueKillParked fn c q slot) s = .next t ∧ (t.queue c q).leaving = [(slot, va, true)]
        ∧ t.groups = s.groups ∧ t.gangs = s.gangs ∧ t.mem = s.mem))
  ∧ (∀ (s : State) (fn c q slot : Nat), s.queueOwned fn c q = true → ((s.queue c q).st ≠ .faulted ∨ smFind (s.queue c q).slots slot = none) →
    ∀ i ∈ [Instr.queueResumeParked fn c q slot, .queueKillParked fn c q slot],
      exec i s = .next (s.modQueue c q (fun x => { x with cmderr := 1 })))
  ∧ (∀ (s : State) (g : Nat), (smFind s.groups g).isSome = true → (∀ e ∈ s.gangs, e.2.group = g → e.2.accs = []) →
    let t := s.resumeGroup g
    (t.group g).st = (s.group g).from_ ∧ (t.group g).fault = none ∧ (∀ u, (t.gang u).group = g → (t.gang u).stopped = none) ∧ t.mem = s.mem)
  ∧ (∀ (s : State) (g n : Nat), (smFind s.groups g).isSome = true →
    let t := s.killGroup g n
    (t.group g).st = .draining ∧ (t.group g).fault = none ∧ ((s.group g).killed = none → (t.group g).killed = some n)
      ∧ ∀ u ∈ s.gangsOf g, (t.gang u).live = false)
  ∧ (∀ (s : State) (c q slot : Nat), (smFind s.ctxs c).isSome = true → (s.queue c q).waiting = [] →
    let t := s.freeSlot c q slot
    t.mem = s.mem ∧ (t.queue c q).slots = smDel (s.queue c q).slots slot
      ∧ ((∀ g ∈ s.queueGroups c q, (s.group g).st ≠ .parked) →
        ((s.queue c q).kept = .active → (t.queue c q).st = if (s.queue c q).launches = [] then .idle else .active)
          ∧ ((s.queue c q).kept = .draining → (t.queue c q).st = if (s.queue c q).launches = [] then .disabled else .draining)
          ∧ ((s.queue c q).kept = .halted → (t.queue c q).st = .halted)))

/-- Submissions and the commands of a queue: `SubmissionsAreTaken`, `QueueCommandsFollowTheState`, `ParkedGroupsGoOnOrDie`. -/
def Obligations.QueueEvents : Prop :=
  Claims.SubmissionsAreTaken ∧ Claims.QueueCommandsFollowTheState ∧ Claims.ParkedGroupsGoOnOrDie

/-- LAUNCH_PACKET_READ (R247, R292, R293): once the gang's earlier accesses are released at `.dev`, the packet that a held LAUNCH names is read and
arrives at the queue's processor, which accepts it in a later cycle; S[d] takes 0, or 1, 2 or 3 where the queue is not IDLE or ACTIVE, is full, or
the packet is malformed, and 4 for a queue number above 63 (log entry 92, DESIGN CHOICE); and the part goes on. The cycles of the
queue processors are the model's choice (log entry 76, DESIGN CHOICE). -/
def Sys2Proof.Claims.LaunchPacketsAreRead : Prop :=
  (∀ (s : State) (u k : Nat) (p : Part) (sd q pa n : Nat), (s.gang u).part k = some p → p.holds = [.launch sd q pa n] →
    (s.gang u).earlierDone .dev n = true → ((s.group (s.gang u).group).st = .resident ∨ (s.group (s.gang u).group).st = .draining) →
    let c := (s.gang u).ctx
    (64 ≤ q → exec (.launchPacketRead u k) s = .next (s.answerLaunch u (.launch sd q pa n) sd 4))
      ∧ (∀ bs s1, q < 64 → s.hubRead c pa 128 (.packet u k) = (.got bs, s1) → (smFind s1.ctxs c).isSome = true → (smFind s1.gangs u).isSome = true →
        ∃ t, exec (.launchPacketRead u k) s = .next t
          ∧ t.queue c q = { s1.queue c q with
            inbox := (s1.queue c q).inbox ++ [⟨s1.hubCycle, (s.gang u).core + 1, n, dwordsOf 16 bs, some (u, .submitted sd n)⟩] }
          ∧ (t.gang u).parts = (s1.gang u).parts.map (fun r => { r with
            holds := r.holds.map (fun h => if h = .launch sd q pa n then .submitted sd n else h) })
          ∧ t.mem = s1.mem))
  ∧ (∀ (s : State) (u c q sd n : Nat) (y : Submission), (s.queue c q).inbox = [y] → y.asker = some (u, .submitted sd n) → y.cyc < s.hubCycle →
    (s.gang u).hasHold (.submitted sd n) = true →
    let x := s.queue c q
    let s0 := s.modQueue c q (fun w => { w with inbox := [] })
    let ends := fun (t : State) (st : Nat) => s.acceptOne c q = t.answerLaunch u (.submitted sd n) sd st
    (x.st ≠ .idle → x.st ≠ .active → ends s0 1)
      ∧ ((x.st = .idle ∨ x.st = .active) → 64 ≤ x.launches.length → ends s0 2)
      ∧ ((x.st = .idle ∨ x.st = .active) → x.launches.length < 64 → packetErr y.pkt ≠ none → ends s0 3)
      ∧ ((x.st = .idle ∨ x.st = .active) → x.launches.length < 64 → packetErr y.pkt = none → ends (s0.modQueue c q (fun w => w.take y.pkt)) 0))
  ∧ (∀ (s : State) (u sd st : Nat) (h : Hold), (smFind s.gangs u).isSome = true → smWf (0 : Dword) (s.gang u).s = true → st < 2 ^ 64 →
    let t := s.answerLaunch u h sd st
    (t.gang u).sReg sd = st ∧ (∀ r, r ≠ sd → (t.gang u).sReg r = (s.gang u).sReg r) ∧ (∀ p ∈ (t.gang u).parts, h ∉ p.holds)
      ∧ t.mem = s.mem ∧ t.ctxs = s.ctxs)

/-- LAUNCH_START (R291, R295, R302): a held launch whose dependence failed under DEPFAIL ends with status 3; the first held launch of an ACTIVE or
DRAINING queue starts once its conditions hold: with a header error it ends with status 5 and the error's number, and else it is started at this
time with the header that was read. -/
def Sys2Proof.Claims.LaunchesStart : Prop :=
  (∀ (s : State) (c q n : Nat) (l : Launch), (s.ctx c).st = .live → (s.queue c q).launches = [(n, l)] → n ≠ 0 → l.st = 0 →
    (l.depfail = true → (s.deps c l).2 = true → ∃ t l', exec (.launchStart c q) s = .next t ∧ smFind (t.queue c q).launches n = some l'
        ∧ l'.st = 3 ∧ l'.status = 3 ∧ l'.pkt = l.pkt ∧ t.mem = s.mem ∧ t.gangs = s.gangs)
      ∧ ((l.depfail = false ∨ (s.deps c l).2 = false) → (s.deps c l).1 = true → ((s.queue c q).st = .active ∨ (s.queue c q).st = .draining) →
        exec (.launchStart c q) s = .next (s.startLaunch c q n)))
  ∧ (∀ (s s1 : State) (c q n : Nat) (d : List Nat), s.startRead c q n (dw (s.launch c q n).pkt 1) = (.got d [] [], s1) →
    let h := s1.trimHeader c (parseHeader d)
    let l := s1.launch c q n
    (s1.headerErr c d ≠ 0 → s.startLaunch c q n = s1.ending c q n 5 (s1.headerErr c d))
      ∧ (s1.headerErr c d = 0 → h.timetable = 0 → l.tt = [] → (smFind (s1.queue c q).launches n).isSome = true →
        (((dw l.pkt 0).testBit 8 = false ∧ h.coreq = false) ∨ pktGroups l.pkt ≤ 384 * h.perCore) →
        let t := s.startLaunch c q n
        t.launch c q n = { l with hdr := h, st := 1, tstart := s1.timens } ∧ t.mem = s1.mem ∧ t.gangs = s1.gangs))

/-- LAUNCH_END (R290, R295, R307): the launch's completion record of 128 bytes is written, and it leaves the queue; a queue with no launch left has
DONESEQ equal to LASTSEQ and is IDLE, or DISABLED if it was draining. -/
def Sys2Proof.Claims.LaunchesEnd : Prop :=
  ∀ (s : State) (c q n pa : Nat) (l : Launch), smFind (s.queue c q).launches n = some l → ((s.queue c q).launches.map (·.1)).Nodup →
    c ≠ safeCtx → n < 2 ^ 32 → l.st = 3 → l.ttOn = false → dw l.pkt 3 % 128 = 0 → s.recPlace c (dw l.pkt 3) = .here pa →
    (l.complete q n).length = 128
      ∧ ∃ t, exec (.launchEnd c q n) s = .next t ∧ t.mem = Memory.writeN s.mem pa (l.complete q n) ∧ smFind (t.queue c q).launches n = none
        ∧ ((s.queue c q).launches = [(n, l)] → (t.queue c q).done = (s.queue c q).last
          ∧ ((s.queue c q).st = .active → (t.queue c q).st = .idle) ∧ ((s.queue c q).st = .draining → (t.queue c q).st = .disabled))
        ∧ t.gangs = s.gangs ∧ t.groups = s.groups

/-- SAFELP (R397): at stage 0 a write that names a well-formed packet in stack 0 makes the starter's internal context, whose one launch is proofed
first, and SAFESTAT says that it runs; no other is taken meanwhile. -/
def Sys2Proof.Claims.SafeKernelStarts : Prop :=
  (∀ (s : State) (v : Dword), s.writeStage = some 0 → s.dev.safeState ≠ 1 → v.toNat + 128 ≤ Config.stackBytes →
    packetErr (safePacket (dwordsOf 16 (s.rd v.toNat 128))) = none →
    ∃ t r, exec (.safelpWrite v) s = .next t ∧ t.dev.safelp = v.toNat ∧ t.dev.safeState = 1 ∧ (t.ctx safeCtx).st = .live
      ∧ (∃ l, smFind (t.queue safeCtx 0).launches 1 = some l ∧ l.pkt = safePacket (dwordsOf 16 (s.rd v.toNat 128)) ∧ l.st = 0)
      ∧ t.proofq = s.proofq ++ [r] ∧ r.safe = true ∧ r.ctx = safeCtx ∧ t.mem = s.mem ∧ t.gangs = s.gangs)
  ∧ (∀ (s : State) (v : Dword), s.dev.safeState = 1 → exec (.safelpWrite v) s = .next s)

/-- LAUNCH packets, the start and end of launches, and the safe kernel: `LaunchPacketsAreRead`, `LaunchesStart`, `LaunchesEnd`, `SafeKernelStarts`. -/
def Obligations.LaunchEvents : Prop :=
  Claims.LaunchPacketsAreRead ∧ Claims.LaunchesStart ∧ Claims.LaunchesEnd ∧ Claims.SafeKernelStarts

/-! Events of groups, tasks and barriers. -/

/-- GROUP_PLACE (R28, R311 to R314): where no queue processor has placed a group in this cycle, the next group of a queue is PLACED on the core that placement chooses, with all its gangs waiting for the
clear of its granules, which joins the core's clears; a queue whose next group fits nowhere places none. The cycles of the queue processors
are the model's choice (log entry 76, DESIGN CHOICE). -/
def Sys2Proof.Claims.GroupsArePlaced : Prop :=
  ∀ (s : State) (c q gid : Nat) (x : Group), (s.ctx c).st = .live → ((s.queue c q).st = .active ∨ (s.queue c q).st = .draining) →
    s.placed = [] → s.nextGroup c q = some (gid, x) → (s.launch c q x.seq).coresident = false →
    let h := (s.launch c q x.seq).hdr
    (s.chooseCore c h x.index = none → exec (.groupPlace c q) s = .next s)
      ∧ (∀ core, s.chooseCore c h x.index = some core → ∃ t y, exec (.groupPlace c q) s = .next t ∧ smFind t.groups gid = some y
        ∧ y.ctx = c ∧ y.q = q ∧ y.seq = x.seq ∧ y.index = x.index ∧ y.core = core ∧ y.st = .placed
        ∧ y.launchGangs = (List.range h.gangs).map (fun i => gid + 1 + i)
        ∧ (∀ i < h.gangs, let g := t.gang (gid + 1 + i)
            g.group = gid ∧ g.core = core ∧ g.idx = i ∧ g.width = h.width ∧ g.waiting = true ∧ g.live = false)
        ∧ (t.core core).clears = (s.core core).clears ++ [⟨gid, none, 0, h.granules, s.cyc core⟩] ∧ t.mem = s.mem)

/-- POOL_CLEAR_DONE (R311, R314): after 32 cycles for each granule the group is RESIDENT in its queue's class and its gang is live, after every write
there has been (R263), with one runnable lane set of eight lanes at the kernel's entry on each slice. -/
def Sys2Proof.Claims.ClearedGroupsStart : Prop :=
  ∀ (s : State) (core g n start u : Nat), (s.core core).clears = [⟨g, none, 0, n, start⟩] → start + 32 * n ≤ s.cyc core →
    (smFind s.groups g).isSome = true → (s.kernel g).rollback = false → (s.group g).launchGangs = [u] → (smFind s.gangs u).isSome = true →
    (s.gang u).group = g →
    let pc := (s.kernel g).codebase + (s.kernel g).entry
    s.targetOk u pc = true → s.isRegang (s.gang u).ctx pc = false →
    ∃ t, exec (.poolClearDone core) s = .next t ∧ (t.group g).st = .resident ∧ (t.group g).cls = (s.queue (s.group g).ctx (s.group g).q).cls
      ∧ (t.gang u).live = true ∧ (t.gang u).waiting = false ∧ (t.gang u).acq = s.serial ∧ (t.gang u).slices.length = (s.gang u).width
      ∧ (∀ k < (s.gang u).width, ∃ y, ((t.gang u).slice k).curSet = some y ∧ y.pc = pc ∧ y.mask = 255 ∧ y.st = .run)
      ∧ (t.core core).clears = [] ∧ t.mem = s.mem

/-- TASK_TAKE and TASK_STEAL (R51 to R53): where the deque has had no operation in this cycle, a core takes the head record of its own deque, or with an empty one the tail record of the victim that
the search finds, where a resident group of the record's launch can host it; a task gang of that group then waits for its clear. -/
def Sys2Proof.Claims.TasksAreTaken : Prop :=
  ∀ (s : State) (core c : Nat), (s.ctx c).st = .live →
    let starts := fun (t : State) (h owner : Nat) (r : TaskRec) => (t.gang s.nextId).group = h ∧ (t.gang s.nextId).task = true
      ∧ (t.gang s.nextId).waiting = true ∧ (t.gang s.nextId).core = core ∧ (t.gang s.nextId).width = taskWidth r.bits
      ∧ (t.gang s.nextId).deque = some (owner, c) ∧ (∃ n, (t.core core).clears = (s.core core).clears ++ [⟨h, some s.nextId, r.bits, n, s.cyc core⟩])
      ∧ t.mem = s.mem
    (∀ r rest h, ((s.core core).deque c).recs = r :: rest → s.dequeBusy core c = false → s.hostFor core c r = some h →
        ∃ t, exec (.taskTake core c) s = .next t ∧ ((t.core core).deque c).recs = rest ∧ starts t h core r)
      ∧ (∀ r rest, ((s.core core).deque c).recs = r :: rest → s.hostFor core c r = none → exec (.taskTake core c) s = .next s)
      ∧ (∀ v h r, ((s.core core).deque c).recs = [] → (victims core).findSome? (fun v =>
          match ((s.core v).deque c).recs.getLast? with
          | none => none
          | some r => (s.hostFor core c r).map (fun h => (v, h, r))) = some (v, h, r) → s.dequeBusy v c = false →
        ∃ t, exec (.taskSteal core c) s = .next t ∧ ((t.core v).deque c).recs = ((s.core v).deque c).recs.dropLast ∧ starts t h v r)
      ∧ (∀ v ∈ victims core, v ≠ core ∧ dieOf v = dieOf core)

/-- BARRIER_ARRIVAL and BARRIER_RELEASE (R5, R46, R320, R324, R325, R329, R330): a gang all of whose lane sets wait at a barrier arrives there once its
release is performed; after the cycle's other events a barrier with every member there is due 4, 24 or 200 cycles later by its level, in
cycles of each cluster that has an arrived gang, or has its group's snapshot due first; and then the phase advances, the arrivals go, and no
lane set of a gang that had arrived waits at the barrier any more. -/
def Obligations.BarriersReleaseTheirGangs : Prop :=
  (∀ (s : State) (u n : Nat) (b : BarRef), (s.gang u).waitsAt = some (b, n) → u ∈ s.members b → u ∉ (s.bar b).arrived →
    (match b with
      | .grp g _ => (smFind s.groups g).isSome
      | .clu c _ _ | .dev c _ => (smFind s.ctxs c).isSome) = true →
    (s.bar b).release = none → (s.gang u).earlierDone (barScope b) n = true → (s.gangs.map (·.1)).Nodup →
    ∃ t, exec (.barrierArrival u) s = .next t ∧ (t.bar b).arrived = (s.bar b).arrived ++ [u] ∧ (t.bar b).phase = (s.bar b).phase
      ∧ (t.bar b).release = none ∧ Instr.barrierRelease b ∈ t.agenda ∧ t.mem = s.mem ∧ t.gangs = s.gangs)
  ∧ (∀ (s : State) (b : BarRef), (s.bar b).release = none → (s.bar b).arrived ≠ [] →
    (match b with
      | .grp g _ => (smFind s.groups g).isSome
      | .clu c _ _ | .dev c _ => (smFind s.ctxs c).isSome) = true →
    let takes := match b with
      | .grp g _ => (s.kernel g).rollback
      | .clu .. | .dev .. => false
    let last := ∀ i ∈ s.agenda, (∃ b, i = Instr.barrierRelease b) ∨ ∃ d, i = Instr.leaseGrant d
    (¬ last → exec (.barrierRelease b) s = .next (s.later (.barrierRelease b)))
      ∧ (last → (∃ m ∈ s.members b, m ∉ (s.bar b).arrived) → exec (.barrierRelease b) s = .next s)
      ∧ (last → (∀ m ∈ s.members b, m ∈ (s.bar b).arrived) → takes = false → ∃ t l, exec (.barrierRelease b) s = .next t ∧ (t.bar b).release = some l
        ∧ (∀ e ∈ l, e.2 = (s.cluster e.1).cyc + (match b with | .grp .. => 4 | .clu .. => 24 | .dev .. => 200))
        ∧ (∀ k, (∃ e ∈ l, e.1 = k) ↔ ∃ u ∈ (s.bar b).arrived, clusterOf (s.gang u).core = k)
        ∧ (t.bar b).arrived = (s.bar b).arrived ∧ (t.bar b).phase = (s.bar b).phase ∧ t.mem = s.mem ∧ t.gangs = s.gangs)
      ∧ (∀ g n, b = .grp g n → last → (∀ m ∈ s.members b, m ∈ (s.bar b).arrived) → takes = true → (s.group g).snapDue = none →
        ∃ t, exec (.barrierRelease b) s = .next t ∧ (t.group g).snapDue = some (n, s.cycOf ((s.bar b).arrived.headD 0)) ∧ (t.bar b).release = none
          ∧ (t.bar b).arrived = (s.bar b).arrived ∧ t.mem = s.mem ∧ t.gangs = s.gangs))
  ∧ (∀ (s : State) (b : BarRef) (l : List (Nat × Nat)), (s.bar b).release = some l → (∀ e ∈ l, e.2 ≤ (s.cluster e.1).cyc) →
    (match b with
      | .grp g _ => (smFind s.groups g).isSome
      | .clu c _ _ | .dev c _ => (smFind s.ctxs c).isSome) = true →
    ∃ t, exec (.barrierRelease b) s = .next t ∧ (t.bar b).phase = ((s.bar b).phase + 1) % 65536 ∧ (t.bar b).arrived = []
      ∧ (t.bar b).release = none ∧ t.mem = s.mem
      ∧ ∀ u ∈ (s.bar b).arrived, ∀ k, ∀ e ∈ ((t.gang u).slice k).sets, ∀ l id n, e.2.st ≠ .barrier b l id n)

/-- SNAPSHOT_COMPLETE (R320): a group's due snapshot holds its scratchpad, its future bits, its live launch gangs with their writes landed and their
captured A operands, and the flags that its engines' commands have still to set (log entry 78, DEDUCED); its count of errors starts anew, and
the barrier that took it goes on to its release. -/
def Sys2Proof.Claims.SnapshotsAreTaken : Prop :=
  ∀ (s : State) (g n t0 : Nat), (s.group g).snapDue = some (n, t0) → s.spadBusy g = false → (∀ e ∈ s.snapGangs g, e.2.accs = []) →
    t0 + 32 * s.snapGran g ≤ s.cyc (s.group g).core →
    ∃ t, exec (.snapshotComplete g) s = .next t
      ∧ (∃ cmds, (t.group g).snap = some ⟨(s.group g).spad, (s.group g).futs, (s.snapGangs g).map (fun e => (e.1,
            { e.2.landEvery (s.cyc (s.group g).core) with
              al := (s.core (s.group g).core).al.bind (fun a => if a.gang = e.1 then some (a.va, a.fmt) else none) })), cmds⟩
          ∧ ((s.core (s.group g).core).copyq = [] → (s.core (s.group g).core).matq = [] → cmds = []))
      ∧ (t.group g).snapDue = none ∧ (t.group g).ueCount = 0 ∧ (t.group g).commit = false ∧ (t.bar (.grp g n)).release ≠ none
      ∧ (t.bar (.grp g n)).arrived = (s.bar (.grp g n)).arrived ∧ t.mem = s.mem ∧ t.gangs = s.gangs

/-- GROUP_RETIRE (R305, R306, R319): a DRAINING group with nothing outstanding gives up everything it holds, and its launch counts it as retired, or as
killed; the value of its event is 0, or for a killed group 256 times the cause plus 1. -/
def Sys2Proof.Claims.GroupsRetire : Prop :=
  (∀ (s : State) (g : Nat), s.mayRetire g = true →
    let x := s.group g
    let l := s.launch x.ctx x.q x.seq
    (smFind (s.queue x.ctx x.q).launches x.seq).isSome = true → dw l.pkt 4 = 0 → l.ttOn = false →
    ∃ t, exec (.groupRetire g) s = .next t ∧ t.groups = smDel s.groups g ∧ t.gangs = s.gangs.filter (fun e => e.2.group ≠ g) ∧ t.mem = s.mem
      ∧ (t.launch x.ctx x.q x.seq).retired = l.retired + (if x.killed = none then 1 else 0)
      ∧ (t.launch x.ctx x.q x.seq).killed = l.killed + (if x.killed = none then 0 else 1))
  ∧ (∀ x : Group, (x.killed = none → x.event = 0) ∧ ∀ n, x.killed = some n → x.event = 256 * n + 1)

/-- Groups are placed, cleared, snapshot and retired; tasks are taken: `GroupsArePlaced`, `ClearedGroupsStart`, `TasksAreTaken`, `SnapshotsAreTaken`, `GroupsRetire`. -/
def Obligations.GroupAndTaskEvents : Prop :=
  Claims.GroupsArePlaced ∧ Claims.ClearedGroupsStart ∧ Claims.TasksAreTaken ∧ Claims.SnapshotsAreTaken ∧ Claims.GroupsRetire

/-! Errors. -/

/-- UNCORRECTABLE_ERROR_CONSUMED (R322, R370): a group without ROLLBACK parks on a system fault of cause 3 with the site as DETAIL; one with it, that has
not committed, hosts no task and has met fewer than three errors since its snapshot, stops to roll back; another is killed with cause 3. An
error that a PARKED group consumes is kept until it resumes (log entry 82, DEDUCED). -/
def Sys2Proof.Claims.ErrorsParkOrRollBack : Prop :=
  (∀ (s : State) (g u site : Nat), ((s.group g).st = .resident ∨ (s.group g).st = .draining) →
    ((s.kernel g).rollback = false → (s.gang u).group = g → ∃ t f, exec (.uncorrectableErrorConsumed g u site) s = .next t
        ∧ (t.group g).st = .parked ∧ (t.group g).fault = some f ∧ f.cause = 3 ∧ f.detail = site ∧ t.mem = s.mem)
      ∧ ((s.kernel g).rollback = true → (s.group g).commit = false → (s.group g).ueCount < 3 →
        (∀ e ∈ s.gangs, e.2.group = g → e.2.live = true → e.2.task = false) →
        exec (.uncorrectableErrorConsumed g u site) s
          = .next (s.modGroup g (fun x => { x with ueCount := x.ueCount + 1, rolling := true })))
      ∧ ((s.kernel g).rollback = true → ((s.group g).commit = true ∨ 3 ≤ (s.group g).ueCount) → (s.group g).killed = none →
        ∃ t, exec (.uncorrectableErrorConsumed g u site) s = .next t ∧ (t.group g).st = .draining ∧ (t.group g).killed = some 3))
  ∧ (∀ (s : State) (g u site : Nat), (s.group g).st = .parked →
    exec (.uncorrectableErrorConsumed g u site) s = .next (s.modGroup g (fun x => { x with owed := x.owed ++ [(u, site)] })))

/-- STORAGE_ERROR_DETECTED and HBM_REPAIR_FAILURE (R352, R354, R383): a corrected error is logged and changes nothing else; one in L2 or HBM marks its
sector, whose data stay; one in a read-only L1 line drops the line; one in a word of the pool stays with the word, and a bundle whose slots or
engine commands read the word consumes it with site 1 before it issues; a page that cannot be repaired is POISONED wherever it is mapped and is
never allocated again. -/
def Sys2Proof.Claims.StorageErrorsMark : Prop :=
  (∀ (s : State) (site : ErrSite), exec (.storageErrorDetected site true) s = .next { s with log := .corrected :: s.log })
  ∧ (∀ (s : State) (pa : Nat), ∀ i ∈ [Instr.storageErrorDetected (.l2 pa) false, .storageErrorDetected (.hbm pa) false],
    ∃ t, exec i s = .next t ∧ t.poisoned pa 1 = true ∧ (∀ a n, s.poisoned a n = true → t.poisoned a n = true) ∧ t.mem = s.mem ∧ t.gangs = s.gangs)
  ∧ (∀ (s : State) (core pa : Nat), ∃ t, exec (.storageErrorDetected (.l1 core pa) false) s = .next t
    ∧ (∀ x ∈ (t.core core).l1, x.pa ≠ pa / 128 * 128) ∧ t.mem = s.mem ∧ t.gangs = s.gangs)
  ∧ (∀ (s : State) (u i r g off z n : Nat),
    exec (.storageErrorDetected (.poolV u i r) false) s = .next (s.modGang u (fun g => { g with badV := (i * 256 + r) :: g.badV }))
      ∧ exec (.storageErrorDetected (.poolSpad g off) false) s = .next (s.modGroup g (fun x => { x with badSpad := off / 4 :: x.badSpad }))
      ∧ exec (.storageErrorDetected (.poolZ g z i n) false) s = .next (s.modGroup g (fun x => { x with badZ := (z * 4096 + i * 64 + n) :: x.badZ })))
  ∧ (∀ (s : State) (u k : Nat) (rest : List (Nat × Nat)) (c : Cursor) (h : Header) (i : Instr),
    let s0 : State := { s with picked := rest }
    s.picked = (u, k) :: rest → s0.eligible u k = true → (s.gang u).tainted = false → s0.nextBundle u k = .bundle c h [i] → isCopy i = false →
    s0.preAll { c with desc := [] } [i] (s0.currentCheck { c with desc := [] } [i]) none = none → s0.readsBad { c with desc := [] } [] i = true →
    step s = .next (s0.later (.uncorrectableErrorConsumed (s.gang u).group u 1)))
  ∧ (∀ (s : State) (c : Cursor) (desc : List Nat) (i : Instr) (o : Ty × Opd) (gd : Guard) (l r : Nat), o ∈ instrOpds i → r ∈ opdV o.1 o.2 →
    instrGuard i = some gd → l ∈ s.active c gd → r < 256 → l * 256 + r ∈ (s.gang c.gang).badV → s.readsBad c desc i = true)
  ∧ (∀ (s : State) (pa : Nat), (s.ctxs.map (·.1)).Nodup → (∀ e ∈ s.gangs, e.2.accs = []) → s.moves = [] →
    ∃ t, exec (.hbmRepairFailure pa) s = .next t ∧ pa / 65536 ∈ t.failed
      ∧ ∀ x ∈ s.mapsUnit (pa / 65536), (t.pageRec x.1 (x.2 * 65536)).st = .poisoned)

/-- WATCHDOG_EXPIRY (R370, R384): a lane set that has waited for the limit of its context parks its group on a fault of cause 7 at its own bundle, whose
DETAIL says what it waits for. -/
def Sys2Proof.Claims.WatchdogParksTheGroup : Prop :=
  ∀ (s : State) (u k e : Nat) (y : LaneSet), smFind ((s.gang u).slice k).sets e = some y → (s.gang u).live = true →
    ((s.groupOf u).st = .resident ∨ (s.groupOf u).st = .draining) →
    (s.ctx (s.gang u).ctx).limit ≤ (if ((s.gang u).slice k).cur = some e then (((s.gang u).part k).map (fun p => p.idle)).getD 0 else y.idle) →
    ∃ t f, exec (.watchdogExpiry u k e) s = .next t ∧ (t.groupOf u).st = .parked ∧ (t.groupOf u).fault = some f ∧ f.cause = 7 ∧ f.pc = y.pc
      ∧ f.detail % 256 = waitCode y.st ∧ f.detail / 256 = waitArg y.st % 2 ^ 56 ∧ t.mem = s.mem

/-- Uncorrectable errors, repair failures and the watchdog: `ErrorsParkOrRollBack`, `StorageErrorsMark`, `WatchdogParksTheGroup`. -/
def Obligations.ErrorsAndTheWatchdog : Prop :=
  Claims.ErrorsParkOrRollBack ∧ Claims.StorageErrorsMark ∧ Claims.WatchdogParksTheGroup

/-! The host's commands. -/

/-- A context command is well formed, may name its context, and reaches the hub (R274, R275): 64 bytes, with its operation in the low byte. -/
def Sys2Proof.Claims.ctxCommand (s : State) (op fn : Nat) (cmd : List Dword) : Prop :=
  let d := cmd.map (·.toNat)
  let x := s.ctx (fld (dw d 0) 16 6)
  cmd.length = 8 ∧ s.writeStage ≠ none ∧ s.writeStage ≠ some 0 ∧ dw d 0 % 256 = op ∧ ctxBad d = none ∧ (x.st = .free ∨ fn = 0 ∨ x.vf = fn)

/-- The context commands (R274 to R279, R289): CREATE makes a FREE number LIVE with what its descriptor says, SET changes what a running context may
change, SAVE stops the context for an area that is large enough for its gangs, those that wait for their granules too, KILL stops it and kills its groups, and DESTROY frees a context without
groups; each answers with status 0 or, for a save and a kill, later; in every state that R279 does not allow it each answers with status 1 and the
state, for a malformed command with status 2 and the byte, and for one of another function with status 11. -/
def Sys2Proof.Claims.ContextCommandsAct : Prop :=
  ∀ (s : State) (op fn : Nat) (cmd : List Dword), Claims.ctxCommand s op fn cmd →
    let d := cmd.map (·.toNat)
    let c := fld (dw d 0) 16 6
    let x := s.ctx c
    let desc := s.dws (dw d 1) 2
    let answers := fun (t : State) (st detail value : Nat) => t.stats = (dw d 5, detail * 2 ^ 32 + st, value) :: s.stats
    (op = 1 → x.st = .free → descBad true desc = none → (fn = 0 ∨ descVf desc = fn) →
        ∃ t, exec (.ctxCreate fn cmd) s = .next t ∧ answers t 0 0 0 ∧ (t.ctx c).st = .live ∧ (t.ctx c).root = descRoot desc
          ∧ (t.ctx c).vf = descVf desc ∧ (t.ctx c).queues = [] ∧ (t.ctx c).pages = [] ∧ t.gangs = s.gangs)
      ∧ (op = 2 → x.st = .live → descBad false desc = none →
        ∃ t, exec (.ctxSet fn cmd) s = .next t ∧ answers t 0 0 0 ∧ t.ctx c = x.tune desc ∧ (∀ k, k ≠ c → t.ctx k = s.ctx k) ∧ t.gangs = s.gangs)
      ∧ (op = 3 → x.st = .live →
        let s' := s.revertPlaced c
        (areaRoom d < s'.saveNeed c → ∃ t, exec (.ctxSave fn cmd) s = .next t ∧ answers t 3 0 (s'.saveNeed c) ∧ t.ctxs = s.ctxs ∧ t.gangs = s.gangs)
        ∧ (s'.saveNeed c ≤ areaRoom d → ∃ t, exec (.ctxSave fn cmd) s = .next t ∧ (t.ctx c).st = .stopping
            ∧ (t.ctx c).stop = some ⟨false, dw d 2, areaRoom d, 0, dw d 5, [], false⟩ ∧ t.stats = s.stats ∧ t.mem = s.mem))
      ∧ (op = 5 → x.st = .live → ∃ t, exec (.ctxKill fn cmd) s = .next t ∧ (t.ctx c).st = .stopping
          ∧ (∃ p, (t.ctx c).stop = some p ∧ p.kill = true ∧ p.statrec = dw d 5) ∧ (∀ g ∈ s.groupsOfCtx c, (t.group g).st = .draining))
      ∧ (op = 5 → x.st = .saving → ∀ p, x.stop = some p → ∃ t, exec (.ctxKill fn cmd) s = .next t
          ∧ (t.ctx c).stop = some { p with kills := p.kills ++ [dw d 5] } ∧ (t.ctx c).st = .saving ∧ t.stats = s.stats)
      ∧ (op = 6 → x.st = .live → s.groupsOfCtx c = [] → (s.ctxs.map (·.1)).Nodup →
        ∃ t, exec (.ctxDestroy fn cmd) s = .next t ∧ answers t 0 0 0 ∧ (t.ctx c).st = .free)
      ∧ (op = 6 → x.st = .live → s.groupsOfCtx c ≠ [] → exec (.ctxDestroy fn cmd) s = .next (s.status (dw d 5) 12 (s.groupsOfCtx c).length 0))
      ∧ (let state := match x.st with | .free => 0 | .live => 1 | .stopping => 2 | .saving => 3 | .restoring => 4
        let wrong := fun (i : Instr) => exec i s = .next (s.status (dw d 5) 1 state 0)
        (op = 1 → x.st ≠ .free → wrong (.ctxCreate fn cmd))
          ∧ (x.st ≠ .live → (op = 2 → wrong (.ctxSet fn cmd)) ∧ (op = 3 → wrong (.ctxSave fn cmd)) ∧ (op = 6 → wrong (.ctxDestroy fn cmd)))
          ∧ (op = 4 → x.st ≠ .free → x.st ≠ .live → wrong (.ctxRestore fn cmd))
          ∧ (op = 5 → (x.st = .free ∨ x.st = .restoring ∨ (x.st = .stopping ∧ ∃ p, x.stop = some p ∧ p.kill = true)) → wrong (.ctxKill fn cmd)))

/-- What ends a context command before it acts (R274, R275, R399): a command with a bad field gives status 2 and the byte of that field, and one of
a virtual function for another function's context status 11; neither changes anything but its status record. -/
def Sys2Proof.Claims.ContextCommandsRefused : Prop :=
  ∀ (s : State) (fn off : Nat) (cmd : List Dword),
    let d := cmd.map (·.toNat)
    let x := s.ctx (fld (dw d 0) 16 6)
    let name := fun (op : Nat) => match op with
      | 2 => Instr.ctxSet fn cmd | 3 => .ctxSave fn cmd | 4 => .ctxRestore fn cmd | 5 => .ctxKill fn cmd | 6 => .ctxDestroy fn cmd | _ => .ctxCreate fn cmd
    cmd.length = 8 → s.writeStage ≠ none → s.writeStage ≠ some 0 →
      (x.st ≠ .free → fn ≠ 0 → x.vf ≠ fn → exec (name (dw d 0 % 256)) s = .next (s.status (dw d 5) 11 0 0))
        ∧ ((x.st = .free ∨ fn = 0 ∨ x.vf = fn) → ctxBad d = some off → exec (name (dw d 0 % 256)) s = .next (s.status (dw d 5) 2 off 0))

/-- CTX_RESTORE (R279, R285): from an area without groups, which the checks pass and whose queues can be read, a FREE number becomes LIVE with the
area's queues, and the command answers with status 0 and the area's size. -/
def Sys2Proof.Claims.RestoresBringBack : Prop :=
  ∀ (s : State) (fn : Nat) (cmd : List Dword), Claims.ctxCommand s 4 fn cmd →
    let d := cmd.map (·.toNat)
    let c := fld (dw d 0) 16 6
    let p : Stop := ⟨false, dw d 2, areaRoom d, dw d 4, dw d 5, [], true⟩
    (s.ctx c).st = .free → (fn = 0 ∨ descVf (s.dws (p.area + 0x100) 2) = fn) → s.poison = [] → s.areaBad p = none →
    (∀ e ∈ s.gangs, e.2.ctx ≠ c) → (∀ e ∈ s.groups, e.2.ctx ≠ c) →
    let s1 := s.installCtx c p
    s1.groupImages p.area = [] → ∀ qs s2, s1.loadQueues c p (s1.keptFor p) [] [] = (some qs, s2) →
    ∃ t, exec (.ctxRestore fn cmd) s = .next t ∧ (t.ctx c).st = .live ∧ (t.ctx c).stop = none ∧ (t.ctx c).queues = qs
      ∧ t.stats.head? = some (dw d 5, 0, s.rdN (dw d 2) 8 / 2 ^ 32)

/-- GANG_STOP, CTX_STOP_COMPLETE and CTX_SAVE_AREA_WRITTEN (R279, R284, R288, R377): a gang with one part at a safe point and no tile open stops; a
context that stops for a save is SAVING once everything of it has stopped; a killed one with nothing left is FREE, with status 0; when the
area has been written the number is FREE, with status 0 and the size of the area, and an error makes the context LIVE again, with status 9. That
the hub keeps what the area has no place for is log entry 8 (DESIGN CHOICE). -/
def Sys2Proof.Claims.StopsComplete : Prop :=
  (∀ (s : State) (u : Nat) (p : Part), (s.ctx (s.gang u).ctx).st = .stopping → (∀ q, (s.ctx (s.gang u).ctx).stop = some q → q.kill = false) →
    (s.gang u).live = true → (s.gang u).parts = [p] → p.stop = none → (s.gang u).stopped = none → (s.groupOf u).depth = [] → s.safePoint u p = true →
    ∃ t, exec (.gangStop u) s = .next t ∧ (t.gang u).stopped = some (s.cycOf u) ∧ (t.gang u).flight = []
      ∧ (∀ q ∈ (t.gang u).parts, q.stop = some (s.cycOf u) ∧ q.slices = p.slices) ∧ t.mem = s.mem)
  ∧ (∀ (s : State) (c : Nat) (p : Stop), (s.ctx c).st = .stopping → (s.ctx c).stop = some p →
    (p.kill = false → s.ctxStopped c = true → ∃ t, exec (.ctxStopComplete c) s = .next t ∧ (t.ctx c).st = .saving ∧ t.mem = s.mem)
      ∧ (p.kill = false → s.ctxStopped c = false → exec (.ctxStopComplete c) s = .next s)
      ∧ (p.kill = true → s.groupsOfCtx c = [] → (∀ e ∈ (s.ctx c).queues, e.2.launches = []) → (s.ctxs.map (·.1)).Nodup →
        ∃ t, exec (.ctxStopComplete c) s = .next t ∧ (t.ctx c).st = .free ∧ t.stats = (p.statrec, 0, 0) :: s.stats))
  ∧ (∀ (s : State) (c : Nat) (p : Stop), (s.ctx c).st = .saving → (s.ctx c).stop = some p → p.kills = [] →
    ((∀ e ∈ (s.ctx c).queues, e.2.launches = []) → (s.ctxs.map (·.1)).Nodup →
        ∃ t, exec (.ctxSaveAreaWritten c none) s = .next t ∧ (t.ctx c).st = .free ∧ t.stats = (p.statrec, 0, (s.saveArea c).2) :: s.stats
          ∧ t.kept.length = s.kept.length + 1)
      ∧ (∀ off, (∀ e ∈ s.gangs, e.2.ctx ≠ c) → ∃ t, exec (.ctxSaveAreaWritten c (some off)) s = .next t ∧ (t.ctx c).st = .live
        ∧ (t.ctx c).stop = none ∧ t.stats = (p.statrec, off * 2 ^ 32 + 9, 0) :: s.stats ∧ t.gangs = s.gangs))

/-- Context commands, stops and restores: `ContextCommandsAct`, `ContextCommandsRefused`, `RestoresBringBack`, `StopsComplete`. -/
def Obligations.ContextEvents : Prop :=
  Claims.ContextCommandsAct ∧ Claims.ContextCommandsRefused ∧ Claims.RestoresBringBack ∧ Claims.StopsComplete

/-- A map command reaches the mapping agent of a LIVE context, well formed, with none before it under way, and no gang of the context (R340). -/
def Sys2Proof.Claims.mapCommand (s : State) (op fn : Nat) (cmd : List Dword) : Prop :=
  let d := cmd.map (·.toNat)
  let c := fld (dw d 0) 16 6
  cmd.length = 8 ∧ s.writeStage ≠ none ∧ dw d 0 % 256 = op ∧ s.foreign fn c = false ∧ mapBad d = none ∧ (s.ctx c).st = .live
    ∧ s.mapWait = [] ∧ s.mapFin = [] ∧ (∀ r ∈ s.proofq, r.ctx ≠ c) ∧ s.link.reqs = [] ∧ (∀ e ∈ s.gangs, e.2.ctx ≠ c)

/-- What ends a map command before it acts (R340, R399): with none before it under way, one of another function answers with status 11, one with a
bad field with status 2 and the byte of that field, and one of a context that is not LIVE with status 1; nothing else changes. -/
def Sys2Proof.Claims.MapCommandsRefused : Prop :=
  ∀ (s : State) (fn : Nat) (cmd : List Dword),
    let d := cmd.map (·.toNat)
    let c := fld (dw d 0) 16 6
    let name := fun (op : Nat) => match op with
      | 2 => Instr.mapUnmap fn cmd | 3 => .mapSetAttributes fn cmd | 4 => .mapProof fn cmd | 5 => .mapPin fn cmd | 6 => .mapUnpin fn cmd
      | 7 => .mapSpillArea fn cmd | _ => .mapMap fn cmd
    let ends := fun (st detail : Nat) => exec (name (dw d 0 % 256)) s = .next (s.status (dw d 6) st detail 0)
    cmd.length = 8 → s.writeStage ≠ none → s.mapWait = [] → s.mapFin = [] → (∀ r ∈ s.proofq, r.ctx ≠ c) →
      (s.foreign fn c = true → ends 11 0)
        ∧ (∀ off, s.foreign fn c = false → mapBad d = some off → ends 2 off)
        ∧ (s.foreign fn c = false → mapBad d = none → (s.ctx c).st ≠ .live → ends 1 0)

/-- The map commands (R283, R333, R340, R341): MAP gives every page of its range a record of its kind, or of a replica under RO, and answers with their
number; UNMAP leaves no page of its range a record and answers with how many had one; SET ATTRIBUTES changes the record of a page that has a
mapping; PIN and UNPIN set and clear the pinned mark; PROOF queues a request for the proofer; SPILL AREA takes the area while none of the old one
is used. W with RO, or WREV without it, answers status 4; one with RO or WREV where feature 11 is not accepted is not supported (R24), with a status
of the model's own (log entry 71, DESIGN CHOICE). What ends a command before it acts is in `MapCommandsRefused`. -/
def Obligations.MapCommandsAct : Prop :=
  Claims.MapCommandsRefused ∧ ∀ (s : State) (op fn : Nat) (cmd : List Dword), Claims.mapCommand s op fn cmd →
    let d := cmd.map (·.toNat)
    let c := fld (dw d 0) 16 6
    let va := dw d 1
    let n := dw d 2 / 2 ^ 32
    let len := n * mapSize d
    let bit := fun (k : Nat) => (dw d 4).testBit k
    let supported := bit 8 = false ∧ bit 9 = false ∨ s.feature 11 = true
    let inside := fun (p : Nat) => va / 65536 ≤ p ∧ p < (va + len) / 65536
    let answers := fun (t : State) (st value : Nat) => t.stats = (dw d 6, st, value) :: s.stats ∧ t.mapWait = [] ∧ t.mapFin = []
    let count := s.mappedIn c va (mapSize d) n
    let bad := (bit 7 && bit 8) || (bit 9 && !(bit 8))
    (op = 1 → supported → bad = false → s.rangeBusy c va len = false → ∀ s1, s.mapRange c d = some s1 → n ≠ 0 →
        ∃ t, exec (.mapMap fn cmd) s = .next t ∧ answers t 0 n
          ∧ (∀ p, inside p → (t.pageRec c (p * 65536)).st = (if bit 8 then .replica else kindState (mapKind d)) ∧ (t.pageRec c (p * 65536)).wrev = bit 9
            ∧ (t.pageRec c (p * 65536)).pinned = false) ∧ t.gangs = s.gangs)
      ∧ (op = 2 → s.rangeBusy c va len = false → n ≠ 0 → ∃ t, exec (.mapUnmap fn cmd) s = .next t ∧ answers t 0 count
          ∧ (∀ p, inside p → (t.pageRec c (p * 65536)).st = .unmapped) ∧ t.gangs = s.gangs)
      ∧ (op = 3 → supported → bad = false → s.rangeBusy c va len = false → n = 1 → mapSize d = 65536 → s.replicasIn c va len = [] →
        (smFind (s.ctx c).pages (va / 65536)).isSome = true → ∀ e, s.walk c va = .leaf e va 65536 →
        ∃ t, exec (.mapSetAttributes fn cmd) s = .next t ∧ answers t 0 count
          ∧ (t.pageRec c va).st = (if bit 8 then .replica else kindState (entKind e)) ∧ (t.pageRec c va).wrev = bit 9 ∧ t.gangs = s.gangs)
      ∧ (¬ supported → ∃ st, 12 < st ∧ st < 256 ∧ (op = 1 → ∃ t, exec (.mapMap fn cmd) s = .next t ∧ answers t st 0 ∧ t.ctxs = s.ctxs)
          ∧ (op = 3 → ∃ t, exec (.mapSetAttributes fn cmd) s = .next t ∧ answers t st 0 ∧ t.ctxs = s.ctxs))
      ∧ (supported → bad = true → s.rangeBusy c va len = false → (op = 1 → ∃ t, exec (.mapMap fn cmd) s = .next t ∧ answers t 4 0 ∧ t.ctxs = s.ctxs)
          ∧ (op = 3 → ∃ t, exec (.mapSetAttributes fn cmd) s = .next t ∧ answers t 4 0 ∧ t.ctxs = s.ctxs))
      ∧ (∀ on : Bool, op = (if on then 5 else 6) → s.rangeBusy c va len = false →
        ∃ t, exec (if on then Instr.mapPin fn cmd else .mapUnpin fn cmd) s = .next t ∧ answers t 0 count
          ∧ (∀ p, inside p → (smFind (s.ctx c).pages p).isSome = true → (t.pageRec c (p * 65536)).pinned = on) ∧ t.gangs = s.gangs)
      ∧ (op = 4 → ∃ t, exec (.mapProof fn cmd) s = .next t ∧ t.proofq = s.proofq ++ [⟨c, va, dw d 5, dw d 6, false⟩] ∧ t.mapWait = []
          ∧ t.stats = s.stats ∧ t.mem = s.mem)
      ∧ (op = 7 → (s.ctx c).spillUsed = [] → ∃ t, exec (.mapSpillArea fn cmd) s = .next t ∧ answers t 0 n ∧ (t.ctx c).spill = some (dw d 3, n)
          ∧ t.gangs = s.gangs)
      ∧ (op = 7 → (s.ctx c).spillUsed ≠ [] → ∃ t, exec (.mapSpillArea fn cmd) s = .next t ∧ answers t 4 0 ∧ t.ctxs = s.ctxs)

/-! The proofer and the pacer. -/

/-- PROOFER_SCAN (R109 to R111, R421, R423): when the data of the oldest request can be read, it leaves the queue, its finding of 32 bytes is written,
and it answers with status 0 and the number of pages for a pass and with status 5 otherwise; a range that passes is proofed, and a page of
another proof class in it is refused with reason 0x41 and nothing marked. That the record's address is physical is the model's reading
(log entry 58). -/
def Sys2Proof.Claims.ProofsAreJudged : Prop :=
  (∀ (s s1 : State) (r : ProofReq) (rest : List ProofReq) (f : Finding), s.proofq = r :: rest → s.proofStep r = (some f, s1) → r.safe = false →
    r.recordPa + 32 ≤ Config.hbmBytes → ∃ t, exec .prooferScan s = .next t ∧ t.proofq = rest
      ∧ t.stats = (r.statrec, if f.status = 0 then (0, f.pages) else (5, 0)) :: s1.stats ∧ f.bytes.length = 32
      ∧ (r.statrec + 16 ≤ r.recordPa ∨ r.recordPa + 32 ≤ r.statrec → Memory.wf s1.mem = true → t.rd r.recordPa 32 = f.bytes))
  ∧ (∀ (s : State) (c : Nat) (d : List Nat) (code : List Byte),
    let v := fld (dw d 3) 39 9
    let z := fld (dw d 3) 34 5
    let b := fld (dw d 3) 29 5
    let pen := (dw d 3).testBit 19
    let p : Proof := ⟨c, dw d 1, code.length, v, z, b, pen, s.dev.feat, [], [], []⟩
    let r := s.judgeCode c d code
    (∀ va, s.classClash c (dw d 1) code.length p = some va → r.1.status = 1 ∧ r.1.reason = 0x41 ∧ r.2 = s)
      ∧ (s.classClash c (dw d 1) code.length p = none → (scanCode v z b pen s.dev.feat code).1.status ≠ 0 →
        r = ((scanCode v z b pen s.dev.feat code).1, s))
      ∧ (s.classClash c (dw d 1) code.length p = none → (scanCode v z b pen s.dev.feat code).1.status = 0 →
        r.1.status = 0 ∧ r.1.pages = (s.codePages c (dw d 1) code.length).length ∧ ∃ q ∈ r.2.proofs, q.ctx = c ∧ q.base = dw d 1
          ∧ q.len = code.length ∧ q.heads = (scanCode v z b pen s.dev.feat code).2 ∧ q.vregs = v ∧ q.ztiles = z ∧ q.barriers = b ∧ q.pen = pen))

/-- PAGE_MOVE_COMPLETE (R283, R343): a move waits for what still uses the old translation; a move under way of a local page is over once its data are copied: the page is on its new die or in the spill area, and
the bytes of its new place are those that it had; a move from the host waits for the page to be present there. How the model names host
memory, and that spilled pages count as present in it, is log entry 7 (DESIGN CHOICE). -/
def Sys2Proof.Claims.PageMovesComplete : Prop :=
  (∀ (s : State) (m : Move), s.moves = [m] → m.began = true → entKind m.old = 0 → m.auto = true → entRo m.old = false → s.mapWait = [] → s.mapFin = [] →
    (∀ e ∈ s.gangs, e.2.accs = []) → s.link.reqs = [] → (smFind (s.ctx m.ctx).pages m.vpage).isSome = true →
    ∃ t, exec (.pageMoveComplete m.ctx m.vpage) s = .next t ∧ t.moves = []
      ∧ (t.pageRec m.ctx (m.vpage * 65536)).st = (if m.out then .host else .resident) ∧ (t.pageRec m.ctx (m.vpage * 65536)).owned = !m.out)
  ∧ (∀ (s : State) (m : Move), Memory.wf s.mem = true → Memory.wf s.host = true →
    let t := s.moveLocal m
    (m.out = false → t.rd m.dst 65536 = s.rd (entAddr m.old) 65536 ∧ t.host = s.host
        ∧ ∀ a, (a < m.dst ∨ m.dst + 65536 ≤ a) → Memory.read t.mem a = Memory.read s.mem a)
      ∧ (m.out = true → t.hostRd m.ctx m.dst 65536 = s.rd (entAddr m.old) 65536 ∧ t.mem = s.mem ∧ t.hostPresent m.ctx m.dst = true))
  ∧ (∀ (s : State) (m : Move), s.moves = [m] → m.began = true → entKind m.old = 2 → s.hostPresent m.ctx (entAddr m.old) = false →
    s.oldUse m.ctx (m.vpage * 65536) 65536 m.upTo = false →
    exec (.pageMoveComplete m.ctx m.vpage) s = .next (s.askHost m.ctx (m.vpage * 65536)))
  ∧ (∀ (s : State) (m : Move), s.moves = [m] → m.began = true → s.oldUse m.ctx (m.vpage * 65536) 65536 m.upTo = true →
    exec (.pageMoveComplete m.ctx m.vpage) s = .next s)

/-- MARK_PACER_ANSWER (R245, R346, R347): the pacer takes the lap as the leading one where it is, and follows it; a lap that misses nothing lets the
MARK go on, a `.wait` that misses blocks the part for the lap, and a plain one that misses traps with cause 2 once its record is written. -/
def Sys2Proof.Claims.MarksAreAnswered : Prop :=
  ∀ (s : State) (u k lap : Nat) (w : Bool) (p : Part), (s.gang u).live = true → (s.gang u).stopped = none →
    ((s.groupOf u).st = .resident ∨ (s.groupOf u).st = .draining) →
    let x := s.groupOf u
    let s1 := s.wakeSets u (s.cycOf u + 1) (fun _ y => match y.st with
      | .mark n => (s.lapAnswer x.ctx x.q x.seq n).isNone
      | _ => false)
    (s1.gang u).part k = some p → p.asks = some (lap, w) →
    let s2 := (s1.modLaunch x.ctx x.q x.seq (fun l => { l with lead := max l.lead lap })).pace x.ctx x.q x.seq
    let pc := (s.gang u).pcOf p.slices
    (s2.lapAnswer x.ctx x.q x.seq lap = none →
        exec (.markPacerAnswer u k) s = .next (s2.modGang u (fun g => g.setMark k [.marked lap])))
      ∧ (∀ miss, s2.lapAnswer x.ctx x.q x.seq lap = some miss →
        (w = true → exec (.markPacerAnswer u k) s = .next (s2.modGang u (fun g => (g.setMark k []).block p.slices (.mark lap) pc pc)))
          ∧ (w = false → ∀ s3, s2.missRecord x lap miss = (true, s3) → exec (.markPacerAnswer u k) s
            = .next ((s3.modGang u (fun g => g.setMark k [])).trap u p.slices 2 lap pc pc (s3.cycOf u + 1))))
      ∧ ((s.launch x.ctx x.q x.seq).ttOn = false → s2.lapAnswer x.ctx x.q x.seq lap = none)

/-- PLACEMENT_COUNTER_HALVING (R348): every count of every context is halved, rounded down. -/
def Sys2Proof.Claims.CountersAreHalved : Prop :=
  ∀ s : State, (∀ e ∈ s.ctxs, smWf 0 e.2.regions = true) → ∃ t, exec .placementCounterHalving s = .next t
    ∧ (∀ c r d, (t.ctx c).count r d = (s.ctx c).count r d / 2) ∧ t.gangs = s.gangs ∧ t.groups = s.groups

/-- Proofs, page moves, MARK answers and the counters: `ProofsAreJudged`, `PageMovesComplete`, `MarksAreAnswered`, `CountersAreHalved`. -/
def Obligations.ProoferAndPacer : Prop :=
  Claims.ProofsAreJudged ∧ Claims.PageMovesComplete ∧ Claims.MarksAreAnswered ∧ Claims.CountersAreHalved

/-! Power and heat. -/

/-- Rails and clocks (R385): a cluster on the high rail that has issued nothing for 10 µs, with no change under way and forced to neither rail, begins to
change to the low rail, where its period is 56/42 ns; the change is over 20 ns later. -/
def Sys2Proof.Claims.RailsChange : Prop :=
  ∀ (s : State) (c : Nat), (smFind s.clusters c).isSome = true →
    let k := s.cluster c
    (k.high = true → k.change = none → k.hot100 = false → k.rhold = none → k.lastIssue + 420000 ≤ s.time →
        ∃ t, exec (.clusterIdleTimeout c) s = .next t ∧ (t.cluster c).high = false ∧ (t.cluster c).change = some (s.time + 840)
          ∧ (t.cluster c).period = 56 ∧ (∀ j, j ≠ c → t.cluster j = s.cluster j) ∧ t.gangs = s.gangs ∧ t.mem = s.mem)
      ∧ (s.time < k.lastIssue + 420000 → exec (.clusterIdleTimeout c) s = .next s)
      ∧ (∀ t0, k.change = some t0 → t0 ≤ s.time → ∃ t, exec (.railChangeComplete c) s = .next t ∧ t.cluster c = { k with change := none }
          ∧ t.gangs = s.gangs ∧ t.mem = s.mem)

/-- CURRENT_GRANT (R255, R387): the first waiting PWRACQ of a die is granted once it adds nothing or fits in the die's budget: the gang takes the class,
and no lane set waits for that request any more; one that does not fit waits. -/
def Sys2Proof.Claims.CurrentIsGranted : Prop :=
  ∀ (s : State) (d : Nat) (r : PwrReq) (rest : List PwrReq), (s.die d).pwrq = r :: rest → (smFind s.gangs r.gang).isSome = true →
    let core := (s.gang r.gang).core
    let raised := chargeWith (s.classesOn core) r.gang r.want
    ((raised ≤ s.coreCharge core ∨ s.dieCharge (dieOf core) + raised ≤ (s.die (dieOf core)).budget + s.coreCharge core) →
        ∃ t, exec (.currentGrant d) s = .next t ∧ (t.die d).pwrq = rest ∧ (t.gang r.gang).curcls = r.want ∧ (t.gang r.gang).inReg = true
          ∧ (∀ k, ∀ e ∈ ((t.gang r.gang).slice k).sets, ∀ n, e.2.st ≠ .pwr n r.id) ∧ t.mem = s.mem)
      ∧ (s.coreCharge core < raised → (s.die (dieOf core)).budget + s.coreCharge core < s.dieCharge (dieOf core) + raised →
        exec (.currentGrant d) s = .next s)

/-- Leases (R256, R385, R391): the oldest request of a die, once it may be granted, gives its gang a lease of the time asked, its part goes on, and its
cluster has the clock of the lease; an event of the same cycle that may break a condition comes first; a lease whose time is over ends. That
requests are granted strictly in their order of arrival is log entry 45 (DEDUCED). -/
def Sys2Proof.Claims.LeasesRunTheirTime : Prop :=
  (∀ (s : State) (d : Nat) (r : PwrReq), (s.die d).leaseq = [r] → (s.gang r.gang).live = true → r.want ≠ 0 →
    let c := clusterOf (s.gang r.gang).core
    (smFind s.clusters c).isSome = true →
    (s.mayLease c = true → s.agenda.any endsLeases = false → ∃ t, exec (.leaseGrant d) s = .next t ∧ (t.die d).leaseq = [] ∧ (t.gang r.gang).leaseEnd = some (s.time + r.want * 42000)
        ∧ (∀ p ∈ (t.gang r.gang).parts, .sprint r.id ∉ p.holds ∧ .lease r.id ∉ p.holds) ∧ (t.cluster c).sprint = true ∧ t.mem = s.mem)
      ∧ (s.mayLease c = false → s.agenda.any endsLeases = false → exec (.leaseGrant d) s = .next s)
      ∧ (s.agenda.any endsLeases = true → exec (.leaseGrant d) s = .next { s with agenda := s.agenda ++ [.leaseGrant d] }))
  ∧ (∀ (s : State) (u t0 : Nat), (s.gang u).leaseEnd = some t0 →
    (t0 ≤ s.time → ∃ t, exec (.leaseExpiry u) s = .next t ∧ (t.gang u).leaseEnd = none
        ∧ (∀ v, v ≠ u → t.gang v = s.gang v) ∧ t.mem = s.mem) ∧ (s.time < t0 → exec (.leaseExpiry u) s = .next s))

/-- TIMING_REPLAY and REPLAY_HOLD_EXPIRY (R382): a core that replays spends two further cycles of its cluster, one at half its clock, on the repeat, and
no other core does; the sixteenth replay within 1 ms on a cluster that is not yet on the high rail without a lease ends its leases and holds it on that
rail for 100 ms, after which the hold goes. -/
def Sys2Proof.Claims.ReplaysHoldTheRail : Prop :=
  ∀ (s : State) (core : Nat), (smFind s.clusters (clusterOf core)).isSome = true →
    let c := clusterOf core
    let k := s.cluster c
    let n := (k.replays.filter (fun t => s.time < t + 42000000)).length + 1
    let late := fun (t : State) => (t.cluster c).edge = k.edge ∧ (t.core core).again.length = (s.core core).again.length + 2
      ∧ ∀ j, j ≠ core → t.core j = s.core j
    (n < 16 → ∃ t, exec (.timingReplay core) s = .next t ∧ late t ∧ (t.cluster c).replays.length = n
        ∧ (t.cluster c).rhold = k.rhold ∧ (t.cluster c).high = k.high ∧ t.gangs = s.gangs ∧ t.mem = s.mem)
      ∧ (16 ≤ n → (k.high = false ∨ s.leased c = true) → k.hot100 = false → ∃ t, exec (.timingReplay core) s = .next t
        ∧ late t ∧ (t.cluster c).rhold = some (s.time + 4200000000) ∧ (t.cluster c).high = true
        ∧ (t.cluster c).sprint = false ∧ (t.cluster c).replays = [] ∧ (∀ e ∈ t.gangs, clusterOf e.2.core = c → e.2.leaseEnd = none) ∧ t.mem = s.mem)
      ∧ (∀ t0, k.rhold = some t0 → t0 ≤ s.time → ∃ t, exec (.replayHoldExpiry c) s = .next t ∧ t.cluster c = { k with rhold := none }
        ∧ t.gangs = s.gangs ∧ t.mem = s.mem)

/-- Rails, current grants, leases and replays: `RailsChange`, `CurrentIsGranted`, `LeasesRunTheirTime`, `ReplaysHoldTheRail`. -/
def Obligations.RailsAndLeases : Prop :=
  Claims.RailsChange ∧ Claims.CurrentIsGranted ∧ Claims.LeasesRunTheirTime ∧ Claims.ReplaysHoldTheRail

/-- Thermal readings (R388, R392), on a sensor that is not suspect, has read nothing yet and has no neighbour that has: a reading from −20 to 109 is
taken as it is, and each threshold of 90, 100 and 105 °C holds from it on, until 5 °C below; a leased cluster loses its leases at 90; one out of
range makes the sensor suspect and counts as 105; one from 110 to 150 removes power from the package. That a sensor without a reading is no
neighbour is log entry 31 (DESIGN CHOICE), where the hysteresis ends is log entry 45 (DEDUCED), and what is left without power is log
entry 46 (DEDUCED). -/
def Sys2Proof.Claims.ThermalReadingsAct : Prop :=
  ∀ (s : State) (c : Nat) (raw : Int), (smFind s.clusters c).isSome = true →
    let k := s.cluster c
    k.tSusp = false → k.tHist = [] → (∀ j ∈ ringOf c, (s.cluster j).tHist = []) →
    (-20 ≤ raw → raw < 110 → ∃ t, exec (.temperatureReading c raw) s = .next t ∧ (t.cluster c).tRaw = raw ∧ (t.cluster c).tEff = raw
        ∧ (t.cluster c).tSusp = false ∧ ((t.cluster c).hot90 = true ↔ 90 ≤ raw ∨ (k.hot90 = true ∧ 85 ≤ raw))
        ∧ ((t.cluster c).hot100 = true ↔ 100 ≤ raw ∨ (k.hot100 = true ∧ 95 ≤ raw))
        ∧ ((t.cluster c).hot105 = true ↔ 105 ≤ raw ∨ (k.hot105 = true ∧ 100 ≤ raw))
        ∧ (90 ≤ raw → ∀ e ∈ t.gangs, clusterOf e.2.core = c → e.2.leaseEnd = none) ∧ t.mem = s.mem)
      ∧ ((raw < -20 ∨ 150 < raw) → ∃ t, exec (.temperatureReading c raw) s = .next t ∧ (t.cluster c).tRaw = raw ∧ (t.cluster c).tEff = 105
        ∧ (t.cluster c).tSusp = true ∧ (t.cluster c).hot105 = true ∧ (t.cluster c).high = false ∧ t.mem = s.mem)
      ∧ (110 ≤ raw → raw ≤ 150 → ∃ t, exec (.temperatureReading c raw) s = .next t ∧ t.dev.powered = false ∧ t.dev.stage = 0 ∧ t.gangs = []
        ∧ t.groups = [] ∧ t.mem = [] ∧ t.host = s.host ∧ t.log = .shutdown c :: s.log)

/-- Current readings and the end of suspicion (R388, R392): a reading from 0 to 400 A of a sensor that is not suspect and has no reading or neighbour's
reading to disagree with is taken as it is, in units of 0.1 A, and the ceiling of 130 A is exceeded above it and until it is below 120 A; one
out of range makes the sensor suspect and counts as 130 A; a sensor is no longer suspect after 10 ms without a case, and its raw reading
is the effective one again; one whose standing reading is out of range stays suspect, and never removes power. When a standing reading is
judged again is log entry 31 (DESIGN CHOICE). -/
def Sys2Proof.Claims.CurrentReadingsAct : Prop :=
  (∀ (s : State) (c : Nat) (raw : Int), (smFind s.clusters c).isSome = true →
    let k := s.cluster c
    k.iSusp = false → k.iHist = [] → (∀ j ∈ ringOf c, (s.cluster j).iHist = []) →
    (0 ≤ raw → raw ≤ 4000 → ∃ t, exec (.currentReading c raw) s = .next t ∧ (t.cluster c).iRaw = raw ∧ (t.cluster c).iEff = raw
        ∧ (t.cluster c).iSusp = false ∧ ((t.cluster c).overI = true ↔ 1300 < raw ∨ (k.overI = true ∧ 1200 ≤ raw)) ∧ t.gangs = s.gangs ∧ t.mem = s.mem)
      ∧ ((raw < 0 ∨ 4000 < raw) → ∃ t, exec (.currentReading c raw) s = .next t ∧ (t.cluster c).iRaw = raw ∧ (t.cluster c).iEff = 1300
        ∧ (t.cluster c).iSusp = true ∧ t.gangs = s.gangs ∧ t.mem = s.mem))
  ∧ (∀ (s : State) (c : Nat), (smFind s.clusters c).isSome = true →
    let k := s.cluster c
    ((k.tRaw < -20 ∨ 150 < k.tRaw) → k.tSusp = true → ∃ t, exec (.sensorSuspectClear c true) s = .next t ∧ (t.cluster c).tSusp = true
        ∧ t.dev = s.dev ∧ t.mem = s.mem)
      ∧ (k.tSusp = true → k.tHeld = false → k.tSince + 420000000 ≤ s.time → -20 ≤ k.tRaw → k.tRaw < 110 →
        (∀ j ∈ ringOf c, (s.cluster j).tHist = []) → ∃ t, exec (.sensorSuspectClear c true) s = .next t
        ∧ (t.cluster c).tSusp = false ∧ (t.cluster c).tEff = k.tRaw ∧ ((t.cluster c).hot90 = true ↔ 90 ≤ k.tRaw ∨ (k.hot90 = true ∧ 85 ≤ k.tRaw))
        ∧ ((t.cluster c).hot100 = true ↔ 100 ≤ k.tRaw ∨ (k.hot100 = true ∧ 95 ≤ k.tRaw))
        ∧ ((t.cluster c).hot105 = true ↔ 105 ≤ k.tRaw ∨ (k.hot105 = true ∧ 100 ≤ k.tRaw)) ∧ t.mem = s.mem)
      ∧ (k.iSusp = true → k.iHeld = false → k.iSince + 420000000 ≤ s.time → 0 ≤ k.iRaw → k.iRaw ≤ 4000 →
        (∀ j ∈ ringOf c, (s.cluster j).iHist = []) → ∃ t, exec (.sensorSuspectClear c false) s = .next t
        ∧ (t.cluster c).iSusp = false ∧ (t.cluster c).iEff = k.iRaw ∧ ((t.cluster c).overI = true ↔ 1300 < k.iRaw ∨ (k.overI = true ∧ 1200 ≤ k.iRaw))
        ∧ t.gangs = s.gangs ∧ t.mem = s.mem))

/-- ENERGY_INTERVAL and HBM_IDLE_TIMEOUT (R308): a launch that alone occupies slots of a cluster gets all its energy of the interval; a stack without an
access for 1 ms enters self-refresh. -/
def Sys2Proof.Claims.EnergyIsShared : Prop :=
  (∀ (s : State) (c energy a q n : Nat), s.launchesOn (fun core => clusterOf core = c) = [(a, q, n)] →
    (smFind (s.queue a q).launches n).isSome = true →
    (∃ e ∈ s.gangs, s.holdsSlot e.1 e.2 = true ∧ clusterOf e.2.core = c ∧ (s.group e.2.group).ctx = a ∧ (s.group e.2.group).q = q ∧ (s.group e.2.group).seq = n) →
    let l := s.launch a q n
    ∃ t, exec (.energyInterval c energy) s = .next t ∧ t.gangs = s.gangs ∧ t.mem = s.mem
      ∧ (((t.launch a q n).energy.1 : Rat) / ((t.launch a q n).energy.2 : Rat)) = (l.energy.1 : Rat) / (max 1 l.energy.2 : Nat) + (energy : Rat))
  ∧ (∀ (s : State) (k : Nat), ((smFind s.hbm k).getD (0, false)).1 + 42000000 ≤ s.time →
    ∃ t, exec (.hbmIdleTimeout k) s = .next t ∧ smFind t.hbm k = some (((smFind s.hbm k).getD (0, false)).1, true)
      ∧ (∀ j, j ≠ k → smFind t.hbm j = smFind s.hbm j) ∧ t.mem = s.mem ∧ t.gangs = s.gangs)

/-- Sensor readings, energy and idle stacks: `ThermalReadingsAct`, `CurrentReadingsAct`, `EnergyIsShared`. -/
def Obligations.ReadingsAndEnergy : Prop :=
  Claims.ThermalReadingsAct ∧ Claims.CurrentReadingsAct ∧ Claims.EnergyIsShared

/-! Start-up and the host's registers. -/

/-- Start (R389, R393 to R396, R400): a starter image that verifies begins stage 0 with time from 0 and reconstructs the identity
key from flash's helper data, ERR being 6 without one; one that does not leaves ERR at 1. Stage 1 begins with the records' masks, budgets and repairs
once all verify and no safe kernel runs. A record that does not verify gives ERR 2, one older than its counter ERR 3, a unit map without
four masks of 12 ones ERR 4, each with its type as DETAIL, and a stack that does not train ERR 5 with its number, and stage 0 stays. When
the key is made, that stage 1 goes on under ERR 6, and that a missing record enters nothing are log entry 85 (DEDUCED). -/
def Sys2Proof.Claims.PowerGoodAndStageOne : Prop :=
  (∀ s : State, s.dev.powered = false → s.dev.err ≠ 1 →
    (∃ t, exec (.powerGood true) s = .next t ∧ t.dev.powered = true ∧ t.dev.stage = 0 ∧ t.dev.t0 = s.time
        ∧ (t.dev.identity = true ∧ t.dev.err = 0 ∨ t.dev.identity = false ∧ t.dev.err = 6)
        ∧ t.dev = { s.dev with powered := true, stage := 0, t0 := s.time, changed := t.dev.changed, identity := t.dev.identity, err := t.dev.err }
        ∧ t.mem = s.mem ∧ t.host = s.host ∧ t.link = s.link)
      ∧ exec (.powerGood false) s = .next { s with dev := { s.dev with err := 1 } })
  ∧ (∀ (s : State) (b : BootResult) (pre post : List SignedRecord) (r : SignedRecord), s.dev.powered = true → s.dev.stage = 0 →
    (s.dev.err = 0 ∨ s.dev.err = 6) →
    let counter := s.dev.counters.getD (r.kind.code - 1) 0
    let good := fun (x : SignedRecord) => x.signed = true ∧ s.dev.counters.getD (x.kind.code - 1) 0 ≤ x.version
      ∧ (x.kind = .unitMap → x.content.length = 4 ∧ ∀ m ∈ x.content, m < 8192 ∧ ((List.range 13).filter (fun i => m.testBit i)).length = 12)
    let fails := fun (e n : Nat) => exec (.stage1Entry b) s = .next { s with dev := { s.dev with err := e, detail := n, boot := none } }
    (b.records = pre ++ r :: post → (∀ x ∈ pre, good x) →
        (r.signed = false → fails 2 r.kind.code) ∧ (r.signed = true → r.version < counter → fails 3 r.kind.code)
          ∧ (r.signed = true → counter ≤ r.version → ¬ good r → fails 4 1))
      ∧ ((∀ x ∈ b.records, good x) → (∀ k, b.untrained = some k → fails 5 k.val)
        ∧ (b.untrained = none → (∀ k ∈ [RecordKind.unitMap, .trims] ++ (List.finRange 8).map RecordKind.repair, ∃ x ∈ b.records, x.kind = k) →
          (s.dev.safeState = 1 → exec (.stage1Entry b) s = .next { s with dev := { s.dev with boot := some b } })
            ∧ (s.dev.safeState ≠ 1 → ∃ t, exec (.stage1Entry b) s = .next t ∧ t.dev.stage = 1 ∧ t.dev.err = s.dev.err ∧ t.dev.boot = none
              ∧ (∀ x ∈ b.records, (∀ y ∈ b.records, y.kind = x.kind → y = x) →
                  (x.kind = .unitMap → t.dev.masks = x.content)
                    ∧ (x.kind = .trims → t.dev.records = x.content ∧ ∀ d, (smFind s.dies d).isSome = true → (t.die d).budget = x.content.getD d 0)
                    ∧ ∀ k : Fin 8, x.kind = .repair k → smFind t.dev.repairs k.val = some x.content)
              ∧ t.mem = s.mem ∧ t.gangs = s.gangs))))

/-- JOIN (R404): at stage 1 or later (in the cycle of a change of stage, by the stage before it, R393) and before GO, a write whose PLANES is at most
5 takes PKGID, PLANES and GO, and GO counts the incarnation up; once every plane has a usable port, INCANN is sent on every plane to each other package
that it has a usable port for, and the stage is 2. -/
def Sys2Proof.Claims.JoiningTheDomain : Prop :=
  (∀ (s : State) (v : Dword), s.writeStage ≠ none → s.writeStage ≠ some 0 → s.dev.go = false → fld v.toNat 16 3 ≤ 5 →
    ∃ t, exec (.joinWrite v) s = .next t ∧ t.dev = { s.dev with pkgid := fld v.toNat 0 9, planes := fld v.toNat 16 3, go := v.toNat.testBit 31 }
      ∧ t.link = { s.link with inc := if v.toNat.testBit 31 then (s.link.inc + 1) % 2 ^ 32 else s.link.inc } ∧ t.mem = s.mem ∧ t.gangs = s.gangs)
  ∧ (∀ (s : State) (v : Dword), (s.writeStage = none ∨ s.writeStage = some 0 ∨ s.dev.go = true ∨ 6 ≤ fld v.toNat 16 3) → exec (.joinWrite v) s = .next s)
  ∧ (∀ s : State, (s.dev.changed = none → s.writeStage = if s.dev.powered then some s.dev.stage else none)
    ∧ (∀ k was, s.dev.changed = some (k, was) → s.writeStage = if k = s.hubCycle then was else if s.dev.powered then some s.dev.stage else none))
  ∧ (∀ s : State, s.dev.stage = 1 → s.dev.go = true →
    ((∃ p < 2 ^ s.dev.planes, ∀ k < 32, k % 2 ^ s.dev.planes = p → (s.port k).st.usable = false) → exec .joinComplete s = .next s)
      ∧ ((∀ p < 2 ^ s.dev.planes, ∃ k < 32, k % 2 ^ s.dev.planes = p ∧ (s.port k).st.usable = true) →
        ∃ t, exec .joinComplete s = .next t ∧ t.dev = { s.dev with powered := true, stage := 2, changed := some (s.hubCycle, s.writeStage) }
          ∧ (∀ d < 512, d ≠ s.dev.pkgid → ∀ k < 32, s.portUsable d k = true → ∃ j x, (j, .incann, x) ∈ t.link.sentMsgs
            ∧ j % 2 ^ s.dev.planes = k % 2 ^ s.dev.planes ∧ s.portUsable d j = true ∧ x.dstPkg = d ∧ x.srcInc = s.link.inc ∧ x.srcPkg = s.dev.pkgid)
          ∧ t.link.peers = s.link.peers ∧ t.mem = s.mem))

/-- Registers (R290, R357, R362, R366, R389, R401, R402): PORTEN starts a disabled port and disables one whose bit is 0; DIECAP stores at most the
record's budget; any bit of STALE clears it; EXPBASE takes an aligned address; a queue's class, which a group resident since the same
cycle takes too (R297), a command outside R294's list, which sets CMDERR, and in DISABLED its buffer and its fault base, take an aligned value;
an access of another size changes nothing (log entry 47, DEDUCED); an aligned read of 4 or 8 bytes of BAR0 gives the bytes addressed; a
host's write at the offsets of BAR2 (R290, R399) is the write there (log entry 88, DEDUCED); SPDM is answered
with FEATACPT for block 6, with 1.3 for the version, with Ed448 and SHAKE256 for the algorithms, and with an error where there is no identity key
(R394, R401; the other answers are log entry 30, DESIGN CHOICE). The queue processors' cycles are log entry 76 (DESIGN CHOICE). -/
def Sys2Proof.Claims.RegistersTakeTheirWrites : Prop :=
  (∀ (s : State) (v : Dword) (k : Nat), s.writeStage ≠ none → k < 32 → ∃ t, exec (.portenWrite v) s = .next t ∧ t.dev.porten = v.toNat % 2 ^ 32
      ∧ (v.toNat.testBit k = true → (s.port k).st = .disabled → (t.port k).st = .training)
      ∧ (v.toNat.testBit k = true → (s.port k).st ≠ .disabled → (t.port k).st = (s.port k).st)
      ∧ (v.toNat.testBit k = false → (t.port k).st = .disabled) ∧ t.mem = s.mem ∧ t.gangs = s.gangs)
  ∧ (∀ (s : State) (d : Nat) (v : Dword), s.writeStage ≠ none → (smFind s.dies d).isSome = true →
    ∃ t, exec (.diecapWrite d v) s = .next t ∧ t.die d = { s.die d with budget := min (v.toNat % 2 ^ 32) (s.dev.records.getD d 0) }
      ∧ (∀ e, e ≠ d → t.die e = s.die e) ∧ t.mem = s.mem ∧ t.gangs = s.gangs)
  ∧ (∀ (s : State) (p : Nat) (v : Dword), fld v.toNat 16 16 ≠ 0 → (smFind s.link.peers p).isSome = true →
    ∃ t, exec (.peerstatStaleClear p v) s = .next t ∧ t.peer p = { s.peer p with stale := 0 } ∧ (∀ q, q ≠ p → t.peer q = s.peer q) ∧ t.mem = s.mem)
  ∧ (∀ (s : State) (v : Dword), s.writeStage ≠ none →
    (v.toNat % 4096 = 0 → exec (.registerWrite (.bar0 0x40) 8 v) s = .next { s with dev := { s.dev with expbase := v.toNat } })
      ∧ ∀ fn c q, s.queueOwned fn c q = true →
        let x := s.queue c q
        let reg := fun (off : Nat) => RegAddr.bar2 fn (0x100000 + 0x4000 * c + 0x100 * q + off)
        let takes := fun (off : Nat) (y : Queue) => ∃ t, exec (.registerWrite (reg off) 8 v) s = .next t ∧ t.queue c q = y
          ∧ t.mem = s.mem ∧ t.gangs = s.gangs
        ((∀ e ∈ s.groups, e.2.ctx = c → e.2.q = q → e.2.since ≠ s.hubCycle) → takes 0x90 { x with cls := v.toNat % 8 })
          ∧ (∃ t, exec (.registerWrite (reg 0x90) 8 v) s = .next t ∧ (t.queue c q).cls = v.toNat % 8
            ∧ ∀ g, (s.group g).ctx = c → (s.group g).q = q → (s.group g).st = .resident → (s.group g).since = s.hubCycle →
              (smFind s.groups g).isSome = true → (t.group g).cls = v.toNat % 8)
          ∧ ((v.toNat % 256 = 0 ∨ 8 ≤ v.toNat % 256) → takes 0x80 { x with cmderr := 1 })
          ∧ (x.st = .disabled → v.toNat % 8192 = 0 → takes 0x98 { x with qbuf := v.toNat })
          ∧ (x.st = .disabled → v.toNat % 1024 = 0 → takes 0xA0 { x with faultbase := v.toNat })
          ∧ (x.st ≠ .disabled → takes 0x98 x ∧ takes 0xA0 x))
  ∧ (∀ (s : State) (r : RegAddr) (n : Nat) (v : Dword), n ≠ 8 → exec (.registerWrite r n v) s = .next s)
  ∧ (∀ (s : State) (r : SpdmReq), s.dev.powered = true →
    let answers := fun (a : Option SpdmAns) => ∃ t, exec (.spdmRequest r) s = .next t ∧ t.spdm = (r, a) :: s.spdm ∧ t.dev = s.dev ∧ t.mem = s.mem
      ∧ t.gangs = s.gangs
    (s.dev.identity = false → answers none)
      ∧ (s.dev.identity = true → (r = .getMeasurements 6 → answers (some (.block s.dev.feat))) ∧ (r = .getVersion → answers (some (.version 1 3)))
        ∧ (r = .negotiateAlgorithms → answers (some (.algorithms [.ed448, .shake256])))))
  ∧ (∀ (s : State) (off : Nat), off % 8 = 0 → s.bar0 off < 2 ^ 64 →
    s.bar0Read off 8 = s.bar0 off ∧ s.bar0Read off 4 = s.bar0 off % 2 ^ 32 ∧ s.bar0Read (off + 4) 4 = s.bar0 off / 2 ^ 32)
  ∧ (∀ s : State, s.bar0 0x00 = s.dev.detail * 2 ^ 32 + s.dev.err * 2 ^ 24 + s.dev.stage ∧ s.bar0 0x10 = Config.featAvail % 2 ^ 64
    ∧ s.bar0 0x20 = s.dev.feat % 2 ^ 64 ∧ s.bar0 0x28 = s.dev.feat / 2 ^ 64 ∧ s.bar0 0x38 = s.dev.porten ∧ s.bar0 0x40 = s.dev.expbase
    ∧ s.bar0 0x48 = s.dev.expcnt ∧ ∀ d < 4, s.bar0 (0x100 + 8 * d) = (s.die d).budget)
  ∧ (∀ (fn c q o : Nat) (x : Dword) (ds : List Dword), c < 64 → q < 64 → o < 0x100 →
    let at_ := 0x100000 + 0x4000 * c + 0x100 * q + o
    let k := x.toNat % 256
    (o < 0x80 → hostWrite fn at_ ds = some (.hostSubmission fn c q o (8 * ds.length) ds))
      ∧ (o = 0x80 → (k = 1 → hostWrite fn at_ [x] = some (.queueEnable fn c q)) ∧ (k = 2 → hostWrite fn at_ [x] = some (.queueDrain fn c q))
        ∧ (k = 3 → hostWrite fn at_ [x] = some (.queueHalt fn c q)) ∧ (k = 4 → hostWrite fn at_ [x] = some (.queueResume fn c q))
        ∧ (k = 5 → hostWrite fn at_ [x] = some (.queueDisable fn c q))
        ∧ (k = 6 → hostWrite fn at_ [x] = some (.queueResumeParked fn c q (x.toNat / 2 ^ 16 % 16)))
        ∧ (k = 7 → hostWrite fn at_ [x] = some (.queueKillParked fn c q (x.toNat / 2 ^ 16 % 16))))
      ∧ (0x80 < o → hostWrite fn at_ [x] = some (.registerWrite (.bar2 fn at_) 8 x)))

/-- Power-good, stage 1, the join and host registers: `PowerGoodAndStageOne`, `JoiningTheDomain`, `RegistersTakeTheirWrites`. -/
def Obligations.StartUpEvents : Prop :=
  Claims.PowerGoodAndStageOne ∧ Claims.JoiningTheDomain ∧ Claims.RegistersTakeTheirWrites

/-- FEATACPT (R23, R403): at stage 1 or later the first write of 16 bytes at 0x0020 is the single write: the whole vector takes effect at once, each bit
where FEATAVAIL has it, with bit 0 always 1. A write of another size or at another place is ignored and does not use up the single write, and
so is one at stage 0; a later write is ignored. -/
def Obligations.FeatacptTakesOneWrite : Prop :=
  ∀ (s : State) (off size : Nat) (v : BitVec 128),
    (off = 0x20 → size = 16 → s.writeStage ≠ none → s.writeStage ≠ some 0 → s.dev.featWr = false → ∃ t, exec (.featacptWrite off size v) s = .next t
        ∧ t = { s with dev := { s.dev with featWr := true, feat := t.dev.feat } }
        ∧ ∀ k, t.dev.feat.testBit k = (decide (k = 0) || (v.getLsbD k && Config.featAvail.testBit k)))
      ∧ ((off ≠ 0x20 ∨ size ≠ 16) → exec (.featacptWrite off size v) s = .next s)
      ∧ ((s.writeStage = none ∨ s.writeStage = some 0 ∨ s.dev.featWr = true) → exec (.featacptWrite off size v) s = .next s)
end

