-- ==== Sys2Proof/Laws/State.lean ====
section
/-! SUPPORT. What each update of the state leaves in each field: true by `rfl`, one lemma per field per update. -/

namespace Sys2Proof.Machine

variable (s : State)

@[simp] theorem State.modGang_time (u : Nat) (f : Gang → Gang) : (s.modGang u f).time = s.time := rfl
@[simp] theorem State.modGang_dev (u : Nat) (f : Gang → Gang) : (s.modGang u f).dev = s.dev := rfl
@[simp] theorem State.modGang_clusters (u : Nat) (f : Gang → Gang) : (s.modGang u f).clusters = s.clusters := rfl
@[simp] theorem State.modGang_dies (u : Nat) (f : Gang → Gang) : (s.modGang u f).dies = s.dies := rfl
@[simp] theorem State.modGang_cores (u : Nat) (f : Gang → Gang) : (s.modGang u f).cores = s.cores := rfl
@[simp] theorem State.modGang_gangs (u : Nat) (f : Gang → Gang) : (s.modGang u f).gangs = smMod s.gangs u f := rfl
@[simp] theorem State.modGang_groups (u : Nat) (f : Gang → Gang) : (s.modGang u f).groups = s.groups := rfl
@[simp] theorem State.modGang_ctxs (u : Nat) (f : Gang → Gang) : (s.modGang u f).ctxs = s.ctxs := rfl
@[simp] theorem State.modGang_mem (u : Nat) (f : Gang → Gang) : (s.modGang u f).mem = s.mem := rfl
@[simp] theorem State.modGang_futs (u : Nat) (f : Gang → Gang) : (s.modGang u f).futs = s.futs := rfl
@[simp] theorem State.modGang_fwait (u : Nat) (f : Gang → Gang) : (s.modGang u f).fwait = s.fwait := rfl
@[simp] theorem State.modGang_dieFails (u : Nat) (f : Gang → Gang) : (s.modGang u f).dieFails = s.dieFails := rfl
@[simp] theorem State.modGang_poison (u : Nat) (f : Gang → Gang) : (s.modGang u f).poison = s.poison := rfl
@[simp] theorem State.modGang_failed (u : Nat) (f : Gang → Gang) : (s.modGang u f).failed = s.failed := rfl
@[simp] theorem State.modGang_alloc (u : Nat) (f : Gang → Gang) : (s.modGang u f).alloc = s.alloc := rfl
@[simp] theorem State.modGang_tblNext (u : Nat) (f : Gang → Gang) : (s.modGang u f).tblNext = s.tblNext := rfl
@[simp] theorem State.modGang_host (u : Nat) (f : Gang → Gang) : (s.modGang u f).host = s.host := rfl
@[simp] theorem State.modGang_hostHere (u : Nat) (f : Gang → Gang) : (s.modGang u f).hostHere = s.hostHere := rfl
@[simp] theorem State.modGang_pageReqs (u : Nat) (f : Gang → Gang) : (s.modGang u f).pageReqs = s.pageReqs := rfl
@[simp] theorem State.modGang_asks (u : Nat) (f : Gang → Gang) : (s.modGang u f).asks = s.asks := rfl
@[simp] theorem State.modGang_proofs (u : Nat) (f : Gang → Gang) : (s.modGang u f).proofs = s.proofs := rfl
@[simp] theorem State.modGang_proofq (u : Nat) (f : Gang → Gang) : (s.modGang u f).proofq = s.proofq := rfl
@[simp] theorem State.modGang_mapWait (u : Nat) (f : Gang → Gang) : (s.modGang u f).mapWait = s.mapWait := rfl
@[simp] theorem State.modGang_mapFin (u : Nat) (f : Gang → Gang) : (s.modGang u f).mapFin = s.mapFin := rfl
@[simp] theorem State.modGang_kept (u : Nat) (f : Gang → Gang) : (s.modGang u f).kept = s.kept := rfl
@[simp] theorem State.modGang_moves (u : Nat) (f : Gang → Gang) : (s.modGang u f).moves = s.moves := rfl
@[simp] theorem State.modGang_far (u : Nat) (f : Gang → Gang) : (s.modGang u f).far = s.far := rfl
@[simp] theorem State.modGang_link (u : Nat) (f : Gang → Gang) : (s.modGang u f).link = s.link := rfl
@[simp] theorem State.modGang_log (u : Nat) (f : Gang → Gang) : (s.modGang u f).log = s.log := rfl
@[simp] theorem State.modGang_placed (u : Nat) (f : Gang → Gang) : (s.modGang u f).placed = s.placed := rfl
@[simp] theorem State.modGang_spdm (u : Nat) (f : Gang → Gang) : (s.modGang u f).spdm = s.spdm := rfl
@[simp] theorem State.modGang_stats (u : Nat) (f : Gang → Gang) : (s.modGang u f).stats = s.stats := rfl
@[simp] theorem State.modGang_hbm (u : Nat) (f : Gang → Gang) : (s.modGang u f).hbm = s.hbm := rfl
@[simp] theorem State.modGang_agenda (u : Nat) (f : Gang → Gang) : (s.modGang u f).agenda = s.agenda := rfl
@[simp] theorem State.modGang_picked (u : Nat) (f : Gang → Gang) : (s.modGang u f).picked = s.picked := rfl
@[simp] theorem State.modGang_cur (u : Nat) (f : Gang → Gang) : (s.modGang u f).cur = s.cur := rfl
@[simp] theorem State.modGang_serial (u : Nat) (f : Gang → Gang) : (s.modGang u f).serial = s.serial := rfl
@[simp] theorem State.modGang_nextId (u : Nat) (f : Gang → Gang) : (s.modGang u f).nextId = s.nextId := rfl
@[simp] theorem State.modGroup_time (g : Nat) (f : Group → Group) : (s.modGroup g f).time = s.time := rfl
@[simp] theorem State.modGroup_dev (g : Nat) (f : Group → Group) : (s.modGroup g f).dev = s.dev := rfl
@[simp] theorem State.modGroup_clusters (g : Nat) (f : Group → Group) : (s.modGroup g f).clusters = s.clusters := rfl
@[simp] theorem State.modGroup_dies (g : Nat) (f : Group → Group) : (s.modGroup g f).dies = s.dies := rfl
@[simp] theorem State.modGroup_cores (g : Nat) (f : Group → Group) : (s.modGroup g f).cores = s.cores := rfl
@[simp] theorem State.modGroup_gangs (g : Nat) (f : Group → Group) : (s.modGroup g f).gangs = s.gangs := rfl
@[simp] theorem State.modGroup_groups (g : Nat) (f : Group → Group) : (s.modGroup g f).groups = smMod s.groups g f := rfl
@[simp] theorem State.modGroup_ctxs (g : Nat) (f : Group → Group) : (s.modGroup g f).ctxs = s.ctxs := rfl
@[simp] theorem State.modGroup_mem (g : Nat) (f : Group → Group) : (s.modGroup g f).mem = s.mem := rfl
@[simp] theorem State.modGroup_futs (g : Nat) (f : Group → Group) : (s.modGroup g f).futs = s.futs := rfl
@[simp] theorem State.modGroup_fwait (g : Nat) (f : Group → Group) : (s.modGroup g f).fwait = s.fwait := rfl
@[simp] theorem State.modGroup_dieFails (g : Nat) (f : Group → Group) : (s.modGroup g f).dieFails = s.dieFails := rfl
@[simp] theorem State.modGroup_poison (g : Nat) (f : Group → Group) : (s.modGroup g f).poison = s.poison := rfl
@[simp] theorem State.modGroup_failed (g : Nat) (f : Group → Group) : (s.modGroup g f).failed = s.failed := rfl
@[simp] theorem State.modGroup_alloc (g : Nat) (f : Group → Group) : (s.modGroup g f).alloc = s.alloc := rfl
@[simp] theorem State.modGroup_tblNext (g : Nat) (f : Group → Group) : (s.modGroup g f).tblNext = s.tblNext := rfl
@[simp] theorem State.modGroup_host (g : Nat) (f : Group → Group) : (s.modGroup g f).host = s.host := rfl
@[simp] theorem State.modGroup_hostHere (g : Nat) (f : Group → Group) : (s.modGroup g f).hostHere = s.hostHere := rfl
@[simp] theorem State.modGroup_pageReqs (g : Nat) (f : Group → Group) : (s.modGroup g f).pageReqs = s.pageReqs := rfl
@[simp] theorem State.modGroup_asks (g : Nat) (f : Group → Group) : (s.modGroup g f).asks = s.asks := rfl
@[simp] theorem State.modGroup_proofs (g : Nat) (f : Group → Group) : (s.modGroup g f).proofs = s.proofs := rfl
@[simp] theorem State.modGroup_proofq (g : Nat) (f : Group → Group) : (s.modGroup g f).proofq = s.proofq := rfl
@[simp] theorem State.modGroup_mapWait (g : Nat) (f : Group → Group) : (s.modGroup g f).mapWait = s.mapWait := rfl
@[simp] theorem State.modGroup_mapFin (g : Nat) (f : Group → Group) : (s.modGroup g f).mapFin = s.mapFin := rfl
@[simp] theorem State.modGroup_kept (g : Nat) (f : Group → Group) : (s.modGroup g f).kept = s.kept := rfl
@[simp] theorem State.modGroup_moves (g : Nat) (f : Group → Group) : (s.modGroup g f).moves = s.moves := rfl
@[simp] theorem State.modGroup_far (g : Nat) (f : Group → Group) : (s.modGroup g f).far = s.far := rfl
@[simp] theorem State.modGroup_link (g : Nat) (f : Group → Group) : (s.modGroup g f).link = s.link := rfl
@[simp] theorem State.modGroup_log (g : Nat) (f : Group → Group) : (s.modGroup g f).log = s.log := rfl
@[simp] theorem State.modGroup_placed (g : Nat) (f : Group → Group) : (s.modGroup g f).placed = s.placed := rfl
@[simp] theorem State.modGroup_spdm (g : Nat) (f : Group → Group) : (s.modGroup g f).spdm = s.spdm := rfl
@[simp] theorem State.modGroup_stats (g : Nat) (f : Group → Group) : (s.modGroup g f).stats = s.stats := rfl
@[simp] theorem State.modGroup_hbm (g : Nat) (f : Group → Group) : (s.modGroup g f).hbm = s.hbm := rfl
@[simp] theorem State.modGroup_agenda (g : Nat) (f : Group → Group) : (s.modGroup g f).agenda = s.agenda := rfl
@[simp] theorem State.modGroup_picked (g : Nat) (f : Group → Group) : (s.modGroup g f).picked = s.picked := rfl
@[simp] theorem State.modGroup_cur (g : Nat) (f : Group → Group) : (s.modGroup g f).cur = s.cur := rfl
@[simp] theorem State.modGroup_serial (g : Nat) (f : Group → Group) : (s.modGroup g f).serial = s.serial := rfl
@[simp] theorem State.modGroup_nextId (g : Nat) (f : Group → Group) : (s.modGroup g f).nextId = s.nextId := rfl
@[simp] theorem State.modCore_time (c : Nat) (f : Core → Core) : (s.modCore c f).time = s.time := rfl
@[simp] theorem State.modCore_dev (c : Nat) (f : Core → Core) : (s.modCore c f).dev = s.dev := rfl
@[simp] theorem State.modCore_clusters (c : Nat) (f : Core → Core) : (s.modCore c f).clusters = s.clusters := rfl
@[simp] theorem State.modCore_dies (c : Nat) (f : Core → Core) : (s.modCore c f).dies = s.dies := rfl
@[simp] theorem State.modCore_cores (c : Nat) (f : Core → Core) : (s.modCore c f).cores = smPut s.cores c (f (s.core c)) := rfl
@[simp] theorem State.modCore_gangs (c : Nat) (f : Core → Core) : (s.modCore c f).gangs = s.gangs := rfl
@[simp] theorem State.modCore_groups (c : Nat) (f : Core → Core) : (s.modCore c f).groups = s.groups := rfl
@[simp] theorem State.modCore_ctxs (c : Nat) (f : Core → Core) : (s.modCore c f).ctxs = s.ctxs := rfl
@[simp] theorem State.modCore_mem (c : Nat) (f : Core → Core) : (s.modCore c f).mem = s.mem := rfl
@[simp] theorem State.modCore_futs (c : Nat) (f : Core → Core) : (s.modCore c f).futs = s.futs := rfl
@[simp] theorem State.modCore_fwait (c : Nat) (f : Core → Core) : (s.modCore c f).fwait = s.fwait := rfl
@[simp] theorem State.modCore_dieFails (c : Nat) (f : Core → Core) : (s.modCore c f).dieFails = s.dieFails := rfl
@[simp] theorem State.modCore_poison (c : Nat) (f : Core → Core) : (s.modCore c f).poison = s.poison := rfl
@[simp] theorem State.modCore_failed (c : Nat) (f : Core → Core) : (s.modCore c f).failed = s.failed := rfl
@[simp] theorem State.modCore_alloc (c : Nat) (f : Core → Core) : (s.modCore c f).alloc = s.alloc := rfl
@[simp] theorem State.modCore_tblNext (c : Nat) (f : Core → Core) : (s.modCore c f).tblNext = s.tblNext := rfl
@[simp] theorem State.modCore_host (c : Nat) (f : Core → Core) : (s.modCore c f).host = s.host := rfl
@[simp] theorem State.modCore_hostHere (c : Nat) (f : Core → Core) : (s.modCore c f).hostHere = s.hostHere := rfl
@[simp] theorem State.modCore_pageReqs (c : Nat) (f : Core → Core) : (s.modCore c f).pageReqs = s.pageReqs := rfl
@[simp] theorem State.modCore_asks (c : Nat) (f : Core → Core) : (s.modCore c f).asks = s.asks := rfl
@[simp] theorem State.modCore_proofs (c : Nat) (f : Core → Core) : (s.modCore c f).proofs = s.proofs := rfl
@[simp] theorem State.modCore_proofq (c : Nat) (f : Core → Core) : (s.modCore c f).proofq = s.proofq := rfl
@[simp] theorem State.modCore_mapWait (c : Nat) (f : Core → Core) : (s.modCore c f).mapWait = s.mapWait := rfl
@[simp] theorem State.modCore_mapFin (c : Nat) (f : Core → Core) : (s.modCore c f).mapFin = s.mapFin := rfl
@[simp] theorem State.modCore_kept (c : Nat) (f : Core → Core) : (s.modCore c f).kept = s.kept := rfl
@[simp] theorem State.modCore_moves (c : Nat) (f : Core → Core) : (s.modCore c f).moves = s.moves := rfl
@[simp] theorem State.modCore_far (c : Nat) (f : Core → Core) : (s.modCore c f).far = s.far := rfl
@[simp] theorem State.modCore_link (c : Nat) (f : Core → Core) : (s.modCore c f).link = s.link := rfl
@[simp] theorem State.modCore_log (c : Nat) (f : Core → Core) : (s.modCore c f).log = s.log := rfl
@[simp] theorem State.modCore_placed (c : Nat) (f : Core → Core) : (s.modCore c f).placed = s.placed := rfl
@[simp] theorem State.modCore_spdm (c : Nat) (f : Core → Core) : (s.modCore c f).spdm = s.spdm := rfl
@[simp] theorem State.modCore_stats (c : Nat) (f : Core → Core) : (s.modCore c f).stats = s.stats := rfl
@[simp] theorem State.modCore_hbm (c : Nat) (f : Core → Core) : (s.modCore c f).hbm = s.hbm := rfl
@[simp] theorem State.modCore_agenda (c : Nat) (f : Core → Core) : (s.modCore c f).agenda = s.agenda := rfl
@[simp] theorem State.modCore_picked (c : Nat) (f : Core → Core) : (s.modCore c f).picked = s.picked := rfl
@[simp] theorem State.modCore_cur (c : Nat) (f : Core → Core) : (s.modCore c f).cur = s.cur := rfl
@[simp] theorem State.modCore_serial (c : Nat) (f : Core → Core) : (s.modCore c f).serial = s.serial := rfl
@[simp] theorem State.modCore_nextId (c : Nat) (f : Core → Core) : (s.modCore c f).nextId = s.nextId := rfl
@[simp] theorem State.modCluster_time (k : Nat) (f : Cluster → Cluster) : (s.modCluster k f).time = s.time := rfl
@[simp] theorem State.modCluster_dev (k : Nat) (f : Cluster → Cluster) : (s.modCluster k f).dev = s.dev := rfl
@[simp] theorem State.modCluster_clusters (k : Nat) (f : Cluster → Cluster) : (s.modCluster k f).clusters = smMod s.clusters k f := rfl
@[simp] theorem State.modCluster_dies (k : Nat) (f : Cluster → Cluster) : (s.modCluster k f).dies = s.dies := rfl
@[simp] theorem State.modCluster_cores (k : Nat) (f : Cluster → Cluster) : (s.modCluster k f).cores = s.cores := rfl
@[simp] theorem State.modCluster_gangs (k : Nat) (f : Cluster → Cluster) : (s.modCluster k f).gangs = s.gangs := rfl
@[simp] theorem State.modCluster_groups (k : Nat) (f : Cluster → Cluster) : (s.modCluster k f).groups = s.groups := rfl
@[simp] theorem State.modCluster_ctxs (k : Nat) (f : Cluster → Cluster) : (s.modCluster k f).ctxs = s.ctxs := rfl
@[simp] theorem State.modCluster_mem (k : Nat) (f : Cluster → Cluster) : (s.modCluster k f).mem = s.mem := rfl
@[simp] theorem State.modCluster_futs (k : Nat) (f : Cluster → Cluster) : (s.modCluster k f).futs = s.futs := rfl
@[simp] theorem State.modCluster_fwait (k : Nat) (f : Cluster → Cluster) : (s.modCluster k f).fwait = s.fwait := rfl
@[simp] theorem State.modCluster_dieFails (k : Nat) (f : Cluster → Cluster) : (s.modCluster k f).dieFails = s.dieFails := rfl
@[simp] theorem State.modCluster_poison (k : Nat) (f : Cluster → Cluster) : (s.modCluster k f).poison = s.poison := rfl
@[simp] theorem State.modCluster_failed (k : Nat) (f : Cluster → Cluster) : (s.modCluster k f).failed = s.failed := rfl
@[simp] theorem State.modCluster_alloc (k : Nat) (f : Cluster → Cluster) : (s.modCluster k f).alloc = s.alloc := rfl
@[simp] theorem State.modCluster_tblNext (k : Nat) (f : Cluster → Cluster) : (s.modCluster k f).tblNext = s.tblNext := rfl
@[simp] theorem State.modCluster_host (k : Nat) (f : Cluster → Cluster) : (s.modCluster k f).host = s.host := rfl
@[simp] theorem State.modCluster_hostHere (k : Nat) (f : Cluster → Cluster) : (s.modCluster k f).hostHere = s.hostHere := rfl
@[simp] theorem State.modCluster_pageReqs (k : Nat) (f : Cluster → Cluster) : (s.modCluster k f).pageReqs = s.pageReqs := rfl
@[simp] theorem State.modCluster_asks (k : Nat) (f : Cluster → Cluster) : (s.modCluster k f).asks = s.asks := rfl
@[simp] theorem State.modCluster_proofs (k : Nat) (f : Cluster → Cluster) : (s.modCluster k f).proofs = s.proofs := rfl
@[simp] theorem State.modCluster_proofq (k : Nat) (f : Cluster → Cluster) : (s.modCluster k f).proofq = s.proofq := rfl
@[simp] theorem State.modCluster_mapWait (k : Nat) (f : Cluster → Cluster) : (s.modCluster k f).mapWait = s.mapWait := rfl
@[simp] theorem State.modCluster_mapFin (k : Nat) (f : Cluster → Cluster) : (s.modCluster k f).mapFin = s.mapFin := rfl
@[simp] theorem State.modCluster_kept (k : Nat) (f : Cluster → Cluster) : (s.modCluster k f).kept = s.kept := rfl
@[simp] theorem State.modCluster_moves (k : Nat) (f : Cluster → Cluster) : (s.modCluster k f).moves = s.moves := rfl
@[simp] theorem State.modCluster_far (k : Nat) (f : Cluster → Cluster) : (s.modCluster k f).far = s.far := rfl
@[simp] theorem State.modCluster_link (k : Nat) (f : Cluster → Cluster) : (s.modCluster k f).link = s.link := rfl
@[simp] theorem State.modCluster_log (k : Nat) (f : Cluster → Cluster) : (s.modCluster k f).log = s.log := rfl
@[simp] theorem State.modCluster_placed (k : Nat) (f : Cluster → Cluster) : (s.modCluster k f).placed = s.placed := rfl
@[simp] theorem State.modCluster_spdm (k : Nat) (f : Cluster → Cluster) : (s.modCluster k f).spdm = s.spdm := rfl
@[simp] theorem State.modCluster_stats (k : Nat) (f : Cluster → Cluster) : (s.modCluster k f).stats = s.stats := rfl
@[simp] theorem State.modCluster_hbm (k : Nat) (f : Cluster → Cluster) : (s.modCluster k f).hbm = s.hbm := rfl
@[simp] theorem State.modCluster_agenda (k : Nat) (f : Cluster → Cluster) : (s.modCluster k f).agenda = s.agenda := rfl
@[simp] theorem State.modCluster_picked (k : Nat) (f : Cluster → Cluster) : (s.modCluster k f).picked = s.picked := rfl
@[simp] theorem State.modCluster_cur (k : Nat) (f : Cluster → Cluster) : (s.modCluster k f).cur = s.cur := rfl
@[simp] theorem State.modCluster_serial (k : Nat) (f : Cluster → Cluster) : (s.modCluster k f).serial = s.serial := rfl
@[simp] theorem State.modCluster_nextId (k : Nat) (f : Cluster → Cluster) : (s.modCluster k f).nextId = s.nextId := rfl
@[simp] theorem State.modDie_time (d : Nat) (f : Die → Die) : (s.modDie d f).time = s.time := rfl
@[simp] theorem State.modDie_dev (d : Nat) (f : Die → Die) : (s.modDie d f).dev = s.dev := rfl
@[simp] theorem State.modDie_clusters (d : Nat) (f : Die → Die) : (s.modDie d f).clusters = s.clusters := rfl
@[simp] theorem State.modDie_dies (d : Nat) (f : Die → Die) : (s.modDie d f).dies = smMod s.dies d f := rfl
@[simp] theorem State.modDie_cores (d : Nat) (f : Die → Die) : (s.modDie d f).cores = s.cores := rfl
@[simp] theorem State.modDie_gangs (d : Nat) (f : Die → Die) : (s.modDie d f).gangs = s.gangs := rfl
@[simp] theorem State.modDie_groups (d : Nat) (f : Die → Die) : (s.modDie d f).groups = s.groups := rfl
@[simp] theorem State.modDie_ctxs (d : Nat) (f : Die → Die) : (s.modDie d f).ctxs = s.ctxs := rfl
@[simp] theorem State.modDie_mem (d : Nat) (f : Die → Die) : (s.modDie d f).mem = s.mem := rfl
@[simp] theorem State.modDie_futs (d : Nat) (f : Die → Die) : (s.modDie d f).futs = s.futs := rfl
@[simp] theorem State.modDie_fwait (d : Nat) (f : Die → Die) : (s.modDie d f).fwait = s.fwait := rfl
@[simp] theorem State.modDie_dieFails (d : Nat) (f : Die → Die) : (s.modDie d f).dieFails = s.dieFails := rfl
@[simp] theorem State.modDie_poison (d : Nat) (f : Die → Die) : (s.modDie d f).poison = s.poison := rfl
@[simp] theorem State.modDie_failed (d : Nat) (f : Die → Die) : (s.modDie d f).failed = s.failed := rfl
@[simp] theorem State.modDie_alloc (d : Nat) (f : Die → Die) : (s.modDie d f).alloc = s.alloc := rfl
@[simp] theorem State.modDie_tblNext (d : Nat) (f : Die → Die) : (s.modDie d f).tblNext = s.tblNext := rfl
@[simp] theorem State.modDie_host (d : Nat) (f : Die → Die) : (s.modDie d f).host = s.host := rfl
@[simp] theorem State.modDie_hostHere (d : Nat) (f : Die → Die) : (s.modDie d f).hostHere = s.hostHere := rfl
@[simp] theorem State.modDie_pageReqs (d : Nat) (f : Die → Die) : (s.modDie d f).pageReqs = s.pageReqs := rfl
@[simp] theorem State.modDie_asks (d : Nat) (f : Die → Die) : (s.modDie d f).asks = s.asks := rfl
@[simp] theorem State.modDie_proofs (d : Nat) (f : Die → Die) : (s.modDie d f).proofs = s.proofs := rfl
@[simp] theorem State.modDie_proofq (d : Nat) (f : Die → Die) : (s.modDie d f).proofq = s.proofq := rfl
@[simp] theorem State.modDie_mapWait (d : Nat) (f : Die → Die) : (s.modDie d f).mapWait = s.mapWait := rfl
@[simp] theorem State.modDie_mapFin (d : Nat) (f : Die → Die) : (s.modDie d f).mapFin = s.mapFin := rfl
@[simp] theorem State.modDie_kept (d : Nat) (f : Die → Die) : (s.modDie d f).kept = s.kept := rfl
@[simp] theorem State.modDie_moves (d : Nat) (f : Die → Die) : (s.modDie d f).moves = s.moves := rfl
@[simp] theorem State.modDie_far (d : Nat) (f : Die → Die) : (s.modDie d f).far = s.far := rfl
@[simp] theorem State.modDie_link (d : Nat) (f : Die → Die) : (s.modDie d f).link = s.link := rfl
@[simp] theorem State.modDie_log (d : Nat) (f : Die → Die) : (s.modDie d f).log = s.log := rfl
@[simp] theorem State.modDie_placed (d : Nat) (f : Die → Die) : (s.modDie d f).placed = s.placed := rfl
@[simp] theorem State.modDie_spdm (d : Nat) (f : Die → Die) : (s.modDie d f).spdm = s.spdm := rfl
@[simp] theorem State.modDie_stats (d : Nat) (f : Die → Die) : (s.modDie d f).stats = s.stats := rfl
@[simp] theorem State.modDie_hbm (d : Nat) (f : Die → Die) : (s.modDie d f).hbm = s.hbm := rfl
@[simp] theorem State.modDie_agenda (d : Nat) (f : Die → Die) : (s.modDie d f).agenda = s.agenda := rfl
@[simp] theorem State.modDie_picked (d : Nat) (f : Die → Die) : (s.modDie d f).picked = s.picked := rfl
@[simp] theorem State.modDie_cur (d : Nat) (f : Die → Die) : (s.modDie d f).cur = s.cur := rfl
@[simp] theorem State.modDie_serial (d : Nat) (f : Die → Die) : (s.modDie d f).serial = s.serial := rfl
@[simp] theorem State.modDie_nextId (d : Nat) (f : Die → Die) : (s.modDie d f).nextId = s.nextId := rfl
@[simp] theorem State.modCtx_time (c : Nat) (f : Ctx → Ctx) : (s.modCtx c f).time = s.time := rfl
@[simp] theorem State.modCtx_dev (c : Nat) (f : Ctx → Ctx) : (s.modCtx c f).dev = s.dev := rfl
@[simp] theorem State.modCtx_clusters (c : Nat) (f : Ctx → Ctx) : (s.modCtx c f).clusters = s.clusters := rfl
@[simp] theorem State.modCtx_dies (c : Nat) (f : Ctx → Ctx) : (s.modCtx c f).dies = s.dies := rfl
@[simp] theorem State.modCtx_cores (c : Nat) (f : Ctx → Ctx) : (s.modCtx c f).cores = s.cores := rfl
@[simp] theorem State.modCtx_gangs (c : Nat) (f : Ctx → Ctx) : (s.modCtx c f).gangs = s.gangs := rfl
@[simp] theorem State.modCtx_groups (c : Nat) (f : Ctx → Ctx) : (s.modCtx c f).groups = s.groups := rfl
@[simp] theorem State.modCtx_ctxs (c : Nat) (f : Ctx → Ctx) : (s.modCtx c f).ctxs = smMod s.ctxs c f := rfl
@[simp] theorem State.modCtx_mem (c : Nat) (f : Ctx → Ctx) : (s.modCtx c f).mem = s.mem := rfl
@[simp] theorem State.modCtx_futs (c : Nat) (f : Ctx → Ctx) : (s.modCtx c f).futs = s.futs := rfl
@[simp] theorem State.modCtx_fwait (c : Nat) (f : Ctx → Ctx) : (s.modCtx c f).fwait = s.fwait := rfl
@[simp] theorem State.modCtx_dieFails (c : Nat) (f : Ctx → Ctx) : (s.modCtx c f).dieFails = s.dieFails := rfl
@[simp] theorem State.modCtx_poison (c : Nat) (f : Ctx → Ctx) : (s.modCtx c f).poison = s.poison := rfl
@[simp] theorem State.modCtx_failed (c : Nat) (f : Ctx → Ctx) : (s.modCtx c f).failed = s.failed := rfl
@[simp] theorem State.modCtx_alloc (c : Nat) (f : Ctx → Ctx) : (s.modCtx c f).alloc = s.alloc := rfl
@[simp] theorem State.modCtx_tblNext (c : Nat) (f : Ctx → Ctx) : (s.modCtx c f).tblNext = s.tblNext := rfl
@[simp] theorem State.modCtx_host (c : Nat) (f : Ctx → Ctx) : (s.modCtx c f).host = s.host := rfl
@[simp] theorem State.modCtx_hostHere (c : Nat) (f : Ctx → Ctx) : (s.modCtx c f).hostHere = s.hostHere := rfl
@[simp] theorem State.modCtx_pageReqs (c : Nat) (f : Ctx → Ctx) : (s.modCtx c f).pageReqs = s.pageReqs := rfl
@[simp] theorem State.modCtx_asks (c : Nat) (f : Ctx → Ctx) : (s.modCtx c f).asks = s.asks := rfl
@[simp] theorem State.modCtx_proofs (c : Nat) (f : Ctx → Ctx) : (s.modCtx c f).proofs = s.proofs := rfl
@[simp] theorem State.modCtx_proofq (c : Nat) (f : Ctx → Ctx) : (s.modCtx c f).proofq = s.proofq := rfl
@[simp] theorem State.modCtx_mapWait (c : Nat) (f : Ctx → Ctx) : (s.modCtx c f).mapWait = s.mapWait := rfl
@[simp] theorem State.modCtx_mapFin (c : Nat) (f : Ctx → Ctx) : (s.modCtx c f).mapFin = s.mapFin := rfl
@[simp] theorem State.modCtx_kept (c : Nat) (f : Ctx → Ctx) : (s.modCtx c f).kept = s.kept := rfl
@[simp] theorem State.modCtx_moves (c : Nat) (f : Ctx → Ctx) : (s.modCtx c f).moves = s.moves := rfl
@[simp] theorem State.modCtx_far (c : Nat) (f : Ctx → Ctx) : (s.modCtx c f).far = s.far := rfl
@[simp] theorem State.modCtx_link (c : Nat) (f : Ctx → Ctx) : (s.modCtx c f).link = s.link := rfl
@[simp] theorem State.modCtx_log (c : Nat) (f : Ctx → Ctx) : (s.modCtx c f).log = s.log := rfl
@[simp] theorem State.modCtx_placed (c : Nat) (f : Ctx → Ctx) : (s.modCtx c f).placed = s.placed := rfl
@[simp] theorem State.modCtx_spdm (c : Nat) (f : Ctx → Ctx) : (s.modCtx c f).spdm = s.spdm := rfl
@[simp] theorem State.modCtx_stats (c : Nat) (f : Ctx → Ctx) : (s.modCtx c f).stats = s.stats := rfl
@[simp] theorem State.modCtx_hbm (c : Nat) (f : Ctx → Ctx) : (s.modCtx c f).hbm = s.hbm := rfl
@[simp] theorem State.modCtx_agenda (c : Nat) (f : Ctx → Ctx) : (s.modCtx c f).agenda = s.agenda := rfl
@[simp] theorem State.modCtx_picked (c : Nat) (f : Ctx → Ctx) : (s.modCtx c f).picked = s.picked := rfl
@[simp] theorem State.modCtx_cur (c : Nat) (f : Ctx → Ctx) : (s.modCtx c f).cur = s.cur := rfl
@[simp] theorem State.modCtx_serial (c : Nat) (f : Ctx → Ctx) : (s.modCtx c f).serial = s.serial := rfl
@[simp] theorem State.modCtx_nextId (c : Nat) (f : Ctx → Ctx) : (s.modCtx c f).nextId = s.nextId := rfl
@[simp] theorem State.modLink_time (f : Link → Link) : (s.modLink f).time = s.time := rfl
@[simp] theorem State.modLink_dev (f : Link → Link) : (s.modLink f).dev = s.dev := rfl
@[simp] theorem State.modLink_clusters (f : Link → Link) : (s.modLink f).clusters = s.clusters := rfl
@[simp] theorem State.modLink_dies (f : Link → Link) : (s.modLink f).dies = s.dies := rfl
@[simp] theorem State.modLink_cores (f : Link → Link) : (s.modLink f).cores = s.cores := rfl
@[simp] theorem State.modLink_gangs (f : Link → Link) : (s.modLink f).gangs = s.gangs := rfl
@[simp] theorem State.modLink_groups (f : Link → Link) : (s.modLink f).groups = s.groups := rfl
@[simp] theorem State.modLink_ctxs (f : Link → Link) : (s.modLink f).ctxs = s.ctxs := rfl
@[simp] theorem State.modLink_mem (f : Link → Link) : (s.modLink f).mem = s.mem := rfl
@[simp] theorem State.modLink_futs (f : Link → Link) : (s.modLink f).futs = s.futs := rfl
@[simp] theorem State.modLink_fwait (f : Link → Link) : (s.modLink f).fwait = s.fwait := rfl
@[simp] theorem State.modLink_dieFails (f : Link → Link) : (s.modLink f).dieFails = s.dieFails := rfl
@[simp] theorem State.modLink_poison (f : Link → Link) : (s.modLink f).poison = s.poison := rfl
@[simp] theorem State.modLink_failed (f : Link → Link) : (s.modLink f).failed = s.failed := rfl
@[simp] theorem State.modLink_alloc (f : Link → Link) : (s.modLink f).alloc = s.alloc := rfl
@[simp] theorem State.modLink_tblNext (f : Link → Link) : (s.modLink f).tblNext = s.tblNext := rfl
@[simp] theorem State.modLink_host (f : Link → Link) : (s.modLink f).host = s.host := rfl
@[simp] theorem State.modLink_hostHere (f : Link → Link) : (s.modLink f).hostHere = s.hostHere := rfl
@[simp] theorem State.modLink_pageReqs (f : Link → Link) : (s.modLink f).pageReqs = s.pageReqs := rfl
@[simp] theorem State.modLink_asks (f : Link → Link) : (s.modLink f).asks = s.asks := rfl
@[simp] theorem State.modLink_proofs (f : Link → Link) : (s.modLink f).proofs = s.proofs := rfl
@[simp] theorem State.modLink_proofq (f : Link → Link) : (s.modLink f).proofq = s.proofq := rfl
@[simp] theorem State.modLink_mapWait (f : Link → Link) : (s.modLink f).mapWait = s.mapWait := rfl
@[simp] theorem State.modLink_mapFin (f : Link → Link) : (s.modLink f).mapFin = s.mapFin := rfl
@[simp] theorem State.modLink_kept (f : Link → Link) : (s.modLink f).kept = s.kept := rfl
@[simp] theorem State.modLink_moves (f : Link → Link) : (s.modLink f).moves = s.moves := rfl
@[simp] theorem State.modLink_far (f : Link → Link) : (s.modLink f).far = s.far := rfl
@[simp] theorem State.modLink_link (f : Link → Link) : (s.modLink f).link = f s.link := rfl
@[simp] theorem State.modLink_log (f : Link → Link) : (s.modLink f).log = s.log := rfl
@[simp] theorem State.modLink_placed (f : Link → Link) : (s.modLink f).placed = s.placed := rfl
@[simp] theorem State.modLink_spdm (f : Link → Link) : (s.modLink f).spdm = s.spdm := rfl
@[simp] theorem State.modLink_stats (f : Link → Link) : (s.modLink f).stats = s.stats := rfl
@[simp] theorem State.modLink_hbm (f : Link → Link) : (s.modLink f).hbm = s.hbm := rfl
@[simp] theorem State.modLink_agenda (f : Link → Link) : (s.modLink f).agenda = s.agenda := rfl
@[simp] theorem State.modLink_picked (f : Link → Link) : (s.modLink f).picked = s.picked := rfl
@[simp] theorem State.modLink_cur (f : Link → Link) : (s.modLink f).cur = s.cur := rfl
@[simp] theorem State.modLink_serial (f : Link → Link) : (s.modLink f).serial = s.serial := rfl
@[simp] theorem State.modLink_nextId (f : Link → Link) : (s.modLink f).nextId = s.nextId := rfl
@[simp] theorem State.modDev_time (f : Dev → Dev) : (s.modDev f).time = s.time := rfl
@[simp] theorem State.modDev_dev (f : Dev → Dev) : (s.modDev f).dev = f s.dev := rfl
@[simp] theorem State.modDev_clusters (f : Dev → Dev) : (s.modDev f).clusters = s.clusters := rfl
@[simp] theorem State.modDev_dies (f : Dev → Dev) : (s.modDev f).dies = s.dies := rfl
@[simp] theorem State.modDev_cores (f : Dev → Dev) : (s.modDev f).cores = s.cores := rfl
@[simp] theorem State.modDev_gangs (f : Dev → Dev) : (s.modDev f).gangs = s.gangs := rfl
@[simp] theorem State.modDev_groups (f : Dev → Dev) : (s.modDev f).groups = s.groups := rfl
@[simp] theorem State.modDev_ctxs (f : Dev → Dev) : (s.modDev f).ctxs = s.ctxs := rfl
@[simp] theorem State.modDev_mem (f : Dev → Dev) : (s.modDev f).mem = s.mem := rfl
@[simp] theorem State.modDev_futs (f : Dev → Dev) : (s.modDev f).futs = s.futs := rfl
@[simp] theorem State.modDev_fwait (f : Dev → Dev) : (s.modDev f).fwait = s.fwait := rfl
@[simp] theorem State.modDev_dieFails (f : Dev → Dev) : (s.modDev f).dieFails = s.dieFails := rfl
@[simp] theorem State.modDev_poison (f : Dev → Dev) : (s.modDev f).poison = s.poison := rfl
@[simp] theorem State.modDev_failed (f : Dev → Dev) : (s.modDev f).failed = s.failed := rfl
@[simp] theorem State.modDev_alloc (f : Dev → Dev) : (s.modDev f).alloc = s.alloc := rfl
@[simp] theorem State.modDev_tblNext (f : Dev → Dev) : (s.modDev f).tblNext = s.tblNext := rfl
@[simp] theorem State.modDev_host (f : Dev → Dev) : (s.modDev f).host = s.host := rfl
@[simp] theorem State.modDev_hostHere (f : Dev → Dev) : (s.modDev f).hostHere = s.hostHere := rfl
@[simp] theorem State.modDev_pageReqs (f : Dev → Dev) : (s.modDev f).pageReqs = s.pageReqs := rfl
@[simp] theorem State.modDev_asks (f : Dev → Dev) : (s.modDev f).asks = s.asks := rfl
@[simp] theorem State.modDev_proofs (f : Dev → Dev) : (s.modDev f).proofs = s.proofs := rfl
@[simp] theorem State.modDev_proofq (f : Dev → Dev) : (s.modDev f).proofq = s.proofq := rfl
@[simp] theorem State.modDev_mapWait (f : Dev → Dev) : (s.modDev f).mapWait = s.mapWait := rfl
@[simp] theorem State.modDev_mapFin (f : Dev → Dev) : (s.modDev f).mapFin = s.mapFin := rfl
@[simp] theorem State.modDev_kept (f : Dev → Dev) : (s.modDev f).kept = s.kept := rfl
@[simp] theorem State.modDev_moves (f : Dev → Dev) : (s.modDev f).moves = s.moves := rfl
@[simp] theorem State.modDev_far (f : Dev → Dev) : (s.modDev f).far = s.far := rfl
@[simp] theorem State.modDev_link (f : Dev → Dev) : (s.modDev f).link = s.link := rfl
@[simp] theorem State.modDev_log (f : Dev → Dev) : (s.modDev f).log = s.log := rfl
@[simp] theorem State.modDev_placed (f : Dev → Dev) : (s.modDev f).placed = s.placed := rfl
@[simp] theorem State.modDev_spdm (f : Dev → Dev) : (s.modDev f).spdm = s.spdm := rfl
@[simp] theorem State.modDev_stats (f : Dev → Dev) : (s.modDev f).stats = s.stats := rfl
@[simp] theorem State.modDev_hbm (f : Dev → Dev) : (s.modDev f).hbm = s.hbm := rfl
@[simp] theorem State.modDev_agenda (f : Dev → Dev) : (s.modDev f).agenda = s.agenda := rfl
@[simp] theorem State.modDev_picked (f : Dev → Dev) : (s.modDev f).picked = s.picked := rfl
@[simp] theorem State.modDev_cur (f : Dev → Dev) : (s.modDev f).cur = s.cur := rfl
@[simp] theorem State.modDev_serial (f : Dev → Dev) : (s.modDev f).serial = s.serial := rfl
@[simp] theorem State.modDev_nextId (f : Dev → Dev) : (s.modDev f).nextId = s.nextId := rfl
@[simp] theorem State.note_time (x : LogLine) : (s.note x).time = s.time := rfl
@[simp] theorem State.note_dev (x : LogLine) : (s.note x).dev = s.dev := rfl
@[simp] theorem State.note_clusters (x : LogLine) : (s.note x).clusters = s.clusters := rfl
@[simp] theorem State.note_dies (x : LogLine) : (s.note x).dies = s.dies := rfl
@[simp] theorem State.note_cores (x : LogLine) : (s.note x).cores = s.cores := rfl
@[simp] theorem State.note_gangs (x : LogLine) : (s.note x).gangs = s.gangs := rfl
@[simp] theorem State.note_groups (x : LogLine) : (s.note x).groups = s.groups := rfl
@[simp] theorem State.note_ctxs (x : LogLine) : (s.note x).ctxs = s.ctxs := rfl
@[simp] theorem State.note_mem (x : LogLine) : (s.note x).mem = s.mem := rfl
@[simp] theorem State.note_futs (x : LogLine) : (s.note x).futs = s.futs := rfl
@[simp] theorem State.note_fwait (x : LogLine) : (s.note x).fwait = s.fwait := rfl
@[simp] theorem State.note_dieFails (x : LogLine) : (s.note x).dieFails = s.dieFails := rfl
@[simp] theorem State.note_poison (x : LogLine) : (s.note x).poison = s.poison := rfl
@[simp] theorem State.note_failed (x : LogLine) : (s.note x).failed = s.failed := rfl
@[simp] theorem State.note_alloc (x : LogLine) : (s.note x).alloc = s.alloc := rfl
@[simp] theorem State.note_tblNext (x : LogLine) : (s.note x).tblNext = s.tblNext := rfl
@[simp] theorem State.note_host (x : LogLine) : (s.note x).host = s.host := rfl
@[simp] theorem State.note_hostHere (x : LogLine) : (s.note x).hostHere = s.hostHere := rfl
@[simp] theorem State.note_pageReqs (x : LogLine) : (s.note x).pageReqs = s.pageReqs := rfl
@[simp] theorem State.note_asks (x : LogLine) : (s.note x).asks = s.asks := rfl
@[simp] theorem State.note_proofs (x : LogLine) : (s.note x).proofs = s.proofs := rfl
@[simp] theorem State.note_proofq (x : LogLine) : (s.note x).proofq = s.proofq := rfl
@[simp] theorem State.note_mapWait (x : LogLine) : (s.note x).mapWait = s.mapWait := rfl
@[simp] theorem State.note_mapFin (x : LogLine) : (s.note x).mapFin = s.mapFin := rfl
@[simp] theorem State.note_kept (x : LogLine) : (s.note x).kept = s.kept := rfl
@[simp] theorem State.note_moves (x : LogLine) : (s.note x).moves = s.moves := rfl
@[simp] theorem State.note_far (x : LogLine) : (s.note x).far = s.far := rfl
@[simp] theorem State.note_link (x : LogLine) : (s.note x).link = s.link := rfl
@[simp] theorem State.note_log (x : LogLine) : (s.note x).log = x :: s.log := rfl
@[simp] theorem State.note_placed (x : LogLine) : (s.note x).placed = s.placed := rfl
@[simp] theorem State.note_spdm (x : LogLine) : (s.note x).spdm = s.spdm := rfl
@[simp] theorem State.note_stats (x : LogLine) : (s.note x).stats = s.stats := rfl
@[simp] theorem State.note_hbm (x : LogLine) : (s.note x).hbm = s.hbm := rfl
@[simp] theorem State.note_agenda (x : LogLine) : (s.note x).agenda = s.agenda := rfl
@[simp] theorem State.note_picked (x : LogLine) : (s.note x).picked = s.picked := rfl
@[simp] theorem State.note_cur (x : LogLine) : (s.note x).cur = s.cur := rfl
@[simp] theorem State.note_serial (x : LogLine) : (s.note x).serial = s.serial := rfl
@[simp] theorem State.note_nextId (x : LogLine) : (s.note x).nextId = s.nextId := rfl
@[simp] theorem State.later_time (i : Instr) : (s.later i).time = s.time := rfl
@[simp] theorem State.later_dev (i : Instr) : (s.later i).dev = s.dev := rfl
@[simp] theorem State.later_clusters (i : Instr) : (s.later i).clusters = s.clusters := rfl
@[simp] theorem State.later_dies (i : Instr) : (s.later i).dies = s.dies := rfl
@[simp] theorem State.later_cores (i : Instr) : (s.later i).cores = s.cores := rfl
@[simp] theorem State.later_gangs (i : Instr) : (s.later i).gangs = s.gangs := rfl
@[simp] theorem State.later_groups (i : Instr) : (s.later i).groups = s.groups := rfl
@[simp] theorem State.later_ctxs (i : Instr) : (s.later i).ctxs = s.ctxs := rfl
@[simp] theorem State.later_mem (i : Instr) : (s.later i).mem = s.mem := rfl
@[simp] theorem State.later_futs (i : Instr) : (s.later i).futs = s.futs := rfl
@[simp] theorem State.later_fwait (i : Instr) : (s.later i).fwait = s.fwait := rfl
@[simp] theorem State.later_dieFails (i : Instr) : (s.later i).dieFails = s.dieFails := rfl
@[simp] theorem State.later_poison (i : Instr) : (s.later i).poison = s.poison := rfl
@[simp] theorem State.later_failed (i : Instr) : (s.later i).failed = s.failed := rfl
@[simp] theorem State.later_alloc (i : Instr) : (s.later i).alloc = s.alloc := rfl
@[simp] theorem State.later_tblNext (i : Instr) : (s.later i).tblNext = s.tblNext := rfl
@[simp] theorem State.later_host (i : Instr) : (s.later i).host = s.host := rfl
@[simp] theorem State.later_hostHere (i : Instr) : (s.later i).hostHere = s.hostHere := rfl
@[simp] theorem State.later_pageReqs (i : Instr) : (s.later i).pageReqs = s.pageReqs := rfl
@[simp] theorem State.later_asks (i : Instr) : (s.later i).asks = s.asks := rfl
@[simp] theorem State.later_proofs (i : Instr) : (s.later i).proofs = s.proofs := rfl
@[simp] theorem State.later_proofq (i : Instr) : (s.later i).proofq = s.proofq := rfl
@[simp] theorem State.later_mapWait (i : Instr) : (s.later i).mapWait = s.mapWait := rfl
@[simp] theorem State.later_mapFin (i : Instr) : (s.later i).mapFin = s.mapFin := rfl
@[simp] theorem State.later_kept (i : Instr) : (s.later i).kept = s.kept := rfl
@[simp] theorem State.later_moves (i : Instr) : (s.later i).moves = s.moves := rfl
@[simp] theorem State.later_far (i : Instr) : (s.later i).far = s.far := rfl
@[simp] theorem State.later_link (i : Instr) : (s.later i).link = s.link := rfl
@[simp] theorem State.later_log (i : Instr) : (s.later i).log = s.log := rfl
@[simp] theorem State.later_placed (i : Instr) : (s.later i).placed = s.placed := rfl
@[simp] theorem State.later_spdm (i : Instr) : (s.later i).spdm = s.spdm := rfl
@[simp] theorem State.later_stats (i : Instr) : (s.later i).stats = s.stats := rfl
@[simp] theorem State.later_hbm (i : Instr) : (s.later i).hbm = s.hbm := rfl
@[simp] theorem State.later_agenda (i : Instr) : (s.later i).agenda = s.agenda ++ [i] := rfl
@[simp] theorem State.later_picked (i : Instr) : (s.later i).picked = s.picked := rfl
@[simp] theorem State.later_cur (i : Instr) : (s.later i).cur = s.cur := rfl
@[simp] theorem State.later_serial (i : Instr) : (s.later i).serial = s.serial := rfl
@[simp] theorem State.later_nextId (i : Instr) : (s.later i).nextId = s.nextId := rfl
@[simp] theorem State.tickSerial_time : (s.tickSerial).time = s.time := rfl
@[simp] theorem State.tickSerial_dev : (s.tickSerial).dev = s.dev := rfl
@[simp] theorem State.tickSerial_clusters : (s.tickSerial).clusters = s.clusters := rfl
@[simp] theorem State.tickSerial_dies : (s.tickSerial).dies = s.dies := rfl
@[simp] theorem State.tickSerial_cores : (s.tickSerial).cores = s.cores := rfl
@[simp] theorem State.tickSerial_gangs : (s.tickSerial).gangs = s.gangs := rfl
@[simp] theorem State.tickSerial_groups : (s.tickSerial).groups = s.groups := rfl
@[simp] theorem State.tickSerial_ctxs : (s.tickSerial).ctxs = s.ctxs := rfl
@[simp] theorem State.tickSerial_mem : (s.tickSerial).mem = s.mem := rfl
@[simp] theorem State.tickSerial_futs : (s.tickSerial).futs = s.futs := rfl
@[simp] theorem State.tickSerial_fwait : (s.tickSerial).fwait = s.fwait := rfl
@[simp] theorem State.tickSerial_dieFails : (s.tickSerial).dieFails = s.dieFails := rfl
@[simp] theorem State.tickSerial_poison : (s.tickSerial).poison = s.poison := rfl
@[simp] theorem State.tickSerial_failed : (s.tickSerial).failed = s.failed := rfl
@[simp] theorem State.tickSerial_alloc : (s.tickSerial).alloc = s.alloc := rfl
@[simp] theorem State.tickSerial_tblNext : (s.tickSerial).tblNext = s.tblNext := rfl
@[simp] theorem State.tickSerial_host : (s.tickSerial).host = s.host := rfl
@[simp] theorem State.tickSerial_hostHere : (s.tickSerial).hostHere = s.hostHere := rfl
@[simp] theorem State.tickSerial_pageReqs : (s.tickSerial).pageReqs = s.pageReqs := rfl
@[simp] theorem State.tickSerial_asks : (s.tickSerial).asks = s.asks := rfl
@[simp] theorem State.tickSerial_proofs : (s.tickSerial).proofs = s.proofs := rfl
@[simp] theorem State.tickSerial_proofq : (s.tickSerial).proofq = s.proofq := rfl
@[simp] theorem State.tickSerial_mapWait : (s.tickSerial).mapWait = s.mapWait := rfl
@[simp] theorem State.tickSerial_mapFin : (s.tickSerial).mapFin = s.mapFin := rfl
@[simp] theorem State.tickSerial_kept : (s.tickSerial).kept = s.kept := rfl
@[simp] theorem State.tickSerial_moves : (s.tickSerial).moves = s.moves := rfl
@[simp] theorem State.tickSerial_far : (s.tickSerial).far = s.far := rfl
@[simp] theorem State.tickSerial_link : (s.tickSerial).link = s.link := rfl
@[simp] theorem State.tickSerial_log : (s.tickSerial).log = s.log := rfl
@[simp] theorem State.tickSerial_placed : (s.tickSerial).placed = s.placed := rfl
@[simp] theorem State.tickSerial_spdm : (s.tickSerial).spdm = s.spdm := rfl
@[simp] theorem State.tickSerial_stats : (s.tickSerial).stats = s.stats := rfl
@[simp] theorem State.tickSerial_hbm : (s.tickSerial).hbm = s.hbm := rfl
@[simp] theorem State.tickSerial_agenda : (s.tickSerial).agenda = s.agenda := rfl
@[simp] theorem State.tickSerial_picked : (s.tickSerial).picked = s.picked := rfl
@[simp] theorem State.tickSerial_cur : (s.tickSerial).cur = s.cur := rfl
@[simp] theorem State.tickSerial_serial : (s.tickSerial).serial = s.serial + 1 := rfl
@[simp] theorem State.tickSerial_nextId : (s.tickSerial).nextId = s.nextId := rfl
@[simp] theorem State.wr_time (a : Nat) (bs : List Byte) : (s.wr a bs).time = s.time := rfl
@[simp] theorem State.wr_dev (a : Nat) (bs : List Byte) : (s.wr a bs).dev = s.dev := rfl
@[simp] theorem State.wr_clusters (a : Nat) (bs : List Byte) : (s.wr a bs).clusters = s.clusters := rfl
@[simp] theorem State.wr_dies (a : Nat) (bs : List Byte) : (s.wr a bs).dies = s.dies := rfl
@[simp] theorem State.wr_cores (a : Nat) (bs : List Byte) : (s.wr a bs).cores = s.cores := rfl
@[simp] theorem State.wr_gangs (a : Nat) (bs : List Byte) : (s.wr a bs).gangs = s.gangs := rfl
@[simp] theorem State.wr_groups (a : Nat) (bs : List Byte) : (s.wr a bs).groups = s.groups := rfl
@[simp] theorem State.wr_ctxs (a : Nat) (bs : List Byte) : (s.wr a bs).ctxs = s.ctxs := rfl
@[simp] theorem State.wr_mem (a : Nat) (bs : List Byte) : (s.wr a bs).mem = Memory.writeN s.mem a bs := rfl
@[simp] theorem State.wr_futs (a : Nat) (bs : List Byte) : (s.wr a bs).futs = s.futs := rfl
@[simp] theorem State.wr_fwait (a : Nat) (bs : List Byte) : (s.wr a bs).fwait = s.fwait := rfl
@[simp] theorem State.wr_dieFails (a : Nat) (bs : List Byte) : (s.wr a bs).dieFails = s.dieFails := rfl
@[simp] theorem State.wr_poison (a : Nat) (bs : List Byte) : (s.wr a bs).poison = s.poison := rfl
@[simp] theorem State.wr_failed (a : Nat) (bs : List Byte) : (s.wr a bs).failed = s.failed := rfl
@[simp] theorem State.wr_alloc (a : Nat) (bs : List Byte) : (s.wr a bs).alloc = s.alloc := rfl
@[simp] theorem State.wr_tblNext (a : Nat) (bs : List Byte) : (s.wr a bs).tblNext = s.tblNext := rfl
@[simp] theorem State.wr_host (a : Nat) (bs : List Byte) : (s.wr a bs).host = s.host := rfl
@[simp] theorem State.wr_hostHere (a : Nat) (bs : List Byte) : (s.wr a bs).hostHere = s.hostHere := rfl
@[simp] theorem State.wr_pageReqs (a : Nat) (bs : List Byte) : (s.wr a bs).pageReqs = s.pageReqs := rfl
@[simp] theorem State.wr_asks (a : Nat) (bs : List Byte) : (s.wr a bs).asks = s.asks := rfl
@[simp] theorem State.wr_proofs (a : Nat) (bs : List Byte) : (s.wr a bs).proofs = s.proofs := rfl
@[simp] theorem State.wr_proofq (a : Nat) (bs : List Byte) : (s.wr a bs).proofq = s.proofq := rfl
@[simp] theorem State.wr_mapWait (a : Nat) (bs : List Byte) : (s.wr a bs).mapWait = s.mapWait := rfl
@[simp] theorem State.wr_mapFin (a : Nat) (bs : List Byte) : (s.wr a bs).mapFin = s.mapFin := rfl
@[simp] theorem State.wr_kept (a : Nat) (bs : List Byte) : (s.wr a bs).kept = s.kept := rfl
@[simp] theorem State.wr_moves (a : Nat) (bs : List Byte) : (s.wr a bs).moves = s.moves := rfl
@[simp] theorem State.wr_far (a : Nat) (bs : List Byte) : (s.wr a bs).far = s.far := rfl
@[simp] theorem State.wr_link (a : Nat) (bs : List Byte) : (s.wr a bs).link = s.link := rfl
@[simp] theorem State.wr_log (a : Nat) (bs : List Byte) : (s.wr a bs).log = s.log := rfl
@[simp] theorem State.wr_placed (a : Nat) (bs : List Byte) : (s.wr a bs).placed = s.placed := rfl
@[simp] theorem State.wr_spdm (a : Nat) (bs : List Byte) : (s.wr a bs).spdm = s.spdm := rfl
@[simp] theorem State.wr_stats (a : Nat) (bs : List Byte) : (s.wr a bs).stats = s.stats := rfl
@[simp] theorem State.wr_hbm (a : Nat) (bs : List Byte) : (s.wr a bs).hbm = s.hbm := rfl
@[simp] theorem State.wr_agenda (a : Nat) (bs : List Byte) : (s.wr a bs).agenda = s.agenda := rfl
@[simp] theorem State.wr_picked (a : Nat) (bs : List Byte) : (s.wr a bs).picked = s.picked := rfl
@[simp] theorem State.wr_cur (a : Nat) (bs : List Byte) : (s.wr a bs).cur = s.cur := rfl
@[simp] theorem State.wr_serial (a : Nat) (bs : List Byte) : (s.wr a bs).serial = s.serial := rfl
@[simp] theorem State.wr_nextId (a : Nat) (bs : List Byte) : (s.wr a bs).nextId = s.nextId := rfl
@[simp] theorem State.wrAll_time (ws : List (Nat × Byte)) : (s.wrAll ws).time = s.time := rfl
@[simp] theorem State.wrAll_dev (ws : List (Nat × Byte)) : (s.wrAll ws).dev = s.dev := rfl
@[simp] theorem State.wrAll_clusters (ws : List (Nat × Byte)) : (s.wrAll ws).clusters = s.clusters := rfl
@[simp] theorem State.wrAll_dies (ws : List (Nat × Byte)) : (s.wrAll ws).dies = s.dies := rfl
@[simp] theorem State.wrAll_cores (ws : List (Nat × Byte)) : (s.wrAll ws).cores = s.cores := rfl
@[simp] theorem State.wrAll_gangs (ws : List (Nat × Byte)) : (s.wrAll ws).gangs = s.gangs := rfl
@[simp] theorem State.wrAll_groups (ws : List (Nat × Byte)) : (s.wrAll ws).groups = s.groups := rfl
@[simp] theorem State.wrAll_ctxs (ws : List (Nat × Byte)) : (s.wrAll ws).ctxs = s.ctxs := rfl
@[simp] theorem State.wrAll_mem (ws : List (Nat × Byte)) : (s.wrAll ws).mem = Memory.writeAll s.mem ws := rfl
@[simp] theorem State.wrAll_futs (ws : List (Nat × Byte)) : (s.wrAll ws).futs = s.futs := rfl
@[simp] theorem State.wrAll_fwait (ws : List (Nat × Byte)) : (s.wrAll ws).fwait = s.fwait := rfl
@[simp] theorem State.wrAll_dieFails (ws : List (Nat × Byte)) : (s.wrAll ws).dieFails = s.dieFails := rfl
@[simp] theorem State.wrAll_poison (ws : List (Nat × Byte)) : (s.wrAll ws).poison = s.poison := rfl
@[simp] theorem State.wrAll_failed (ws : List (Nat × Byte)) : (s.wrAll ws).failed = s.failed := rfl
@[simp] theorem State.wrAll_alloc (ws : List (Nat × Byte)) : (s.wrAll ws).alloc = s.alloc := rfl
@[simp] theorem State.wrAll_tblNext (ws : List (Nat × Byte)) : (s.wrAll ws).tblNext = s.tblNext := rfl
@[simp] theorem State.wrAll_host (ws : List (Nat × Byte)) : (s.wrAll ws).host = s.host := rfl
@[simp] theorem State.wrAll_hostHere (ws : List (Nat × Byte)) : (s.wrAll ws).hostHere = s.hostHere := rfl
@[simp] theorem State.wrAll_pageReqs (ws : List (Nat × Byte)) : (s.wrAll ws).pageReqs = s.pageReqs := rfl
@[simp] theorem State.wrAll_asks (ws : List (Nat × Byte)) : (s.wrAll ws).asks = s.asks := rfl
@[simp] theorem State.wrAll_proofs (ws : List (Nat × Byte)) : (s.wrAll ws).proofs = s.proofs := rfl
@[simp] theorem State.wrAll_proofq (ws : List (Nat × Byte)) : (s.wrAll ws).proofq = s.proofq := rfl
@[simp] theorem State.wrAll_mapWait (ws : List (Nat × Byte)) : (s.wrAll ws).mapWait = s.mapWait := rfl
@[simp] theorem State.wrAll_mapFin (ws : List (Nat × Byte)) : (s.wrAll ws).mapFin = s.mapFin := rfl
@[simp] theorem State.wrAll_kept (ws : List (Nat × Byte)) : (s.wrAll ws).kept = s.kept := rfl
@[simp] theorem State.wrAll_moves (ws : List (Nat × Byte)) : (s.wrAll ws).moves = s.moves := rfl
@[simp] theorem State.wrAll_far (ws : List (Nat × Byte)) : (s.wrAll ws).far = s.far := rfl
@[simp] theorem State.wrAll_link (ws : List (Nat × Byte)) : (s.wrAll ws).link = s.link := rfl
@[simp] theorem State.wrAll_log (ws : List (Nat × Byte)) : (s.wrAll ws).log = s.log := rfl
@[simp] theorem State.wrAll_placed (ws : List (Nat × Byte)) : (s.wrAll ws).placed = s.placed := rfl
@[simp] theorem State.wrAll_spdm (ws : List (Nat × Byte)) : (s.wrAll ws).spdm = s.spdm := rfl
@[simp] theorem State.wrAll_stats (ws : List (Nat × Byte)) : (s.wrAll ws).stats = s.stats := rfl
@[simp] theorem State.wrAll_hbm (ws : List (Nat × Byte)) : (s.wrAll ws).hbm = s.hbm := rfl
@[simp] theorem State.wrAll_agenda (ws : List (Nat × Byte)) : (s.wrAll ws).agenda = s.agenda := rfl
@[simp] theorem State.wrAll_picked (ws : List (Nat × Byte)) : (s.wrAll ws).picked = s.picked := rfl
@[simp] theorem State.wrAll_cur (ws : List (Nat × Byte)) : (s.wrAll ws).cur = s.cur := rfl
@[simp] theorem State.wrAll_serial (ws : List (Nat × Byte)) : (s.wrAll ws).serial = s.serial := rfl
@[simp] theorem State.wrAll_nextId (ws : List (Nat × Byte)) : (s.wrAll ws).nextId = s.nextId := rfl
@[simp] theorem State.hostWr_time (c a : Nat) (bs : List Byte) : (s.hostWr c a bs).time = s.time := rfl
@[simp] theorem State.hostWr_dev (c a : Nat) (bs : List Byte) : (s.hostWr c a bs).dev = s.dev := rfl
@[simp] theorem State.hostWr_clusters (c a : Nat) (bs : List Byte) : (s.hostWr c a bs).clusters = s.clusters := rfl
@[simp] theorem State.hostWr_dies (c a : Nat) (bs : List Byte) : (s.hostWr c a bs).dies = s.dies := rfl
@[simp] theorem State.hostWr_cores (c a : Nat) (bs : List Byte) : (s.hostWr c a bs).cores = s.cores := rfl
@[simp] theorem State.hostWr_gangs (c a : Nat) (bs : List Byte) : (s.hostWr c a bs).gangs = s.gangs := rfl
@[simp] theorem State.hostWr_groups (c a : Nat) (bs : List Byte) : (s.hostWr c a bs).groups = s.groups := rfl
@[simp] theorem State.hostWr_ctxs (c a : Nat) (bs : List Byte) : (s.hostWr c a bs).ctxs = s.ctxs := rfl
@[simp] theorem State.hostWr_mem (c a : Nat) (bs : List Byte) : (s.hostWr c a bs).mem = s.mem := rfl
@[simp] theorem State.hostWr_futs (c a : Nat) (bs : List Byte) : (s.hostWr c a bs).futs = s.futs := rfl
@[simp] theorem State.hostWr_fwait (c a : Nat) (bs : List Byte) : (s.hostWr c a bs).fwait = s.fwait := rfl
@[simp] theorem State.hostWr_dieFails (c a : Nat) (bs : List Byte) : (s.hostWr c a bs).dieFails = s.dieFails := rfl
@[simp] theorem State.hostWr_poison (c a : Nat) (bs : List Byte) : (s.hostWr c a bs).poison = s.poison := rfl
@[simp] theorem State.hostWr_failed (c a : Nat) (bs : List Byte) : (s.hostWr c a bs).failed = s.failed := rfl
@[simp] theorem State.hostWr_alloc (c a : Nat) (bs : List Byte) : (s.hostWr c a bs).alloc = s.alloc := rfl
@[simp] theorem State.hostWr_tblNext (c a : Nat) (bs : List Byte) : (s.hostWr c a bs).tblNext = s.tblNext := rfl
@[simp] theorem State.hostWr_host (c a : Nat) (bs : List Byte) : (s.hostWr c a bs).host = Memory.writeN s.host (hostKey c a) bs := rfl
@[simp] theorem State.hostWr_hostHere (c a : Nat) (bs : List Byte) : (s.hostWr c a bs).hostHere = s.hostHere := rfl
@[simp] theorem State.hostWr_pageReqs (c a : Nat) (bs : List Byte) : (s.hostWr c a bs).pageReqs = s.pageReqs := rfl
@[simp] theorem State.hostWr_asks (c a : Nat) (bs : List Byte) : (s.hostWr c a bs).asks = s.asks := rfl
@[simp] theorem State.hostWr_proofs (c a : Nat) (bs : List Byte) : (s.hostWr c a bs).proofs = s.proofs := rfl
@[simp] theorem State.hostWr_proofq (c a : Nat) (bs : List Byte) : (s.hostWr c a bs).proofq = s.proofq := rfl
@[simp] theorem State.hostWr_mapWait (c a : Nat) (bs : List Byte) : (s.hostWr c a bs).mapWait = s.mapWait := rfl
@[simp] theorem State.hostWr_mapFin (c a : Nat) (bs : List Byte) : (s.hostWr c a bs).mapFin = s.mapFin := rfl
@[simp] theorem State.hostWr_kept (c a : Nat) (bs : List Byte) : (s.hostWr c a bs).kept = s.kept := rfl
@[simp] theorem State.hostWr_moves (c a : Nat) (bs : List Byte) : (s.hostWr c a bs).moves = s.moves := rfl
@[simp] theorem State.hostWr_far (c a : Nat) (bs : List Byte) : (s.hostWr c a bs).far = s.far := rfl
@[simp] theorem State.hostWr_link (c a : Nat) (bs : List Byte) : (s.hostWr c a bs).link = s.link := rfl
@[simp] theorem State.hostWr_log (c a : Nat) (bs : List Byte) : (s.hostWr c a bs).log = s.log := rfl
@[simp] theorem State.hostWr_placed (c a : Nat) (bs : List Byte) : (s.hostWr c a bs).placed = s.placed := rfl
@[simp] theorem State.hostWr_spdm (c a : Nat) (bs : List Byte) : (s.hostWr c a bs).spdm = s.spdm := rfl
@[simp] theorem State.hostWr_stats (c a : Nat) (bs : List Byte) : (s.hostWr c a bs).stats = s.stats := rfl
@[simp] theorem State.hostWr_hbm (c a : Nat) (bs : List Byte) : (s.hostWr c a bs).hbm = s.hbm := rfl
@[simp] theorem State.hostWr_agenda (c a : Nat) (bs : List Byte) : (s.hostWr c a bs).agenda = s.agenda := rfl
@[simp] theorem State.hostWr_picked (c a : Nat) (bs : List Byte) : (s.hostWr c a bs).picked = s.picked := rfl
@[simp] theorem State.hostWr_cur (c a : Nat) (bs : List Byte) : (s.hostWr c a bs).cur = s.cur := rfl
@[simp] theorem State.hostWr_serial (c a : Nat) (bs : List Byte) : (s.hostWr c a bs).serial = s.serial := rfl
@[simp] theorem State.hostWr_nextId (c a : Nat) (bs : List Byte) : (s.hostWr c a bs).nextId = s.nextId := rfl
@[simp] theorem State.fresh_time : s.fresh.2.time = s.time := rfl
@[simp] theorem State.fresh_dev : s.fresh.2.dev = s.dev := rfl
@[simp] theorem State.fresh_clusters : s.fresh.2.clusters = s.clusters := rfl
@[simp] theorem State.fresh_dies : s.fresh.2.dies = s.dies := rfl
@[simp] theorem State.fresh_cores : s.fresh.2.cores = s.cores := rfl
@[simp] theorem State.fresh_gangs : s.fresh.2.gangs = s.gangs := rfl
@[simp] theorem State.fresh_groups : s.fresh.2.groups = s.groups := rfl
@[simp] theorem State.fresh_ctxs : s.fresh.2.ctxs = s.ctxs := rfl
@[simp] theorem State.fresh_mem : s.fresh.2.mem = s.mem := rfl
@[simp] theorem State.fresh_futs : s.fresh.2.futs = s.futs := rfl
@[simp] theorem State.fresh_fwait : s.fresh.2.fwait = s.fwait := rfl
@[simp] theorem State.fresh_dieFails : s.fresh.2.dieFails = s.dieFails := rfl
@[simp] theorem State.fresh_poison : s.fresh.2.poison = s.poison := rfl
@[simp] theorem State.fresh_failed : s.fresh.2.failed = s.failed := rfl
@[simp] theorem State.fresh_alloc : s.fresh.2.alloc = s.alloc := rfl
@[simp] theorem State.fresh_tblNext : s.fresh.2.tblNext = s.tblNext := rfl
@[simp] theorem State.fresh_host : s.fresh.2.host = s.host := rfl
@[simp] theorem State.fresh_hostHere : s.fresh.2.hostHere = s.hostHere := rfl
@[simp] theorem State.fresh_pageReqs : s.fresh.2.pageReqs = s.pageReqs := rfl
@[simp] theorem State.fresh_asks : s.fresh.2.asks = s.asks := rfl
@[simp] theorem State.fresh_proofs : s.fresh.2.proofs = s.proofs := rfl
@[simp] theorem State.fresh_proofq : s.fresh.2.proofq = s.proofq := rfl
@[simp] theorem State.fresh_mapWait : s.fresh.2.mapWait = s.mapWait := rfl
@[simp] theorem State.fresh_mapFin : s.fresh.2.mapFin = s.mapFin := rfl
@[simp] theorem State.fresh_kept : s.fresh.2.kept = s.kept := rfl
@[simp] theorem State.fresh_moves : s.fresh.2.moves = s.moves := rfl
@[simp] theorem State.fresh_far : s.fresh.2.far = s.far := rfl
@[simp] theorem State.fresh_link : s.fresh.2.link = s.link := rfl
@[simp] theorem State.fresh_log : s.fresh.2.log = s.log := rfl
@[simp] theorem State.fresh_placed : s.fresh.2.placed = s.placed := rfl
@[simp] theorem State.fresh_spdm : s.fresh.2.spdm = s.spdm := rfl
@[simp] theorem State.fresh_stats : s.fresh.2.stats = s.stats := rfl
@[simp] theorem State.fresh_hbm : s.fresh.2.hbm = s.hbm := rfl
@[simp] theorem State.fresh_agenda : s.fresh.2.agenda = s.agenda := rfl
@[simp] theorem State.fresh_picked : s.fresh.2.picked = s.picked := rfl
@[simp] theorem State.fresh_cur : s.fresh.2.cur = s.cur := rfl
@[simp] theorem State.fresh_serial : s.fresh.2.serial = s.serial := rfl
@[simp] theorem State.fresh_nextId : s.fresh.2.nextId = s.nextId + 1 := rfl
@[simp] theorem State.fresh_id : s.fresh.1 = s.nextId := rfl

end Sys2Proof.Machine
end

