-- ==== Sys2Proof/Laws/Memory.lean ====
section
/-! SUPPORT. Sparse maps and memories: what a write reads back as, and that every operation keeps the canonical form. -/

namespace Sys2Proof.Machine

section
variable {α : Type} [DecidableEq α] (d : α)

/-- A weaker lower bound keeps the form. -/
theorem smWfFrom_mono {lo lo' : Option Nat} {m : List (Nat × α)} (h : smWfFrom d lo m = true)
    (hl : ∀ k, (match lo with | none => True | some l => l < k) → (match lo' with | none => True | some l => l < k)) :
    smWfFrom d lo' m = true := by
  cases m with
  | nil => rfl
  | cons e m =>
    obtain ⟨k, v⟩ := e
    simp only [smWfFrom, Bool.and_eq_true] at h ⊢
    refine ⟨⟨?_, h.1.2⟩, h.2⟩
    have := hl k
    cases lo <;> cases lo' <;> simp_all

theorem smWfFrom_none {lo : Option Nat} {m : List (Nat × α)} (h : smWfFrom d lo m = true) : smWfFrom d none m = true :=
  smWfFrom_mono d h (fun _ _ => trivial)

theorem smWfFrom_of_lt {a b : Nat} {m : List (Nat × α)} (h : smWfFrom d (some b) m = true) (hab : a ≤ b) :
    smWfFrom d (some a) m = true :=
  smWfFrom_mono d h (fun _ hk => Nat.lt_of_le_of_lt hab hk)

/-- Writing keeps the keys rising and the default unlisted. -/
theorem smSet_wfFrom {lo : Option Nat} {m : List (Nat × α)} (i : Nat) (x : α) (h : smWfFrom d lo m = true)
    (hi : match lo with | none => True | some l => l < i) : smWfFrom d lo (smSet d m i x) = true := by
  induction m generalizing lo with
  | nil =>
    by_cases hx : x = d
    · simp [smSet, hx, smWfFrom]
    · cases lo <;> simp_all [smSet, smWfFrom]
  | cons e m ih =>
    obtain ⟨k, v⟩ := e
    simp only [smWfFrom, Bool.and_eq_true] at h
    obtain ⟨⟨hlo, hv⟩, hm⟩ := h
    by_cases h1 : i < k
    · by_cases hx : x = d
      · simp [smSet, h1, hx, smWfFrom, hlo, hv, hm]
      · simp only [smSet, h1, if_true, hx, if_false, smWfFrom, Bool.and_eq_true]
        refine ⟨⟨?_, by simpa using hx⟩, ⟨?_, hv⟩, hm⟩
        · cases lo <;> simp_all
        · rfl
    · by_cases h2 : i = k
      · by_cases hx : x = d
        · rw [smSet, if_neg h1, if_pos h2, if_pos hx]
          cases lo with
          | none => exact smWfFrom_none d hm
          | some l => exact smWfFrom_of_lt d hm (Nat.le_of_lt (by simpa using hlo))
        · rw [smSet, if_neg h1, if_pos h2, if_neg hx]
          subst h2
          simp only [smWfFrom, Bool.and_eq_true]
          exact ⟨⟨hlo, by simpa using hx⟩, hm⟩
      · simp only [smSet, h1, if_false, h2, smWfFrom, Bool.and_eq_true]
        exact ⟨⟨hlo, hv⟩, ih hm (by show k < i; omega)⟩

/-- Writing keeps the canonical form. -/
theorem smSet_wf {m : List (Nat × α)} (i : Nat) (x : α) (h : smWf d m = true) : smWf d (smSet d m i x) = true :=
  smSet_wfFrom d i x h trivial

/-- A key below every listed one reads the default. -/
theorem smGet_below {m : List (Nat × α)} {l i : Nat} (h : smWfFrom d (some l) m = true) (hi : i ≤ l) : smGet d m i = d := by
  induction m generalizing l with
  | nil => rfl
  | cons e m ih =>
    obtain ⟨k, v⟩ := e
    simp only [smWfFrom, Bool.and_eq_true, decide_eq_true_eq] at h
    rw [smGet, if_neg (by omega)]
    exact ih h.2 (by omega)

/-- A key reads what was written to it. -/
theorem smGet_smSet_same {m : List (Nat × α)} (i : Nat) (x : α) (h : smWf d m = true) : smGet d (smSet d m i x) i = x := by
  have key : ∀ lo, smWfFrom d lo m = true → smGet d (smSet d m i x) i = x := by
    clear h
    induction m with
    | nil => intro lo _; by_cases hx : x = d <;> simp [smSet, hx, smGet]
    | cons e m ih =>
      obtain ⟨k, v⟩ := e
      intro lo h
      simp only [smWfFrom, Bool.and_eq_true] at h
      by_cases h1 : i < k
      · by_cases hx : x = d
        · rw [smSet, if_pos h1, if_pos hx, smGet, if_neg (by omega), hx]
          exact smGet_below d h.2 (by omega)
        · simp [smSet, h1, hx, smGet]
      · by_cases h2 : i = k
        · by_cases hx : x = d
          · rw [smSet, if_neg h1, if_pos h2, if_pos hx, hx]
            exact smGet_below d h.2 (by omega)
          · simp [smSet, h2, hx, smGet]
        · rw [smSet, if_neg h1, if_neg h2, smGet, if_neg (by omega)]
          exact ih _ h.2
  exact key none h

/-- Another key reads as before. -/
theorem smGet_smSet_other {m : List (Nat × α)} (i j : Nat) (x : α) (h : smWf d m = true) (hij : j ≠ i) :
    smGet d (smSet d m i x) j = smGet d m j := by
  have key : ∀ lo, smWfFrom d lo m = true → smGet d (smSet d m i x) j = smGet d m j := by
    clear h
    induction m with
    | nil => intro lo _; by_cases hx : x = d <;> simp [smSet, hx, smGet, Ne.symm hij]
    | cons e m ih =>
      obtain ⟨k, v⟩ := e
      intro lo h
      simp only [smWfFrom, Bool.and_eq_true] at h
      by_cases h1 : i < k
      · by_cases hx : x = d
        · simp [smSet, h1, hx]
        · simp [smSet, h1, hx, smGet, Ne.symm hij]
      · by_cases h2 : i = k
        · by_cases hx : x = d
          · simp [smSet, h2, hx, smGet, h2 ▸ Ne.symm hij]
          · simp [smSet, h2, hx, smGet, h2 ▸ Ne.symm hij]
        · rw [smSet, if_neg h1, if_neg h2]
          by_cases hk : k = j
          · simp [smGet, hk]
          · simp only [smGet, hk, if_false]; exact ih _ h.2
  exact key none h

/-- Leaving entries out keeps the form. -/
theorem smWfFrom_filter {lo : Option Nat} {m : List (Nat × α)} (p : Nat × α → Bool) (h : smWfFrom d lo m = true) :
    smWfFrom d lo (m.filter p) = true := by
  induction m generalizing lo with
  | nil => rfl
  | cons e m ih =>
    obtain ⟨k, v⟩ := e
    simp only [smWfFrom, Bool.and_eq_true] at h
    by_cases hp : p (k, v) = true
    · simp only [List.filter_cons, hp, if_true, smWfFrom, Bool.and_eq_true]
      exact ⟨h.1, ih h.2⟩
    · simp only [List.filter_cons, hp]
      cases lo with
      | none => exact smWfFrom_none d (ih h.2)
      | some l => exact smWfFrom_of_lt d (ih h.2) (by have := h.1.1; simp at this; omega)

end

/-! Memories. -/

theorem Memory.write_wf {m : Memory} (a : Nat) (b : Byte) (h : Memory.wf m = true) : Memory.wf (Memory.write m a b) = true :=
  smSet_wf _ a b h

theorem Memory.writeN_wf {m : Memory} (a : Nat) (bs : List Byte) (h : Memory.wf m = true) :
    Memory.wf (Memory.writeN m a bs) = true := by
  induction bs generalizing m a with
  | nil => exact h
  | cons b bs ih => exact ih _ (Memory.write_wf a b h)

theorem Memory.writeAll_wf {m : Memory} (ws : List (Nat × Byte)) (h : Memory.wf m = true) :
    Memory.wf (Memory.writeAll m ws) = true := by
  induction ws generalizing m with
  | nil => exact h
  | cons w ws ih => exact ih (Memory.write_wf w.1 w.2 h)

theorem Memory.clear_wf {m : Memory} (a n : Nat) (h : Memory.wf m = true) : Memory.wf (Memory.clear m a n) = true :=
  smWfFrom_filter _ _ h

theorem copyCells_wf {src dst : Memory} (a b n : Nat) (h : Memory.wf dst = true) : Memory.wf (copyCells src dst a b n) = true :=
  Memory.writeAll_wf _ (Memory.clear_wf b n h)

theorem putPieces_wf {m : Memory} (l : List Piece) (h : Memory.wf m = true) : Memory.wf (putPieces m l) = true := by
  induction l generalizing m with
  | nil => exact h
  | cons p l ih => exact ih (Memory.writeN_wf p.1 p.2 h)

/-- A byte reads what was written to it. -/
theorem Memory.read_write_same {m : Memory} (a : Nat) (b : Byte) (h : Memory.wf m = true) : (Memory.write m a b).read a = b :=
  smGet_smSet_same _ a b h

/-- Another byte reads as before. -/
theorem Memory.read_write_other {m : Memory} (a x : Nat) (b : Byte) (h : Memory.wf m = true) (hx : x ≠ a) :
    (Memory.write m a b).read x = m.read x :=
  smGet_smSet_other _ a x b h hx

/-- Bytes outside the written range read as before. -/
theorem Memory.read_writeN_other {m : Memory} (a x : Nat) (bs : List Byte) (h : Memory.wf m = true)
    (hx : x < a ∨ a + bs.length ≤ x) : (Memory.writeN m a bs).read x = m.read x := by
  induction bs generalizing m a with
  | nil => rfl
  | cons b bs ih =>
    simp only [List.length_cons] at hx
    rw [Memory.writeN, ih _ (Memory.write_wf a b h) (by omega), Memory.read_write_other a x b h (by omega)]

end Sys2Proof.Machine
end

