-- ==== Sys2Proof/Laws/Ops.lean ====
section
/-! SUPPORT. What the shared operations of an instruction do: the slot that runs it, the writes it sends and where they land,
the registers that it reads. -/

namespace Sys2Proof.Machine

/-! Records of a table. -/

theorem smFind_smMod {α : Type} (m : List (Nat × α)) (i j : Nat) (f : α → α) :
    smFind (smMod m i f) j = if j = i then (smFind m j).map f else smFind m j := by
  induction m with
  | nil => simp [smMod, smFind]
  | cons e m ih =>
    obtain ⟨k, v⟩ := e
    simp only [smMod] at ih
    by_cases hk : k = i <;> by_cases hj : k = j
    · simp_all [smMod, smFind]
    · simp_all [smMod, smFind]
    · simp_all [smMod, smFind]
    · simp_all [smMod, smFind]

theorem smFind_smPut_same {α : Type} (m : List (Nat × α)) (i : Nat) (x : α) : smFind (smPut m i x) i = some x := by
  induction m with
  | nil => simp [smPut, smFind]
  | cons e m ih =>
    obtain ⟨k, v⟩ := e
    by_cases h1 : i < k
    · simp [smPut, h1, smFind]
    · by_cases h2 : i = k
      · simp [smPut, h2, smFind]
      · simp [smPut, h1, h2, smFind, ih, Ne.symm h2]

theorem smFind_smPut_other {α : Type} (m : List (Nat × α)) (i j : Nat) (x : α) (h : j ≠ i) :
    smFind (smPut m i x) j = smFind m j := by
  induction m with
  | nil => simp [smPut, smFind, Ne.symm h]
  | cons e m ih =>
    obtain ⟨k, v⟩ := e
    by_cases h1 : i < k
    · simp [smPut, h1, smFind, Ne.symm h]
    · by_cases h2 : i = k
      · simp [smPut, h2, smFind, h2 ▸ Ne.symm h]
      · simp [smPut, h1, h2, smFind, ih]

/-- Another gang is not changed. -/
theorem State.gang_modGang_other (s : State) (u v : Nat) (f : Gang → Gang) (h : v ≠ u) : (s.modGang u f).gang v = s.gang v := by
  simp [State.gang, smFind_smMod, h]

/-- A gang that is there is changed. -/
theorem State.gang_modGang_same (s : State) (u : Nat) (f : Gang → Gang) (h : (smFind s.gangs u).isSome = true) :
    (s.modGang u f).gang u = f (s.gang u) := by
  obtain ⟨g, hg⟩ := Option.isSome_iff_exists.1 h
  simp [State.gang, smFind_smMod, hg]

/-! The slot of an instruction. -/

/-- An instruction whose bundle issues acts. -/
theorem slot_issues {s : State} {c : Cursor} {i : Instr} (act : Cursor → State → State) (h : s.issues c i) :
    slot s i act = .next (act c s) := by
  obtain ⟨hc, hp⟩ := h
  cases hk : c.checked <;> simp_all [slot]

/-- What running a slot comes to: no bundle issues, a check stops the bundle, or the instruction acts. -/
theorem slot_cases {s t : State} {i : Instr} {act : Cursor → State → State} (h : slot s i act = .next t) :
    (s.cur = none ∧ t = s) ∨ ∃ c, s.cur = some c ∧ ((c.checked = false ∧ s.pre c i = some t) ∨ t = act c s) := by
  unfold slot at h
  split at h
  · exact .inl ⟨‹_›, by simpa using h.symm⟩
  · rename_i c hc
    refine .inr ⟨c, hc, ?_⟩
    split at h
    · exact .inr (by simpa using h.symm)
    · cases hp : s.pre c i with
      | none => exact .inr (by simpa [hp] using h.symm)
      | some x => exact .inl ⟨by simp_all, by simpa [hp] using h⟩

/-- A system instruction with a true guard acts. -/
theorem sysSlot_issues {s : State} {c : Cursor} {i : Instr} {g : Guard} (act : Cursor → State → State) (h : s.issues c i)
    (hg : s.acts c g = true) : sysSlot s i g act = .next (act c s) := by
  rw [sysSlot, slot_issues _ h, if_pos hg]

/-- A system instruction whose guard is true in no lane does nothing (R237). -/
theorem sysSlot_idle {s : State} {c : Cursor} {i : Instr} {g : Guard} (act : Cursor → State → State) (h : s.issues c i)
    (hg : s.acts c g = false) : sysSlot s i g act = .next s := by
  rw [sysSlot, slot_issues _ h, if_neg (by simp [hg])]

/-! Fixed-latency writes. -/

/-- What sending writes does (R96). -/
theorem State.send_eq {s : State} {c : Cursor} (h : s.cur = some c) (lat : Nat) (ws : List Write) :
    s.send lat ws =
      (let new := ws.mapIdx (fun n w => InFlight.mk (c.cyc + lat) c.cyc (s.serial + n) c.slices w)
       { s.modGang c.gang (fun g => { g with flight := new.foldl (fun l w => insertFlight w l) g.flight }) with
         serial := s.serial + ws.length }) := by
  simp [State.send, h]

@[simp] theorem State.send_cur (s : State) (lat : Nat) (ws : List Write) : (s.send lat ws).cur = s.cur := by
  unfold State.send; split <;> simp_all
@[simp] theorem State.send_mem (s : State) (lat : Nat) (ws : List Write) : (s.send lat ws).mem = s.mem := by
  unfold State.send; split <;> rfl
@[simp] theorem State.send_dev (s : State) (lat : Nat) (ws : List Write) : (s.send lat ws).dev = s.dev := by
  unfold State.send; split <;> rfl
@[simp] theorem State.send_host (s : State) (lat : Nat) (ws : List Write) : (s.send lat ws).host = s.host := by
  unfold State.send; split <;> rfl
@[simp] theorem State.send_groups (s : State) (lat : Nat) (ws : List Write) : (s.send lat ws).groups = s.groups := by
  unfold State.send; split <;> rfl
@[simp] theorem State.send_ctxs (s : State) (lat : Nat) (ws : List Write) : (s.send lat ws).ctxs = s.ctxs := by
  unfold State.send; split <;> rfl
@[simp] theorem State.send_cores (s : State) (lat : Nat) (ws : List Write) : (s.send lat ws).cores = s.cores := by
  unfold State.send; split <;> rfl
@[simp] theorem State.send_link (s : State) (lat : Nat) (ws : List Write) : (s.send lat ws).link = s.link := by
  unfold State.send; split <;> rfl

/-- A write joins the flight once. -/
theorem mem_insertFlight (w x : InFlight) (l : List InFlight) : x ∈ insertFlight w l ↔ x = w ∨ x ∈ l := by
  induction l with
  | nil => simp [insertFlight]
  | cons y l ih =>
    unfold insertFlight
    split
    · simp
    · simp only [List.mem_cons, ih]
      constructor <;> rintro (h | h | h) <;> simp_all

/-! Registers read within their width. -/

theorem Gang.sReg_lt (g : Gang) (r : Nat) : g.sReg r < 2 ^ 64 := (smGet (0 : Dword) g.s r).isLt
theorem Gang.kReg_lt (g : Gang) (r : Nat) : g.kReg r < 2 ^ 64 := (smGet (0 : Dword) g.k r).isLt
theorem Gang.vReg_lt (g : Gang) (i r : Nat) : g.vReg i r < 2 ^ 32 := (smGet (0 : Word) g.v (i * 256 + r)).isLt
theorem Gang.latch0_lt (g : Gang) (i : Nat) : g.latch0 i < 2 ^ 32 := (smGet (0 : Word) g.l0 i).isLt
theorem Gang.latch1_lt (g : Gang) (i : Nat) : g.latch1 i < 2 ^ 32 := (smGet (0 : Word) g.l1 i).isLt

/-- What a shadow gives lies below a bound that the old value and every write keep. -/
theorem Cursor.inShadow_lt (c : Cursor) (i r n : Nat) (f : Write → Option Nat) (hf : ∀ w y, f w = some y → y < n)
    (ws : List InFlight) : ∀ old, old < n → c.inShadow i r f ws old < n := by
  unfold Cursor.inShadow
  induction ws with
  | nil => exact fun _ h => h
  | cons w ws ih =>
    intro old h
    rw [List.foldl_cons]
    refine ih _ ?_
    split
    · exact h
    · split
      · exact hf _ _ (by assumption)
      · exact h

/-- With no write in flight a read gives the old value. -/
@[simp] theorem Cursor.inShadow_nil {α : Type} (c : Cursor) (i r : Nat) (f : Write → Option α) (old : α) :
    c.inShadow i r f [] old = old := rfl

theorem Write.sVal_lt (r : Nat) (w : Write) (y : Nat) (h : w.sVal r = some y) : y < 2 ^ 64 := by
  unfold Write.sVal at h
  split at h <;> [split at h; skip] <;> cases h
  exact Nat.mod_lt _ (by decide)

theorem Write.kVal_lt (r : Nat) (w : Write) (y : Nat) (h : w.kVal r = some y) : y < 2 ^ 64 := by
  unfold Write.kVal at h
  split at h <;> [split at h; skip] <;> cases h
  exact Nat.mod_lt _ (by decide)

theorem Write.vVal_lt (i r : Nat) (w : Write) (y : Nat) (h : w.vVal i r = some y) : y < 2 ^ 32 := by
  unfold Write.vVal at h
  split at h
  · split at h
    · cases h
      exact Nat.mod_lt _ (by decide)
    · split at h
      · obtain ⟨x, -, rfl⟩ := Option.map_eq_some_iff.mp h
        exact Nat.mod_lt _ (by decide)
      · cases h
  · cases h

theorem State.readSAt_lt (s : State) (c : Cursor) (i r : Nat) : s.readSAt c i r < 2 ^ 64 :=
  c.inShadow_lt i _ _ _ (Write.sVal_lt r) _ _ (Gang.sReg_lt _ _)

theorem State.readS_lt (s : State) (c : Cursor) (r : Nat) : s.readS c r < 2 ^ 64 := s.readSAt_lt c 0 r

theorem State.readV_lt (s : State) (c : Cursor) (i r : Nat) : s.readV c i r < 2 ^ 32 :=
  c.inShadow_lt i _ _ _ (Write.vVal_lt i r) _ _ (Gang.vReg_lt _ _ _)

theorem State.readK_lt (s : State) (c : Cursor) (r : Nat) : s.readK c r < 2 ^ 64 :=
  c.inShadow_lt 0 _ _ _ (Write.kVal_lt r) _ _ (Gang.kReg_lt _ _)

theorem wrap_lt (w : Nat) (i : Int) : wrap w i < 2 ^ w := by
  have h : (0 : Int) < (2 ^ w : Nat) := by exact_mod_cast Nat.two_pow_pos w
  have h1 := Int.emod_nonneg i (ne_of_gt h)
  have h2 := Int.emod_lt_of_pos i h
  unfold wrap
  omega

theorem State.scalarSrc_lt (s : State) (c : Cursor) (b : SSrc) : s.scalarSrc c b < 2 ^ 64 := by
  cases b with
  | reg b => exact s.readS_lt c b
  | imm i => exact wrap_lt 64 _
  | ext i => exact wrap_lt 64 _

/-! Registers as writes land. -/

@[simp] theorem Gang.landWrite_s_same (g : Gang) (t r x : Nat) (h : smWf (0 : Dword) g.s = true) :
    (g.landWrite t (.s r x)).sReg r = x % 2 ^ 64 := by
  simp only [Gang.landWrite, Gang.landReg, Gang.landLatch, Gang.setS, Gang.sReg]
  rw [smGet_smSet_same _ _ _ h, BitVec.toNat_ofNat]

theorem Gang.landWrite_s_other (g : Gang) (t r x q : Nat) (h : smWf (0 : Dword) g.s = true) (hq : q ≠ r) :
    (g.landWrite t (.s r x)).sReg q = g.sReg q := by
  simp only [Gang.landWrite, Gang.landReg, Gang.landLatch, Gang.setS, Gang.sReg]
  rw [smGet_smSet_other _ _ _ _ h hq]

end Sys2Proof.Machine
end

