-- ==== Sys2Proof/Tests/Slice0.lean ====
section
/-! SUPPORT. Tests: ill-formed terms that the checks refuse, words of the spec and what they decode to, single steps, and for the
statements a concrete state that meets their hypotheses. -/

set_option Elab.async false

namespace Sys2Proof.Tests

open Sys2Proof.Machine

/-! Ill-formed instructions, one or more for each check of `legalErrs`, with the reason of R110 that refuses them. -/

/-- The address S2 + 0. -/
def at2 : Addr := ⟨2, .imm 0, 0⟩

/-- Every instruction of a list is refused for reason `r`. -/
def refused (r : Nat) (l : List Instr) : Bool := l.all (fun i => !i.wf && i.refusedFor == some r)

/-- Vector slot, reason 0x11: type, rounding mode, SAT, condition, half and odd destination pairs. -/
theorem test_wf_vector_types : refused 0x11
    [.vadd ⟨.f32, .rne, false, guardAll, 0, .v 0, .v 0⟩, .vadd ⟨.i32, .rz, false, guardAll, 0, .v 0, .v 0⟩,
      .vmulh ⟨.i16, .rne, false, guardAll, 0, .v 0, .v 0⟩, .vmulh ⟨.i32, .rne, true, guardAll, 0, .v 0, .v 0⟩,
      .vadd ⟨.i64, .rne, false, guardAll, 1, .v 0, .v 0⟩, .vabs ⟨.n32, .rne, false, guardAll, 0, .v 0⟩,
      .vnot ⟨.f32, .rne, false, guardAll, 0, .v 0⟩, .vmad ⟨.b32, .rne, false, guardAll, 0, .v 0, .v 0, .v 0⟩,
      .vfadd ⟨.i32, .rne, false, guardAll, 0, .v 0, .v 0⟩, .vfadd ⟨.f32, .rs, false, guardAll, 0, .v 0, .v 0⟩,
      .vfmin ⟨.f32, .rup, false, guardAll, 0, .v 0, .v 0⟩, .vfabs ⟨.f32, .rne, true, guardAll, 0, .v 0⟩,
      .vrcp ⟨.f64, .rne, false, guardAll, 0, .v 0⟩, .vcmp ⟨.e4m3, guardAll, 0, .v 0, .v 0, .eq, false⟩,
      .vcmp ⟨.i32, guardAll, 0, .v 0, .v 0, .un, false⟩, .vcmp ⟨.f32, guardAll, 0, .v 0, .v 0, .eq, true⟩,
      .vsel ⟨.e2m1, guardAll, 0, .v 0, .v 0, 0, false⟩, .vmov ⟨.e5m2, .rne, false, guardAll, 0, .v 0⟩] = true := by decide +kernel

/-- Vector slot, conversions, reductions and crossings, reason 0x11. -/
theorem test_wf_conversions : refused 0x11
    [.vcvt ⟨.f32, .f32, .rne, false, guardAll, 0, .v 0⟩, .vcvt ⟨.i32, .i64, .rz, false, guardAll, 0, .v 0⟩,
      .vcvt ⟨.i32, .f32, .rs, false, guardAll, 0, .v 0⟩, .vcvt ⟨.f32, .f16, .rz, false, guardAll, 0, .v 0⟩,
      .vcvt ⟨.f32, .f16, .rne, true, guardAll, 0, .v 0⟩, .vcvt ⟨.f64, .f32, .rne, false, guardAll, 1, .v 0⟩,
      .vpack ⟨.f32, .f64, .rne, false, guardAll, 0, .v 0, .v 0, .v 0⟩, .vunpk ⟨.f16, .f32, .rne, false, guardAll, 0, .v 0, .v 0, .v 0⟩,
      .vunpk ⟨.i32, .i8, .rs, false, guardAll, 0, .v 0, .v 0, .v 0⟩, .vqnt ⟨.rne, guardAll, 1, .v 0, false⟩,
      .shfl ⟨.f32, guardAll, 0, .v 0, .v 0, .v 0, 0⟩, .vred ⟨.add, .i8, .rne, guardAll, 0, .v 0⟩,
      .vred ⟨.and, .f32, .rne, guardAll, 0, .v 0⟩, .vred ⟨.min, .f32, .rz, guardAll, 0, .v 0⟩] = true := by decide +kernel

/-- Reasons 0x12 and 0x13 of the vector slot: operands that are not legal, and fields that must be zero. -/
theorem test_wf_vector_operands : (refused 0x12
    [.vadd ⟨.i64, .rne, false, guardAll, 0, .v 1, .v 0⟩, .vadd ⟨.i64, .rne, false, guardAll, 0, .l1, .v 0⟩,
      .vfadd ⟨.f16, .rne, false, guardAll, 0, .imm 1, .v 0⟩, .vshl ⟨.i64, .rne, false, guardAll, 0, .v 0, .v 3⟩,
      .vbfi ⟨.i64, .rne, false, guardAll, 0, .v 0, .v 0, .v 3⟩, .vqnt ⟨.rne, guardAll, 0, .imm 0, false⟩]
    && refused 0x13 [.vmov ⟨.i32, .rne, true, guardAll, 0, .v 0⟩, .vpack ⟨.f16, .f32, .rne, false, guardAll, 0, .v 0, .v 0, .v 1⟩,
      .vunpk ⟨.f32, .f16, .rne, false, guardAll, 0, .v 0, .v 0, .v 1⟩]) = true := by decide +kernel

/-- Memory slot: types, scopes and orders, read-only, handles (0x11), and operands (0x12). -/
theorem test_wf_memory : (refused 0x11
    [.ld ⟨.f32, .none, .plain, guardAll, at2, 0, false⟩, .ld ⟨.b32, .none, .acq, guardAll, at2, 0, false⟩,
      .ld ⟨.b32, .dev, .acq, guardAll, at2, 0, true⟩, .ldsp ⟨.b32, .dev, .acq, guardAll, at2, 0, false⟩,
      .ldsp ⟨.b32, .none, .plain, guardAll, at2, 0, true⟩, .st ⟨.b32, .dev, .acq, guardAll, .v 0, at2, 0⟩,
      .stsp ⟨.b32, .clu, .rel, guardAll, .v 0, at2, 0⟩, .atom ⟨.add, .i16, .dev, .plain, guardAll, .v 0, at2, 0⟩,
      .atom ⟨.add, .i32, .none, .plain, guardAll, .v 0, at2, 0⟩, .atomsp ⟨.add, .i32, .dev, .plain, guardAll, .v 0, at2, 0⟩,
      .fence ⟨.none, .acq, 0⟩, .fence ⟨.dev, .plain, 0⟩, .stb ⟨.b32, .none, .plain, guardAll, .v 0, at2, ⟨false, 0⟩, ⟨false, 0⟩, ⟨false, 0⟩⟩,
      .stb ⟨.b32, .dev, .rel, guardAll, .v 0, at2, ⟨false, 0⟩, ⟨false, 0⟩, ⟨true, 0⟩⟩,
      .stk ⟨.b32, .none, .plain, guardAll, .v 0, at2, ⟨false, 0⟩, ⟨false, 0⟩, ⟨false, 0⟩⟩, .bwait ⟨⟨false, 0⟩, ⟨false, 0⟩, ⟨false, 0⟩⟩,
      .strm ⟨.f32, 0, 0⟩, .fput ⟨.i32, .gang, guardAll, .v 0, at2, 0⟩, .fput ⟨.i64, .none, guardAll, .v 0, at2, 0⟩,
      .fwait ⟨.b32, .none, false, guardAll, at2, 0⟩, .bcrd ⟨.i32, guardAll, 0⟩]
    && refused 0x12 [.st ⟨.i64, .none, .plain, guardAll, .v 1, at2, 0⟩, .atom ⟨.cas, .i64, .dev, .plain, guardAll, .v 2, at2, 0⟩,
      .atom ⟨.cas, .i32, .dev, .plain, guardAll, .imm 0, at2, 0⟩, .bcmin ⟨guardAll, .v 1, 0⟩]) = true := by decide +kernel

/-- Copy-or-matrix and control slots (0x11, 0x12, 0x13, 0x34). -/
theorem test_wf_control : (refused 0x11
    [.mma ⟨guardAll, ⟨false, 0⟩, 0, 0, 1, 0, false⟩, .mmac ⟨guardAll, ⟨false, 0⟩, 0, 0, 1, 0, 0, 0, 0⟩,
      .cpy ⟨⟨false, 0⟩, 0, 0, 0, .gang⟩, .cpyr ⟨⟨false, 0⟩, 0, 0, 0, .none⟩, .zretG ⟨guardAll, ⟨false, 0⟩, 0, 0, 0, 0, .none⟩,
      .br ⟨31, true⟩ (.short 0), .waitf 0 false, .testf 0 false 0 false, .clrf 0, .sysrd guardAll (.s 0) 0x03,
      .sysrd guardAll (.v 0) 0x08, .syswr guardAll 0x08 0]
    && refused 0x12 [.sshl ⟨0, 0, .imm (-1)⟩, .sshr ⟨0, 0, .ext 64⟩, .fork guardAll 61 0 0 0]
    && refused 0x13 [.zst ⟨guardAll, ⟨false, 0⟩, 0, 0, 0, 0, .dev⟩, .zretSp ⟨guardAll, ⟨false, 0⟩, 0, 0, 0, 0, .dev⟩,
      .cpseal ⟨false, 1⟩, .hset ⟨⟨false, 2⟩, 0, 0⟩, .zld ⟨guardAll, ⟨false, 1⟩, 0, 0, 0⟩]
    && refused 0x34 [.endl 6, .loop 7 (.imm 1), .lbrk 6 (.short 0)]) = true := by decide +kernel

/-- Forms at the edge of the same checks are well formed: `.un` of a float compare, V254 as a pair, a shift by 63, level 5. -/
theorem test_wf_edges : ([Instr.vcmp ⟨.f16, guardAll, 0, .v 0, .v 0, .un, true⟩, .vadd ⟨.i64, .rne, true, guardAll, 254, .v 254, .l0⟩,
    .sshl ⟨0, 0, .ext 63⟩, .endl 5, .fork guardAll 60 0 7 0, .atom ⟨.cas, .i64, .sys, .ar, guardAll, .v 252, at2, 0⟩,
    .mma ⟨guardAll, ⟨true, 15⟩, 0, 0, 248, 15, true⟩, .br ⟨31, false⟩ (.short 0)]).all Instr.wf = true := by decide +kernel

/-! Words of the spec, and what they decode to. -/

/-- The words of one bundle decode to these instructions. -/
def reads (ws : List Nat) (is : List Instr) : Bool := decide ((decodeBundle ws).toOption.map Bundle.instrs = some is)

/-- 06, two encoded bundles: `@P2 vcmp.lt.f32 P5, V3, L1`, and `shfl.down.b32 V2, P20, V1, 1, V11`. -/
theorem test_decode_vector : (reads [0x80008800, 0x03504002, 0x40A01014] [.vcmp ⟨.f32, ⟨2, false⟩, 5, .v 3, .l1, .lt, false⟩]
    && reads [0x8100A000, 0x01A040B4, 0x6200F808] [.shfl ⟨.b32, guardAll, 2, .v 1, .imm 129, .v 11, 4⟩]) = true := by decide +kernel

/-- 05, a loop, timed: LOOP, VADD with a loop index, ENDL. -/
theorem test_decode_loop : (reads [0x11000000, 0x23E10003] [.loop 0 (.imm 3)]
    && reads [0x80001000, 0x08520000, 0x0030F820] [.vadd ⟨.i32, .rne, false, guardAll, 8, .v 8, .idx 0⟩]
    && reads [0x12000000, 0x27E00000] [.endl 0]) = true := by decide +kernel

/-- 07, the encoded ATOMQ; 21, the MMA that keeps its A. -/
theorem test_decode_memory_and_matrix :
    (reads [0x40000000, 0x88040082, 0x09787C00] [.atomq ⟨.add, .n32, .dev, .plain, guardAll, .v 1, ⟨4, .v 8, 2⟩, 16⟩]
    && reads [0x20000000, 0x02001000, 0x00600058] [.mma ⟨⟨3, false⟩, ⟨false, 0⟩, 0, 11, 16, 0, true⟩]) = true := by decide +kernel

/-- 09: `sysrd S7, CYCLE`, and `fork.w1 S20, S8, task` with its offset of 0x50 words. -/
theorem test_decode_system : (reads [0x12000000, 0xA3E03811] [.sysrd guardAll (.s 7) 0x11]
    && reads [0x10000100, 0xBFE50800, 0x50] [.fork guardAll 20 8 0 0x50]) = true := by decide +kernel

/-- The words of one bundle are refused in this slot for this reason. -/
def refusesWords (ws : List Nat) (e : Slot × Nat) : Bool :=
  match decodeBundle ws with
  | .error x => decide (x = e)
  | .ok _ => false

/-- R82, R85: an empty run with GAP 3, RUN 2 and REGANG; a header whose low byte is not 0 is refused with reason 0x01, and an opcode
without an instruction with 0x10 in its slot. -/
theorem test_decode_headers : (reads [0x030A0000] [.emptyRun 3 2 true false] && refusesWords [0x03000001] (.hdr, 0x01)
    && refusesWords [0x80000000, 0, 0xFF00F800] (.v, 0x10)) = true := by decide +kernel

/-- A table row's word, laid out by R78: the 64 bits of 07's ATOMQ behind its header. -/
theorem test_decode_table_word : decodeTableWord 96 0x09787C008804008240000000
    = some (.atomq ⟨.add, .n32, .dev, .plain, guardAll, .v 1, ⟨4, .v 8, 2⟩, 16⟩) := by decide +kernel

/-! A small machine: the launch of `State.armed`, with a second slice, a data page at 0x40000 and a handler. -/

/-- `sadd S4, S4, -8` (05). -/
def code : List Byte := tableBytes 64 0x63E104F810000000

/-- The data page at 0x40000: writable local memory at 0x300000. -/
def page4 : Nat := mkLeaf 0x300000 0 0 true false false

/-- A gang with two slices of one part each: S2 holds an address in the data page and S3 one in scratchpad, P1 is true in lane 3 alone,
and V0 to V3 of lane 0 hold a NaN, 1.0, −0 and 2.0. -/
def gang1 (g : Gang) : Gang := { g with
  width := 2
  slices := g.slices ++ g.slices
  parts := [newPart 1, newPart 2]
  s := [(2, 0x40010), (3, 0x40), (6, 0x10000), (7, 8)]
  k := [(0, 0x8000000000000005)]
  p := [(97, true)]
  v := [(0, 0x7FC00000), (1, 0x3F800000), (2, 0x80000000), (3, 0x40000000)] }

/-- The bundle at 0x10000 issues in the first slice. -/
def cur0 : Cursor := ⟨1, 0, 1, 0x10000, 0x10008, 1, 10, false, [], [], true, 0⟩

/-- Memory (R280, R281): the code at 0x100000, and the tables of the five levels from 0xB00000000 on, whose last has the pages at 0x10000
(code), 0x40000, 0x50000 (held) and 0x60000 (in host memory at 0x7000000). -/
def tables : Memory :=
  [(0x100003, 0x10), (0x100004, 0xF8), (0x100005, 4), (0x100006, 0xE1), (0x100007, 0x63),
    (0xB00000000, 1), (0xB00000001, 0x10), (0xB00000004, 0x0B), (0xB00001000, 1), (0xB00001001, 0x20), (0xB00001004, 0x0B),
    (0xB00002000, 1), (0xB00002001, 0x30), (0xB00002004, 0x0B), (0xB00003000, 1), (0xB00003001, 0x40), (0xB00003004, 0x0B),
    (0xB00004008, 19), (0xB0000400A, 0x10), (0xB00004020, 11), (0xB00004022, 0x30), (0xB00004028, 2),
    (0xB00004030, 139), (0xB00004033, 7)]

/-- The machine that the tests use. -/
def base : State :=
  let s := State.reset.armed code
  let s : State := { s with
    mem := tables, tblNext := 0xB00005000
    dev := { s.dev with stage := 2 }
    cores := [(0, { (default : Core) with tlb := [⟨0, 0x40000, 0x10000, page4⟩] })]
    proofs := [⟨0, 0x10000, 16, 1, 0, 0, false, 1, [0, 8], [1], []⟩]
    picked := [], cur := some cur0, nextId := 10 }
  let s := s.modLaunch 0 0 1 (fun l => { l with hdr := { l.hdr with handler := 8, spad := 4096 } })
  s.modGang 1 gang1

/-- The same before the checks of the bundle. -/
def early : State := { base with cur := some { cur0 with checked := false } }

/-- Every lane; no lane; lane 3 alone. -/
def gAll : Guard := guardAll
def gNone : Guard := ⟨0, false⟩
def gOne : Guard := ⟨1, false⟩

/-! Single steps: the results that the spec's rules give. -/

/-- The state after a step, or `s` where there is none. -/
def after (r : Host.Outcome State Fault Refusal) (s : State) : State :=
  match r with
  | .next t => t
  | _ => s

/-- 05, R140: `sadd S4, S4, -8` on 0 leaves 2^64 − 8, two cycles later; R123: RET goes to its register. -/
theorem test_sadd : (((after (exec (.sadd ⟨4, 4, .imm (-8)⟩) base) base).gang 1).landUpTo 12).sReg 4 = 2 ^ 64 - 8
    ∧ (((after (exec (.ret 6) base) base).gang 1).slice 0).curSet.map LaneSet.pc = some 0x10000 := by decide +kernel

/-- R57, R148: 1 − 2 wraps to 2^32 − 1 as `.n32`, and saturates to 0. -/
theorem test_vsub : (((after (exec (.vsub ⟨.n32, .rne, false, gAll, 5, .imm 1, .imm 2⟩) base) base).gang 1).landUpTo 14).vReg 0 5 = 2 ^ 32 - 1
    ∧ (((after (exec (.vsub ⟨.n32, .rne, true, gAll, 5, .imm 1, .imm 2⟩) base) base).gang 1).landUpTo 14).vReg 0 5 = 0 := by decide +kernel

/-- R151, R153: 1.0 + 2.0 is 3.0 after 6 cycles; the smaller of a NaN and 1.0 is 1.0. -/
theorem test_vfadd : (((after (exec (.vfadd ⟨.f32, .rne, false, gAll, 5, .v 1, .v 3⟩) base) base).gang 1).landUpTo 16).vReg 0 5 = 0x40400000
    ∧ (((after (exec (.vfmin ⟨.f32, .rne, false, gAll, 5, .v 0, .v 1⟩) base) base).gang 1).landUpTo 16).vReg 0 5 = 0x3F800000 := by decide +kernel

/-- R154: the square root of 2 in `.f32` is 0x3FB504F3; the reciprocal of −0 is −∞. -/
theorem test_vsqrt : (((after (exec (.vsqrt ⟨.f32, .rne, false, gAll, 5, .v 3⟩) base) base).gang 1).landUpTo 26).vReg 0 5 = 0x3FB504F3
    ∧ (((after (exec (.vrcp ⟨.f32, .rne, false, gAll, 5, .v 2⟩) base) base).gang 1).landUpTo 26).vReg 0 5 = 0xFF800000 := by decide +kernel

/-- R181: STSP stores the low bytes of its data at the lane's address; ST stores through the page table (R280), here 16 bytes into its page. -/
theorem test_stores :
    (after (exec (.st ⟨.n16, .none, .plain, gOne, .imm 5, ⟨2, .imm 0, 0⟩, 0⟩) base) base).rd 0x300010 3 = [5, 0, 0] ∧
    Memory.readN ((after (exec (.stsp ⟨.n32, .none, .plain, gOne, .imm (-2), ⟨3, .imm 0, 0⟩, 4⟩) base) base).group 0).spad 0x44 4
      = [0xFE, 0xFF, 0xFF, 0xFF] := by decide +kernel

/-- R239, R240: SYSRD of LANEID into V9 gives each lane its number; R243, R373: TRAP 7 sets cause 1 and the code, and enters the handler. -/
theorem test_system : (((after (exec (.sysrd gAll (.v 9) 0) base) base).gang 1).landUpTo 14).vReg 5 9 = 5
    ∧ let t := (after (exec (.trap gAll 7) base) base).gang 1
      (t.slice 0).frame.cause = 1 ∧ (t.slice 0).frame.info = 7 ∧ (t.slice 0).frame.pc = 0x10008
        ∧ (t.slice 0).curSet.map LaneSet.pc = some 0x10008 ∧ t.inHandler 1 = true := by decide +kernel

/-- R60 to R62, R69: 0x3F8 in e4m3 terms: 1.0625 rounds to even, 1.0, in e4m3, and 448 is its largest value. -/
theorem test_round : roundEx (.fin false 17 (-4)) (fmtOf .e4m3) .rne false 0 = 0x38
    ∧ decodeF (fmtOf .e4m3) 0x7E = .fin false 14 5 := by decide +kernel

/-! Witnesses: for the statements of Certificates, concrete states and operands that meet their hypotheses together. -/

/-- A legal state steps, with nothing picked and with a bundle picked (StepKeepsLegal). -/
theorem witness_legal_steps : State.reset.Inv ∧ (∃ t, step State.reset = .next t) ∧ base.Inv := by
  unfold State.Inv Dev.ok
  exact ⟨by decide +kernel, ⟨_, rfl⟩, by decide +kernel⟩

/-- Words that decode (EncodeDecode): a vector, a memory and a copy-or-matrix slot. -/
theorem witness_slot_words : (decodeV (splitV 0x40A0101403504002)).toOption = some (.vcmp ⟨.f32, ⟨2, false⟩, 5, .v 3, .l1, .lt, false⟩)
    ∧ (decodeM (splitM 0x09787C0088040082)).toOption = some (.atomq ⟨.add, .n32, .dev, .plain, guardAll, .v 1, ⟨4, .v 8, 2⟩, 16⟩)
    ∧ (decodeX (splitX 0x0060005802001000)).toOption = some (.mma ⟨⟨3, false⟩, ⟨false, 0⟩, 0, 11, 16, 0, true⟩) := by decide +kernel

/-- The machine of `State.withFetchWord` at `sadd S4, S4, -8`. -/
def fetched : State := State.reset.withFetchWord 64 0x63E104F810000000

/-- The same at a word that no bundle is. -/
def badCode : State := State.reset.withFetchWord 32 0x03000001

/-- A picked part whose bytes decode, and whose bundle issues with no check in its way (StepRunsDecodedBundle). -/
theorem witness_bundle_issues :
    ((fetched.gang 1).part 0).map Part.slices = some 1
    ∧ (match fetched.fetch (fetched.gang 1).ctx ((fetched.gang 1).pcOf 1) with
      | .ok bs => (match decodeBytes bs with | .ok b => b.instrs == [.sadd ⟨4, 4, .imm (-8)⟩] | .error _ => false)
      | _ => false) = true
    ∧ fetched.picked = [(1, 0)]
    ∧ (let s0 : State := { fetched with picked := [] }
      s0.eligible 1 0 && (match s0.nextBundle 1 0 with
        | .bundle c _ is => (s0.preAll { c with desc := [] } is (s0.currentCheck { c with desc := [] } is) none).isNone
            && (s0.marking { c with desc := [] } is).isNone
        | _ => false)) = true := by decide +kernel

/-- Nothing picked, with an event and without one (StepRunsAgenda); a picked part at code that the decoder refuses
(UnproofedCodeRefused). -/
theorem witness_step_without_a_bundle : base.picked = [] ∧ base.agenda = []
    ∧ badCode.picked = [(1, 0)] ∧ ((badCode.gang 1).part 0).map Part.slices = some 1
    ∧ ({ badCode with picked := [] } : State).eligible 1 0 = true
    ∧ (match badCode.fetch (badCode.gang 1).ctx ((badCode.gang 1).pcOf 1) with
      | .ok bs => (match decodeBytes bs with | .error e => decide (e = (.hdr, 0x01)) | .ok _ => false)
      | _ => false) = true := by decide +kernel

/-- Every instruction issues in `base` (the statements whose hypothesis is `issues` alone). -/
theorem witness_issues (i : Instr) : base.issues cur0 i := ⟨rfl, .inl rfl⟩

/-- Before the checks, instructions of each slot pass them and issue. -/
theorem witness_issues_checked : ([Instr.vadd ⟨.i32, .rne, false, gAll, 0, .v 0, .v 1⟩, .ldsp ⟨.b32, .none, .plain, gAll, ⟨3, .imm 0, 0⟩, 0, false⟩,
    .st ⟨.b32, .none, .plain, gOne, .v 0, ⟨2, .imm 0, 0⟩, 0⟩, .zclr ⟨gAll, ⟨true, 3⟩, 1⟩, .cpseal ⟨true, 2⟩, .sadd ⟨4, 4, .imm 1⟩, .br ⟨1, false⟩ (.short 0),
    .sysrd gAll (.s 5) 0x12, .trap gAll 7, .ret 6].all (fun i => (early.pre { cur0 with checked := false } i).isNone)) = true := by decide +kernel

/-- Registers in their canonical form, and no write in flight (WritesChangeTheirTargets, ResultsLandInTheirCycle). -/
theorem witness_registers : (smFind base.gangs 1).isSome = true ∧ (base.gang 1).flight = [] ∧ smWf (0 : Dword) (base.gang 1).s = true
    ∧ smWf (0 : Word) (base.gang 1).v = true ∧ smWf false (base.gang 1).p = true ∧ smWf (0 : Word) (base.gang 1).l0 = true
    ∧ smWf (0 : Word) (base.gang 1).l1 = true ∧ smWf (0 : Word) (base.gang 1).c0 = true ∧ smWf (0 : Word) (base.gang 1).c1 = true := by decide +kernel

/-- Two writes of S4 of which the second lands later, and two that land together (LaterLandingStays). -/
theorem witness_landings : let a : InFlight := ⟨12, 10, 3, 1, .s 4 7⟩
    let b : InFlight := ⟨14, 9, 2, 1, .s 4 8⟩
    let d : InFlight := ⟨12, 10, 4, 1, .s 4 9⟩
    (a.land < b.land ∧ b.land ≤ 14) ∧ (a.land = d.land ∧ a.seq < d.seq ∧ d.land ≤ 12) := by decide

/-- A V write that touches no other register, and one that does (LandingChangesOnlyItsTarget). -/
theorem witness_landing_targets : (∀ lo hi b, Write.v 0 4 1 (some 2) true ≠ .v 0 6 lo hi b)
    ∧ (∀ r' lo hi b, r' + 1 = 6 → Write.v 0 4 1 (some 2) true ≠ .v 0 r' lo (some hi) b)
    ∧ (∀ b, Write.s 4 1 ≠ .p 0 3 b) ∧ (∀ x m, Write.s 4 1 ≠ .sys 0x20 x m) := by
  refine ⟨by simp, ?_, by simp, by simp⟩
  intro r' lo hi b h e
  simp only [Write.v.injEq] at e
  omega

/-- Memory in its canonical form (MemoryReadsWhatWasWritten). -/
theorem witness_memory : Memory.wf base.mem = true ∧ Memory.wf base.host = true ∧ base.mem ≠ [] := by decide +kernel

/-- Slices inside and outside the part, older flags, and a WAITF of each outcome (ClrfClearsItsFlags, FlagsAreWaitedFor). -/
theorem witness_flags : (base.gang 1).slices.length = 2 ∧ cur0.slices.testBit 0 = true ∧ cur0.slices.testBit 1 = false
    ∧ ((base.gang 1).slice 0).flags.cyc < cur0.cyc
    ∧ (∀ k ∈ bitsOf 8 cur0.slices, ((base.gang 1).slice k).flags.read cur0.cyc &&& 0 = 0)
    ∧ (∃ k ∈ bitsOf 8 cur0.slices, ¬(((base.gang 1).slice k).flags.read cur0.cyc &&& 1 ≠ 0))
    ∧ (5 : Nat).testBit 2 = true := by decide +kernel

/-- A branch that every lane takes (BranchSplitsByPredicate); a loop of 3, and its last pass (LoopRunsItsCount). -/
theorem witness_branch_and_loop : (∀ k ∈ bitsOf 8 1, ((base.gang 1).slice k).curSet.any (fun y =>
      y.mask &&& (255 / 2 ^ (8 * k) % 256) == y.mask && y.mask != 0) = true)
    ∧ (3 : Nat) < 2 ^ 32 ∧ 1 + 1 < max 3 1 := by decide +kernel

/-- Types, operands and elements: an integer and a float operation with a NaN source; −0 beside a positive number; a value that a format
holds (IntegerArithmetic, IntegerBitOperations, FloatArithmetic, FloatSelectionAndTranscendentals, ComparisonsAndMoves). -/
theorem witness_vector_types : isInt .n64 = true ∧ isSigned .i8 = true ∧ isLogic .b32 = true ∧ isFlt .f32 = true ∧ isFlt .i32 = false
    ∧ isWide .i64 = true ∧ cvtKind .e4m3 .f32 ≠ .bad ∧ cvtKind .i8 .f64 ≠ .bad ∧ 0xFF < 2 ^ widthOf .n8
    ∧ exOf .f32 (base.felem cur0 .f32 (.v 0) 0 0) = .nan
    ∧ (let x := exOf .f32 (base.felem cur0 .f32 (.v 2) 0 0)
      let y := exOf .f32 (base.felem cur0 .f32 (.v 1) 0 0)
      let z := exOf .f32 (base.felem cur0 .f32 (.v 9) 0 0)
      x ≠ .nan ∧ y ≠ .nan ∧ exLt x y = true ∧ exEq x z = true ∧ exSign x = true ∧ exSign z = false)
    ∧ (exOf .f32 (base.felem cur0 .f32 (.v 1) 0 0)) = .fin false 0x800000 (-23) := by decide +kernel

/-- A number within a format's range (RoundingIsNearest). -/
theorem witness_rounding : |exVal (.fin false 17 (-4))| ≤ exVal (decodeF (fmtOf .e4m3) (maxEnc (fmtOf .e4m3) false)) := by
  have h : decodeF (fmtOf .e4m3) (maxEnc (fmtOf .e4m3) false) = .fin false 14 5 := by decide +kernel
  rw [h]
  norm_num [exVal]

/-- Lanes that take part, lanes that do not, and one lane alone (LanesCrossAndReduce, the accesses, SystemGuardFalse). -/
theorem witness_active : base.active cur0 gAll = [0, 1, 2, 3, 4, 5, 6, 7] ∧ base.active cur0 gNone = [] ∧ base.active cur0 gOne = [3]
    ∧ slotOf (.vadd ⟨.i32, .rne, false, gAll, 0, .v 0, .v 1⟩) = some .v
    ∧ (∀ l ∈ base.partLanes cur0, xor (base.readP cur0 l gNone.p) gNone.neg = false) ∧ base.acts cur0 gAll = true := by decide +kernel

/-- Nothing of the gang is under way, its group is there, and the accesses of lane 3 translate (ScratchpadAccesses, LocalAccesses). -/
theorem witness_accesses : base.idleOf cur0 ∧ (smFind base.groups (base.gang 1).group).isSome = true ∧ base.link.held = [] ∧ base.dieFails = []
    ∧ base.hits 0 0 (base.ea cur0 ⟨2, .imm 0, 0⟩ 0 3) .write 0x300010 ∧ base.hits 0 0 (base.ea cur0 ⟨2, .imm 0, 0⟩ 0 3) .read 0x300010
    ∧ (base.gang 1).core = 0 ∧ (base.gang 1).ctx = 0 := by
  have parts : (base.gang 1).parts = [newPart 1, newPart 2] := by decide +kernel
  unfold State.idleOf State.hits
  refine ⟨⟨by decide +kernel, by decide +kernel, fun a => by simp [cur0, Gang.fenced, parts, newPart]⟩, by decide +kernel,
    by decide +kernel, by decide +kernel, ⟨by decide +kernel, ⟨0, 0x40000, 0x10000, page4⟩, by decide +kernel⟩,
    ⟨by decide +kernel, ⟨0, 0x40000, 0x10000, page4⟩, by decide +kernel⟩, by decide +kernel⟩

/-- The future at 0x40 of the scratchpad is full; lane 3 of gang 1 was told in cycle 36 to present its park on it again, 64 cycles ago. -/
def parked : State :=
  let s := (base.fill 0 (some 0) 0x40).2.modCluster 0 (fun k => { k with cyc := 100 })
  s.modGang 1 (fun g => { (g.modSlice 0 (fun x => { x with ldq := [{ (default : LdqEntry) with acc := 9, need := 8 }] })) with
    accs := [(9, { (default : Acc) with
      op := 0x29, ty := .b32, scope := .grp, slices := 1, lanes := [⟨3, 0x40, 0, 0, .retry 36, 0, false⟩], cyc := 30 })] })

/-- A full future with a waiting lane, and an FPUT of lane 3 (AtomicsAndFutures, BlockedPartsRetry). -/
theorem witness_futures : smWf (0 : Byte) (base.group 0).spad = true ∧ parked.futFull (some 0) 0x40 = true
    ∧ (parked.gang 1).accs.map (·.1) = [9] ∧ ((parked.gang 1).acc 9).op = 0x29 ∧ ((parked.gang 1).acc 9).slices.testBit 0 = true
    ∧ ((parked.gang 1).acc 9).lanes.map (·.st) = [.retry 36] ∧ 36 + 64 ≤ parked.cycOf 1 ∧ ((parked.gang 1).acc 9).cyc < parked.cycOf 1
    ∧ (parked.gang 1).fenced 9 ((parked.gang 1).acc 9) = false ∧ (∃ e ∈ ((parked.gang 1).slice 0).ldq, e.acc = 9)
    ∧ base.active cur0 gOne = [3] ∧ base.ea cur0 ⟨3, .imm 0, 0⟩ 0 3 % 8 = 0 := by decide +kernel

/-- No core keeps a waiter (AtomicsAndFutures). -/
theorem witness_no_waiters (k : Nat) : (base.core k).waiters = [] := by
  by_cases h : k = 0
  · subst h; decide +kernel
  · have e : base.cores = [(0, { (default : Core) with tlb := [⟨0, 0x40000, 0x10000, page4⟩] })] := by decide +kernel
    simp [State.core, e, smFind, Ne.symm h]
    rfl

/-- A K register with a handle, a broadcast word, and no BCMIN in the last cycles (HoldsStreamsAndWords). -/
theorem witness_words : (⟨true, 0⟩ : KRef).valid = true ∧ base.readK cur0 0 = 2 ^ 63 + 5 ∧ (smFind base.ctxs 0).isSome = true
    ∧ smWf bcInit (base.ctx 0).bcast = true ∧ (base.ctx 0).bcOld = [] := by decide +kernel

/-- Format-block of an INT8 multiply (R210). -/
def fbInt8 : Nat := 0x1100000000000000

/-- A command of the matrix engine issued in cycle 0 by gang 1, on rows 0 to 63. -/
def mat (i : Instr) : MatCmd := { (⟨i, 1, 0, 1, 0x10000, 2 ^ 64 - 1, fbInt8, 0, 256, [], [], 0, 0, none, 0, [], [], false, false, none, false⟩ : MatCmd) with afb := fbInt8 }

/-- Core 0 with one command of its matrix engine, well after its issue. -/
def matrix (i : Instr) : State :=
  let s := base.modCore 0 (fun k => { k with matq := [(9, mat i)] })
  s.modCluster 0 (fun k => { k with cyc := 10000 })

/-- The reuse latch held by a gang (MatrixCommandsAndReuse). -/
def latched (u : Nat) : State := base.modCore 0 (fun k => { k with al := some ⟨u, 16, 1, []⟩ })

/-- A group with canonical tiles; the reuse latch empty, the gang's own, and another's; registers of a shape (MatrixCommandsAndReuse). -/
theorem witness_matrix_commands : smWf 0 (base.group 0).depth = true ∧ (base.core 0).al = none
    ∧ ((latched 1).core 0).al = some ⟨1, 16, 1, []⟩ ∧ ((latched 7).core 0).al = some ⟨7, 16, 1, []⟩ ∧ (base.gang 1).core = 0
    ∧ shapeOf fbInt8 = some .int8 ∧ (latched 1).cur = some cur0 ∧ (latched 7).cur = some cur0 := by decide +kernel

/-- The operands of the matrix instructions on tile 2. -/
def xMma : XMma := ⟨gAll, ⟨true, 3⟩, 3, 5, 16, 2, true⟩
def xZst : XZst := ⟨gAll, ⟨true, 3⟩, 3, 5, 6, 2, .none⟩

/-- Each command of the engine ready at the head of the queue (MatrixEngines). -/
theorem witness_matrix_ready : ([Instr.mma xMma, .zld ⟨gAll, ⟨true, 3⟩, 3, 6, 2⟩, .zclr ⟨gAll, ⟨true, 3⟩, 2⟩, .zst xZst, .zretSp xZst,
      .zret ⟨⟨true, 3⟩, 2⟩].all (fun i => (matrix i).matReady 0 9 (mat i) && (((matrix i).core 0).matq == [(9, mat i)]))) = true
    ∧ smWf (0 : Word) ((matrix (.mma xMma)).group 0).z = true ∧ (smFind (matrix (.mma xMma)).groups 0).isSome = true
    ∧ shapeOf (mat (.mma xMma)).fb = some .int8 := by decide +kernel

/-- Participant `k` of a cluster-wide multiply: half `k % 2` on core `k / 2`. -/
def seatOf (k : Nat) : Nat × Nat × MatCmd :=
  (k / 2, 20 + k % 2, mat (.mmac ⟨gAll, ⟨false, 0⟩, 3, 5, 16, 2, 3, 4, Fin.ofNat 2 k⟩))

/-- All sixteen of them in their queues. -/
def together : State := { base with
  cores := (List.range 8).map (fun p => (p, { (default : Core) with matq := [(seatOf (2 * p)).2, (seatOf (2 * p + 1)).2] })) }

/-- Sixteen participants of one instance (MatrixEngines). -/
theorem witness_participants : (∀ p ∈ together.participants 0 0 4, ∃ k < 16, p = seatOf k)
    ∧ (∀ k < 16, seatOf k ∈ together.participants 0 0 4)
    ∧ (∀ k < 16, (seatOf k).1 = 0 * 8 + k / 2 ∧ (seatOf k).2.2.half = k % 2 ∧ (seatOf k).2.2.inst = (seatOf 0).2.2.inst)
    ∧ (∀ j < 16, ∀ k < 16, j ≠ k → (seatOf j).1 = (seatOf k).1 → (seatOf j).2.1 ≠ (seatOf k).2.1)
    ∧ (∀ k < 16, sameA (seatOf k).2.2.fb (seatOf (k % 2)).2.2.fb = true) := by decide +kernel

/-- A copy of four 16-byte elements within the scratchpad: 1 dimension, SRC and DST scratchpad, both strides 16 (R225). -/
def descSp : List Nat := [4 + 16 + 256 + 1024, 0, 0, 4, 0, 0, 16, 0, 0, 16, 0, 0, 0, 0, 0, 0]

/-- The copy, with elements performed. -/
def copyCmd (done : List Nat) : CopyCmd := ⟨1, 0, 1, 0x10000, descSp, 0x100, 0x200, false, .none, some 3, 0, done, [], none, false, false, 0, []⟩

/-- Core 0 with the copy in its queue. -/
def copying (done : List Nat) : State :=
  let s := base.modCore 0 (fun k => { k with copyq := [(9, copyCmd done)] })
  (s.modCluster 0 (fun k => { k with cyc := 10000 })).modGang 1 (fun g => { g with openBatch := [9] })

/-- A copy with an element to perform, at the first and the last of its elements, and one that has performed all four (CopyEngine). -/
theorem witness_copies : smFind ((copying [1]).core 0).copyq 9 = some (copyCmd [1]) ∧ (copyCmd [1]).failed = false ∧ (copyCmd [1]).waits = false
    ∧ (copyCmd [1]).desc ≠ [] ∧ (copying [1]).copyDrained (copyCmd [1]) 9 = true ∧ cdSrc descSp = 1 ∧ cdDst descSp = 1 ∧ cdHen descSp = false
    ∧ (copyCmd [1]).elems = 4 ∧ (0 : Nat) ∉ (copyCmd [1]).done ∧ (3 : Nat) ∉ (copyCmd [1]).done ∧ (smFind (copying [1]).groups 0).isSome = true
    ∧ smFind ((copying [3, 1, 0, 2]).core 0).copyq 9 = some (copyCmd [3, 1, 0, 2]) ∧ (((copying [3, 1, 0, 2]).core 0).copyq.map (·.1)).Nodup
    ∧ (copyCmd [3, 1, 0, 2]).elems ≤ (copyCmd [3, 1, 0, 2]).done.length
    ∧ (copyCmd [3, 1, 0, 2]).issued + (copyCmd [3, 1, 0, 2]).least ≤ (copying [3, 1, 0, 2]).cyc 0
    ∧ (smFind (copying [3, 1, 0, 2]).gangs 1).isSome = true ∧ smWf (0 : Byte) (base.group 0).spad = true := by decide +kernel

/-- The machine with gang 1 in the handler; with no handler. -/
def inHandler : State := (base.modGang 1 (fun g => g.enterHandler 10 1 1 7 0x10008 0x10008 0))
def noHandler : State := base.modLaunch 0 0 1 (fun l => { l with hdr := { l.hdr with handler := 0 } })

/-- A TRAP that enters the handler, ones that cannot, and a TRET (TrapsAndReturns). -/
theorem witness_traps : (base.kernelOf 1).handler = 8 ∧ (base.gang 1).inHandler 1 = false ∧ base.targetOk 1 ((base.kernelOf 1).codebase + 8) = true
    ∧ base.acts cur0 gAll = true ∧ (noHandler.kernelOf 1).handler = 0 ∧ noHandler.acts cur0 gAll = true
    ∧ (inHandler.gang 1).inHandler 1 = true ∧ inHandler.acts cur0 gAll = true
    ∧ ((base.gang 1).slice 0).curSet.isSome = true ∧ ((inHandler.gang 1).slice 0).curSet.isSome = true ∧ (base.gang 1).flight = [] := by decide +kernel

/-- A resident group, its context, its gang, and another group and gang that are not its own (FaultsAndChecks). -/
theorem witness_parks : (smFind base.groups 0).isSome = true ∧ (base.group 0).st = .resident ∧ base.gangsOf 0 = [1] ∧ (2 : Nat) ∉ base.gangsOf 0
    ∧ (smFind base.ctxs (base.group 0).ctx).isSome = true := by decide +kernel

/-- The machine before the checks of a bundle, as each check of the statement meets it: LAP 5, an S register with a packet address off its
alignment, one above 65,535, and a scratchpad of 4,096 bytes. -/
def checked : State :=
  let s : State := { base with cur := some { cur0 with checked := false } }
  (s.modGroup 0 (fun x => { x with lap := 5 })).modGang 1 (fun g => { g with s := [(2, 0x40010), (3, 0x40), (6, 0x10000), (7, 8), (8, 4093)] })

/-- The premises of each check, at their bounds (FaultsAndChecks). -/
theorem witness_checks : let c : Cursor := { cur0 with checked := false }
    checked.cur = some c ∧ checked.checks c = false ∧ checked.acts c gAll = true ∧ (checked.gang 1).inHandler 1 = false
    ∧ checked.src16 c (.imm 4) < (checked.group 0).lap ∧ 0xFFFF < checked.src16 c (.reg 6)
    ∧ (checked.gang 1).dmr.toNat.testBit 20 = false ∧ (checked.gang 1).dmr.toNat.testBit 28 = false
    ∧ checked.readS c 7 % 128 ≠ 0 ∧ 7 < checked.readS c 7 ∧ 0xFFFF < checked.readS c 6
    ∧ checked.active c gOne = [3] ∧ checked.spad c < checked.ea c ⟨8, .imm 0, 0⟩ 0 3 + Machine.sizeOf .b32 := by decide +kernel

/-- The pacer's answer for lap 5 stands at the part, and does not (GangInstructions). -/
def marked : State := base.modGang 1 (fun g => g.setMark 0 [.marked 5])

/-- A MARK of an answered lap and of another, a launch gang and a task gang before their trigger (GangInstructions). -/
theorem witness_marks : (marked.gang 1).lapMarked 0 (marked.src16 cur0 (.imm 5)) = true ∧ (base.gang 1).lapMarked 0 5 = false
    ∧ marked.acts cur0 gAll = true ∧ (smFind marked.groups 0).isSome = true ∧ (base.gang 1).task = false ∧ (base.gang 1).trig = false
    ∧ (smFind base.gangs 1).isSome = true := by decide +kernel

/-- The gang at class 0, so that a higher class must wait for its grant (PowerRequests). -/
def class0 : State := base.modGang 1 (fun g => { g with curcls := 0 })

/-- A class that adds nothing and one that does; a lease of 0 and one of 65,535 µs (PowerRequests). -/
theorem witness_power : chargeWith (base.classesOn 0) 1 (base.src3 cur0 (.imm 7)) ≤ base.coreCharge 0
    ∧ class0.coreCharge 0 < chargeWith (class0.classesOn 0) 1 (class0.src3 cur0 (.imm 7)) ∧ class0.acts cur0 gAll = true
    ∧ (smFind base.dies (dieOf 0)).isSome = true ∧ base.src16 cur0 (.imm 0) = 0 ∧ base.src16 cur0 (.imm 0xFFFF) ≠ 0
    ∧ (60 : Fin 64).val ≤ 60 := by decide +kernel

/-- The gang with one slice and one part, nothing of it under way; packets stand from 0x40000 on, S9 names the first, S10 is 0 and S11 is 64;
the future at 0x40010 is full; the hurdle at 0x40 of the scratchpad has count 1 and target 1, and the one at 0x50 has target 2. -/
def solo : State :=
  let s := base.modCtx 0 (fun x => { x with pages := [(1, { (default : PageRec) with st := .resident }), (4, { (default : PageRec) with st := .resident })] })
  let s := s.wr 0x300000 ([0x10001, 0x40000, 0, 0x40080, 0, 0, 0, 0, 0, 0, 0, 0, 0, 0, 0, 0].flatMap (bytesOf 8))
  let s : State := { (s.modCluster 0 (fun k => { k with cyc := 10 })) with futs := [0x300010] }
  let s := s.modGroup 0 (fun x => { x with spad := [(0x40, 1), (0x48, 1), (0x58, 2)] })
  s.modGang 1 (fun g => { g with
    width := 1, slices := g.slices.take 1, parts := [newPart 1]
    s := [(2, 0x40010), (3, 0x40), (4, 0x50), (9, 0x40000), (11, 64)] })

/-- Premises of LAUNCH, FORK, JOIN, SYNC and HWAIT, on both sides of each bound (TaskAndBarrierInstructions). -/
theorem witness_task_instructions : solo.acts cur0 gAll = true ∧ solo.cur = some cur0 ∧ cur0.checked = true
    ∧ (solo.gang 1).part 0 = some (newPart 1) ∧ (newPart 1).holds = [] ∧ (solo.gang 1).parts = [newPart 1] ∧ (solo.gang 1).accs = []
    ∧ smWf (0 : Dword) (solo.gang 1).s = true ∧ (solo.group 0).st = .resident ∧ 64 ≤ solo.readS cur0 11 ∧ solo.readS cur0 10 < 64
    ∧ (match (({ solo with nextId := solo.nextId + 1 } : State).hold 1 0 (.launch 12 (solo.readS cur0 10) (solo.readS cur0 9) solo.nextId)).hubRead
        0 (solo.readS cur0 9) 128 (.packet 1 0) with
      | (.got bs, s1) => decide ((s1.queue 0 0).inbox = [] ∧ (s1.queue 0 0).accepts (dwordsOf 16 bs) = none ∧ (smFind s1.ctxs 0).isSome = true)
      | _ => false) = true
    ∧ (newPart 1).slices.testBit 0 = true ∧ solo.dequeBusy 0 0 = false ∧ solo.forkFirst 1 solo.nextId = true ∧ ((solo.core 0).deque 0).recs.length < 224
    ∧ cur0.cyc = solo.cyc (solo.gang 1).core ∧ solo.dieFails = [] ∧ (solo.gang 1).parts.all (fun p => p.holds.isEmpty) = true
    ∧ (smFind solo.clusters (clusterOf (solo.gang 1).core)).isSome = true ∧ solo.futFull none 0x300010 = true
    ∧ (solo.gang 1).task = false
    ∧ (let b := (solo.gang 1).barrier (.grp 3)
      let t := ({ solo with nextId := solo.nextId + 1 } : State).blockPart cur0 (.barrier b.1 b.2.1 b.2.2 solo.nextId)
      (t.gang 1).waitsAt = some (b.1, solo.nextId) ∧ 1 ∈ t.members b.1 ∧ 1 ∉ (solo.bar b.1).arrived ∧ (solo.bar b.1).release = none)
    ∧ (solo.gangs.map (·.1)).Nodup ∧ (smFind solo.groups 0).isSome = true
    ∧ ofBytes (solo.spRd 0 (solo.readS cur0 3 + 8) 6) ≤ ofBytes (solo.spRd 0 (solo.readS cur0 3) 8)
    ∧ ofBytes (solo.spRd 0 (solo.readS cur0 4) 8) < ofBytes (solo.spRd 0 (solo.readS cur0 4 + 8) 6) := by decide +kernel

/-- The gang stands idle before a JOIN, whose future's page the core's TLB translates, and its lane sets run (TaskAndBarrierInstructions). -/
theorem witness_join : solo.idleOf cur0 ∧ solo.hits 0 0 (solo.readS cur0 2) .await 0x300010
    ∧ (∀ k, ∀ e ∈ ((solo.gang 1).slice k).sets, e.2.st = .run) := by
  have parts : (solo.gang 1).parts = [newPart 1] := by decide +kernel
  have slices : (solo.gang 1).slices.length = 1 := by decide +kernel
  unfold State.idleOf State.hits
  refine ⟨⟨by decide +kernel, by decide +kernel, fun a => by simp [cur0, Gang.fenced, parts, newPart]⟩,
    ⟨by decide +kernel, ⟨0, 0x40000, 0x10000, page4⟩, by decide +kernel⟩, fun k => ?_⟩
  by_cases h : k = 0
  · subst h; decide +kernel
  · simp [Gang.slice, List.getElem?_eq_none (show (solo.gang 1).slices.length ≤ k by omega)]
    intro a b hm
    simp [default, instInhabitedSlice.default] at hm

/-- A slice whose one lane set runs, and one with a second that can run (TransfersAndBranches, LoopsAndExits). -/
theorem witness_lane_sets : (match ((base.gang 1).slice 0).sets with
      | [(e, y)] => decide (((base.gang 1).slice 0).cur = some e ∧ e < 8 ∧ y.st = .run ∧ y.mask &&& (1 / 2 ^ (8 * 0) % 256) ≠ 0
        ∧ y.mask &&& (1 / 2 ^ (8 * 0) % 256) ≠ y.mask)
      | _ => false) = true
    ∧ (match ((base.modGang 1 (fun g => g.modSlice 0 (fun x => { x with sets := x.sets ++ [(1, { (default : LaneSet) with mask := 1 })] }))).gang 1).slice 0 with
      | x => match x.sets with
        | [(e, _), (f, z)] => decide (x.cur = some e ∧ f ≠ e ∧ z.st = .run)
        | _ => false) = true
    ∧ (255 : Nat) < 256 ∧ (1 : Nat).testBit 0 = true ∧ (1 : Nat).testBit 1 = false ∧ (base.gang 1).slices.length = 2 := by decide +kernel

/-- The records of its pages: local, in flight, and in host memory. -/
def mapped : State :=
  base.modCtx 0 (fun x => { x with pages := [(1, { (default : PageRec) with st := .resident }), (4, { (default : PageRec) with st := .resident }),
    (5, { (default : PageRec) with st := .inflight }), (6, { (default : PageRec) with st := .host })] })

/-- A part that has aged 256 cycles; a gang of one slice with two lane sets at one regang bundle (PicksAndReconvergence). -/
def aged : State := base.modGang 1 (fun g => g.modPart 0 (fun p => { p with aging := 256 }))
def regangs : Gang :=
  let y : LaneSet := { (default : LaneSet) with pc := 0x10000, nxt := 0x10000, mask := 15, st := .regang }
  { (base.gang 1) with slices := [{ (default : Slice) with sets := [(0, y), (1, { y with mask := 240, ready := 3 })] }], parts := [newPart 1], width := 1 }

/-- Premises of the picks, of PROMOTION and of REGANG_RELEASE. -/
theorem witness_picks : base.issuers 0 0 ≠ [] ∧ ((aged.gang 1).part 0).map (fun p => (decide (256 ≤ p.aging), p.promoted)) = some (true, none)
    ∧ (∃ k < (base.gang 1).slices.length, ∃ e ∈ ((base.gang 1).slice k).sets, e.2.st = .run)
    ∧ (match regangs.slices with
      | [x] => (match x.sets with
        | [(d, y), (e, z)] => decide (d < e) && decide (y.st = .regang) && decide (z.st = .regang) && decide (y.pc = z.pc) && decide (y.loops = z.loops)
        | _ => false)
      | _ => false) = true := by decide +kernel

/-- Two loads of slice 0, the first arrived; a stream with an element to place (LoadsAndStreamsArrive). -/
def arriving : State := base.modGang 1 (fun g => { (g.modSlice 0 (fun x => { x with
    ldq := [{ (default : LdqEntry) with acc := 7, vals := [1], cyc := 5 }, { (default : LdqEntry) with acc := 9, need := 8, cyc := 6 }]
    strm := some ⟨[0x40010, 1 + 8 + 8 * 256 + 4 * 2 ^ 32, 2, 0, 0, 0, 0, 0], .b32, 0, 2, 255, 0, 0⟩ })) with
  accs := [(9, { (default : Acc) with op := 0, ty := .b32, slices := 1, lanes := [⟨3, 0x40010, 0, 0, .arriving, 5, false⟩] })] })

/-- Premises of LOAD_DATA_ARRIVAL and STREAM_ELEMENT. -/
theorem witness_arrivals :
    (((arriving.gang 1).slice 0).ldq[1]?).map (fun e => (e.ready, e.second, e.acc)) = some (false, false, 9)
    ∧ (∀ x ∈ ((arriving.gang 1).slice 0).ldq.take 1, x.ready = true) ∧ (smFind (arriving.gang 1).accs 9).isSome = true
    ∧ (∀ l ∈ ((arriving.gang 1).acc 9).lanes, l.lane / 8 = 0 → l.st = .arriving)
    ∧ arriving.streamReady 1 0 = true ∧ ((arriving.gang 1).slice 0).strm.any (fun x => (bitsOf 8 x.lanes).all (fun j =>
      (decide (sdSpace x.desc = 2) || canonical (sdAddr x.desc x.next (8 * 0 + j))) && decide (sdAddr x.desc x.next (8 * 0 + j) % Machine.sizeOf x.ty = 0))) = true := by
  decide +kernel

/-- Two pages wait for a walk of one merge entry: a mapped one and a held one (WalksAndPages). -/
def walking : State :=
  { (mapped.modDie 0 (fun d => { d with merge := [⟨0, 0, [4, 5], []⟩] })) with pageReqs := [(0, 6)] }

/-- Premises of TRANSLATION_WALK, FAULT_ACKNOWLEDGE and HOST_PAGE_RESPONSE. -/
theorem witness_walks : (walking.die 0).merge.find? (fun m => !m.pages.isEmpty) = some ⟨0, 0, [4, 5], []⟩
    ∧ walking.walk 0 (4 * 0x10000) = .leaf page4 0x40000 0x10000 ∧ (smFind walking.dies 0).isSome = true
    ∧ walking.walk 0 (5 * 0x10000) = .held 0 0x50000 0x10000 ∧ (walking.pageRec 0 (5 * 0x10000)).st ≠ .poisoned
    ∧ walking.link.shoots = [] ∧ walking.place 0 (4 * 0x10000) .read = .hbm 0x300000
    ∧ (0, 6) ∈ walking.pageReqs ∧ walking.walk 0 (6 * 0x10000) = .leaf (mkLeaf 0x7000000 2 0 true false false) 0x60000 0x10000
    ∧ entKind (mkLeaf 0x7000000 2 0 true false false) = 2 := by decide +kernel

/-- The machine with one hold on its first part, and with a FORK that waits for the deque. -/
def holding (h : Hold) : State := base.modGang 1 (fun g => g.modPart 0 (fun p => { p with holds := [h] }))
def forking : State := base.modCore 0 (fun k => { k with deques := [⟨0, [], [(1, 0, 77)], 1, none⟩] })

/-- Premises of FENCE_COMPLETE and FORK_RETRY, and of the parks' retry (HoldsEndAndRetry). -/
theorem witness_holds : ([Hold.fence .dev .ar 9 5, .bwait [3], .cpwait 0, .fork 77 0 5].all (fun h =>
      ((holding h).gang 1).part 0 == some { newPart 1 with holds := [h] })) = true
    ∧ ((holding (.cpwait 0)).gang 1).accs = [] ∧ smWf (0 : Dword) ((holding (.cpwait 0)).gang 1).s = true
    ∧ (∀ q ∈ [3], (holding (.bwait [3])).batonPending q = false) ∧ ((holding (.cpwait 0)).gang 1).batches.length ≤ 0
    ∧ ((holding (.fork 77 0 5)).gang 1).earlierDone .dev 5 = true ∧ (((holding (.fork 77 0 5)).core 0).deque 0).recs.length < 224
    ∧ (holding (.fork 77 0 5)).dequeBusy 0 0 = false ∧ (holding (.fork 77 0 5)).forkFirst 1 5 = true ∧ forking.dequeBusy 0 0 = false
    ∧ ((forking.core 0).deque 0).recs.length < 64 ∧ ((forking.core 0).deque 0).blocked = [(1, 0, 77)] := by decide +kernel

/-- Package 3 on an UP link of incarnation 5 to this one of incarnation 2, one usable port, and this package has joined as package 1. -/
def joined : State := { base with
  dev := { base.dev with stage := 2, pkgid := 1 }
  link := { base.link with inc := 2, peers := [(3, ⟨.up, 5, 0, 0⟩)], ports := [(4, ⟨.active, 0, [], false, 0⟩)] }
  time := 10 ^ 12 }

/-- A transaction from package 3. -/
def asks (op : RemoteOp) (carries : List Nat) : RemoteReq := ⟨3, 5, 2, 8, op, carries, 1000, 0, true, 6⟩

/-- Premises of REMOTE_REQUEST_RECEIVE: current and whole, broken, stale, resent, and carried (FabricRequests). -/
theorem witness_remote_requests : joined.current 3 5 2 ∧ joined.failed = [] ∧ joined.dev.stage = 2
    ∧ (asks (.read (Config.hbmBytes - 256) 256) []).crcOk = true ∧ joined.keptOutcome 3 8 6 = none ∧ joined.holdsStore 3 5 8 6 = false
    ∧ (Config.hbmBytes - 256) + 256 ≤ Config.hbmBytes ∧ (0x300000 : Nat) < Config.hbmBytes
    ∧ (joined.peer 3).st = .up ∧ (joined.peer 3).inc = 5 ∧ (1 : Nat) ≠ joined.link.inc
    ∧ ({ joined with link := { joined.link with tags := [⟨3, 8, 6, some (.done []), 0⟩] } } : State).keptOutcome 3 8 6 = some ⟨3, 8, 6, some (.done []), 0⟩
    ∧ ({ joined with failed := [48] } : State).failedAt 0x300000 = true ∧ unlisted (.read 0 256) = false ∧ joined.inTables 0x300000 = false
    ∧ (asks (.write [(0x300000, 1)]) [7]).carries ≠ [] ∧ joined.link.held.length < 16384 := by
  unfold State.current
  exact ⟨by decide +kernel, by decide +kernel⟩

/-- A request of this package to package 3, sent `n` times at time `t`. -/
def req (n t : Nat) (carries : List Nat) (busy : Bool) (origin : Origin) : Req :=
  ⟨3, 8, 5, n, 0 < n, 0, 4, .write [(0x300000, 1)], none, origin, carries, 1000, 1, t, t, false, busy⟩

/-- The machine with one request under way. -/
def sending (r : Req) : State := { joined with link := { joined.link with reqs := [(9, r)] } }

/-- Premises of REMOTE_ANSWER, of sending, and of the two resends (FabricRequests). -/
theorem witness_answers_and_resends :
    (sending (req 1 0 [] false .msg)).link.reqs.find? (fun e => e.2.peer = 3 && e.2.tag = 8) = some (9, req 1 0 [] false .msg)
    ∧ 4 ≤ (req 4 0 [] false .msg).attempts ∧ (req 3 0 [] false .msg).attempts < 4
    ∧ (req 1 0 [] false (.far (.record 1) 64)).origin = .far (.record 1) 64 ∧ ((sending (req 1 0 [] false .msg)).link.reqs.map (·.1)).Nodup
    ∧ (sending (req 0 0 [] false .msg)).portFrom 3 (4 + 1) = some 4 ∧ (sending (req 1 0 [] false (.far (.record 1) 64))).wantsFar (.record 1) = true ∧ (sending (req 0 0 [] false .msg)).lineBusy 9 (req 0 0 [] false .msg) 4 = false
    ∧ (req 1 (10 ^ 12 - 4200000) [] false .msg).sent + 4200000 ≤ joined.time
    ∧ (req 1 (10 ^ 12 - 84000) [7] true .msg).sent + 84000 ≤ joined.time ∧ (req 1 0 [7] true .msg).busy = true
    ∧ (sending (req 0 0 [] false .msg)).portFrom 3 (req 0 0 [] false .msg).start = some 4 ∧ (req 1 0 [7] true .msg).went = true := by decide +kernel

/-- A store of package 3 that carries baton 7, in the hold queue since `t`. -/
def heldStore (t : Nat) : Held := ⟨3, 5, 0, 0, [7], [], [(0x300000, 1)], 8, 6, .msg, 1000, t⟩

/-- The machine with it. -/
def holdsStore (t : Nat) : State := { joined with link := { joined.link with held := [(9, heldStore t)] } }

/-- A message from package 3 to this one about baton 7. -/
def msg : Msg := ⟨8, 6, 5, 3, 1, 2, 7, 8, 0, true⟩

/-- Premises of HOLD_BOUND_EXPIRY at its bounds, and of the baton messages (BatonEvents). -/
theorem witness_batons : (holdsStore (10 ^ 12 - 42000000)).link.held = [(9, heldStore (10 ^ 12 - 42000000))] ∧ (heldStore 0).src ≠ joined.dev.pkgid
    ∧ (heldStore (10 ^ 12 - 42000000)).since + (heldStore 0).hold * 42000 ≤ joined.time ∧ (heldStore 0).origin = .msg
    ∧ (req 1 (10 ^ 12 - 42000000) [7] false .msg).first + (req 1 0 [7] false .msg).hold * 42000 ≤ joined.time
    ∧ (holdsStore 0).heeds msg ∧ (heldStore 0).src = msg.srcPkg ∧ (heldStore 0).srcInc = msg.srcInc ∧ (heldStore 0).carries = [msg.seq]
    ∧ (holdsStore 0).link.batons = [] ∧ (heldStore 0).got = [] ∧ (sending (req 1 0 [7] false .msg)).heeds msg
    ∧ (req 1 0 [7] false .msg).tag = msg.addr ∧ (sending (req 1 0 [7] false .msg)).link.held = []
    ∧ ({ msg with dstPkg := 0 } : Msg).dstPkg ≠ joined.dev.pkgid := by
  unfold State.heeds State.current
  decide +kernel

/-- A shoot-down of address 8 by home `h`, waiting for packages. -/
def shooting (h : Nat) (waiting : List Nat) : State :=
  { joined with ctxs := [], link := { joined.link with shoots := [⟨0, 4, h, 8, 7, waiting, 0, true⟩] } }

/-- Premises of the shoot-down messages and of the peer links (DomainMessages). -/
theorem witness_domain : (shooting 1 [3, 6]).heeds msg ∧ (shooting 1 [3, 6]).link.shoots = [⟨0, 4, 1, 8, 7, [3, 6], 0, true⟩] ∧ (6 : Nat) ≠ msg.srcPkg
    ∧ (shooting 1 [3]).heeds msg ∧ (7 : Nat) = msg.seq ∧ (8 : Nat) = msg.addr ∧ (∀ e ∈ (shooting 1 [3]).gangs, e.2.accs = [])
    ∧ (shooting 3 []).heeds msg ∧ (∀ x ∈ (shooting 1 []).link.shoots, ¬(x.home = msg.srcPkg ∧ x.pa = msg.addr)) ∧ (shooting 1 []).ctxs = []
    ∧ joined.usablePorts 6 ≠ [] ∧ (joined.peer 6).st = .none ∧ (joined.peer 3).st = .up ∧ msg.srcInc = (joined.peer 3).inc ∧ msg.dstInc = joined.link.inc
    ∧ (∀ e ∈ joined.link.reqs, e.2.peer ≠ 3) ∧ joined.link.held = [] ∧ joined.link.shoots = []
    ∧ (let s := { joined with link := { joined.link with peers := [(3, ⟨.recovery, 5, 0, 10 ^ 12 - 840000000⟩)] } }
      (s.peer 3).st = .recovery ∧ (s.peer 3).since + 840000000 ≤ s.time) := by
  unfold State.heeds State.current
  decide +kernel

/-- The machine with port 4 in a state since `t`, with earlier RETRAINs. -/
def port4 (st : PortSt) (t : Nat) (rs : List Nat) : State :=
  { joined with link := { joined.link with ports := [(4, ⟨st, t, rs, false, 0⟩)] } }

/-- Premises of the ports' events at their bounds (PortsTrainAndFail). -/
theorem witness_ports : let p := fun (st : PortSt) (t : Nat) (rs : List Nat) => (port4 st t rs).port 4
    (p .training (10 ^ 12 - 4200000000) []).st = .training ∧ joined.time ≤ (p .training (10 ^ 12 - 4200000000) []).since + 4200000000
    ∧ (p .training (10 ^ 12 - 4200000000) []).since + 4200000000 ≤ joined.time
    ∧ (p .retrain (10 ^ 12 - 420000000) []).since + 420000000 ≤ joined.time ∧ joined.time ≤ (p .retrain (10 ^ 12 - 420000000) []).since + 420000000
    ∧ (p .active 0 []).st = .active ∧ (p .degraded 0 []).st = .degraded
    ∧ ((p .active 0 [10 ^ 12 - 1, 10 ^ 12 - 42000000000]).retrains.filter (fun t => joined.time < t + 42000000000)).length < 2
    ∧ 2 ≤ ((p .active 0 [10 ^ 12 - 1, 10 ^ 12 - 2]).retrains.filter (fun t => joined.time < t + 42000000000)).length
    ∧ (p .active 0 []).lastUse + 4200000 ≤ joined.time := by decide +kernel

/-- The machine with queue 0 of context 0 as given, over the mapped pages. -/
def queued (f : Queue → Queue) : State := mapped.modQueue 0 0 f

/-- A well-formed packet of one group, with its kernel header at 0x40000 and its completion record at 0x40080 (R292). -/
def packet : List Nat := [0x10001, 0x40000, 0, 0x40080, 0, 0, 0, 0, 0, 0, 0, 0, 0, 0, 0, 0]

/-- Premises of HOST_SUBMISSION: an ACTIVE queue with room, a full one, one in another state, and a packet of another type (QueueEvents). -/
theorem witness_submissions : base.queueOwned 0 0 0 = true ∧ (packet.map (BitVec.ofNat 64)).length = 16
    ∧ ((packet.map (BitVec.ofNat 64)).map BitVec.toNat) = packet ∧ packetErr packet = none ∧ packetErr (packet.set 0 0x10002) = some 1
    ∧ (base.queue 0 0).st = .active ∧ (base.queue 0 0).launches.length < 64
    ∧ (let s := queued (fun x => { x with launches := (List.range 64).map (fun k => (k + 1, Launch.held packet)) })
      64 ≤ (s.queue 0 0).launches.length ∧ (s.queue 0 0).st = .active)
    ∧ (let s := queued (fun x => { x with st := .halted })
      (s.queue 0 0).st ≠ .idle ∧ (s.queue 0 0).st ≠ .active) := by decide +kernel

/-- Queue 0 with submissions that have arrived: a host's and a LAUNCH's of gang 1, in cycle `n`, whose hold is the first part's. -/
def arrived (l : List Submission) : State :=
  { (queued (fun x => { x with launches := [], inbox := l })).modGang 1 (fun g => g.modPart 0 (fun p => { p with holds := [.submitted 9 5] })) with time := 350 }
def hostSub (n : Nat) : Submission := ⟨n, 0, 0, packet, none⟩
def laneSub (n : Nat) : Submission := ⟨n, 1, 5, packet, some (1, .submitted 9 5)⟩

/-- Premises of the queue's processor at the bounds of its cycle: one submission, one that arrives now, and two (QueueEvents, LaunchEvents). -/
theorem witness_processor : ((arrived [hostSub 9]).queue 0 0).inbox = [hostSub 9] ∧ (hostSub 9).asker = none ∧ (hostSub 9).cyc < (arrived [hostSub 9]).hubCycle
    ∧ ((arrived [hostSub 9]).queue 0 0).st = .active ∧ (hostSub 9).pkt = packet ∧ (arrived [hostSub 10]).hubCycle ≤ (hostSub 10).cyc
    ∧ ((arrived [laneSub 9, hostSub 9]).queue 0 0).inbox = [laneSub 9, hostSub 9] ∧ (laneSub 9).rank < 512 ∧ (hostSub 9).rank < (laneSub 9).rank
    ∧ (laneSub 9).order < 2 ^ 64 ∧ ((arrived [laneSub 9]).queue 0 0).inbox = [laneSub 9] ∧ (laneSub 9).asker = some (1, .submitted 9 5)
    ∧ ((arrived [laneSub 9]).gang 1).hasHold (.submitted 9 5) = true ∧ (arrived []).queueOwned 0 0 0 = true := by decide +kernel

/-- Premises of QCMD 1 to 5, state by state (QueueEvents). -/
theorem witness_queue_commands :
    (let s := queued (fun x => { x with st := .disabled, qbuf := 0x2000, faultbase := 0x400 });
      s.queueOwned 0 0 0 = true ∧ (s.queue 0 0).st = .disabled ∧ (s.queue 0 0).qbuf ≠ 0 ∧ (s.queue 0 0).faultbase ≠ 0)
    ∧ (let s := queued (fun x => { x with st := .idle, launches := [] });
      (s.queue 0 0).st = .idle ∧ (s.queue 0 0).launches = [])
    ∧ (let s : State := { queued (fun x => { x with st := .halted }) with groups := [] };
      (s.queue 0 0).st = .halted ∧ s.queueGroups 0 0 = [])
    ∧ (∀ st ∈ [QState.draining, .faulted, .halted], ((queued (fun x => { x with st := st })).queue 0 0).st = st) := by decide +kernel

/-- A FAULTED queue whose group 0 is parked in slot 2; the slot's record lies at 0x40080. -/
def parkedGroup (kept : QState) (st : GState) : State :=
  (queued (fun x => { x with st := .faulted, kept := kept, slots := [(2, 0)], faultbase := 0x40000 })).modGroup 0 (fun x => { x with
    st := st, from_ := .resident, fault := some ⟨1, 6, 0, 0, 0, 0x10000, 0, 1, 0⟩ })

/-- The same with its record in the page that is in flight, which a command has to wait for (QueueEvents). -/
theorem witness_record_waits : let s := (parkedGroup .active .parked).modQueue 0 0 (fun x => { x with faultbase := 0x50000 })
    s.queueOwned 0 0 0 = true ∧ smFind (s.queue 0 0).slots 2 = some 0 ∧ (s.queue 0 0).st = .faulted ∧ (s.queue 0 0).leaving = []
      ∧ s.recPlace 0 (0x50000 + 64 * 2) = .wait false
      ∧ (base.queue 0 0).st ≠ .faulted ∧ smFind (s.queue 0 0).slots 3 = none := by decide +kernel

/-- Premises of QCMD 6 and 7 (QueueEvents). -/
theorem witness_parked_groups : (parkedGroup .active .parked).queueOwned 0 0 0 = true
    ∧ smFind ((parkedGroup .active .parked).queue 0 0).slots 2 = some 0 ∧ ((parkedGroup .active .parked).queue 0 0).leaving = [] ∧ ((parkedGroup .active .parked).queue 0 0).st = .faulted
    ∧ (smFind (parkedGroup .active .parked).groups 0).isSome = true ∧ (∀ e ∈ (parkedGroup .active .parked).gangs, e.2.group = 0 → e.2.accs = [])
    ∧ ((parkedGroup .active .parked).group 0).killed = none ∧ (smFind (parkedGroup .active .parked).ctxs 0).isSome = true
    ∧ ((parkedGroup .active .resident).queue 0 0).waiting = [] ∧ (parkedGroup .active .resident).recPlace 0 (0x40000 + 64 * 2) = .here 0x300080
    ∧ (∀ k ∈ [QState.active, .draining, .halted], ((parkedGroup k .resident).queue 0 0).kept = k
      ∧ ∀ g ∈ (parkedGroup k .resident).queueGroups 0 0, ((parkedGroup k .resident).group g).st ≠ .parked) := by decide +kernel

/-- The packet stands in memory at 0x40000, and a LAUNCH of it is held. -/
def launching (q va : Nat) : State :=
  let s := (mapped.wr 0x300000 (packet.flatMap (bytesOf 8))).modGang 1 (fun g => g.modPart 0 (fun p => { p with holds := [.launch 9 q va 5] }))
  s.modLaunch 0 0 1 id

/-- Premises of LAUNCH_PACKET_READ: a queue number at each side of 64, and packets that are well formed and not (LaunchEvents). -/
theorem witness_launch_packets : ((launching 63 0x40000).gang 1).part 0 = some { newPart 1 with holds := [.launch 9 63 0x40000 5] }
    ∧ ((launching 63 0x40000).gang 1).earlierDone .dev 5 = true ∧ ((launching 63 0x40000).group 0).st = .resident
    ∧ (match (launching 0 0x40000).hubRead 0 0x40000 128 (.packet 1 0) with
      | (.got bs, s1) => decide ((smFind s1.ctxs 0).isSome = true ∧ (smFind s1.gangs 1).isSome = true ∧ packetErr (dwordsOf 16 bs) = none)
      | _ => false) = true
    ∧ (match (launching 1 0x48000).hubRead 0 0x48000 128 (.packet 1 0) with
      | (.got bs, _) => decide (packetErr (dwordsOf 16 bs) ≠ none)
      | _ => false) = true
    ∧ (smFind (launching 64 0x40000).gangs 1).isSome = true ∧ smWf (0 : Dword) ((launching 64 0x40000).gang 1).s = true := by decide +kernel

/-- A kernel header of one gang of one slice over the code at 0x10000 (R299). -/
def header : List Nat := [1 + 16 * 2 ^ 32, 0x10000, 0, 8 * 2 ^ 39 + 2 ^ 25 + 2 ^ 20, 0, 2 ^ 16, 0, 0, 0] ++ List.replicate 23 0

/-- The header stands at 0x40000; the queue holds one launch. -/
def starting (l : Launch) : State :=
  (queued (fun x => { x with launches := [(5, l)], last := 5, ended := [(4, 2)] })).wr 0x300000 (header.flatMap (bytesOf 8))

/-- A held launch that depends under DEPFAIL on launch 4 of queue 0 (R291). -/
def failing : Launch := Launch.held ((packet.set 0 (0x10001 + 2 ^ 10)).set 6 (4 + 2 ^ 56))

/-- Premises of LAUNCH_START and LAUNCH_END (LaunchEvents). -/
theorem witness_launches : ((starting (Launch.held packet)).ctx 0).st = .live ∧ ((starting (Launch.held packet)).queue 0 0).launches = [(5, Launch.held packet)]
    ∧ (Launch.held packet).st = 0 ∧ (Launch.held packet).depfail = false ∧ ((starting (Launch.held packet)).deps 0 (Launch.held packet)).1 = true
    ∧ ((starting (Launch.held packet)).queue 0 0).st = .active
    ∧ failing.depfail = true ∧ ((starting failing).deps 0 failing).2 = true
    ∧ (match (starting (Launch.held packet)).startRead 0 0 5 0x40000 with
      | (.got d [] [], s1) => decide (s1.headerErr 0 d = 0) && decide ((s1.trimHeader 0 (parseHeader d)).timetable = 0)
          && decide ((s1.launch 0 0 5).tt = []) && (smFind (s1.queue 0 0).launches 5).isSome
          && !(s1.trimHeader 0 (parseHeader d)).coreq && !((dw (s1.launch 0 0 5).pkt 0).testBit 8)
      | _ => false) = true
    ∧ (match (starting (Launch.held packet)).startRead 0 0 5 0x48000 with
      | (.got d [] [], s1) => decide (s1.headerErr 0 d ≠ 0)
      | _ => false) = true
    ∧ (let l : Launch := { Launch.held packet with st := 3 }
      smFind ((starting l).queue 0 0).launches 5 = some l ∧ (((starting l).queue 0 0).launches.map (·.1)).Nodup ∧ (0 : Nat) ≠ safeCtx ∧ l.ttOn = false
        ∧ dw l.pkt 3 % 128 = 0 ∧ (starting l).recPlace 0 (dw l.pkt 3) = .here 0x300080) := by decide +kernel

/-- The launch of `base` with a second group still to be placed, under a header of `n` granules. -/
def placing (n : Nat) : State := mapped.modLaunch 0 0 1 (fun l => { l with
  pkt := packet.set 0 0x20001, nextPlace := 1, hdr := { l.hdr with vgran := n } })

/-- Premises of GROUP_PLACE: a group that fits on a core, and one that fits nowhere (GroupAndTaskEvents). -/
theorem witness_group_place : ((placing 1).nextGroup 0 0).isSome = true ∧ ((placing 1).launch 0 0 1).coresident = false
    ∧ ((placing 1).chooseCore 0 ((placing 1).launch 0 0 1).hdr 1).isSome = true ∧ ((placing 1).queue 0 0).st = .active ∧ ((placing 1).ctx 0).st = .live
    ∧ (placing 1).placed = [] ∧ (placing 129).placed = [] ∧ (placing 129).chooseCore 0 ((placing 129).launch 0 0 1).hdr 1 = none ∧ ((placing 129).nextGroup 0 0).isSome = true := by decide +kernel

/-- Group 0 as placed, its clear begun in cycle 0. -/
def clearing : State :=
  let s := (base.modGroup 0 (fun x => { x with st := .placed })).modGang 1 (fun g => { g with live := false, waiting := true, slices := [], parts := [] })
  (s.modCore 0 (fun k => { k with clears := [⟨0, none, 0, 17, 0⟩] })).modCluster 0 (fun k => { k with cyc := 544 })

/-- A task record of one slice at the launch's entry; two in core 0's deque, or the tail of core 1's. -/
def task : TaskRec := ⟨0, 0, 1, 0⟩
def tasks (core : Nat) : State := base.modCore core (fun k => { k with deques := [⟨0, [task, task], [], 0, none⟩] })

/-- Premises of POOL_CLEAR_DONE, TASK_TAKE and TASK_STEAL (GroupAndTaskEvents). -/
theorem witness_clears_and_tasks : (clearing.core 0).clears = [⟨0, none, 0, 17, 0⟩] ∧ 0 + 32 * 17 ≤ clearing.cyc 0 ∧ (smFind clearing.groups 0).isSome = true
    ∧ (clearing.kernel 0).rollback = false ∧ (clearing.group 0).launchGangs = [1] ∧ (smFind clearing.gangs 1).isSome = true ∧ (clearing.gang 1).group = 0
    ∧ clearing.targetOk 1 ((clearing.kernel 0).codebase + (clearing.kernel 0).entry) = true
    ∧ clearing.isRegang (clearing.gang 1).ctx ((clearing.kernel 0).codebase + (clearing.kernel 0).entry) = false
    ∧ (tasks 0).hostFor 0 0 task = some 0 ∧ (((tasks 0).core 0).deque 0).recs = [task, task] ∧ ((tasks 0).ctx 0).st = .live
    ∧ (tasks 0).dequeBusy 0 0 = false ∧ (tasks 1).dequeBusy 1 0 = false ∧ (tasks 8).hostFor 8 0 task = none ∧ (((tasks 8).core 8).deque 0).recs = [task, task]
    ∧ (((tasks 1).core 0).deque 0).recs = [] ∧ (victims 0).findSome? (fun v => match (((tasks 1).core v).deque 0).recs.getLast? with
          | none => none
          | some r => ((tasks 1).hostFor 0 0 r).map (fun h => (v, h, r))) = some (1, 0, task) := by decide +kernel

/-- Gang 1 waits at a barrier in both slices; with its arrival, the release is due in cycle 10 of cluster 0. -/
def waitingAt (b : BarRef) : State := base.modGang 1 (fun g => { g with slices := g.slices.map (fun x => x.modSets (fun y => { y with st := .barrier b 0 0 5 })) })
def arrivedAt (release : Option (List (Nat × Nat))) : State :=
  (waitingAt (.grp 0 3)).modGroup 0 (fun x => { x with bars := [(3, ⟨65535, [1], release⟩)] })
def releasing : State := (arrivedAt (some [(0, 10)])).modCluster 0 (fun k => { k with cyc := 10 })

/-- Premises of BARRIER_ARRIVAL and BARRIER_RELEASE (BarriersReleaseTheirGangs). -/
theorem witness_barriers : ((waitingAt (.grp 0 3)).gang 1).waitsAt = some (.grp 0 3, 5) ∧ 1 ∈ (waitingAt (.grp 0 3)).members (.grp 0 3)
    ∧ 1 ∉ ((waitingAt (.grp 0 3)).bar (.grp 0 3)).arrived ∧ (smFind (waitingAt (.grp 0 3)).groups 0).isSome = true
    ∧ (∀ i ∈ (arrivedAt none).agenda, lastInCycle i = true) ∧ ((arrivedAt none).later (.groupRetire 0)).agenda = [.groupRetire 0]
    ∧ ((arrivedAt none).kernel 0).rollback = false ∧ ((arrivedAt none).bar (.grp 0 3)).release = none ∧ ((arrivedAt none).bar (.grp 0 3)).arrived = [1]
    ∧ (∀ m ∈ (arrivedAt none).members (.grp 0 3), m ∈ [1]) ∧ (smFind (arrivedAt none).groups 0).isSome = true
    ∧ (let s := (arrivedAt none).modLaunch 0 0 1 (fun l => { l with hdr := { l.hdr with rollback := true } });
      (s.kernel 0).rollback = true ∧ (s.group 0).snapDue = none ∧ ∀ m ∈ s.members (.grp 0 3), m ∈ [1])
    ∧ (let s := (arrivedAt none).modGroup 0 (fun x => { x with bars := [(3, ⟨65535, [2], none⟩)] });
      ∃ m ∈ s.members (.grp 0 3), m ∉ (s.bar (.grp 0 3)).arrived) ∧ ((waitingAt (.grp 0 3)).bar (.grp 0 3)).release = none
    ∧ ((waitingAt (.grp 0 3)).gang 1).earlierDone .grp 5 = true ∧ ((waitingAt (.grp 0 3)).gangs.map (·.1)).Nodup
    ∧ (releasing.bar (.grp 0 3)).release = some [(0, 10)] ∧ 10 ≤ (releasing.cluster 0).cyc ∧ (releasing.bar (.grp 0 3)).arrived = [1] := by decide +kernel

/-- A group with ROLLBACK whose snapshot is due; one that drains with nothing left. -/
def snapping : State := ((base.modLaunch 0 0 1 (fun l => { l with hdr := { l.hdr with rollback := true } })).modGroup 0 (fun x => { x with
    snapDue := some (3, 0) })).modCluster 0 (fun k => { k with cyc := 10000 })
def retiring : State := (base.modGroup 0 (fun x => { x with st := .draining })).modGang 1 (fun g => { g with live := false })

/-- Premises of SNAPSHOT_COMPLETE and GROUP_RETIRE (GroupAndTaskEvents). -/
theorem witness_snapshot_and_retire : (snapping.group 0).snapDue = some (3, 0) ∧ snapping.spadBusy 0 = false ∧ (∀ e ∈ snapping.snapGangs 0, e.2.accs = [])
    ∧ 0 + 32 * snapping.snapGran 0 ≤ snapping.cyc (snapping.group 0).core ∧ retiring.mayRetire 0 = true
    ∧ (smFind (retiring.queue 0 0).launches 1).isSome = true ∧ dw (retiring.launch 0 0 1).pkt 4 = 0 ∧ (retiring.launch 0 0 1).ttOn = false := by decide +kernel

/-- A lane set that has waited 65,536 cycles under WDLOG 16 (ErrorsAndTheWatchdog). -/
def idling : State := (base.modCtx 0 (fun x => { x with wdlog := 16 })).modGang 1 (fun g => g.modPart 0 (fun p => { p with idle := 65536 }))

/-- Premises of the errors: a group without ROLLBACK; one with it below and at its bound of three errors; the watchdog (ErrorsAndTheWatchdog). -/
theorem witness_errors : (base.group 0).st = .resident ∧ (base.kernel 0).rollback = false ∧ (base.gang 1).group = 0
    ∧ (snapping.kernel 0).rollback = true ∧ (snapping.group 0).commit = false ∧ (snapping.group 0).ueCount < 3
    ∧ (∀ e ∈ snapping.gangs, e.2.group = 0 → e.2.live = true → e.2.task = false) ∧ (snapping.group 0).killed = none
    ∧ 3 ≤ ((snapping.modGroup 0 (fun x => { x with ueCount := 3 })).group 0).ueCount
    ∧ (base.ctxs.map (·.1)).Nodup ∧ (∀ e ∈ base.gangs, e.2.accs = [])
    ∧ (smFind ((idling.gang 1).slice 0).sets 0).isSome = true ∧ ((idling.gang 1).slice 0).cur = some 0 ∧ (idling.gang 1).live = true
    ∧ (idling.ctx (idling.gang 1).ctx).limit ≤ (((idling.gang 1).part 0).map (fun p => p.idle)).getD 0 := by decide +kernel

/-- A context command for context 2 or 0: OP and CTX, DESC, AREA, AREALEN, MAP, STATREC (R274). -/
def ctxCmd (op c desc area len : Nat) : List Dword :=
  [op + c * 65536, desc, area, len, 0, 0x300200, 0, 0].map (BitVec.ofNat 64)

/-- The machine with context 0 in a state, under a stop. -/
def stopping (st : CState) (kill : Bool) : State :=
  base.modCtx 0 (fun x => { x with st := st, stop := some ⟨kill, 0x10000, 0x10000, 0, 0x300200, [], false⟩ })

/-- Premises of the context commands in the states that allow them and in one that does not, and of areas too small and large enough
(ContextEvents). -/
theorem witness_context_commands : Claims.ctxCommand base 1 0 (ctxCmd 1 2 0x300300 0 0) ∧ Claims.ctxCommand base 2 0 (ctxCmd 2 0 0x300300 0 0)
    ∧ Claims.ctxCommand base 3 0 (ctxCmd 3 0 0 0x10000 0) ∧ Claims.ctxCommand base 5 0 (ctxCmd 5 0 0 0 0)
    ∧ Claims.ctxCommand base 6 0 (ctxCmd 6 0 0 0 0) ∧ Claims.ctxCommand (stopping .stopping true) 4 0 (ctxCmd 4 0 0 0x10000 0)
    ∧ Claims.ctxCommand base 1 0 (ctxCmd 1 0 0x300300 0 0) := by
  unfold Claims.ctxCommand
  exact ⟨by decide +kernel, by decide +kernel, by decide +kernel, by decide +kernel, by decide +kernel, by decide +kernel, by decide +kernel⟩

/-- The states of the contexts that those commands meet (ContextEvents). -/
theorem witness_context_states : (base.ctx 2).st = .free ∧ descBad true (base.dws 0x300300 2) = none ∧ (base.ctx 0).st = .live ∧ descBad false (base.dws 0x300300 2) = none
    ∧ base.groupsOfCtx 0 ≠ [] ∧ ({ base with groups := [] } : State).groupsOfCtx 0 = [] ∧ (base.ctxs.map (·.1)).Nodup
    ∧ ((stopping .saving false).ctx 0).st = .saving ∧ ((stopping .saving false).ctx 0).stop.isSome = true
    ∧ ((stopping .stopping true).ctx 0).stop.map Stop.kill = some true ∧ ((stopping .restoring true).ctx 0).st = .restoring := by decide +kernel

/-- A command of a virtual function for another's context, one with a bad field, and map commands that end before they act
(ContextCommandsRefused, MapCommandsRefused). -/
theorem witness_refused_commands : (ctxCmd 5 0 0 0 0).length = 8 ∧ (base.ctx 0).st ≠ .free ∧ (base.ctx 0).vf ≠ 3
    ∧ ctxBad ((ctxCmd 9 0 0 0 0).map (·.toNat)) = some 0 ∧ base.writeStage = some 2 ∧ base.foreign 3 0 = true ∧ base.foreign 0 0 = false
    ∧ base.mapWait = [] ∧ base.mapFin = [] ∧ base.proofq = [] := by decide +kernel

/-- Areas that are too small and large enough for the context (ContextEvents). -/
theorem witness_save_area : areaRoom ((ctxCmd 3 0 0 0x10000 0).map (·.toNat)) < (base.revertPlaced 0).saveNeed 0
    ∧ (base.revertPlaced 0).saveNeed 0 ≤ areaRoom ((ctxCmd 3 0 0 0x10000 (2 ^ 30)).map (·.toNat)) := by decide +kernel

/-- An area of a context without groups at 0x10000 of memory (R285), which the hub restores into context 2. -/
def restoring : State :=
  let s : State := { base with gangs := [], groups := [], ctxs := [] }
  (s.wr 0x10000 (bytesOf 8 (1 + 256 + 0x10000 * 2 ^ 32))).wr 0x10008 (bytesOf 8 (s.dev.pkgid * 2 ^ 48))

/-- The stop of its command. -/
def restoreStop : Stop := ⟨false, 0x10000, 2 ^ 30, 0, 0x300200, [], true⟩

/-- Premises of CTX_RESTORE (ContextEvents). -/
theorem witness_restore : Claims.ctxCommand restoring 4 0 (ctxCmd 4 2 0 0x10000 (2 ^ 30)) ∧ (restoring.ctx 2).st = .free ∧ restoring.poison = []
    ∧ restoring.areaBad restoreStop = none ∧ (∀ e ∈ restoring.gangs, e.2.ctx ≠ 2) ∧ (∀ e ∈ restoring.groups, e.2.ctx ≠ 2)
    ∧ ((restoring.installCtx 2 restoreStop).groupImages 0x10000).isEmpty = true
    ∧ (((restoring.installCtx 2 restoreStop).loadQueues 2 restoreStop ((restoring.installCtx 2 restoreStop).keptFor restoreStop) [] []).1).isSome = true := by
  unfold Claims.ctxCommand
  decide +kernel

/-- A stopping context whose gang has one part at a safe point, and one with nothing left. -/
def gangStopping : State := (stopping .stopping false).modGang 1 (fun g => { g with parts := [newPart 1] })
def allStopped : State := { (stopping .stopping false) with gangs := [], groups := [] }

/-- Premises of GANG_STOP, CTX_STOP_COMPLETE and CTX_SAVE_AREA_WRITTEN (ContextEvents). -/
theorem witness_stops : (gangStopping.ctx (gangStopping.gang 1).ctx).st = .stopping ∧ (gangStopping.gang 1).live = true
    ∧ (gangStopping.gang 1).parts = [newPart 1] ∧ (newPart 1).stop = none ∧ (gangStopping.gang 1).stopped = none ∧ (gangStopping.groupOf 1).depth = []
    ∧ gangStopping.safePoint 1 (newPart 1) = true ∧ ((gangStopping.ctx 0).stop.map Stop.kill) = some false
    ∧ allStopped.ctxStopped 0 = true ∧ gangStopping.ctxStopped 0 = false
    ∧ (let s : State := { (stopping .stopping true) with groups := [], ctxs := (stopping .stopping true).ctxs.map (fun e => (e.1, { e.2 with queues := [] })) };
      s.groupsOfCtx 0 = [] ∧ (∀ e ∈ (s.ctx 0).queues, e.2.launches = []) ∧ (s.ctxs.map (·.1)).Nodup ∧ (s.ctx 0).stop.map Stop.kill = some true)
    ∧ (let s : State := { (stopping .saving false) with gangs := [], ctxs := (stopping .saving false).ctxs.map (fun e => (e.1, { e.2 with queues := [] })) };
      (s.ctx 0).st = .saving ∧ (s.ctx 0).stop.map Stop.kills = some [] ∧ (∀ e ∈ (s.ctx 0).queues, e.2.launches = [])
        ∧ (s.ctxs.map (·.1)).Nodup ∧ ∀ e ∈ s.gangs, e.2.ctx ≠ 0) := by decide +kernel

/-- A map command of context 0 on `n` pages from 0x40000, with attributes `a` (R340). -/
def mapCmd (op n pa a : Nat) : List Dword := [op, 0x40000, n * 2 ^ 32, pa, a, 0x300100, 0x300200, 0].map (BitVec.ofNat 64)

/-- The mapped machine without gangs. -/
def mapping : State := { mapped with gangs := [], groups := [] }

/-- Premises of the map commands (MapCommandsAct): good and bad attributes, a spill area in use and not. -/
theorem witness_map_commands : (∀ op ∈ [1, 2, 3, 5, 6, 7], Claims.mapCommand mapping op 0 (mapCmd op 1 0x300000 0))
    ∧ Claims.mapCommand mapping 4 0 (mapCmd 4 0 0 0) ∧ Claims.mapCommand mapping 1 0 (mapCmd 1 1 0x300000 512)
    ∧ mapping.rangeBusy 0 0x40000 0x10000 = false ∧ (mapping.mapRange 0 ((mapCmd 1 1 0x300000 0).map (·.toNat))).isSome = true
    ∧ mapSize ((mapCmd 3 1 0x300000 0).map (·.toNat)) = 65536 ∧ mapping.replicasIn 0 0x40000 0x10000 = []
    ∧ (smFind (mapping.ctx 0).pages (0x40000 / 65536)).isSome = true ∧ mapping.walk 0 0x40000 = .leaf page4 0x40000 65536
    ∧ (512 : Nat).testBit 9 = true ∧ (512 : Nat).testBit 8 = false ∧ (mapping.ctx 0).spillUsed = []
    ∧ ((mapping.modCtx 0 (fun x => { x with spillUsed := [3] })).ctx 0).spillUsed ≠ [] := by
  unfold Claims.mapCommand
  decide +kernel

/-- A proof request whose header stands at 0x40000. -/
def proofing : State :=
  let s := { mapped with proofq := [⟨0, 0x40000, 0x310000, 0x320000, false⟩] }
  s.wr 0x300000 (header.flatMap (bytesOf 8))

/-- Premises of PROOFER_SCAN: code that passes, code that does not, and a page of another class (ProoferAndPacer). -/
theorem witness_proofs : proofing.proofq = [⟨0, 0x40000, 0x310000, 0x320000, false⟩]
    ∧ ((proofing.proofStep ⟨0, 0x40000, 0x310000, 0x320000, false⟩).1).isSome = true ∧ 0x310000 + 32 ≤ Config.hbmBytes ∧ 0x310000 + 32 ≤ 0x320000
    ∧ (base.classClash 0 0x10000 16 ⟨0, 0x10000, 16, 8, 0, 0, false, 1, [], [], []⟩).isSome = true
    ∧ base.classClash 0 0x40000 16 ⟨0, 0x40000, 16, 8, 0, 0, false, 1, [], [], []⟩ = none
    ∧ (scanCode 8 0 0 false 1 (bytesOf 8 0x17E0000010000000)).1.status = 0
    ∧ (scanCode 8 0 0 false 1 (tableBytes 32 0x03000001)).1.status ≠ 0 := by decide +kernel

/-- A move of the page at 0x40000 to another die or out; one that comes from the host. -/
def move (out : Bool) (old : Nat) : Move := ⟨0, 4, out, 0, true, 0, 0, 0, true, old, 0x400000, 0⟩
def moving (m : Move) : State := { mapped with moves := [m] }

/-- Premises of PAGE_MOVE_COMPLETE and of halving (ProoferAndPacer). -/
theorem witness_moves : (∀ o ∈ [true, false], (moving (move o page4)).moves = [move o page4]) ∧ (move true page4).began = true ∧ entKind page4 = 0
    ∧ entRo page4 = false ∧ (moving (move true page4)).mapWait = [] ∧ (moving (move true page4)).mapFin = []
    ∧ (∀ e ∈ (moving (move true page4)).gangs, e.2.accs = []) ∧ (moving (move true page4)).link.reqs = []
    ∧ (moving (move true page4)).oldUse 0 (4 * 65536) 65536 0 = false
    ∧ ((moving (move true page4)).modGang 1 (fun g => { g with accs := [(9, { (default : Acc) with lanes := [⟨3, 0x40010, 0, 0, .held 2, 0, false⟩] })] })).oldUse
      0 (4 * 65536) 65536 3 = true ∧ (smFind ((moving (move true page4)).ctx 0).pages 4).isSome = true
    ∧ Memory.wf (moving (move true page4)).mem = true ∧ Memory.wf (moving (move true page4)).host = true
    ∧ entKind (mkLeaf 0x7000000 2 0 true false false) = 2 ∧ mapped.hostPresent 0 (entAddr (mkLeaf 0x7000000 2 0 true false false)) = false
    ∧ (∀ e ∈ base.ctxs, smWf 0 e.2.regions = true) := by decide +kernel

/-- A held MARK of lap 5, in a launch with a timetable whose one range, due at lap 0, is not resident, and without one. -/
def asking (w tt : Bool) : State :=
  let s := mapped.modGang 1 (fun g => g.modPart 0 (fun p => { p with holds := [.mark 5 w] }))
  s.modLaunch 0 0 1 (fun l => { l with ttOn := tt, tt := [⟨0x50000, 1, 0, 100, 0xF, 1, 0, []⟩] })

/-- Premises of MARK_PACER_ANSWER in both forms (ProoferAndPacer). -/
theorem witness_mark_answers : (∀ w ∈ [true, false],
    let s := asking w false
    let x := s.groupOf 1
    let s1 := s.wakeSets 1 (s.cycOf 1 + 1) (fun _ y => match y.st with
      | .mark n => (s.lapAnswer x.ctx x.q x.seq n).isNone
      | _ => false)
    (s.gang 1).live = true ∧ (s.gang 1).stopped = none ∧ x.st = .resident ∧ ((s1.gang 1).part 0).map Part.asks = some (some (5, w))) := by decide +kernel

/-- A launch without a timetable misses nothing, and one whose range is not resident does (ProoferAndPacer). -/
theorem witness_laps : ((((asking true false).modLaunch 0 0 1 (fun l => { l with lead := max l.lead 5 })).pace 0 0 1).lapAnswer 0 0 1 5).isNone = true
    ∧ ((((asking true true).modLaunch 0 0 1 (fun l => { l with lead := max l.lead 5 })).pace 0 0 1).lapAnswer 0 0 1 5).isSome = true := by decide +kernel

/-- Cluster 0 on the high rail, 10 µs after it last issued. -/
def railed : State := { (base.modCluster 0 (fun k => { k with high := true, lastIssue := 580000 })) with time := 1000000 }

/-- Premises of the rails: an idle cluster on the high rail, one that issued lately, and a change that is over (RailsAndLeases). -/
theorem witness_rails : (smFind railed.clusters 0).isSome = true ∧ (railed.cluster 0).high = true ∧ (railed.cluster 0).change = none
    ∧ (railed.cluster 0).hot100 = false ∧ (railed.cluster 0).rhold = none ∧ (railed.cluster 0).lastIssue + 420000 ≤ railed.time
    ∧ ({ railed with time := 999999 } : State).time < (railed.cluster 0).lastIssue + 420000
    ∧ ((railed.modCluster 0 (fun k => { k with change := some 1000000 })).cluster 0).change = some 1000000 := by decide +kernel

/-- A waiting PWRACQ of gang 1, and a request for a lease, under budgets that let them through and that do not. -/
def granting (cls want budget : Nat) : State :=
  let s := base.modGang 1 (fun g => { g with curcls := cls, leaseEnd := some 100 })
  { (s.modDie 0 (fun d => { d with pwrq := [⟨1, want, 7, 0⟩], leaseq := [⟨1, 50, 8, 0⟩], budget := budget })) with time := 100 }

/-- Premises of CURRENT_GRANT, LEASE_GRANT and LEASE_EXPIRY (RailsAndLeases). -/
theorem witness_grants : ((granting 0 3 327680).die 0).pwrq = [⟨1, 3, 7, 0⟩] ∧ (smFind (granting 0 3 327680).gangs 1).isSome = true
    ∧ chargeWith ((granting 3 0 0).classesOn 0) 1 0 ≤ (granting 3 0 0).coreCharge 0
    ∧ (granting 0 3 327680).dieCharge 0 + chargeWith ((granting 0 3 327680).classesOn 0) 1 3
        ≤ ((granting 0 3 327680).die 0).budget + (granting 0 3 327680).coreCharge 0
    ∧ (granting 0 3 0).coreCharge 0 < chargeWith ((granting 0 3 0).classesOn 0) 1 3
    ∧ ((granting 0 3 0).die 0).budget + (granting 0 3 0).coreCharge 0 < (granting 0 3 0).dieCharge 0 + chargeWith ((granting 0 3 0).classesOn 0) 1 3
    ∧ ((granting 0 3 0).die 0).leaseq = [⟨1, 50, 8, 0⟩] ∧ ((granting 0 3 0).gang 1).live = true ∧ (granting 0 3 0).mayLease 0 = true
    ∧ ((granting 0 3 0).modCluster 0 (fun k => { k with hot90 := true })).mayLease 0 = false
    ∧ ((granting 0 3 0).gang 1).leaseEnd = some 100 ∧ 100 ≤ (granting 0 3 0).time ∧ ({ (granting 0 3 0) with time := 99 } : State).time < 100 := by
  decide +kernel

/-- Cluster 0 after `n` replays of the last millisecond. -/
def replayed (n : Nat) : State := { (base.modCluster 0 (fun k => { k with replays := List.replicate n 42000000, rhold := some 42000000 })) with time := 42000000 }

/-- Premises of TIMING_REPLAY on its fifteenth and sixteenth replay, and of REPLAY_HOLD_EXPIRY (RailsAndLeases). -/
theorem witness_replays : let n := fun (m : Nat) => (((replayed m).cluster 0).replays.filter (fun t => (replayed m).time < t + 42000000)).length + 1
    (smFind (replayed 14).clusters 0).isSome = true ∧ n 14 < 16 ∧ 16 ≤ n 15 ∧ ((replayed 15).cluster 0).high = false
    ∧ ((replayed 15).cluster 0).hot100 = false ∧ ((replayed 15).cluster 0).rhold = some 42000000 ∧ 42000000 ≤ (replayed 15).time := by decide +kernel

/-- Sensors that have read nothing, and suspect ones after 10 ms; a launch alone on its cluster; a stack idle for 1 ms (ReadingsAndEnergy). -/
theorem witness_readings : (smFind base.clusters 0).isSome = true ∧ (base.cluster 0).tSusp = false ∧ (base.cluster 0).tHist = []
    ∧ (∀ j ∈ ringOf 0, (base.cluster j).tHist = [] ∧ (base.cluster j).iHist = []) ∧ (base.cluster 0).iSusp = false ∧ (base.cluster 0).iHist = []
    ∧ (let s : State := { (base.modCluster 0 (fun k => { k with tSusp := true, iSusp := true })) with time := 420000000 };
      (s.cluster 0).tSusp = true ∧ (s.cluster 0).tSince + 420000000 ≤ s.time ∧ (s.cluster 0).tRaw < 110 ∧ (s.cluster 0).iSusp = true ∧ (s.cluster 0).iSince + 420000000 ≤ s.time)
    ∧ base.launchesOn (fun core => clusterOf core = 0) = [(0, 0, 1)] ∧ (smFind (base.queue 0 0).launches 1).isSome = true
    ∧ (∃ e ∈ base.gangs, base.holdsSlot e.1 e.2 = true ∧ clusterOf e.2.core = 0 ∧ (base.group e.2.group).ctx = 0 ∧ (base.group e.2.group).q = 0
      ∧ (base.group e.2.group).seq = 1)
    ∧ ((smFind base.hbm 7).getD (0, false)).1 + 42000000 ≤ ({ base with time := 42000000 } : State).time := by decide +kernel

/-- The package at a stage, powered, and before its join. -/
def staged (n : Nat) : State := { State.reset with dev := { State.reset.dev with powered := true, stage := n } }

/-- Stage 1 after GO with a usable port on each of two planes. -/
def joining : State := { State.reset with
  dev := { State.reset.dev with powered := true, stage := 1, go := true, planes := 1 }
  link := { State.reset.link with ports := [(0, ⟨.active, 0, [], false, 0⟩), (3, ⟨.degraded, 0, [], false, 0⟩)], peers := [(3, ⟨.up, 5, 1, 0⟩)] } }

/-- Premises of start-up: power-good, stage 1 with masks that hold 12 ones and that do not, the join (StartUpEvents). -/
theorem witness_start : State.reset.dev.powered = false ∧ State.reset.dev.err ≠ 1 ∧ (staged 0).dev.powered = true ∧ (staged 0).dev.stage = 0
    ∧ (staged 0).dev.err = 0 ∧ (staged 0).dev.safeState ≠ 1 ∧ [0x0FFF, 0x1FFE, 0x0FFF, 0x1EFF].length = 4
    ∧ (∀ m ∈ [0x0FFF, 0x1FFE, 0x0FFF, 0x1EFF], m < 8192 ∧ ((List.range 13).filter (fun i => m.testBit i)).length = 12)
    ∧ (∃ m ∈ [0x0FFF, 0x1FFF, 0x0FFF, 0x1EFF], ((List.range 13).filter (fun i => m.testBit i)).length ≠ 12)
    ∧ (staged 1).dev.stage ≠ 0 ∧ (staged 1).dev.go = false ∧ fld (0x80050001 : Nat) 16 3 ≤ 5 ∧ 6 ≤ fld (0x80060001 : Nat) 16 3
    ∧ joining.dev.stage = 1 ∧ joining.dev.go = true ∧ (∀ p < 2 ^ joining.dev.planes, ∃ k < 32, k % 2 ^ joining.dev.planes = p ∧ (joining.port k).st.usable = true)
    ∧ joining.portUsable 511 3 = true ∧ ((∃ p < 2 ^ 1, ∀ k < 32, k % 2 ^ 1 = p → ((staged 1).port k).st.usable = false)) := by
  decide +kernel

/-- The safe kernel's packet stands at 0x300000 in stack 0 (R397). -/
def safe : State := (staged 0).wr 0x300000 (packet.flatMap (bytesOf 8))

/-- Premises of the host's registers, SAFELP and FEATACPT (StartUpEvents, FeatacptTakesOneWrite). -/
theorem witness_registers_of_the_host : (31 : Nat) < 32 ∧ (port4 .active 0 []).dev.powered = true ∧ ((port4 .active 0 []).port 4).st ≠ .disabled
    ∧ ((port4 .active 0 []).port 31).st = .disabled ∧ (smFind base.dies 3).isSome = true ∧ fld (0x10000 : Nat) 16 16 ≠ 0
    ∧ (smFind joining.link.peers 3).isSome = true ∧ (0x5000 : Nat) % 4096 = 0 ∧ base.queueOwned 0 0 0 = true
    ∧ ((queued (fun x => { x with st := .disabled })).queue 0 0).st = .disabled ∧ (0x2000 : Nat) % 8192 = 0 ∧ (base.queue 0 0).st ≠ .disabled
    ∧ (∀ e ∈ base.groups, e.2.ctx = 0 → e.2.q = 0 → e.2.since ≠ ({ base with time := 35 } : State).hubCycle)
    ∧ (base.group 0).since = base.hubCycle ∧ (base.group 0).st = .resident ∧ (smFind base.groups 0).isSome = true ∧ 8 ≤ (0x0B : Nat) % 256
    ∧ base.dev.err ≠ 6 ∧ safe.dev.stage = 0 ∧ safe.dev.safeState ≠ 1 ∧ 0x300000 + 128 ≤ Config.stackBytes
    ∧ packetErr (safePacket (dwordsOf 16 (safe.rd 0x300000 128))) = none
    ∧ ({ safe with dev := { safe.dev with safeState := 1 } } : State).dev.safeState = 1
    ∧ (staged 1).dev.featWr = false ∧ (staged 1).dev.stage ≠ 0 := by decide +kernel

/-- Those gangs carry nothing bad, and no slot of the bundle reads a bad word (StepRunsDecodedBundle, UnproofedCodeRefused). -/
theorem witness_untainted : (fetched.gang 1).tainted = false ∧ (badCode.gang 1).tainted = false
    ∧ (let s0 : State := { fetched with picked := [] }
      match s0.nextBundle 1 0 with
        | .bundle c _ is => !(is.any (s0.readsBad { c with desc := [] } []))
        | _ => false) = true := by decide +kernel

/-- 1 as `.f32` decodes it, an integer, and an integer and a half (TranscendentalsComplete). -/
theorem witness_special_values : exVal (.fin false 0x800000 (-23)) = 1 ∧ exVal (.fin true 6 (-1)) = (-3 : Int)
    ∧ exVal (.fin false 5 (-1)) = (2 : Int) + 1 / 2 := by
  norm_num [exVal]

/-- The pages of those accesses are local, also for a fill, and no future has a waiter (LocalAccesses, FuturesFillAndGive). -/
theorem witness_local_pages : base.remotePage 0 (base.ea cur0 ⟨2, .imm 0, 0⟩ 0 3) = false ∧ base.fwait = []
    ∧ base.hits 0 0 (base.ea cur0 ⟨2, .imm 0, 0⟩ 0 3) .fill 0x300010 := by
  unfold State.hits
  exact ⟨by decide +kernel, by decide +kernel, by decide +kernel, ⟨0, 0x40000, 0x10000, page4⟩, by decide +kernel⟩

/-- A stream of slice 0 with a read that a peer still has to answer (HoldsOfTheMemorySlot). -/
def reading : State := base.modGang 1 (fun g => { (g.modSlice 0 (fun x => { x with
    strm := some ⟨[0x40010, 1 + 8 + 8 * 256 + 4 * 2 ^ 32, 2, 0, 0, 0, 0, 0], .b32, 1, 2, 255, 4, 9⟩ })) with
  accs := [(9, { (default : Acc) with ty := .b32, strm := true, slices := 1, lanes := [⟨3, 0x40010, 0, 0, .sent 8, 0, false⟩] })] })

/-- Premises of STRMX. -/
theorem witness_streams_end : ((reading.gang 1).accs.map (·.1)).Nodup ∧ reading.issues cur0 .strmx
    ∧ (∃ e ∈ (reading.gang 1).accs, e.2.strm = true ∧ e.2.slices.testBit 0 = true ∧ ((reading.gang 1).slice 0).streams e.1 = true
      ∧ ∃ l ∈ e.2.lanes, l.st = .sent 8) := by
  refine ⟨by decide +kernel, ⟨rfl, .inl rfl⟩, by decide +kernel⟩

/-- Nothing of the engine is under way for the group's scratchpads, and the command names a flag in a live slice (MatrixEngines). -/
theorem witness_matrix_flags : (mat (.mma xMma)).fired = none ∧ matFlag (mat (.mma xMma)).i = some 3 ∧ (mat (.mma xMma)).slices.testBit 0 = true
    ∧ (((matrix (.mma xMma)).gang 1).slice 0).sets ≠ [] ∧ (smFind (matrix (.mma xMma)).gangs 1).isSome = true
    ∧ (∀ k < 2, together.spDrained (seatOf k).2.2.group (seatOf k).2.1 = true) := by decide +kernel

/-- The copies have no request under way and no element sent, and no store is at the bank of the hurdle (CopyEngine). -/
theorem witness_copies_local : (copyCmd [1]).sent = [] ∧ (copyCmd [3, 1, 0, 2]).reqs = []
    ∧ ((copying [1]).group 0).bank.cyc ≠ (copying [1]).cyc ((copying [1]).group 0).core := by decide +kernel

/-- Two writes of S4 and one of P1 in flight, which a trap and a stop land (TrapsAndReturns, FaultsAndChecks). -/
def flying : Gang := { (base.gang 1) with flight := [⟨12, 10, 3, 1, .s 4 7⟩, ⟨14, 9, 2, 1, .s 4 8⟩, ⟨14, 9, 5, 1, .p 3 1 true⟩] }

/-- Premises of the landings, and a gang that has stopped while its bundle issues. -/
theorem witness_in_flight : flying.flight = [⟨12, 10, 3, 1, .s 4 7⟩] ++ ⟨14, 9, 2, 1, .s 4 8⟩ :: [⟨14, 9, 5, 1, .p 3 1 true⟩]
    ∧ (1 : Nat) &&& cur0.slices ≠ 0 ∧ smWf (0 : Dword) flying.s = true
    ∧ (∀ w ∈ flying.flight, (match w.w with | .sys _ _ _ => true | _ => false) = false)
    ∧ ({ base with cur := some cur0 }.modGang 1 (fun g => { g with stopped := some 10 }) : State).cur = some cur0
    ∧ (({ base with cur := some cur0 }.modGang 1 (fun g => { g with stopped := some 10 }) : State).gang 1).stopped.isSome = true := by decide +kernel

/-- The gang waits on the hurdle at 0x40, which holds, with an HWAIT held on the one at 0x50, which does not
(TaskAndBarrierInstructions). -/
def hurdles (st : Wait) : State := solo.modGang 1 (fun g => { g with
  parts := [{ newPart 1 with holds := if st = .run then [.hwait 0x50 0x10000] else [] }]
  slices := g.slices.map (fun x => x.modSets (fun y => { y with st := st, nxt := 0x10008 })) })

/-- Premises of HWAIT's decision and of the test of the hurdles. -/
theorem witness_hurdles : ((hurdles .run).gang 1).heldBy (.hwait 0x50 0x10000) = 1
    ∧ (match ((hurdles .run).gang 1).slices with
      | [x] => (match x.sets with | [(e, y)] => decide (x.cur = some e) && decide (y.st = .run) | _ => false)
      | _ => false) = true
    ∧ (match (hurdles (.hurdle 0x40)).gangs with
      | [(_, g)] => g.live && g.stopped.isNone && g.accs.isEmpty && g.parts.all (fun p => p.holds.isEmpty)
        && (match g.slices with
          | [x] => (match x.sets with
            | [(e, y)] => decide (x.cur = some e) && decide (y.st = .hurdle 0x40) && !((hurdles (.hurdle 0x40)).isRegang g.ctx y.nxt)
            | _ => false)
          | _ => false)
      | _ => false) = true := by decide +kernel

/-- Issuers of which one does not stand back, and two that do; parts without a hold (PicksAndReconvergence). -/
theorem witness_yielded : (∃ b ∈ base.issuers 0 0, b.yielded = false)
    ∧ (let l := (base.issuers 0 0 ++ base.issuers 0 0).map (fun b => { b with yielded := true })
      2 ≤ l.length ∧ ∀ b ∈ l, b.yielded = true)
    ∧ (∀ p ∈ regangs.parts, p.holds = []) := by decide +kernel

/-- A stream over the scratchpad with nothing else of its gang under way (LoadsAndStreamsArrive). -/
def spStream : State := base.modGang 1 (fun g => g.modSlice 0 (fun x => { x with
  strm := some ⟨[0x40, 1 + 16 + 8 * 256 + 4 * 2 ^ 32, 2, 0, 0, 0, 0, 0], .b32, 0, 2, 255, 0, 0⟩ }))

/-- Premises of STREAM_ELEMENT's frame. -/
theorem witness_scratchpad_stream : spStream.streamReady 1 0 = true ∧ (spStream.gang 1).accs = []
    ∧ ((spStream.gang 1).slice 0).strm.any (fun x => decide (sdSpace x.desc = 2) && decide (bitsOf 8 x.lanes ≠ [])
      && (bitsOf 8 x.lanes).all (fun j => sdAddr x.desc x.next (8 * 0 + j) % Machine.sizeOf x.ty = 0)) = true
    ∧ (spStream.gang 1).parts.all (fun p => p.holds.isEmpty) = true
    ∧ arriving.atBank 1 9 = false ∧ ((arriving.gang 1).slice 0).sets ≠ [] := by decide +kernel

/-- Writes that reach a POISONED page, and the sizes that a transaction has (FabricRequests). -/
theorem witness_lost_writes : (∀ b ∈ [((0x300000 : Nat), (1 : Byte))], b.1 < Config.hbmBytes ∧ joined.inTables b.1 = false)
    ∧ (∃ b ∈ [((0x300000 : Nat), (1 : Byte))], ({ joined with failed := [48] } : State).failedAt b.1 = true)
    ∧ (256 : Nat) ≤ 256 ∧ (sending (req 3 0 [] false .msg)).portFrom 3 ((req 3 0 [] false .msg).port + 1) = some 4
    ∧ (req 3 0 [] false .msg).went = true ∧ (req 1 0 [7] true .msg).peer ≠ joined.dev.pkgid
    ∧ smFind (sending (req 3 0 [] false .msg)).link.reqs 9 = some (req 3 0 [] false .msg)
    ∧ (req 1 (10 ^ 12 - 4200000) [] false .msg).held = false ∧ (req 1 (10 ^ 12 - 4200000) [] false .msg).busy = false := by decide +kernel

/-- A message that is new, one whose outcome is kept, one from an older incarnation and one that its check fails (BatonEvents). -/
theorem witness_messages : (holdsStore 0).keptOutcome msg.srcPkg msg.tag msg.number = none ∧ msg.srcPkg ≠ joined.dev.pkgid ∧ joined.failed = []
    ∧ (({ joined with link := { joined.link with tags := [⟨3, 8, 6, some (.done []), 0⟩] } } : State).keptOutcome msg.srcPkg msg.tag msg.number).isSome = true
    ∧ ({ joined with link := { joined.link with tags := [⟨3, 8, 6, some (.done []), 0⟩] } } : State).heeds msg
    ∧ newer (joined.peer 3).inc 4 = true ∧ ({ msg with srcInc := 4 } : Msg).srcPkg = 3 ∧ ({ msg with dstInc := 1 } : Msg).dstInc ≠ joined.link.inc
    ∧ ({ msg with crcOk := false } : Msg).crcOk = false ∧ (sending (req 1 0 [7] false .msg)).link.batons = []
    ∧ (sending (req 1 0 [7] false .msg)).keptOutcome msg.srcPkg msg.tag msg.number = none := by
  unfold State.heeds State.current
  decide +kernel

/-- No replica of the home's page here, a shoot-down that has told its packages, and an INCANN of a newer incarnation (DomainMessages). -/
theorem witness_newer_peer : (shooting 1 [3]).replicasOf 3 8 = [] ∧ (shooting 1 [3]).keptOutcome msg.srcPkg msg.tag msg.number = none
    ∧ newer 6 (joined.peer 3).inc = true ∧ (joined.peer 3).st ≠ .none ∧ joined.usablePorts 3 ≠ [] ∧ msg.dstInc = joined.link.inc
    ∧ (let s : State := { holdsStore 0 with ctxs := [] }
      (∀ e ∈ s.link.reqs, e.2.peer ≠ 3) ∧ s.link.held = [(9, heldStore 0)] ∧ (heldStore 0).src = 3 ∧ 3 ≠ s.dev.pkgid ∧ s.link.shoots = [] ∧ s.link.batons = [])
    ∧ (let s : State := { sending (req 1 0 [] false (.far (.record 1) 64)) with ctxs := [] }
      s.link.reqs = [(9, req 1 0 [] false (.far (.record 1) 64))] ∧ (s.delReq 9).wantsFar (.record 1) = true ∧ s.link.held = []) := by decide +kernel

/-- A group that is parked (ErrorsAndTheWatchdog). -/
theorem witness_parked_errors : ((parkedGroup .active .parked).group 0).st = .parked := by decide +kernel

/-- A bundle of `vmov.i32 V6, V9` at the program counter, where an error has hit V9 of lane 3 (ErrorsAndTheWatchdog). -/
def moves : Instr := .vmov ⟨.i32, .rne, false, guardAll, 6, .v 9⟩
def badWord : State := (State.reset.armed ((soloWords moves).flatMap (bytesOf 4))).modGang 1 (fun g => { g with badV := [3 * 256 + 9] })

/-- Premises of the step that consumes the error. -/
theorem witness_bad_word : badWord.picked = [(1, 0)] ∧ (badWord.gang 1).tainted = false ∧ isCopy moves = false
    ∧ (let s0 : State := { badWord with picked := [] }
      s0.eligible 1 0 && (match s0.nextBundle 1 0 with
        | .bundle c _ is => is == [moves] && (s0.preAll { c with desc := [] } is (s0.currentCheck { c with desc := [] } is) none).isNone
            && s0.readsBad { c with desc := [] } [] moves && (s0.active c guardAll).contains 3
        | _ => false)) = true
    ∧ (Ty.i32, Opd.v 9) ∈ instrOpds moves ∧ 9 ∈ opdV .i32 (.v 9) ∧ instrGuard moves = some guardAll
    ∧ base.moves = [] := by decide +kernel

/-- Attributes with RO on a machine that accepts feature 11 and on one that does not, and a foreign function (MapCommandsAct). -/
theorem witness_features : mapping.feature 11 = false ∧ ({ mapping with dev := { mapping.dev with feat := 2 ^ 11 + 1 } } : State).feature 11 = true
    ∧ Claims.mapCommand { mapping with dev := { mapping.dev with feat := 2 ^ 11 + 1 } } 1 0 (mapCmd 1 1 0x300000 256)
    ∧ (({ mapping with dev := { mapping.dev with feat := 2 ^ 11 + 1 } } : State).mapRange 0 ((mapCmd 1 1 0x300000 256).map (·.toNat))).isSome = true
    ∧ mapBad ((mapCmd 1 1 0x300001 0).map (·.toNat)) = some 24 ∧ mapping.foreign 3 0 = true ∧ (mapping.ctx 5).st ≠ .live ∧ mapping.foreign 0 5 = false := by
  unfold Claims.mapCommand
  decide +kernel

/-- An event of the cycle that may break a lease's conditions, and none (RailsAndLeases). -/
theorem witness_lease_events : (granting 0 3 0).agenda.any endsLeases = false
    ∧ ({ granting 0 3 0 with agenda := [.temperatureReading 0 95] } : State).agenda.any endsLeases = true := by decide +kernel

/-- A sensor whose standing reading is out of range, and one without a case for 10 ms (ReadingsAndEnergy). -/
theorem witness_standing_readings : (let s := base.modCluster 0 (fun k => { k with tSusp := true, tRaw := 200 })
      150 < (s.cluster 0).tRaw ∧ (s.cluster 0).tSusp = true)
    ∧ (base.cluster 0).tHeld = false ∧ (base.cluster 0).iHeld = false ∧ -20 ≤ (base.cluster 0).tRaw := by decide +kernel

/-- The records of stage 1: a good unit map of all, a bad one, and those of the other types (StartUpEvents). -/
def record (k : RecordKind) (l : List Nat) : SignedRecord := ⟨k, true, 5, l⟩
def boot : List SignedRecord := [record .unitMap [0x0FFF, 0x1FFE, 0x0FFF, 0x1EFF], record .trims [100, 100, 100, 100]]
  ++ (List.finRange 8).map (fun k => record (.repair k) [])

/-- Premises of STAGE1_ENTRY. -/
theorem witness_stage_one : (staged 0).dev.powered = true ∧ (staged 0).dev.stage = 0 ∧ (staged 0).dev.err = 0
    ∧ (∀ x ∈ boot, x.signed = true ∧ (staged 0).dev.counters.getD (x.kind.code - 1) 0 ≤ x.version
      ∧ (x.kind = .unitMap → x.content.length = 4 ∧ ∀ m ∈ x.content, m < 8192 ∧ ((List.range 13).filter (fun i => m.testBit i)).length = 12))
    ∧ (∀ k ∈ [RecordKind.unitMap, .trims] ++ (List.finRange 8).map RecordKind.repair, ∃ x ∈ boot, x.kind = k)
    ∧ (∀ x ∈ boot, ∀ y ∈ boot, y.kind = x.kind → y = x)
    ∧ ({ staged 0 with dev := { (staged 0).dev with counters := [6] } } : State).dev.counters.getD (RecordKind.unitMap.code - 1) 0 = 6
    ∧ (∃ m ∈ [0x0FFF, 0x1FFF, 0x0FFF, 0x1EFF], ((List.range 13).filter (fun i => m.testBit i)).length ≠ 12) := by decide +kernel

/-- A write in the cycle of a change of stage, and others (StartUpEvents). -/
theorem witness_write_stages : (staged 1).writeStage = some 1 ∧ (staged 0).writeStage = some 0 ∧ State.reset.writeStage = none
    ∧ (staged 1).dev.changed = none ∧ ({ staged 1 with dev := { (staged 1).dev with changed := some (0, some 0) } } : State).writeStage = some 0
    ∧ (staged 1).dev.go = false ∧ (staged 1).bar0 8 < 2 ^ 64 ∧ (staged 1).dev.identity = false
    ∧ ({ staged 1 with dev := { (staged 1).dev with identity := true } } : State).dev.identity = true := by decide +kernel

/-- The miss of a plain MARK has its record written (ProoferAndPacer). -/
theorem witness_miss_record : (let s2 := ((asking false true).modLaunch 0 0 1 (fun l => { l with lead := max l.lead 5 })).pace 0 0 1
    match s2.lapAnswer 0 0 1 5 with
    | some miss => (s2.missRecord ((asking false true).groupOf 1) 5 miss).1
    | none => false) = true := by decide +kernel

/-- No fence of the gang holds its stream's access back (LoadsAndStreamsArrive). -/
theorem witness_stream_free (a : Acc) : (spStream.gang 1).fenced spStream.nextId a = false := by
  have parts : (spStream.gang 1).parts = [newPart 1, newPart 2] := by decide +kernel
  simp [Gang.fenced, parts, newPart]

end Sys2Proof.Tests
end

section
/-! Flags: what a CLRF leaves in the slices of a gang (R133, R136). -/

namespace Sys2Proof.Machine

/-! A mask without the bits of another. -/

@[simp] theorem testBit_maskDiff (a b j : Nat) : (maskDiff a b).testBit j = (a.testBit j && !b.testBit j) := by
  rw [maskDiff, Nat.testBit_xor, Nat.testBit_and]
  cases a.testBit j <;> cases b.testBit j <;> rfl

/-! A bank of flags. -/

/-- A bank whose own cycle is over reads as it ended. -/
theorem FlagBank.read_of_lt {b : FlagBank} {t : Nat} (h : b.cyc < t) : b.read t = b.ended := if_pos h

/-- A bank moved to a later cycle holds what it ended with, and nothing of the new cycle. -/
theorem FlagBank.at_of_lt {b : FlagBank} {t : Nat} (h : b.cyc < t) : b.at t = ⟨b.ended, 0, 0, t⟩ := if_pos h

/-- The flags after a cycle whose only event is a CLRF: those before it, less the CLRF's own (R133). -/
theorem FlagBank.read_succ_clearIn {b : FlagBank} {t : Nat} (h : b.cyc < t) (m : Nat) :
    (b.clearIn t m).read (t + 1) = maskDiff (b.read t) m := by
  have cleared : b.clearIn t m = ⟨b.ended, 0, m, t⟩ := by
    rw [FlagBank.clearIn, FlagBank.at_of_lt h, Nat.zero_or]
  rw [cleared, FlagBank.read_of_lt (Nat.lt_succ_self t), FlagBank.read_of_lt h, FlagBank.ended, Nat.or_zero]

/-! The slices of a gang. -/

theorem Gang.slice_modSlices {g : Gang} {k : Nat} (hk : k < g.slices.length) (m : Nat) (f : Slice → Slice) :
    (g.modSlices m f).slice k = if m.testBit k then f (g.slice k) else g.slice k := by
  simp [Gang.slice, Gang.modSlices, List.getD_eq_getElem?_getD, hk]

/-- The CLRF of one slice in cycle `t` (R136). -/
def Slice.clearFlags (t m : Nat) (x : Slice) : Slice := { x with flags := x.flags.clearIn t m }

/-- The meaning of CLRF (R136). -/
theorem exec_clrf (m : BitVec 16) (s : State) :
    exec (.clrf m) s = slot s (.clrf m) (fun c s =>
      s.modGang c.gang (fun g => g.modSlices c.slices (Slice.clearFlags c.cyc m.toNat))) := rfl

/-- A CLRF that issues clears its flags in the slices of its part, and does nothing else. -/
theorem exec_clrf_issues {s : State} {c : Cursor} {m : BitVec 16} (h : s.issues c (.clrf m)) :
    exec (.clrf m) s = .next (s.modGang c.gang (fun g => g.modSlices c.slices (Slice.clearFlags c.cyc m.toNat))) := by
  rw [exec_clrf, slot_issues _ h]

/-- Settles O13: the slices of the part take the CLRF, whose bank reads without the mask's flags from the next cycle on; the other
slices are left as they were. -/
theorem clrfClearsItsFlags : Obligations.ClrfClearsItsFlags := by
  intro s c m hi hg
  refine ⟨_, exec_clrf_issues hi, fun k j hk => ?_⟩
  rw [State.gang_modGang_same _ _ _ hg, Gang.slice_modSlices hk]
  refine ⟨fun outside => ?_, fun inside older => ?_⟩
  · simp only [outside, Bool.false_eq_true, if_false]
  · simp only [inside, if_true, Slice.clearFlags, FlagBank.read_succ_clearIn older, testBit_maskDiff]

end Sys2Proof.Machine
end

section
/-! PREF: its checks and its meaning (R182). -/

namespace Sys2Proof.Machine

/-- Check mode passes an instruction exactly when it is off or the scoreboard finds fault with no source (R114). -/
theorem State.checkMode_eq_none_iff {s : State} {c : Cursor} {i : Instr} :
    s.checkMode c i = none ↔ s.checks c = false ∨ s.scoreboard c i = none := by
  cases hc : s.checks c <;> simp [State.checkMode, hc]

/-- An instruction without checks of its own operands is stopped by check mode alone (R372). -/
theorem State.pre_eq_checkMode {s : State} {c : Cursor} {i : Instr} (hm : s.memChecks c i = none) (hx : s.xChecks c i = none)
    (hc : s.cChecks c i = none) : s.pre c i = s.checkMode c i := by
  rw [State.pre, hm, hx, hc]
  cases h : s.checkMode c i <;> simp [firstOf]

/-- PREF's addresses are not checked (R182): no alignment, no canonical form, no page and no range lock. -/
theorem State.pre_pref (s : State) (c : Cursor) (o : MPref) : s.pre c (.pref o) = s.checkMode c (.pref o) :=
  State.pre_eq_checkMode rfl rfl rfl

/-- A PREF whose bundle issues leaves the whole state as it is (R182). -/
theorem exec_pref_issues {s : State} {c : Cursor} {o : MPref} (h : s.issues c (.pref o)) : exec (.pref o) s = .next s :=
  slot_issues (fun _ s => s) h

/-- Settles O31: check mode alone can stop a PREF, and one that issues changes nothing. -/
theorem prefetchOnlyTimes : Obligations.PrefetchOnlyTimes := by
  intro s c o hcur
  refine ⟨fun unchecked => ?_, fun h => exec_pref_issues ⟨hcur, ?_⟩⟩
  · rw [State.pre_pref, State.checkMode_eq_none_iff]
    exact .inl unchecked
  · rwa [State.pre_pref, State.checkMode_eq_none_iff]

end Sys2Proof.Machine
end

section
/-! FEATACPT: the vector that the single write leaves, and which writes are ignored (R23, R403). -/

namespace Sys2Proof.Machine

/-- What FEATACPT holds after its single write of `v` (R23): the bits of `v` that FEATAVAIL has, and bit 0. -/
def featAccepted (v : BitVec 128) : Nat := (v.toNat &&& Config.featAvail) ||| 1

theorem testBit_featAccepted (v : BitVec 128) (k : Nat) :
    (featAccepted v).testBit k = (decide (k = 0) || (v.getLsbD k && Config.featAvail.testBit k)) := by
  have bit0 : Nat.testBit 1 k = decide (k = 0) := by
    rw [Bool.eq_iff_iff, Nat.testBit_one_eq_true_iff_self_eq_zero, decide_eq_true_eq]
  rw [featAccepted, Nat.testBit_or, Nat.testBit_and, BitVec.testBit_toNat, bit0, Bool.or_comm]

/-- The stage test of a write fails before stage 0 as it does at stage 0. -/
theorem State.writeStage_getD_eq_zero_iff (s : State) :
    s.writeStage.getD 0 = 0 ↔ s.writeStage = none ∨ s.writeStage = some 0 := by
  cases s.writeStage <;> simp

/-- What bars a write of FEATACPT: the stage, an earlier write, the place or the size (R23, R403). -/
def State.featBarred (s : State) (off size : Nat) : Prop :=
  (s.writeStage = none ∨ s.writeStage = some 0 ∨ s.dev.featWr = true) ∨ (off ≠ 0x20 ∨ size ≠ 16)

/-- `execFeatacptWrite` tests exactly what bars a write. -/
theorem State.featBarred_iff (s : State) (off size : Nat) :
    s.featBarred off size ↔ (s.writeStage.getD 0 = 0 || s.dev.featWr || off ≠ 0x20 || size ≠ 16) = true := by
  simp only [State.featBarred, Bool.or_eq_true, decide_eq_true_eq, s.writeStage_getD_eq_zero_iff, or_assoc]

/-- A barred write changes nothing: it does not use up the single write. -/
theorem exec_featacptWrite_barred {s : State} {off size : Nat} (v : BitVec 128) (h : s.featBarred off size) :
    exec (.featacptWrite off size v) s = .next s :=
  if_pos ((s.featBarred_iff off size).mp h)

/-- A write that nothing bars is the single write, and puts the whole vector in force. -/
theorem exec_featacptWrite_taken {s : State} {off size : Nat} (v : BitVec 128) (h : ¬ s.featBarred off size) :
    exec (.featacptWrite off size v) s = .next { s with dev := { s.dev with featWr := true, feat := featAccepted v } } :=
  if_neg (mt (s.featBarred_iff off size).mpr h)

/-- Settles O60: the first write of 16 bytes at 0x0020 at stage 1 or later is barred by nothing, and each other write is barred. -/
theorem featacptTakesOneWrite : Obligations.FeatacptTakesOneWrite := by
  intro s off size v
  refine ⟨fun place sixteen powered staged unwritten => ?_, fun misplaced => ?_, fun notNow => ?_⟩
  · have free : ¬ s.featBarred off size := by
      simp [State.featBarred, place, sixteen, powered, staged, unwritten]
    exact ⟨_, exec_featacptWrite_taken v free, rfl, testBit_featAccepted v⟩
  · exact exec_featacptWrite_barred v (.inr misplaced)
  · exact exec_featacptWrite_barred v (.inl notNow)

end Sys2Proof.Machine
end

section
/-! Encodings, reset, and what a step runs (R25, R78, R372, R393). -/

namespace Sys2Proof.Machine

/-- Settles O6: each constructor's own law of encoding. -/
theorem decodeEncode : Obligations.DecodeEncode := fun i => match i with
  | .emptyRun gap run regang check => Laws.Enc.emptyRun gap run regang check
  | .vadd o => Laws.Enc.vadd o
  | .vsub o => Laws.Enc.vsub o
  | .vmul o => Laws.Enc.vmul o
  | .vmulh o => Laws.Enc.vmulh o
  | .vmad o => Laws.Enc.vmad o
  | .vmin o => Laws.Enc.vmin o
  | .vmax o => Laws.Enc.vmax o
  | .vabs o => Laws.Enc.vabs o
  | .vneg o => Laws.Enc.vneg o
  | .vand o => Laws.Enc.vand o
  | .vor o => Laws.Enc.vor o
  | .vxor o => Laws.Enc.vxor o
  | .vnot o => Laws.Enc.vnot o
  | .vshl o => Laws.Enc.vshl o
  | .vshr o => Laws.Enc.vshr o
  | .vrot o => Laws.Enc.vrot o
  | .vbfx o => Laws.Enc.vbfx o
  | .vbfi o => Laws.Enc.vbfi o
  | .vpopc o => Laws.Enc.vpopc o
  | .vclz o => Laws.Enc.vclz o
  | .vbrev o => Laws.Enc.vbrev o
  | .vfadd o => Laws.Enc.vfadd o
  | .vfsub o => Laws.Enc.vfsub o
  | .vfmul o => Laws.Enc.vfmul o
  | .vfma o => Laws.Enc.vfma o
  | .vfmin o => Laws.Enc.vfmin o
  | .vfmax o => Laws.Enc.vfmax o
  | .vfabs o => Laws.Enc.vfabs o
  | .vfneg o => Laws.Enc.vfneg o
  | .vrcp o => Laws.Enc.vrcp o
  | .vrsq o => Laws.Enc.vrsq o
  | .vsqrt o => Laws.Enc.vsqrt o
  | .vexp2 o => Laws.Enc.vexp2 o
  | .vlog2 o => Laws.Enc.vlog2 o
  | .vsin o => Laws.Enc.vsin o
  | .vcos o => Laws.Enc.vcos o
  | .vtanh o => Laws.Enc.vtanh o
  | .vcmp o => Laws.Enc.vcmp o
  | .vsel o => Laws.Enc.vsel o
  | .vmov o => Laws.Enc.vmov o
  | .vcvt o => Laws.Enc.vcvt o
  | .vpack o => Laws.Enc.vpack o
  | .vunpk o => Laws.Enc.vunpk o
  | .vqnt o => Laws.Enc.vqnt o
  | .vote o => Laws.Enc.vote o
  | .vballot o => Laws.Enc.vballot o
  | .shfl o => Laws.Enc.shfl o
  | .vred o => Laws.Enc.vred o
  | .ld o => Laws.Enc.ld o
  | .st o => Laws.Enc.st o
  | .ldsp o => Laws.Enc.ldsp o
  | .stsp o => Laws.Enc.stsp o
  | .pref o => Laws.Enc.pref o
  | .atom o => Laws.Enc.atom o
  | .atomq o => Laws.Enc.atomq o
  | .atomsp o => Laws.Enc.atomsp o
  | .fence o => Laws.Enc.fence o
  | .stb o => Laws.Enc.stb o
  | .stk o => Laws.Enc.stk o
  | .bwait o => Laws.Enc.bwait o
  | .strm o => Laws.Enc.strm o
  | .strmx => Laws.Enc.strmx
  | .fput o => Laws.Enc.fput o
  | .fwait o => Laws.Enc.fwait o
  | .bcmin o => Laws.Enc.bcmin o
  | .bcrd o => Laws.Enc.bcrd o
  | .mma o => Laws.Enc.mma o
  | .mmac o => Laws.Enc.mmac o
  | .zld o => Laws.Enc.zld o
  | .zst o => Laws.Enc.zst o
  | .zclr o => Laws.Enc.zclr o
  | .zret o => Laws.Enc.zret o
  | .zretSp o => Laws.Enc.zretSp o
  | .zretG o => Laws.Enc.zretG o
  | .cpy o => Laws.Enc.cpy o
  | .cpyr o => Laws.Enc.cpyr o
  | .cpseal f => Laws.Enc.cpseal f
  | .cpwait n => Laws.Enc.cpwait n
  | .hset o => Laws.Enc.hset o
  | .br g off => Laws.Enc.br g off
  | .jmpr a => Laws.Enc.jmpr a
  | .call off => Laws.Enc.call off
  | .callr a => Laws.Enc.callr a
  | .ret a => Laws.Enc.ret a
  | .exit => Laws.Enc.exit
  | .bsz a off => Laws.Enc.bsz a off
  | .bsnz a off => Laws.Enc.bsnz a off
  | .loop n c => Laws.Enc.loop n c
  | .endl n => Laws.Enc.endl n
  | .lbrk n off => Laws.Enc.lbrk n off
  | .waitf mask any => Laws.Enc.waitf mask any
  | .testf d neg mask any => Laws.Enc.testf d neg mask any
  | .clrf mask => Laws.Enc.clrf mask
  | .pand o => Laws.Enc.pand o
  | .por o => Laws.Enc.por o
  | .pxor o => Laws.Enc.pxor o
  | .sadd o => Laws.Enc.sadd o
  | .ssub o => Laws.Enc.ssub o
  | .smul o => Laws.Enc.smul o
  | .sand o => Laws.Enc.sand o
  | .sor o => Laws.Enc.sor o
  | .sxor o => Laws.Enc.sxor o
  | .sshl o => Laws.Enc.sshl o
  | .sshr o => Laws.Enc.sshr o
  | .ssra o => Laws.Enc.ssra o
  | .smin o => Laws.Enc.smin o
  | .smax o => Laws.Enc.smax o
  | .smov d b => Laws.Enc.smov d b
  | .sysrd g dst num => Laws.Enc.sysrd g dst num
  | .syswr g num s => Laws.Enc.syswr g num s
  | .trap g code => Laws.Enc.trap g code
  | .tret g => Laws.Enc.tret g
  | .mark g n => Laws.Enc.mark g n
  | .markWait g n => Laws.Enc.markWait g n
  | .trig g => Laws.Enc.trig g
  | .launch g sd sq sp => Laws.Enc.launch g sd sq sp
  | .fork g sa sf w off => Laws.Enc.fork g sa sf w off
  | .join g sd sf => Laws.Enc.join g sd sf
  | .yield g => Laws.Enc.yield g
  | .pwracq g c => Laws.Enc.pwracq g c
  | .pwrrel g => Laws.Enc.pwrrel g
  | .sprint g t => Laws.Enc.sprint g t
  | .sync g l => Laws.Enc.sync g l
  | .hwait g sx => Laws.Enc.hwait g sx
  | .chkm g on => Laws.Enc.chkm g on
  | .quarterIssuePick core quarter => Laws.Enc.quarterIssuePick core quarter
  | .promotion gang part => Laws.Enc.promotion gang part
  | .regangRelease gang => Laws.Enc.regangRelease gang
  | .loadDataArrival gang slice pos => Laws.Enc.loadDataArrival gang slice pos
  | .streamElement gang slice => Laws.Enc.streamElement gang slice
  | .translationWalk die => Laws.Enc.translationWalk die
  | .faultAcknowledge ctx vpage => Laws.Enc.faultAcknowledge ctx vpage
  | .hostPageResponse ctx vpage present => Laws.Enc.hostPageResponse ctx vpage present
  | .fenceComplete gang part => Laws.Enc.fenceComplete gang part
  | .matrixCommandComplete core => Laws.Enc.matrixCommandComplete core
  | .mmacInstanceComplete ctx cluster set => Laws.Enc.mmacInstanceComplete ctx cluster set
  | .copyBytesPerformed core cmd elems => Laws.Enc.copyBytesPerformed core cmd elems
  | .copyComplete core cmd => Laws.Enc.copyComplete core cmd
  | .remoteRequestReceive r => Laws.Enc.remoteRequestReceive r
  | .remoteAnswer a => Laws.Enc.remoteAnswer a
  | .requestResendTimeout req => Laws.Enc.requestResendTimeout req
  | .carriedStoreResend req => Laws.Enc.carriedStoreResend req
  | .holdBoundExpiry h => Laws.Enc.holdBoundExpiry h
  | .brel m => Laws.Enc.brel m
  | .bfail m => Laws.Enc.bfail m
  | .heldack m => Laws.Enc.heldack m
  | .bexp m => Laws.Enc.bexp m
  | .sdreq m => Laws.Enc.sdreq m
  | .sdack m => Laws.Enc.sdack m
  | .sddone m => Laws.Enc.sddone m
  | .incann m => Laws.Enc.incann m
  | .deadn m => Laws.Enc.deadn m
  | .peerRecoveryTimeout peer => Laws.Enc.peerRecoveryTimeout peer
  | .portTrained port lanes => Laws.Enc.portTrained port lanes
  | .portLaneFailure port => Laws.Enc.portLaneFailure port
  | .portReplayExhausted port => Laws.Enc.portReplayExhausted port
  | .portTrainingTimeout port => Laws.Enc.portTrainingTimeout port
  | .portIdleTimeout port => Laws.Enc.portIdleTimeout port
  | .hostSubmission fn ctx q off len dwords => Laws.Enc.hostSubmission fn ctx q off len dwords
  | .launchPacketRead gang part => Laws.Enc.launchPacketRead gang part
  | .queueEnable fn ctx q => Laws.Enc.queueEnable fn ctx q
  | .queueDrain fn ctx q => Laws.Enc.queueDrain fn ctx q
  | .queueHalt fn ctx q => Laws.Enc.queueHalt fn ctx q
  | .queueResume fn ctx q => Laws.Enc.queueResume fn ctx q
  | .queueDisable fn ctx q => Laws.Enc.queueDisable fn ctx q
  | .queueResumeParked fn ctx q slot => Laws.Enc.queueResumeParked fn ctx q slot
  | .queueKillParked fn ctx q slot => Laws.Enc.queueKillParked fn ctx q slot
  | .launchStart ctx q => Laws.Enc.launchStart ctx q
  | .groupPlace ctx q => Laws.Enc.groupPlace ctx q
  | .poolClearDone core => Laws.Enc.poolClearDone core
  | .taskTake core ctx => Laws.Enc.taskTake core ctx
  | .taskSteal core ctx => Laws.Enc.taskSteal core ctx
  | .forkRetry core ctx => Laws.Enc.forkRetry core ctx
  | .barrierArrival gang => Laws.Enc.barrierArrival gang
  | .barrierRelease b => Laws.Enc.barrierRelease b
  | .snapshotComplete group => Laws.Enc.snapshotComplete group
  | .futureParkRetry gang part => Laws.Enc.futureParkRetry gang part
  | .groupRetire group => Laws.Enc.groupRetire group
  | .launchEnd ctx q seq => Laws.Enc.launchEnd ctx q seq
  | .uncorrectableErrorConsumed group gang site => Laws.Enc.uncorrectableErrorConsumed group gang site
  | .storageErrorDetected site corrected => Laws.Enc.storageErrorDetected site corrected
  | .hbmRepairFailure pa => Laws.Enc.hbmRepairFailure pa
  | .watchdogExpiry gang slice set => Laws.Enc.watchdogExpiry gang slice set
  | .gangStop gang => Laws.Enc.gangStop gang
  | .ctxCreate fn cmd => Laws.Enc.ctxCreate fn cmd
  | .ctxSet fn cmd => Laws.Enc.ctxSet fn cmd
  | .ctxSave fn cmd => Laws.Enc.ctxSave fn cmd
  | .ctxRestore fn cmd => Laws.Enc.ctxRestore fn cmd
  | .ctxKill fn cmd => Laws.Enc.ctxKill fn cmd
  | .ctxDestroy fn cmd => Laws.Enc.ctxDestroy fn cmd
  | .ctxStopComplete ctx => Laws.Enc.ctxStopComplete ctx
  | .ctxSaveAreaWritten ctx error => Laws.Enc.ctxSaveAreaWritten ctx error
  | .mapMap fn cmd => Laws.Enc.mapMap fn cmd
  | .mapUnmap fn cmd => Laws.Enc.mapUnmap fn cmd
  | .mapSetAttributes fn cmd => Laws.Enc.mapSetAttributes fn cmd
  | .mapProof fn cmd => Laws.Enc.mapProof fn cmd
  | .mapPin fn cmd => Laws.Enc.mapPin fn cmd
  | .mapUnpin fn cmd => Laws.Enc.mapUnpin fn cmd
  | .mapSpillArea fn cmd => Laws.Enc.mapSpillArea fn cmd
  | .prooferScan => Laws.Enc.prooferScan
  | .pageMoveComplete ctx vpage => Laws.Enc.pageMoveComplete ctx vpage
  | .markPacerAnswer gang part => Laws.Enc.markPacerAnswer gang part
  | .placementCounterHalving => Laws.Enc.placementCounterHalving
  | .currentGrant die => Laws.Enc.currentGrant die
  | .leaseGrant die => Laws.Enc.leaseGrant die
  | .leaseExpiry gang => Laws.Enc.leaseExpiry gang
  | .clusterIdleTimeout cluster => Laws.Enc.clusterIdleTimeout cluster
  | .railChangeComplete cluster => Laws.Enc.railChangeComplete cluster
  | .temperatureReading cluster raw => Laws.Enc.temperatureReading cluster raw
  | .currentReading cluster raw => Laws.Enc.currentReading cluster raw
  | .sensorSuspectClear cluster thermal => Laws.Enc.sensorSuspectClear cluster thermal
  | .energyInterval cluster energy => Laws.Enc.energyInterval cluster energy
  | .timingReplay core => Laws.Enc.timingReplay core
  | .replayHoldExpiry cluster => Laws.Enc.replayHoldExpiry cluster
  | .hbmIdleTimeout stack => Laws.Enc.hbmIdleTimeout stack
  | .powerGood verified => Laws.Enc.powerGood verified
  | .stage1Entry r => Laws.Enc.stage1Entry r
  | .joinWrite value => Laws.Enc.joinWrite value
  | .joinComplete => Laws.Enc.joinComplete
  | .featacptWrite off size value => Laws.Enc.featacptWrite off size value
  | .safelpWrite value => Laws.Enc.safelpWrite value
  | .portenWrite value => Laws.Enc.portenWrite value
  | .diecapWrite die value => Laws.Enc.diecapWrite die value
  | .peerstatStaleClear peer value => Laws.Enc.peerstatStaleClear peer value
  | .registerWrite r size value => Laws.Enc.registerWrite r size value
  | .spdmRequest r => Laws.Enc.spdmRequest r
  | .hostAddressTranslationChange ctx iova present => Laws.Enc.hostAddressTranslationChange ctx iova present

/-- Settles O8: each bundle of the spec is decoded by evaluation. -/
theorem encodingWords : Obligations.EncodingWords := by
  refine ⟨?_, ?_, ?_, ?_, ?_, ?_, ?_, ?_⟩ <;> decide

theorem resetIsLegal : Claims.ResetIsLegal := by
  refine ⟨?_, rfl, rfl⟩
  unfold Dev.ok
  decide

theorem resetValues : Claims.ResetValues := by
  refine ⟨rfl, rfl, rfl, rfl, rfl, rfl, ?_, ?_, fun _ => rfl, fun _ => rfl, rfl, fun _ => rfl, rfl, rfl, rfl⟩
  · decide
  · decide

/-- Settles O1: the registers of reset by evaluation, those of tables that reset leaves empty at every index. -/
theorem resetState : Obligations.ResetState := ⟨resetValues, resetIsLegal⟩

/-- A list of one instruction runs that instruction. -/
theorem runSlots_singleton (i : Instr) (s : State) : runSlots [i] s = exec i s := by
  unfold runSlots
  split
  · next h => rw [h]; rfl
  · next h => rw [h]
  · next h => rw [h]

theorem step_of_picked {s : State} {u k : Nat} {rest : List (Nat × Nat)} (h : s.picked = (u, k) :: rest) :
    step s = issue u k { s with picked := rest } := by
  unfold step
  rw [h]

/-- The bundle at a part's program counter, with the cursor that will run it. -/
theorem nextBundle_decoded {s : State} {u k : Nat} {p : Part} {bs : List Byte} {b : Bundle} (hp : (s.gang u).part k = some p)
    (hf : s.fetch (s.gang u).ctx ((s.gang u).pcOf p.slices) = .ok bs) (hd : decodeBytes bs = .ok b) :
    ∃ c, s.nextBundle u k = .bundle c b.h b.instrs ∧ c.gang = u ∧ c.pc = (s.gang u).pcOf p.slices ∧ c.slices = p.slices
      ∧ c.gap = b.h.gapCycles ∧ c.next = wrap64 (((s.gang u).pcOf p.slices : Int) + 4 * (b.h.words : Nat)) := by
  simp only [State.nextBundle, hp, hf, hd]
  exact ⟨_, rfl, rfl, rfl, rfl, rfl, rfl⟩

/-- Code that the decoder refuses is what the part's next bundle comes to. -/
theorem nextBundle_refused {s : State} {u k : Nat} {p : Part} {bs : List Byte} {e : Slot × Nat} (hp : (s.gang u).part k = some p)
    (hf : s.fetch (s.gang u).ctx ((s.gang u).pcOf p.slices) = .ok bs) (hd : decodeBytes bs = .error e) :
    s.nextBundle u k = .refused (slotCode e.1) e.2 := by
  simp only [State.nextBundle, hp, hf, hd]

/-- The descriptor that a bundle's copy reads at issue, or none (R224). -/
def State.descOf (s : State) (c : Cursor) (is : List Instr) : List Nat :=
  (is.findSome? (fun i => match i with
    | .cpy o | .cpyr o => some (s.copyDesc c (s.readS c o.sx))
    | _ => none)).getD []

/-- A bundle that nothing stops issues, and its slots are to act (R372, R383). -/
theorem begin_slots {s : State} {u k : Nat} {c : Cursor} {h : Header} {is : List Instr} (he : s.eligible u k = true)
    (ht : (s.gang u).tainted = false) (hn : s.nextBundle u k = .bundle c h is)
    (hp : s.preAll { c with desc := s.descOf c is } is (s.currentCheck { c with desc := s.descOf c is } is) none = none)
    (hb : is.any (s.readsBad { c with desc := s.descOf c is } (s.descOf c is)) = false)
    (hm : s.marking { c with desc := s.descOf c is } is = none) :
    s.begin u k = .slots { s.commence { c with desc := s.descOf c is } is with
      cur := some { c with desc := s.descOf c is, checked := true } } is := by
  unfold State.descOf at *
  unfold State.begin
  simp only [he, ht, hn, Bool.not_true, Bool.false_eq_true, if_false]
  erw [hp, hb, hm]
  rfl

theorem begin_refused {s : State} {u k a b : Nat} (he : s.eligible u k = true) (ht : (s.gang u).tainted = false)
    (hn : s.nextBundle u k = .refused a b) : s.begin u k = .refused a b := by
  simp only [State.begin, he, ht, hn, Bool.not_true, Bool.false_eq_true, if_false]

/-- Settles O4: the fetched bundle, the issue that nothing stops, and a bundle of one instruction. -/
theorem stepRunsDecodedBundle : Obligations.StepRunsDecodedBundle := by
  refine ⟨fun _ _ _ _ _ _ hp hf hd => nextBundle_decoded hp hf hd, ?_, runSlots_singleton⟩
  intro s u k rest c h is s0 d c' hpick he ht hn hp hb hm
  have hbegin := begin_slots (s := s0) he ht hn hp hb hm
  rw [step_of_picked hpick, issue, hbegin]
  rfl

theorem stepRunsAgenda : Claims.StepRunsAgenda := by
  refine ⟨fun s i rest hp ha => ?_, fun s hp ha => ?_⟩
  · unfold step; rw [hp, ha]
  · unfold step; rw [hp, ha]

theorem unproofedCodeRefused : Claims.UnproofedCodeRefused := by
  intro s u k p rest bs e hpick hp he ht hf hd
  have hbegin := begin_refused (s := { s with picked := rest }) he ht (nextBundle_refused (s := s) hp hf hd)
  rw [step_of_picked hpick, issue, hbegin]

/-- Settles O5: the agenda and the clock by the definition of a step, refused code by what the next bundle comes to. -/
theorem stepWithoutABundle : Obligations.StepWithoutABundle := ⟨stepRunsAgenda, unproofedCodeRefused⟩

end Sys2Proof.Machine
end

section
/-! Memory and registers: what a write reads back as, and what a landing write leaves as it was (R12, R92, R96, R98, R239). -/

namespace Sys2Proof.Machine

/-! Maps and memories. -/

/-- Another key reads as before, in canonical form or not. -/
theorem smGet_smSet_ne {α : Type} [DecidableEq α] (d : α) (m : List (Nat × α)) {i j : Nat} (x : α) (h : j ≠ i) :
    smGet d (smSet d m i x) j = smGet d m j := by
  induction m with
  | nil => by_cases hx : x = d <;> simp [smSet, hx, smGet, Ne.symm h]
  | cons e m ih =>
    obtain ⟨k, v⟩ := e
    rcases Nat.lt_trichotomy i k with lt | rfl | gt
    · by_cases hx : x = d <;> simp [smSet, lt, hx, smGet, Ne.symm h]
    · by_cases hx : x = d <;> simp [smSet, hx, smGet, Ne.symm h]
    · simp [smSet, Nat.lt_asymm gt, Nat.ne_of_gt gt, smGet, ih]

/-- What was written over a range reads back. -/
theorem Memory.readN_writeN_same {m : Memory} (a : Nat) (bs : List Byte) (h : Memory.wf m = true) :
    Memory.readN (Memory.writeN m a bs) a bs.length = bs := by
  induction bs generalizing m a with
  | nil => rfl
  | cons b bs ih =>
    have hw := Memory.write_wf a b h
    have head : (Memory.writeN (Memory.write m a b) (a + 1) bs).read a = b := by
      rw [Memory.read_writeN_other _ _ _ hw (.inl (Nat.lt_succ_self a)), Memory.read_write_same a b h]
    simp only [Memory.writeN, List.length_cons, Memory.readN, head, ih _ hw]

/-- A map in canonical form reads a value other than the default at its first key, and the default below it. -/
theorem smWfFrom_ext {α : Type} [DecidableEq α] (d : α) :
    ∀ {lo : Option Nat} {m n : List (Nat × α)}, smWfFrom d lo m = true → smWfFrom d lo n = true →
      (∀ i, smGet d m i = smGet d n i) → m = n := by
  have first : ∀ {lo : Option Nat} {k : Nat} {v : α} {m n : List (Nat × α)}, smWfFrom d lo ((k, v) :: m) = true →
      smWfFrom d (some k) n = true → (∀ i, smGet d ((k, v) :: m) i = smGet d n i) → False := by
    intro lo k v m n hm hn heq
    simp only [smWfFrom, Bool.and_eq_true, decide_eq_true_eq] at hm
    have := heq k
    rw [smGet_below d hn (Nat.le_refl k)] at this
    exact hm.1.2 (by simpa [smGet] using this)
  intro lo m
  induction m generalizing lo with
  | nil =>
    intro n _ hn heq
    cases n with
    | nil => rfl
    | cons e n => exact (first hn rfl (fun i => (heq i).symm)).elim
  | cons e m ih =>
    obtain ⟨k, v⟩ := e
    intro n hm hn heq
    cases n with
    | nil => exact (first hm rfl heq).elim
    | cons f n =>
      obtain ⟨l, w⟩ := f
      have hm' := hm
      have hn' := hn
      simp only [smWfFrom, Bool.and_eq_true, decide_eq_true_eq] at hm' hn'
      rcases Nat.lt_trichotomy k l with lt | rfl | gt
      · refine (first (n := (l, w) :: n) hm ?_ heq).elim
        simp [smWfFrom, lt, hn'.1.2, hn'.2]
      · have hv : v = w := by simpa [smGet] using heq k
        have tails : m = n := ih hm'.2 hn'.2 (fun i => by
          by_cases hi : k = i
          · rw [smGet_below d hm'.2 (by omega), smGet_below d hn'.2 (by omega)]
          · simpa [smGet, hi] using heq i)
        rw [hv, tails]
      · refine (first (n := (k, v) :: m) hn ?_ (fun i => (heq i).symm)).elim
        simp [smWfFrom, gt, hm'.1.2, hm'.2]

/-- Settles O11: what is written is read back, nothing else changes, and the canonical form is determined by what it reads. -/
theorem memoryReadsWhatWasWritten : Obligations.MemoryReadsWhatWasWritten :=
  ⟨fun _ a bs h => ⟨Memory.writeN_wf a bs h, Memory.readN_writeN_same a bs h, fun x hx => Memory.read_writeN_other a x bs h hx⟩,
    fun _ _ hm hn heq => smWfFrom_ext Memory.unlisted hm hn heq⟩

/-! Latches and registers of a landing write. -/

/-- A landing write reaches a gang's latches alone by `landLatch`. -/
theorem Gang.landLatch_eq (g : Gang) (t : Nat) (w : Write) :
    ∃ a l0 l1, g.landLatch t w = { g with latchAt := a, l0 := l0, l1 := l1 } := by
  unfold Gang.landLatch
  split
  · split <;> exact ⟨_, _, _, rfl⟩
  · exact ⟨_, _, _, rfl⟩

/-- A landing write reaches registers, and no latch, by `landReg`. -/
theorem Gang.landReg_eq (g : Gang) (t : Nat) (w : Write) :
    ∃ v b p s k sl d f, g.landReg t w = { g with v := v, badV := b, p := p, s := s, k := k, slices := sl, dmr := d, fstat := f } := by
  unfold Gang.landReg
  split
  · split <;> exact ⟨_, _, _, _, _, _, _, _, rfl⟩
  · unfold Gang.setP; split <;> exact ⟨_, _, _, _, _, _, _, _, rfl⟩
  · exact ⟨_, _, _, _, _, _, _, _, rfl⟩
  · exact ⟨_, _, _, _, _, _, _, _, rfl⟩
  · split
    · exact ⟨_, _, _, _, _, _, _, _, rfl⟩
    · split <;> exact ⟨_, _, _, _, _, _, _, _, rfl⟩

section
variable (g : Gang) (t : Nat) (w : Write)

@[simp] theorem Gang.landLatch_v : (g.landLatch t w).v = g.v := by obtain ⟨_, _, _, h⟩ := g.landLatch_eq t w; rw [h]
@[simp] theorem Gang.landLatch_p : (g.landLatch t w).p = g.p := by obtain ⟨_, _, _, h⟩ := g.landLatch_eq t w; rw [h]
@[simp] theorem Gang.landLatch_s : (g.landLatch t w).s = g.s := by obtain ⟨_, _, _, h⟩ := g.landLatch_eq t w; rw [h]
@[simp] theorem Gang.landLatch_k : (g.landLatch t w).k = g.k := by obtain ⟨_, _, _, h⟩ := g.landLatch_eq t w; rw [h]
@[simp] theorem Gang.landLatch_dmr : (g.landLatch t w).dmr = g.dmr := by obtain ⟨_, _, _, h⟩ := g.landLatch_eq t w; rw [h]
@[simp] theorem Gang.landLatch_fstat : (g.landLatch t w).fstat = g.fstat := by obtain ⟨_, _, _, h⟩ := g.landLatch_eq t w; rw [h]
@[simp] theorem Gang.landLatch_slices : (g.landLatch t w).slices = g.slices := by obtain ⟨_, _, _, h⟩ := g.landLatch_eq t w; rw [h]
@[simp] theorem Gang.landReg_l0 : (g.landReg t w).l0 = g.l0 := by obtain ⟨_, _, _, _, _, _, _, _, h⟩ := g.landReg_eq t w; rw [h]
@[simp] theorem Gang.landReg_l1 : (g.landReg t w).l1 = g.l1 := by obtain ⟨_, _, _, _, _, _, _, _, h⟩ := g.landReg_eq t w; rw [h]

/-- What no landing write reaches. -/
theorem Gang.landWrite_frame : (g.landWrite t w).flight = g.flight ∧ (g.landWrite t w).accs = g.accs ∧ (g.landWrite t w).parts = g.parts
    ∧ (g.landWrite t w).g = g.g ∧ (g.landWrite t w).chk = g.chk ∧ (g.landWrite t w).live = g.live
    ∧ (g.landWrite t w).stopped = g.stopped := by
  obtain ⟨_, _, _, hl⟩ := (g.landReg t w).landLatch_eq t w
  obtain ⟨_, _, _, _, _, _, _, _, hr⟩ := g.landReg_eq t w
  rw [Gang.landWrite, hl, hr]
  exact ⟨rfl, rfl, rfl, rfl, rfl, rfl, rfl⟩

end

/-- A V register reads another register's write as before. -/
theorem Gang.vReg_setV_ne (g : Gang) {i r l q : Nat} (x : Nat) (h : l * 256 + q ≠ i * 256 + r) :
    (g.setV i r x).vReg l q = g.vReg l q := by
  simp only [Gang.setV, Gang.vReg, smGet_smSet_ne _ _ _ h]

theorem Gang.vReg_setV_same (g : Gang) (i r x : Nat) (h : smWf (0 : Word) g.v = true) : (g.setV i r x).vReg i r = x % 2 ^ 32 := by
  simp only [Gang.setV, Gang.vReg, smGet_smSet_same _ _ _ h, BitVec.toNat_ofNat]

theorem Gang.pReg_setP_ne (g : Gang) {i r l q : Nat} (b : Bool) (h : l * 32 + q ≠ i * 32 + r) :
    (g.setP i r b).pReg l q = g.pReg l q := by
  unfold Gang.setP
  split
  · rfl
  · simp only [Gang.pReg, smGet_smSet_ne _ _ _ h]

theorem Gang.latches_shiftLatch_ne (g : Gang) {i l : Nat} (x : Nat) (h : l ≠ i) :
    (g.shiftLatch i x).latch0 l = g.latch0 l ∧ (g.shiftLatch i x).latch1 l = g.latch1 l := by
  simp only [Gang.shiftLatch, Gang.latch0, Gang.latch1, smGet_smSet_ne _ _ _ h, and_self]

theorem Gang.latches_shiftLatch_same (g : Gang) (i x : Nat) (h0 : smWf (0 : Word) g.l0 = true) (h1 : smWf (0 : Word) g.l1 = true) :
    (g.shiftLatch i x).latch0 i = x % 2 ^ 32 ∧ (g.shiftLatch i x).latch1 i = g.latch0 i := by
  simp only [Gang.shiftLatch, Gang.latch0, Gang.latch1, smGet_smSet_same _ _ _ h0, smGet_smSet_same _ _ _ h1, BitVec.toNat_ofNat,
    and_self]

theorem predicateThirtyOne : Claims.PredicateThirtyOne := by
  refine ⟨fun s c i => rfl, fun g t i b => rfl, fun g t i r b hr hp => ?_⟩
  have : r ≠ 31 := by omega
  simp [Gang.landWrite, Gang.landReg, Gang.landLatch, Gang.setP, Gang.pReg, this, smGet_smSet_same _ _ _ hp]

theorem resultShiftsLatches : Claims.ResultShiftsLatches := by
  intro g t i r lo hi hv h0 h1 hlo hhi
  have hlo' := Nat.mod_eq_of_lt hlo
  have hhi' := Nat.mod_eq_of_lt hhi
  refine ⟨?_, ?_, fun b x => ⟨?_, rfl, ?_, rfl⟩⟩
  · have same := Gang.latches_shiftLatch_same { (g.setV i r lo) with latchAt := smSet 0 g.latchAt i t } i lo h0 h1
    refine ⟨?_, same.1.trans hlo', same.2, fun j hj => ?_⟩
    · exact (g.vReg_setV_same i r lo hv).trans hlo'
    · exact Gang.latches_shiftLatch_ne { (g.setV i r lo) with latchAt := smSet 0 g.latchAt i t } lo hj
  · let g1 : Gang := { ((g.setV i r lo).setV i (r + 1) hi) with latchAt := smSet 0 g.latchAt i t }
    have first := g1.latches_shiftLatch_same i lo h0 h1
    have second := (g1.shiftLatch i lo).latches_shiftLatch_same i hi (smSet_wf 0 i _ h0) (smSet_wf 0 i _ h1)
    refine ⟨?_, ?_, second.1.trans hhi', second.2.trans (first.1.trans hlo'), fun j hj => ?_⟩
    · exact ((g.setV i r lo).vReg_setV_ne hi (by omega)).trans ((g.vReg_setV_same i r lo hv).trans hlo')
    · exact ((g.setV i r lo).vReg_setV_same i (r + 1) hi (smSet_wf 0 _ _ hv)).trans hhi'
    · have a := g1.latches_shiftLatch_ne lo hj
      have b := (g1.shiftLatch i lo).latches_shiftLatch_ne hi hj
      exact ⟨b.1.trans a.1, b.2.trans a.2⟩
  · simp only [Gang.landWrite, Gang.landReg, Gang.landLatch, Gang.setP]
    split <;> rfl
  · simp only [Gang.landWrite, Gang.landReg, Gang.landLatch, Gang.setP]
    split <;> rfl

/-- A V register that a landing write does not name keeps its value. -/
theorem Gang.vReg_landReg_ne (g : Gang) (t : Nat) (w : Write) {l r : Nat} (hr : r < 256) (hlow : ∀ lo hi b, w ≠ .v l r lo hi b)
    (hhigh : ∀ r' lo hi b, r' + 1 = r → w ≠ .v l r' lo (some hi) b)
    (hw : ∀ l' r' lo hi b, w = .v l' r' lo hi b → r' < 256 ∧ (hi = none ∨ r' + 1 < 256)) :
    (g.landReg t w).vReg l r = g.vReg l r := by
  cases w with
  | v i q lo hi b =>
    obtain ⟨hq, hq1⟩ := hw i q lo hi b rfl
    have ne0 : l * 256 + r ≠ i * 256 + q := fun e => by
      have hi' : i = l := by omega
      have hq' : q = r := by omega
      exact hlow lo hi b (by rw [hi', hq'])
    cases hi with
    | none => exact g.vReg_setV_ne lo ne0
    | some h =>
      have hq2 : q + 1 < 256 := by simpa using hq1
      have ne1 : l * 256 + r ≠ i * 256 + (q + 1) := fun e => by
        have hi' : i = l := by omega
        exact hhigh q lo h b (by omega) (by rw [hi'])
      exact ((g.setV i q lo).vReg_setV_ne h ne1).trans (g.vReg_setV_ne lo ne0)
  | p i q b => simp only [Gang.landReg, Gang.setP]; split <;> rfl
  | s q x => rfl
  | k q x => rfl
  | sys n x m => simp only [Gang.landReg]; split <;> [rfl; split <;> rfl]

/-- A predicate that a landing write does not name keeps its value. -/
theorem Gang.pReg_landReg_ne (g : Gang) (t : Nat) (w : Write) {l r : Nat} (hr : r < 32) (hne : ∀ b, w ≠ .p l r b)
    (hw : ∀ l' r' b, w = .p l' r' b → r' < 32) : (g.landReg t w).pReg l r = g.pReg l r := by
  cases w with
  | v i q lo hi b => cases hi <;> rfl
  | p i q b =>
    have hq := hw i q b rfl
    refine g.pReg_setP_ne b (fun e => ?_)
    have hi' : i = l := by omega
    have hq' : q = r := by omega
    exact hne b (by rw [hi', hq'])
  | s q x => rfl
  | k q x => rfl
  | sys n x m => simp only [Gang.landReg]; split <;> [rfl; split <;> rfl]

theorem Gang.sReg_landReg_ne (g : Gang) (t : Nat) (w : Write) {r : Nat} (hne : ∀ x, w ≠ .s r x) :
    (g.landReg t w).sReg r = g.sReg r := by
  cases w with
  | v i q lo hi b => cases hi <;> rfl
  | p i q b => simp only [Gang.landReg, Gang.setP]; split <;> rfl
  | s q x =>
    have : r ≠ q := fun e => hne x (by rw [e])
    simp only [Gang.landReg, Gang.setS, Gang.sReg, smGet_smSet_ne _ _ _ this]
  | k q x => rfl
  | sys n x m => simp only [Gang.landReg]; split <;> [rfl; split <;> rfl]

theorem Gang.kReg_landReg_ne (g : Gang) (t : Nat) (w : Write) {r : Nat} (hne : ∀ x, w ≠ .k r x) :
    (g.landReg t w).kReg r = g.kReg r := by
  cases w with
  | v i q lo hi b => cases hi <;> rfl
  | p i q b => simp only [Gang.landReg, Gang.setP]; split <;> rfl
  | s q x => rfl
  | k q x =>
    have : r ≠ q := fun e => hne x (by rw [e])
    simp only [Gang.landReg, Gang.setK, Gang.kReg, smGet_smSet_ne _ _ _ this]
  | sys n x m => simp only [Gang.landReg]; split <;> [rfl; split <;> rfl]

/-- The latches of a lane into which no vector result lands stay. -/
theorem Gang.latches_landLatch_ne (g : Gang) (t : Nat) (w : Write) {l : Nat} (hne : ∀ r lo hi, w ≠ .v l r lo hi true) :
    (g.landLatch t w).latch0 l = g.latch0 l ∧ (g.landLatch t w).latch1 l = g.latch1 l := by
  unfold Gang.landLatch
  split
  · next i q lo hi =>
    have hl : l ≠ i := fun e => hne q lo hi (by rw [e])
    cases hi with
    | none => exact Gang.latches_shiftLatch_ne { g with latchAt := smSet 0 g.latchAt i t } lo hl
    | some h =>
      let g1 : Gang := { g with latchAt := smSet 0 g.latchAt i t }
      have a := g1.latches_shiftLatch_ne lo hl
      have b := (g1.shiftLatch i lo).latches_shiftLatch_ne h hl
      exact ⟨b.1.trans a.1, b.2.trans a.2⟩
  · exact ⟨rfl, rfl⟩

/-- The special registers that a landing write does not name keep their values (R239). -/
theorem Gang.special_landReg_ne (g : Gang) (t : Nat) (w : Write) :
    ((∀ x m, w ≠ .sys 0x20 x m) → (g.landReg t w).dmr = g.dmr) ∧ ((∀ n x m, w ≠ .sys n x m) → (g.landReg t w).fstat = g.fstat)
      ∧ ((∀ x m, w ≠ .sys 0x19 x m) → (g.landReg t w).slices = g.slices) := by
  cases w with
  | v i q lo hi b => cases hi <;> exact ⟨fun _ => rfl, fun _ => rfl, fun _ => rfl⟩
  | p i q b =>
    simp only [Gang.landReg, Gang.setP]
    split <;> exact ⟨fun _ => rfl, fun _ => rfl, fun _ => rfl⟩
  | s q x => exact ⟨fun _ => rfl, fun _ => rfl, fun _ => rfl⟩
  | k q x => exact ⟨fun _ => rfl, fun _ => rfl, fun _ => rfl⟩
  | sys n x m =>
    simp only [Gang.landReg]
    split
    · next h => exact ⟨fun _ => rfl, fun _ => rfl, fun ne => absurd (by rw [h]) (ne x m)⟩
    · split
      · next h => exact ⟨fun ne => absurd (by rw [h]) (ne x m), fun ne => absurd rfl (ne n x m), fun _ => rfl⟩
      · exact ⟨fun _ => rfl, fun ne => absurd rfl (ne n x m), fun _ => rfl⟩

theorem landingChangesOnlyItsTarget : Claims.LandingChangesOnlyItsTarget := by
  intro g t w
  obtain ⟨hd, hf, hs⟩ := g.special_landReg_ne t w
  obtain ⟨flight, accs, parts, gs, chk, live, stopped⟩ := g.landWrite_frame t w
  refine ⟨fun l r h1 h2 hr hw => ?_, fun l r hr h1 hw => ?_, fun r h => ?_, fun r h => ?_, fun l h => ?_, fun h => ?_, fun h => ?_,
    fun h => ?_, flight, accs, parts, gs, chk, live, stopped⟩
  · simpa only [Gang.landWrite, Gang.vReg, Gang.landLatch_v] using g.vReg_landReg_ne t w hr h1 h2 hw
  · simpa only [Gang.landWrite, Gang.pReg, Gang.landLatch_p] using g.pReg_landReg_ne t w hr h1 hw
  · simpa only [Gang.landWrite, Gang.sReg, Gang.landLatch_s] using g.sReg_landReg_ne t w h
  · simpa only [Gang.landWrite, Gang.kReg, Gang.landLatch_k] using g.kReg_landReg_ne t w h
  · simpa only [Gang.landWrite, Gang.latch0, Gang.latch1, Gang.landReg_l0, Gang.landReg_l1]
      using (g.landReg t w).latches_landLatch_ne t w h
  · rw [Gang.landWrite, Gang.landLatch_dmr, hd h]
  · rw [Gang.landWrite, Gang.landLatch_fstat, hf h]
  · rw [Gang.landWrite, Gang.landLatch_slices, hs h]

/-- Settles O9: P31, the shift of the latches, and the frame of each kind of write. -/
theorem writesChangeTheirTargets : Obligations.WritesChangeTheirTargets :=
  ⟨predicateThirtyOne, resultShiftsLatches, landingChangesOnlyItsTarget⟩

/-! The order in which writes land. -/

/-- Landing nothing leaves every register. -/
theorem Gang.landUpTo_one_early (g : Gang) (w : InFlight) (n : Nat) (h : n < w.land) :
    ({ g with flight := [w] } : Gang).landUpTo n = { g with flight := [w] } := by
  simp [Gang.landUpTo, Gang.landAll, h, Nat.not_le.mpr h]

/-- A write whose cycle has come lands. -/
theorem Gang.landUpTo_one_due (g : Gang) (w : InFlight) (n : Nat) (h : w.land ≤ n) :
    ({ g with flight := [w] } : Gang).landUpTo n = ({ g with flight := [] } : Gang).landWrite w.land w.w := by
  simp [Gang.landUpTo, Gang.landAll, h, Nat.not_lt.mpr h]

/-- The writes of a bundle as they fly: each with its landing cycle and its place in issue order (R96, R98). -/
def Cursor.flying (c : Cursor) (lat n : Nat) (ws : List Write) : List InFlight :=
  ws.mapIdx (fun k w => ⟨c.cyc + lat, c.cyc, n + k, c.slices, w⟩)

/-- A gang with more writes in flight. -/
def Gang.launching (g : Gang) (l : List InFlight) : Gang := { g with flight := l.foldl (fun l w => insertFlight w l) g.flight }

/-- The gang of the cursor after a send: its flight has the new writes, each where it lands (R96). -/
theorem State.gang_send {s : State} {c : Cursor} (hc : s.cur = some c) (hg : (smFind s.gangs c.gang).isSome = true) (lat : Nat)
    (ws : List Write) : (s.send lat ws).gang c.gang = (s.gang c.gang).launching (c.flying lat s.serial ws) := by
  rw [State.send_eq hc]
  exact State.gang_modGang_same s c.gang (fun g => g.launching (c.flying lat s.serial ws)) hg

/-- A gang with nothing in flight has the one write in flight after a send of it. -/
theorem State.gang_send_one {s : State} {c : Cursor} (hc : s.cur = some c) (hg : (smFind s.gangs c.gang).isSome = true)
    (hf : (s.gang c.gang).flight = []) (lat : Nat) (w : Write) :
    (s.send lat [w]).gang c.gang
      = { (s.gang c.gang) with flight := [InFlight.mk (c.cyc + lat) c.cyc s.serial c.slices w] } := by
  refine (State.gang_send hc hg lat [w]).trans ?_
  rw [Gang.launching, hf]
  rfl

theorem resultLandsAtItsCycle : Claims.ResultLandsAtItsCycle := by
  intro s c lat r x hc hg hf hs g t
  have ht : t = { g with flight := [⟨c.cyc + lat, c.cyc, s.serial, c.slices, .s r x⟩] } := State.gang_send_one hc hg hf lat _
  have early : ∀ n, n < c.cyc + lat → t.landUpTo n = t := fun n hn => by
    rw [ht]; exact g.landUpTo_one_early _ n hn
  have due : ∀ n, c.cyc + lat ≤ n → t.landUpTo n = ({ g with flight := [] } : Gang).landWrite (c.cyc + lat) (.s r x) := fun n hn => by
    rw [ht]; exact g.landUpTo_one_due _ n hn
  refine ⟨fun n hn => ?_, fun n hn => ?_, fun n q hq => ?_, fun n i q => ?_⟩
  · rw [early n hn, ht]; rfl
  · rw [due n hn]; exact Gang.landWrite_s_same _ _ _ _ hs
  · rcases Nat.lt_or_ge n (c.cyc + lat) with hn | hn
    · rw [early n hn, ht]; rfl
    · rw [due n hn]; exact Gang.landWrite_s_other _ _ _ _ _ hs hq
  · rcases Nat.lt_or_ge n (c.cyc + lat) with hn | hn
    · rw [early n hn, ht]; exact ⟨rfl, rfl, rfl⟩
    · rw [due n hn]; exact ⟨rfl, rfl, rfl⟩

/-- Two writes in flight stand in the order in which they land, in whichever order they came. -/
theorem insertFlight_pair {a b : InFlight} (h : a.land < b.land ∨ (a.land = b.land ∧ a.seq < b.seq)) :
    insertFlight b (insertFlight a []) = [a, b] ∧ insertFlight a (insertFlight b []) = [a, b] := by
  have hab : (a.land < b.land || (a.land = b.land && a.seq < b.seq)) = true := by simpa using h
  have hba : (b.land < a.land || (b.land = a.land && b.seq < a.seq)) = false := by
    simp only [Bool.or_eq_false_iff, Bool.and_eq_false_iff, decide_eq_false_iff_not]; omega
  simp [insertFlight, hab, hba]

theorem laterLandingStays : Claims.LaterLandingStays := by
  intro g a b r x y n hs ha hb h hn
  have lands : (({ g with flight := [a, b] } : Gang).landUpTo n).sReg r = y % 2 ^ 64 := by
    have hna : a.land ≤ n := by omega
    simp only [Gang.landUpTo, Gang.landAll, List.filter_cons, List.filter_nil, hna, hn, decide_true, if_true, List.foldl_cons,
      List.foldl_nil, ha, hb]
    exact Gang.landWrite_s_same _ _ _ _ (smSet_wf 0 _ _ hs)
  rw [(insertFlight_pair h).1, (insertFlight_pair h).2]
  exact ⟨lands, lands⟩

/-- Settles O10: a lone write lands in its cycle, and of two the one that stands later in the flight stays. -/
theorem resultsLandInTheirCycle : Obligations.ResultsLandInTheirCycle := ⟨resultLandsAtItsCycle, laterLandingStays⟩

end Sys2Proof.Machine
end

section
/-! The control slot: scalar arithmetic, predicate logic and flags (R133 to R141). -/

namespace Sys2Proof.Machine

/-- An instruction whose bundle issues acts as its meaning says. -/
theorem exec_issues {s : State} {c : Cursor} {i : Instr} {act : Cursor → State → State} (h : s.issues c i)
    (meaning : exec i s = slot s i act) : exec i s = .next (act c s) := meaning.trans (slot_issues act h)

/-! Numbers as bit vectors. -/

/-- The two's complement reading of R56 is that of a bit vector. -/
theorem sx_eq_toInt (w x : Nat) : sx w x = (BitVec.ofNat w x).toInt := by
  rw [BitVec.toInt_eq_toNat_cond, BitVec.toNat_ofNat, sx]
  cases w with
  | zero => simp [Nat.mod_one]
  | succ w =>
    have : 2 * (x % 2 ^ (w + 1)) < 2 ^ (w + 1) ↔ x % 2 ^ (w + 1) < 2 ^ (w + 1 - 1) := by
      rw [Nat.add_sub_cancel]
      omega
    simp only [this]

theorem wrap_eq_toNat (w : Nat) (i : Int) : wrap w i = (BitVec.ofInt w i).toNat := (BitVec.toNat_ofInt i).symm

/-- Sign extension to 64 bits (R120, R139). -/
theorem wrap64_toInt {n : Nat} (i : BitVec n) : wrap64 i.toInt = (i.signExtend 64).toNat := wrap_eq_toNat 64 i.toInt

/-! Scalar operations. -/

/-- The second source of a scalar operation as a bit vector (R139). -/
def State.scalarBits (s : State) (c : Cursor) : SSrc → Dword
  | .reg r => BitVec.ofNat 64 (s.readS c r)
  | .imm i => i.signExtend 64
  | .ext i => i.signExtend 64

theorem State.scalarBits_toNat (s : State) (c : Cursor) (b : SSrc) : (s.scalarBits c b).toNat = s.scalarSrc c b := by
  cases b with
  | reg r => exact Nat.mod_eq_of_lt (s.readS_lt c r)
  | imm i => exact (wrap64_toInt i).symm
  | ext i => exact (wrap64_toInt i).symm

theorem State.readS_toNat (s : State) (c : Cursor) (r : Nat) : (BitVec.ofNat 64 (s.readS c r)).toNat = s.readS c r :=
  Nat.mod_eq_of_lt (s.readS_lt c r)

/-- A scalar operation on bit vectors: its result lands after 2 cycles (R139, R140). -/
theorem scalar_gives {s : State} {c : Cursor} {i : Instr} {d a : Fin 64} {b : SSrc} {f : Nat → Nat → Nat} (h : s.issues c i)
    (r : Dword) (hr : f (BitVec.ofNat 64 (s.readS c a)).toNat (s.scalarBits c b).toNat % 2 ^ 64 = r.toNat) :
    slot s i (fun c s => s.scalar c ⟨d, a, b⟩ f) = .next (s.send 2 [Write.s d r.toNat]) := by
  rw [slot_issues _ h, State.scalar, ← hr, s.readS_toNat, s.scalarBits_toNat]

/-- The signed minimum and maximum of two 64-bit words (R141). -/
theorem wrap64_min (x y : Dword) : wrap64 (min (sx 64 x.toNat) (sx 64 y.toNat)) = (if x.slt y then x else y).toNat := by
  rw [sx_eq_toInt, sx_eq_toInt, BitVec.ofNat_toNat, BitVec.ofNat_toNat, BitVec.setWidth_eq, BitVec.setWidth_eq, wrap64, wrap_eq_toNat,
    BitVec.slt]
  by_cases h : x.toInt < y.toInt
  · simp [h, Int.min_eq_left (Int.le_of_lt h)]
  · simp [h, Int.min_eq_right (Int.not_lt.mp h)]

theorem wrap64_max (x y : Dword) : wrap64 (max (sx 64 x.toNat) (sx 64 y.toNat)) = (if x.slt y then y else x).toNat := by
  rw [sx_eq_toInt, sx_eq_toInt, BitVec.ofNat_toNat, BitVec.ofNat_toNat, BitVec.setWidth_eq, BitVec.setWidth_eq, wrap64, wrap_eq_toNat,
    BitVec.slt]
  by_cases h : x.toInt < y.toInt
  · simp [h, Int.max_eq_right (Int.le_of_lt h)]
  · simp [h, Int.max_eq_left (Int.not_lt.mp h)]

/-- The arithmetic shift of a 64-bit word divides, rounding down (R141). -/
theorem wrap64_shift (x : Dword) (n : Nat) : wrap64 (sx 64 x.toNat / (2 ^ n : Nat)) = (x.sshiftRight n).toNat := by
  rw [sx_eq_toInt, BitVec.ofNat_toNat, BitVec.setWidth_eq, wrap64, wrap_eq_toNat, BitVec.sshiftRight, Int.shiftRight_eq_div_pow]

theorem scalarArithmetic : Claims.ScalarArithmetic := by
  intro s c d a b x y gives
  have hy : y = s.scalarBits c b := by cases b <;> rfl
  refine ⟨fun h => ?_, fun h => ?_, fun h => ?_, fun h => ?_, fun h => ?_, fun h => ?_, fun h => ?_, fun h => ?_, fun h => ?_, fun h => ?_,
    fun h => ?_, fun h => ?_⟩ <;> rw [hy]
  · exact scalar_gives h _ (BitVec.toNat_add _ _).symm
  · refine scalar_gives h _ ?_
    rw [BitVec.toNat_sub]
    exact congrArg (· % 2 ^ 64) (Nat.add_comm _ _)
  · exact scalar_gives h _ (BitVec.toNat_mul _ _).symm
  · exact scalar_gives h _ (Nat.mod_eq_of_lt (x &&& s.scalarBits c b).isLt)
  · exact scalar_gives h _ (Nat.mod_eq_of_lt (x ||| s.scalarBits c b).isLt)
  · exact scalar_gives h _ (Nat.mod_eq_of_lt (x ^^^ s.scalarBits c b).isLt)
  · refine scalar_gives h _ ?_
    rw [BitVec.toNat_shiftLeft, Nat.shiftLeft_eq]
  · refine scalar_gives h _ ?_
    rw [BitVec.toNat_ushiftRight, Nat.shiftRight_eq_div_pow]
    exact Nat.mod_eq_of_lt (Nat.lt_of_le_of_lt (Nat.div_le_self _ _) x.isLt)
  · refine scalar_gives h _ ?_
    rw [wrap64_shift]
    exact Nat.mod_eq_of_lt (BitVec.isLt _)
  · refine scalar_gives h _ ?_
    rw [wrap64_min]
    exact Nat.mod_eq_of_lt (BitVec.isLt _)
  · refine scalar_gives h _ ?_
    rw [wrap64_max]
    exact Nat.mod_eq_of_lt (BitVec.isLt _)
  · rw [s.scalarBits_toNat]
    exact (exec_issues h (by rfl)).trans rfl

/-- A predicate source, negated where asked (R138). -/
theorem bne_eq_ite (p n : Bool) : (p != n) = if n then !p else p := by cases p <;> cases n <;> rfl

theorem predicateLogic : Claims.PredicateLogic := by
  intro s c o lit gives
  have hl : ∀ i (p : Fin 32) n, lit i p n = (s.readP c i p != n) := fun i p n => (bne_eq_ite _ _).symm
  refine ⟨fun h => ?_, fun h => ?_, fun h => ?_, fun d neg mask any h => ?_⟩
  · simp only [hl]; exact (exec_issues h (by rfl)).trans rfl
  · simp only [hl]; exact (exec_issues h (by rfl)).trans rfl
  · simp only [hl]; exact (exec_issues h (by rfl)).trans rfl
  · refine (exec_issues h (by rfl)).trans ?_
    cases any <;> rfl

/-- Settles O12: each scalar operation on bit vectors, and the predicate operations lane by lane. -/
theorem scalarAndPredicateOperations : Obligations.ScalarAndPredicateOperations := ⟨scalarArithmetic, predicateLogic⟩

/-! Flags. -/

/-- A bank moved to a cycle is at that cycle or later. -/
theorem FlagBank.cyc_at {b : FlagBank} {t : Nat} (h : b.cyc ≤ t) : (b.at t).cyc = t := by
  unfold FlagBank.at
  split
  · rfl
  · omega

/-- A completion in the bank's own cycle. -/
theorem FlagBank.setIn_cyc (b : FlagBank) (n : Nat) : b.setIn b.cyc n = ⟨b.base, b.set ||| n, b.clr, b.cyc⟩ := by
  simp [FlagBank.setIn, FlagBank.at]

/-- A CLRF in the bank's own cycle. -/
theorem FlagBank.clearIn_cyc (b : FlagBank) (m : Nat) : b.clearIn b.cyc m = ⟨b.base, b.set, b.clr ||| m, b.cyc⟩ := by
  simp [FlagBank.clearIn, FlagBank.at]

/-- What a bank does in a cycle it does as it stands in that cycle. -/
theorem FlagBank.in_at (b : FlagBank) {t : Nat} (h : b.cyc ≤ t) (n : Nat) :
    b.setIn t n = (b.at t).setIn t n ∧ b.clearIn t n = (b.at t).clearIn t n := by
  have : (b.at t).at t = b.at t := by rw [FlagBank.at, if_neg (by rw [FlagBank.cyc_at h]; omega)]
  simp only [FlagBank.setIn, FlagBank.clearIn, this, and_self]

theorem completionBeatsClrf : Claims.CompletionBeatsClrf := by
  intro b t m n j hb hn
  rw [(b.in_at hb n).1, (b.in_at hb m).2]
  obtain ⟨a, hat, hc⟩ : ∃ a, b.at t = a ∧ a.cyc = t := ⟨_, rfl, FlagBank.cyc_at hb⟩
  rw [hat, ← hc]
  constructor
  · rw [a.setIn_cyc, FlagBank.clearIn_cyc ⟨_, _, _, a.cyc⟩]
    simp [FlagBank.read, FlagBank.ended, hn]
  · rw [a.clearIn_cyc, FlagBank.setIn_cyc ⟨_, _, _, a.cyc⟩]
    simp [FlagBank.read, FlagBank.ended, hn]

theorem flagTest_iff (f m : Nat) (any : Bool) : flagTest f m any = true ↔ if any then f &&& m ≠ 0 else f &&& m = m := by
  cases any <;> simp [flagTest]

theorem Gang.flagsHold_iff (g : Gang) (m t mask : Nat) (any : Bool) : g.flagsHold m t mask any = true ↔
    ∀ k ∈ bitsOf 8 m, if any then (g.slice k).flags.read t &&& mask ≠ 0 else (g.slice k).flags.read t &&& mask = mask := by
  simp only [Gang.flagsHold, List.all_eq_true, flagTest_iff]

theorem waitfBlocksUntilSet : Claims.WaitfBlocksUntilSet := by
  intro s c m any h
  have acts : exec (.waitf m any) s = .next (if (s.gang c.gang).flagsHold c.slices c.cyc m.toNat any then s.acquired c.gang
      else s.modGang c.gang (fun g => g.block c.slices (.waitf m.toNat any) c.pc c.pc)) :=
    (exec_issues h (by rfl)).trans rfl
  refine ⟨fun all => ?_, fun ⟨k, hk, hf⟩ => ?_⟩
  · rw [acts, if_pos ((Gang.flagsHold_iff _ _ _ _ _).mpr all)]
  · rw [acts, if_neg (fun all => hf ((Gang.flagsHold_iff _ _ _ _ _).mp all k hk))]

/-- Settles O14: a bank's set flags join after its cleared ones go, and WAITF's condition is that of its slices. -/
theorem flagsAreWaitedFor : Obligations.FlagsAreWaitedFor := ⟨completionBeatsClrf, waitfBlocksUntilSet⟩

end Sys2Proof.Machine
end

section
/-! The control slot: transfers, branches, loops and exits (R29 to R34, R45, R85, R120 to R130). -/

namespace Sys2Proof.Machine

/-! Masks. -/

theorem mem_bitsOf {n m k : Nat} : k ∈ bitsOf n m ↔ k < n ∧ m.testBit k = true := by
  simp [bitsOf]

theorem nodup_bitsOf (n m : Nat) : (bitsOf n m).Nodup := List.nodup_range.filter _

theorem testBit_foldl_or (l : List Nat) (m j : Nat) :
    (l.foldl (fun m i => m ||| 2 ^ i) m).testBit j = (m.testBit j || decide (j ∈ l)) := by
  induction l generalizing m with
  | nil => simp
  | cons i l ih =>
    rw [List.foldl_cons, ih, Nat.testBit_or, Nat.testBit_two_pow]
    by_cases h : j = i <;> simp [h, eq_comm]

/-- A mask has the bits of its list. -/
@[simp] theorem testBit_maskOf (l : List Nat) (j : Nat) : (maskOf l).testBit j = decide (j ∈ l) := by
  simp [maskOf, testBit_foldl_or]

theorem maskOf_bitsOf {n m : Nat} (h : m < 2 ^ n) : maskOf (bitsOf n m) = m := by
  refine Nat.eq_of_testBit_eq (fun j => ?_)
  rw [testBit_maskOf]
  by_cases hj : j < n
  · simp [mem_bitsOf, hj]
  · have : m.testBit j = false := Nat.testBit_lt_two_pow (Nat.lt_of_lt_of_le h (Nat.pow_le_pow_right (by decide) (by omega)))
    simp [mem_bitsOf, hj, this]

@[simp] theorem maskDiff_self (m : Nat) : maskDiff m m = 0 := by simp [maskDiff]

/-! Slices and their current lane sets. -/

@[simp] theorem Slice.curSet_modCur (x : Slice) (f : LaneSet → LaneSet) : (x.modCur f).curSet = x.curSet.map f := by
  unfold Slice.modCur
  split
  · next h => simp [Slice.curSet, h]
  · next e h => simp [Slice.curSet, h, smFind_smMod]

@[simp] theorem Slice.modCur_cur (x : Slice) (f : LaneSet → LaneSet) : (x.modCur f).cur = x.cur := by
  unfold Slice.modCur
  split <;> rfl

@[simp] theorem setNth_length {α : Type} (l : List α) (k : Nat) (f : α → α) : (setNth l k f).length = l.length := by
  simp [setNth]

/-- A changed slice of a gang. -/
theorem Gang.slice_modSlice (g : Gang) (k j : Nat) (f : Slice → Slice) :
    (g.modSlice k f).slice j = if j = k ∧ j < g.slices.length then f (g.slice j) else g.slice j := by
  by_cases hj : j < g.slices.length
  · by_cases h : j = k <;> simp [Gang.slice, Gang.modSlice, setNth, List.getD_eq_getElem?_getD, h, hj]
    · simp [h ▸ hj]
  · simp [Gang.slice, Gang.modSlice, setNth, List.getD_eq_getElem?_getD, hj]

theorem Gang.slice_modSlice_same (g : Gang) {k : Nat} (f : Slice → Slice) (hk : k < g.slices.length) :
    (g.modSlice k f).slice k = f (g.slice k) := by
  rw [g.slice_modSlice, if_pos ⟨rfl, hk⟩]

theorem Gang.slice_modSlice_ne (g : Gang) {k j : Nat} (f : Slice → Slice) (h : j ≠ k) : (g.modSlice k f).slice j = g.slice j := by
  rw [g.slice_modSlice, if_neg (fun e => h e.1)]

@[simp] theorem Gang.length_modSlice (g : Gang) (k : Nat) (f : Slice → Slice) : (g.modSlice k f).slices.length = g.slices.length :=
  setNth_length _ _ _

/-- A slice outside the gang reads as the default one, which has no lane set. -/
theorem Gang.slice_outside (g : Gang) {k : Nat} (h : g.slices.length ≤ k) : g.slice k = default := by
  simp [Gang.slice, List.getD_eq_getElem?_getD, h]

theorem Gang.slice_lt_of_curSet {g : Gang} {k : Nat} {y : LaneSet} (h : (g.slice k).curSet = some y) : k < g.slices.length := by
  by_contra hk
  rw [g.slice_outside (by omega)] at h
  exact absurd h (by simp [Slice.curSet, show (default : Slice).cur = none from rfl])

/-- Slices `l` of a gang, each changed by a function of its own. -/
def Gang.modEach (g : Gang) (l : List Nat) (f : Nat → Slice → Slice) : Gang := l.foldl (fun g k => g.modSlice k (f k)) g

theorem Gang.modEach_eq (g : Gang) (l : List Nat) (f : Nat → Slice → Slice) :
    ∃ sl, sl.length = g.slices.length ∧ g.modEach l f = { g with slices := sl } := by
  unfold Gang.modEach
  induction l generalizing g with
  | nil => exact ⟨_, rfl, rfl⟩
  | cons k l ih =>
    obtain ⟨sl, hl, h⟩ := ih (g.modSlice k (f k))
    exact ⟨sl, hl.trans (g.length_modSlice k _), h⟩

theorem Gang.slice_modEach {l : List Nat} (hl : l.Nodup) (f : Nat → Slice → Slice) {k : Nat} :
    ∀ g : Gang, k < g.slices.length → (g.modEach l f).slice k = if k ∈ l then f k (g.slice k) else g.slice k := by
  induction l with
  | nil => intro g _; rfl
  | cons j l ih =>
    intro g hk
    obtain ⟨hj, hl⟩ := List.nodup_cons.mp hl
    have rest := ih hl (g.modSlice j (f j)) (by simpa using hk)
    refine rest.trans ?_
    by_cases h : k = j
    · subst h
      simp [hj, g.slice_modSlice_same _ hk]
    · simp [h, g.slice_modSlice_ne _ h]

/-- A gang that is not there has no slice. -/
theorem State.isSome_of_slice {s : State} {u k : Nat} (h : k < (s.gang u).slices.length) : (smFind s.gangs u).isSome = true := by
  cases hs : smFind s.gangs u with
  | some _ => rfl
  | none =>
    rw [State.gang, hs] at h
    exact absurd h (Nat.not_lt_zero k)

/-! Registers that an operation on lane sets leaves as they were. -/

/-- Two gangs with the same registers, writes in flight and check mode, as `State.sameRegs` compares them. -/
def Gang.keepsRegs (a b : Gang) : Prop :=
  b.v = a.v ∧ b.p = a.p ∧ b.l0 = a.l0 ∧ b.l1 = a.l1 ∧ b.c0 = a.c0 ∧ b.c1 = a.c1 ∧ b.g = a.g ∧ b.s = a.s ∧ b.k = a.k ∧ b.dmr = a.dmr
    ∧ b.fstat = a.fstat ∧ b.pendBits = a.pendBits ∧ b.pendCount = a.pendCount ∧ b.chk = a.chk ∧ b.curcls = a.curcls ∧ b.flight = a.flight

theorem State.sameRegs_iff {s t : State} : s.sameRegs t ↔ t.dev = s.dev ∧ ∀ u, (s.gang u).keepsRegs (t.gang u) := Iff.rfl

theorem Gang.keepsRegs_refl (g : Gang) : g.keepsRegs g := ⟨rfl, rfl, rfl, rfl, rfl, rfl, rfl, rfl, rfl, rfl, rfl, rfl, rfl, rfl, rfl, rfl⟩

theorem Gang.keepsRegs_trans {a b c : Gang} (h : a.keepsRegs b) (k : b.keepsRegs c) : a.keepsRegs c := by
  obtain ⟨h1, h2, h3, h4, h5, h6, h7, h8, h9, h10, h11, h12, h13, h14, h15, h16⟩ := h
  obtain ⟨k1, k2, k3, k4, k5, k6, k7, k8, k9, k10, k11, k12, k13, k14, k15, k16⟩ := k
  exact ⟨k1.trans h1, k2.trans h2, k3.trans h3, k4.trans h4, k5.trans h5, k6.trans h6, k7.trans h7, k8.trans h8, k9.trans h9,
    k10.trans h10, k11.trans h11, k12.trans h12, k13.trans h13, k14.trans h14, k15.trans h15, k16.trans h16⟩

theorem State.sameRegs_refl (s : State) : s.sameRegs s := ⟨rfl, fun u => (s.gang u).keepsRegs_refl⟩

theorem State.sameRegs_trans {a b c : State} (h : a.sameRegs b) (k : b.sameRegs c) : a.sameRegs c :=
  ⟨k.1.trans h.1, fun u => Gang.keepsRegs_trans (h.2 u) (k.2 u)⟩

/-- What changes gangs and no device register, and keeps each gang's registers, keeps every register. -/
theorem State.sameRegs_of_gangs {s t : State} (hd : t.dev = s.dev) (hg : t.gangs = s.gangs) : s.sameRegs t :=
  ⟨hd, fun u => by
    have : t.gang u = s.gang u := by rw [State.gang, hg, State.gang]
    rw [this]
    exact (s.gang u).keepsRegs_refl⟩

theorem State.sameRegs_modGang (s : State) (u : Nat) {f : Gang → Gang} (hf : (s.gang u).keepsRegs (f (s.gang u))) :
    s.sameRegs (s.modGang u f) := by
  refine ⟨rfl, fun v => ?_⟩
  by_cases h : v = u
  · subst h
    cases hs : smFind s.gangs v with
    | none =>
      have : (s.modGang v f).gang v = s.gang v := by simp [State.gang, smFind_smMod, hs]
      rw [this]
      exact (s.gang v).keepsRegs_refl
    | some g =>
      rw [s.gang_modGang_same v f (by rw [hs]; rfl)]
      exact hf
  · rw [s.gang_modGang_other u v f h]
    exact (s.gang v).keepsRegs_refl

/-- Lane sets and parts are no registers. -/
theorem Gang.keepsRegs_lanes (g : Gang) (sl : List Slice) (ps : List Part) : g.keepsRegs { g with slices := sl, parts := ps } :=
  ⟨rfl, rfl, rfl, rfl, rfl, rfl, rfl, rfl, rfl, rfl, rfl, rfl, rfl, rfl, rfl, rfl⟩

/-! Transfers. -/

/-- The target of a transfer on bit vectors (R120). -/
theorem target_eq_jumpTo {n : Nat} (pc : Nat) (off : BitVec n) : target pc off.toInt = jumpTo pc off := by
  rw [target, wrap64, wrap_eq_toNat, jumpTo, BitVec.ofInt_add, BitVec.ofInt_mul, BitVec.ofInt_natCast]
  rfl

/-- What the current lane sets of a part become, slice by slice. -/
theorem State.curSet_modCurs (s : State) (u m : Nat) (f : LaneSet → LaneSet) {k : Nat} {y : LaneSet}
    (hy : ((s.gang u).slice k).curSet = some y) :
    (((s.modGang u (fun g => g.modCurs m f)).gang u).slice k).curSet = some (if m.testBit k then f y else y) := by
  have hk := Gang.slice_lt_of_curSet hy
  rw [State.gang_modGang_same _ _ _ (State.isSome_of_slice hk), Gang.modCurs, Gang.slice_modSlices hk]
  cases m.testBit k <;> simp [hy]

theorem State.sameRegs_modCurs (s : State) (u m : Nat) (f : LaneSet → LaneSet) : s.sameRegs (s.modGang u (fun g => g.modCurs m f)) :=
  s.sameRegs_modGang u (Gang.keepsRegs_lanes _ _ _)

theorem State.sameRegs_goto (s : State) (c : Cursor) (t : Nat) : s.sameRegs (s.goto c t) := s.sameRegs_modCurs _ _ _

theorem State.sameRegs_gotoFar (s : State) (c : Cursor) (t : Nat) : s.sameRegs (s.gotoFar c t) :=
  State.sameRegs_trans (s.sameRegs_goto c t) ((s.goto c t).sameRegs_modCurs _ _ _)

/-- A running lane set goes to its target at once. -/
theorem LaneSet.goto_run {y : LaneSet} (h : y.st = .run) (t : Nat) : y.goto t = { y with pc := t } := if_pos h

theorem transfersGoToTheirTarget : Claims.TransfersGoToTheirTarget := by
  intro s c a
  refine ⟨fun o h => ?_, fun o h => ?_, fun h => ?_, fun h => ?_, fun h => ?_, fun o h => ?_, fun o h => ?_, fun o h => ?_, fun o h => ?_,
    ?_⟩
  · rw [← target_eq_jumpTo]; exact (exec_issues h (by rfl)).trans rfl
  · rw [← target_eq_jumpTo]; exact (exec_issues h (by rfl)).trans rfl
  · exact (exec_issues h (by rfl)).trans rfl
  · exact (exec_issues h (by rfl)).trans rfl
  · exact (exec_issues h (by rfl)).trans rfl
  · rw [← target_eq_jumpTo]; exact (exec_issues h (by rfl)).trans rfl
  · rw [← target_eq_jumpTo]; exact (exec_issues h (by rfl)).trans rfl
  · rw [← target_eq_jumpTo, ite_not]; exact (exec_issues h (by rfl)).trans rfl
  · rw [← target_eq_jumpTo, ite_not]; exact (exec_issues h (by rfl)).trans rfl
  · intro t k y hk hy hr near far
    have hnear : ((near.gang c.gang).slice k).curSet = some (if c.slices.testBit k then { y with pc := t } else y) := by
      rw [← LaneSet.goto_run hr t]
      exact s.curSet_modCurs c.gang c.slices _ hy
    refine ⟨hnear, ?_, s.sameRegs_goto c t, s.sameRegs_gotoFar c t, rfl, rfl⟩
    refine (near.curSet_modCurs c.gang c.slices _ hnear).trans ?_
    cases c.slices.testBit k <;> rfl

/-! Branches. -/

/-- The lanes of a slice that take a branch whose taken lanes are `taken`. -/
def Slice.takes (taken k : Nat) (x : Slice) : Nat :=
  (match x.curSet with | none => 0 | some y => y.mask) &&& (taken / 2 ^ (8 * k) % 256)

/-- A slice after a branch (R32): its current set goes to one of the two places, or divides. -/
def Slice.branch (taken tgt fall cyc gap k : Nat) (x : Slice) : Slice :=
  match x.curSet with
  | none => x
  | some y =>
    let t := x.takes taken k
    let n := maskDiff y.mask t
    if n = 0 then x.modCur (LaneSet.goto tgt)
    else if t = 0 then x.modCur (LaneSet.goto fall)
    else
      let x' := x.modCur (fun y => { y.goto tgt with mask := t })
      let z : LaneSet := { y.goto fall with mask := n, ready := cyc + gap, created := cyc, idle := 0 }
      { x' with sets := smPut x'.sets x'.freeEntry z }

/-- A branch changes each slice of its part and the parts, and nothing else of the gang. -/
theorem Gang.split_eq (g : Gang) (m taken tgt fall cyc gap : Nat) :
    ∃ ps, g.split m taken tgt fall cyc gap = { g.modEach (bitsOf 8 m) (Slice.branch taken tgt fall cyc gap) with parts := ps } := by
  unfold Gang.split
  simp only []
  split
  · exact ⟨_, rfl⟩
  · exact ⟨_, rfl⟩

/-- A branch that each slice of its part takes divides no part. -/
theorem Gang.split_eq_of_takes (g : Gang) {m : Nat} (taken tgt fall cyc gap : Nat) (hm : m < 256)
    (h : ∀ k ∈ bitsOf 8 m, (g.slice k).takes taken k ≠ 0) :
    g.split m taken tgt fall cyc gap = g.modEach (bitsOf 8 m) (Slice.branch taken tgt fall cyc gap) := by
  have all : (bitsOf 8 m).filter (fun k => (g.slice k).takes taken k ≠ 0) = bitsOf 8 m :=
    List.filter_eq_self.mpr (fun k hk => by simpa using h k hk)
  have none_left : (maskOf ((bitsOf 8 m).filter (fun k => (g.slice k).takes taken k ≠ 0)) = 0
      ∨ maskDiff m (maskOf ((bitsOf 8 m).filter (fun k => (g.slice k).takes taken k ≠ 0))) = 0) := by
    rw [all, maskOf_bitsOf hm]
    exact .inr (maskDiff_self m)
  unfold Gang.split
  refine if_pos ?_
  rw [Bool.or_eq_true, decide_eq_true_eq, decide_eq_true_eq]
  exact none_left

theorem Slice.branch_of_takes_all {x : Slice} {y : LaneSet} {taken k : Nat} (hy : x.curSet = some y)
    (h : y.mask &&& (taken / 2 ^ (8 * k) % 256) = y.mask) (tgt fall cyc gap : Nat) :
    x.branch taken tgt fall cyc gap k = x.modCur (LaneSet.goto tgt) := by
  simp [Slice.branch, Slice.takes, hy, h]

/-- The lowest free entry of a table of one set is another than its own (log entry 12). -/
theorem Slice.freeEntry_ne {x : Slice} {e : Nat} {y : LaneSet} (h : x.sets = [(e, y)]) : x.freeEntry ≠ e := by
  unfold Slice.freeEntry
  rw [h]
  by_cases h0 : e = 0
  · subst h0
    simp [List.range_succ_eq_map, smFind]
  · have : (List.range 8).find? (fun i => (smFind [(e, y)] i).isNone) = some 0 := by
      simp [List.range_succ_eq_map, smFind, h0]
    rw [this]
    exact fun e0 => h0 e0.symm

/-- A table of one set and a second one put in. -/
theorem length_smPut_single {α : Type} {e f : Nat} (y z : α) (h : f ≠ e) : (smPut [(e, y)] f z).length = 2 := by
  by_cases lt : f < e <;> simp [smPut, lt, h]

theorem branchSplitsByPredicate : Claims.BranchSplitsByPredicate := by
  refine ⟨fun s c g o h => ?_, fun s c g o h => ?_, ?_, ?_⟩
  · rw [← target_eq_jumpTo]; exact (exec_issues h (by rfl)).trans rfl
  · rw [← target_eq_jumpTo]; exact (exec_issues h (by rfl)).trans rfl
  · intro g m taken tgt fall cyc gap hm hall h
    have heq : h = _ := g.split_eq_of_takes taken tgt fall cyc gap hm (fun k hk => by
      obtain ⟨y, hy, hmask, hne⟩ := hall k hk
      simpa only [Slice.takes, hy, hmask] using hne)
    obtain ⟨sl, _, hsl⟩ := g.modEach_eq (bitsOf 8 m) (Slice.branch taken tgt fall cyc gap)
    refine ⟨by rw [heq, hsl], fun k hk => ?_⟩
    obtain ⟨y, hy, hmask, -⟩ := hall k hk
    rw [heq, Gang.slice_modEach (nodup_bitsOf 8 m) _ _ (Gang.slice_lt_of_curSet hy), if_pos hk, Slice.branch_of_takes_all hy hmask]
  · intro g m taken tgt fall cyc gap k e y hk hmk hlen hcur hsets he hrun t ht hty h
    obtain ⟨ps, hps⟩ := g.split_eq m taken tgt fall cyc gap
    obtain ⟨sl, _, hsl⟩ := g.modEach_eq (bitsOf 8 m) (Slice.branch taken tgt fall cyc gap)
    have hy : (g.slice k).curSet = some y := by simp [Slice.curSet, hcur, hsets, smFind]
    have hne : maskDiff y.mask t ≠ 0 := fun h0 => hty (by
      have : y.mask ^^^ (y.mask &&& t) = 0 := h0
      have hand : y.mask &&& t = y.mask := (Nat.xor_eq_zero_iff.mp this).symm
      have : y.mask &&& t = t := by
        show y.mask &&& (y.mask &&& _) = y.mask &&& _
        rw [← Nat.and_assoc, Nat.and_self]
      rw [← this, hand])
    let x' := (g.slice k).modCur (fun y => { y.goto tgt with mask := t })
    have hx' : x'.sets = [(e, { y with pc := tgt, mask := t })] := by
      simp [x', Slice.modCur, hcur, hsets, smMod, LaneSet.goto_run hrun]
    let z : LaneSet := { y with pc := fall, mask := maskDiff y.mask t, ready := cyc + gap, created := cyc, idle := 0 }
    have hslice : h.slice k = { x' with sets := smPut x'.sets x'.freeEntry z } := by
      have : h.slice k = (g.modEach (bitsOf 8 m) (Slice.branch taken tgt fall cyc gap)).slice k := by
        show (g.split m taken tgt fall cyc gap).slice k = _
        rw [hps]; rfl
      rw [this, Gang.slice_modEach (nodup_bitsOf 8 m) _ _ hlen, if_pos (mem_bitsOf.mpr ⟨hk, hmk⟩), Slice.branch, hy]
      have htake : (g.slice k).takes taken k = t := by simp only [Slice.takes, hy]; rfl
      simp only [htake, hne, ht, if_false, LaneSet.goto_run hrun]
      rfl
    have hfree := Slice.freeEntry_ne hx'
    refine ⟨?_, ⟨x'.freeEntry, z, hfree, by rw [hslice]; exact smFind_smPut_same _ _ _, rfl, rfl, hrun, rfl, rfl, rfl, ?_⟩, ?_⟩
    · have hcur' : x'.cur = some e := by rw [Slice.modCur_cur, hcur]
      rw [hslice, Slice.curSet, hcur']
      exact (smFind_smPut_other _ _ _ _ hfree.symm).trans (by rw [hx']; simp [smFind])
    · rw [hslice, hx']
      exact length_smPut_single _ _ hfree
    · show (g.split m taken tgt fall cyc gap).v = _ ∧ _
      rw [show h = _ from hps, hps, hsl]
      exact ⟨rfl, rfl, rfl, rfl, rfl, rfl⟩

/-- Settles O15: targets on bit vectors, and a branch slice by slice. -/
theorem transfersAndBranches : Obligations.TransfersAndBranches := ⟨transfersGoToTheirTarget, branchSplitsByPredicate⟩

/-! Loops. -/

/-- A loop stack of `n` levels with one more on top (R128). -/
theorem loopOpen_eq (l : List Loop) (n k ret : Nat) :
    ∃ base : List Loop, base.length = n ∧ loopOpen l n k ret = base ++ [⟨max k 1, 0, ret⟩] := by
  refine ⟨l.take n ++ List.replicate (n - l.length) ⟨1, 0, 0⟩, ?_, rfl⟩
  simp only [List.length_append, List.length_take, List.length_replicate]
  omega

/-- The end of the top level of a stack: it repeats, or goes (R129). -/
theorem loopEnd_top (base : List Loop) (e : Loop) : loopEnd (base ++ [e]) base.length =
    if (e.index + 1) % 2 ^ 32 < e.count then (base ++ [{ e with index := (e.index + 1) % 2 ^ 32 }], some e.ret) else (base, none) := by
  have top : (base ++ [e])[base.length]? = some e := by simp
  have below : (base ++ [e]).take base.length = base := by simp
  simp only [loopEnd, top, below]

/-- The stack after `j` ends of a loop that is not yet over. -/
theorem loopEnd_repeated (base : List Loop) (cnt ret : Nat) (hc : cnt < 2 ^ 32) :
    ∀ j, j < cnt → (List.range j).foldl (fun l _ => (loopEnd l base.length).1) (base ++ [⟨cnt, 0, ret⟩]) = base ++ [⟨cnt, j, ret⟩] := by
  intro j
  induction j with
  | zero => intro _; rfl
  | succ j ih =>
    intro hj
    have hmod : (j + 1) % 2 ^ 32 = j + 1 := Nat.mod_eq_of_lt (by omega)
    rw [List.range_succ, List.foldl_append, ih (by omega), List.foldl_cons, List.foldl_nil, loopEnd_top]
    simp only [hmod, hj, if_true]

theorem loopRunsItsCount : Claims.LoopRunsItsCount := by
  refine ⟨fun s c n k h => ?_, fun s c n h => ?_, fun s c n o h => ?_, fun s c n o h => ?_, ?_⟩
  · exact (exec_issues h (by rfl)).trans rfl
  · exact (exec_issues h (by rfl)).trans rfl
  · rw [← target_eq_jumpTo]; exact (exec_issues h (by rfl)).trans rfl
  · rw [← target_eq_jumpTo]; exact (exec_issues h (by rfl)).trans rfl
  · intro l n k ret hk run
    obtain ⟨base, rfl, hopen⟩ := loopOpen_eq l n k ret
    have hrun : ∀ j, j < max k 1 → run j = base ++ [⟨max k 1, j, ret⟩] := fun j hj => by
      show (List.range j).foldl _ (loopOpen l base.length k ret) = _
      rw [hopen]
      exact loopEnd_repeated base (max k 1) ret (by omega) j hj
    refine ⟨fun j hj => ?_, ?_⟩
    · have hmod : (j + 1) % 2 ^ 32 = j + 1 := Nat.mod_eq_of_lt (by omega)
      rw [hrun j (by omega), loopEnd_top]
      simp only [hmod, hj, if_true, true_and]
      simp [List.getD_eq_getElem?_getD]
    · have hlast : ¬ (max k 1 - 1 + 1) % 2 ^ 32 < max k 1 := by omega
      rw [hrun _ (by omega), loopEnd_top]
      simp only [hlast, if_false, and_self]

/-! Exits. -/

/-- A slice without a lane set to take has no current one, and leaves its part (R34). -/
theorem Gang.settleSlice_leaves {g : Gang} {k : Nat} (h : (g.slice k).curSet = none) (hn : (g.slice k).newest none = none) :
    g.settleSlice k = (g.modSlice k (fun x => { x with cur := none })).leavePart k := by
  simp only [Gang.settleSlice, h, hn]

/-- A slice without a current lane set takes its newest one (R34). -/
theorem Gang.settleSlice_brings {g : Gang} {k e : Nat} (h : (g.slice k).curSet = none) (hn : (g.slice k).newest none = some e) :
    g.settleSlice k = g.bringIn k e (g.slice k).out := by
  simp only [Gang.settleSlice, h, hn]

/-- A slice that settles changes itself and the parts, and nothing else of the gang. -/
theorem Gang.settleSlice_eq (g : Gang) (k : Nat) :
    ∃ f ps, g.settleSlice k = { g.modSlice k f with parts := ps } := by
  have same : ∃ f ps, g = { g.modSlice k f with parts := ps } := by
    refine ⟨id, g.parts, ?_⟩
    have : setNth g.slices k id = g.slices := List.ext_getElem (by simp) (by simp [setNth])
    unfold Gang.modSlice
    rw [this]
  unfold Gang.settleSlice
  simp only []
  split
  · split <;> exact ⟨_, _, rfl⟩
  · split
    · exact same
    · split
      · exact same
      · exact ⟨_, _, rfl⟩

@[simp] theorem Gang.length_settleSlice (g : Gang) (k : Nat) : (g.settleSlice k).slices.length = g.slices.length := by
  obtain ⟨f, ps, h⟩ := g.settleSlice_eq k
  rw [h]
  exact g.length_modSlice k f

theorem Gang.slice_settleSlice_ne (g : Gang) {k j : Nat} (h : j ≠ k) : (g.settleSlice k).slice j = g.slice j := by
  obtain ⟨f, ps, hk⟩ := g.settleSlice_eq k
  rw [hk]
  exact g.slice_modSlice_ne f h

/-- Slices that settle leave the others as they were, and nothing but slices and parts changes. -/
theorem Gang.settleSlices_frame (l : List Nat) : ∀ g : Gang, let h := l.foldl Gang.settleSlice g
    (∀ j, j ∉ l → h.slice j = g.slice j) ∧ h.slices.length = g.slices.length ∧ ∃ sl ps, h = { g with slices := sl, parts := ps } := by
  induction l with
  | nil => exact fun g => ⟨fun _ _ => rfl, rfl, _, _, rfl⟩
  | cons k l ih =>
    intro g
    obtain ⟨others, len, sl, ps, rest⟩ := ih (g.settleSlice k)
    obtain ⟨f, ps', hk⟩ := g.settleSlice_eq k
    refine ⟨fun j hj => ?_, len.trans (g.length_settleSlice k), sl, ps, ?_⟩
    · obtain ⟨hjk, hjl⟩ := not_or.mp (mt List.mem_cons.mpr hj)
      exact (others j hjl).trans (g.slice_settleSlice_ne hjk)
    · rw [List.foldl_cons, rest, hk]
      rfl

/-- A property of the parts that every change of another slice's part keeps. -/
def otherPartsKeep (k : Nat) (P : List Part → Prop) : Prop :=
  (∀ (g : Gang) j, j ≠ k → P g.parts → P (g.leavePart j).parts) ∧ (∀ l j, j ≠ k → P l → P (l ++ [newPart (2 ^ j)]))

/-- A slice that settles keeps what every change of its own part keeps. -/
theorem Gang.parts_settleSlice {k : Nat} {P : List Part → Prop} (hP : otherPartsKeep k P) (g : Gang) {j : Nat} (hj : j ≠ k)
    (h : P g.parts) : P (g.settleSlice j).parts := by
  have brings : ∀ e ready, P (g.bringIn j e ready).parts := fun e ready => hP.2 _ _ hj (hP.1 (g.modSlice j _) _ hj h)
  unfold Gang.settleSlice
  simp only []
  split
  · split
    · exact hP.1 (g.modSlice j _) _ hj h
    · exact brings _ _
  · split
    · exact h
    · split
      · exact h
      · exact brings _ _

/-- The parts after slices settle, of which `k` is one: what its own change makes true of them, the later ones keep. -/
theorem Gang.settleSlices_at {k : Nat} {P : List Part → Prop} (hP : otherPartsKeep k P) {l : List Nat} (hl : l.Nodup) (hk : k ∈ l)
    {x : Slice} {Q : Slice → Prop} (own : ∀ g : Gang, k < g.slices.length → g.slice k = x →
      Q ((g.settleSlice k).slice k) ∧ P (g.settleSlice k).parts) :
    ∀ g : Gang, k < g.slices.length → g.slice k = x → Q ((l.foldl Gang.settleSlice g).slice k) ∧ P (l.foldl Gang.settleSlice g).parts := by
  have later : ∀ (l : List Nat) (g : Gang), k ∉ l → P g.parts → P (l.foldl Gang.settleSlice g).parts := by
    intro l
    induction l with
    | nil => exact fun g _ h => h
    | cons j l ih =>
      intro g hj h
      obtain ⟨hjk, hjl⟩ := not_or.mp (mt List.mem_cons.mpr hj)
      exact ih _ hjl (Gang.parts_settleSlice hP g (Ne.symm hjk) h)
  induction l with
  | nil => exact absurd hk (List.not_mem_nil)
  | cons j l ih =>
    intro g hlen hx
    obtain ⟨hj, hl'⟩ := List.nodup_cons.mp hl
    by_cases hjk : k = j
    · subst hjk
      obtain ⟨q, p⟩ := own g hlen hx
      refine ⟨?_, later l _ hj p⟩
      rw [List.foldl_cons, (Gang.settleSlices_frame l (g.settleSlice k)).1 k hj]
      exact q
    · exact ih hl' ((List.mem_cons.mp hk).resolve_left hjk) _ (by simpa using hlen) ((g.slice_settleSlice_ne hjk).trans hx)

/-- No part holds slice `k`. -/
def outOfParts (k : Nat) (l : List Part) : Prop := ∀ p ∈ l, p.slices.testBit k = false

/-- Slice `k` is a part of its own, not held. -/
def aloneInPart (k : Nat) (l : List Part) : Prop := ∃ p ∈ l, p.slices = 2 ^ k ∧ p.holds = []

theorem Gang.mem_leavePart {g : Gang} {k : Nat} {p : Part} : p ∈ (g.leavePart k).parts ↔
    (∃ q ∈ g.parts, { q with slices := maskDiff q.slices (2 ^ k) } = p) ∧ p.slices ≠ 0 := by
  simp [Gang.leavePart]

theorem Gang.outOfParts_leavePart (g : Gang) (k : Nat) : outOfParts k (g.leavePart k).parts := by
  intro p hp
  obtain ⟨⟨q, _, rfl⟩, _⟩ := Gang.mem_leavePart.mp hp
  simp [testBit_maskDiff]

theorem otherPartsKeep_outOfParts (k : Nat) : otherPartsKeep k (outOfParts k) := by
  refine ⟨fun g j _ h p hp => ?_, fun l j hj h p hp => ?_⟩
  · obtain ⟨⟨q, hq, rfl⟩, _⟩ := Gang.mem_leavePart.mp hp
    simp [testBit_maskDiff, h q hq]
  · rcases List.mem_append.mp hp with hp | hp
    · exact h p hp
    · rw [List.mem_singleton.mp hp]
      simp [newPart, hj]

theorem maskDiff_two_pow_ne {j k : Nat} (h : j ≠ k) : maskDiff (2 ^ k) (2 ^ j) = 2 ^ k := by
  refine Nat.eq_of_testBit_eq (fun i => ?_)
  rw [testBit_maskDiff, Nat.testBit_two_pow, Nat.testBit_two_pow]
  by_cases hi : k = i
  · simp [hi, hi ▸ h]
  · simp [hi]

theorem otherPartsKeep_aloneInPart (k : Nat) : otherPartsKeep k (aloneInPart k) := by
  refine ⟨fun g j hj h => ?_, fun l j _ h => ?_⟩
  · obtain ⟨p, hp, hs, hh⟩ := h
    refine ⟨{ p with slices := maskDiff p.slices (2 ^ j) }, Gang.mem_leavePart.mpr ⟨⟨p, hp, rfl⟩, ?_⟩, ?_, hh⟩
    · simp [hs, maskDiff_two_pow_ne hj]
    · simp [hs, maskDiff_two_pow_ne hj]
  · obtain ⟨p, hp, h⟩ := h
    exact ⟨p, List.mem_append_left _ hp, h⟩

/-- A slice whose current lane set has died, its issue-ready cycle being `ready` (R125). -/
def Slice.bereave (ready : Nat) (x : Slice) : Slice :=
  match x.cur with
  | none => x
  | some e => { x with sets := smDel x.sets e, cur := none, out := ready }

theorem Gang.kill_eq (g : Gang) (m ready : Nat) : g.kill m ready = (g.modSlices m (Slice.bereave ready)).settle m := rfl

theorem Slice.curSet_of_cur_none {x : Slice} (h : x.cur = none) : x.curSet = none := by simp [Slice.curSet, h]

/-- A slice left without a lane set has no current one and is in no part (R45). -/
theorem Gang.settleSlice_empty {g : Gang} {k : Nat} {x : Slice} (hk : k < g.slices.length) (hx : g.slice k = x) (hcur : x.cur = none)
    (hs : x.sets = []) : ((g.settleSlice k).slice k = { x with cur := none }) ∧ outOfParts k (g.settleSlice k).parts := by
  subst hx
  have newest : (g.slice k).newest none = none := by simp [Slice.newest, hs]
  rw [Gang.settleSlice_leaves (Slice.curSet_of_cur_none hcur) newest]
  exact ⟨g.slice_modSlice_same _ hk, Gang.outOfParts_leavePart _ k⟩

/-- A slice left with one runnable lane set goes on with it, in a part of its own (R34). -/
theorem Gang.settleSlice_single {g : Gang} {k f : Nat} {z : LaneSet} {x : Slice} (hk : k < g.slices.length) (hx : g.slice k = x)
    (hcur : x.cur = none) (hs : x.sets = [(f, z)]) (hz : z.st = .run) :
    ((g.settleSlice k).slice k = { x with sets := [(f, { z with ready := max z.ready x.out, idle := 0 })], cur := some f })
      ∧ aloneInPart k (g.settleSlice k).parts := by
  subst hx
  have newest : (g.slice k).newest none = some f := by simp [Slice.newest, hs, hz]
  rw [Gang.settleSlice_brings (Slice.curSet_of_cur_none hcur) newest]
  refine ⟨(g.slice_modSlice_same _ hk).trans ?_, newPart (2 ^ k), List.mem_append_right _ (List.mem_singleton.mpr rfl), rfl, rfl⟩
  simp [hs, smMod]

theorem exitAndEmptyRun : Claims.ExitAndEmptyRun := by
  refine ⟨fun s c h => ?_, ?_, fun s c gap run regang check h => ?_⟩
  · exact (exec_issues h (by rfl)).trans rfl
  · intro g m ready k e y hlen hk h
    let b := g.modSlices m (Slice.bereave ready)
    have hb : k < b.slices.length := by simpa [b, Gang.modSlices] using hlen
    obtain ⟨others, -, sl, ps, frame⟩ := Gang.settleSlices_frame (bitsOf 8 m) b
    have hslice : b.slice k = if m.testBit k then (g.slice k).bereave ready else g.slice k := Gang.slice_modSlices hlen m _
    refine ⟨fun hm hcur => ⟨fun hs => ?_, fun f z hs hf hz => ?_⟩, fun hm => ?_, ?_⟩
    · have hx : b.slice k = { g.slice k with sets := [], cur := none, out := ready } := by
        simp [hslice, hm, Slice.bereave, hcur, hs, smDel]
      obtain ⟨q, p⟩ := Gang.settleSlices_at (otherPartsKeep_outOfParts k) (nodup_bitsOf 8 m) (mem_bitsOf.mpr ⟨hk, hm⟩)
        (Q := fun x => x.sets = [] ∧ x.cur = none) (fun g' hg' hx' => by
          obtain ⟨q, p⟩ := Gang.settleSlice_empty hg' hx' rfl rfl
          exact ⟨by rw [q]; exact ⟨rfl, rfl⟩, p⟩) b hb hx
      exact ⟨q.1, q.2, p⟩
    · have hx : b.slice k = { g.slice k with sets := [(f, z)], cur := none, out := ready } := by
        simp [hslice, hm, Slice.bereave, hcur, hs, smDel]
      obtain ⟨q, p⟩ := Gang.settleSlices_at (otherPartsKeep_aloneInPart k) (nodup_bitsOf 8 m) (mem_bitsOf.mpr ⟨hk, hm⟩)
        (Q := fun x => x.sets = [(f, { z with ready := max z.ready ready, idle := 0 })] ∧ x.cur = some f) (fun g' hg' hx' => by
          obtain ⟨q, p⟩ := Gang.settleSlice_single hg' hx' rfl rfl hz
          exact ⟨by rw [q]; exact ⟨rfl, rfl⟩, p⟩) b hb hx
      exact ⟨q.1, q.2, p⟩
    · have outside : k ∉ bitsOf 8 m := fun hmem => by
        rw [(mem_bitsOf.mp hmem).2] at hm
        exact Bool.noConfusion hm
      exact (others k outside).trans (by simp [hslice, hm])
    · rw [show h = _ from frame]
      exact ⟨rfl, rfl, rfl, rfl, rfl, rfl⟩
  · refine ⟨_, exec_issues h (by rfl), rfl, fun k hk hm => ?_⟩
    rw [State.gang_modGang_same _ _ _ (State.isSome_of_slice hk), Gang.modCurs, Gang.slice_modSlices hk, if_pos hm]

/-- Settles O16: loops by their top level, exits by how a slice settles that has lost its lane set. -/
theorem loopsAndExits : Obligations.LoopsAndExits := ⟨loopRunsItsCount, exitAndEmptyRun⟩

end Sys2Proof.Machine
end

section
/-! The vector slot: integer arithmetic, bit operations, shifts and bit fields (R56, R57, R148 to R150). -/

namespace Sys2Proof.Machine

/-! Integer types. -/

theorem widthOf_of_is64 {t : Ty} (h : is64 t = true) : widthOf t = 64 := by
  cases t <;> first | rfl | exact absurd h (by decide)

theorem widthOf_pos (t : Ty) : 8 ≤ widthOf t := by cases t <;> decide

theorem widthOf_le (t : Ty) : widthOf t ≤ 64 := by cases t <;> decide

/-- A bit vector of a type in a register (R56). -/
theorem extendTo_toNat (t : Ty) (x : BitVec (widthOf t)) : extendTo t x.toNat = regBits t x := by
  unfold extendTo regBits
  by_cases h : is64 t = true
  · rw [if_pos h, if_pos h]
    exact Nat.mod_eq_of_lt (Nat.lt_of_lt_of_eq x.isLt (by rw [widthOf_of_is64 h]))
  · rw [if_neg h, if_neg h]
    by_cases hs : isSigned t = true
    · rw [if_pos hs, if_pos hs, sx_eq_toInt, BitVec.ofNat_toNat, BitVec.setWidth_eq]
      exact wrap_eq_toNat 32 x.toInt
    · rw [if_neg hs, if_neg hs]
      exact Nat.mod_eq_of_lt x.isLt

/-- The integer that a bit vector of a type is. -/
def intOf (t : Ty) (x : BitVec (widthOf t)) : Int := if isSigned t then x.toInt else (x.toNat : Int)

theorem intVal_eq_intOf (t : Ty) (x : Nat) : intVal t (widthOf t) x = intOf t (BitVec.ofNat (widthOf t) x) := by
  unfold intVal intOf
  rw [sx_eq_toInt, BitVec.toNat_ofNat]

@[simp] theorem ofInt_intOf (t : Ty) (x : BitVec (widthOf t)) : BitVec.ofInt (widthOf t) (intOf t x) = x := by
  unfold intOf
  split
  · exact BitVec.ofInt_toInt
  · rw [BitVec.ofInt_natCast, BitVec.ofNat_toNat, BitVec.setWidth_eq]

/-- An exact integer reduced to a type without `.sat` (R57). -/
theorem fitInt_wraps (t : Ty) (x : Int) : fitInt t false x = regBits t (BitVec.ofInt (widthOf t) x) := by
  rw [← extendTo_toNat, ← wrap_eq_toNat]
  rfl

/-- A source of an integer operation, as its type reads it. -/
theorem State.intVal_operand (s : State) (c : Cursor) (t : Ty) (o : Opd) (l : Nat) :
    intVal t (widthOf t) (s.operand c o l t) = intOf t (s.srcBits c t o l) := intVal_eq_intOf t _

theorem State.low_eq (s : State) (c : Cursor) (t : Ty) (o : Opd) (l : Nat) : s.low c t o l = (s.srcBits c t o l).toNat :=
  (BitVec.toNat_ofNat _ _).symm

/-- A vector-slot instruction that writes one result per lane, the result said in another way. -/
theorem vOut_gives {s : State} {c : Cursor} {i : Instr} {g : Guard} {t : Ty} {d : Fin 256} {lat : Nat} {f : Nat → Nat}
    (h : exec i s = .next (s.vOut c g t d lat f)) {r : Nat → Nat} (hr : ∀ l, f l = r l) :
    exec i s = .next (s.vOut c g t d lat r) := by
  rw [h, funext hr]

/-! Wrapping. -/

/-- The order of integers is that of bit vectors, by the signedness of the type. -/
theorem intOf_lt_iff (t : Ty) (x y : BitVec (widthOf t)) :
    intOf t x < intOf t y ↔ (if isSigned t then x.slt y else x.ult y) = true := by
  unfold intOf
  cases isSigned t <;> simp [BitVec.slt, BitVec.ult]

/-- The high half of a double-width number (R148). -/
theorem emod_sq_ediv (x n : Int) (hn : 0 < n) : x % (n * n) / n = x / n % n := by
  have h1 : x % (n * n) = x - n * (n * (x / n / n)) := by
    rw [Int.emod_def, Int.ediv_ediv_of_nonneg hn.le, Int.mul_assoc]
  rw [h1, Int.emod_def, sub_eq_add_neg, ← mul_neg, Int.add_mul_ediv_left _ _ hn.ne', ← sub_eq_add_neg]

theorem ofInt_mul_ediv {w : Nat} (x : Int) :
    BitVec.ofInt w (x / (2 ^ w : Nat)) = (BitVec.ofInt (2 * w) x).extractLsb' w w := by
  refine BitVec.eq_of_toNat_eq ?_
  have hn : (0 : Int) < (2 ^ w : Nat) := by exact_mod_cast Nat.two_pow_pos w
  have hsq : ((2 ^ (2 * w) : Nat) : Int) = (2 ^ w : Nat) * (2 ^ w : Nat) := by
    rw [Nat.two_mul, Nat.pow_add, Nat.cast_mul]
  have hpos : 0 ≤ x % (2 ^ (2 * w) : Nat) := Int.emod_nonneg _ (by rw [hsq]; positivity)
  have hpos' : 0 ≤ x / (2 ^ w : Nat) % (2 ^ w : Nat) := Int.emod_nonneg _ hn.ne'
  rw [BitVec.toNat_ofInt, BitVec.extractLsb'_toNat, BitVec.toNat_ofInt, Nat.shiftRight_eq_div_pow, ← Int.natCast_inj,
    Int.natCast_mod, Int.natCast_ediv, Int.toNat_of_nonneg hpos, Int.toNat_of_nonneg hpos', hsq, emod_sq_ediv _ _ hn,
    Int.emod_emod_of_dvd _ (dvd_refl _)]

theorem ofInt_intOf_mul_wide (t : Ty) (x y : BitVec (widthOf t)) : BitVec.ofInt (2 * widthOf t) (intOf t x * intOf t y)
    = if isSigned t then x.signExtend (2 * widthOf t) * y.signExtend (2 * widthOf t)
      else x.zeroExtend (2 * widthOf t) * y.zeroExtend (2 * widthOf t) := by
  unfold intOf
  cases isSigned t
  · simp only [Bool.false_eq_true, if_false, BitVec.ofInt_mul, BitVec.ofInt_natCast, BitVec.ofNat_toNat, BitVec.zeroExtend]
  · simp only [if_true, BitVec.ofInt_mul]
    rfl

/-- The magnitude of a signed number, as VABS takes it (R148). -/
theorem ofInt_natAbs {w : Nat} (x : BitVec w) : BitVec.ofInt w (x.toInt.natAbs : Int) = if x.slt 0 then -x else x := by
  have hslt : x.slt 0 = true ↔ x.toInt < 0 := by simp [BitVec.slt]
  by_cases h : x.toInt < 0
  · rw [if_pos (hslt.mpr h), Int.ofNat_natAbs_of_nonpos h.le, BitVec.ofInt_neg, BitVec.ofInt_toInt]
  · rw [if_neg (mt hslt.mp h), Int.natAbs_of_nonneg (Int.not_lt.mp h), BitVec.ofInt_toInt]

theorem integerArithmeticWraps : Claims.IntegerArithmeticWraps := by
  refine ⟨?_, ?_, fun s c o hi hsat h => ?_⟩
  · intro s c o hi hsat x y less gives
    have out : ∀ {i : Instr} {f : Int → Int → Int} {r : Nat → BitVec (widthOf o.ty)}, exec i s = .next (s.int2 o c f) →
        (∀ l, BitVec.ofInt (widthOf o.ty) (f (intOf o.ty (x l)) (intOf o.ty (y l))) = r l) →
        exec i s = .next (s.vOut c o.g o.ty o.d 4 (fun l => regBits o.ty (r l))) := fun h hr =>
      vOut_gives h (fun l => by
        simp only [hsat, fitInt_wraps, s.intVal_operand]
        exact congrArg _ (hr l))
    refine ⟨fun h => ?_, fun h => ?_, fun h => ?_, fun h => ?_, fun h => ?_, fun h => ?_⟩
    · exact out ((exec_issues h (by rfl)).trans rfl) (fun l => by rw [BitVec.ofInt_add, ofInt_intOf, ofInt_intOf])
    · exact out ((exec_issues h (by rfl)).trans rfl) (fun l => by
        rw [Int.sub_eq_add_neg, BitVec.ofInt_add, BitVec.ofInt_neg, ofInt_intOf, ofInt_intOf, ← BitVec.sub_eq_add_neg])
    · exact out ((exec_issues h (by rfl)).trans rfl) (fun l => by rw [BitVec.ofInt_mul, ofInt_intOf, ofInt_intOf])
    · refine out ((exec_issues h (by rfl)).trans rfl) (fun l => ?_)
      by_cases hl : intOf o.ty (x l) < intOf o.ty (y l)
      · rw [if_pos ((intOf_lt_iff _ _ _).mp hl), Int.min_eq_left hl.le, ofInt_intOf]
      · rw [if_neg (mt (intOf_lt_iff _ _ _).mpr hl), Int.min_eq_right (Int.not_lt.mp hl), ofInt_intOf]
    · refine out ((exec_issues h (by rfl)).trans rfl) (fun l => ?_)
      by_cases hl : intOf o.ty (x l) < intOf o.ty (y l)
      · rw [if_pos ((intOf_lt_iff _ _ _).mp hl), Int.max_eq_right hl.le, ofInt_intOf]
      · rw [if_neg (mt (intOf_lt_iff _ _ _).mpr hl), Int.max_eq_left (Int.not_lt.mp hl), ofInt_intOf]
    · exact out ((exec_issues h (by rfl)).trans rfl) (fun l => by rw [ofInt_mul_ediv, ofInt_intOf_mul_wide])
  · intro s c o hs hsat x gives
    have hx : ∀ l, intOf o.ty (x l) = (x l).toInt := fun l => by rw [intOf, if_pos hs]
    have out : ∀ {i : Instr} {f : Int → Int} {r : Nat → BitVec (widthOf o.ty)}, exec i s = .next (s.int1 o c f) →
        (∀ l, BitVec.ofInt (widthOf o.ty) (f (x l).toInt) = r l) →
        exec i s = .next (s.vOut c o.g o.ty o.d 4 (fun l => regBits o.ty (r l))) := fun h hr =>
      vOut_gives h (fun l => by rw [hsat, fitInt_wraps, s.intVal_operand, hx, hr l])
    refine ⟨fun h => ?_, fun h => ?_⟩
    · exact out ((exec_issues h (by rfl)).trans rfl) (fun l => by rw [BitVec.ofInt_neg, BitVec.ofInt_toInt])
    · exact out ((exec_issues h (by rfl)).trans rfl) (fun l => ofInt_natAbs (x l))
  · refine vOut_gives ((exec_issues h (by rfl)).trans rfl) (fun l => ?_)
    simp only [hsat, fitInt_wraps, s.intVal_operand, BitVec.ofInt_add, BitVec.ofInt_mul, ofInt_intOf]

/-! Saturating. -/

theorem intMin_eq (t : Ty) : intMin t = if isSigned t then (BitVec.intMin (widthOf t)).toInt else 0 := by
  cases t <;> rfl

theorem intMax_eq (t : Ty) :
    intMax t = if isSigned t then (BitVec.intMax (widthOf t)).toInt else ((BitVec.allOnes (widthOf t)).toNat : Int) := by
  cases t <;> rfl

theorem intMin_le_intMax (t : Ty) : intMin t ≤ intMax t := by
  cases t <;> decide

/-- The nearest number of a range. -/
theorem max_min_eq_clamp {lo hi x : Int} (h : lo ≤ hi) : max lo (min hi x) = if x < lo then lo else if hi < x then hi else x := by
  split
  · omega
  · split <;> omega

/-- An exact integer reduced to a type under `.sat` (R57). -/
theorem fitInt_saturates (t : Ty) (x : Int) : fitInt t true x =
    regBits t (BitVec.ofInt (widthOf t) (if x < intMin t then intMin t else if intMax t < x then intMax t else x)) := by
  rw [← extendTo_toNat, ← wrap_eq_toNat, ← max_min_eq_clamp (intMin_le_intMax t)]
  rfl

theorem integerArithmeticSaturates : Claims.IntegerArithmeticSaturates := by
  intro s c t rm g d a b e hi val lo hi' gives
  have hlo : lo = intMin t := (intMin_eq t).symm
  have hhi : hi' = intMax t := (intMax_eq t).symm
  have hval : ∀ o l, intVal t (widthOf t) (s.operand c o l t) = val o l := fun o l => s.intVal_operand c t o l
  have out : ∀ {i : Instr} {f r : Nat → Int}, exec i s = .next (s.vOut c g t d 4 (fun l => fitInt t true (f l))) → (∀ l, f l = r l) →
      exec i s = .next (s.vOut c g t d 4 (fun l => regBits t (BitVec.ofInt (widthOf t)
        (if r l < lo then lo else if hi' < r l then hi' else r l)))) := fun h hr =>
    vOut_gives h (fun l => by rw [fitInt_saturates, hlo, hhi, hr l])
  refine ⟨fun h => ?_, fun h => ?_, fun h => ?_, fun h => ?_, fun _ h => ?_, fun _ h => ?_⟩
  · exact out ((exec_issues h (by rfl)).trans rfl) (fun l => by simp only [hval])
  · exact out ((exec_issues h (by rfl)).trans rfl) (fun l => by simp only [hval])
  · exact out ((exec_issues h (by rfl)).trans rfl) (fun l => by simp only [hval])
  · exact out ((exec_issues h (by rfl)).trans rfl) (fun l => by simp only [hval])
  · exact out ((exec_issues h (by rfl)).trans rfl) (fun l => by simp only [hval])
  · exact out ((exec_issues h (by rfl)).trans rfl) (fun l => by
      simp only [hval]
      split <;> omega)

/-- Settles O17: integers of a type and bit vectors of its width, one at a time. -/
theorem integerArithmetic : Obligations.IntegerArithmetic := ⟨integerArithmeticWraps, integerArithmeticSaturates⟩

/-! Bit operations. -/

/-- A count in the low seven bits of a source does not depend on the width that it is read with (R149). -/
theorem toNat_ofNat_mod_count (t : Ty) (x : Nat) : (BitVec.ofNat (widthOf t) x).toNat % 128 = x % 128 := by
  rw [BitVec.toNat_ofNat]
  exact Nat.mod_mod_of_dvd x (Nat.pow_dvd_pow 2 (Nat.le_trans (by decide : 7 ≤ 8) (widthOf_pos t)))

theorem shiftLeft_eq {w : Nat} (x : BitVec w) (b : Nat) : shiftLeft w x.toNat b = (x <<< (b % 128)).toNat := by
  rw [BitVec.toNat_shiftLeft, Nat.shiftLeft_eq, shiftLeft]
  split
  · next h =>
    obtain ⟨k, hk⟩ := Nat.exists_eq_add_of_le h
    rw [hk, Nat.pow_add, ← Nat.mul_assoc, Nat.mul_right_comm, Nat.mul_mod_left]
  · rfl

/-- Dividing by more than the width leaves the sign, as dividing by the width does. -/
theorem toInt_shift_min {w : Nat} (x : BitVec w) (n : Nat) : x.toInt / (2 ^ min n w : Nat) = x.toInt >>> n := by
  rw [Int.shiftRight_eq_div_pow]
  rcases Nat.le_total n w with h | h
  · rw [Nat.min_eq_left h]
  · have hlt : ∀ k, w ≤ k → x.toInt / ((2 ^ k : Nat) : Int) = if x.toInt < 0 then -1 else 0 := fun k hk => by
      have big : (2 ^ w : Int) ≤ ((2 ^ k : Nat) : Int) := by exact_mod_cast Nat.pow_le_pow_right (by decide) hk
      have up := BitVec.toInt_lt (x := x)
      have down := BitVec.le_toInt (x := x)
      have half : (2 : Int) ^ (w - 1) ≤ 2 ^ w := pow_le_pow_right₀ (by decide) (Nat.sub_le w 1)
      split
      · next neg => exact Int.ediv_eq_neg_one_of_neg_of_le neg (by omega)
      · next pos => exact Int.ediv_eq_zero_of_lt (Int.not_lt.mp pos) (by omega)
    rw [Nat.min_eq_right h, hlt w (Nat.le_refl w), hlt n h]

theorem shiftRight_eq (t : Ty) (x : BitVec (widthOf t)) (b : Nat) : shiftRight t (widthOf t) x.toNat b
    = (if isSigned t then x.sshiftRight (b % 128) else x >>> (b % 128)).toNat := by
  unfold shiftRight
  cases isSigned t
  · simp only [Bool.false_eq_true, if_false, BitVec.toNat_ushiftRight, Nat.shiftRight_eq_div_pow]
    split
    · next h => exact (Nat.div_eq_of_lt (Nat.lt_of_lt_of_le x.isLt (Nat.pow_le_pow_right (by decide) h))).symm
    · rfl
  · simp only [if_true]
    rw [sx_eq_toInt, BitVec.ofNat_toNat, BitVec.setWidth_eq, toInt_shift_min, wrap_eq_toNat]
    rfl

theorem rotLeft_eq {w : Nat} (x : BitVec w) (b : Nat) : rotLeft w x.toNat b = (x.rotateLeft (b % 128)).toNat := by
  rw [BitVec.toNat_rotateLeft, Nat.shiftLeft_eq, Nat.shiftRight_eq_div_pow, rotLeft]

/-- The length of a bit field from the low 32 bits of its control word (R150). -/
theorem ctlLen_mod (w x : Nat) : ctlLen w (x % 2 ^ 32) = min (x / 256 % 128) w := by
  unfold ctlLen fld
  congr 1
  omega

theorem ctlPos_mod (x : Nat) : ctlPos (x % 2 ^ 32) = x % 128 := by
  unfold ctlPos
  omega

/-- A field of a register, extended by the signedness of the type (R150). -/
theorem bitExtract_eq (t : Ty) (x : BitVec (widthOf t)) (ctl : Nat) :
    let f := (x >>> ctlPos ctl).setWidth (ctlLen (widthOf t) ctl)
    bitExtract t (widthOf t) x.toNat ctl = (if isSigned t then f.signExtend (widthOf t) else f.zeroExtend (widthOf t)).toNat := by
  intro f
  have hf : f.toNat = x.toNat / 2 ^ ctlPos ctl % 2 ^ ctlLen (widthOf t) ctl := by
    rw [BitVec.toNat_setWidth, BitVec.toNat_ushiftRight, Nat.shiftRight_eq_div_pow]
  have hlen : ctlLen (widthOf t) ctl ≤ widthOf t := Nat.min_le_right _ _
  clear_value f
  simp only [bitExtract, ← hf]
  cases isSigned t
  · simp only [Bool.false_and, Bool.false_eq_true, if_false]
    rw [BitVec.zeroExtend, BitVec.toNat_setWidth]
    exact (Nat.mod_eq_of_lt (Nat.lt_of_lt_of_le f.isLt (Nat.pow_le_pow_right (by decide) hlen))).symm
  · have hs : (f.signExtend (widthOf t)).toNat = wrap (widthOf t) (sx (ctlLen (widthOf t) ctl) f.toNat) := by
      rw [sx_eq_toInt, BitVec.ofNat_toNat, BitVec.setWidth_eq, wrap_eq_toNat]
      rfl
    simp only [Bool.true_and, if_true, hs]
    split
    · rfl
    · next h =>
      have zero : ctlLen (widthOf t) ctl = 0 := by simpa using h
      have f0 : f.toNat = 0 := by rw [hf, zero, Nat.pow_zero, Nat.mod_one]
      rw [f0, zero]
      simp [sx, wrap]

theorem not_eq {w : Nat} (x : BitVec w) : 2 ^ w - 1 - x.toNat = (~~~x).toNat := (BitVec.toNat_not).symm

theorem testBit_bitRev (w x k : Nat) : (bitRev w x).testBit k = (decide (k < w) && x.testBit (w - 1 - k)) := by
  induction w generalizing x k with
  | zero => simp [bitRev]
  | succ w ih =>
    have low : bitRev w (x / 2) < 2 ^ w := by
      refine Nat.lt_pow_two_of_testBit _ (fun i hi => ?_)
      rw [ih]
      simp [Nat.not_lt.mpr hi]
    have hbit : (x % 2).testBit (k - w) = (decide (k ≤ w) && x.testBit 0) := by
      rcases Nat.lt_or_ge w k with h | h
      · obtain ⟨j, hj⟩ := Nat.exists_eq_add_of_lt h
        have : k - w = j + 1 := by omega
        rw [this, Nat.testBit_succ, Nat.div_eq_of_lt (Nat.mod_lt _ (by decide)), Nat.zero_testBit]
        simp [h]
      · rw [Nat.sub_eq_zero_of_le h, Nat.testBit_zero, Nat.testBit_zero, Nat.mod_mod]
        simp [h]
    rw [bitRev, Nat.mul_comm, Nat.testBit_two_pow_mul_add _ low, ih, hbit, Nat.testBit_div_two]
    by_cases hk : k < w
    · have h1 : w - 1 - k + 1 = w + 1 - 1 - k := by omega
      simp [hk, h1, Nat.lt_succ_of_lt hk]
    · by_cases hw : k = w
      · simp [hw]
      · have h2 : ¬ k ≤ w := by omega
        have h3 : ¬ k < w + 1 := by omega
        simp [hk, h2, h3]

theorem bitRev_eq {w : Nat} (x : BitVec w) : bitRev w x.toNat = x.reverse.toNat := by
  refine Nat.eq_of_testBit_eq (fun k => ?_)
  rw [testBit_bitRev, BitVec.testBit_toNat, BitVec.testBit_toNat, BitVec.getLsbD_reverse, BitVec.getMsbD]

theorem popCount_eq (w x : Nat) : popCount w x = (List.range w).countP (fun k => x.testBit k) := by
  induction w generalizing x with
  | zero => rfl
  | succ w ih =>
    have tail : (List.range w).countP (x.testBit ∘ Nat.succ) = popCount w (x / 2) := by
      rw [ih]
      exact List.countP_congr (fun k _ => by simp [Nat.testBit_succ])
    have head : x % 2 = if x.testBit 0 = true then 1 else 0 := by
      rw [Nat.testBit_zero]
      rcases Nat.mod_two_eq_zero_or_one x with h | h <;> simp [h]
    rw [popCount, List.range_succ_eq_map, List.countP_cons, List.countP_map, tail, head, Nat.add_comm]

theorem popCount_le (w x : Nat) : popCount w x ≤ w := by
  rw [popCount_eq]
  exact (List.countP_le_length).trans (by simp)

theorem countLz_eq {w : Nat} (hw : 0 < w) (x : BitVec w) : countLz w x.toNat = x.clz.toNat := by
  unfold countLz
  rw [Nat.mod_eq_of_lt x.isLt]
  by_cases hx : x = 0#w
  · have hz : x.clz = w := BitVec.clz_eq_iff_eq_zero.mpr hx
    rw [hz, hx]
    simp [Nat.mod_eq_of_lt (Nat.lt_two_pow_self : w < 2 ^ w)]
  · have ne : x.toNat ≠ 0 := fun h => hx (BitVec.eq_of_toNat_eq (by simpa using h))
    have lower := BitVec.two_pow_sub_clz_le_toNat_of_ne_zero hw hx
    have upper := BitVec.toNat_lt_two_pow_sub_clz (x := x)
    have hc : x.clz.toNat < w := by
      have := BitVec.clz_lt_iff_ne_zero.mpr hx
      have h2 := BitVec.lt_def.mp this
      simpa [Nat.mod_eq_of_lt (Nat.lt_two_pow_self : w < 2 ^ w)] using h2
    have hlog : x.toNat.log2 = w - 1 - x.clz.toNat :=
      (Nat.log2_eq_iff ne).mpr ⟨lower, by rwa [show w - 1 - x.clz.toNat + 1 = w - x.clz.toNat by omega]⟩
    rw [if_neg ne, hlog]
    omega

/-- The bits of a register with a field put in (R150). -/
theorem testBit_bitInsert {w : Nat} (x y : BitVec w) (ctl : Nat) {k : Nat} (hk : k < w) :
    (bitInsert w x.toNat y.toNat ctl).testBit k =
      if decide (ctlPos ctl ≤ k) && decide (k < ctlPos ctl + ctlLen w ctl) then y.getLsbD (k - ctlPos ctl) else x.getLsbD k := by
  have hmask : ((2 ^ ctlLen w ctl - 1) * 2 ^ ctlPos ctl % 2 ^ w).testBit k
      = (decide (ctlPos ctl ≤ k) && decide (k < ctlPos ctl + ctlLen w ctl)) := by
    rw [Nat.testBit_mod_two_pow, Nat.mul_comm, Nat.testBit_two_pow_mul, Nat.testBit_two_pow_sub_one]
    by_cases h : ctlPos ctl ≤ k
    · have : k - ctlPos ctl < ctlLen w ctl ↔ k < ctlPos ctl + ctlLen w ctl := by omega
      simp [hk, h, this]
    · simp [h]
  have hfield : (y.toNat * 2 ^ ctlPos ctl % 2 ^ w).testBit k = (decide (ctlPos ctl ≤ k) && y.getLsbD (k - ctlPos ctl)) := by
    rw [Nat.testBit_mod_two_pow, Nat.mul_comm, Nat.testBit_two_pow_mul, BitVec.testBit_toNat]
    simp [hk]
  simp only [bitInsert, Nat.testBit_or, testBit_maskDiff, Nat.testBit_and, hmask, hfield, BitVec.testBit_toNat]
  by_cases h : ctlPos ctl ≤ k <;> by_cases h' : k < ctlPos ctl + ctlLen w ctl <;> simp [h, h']

theorem bitInsert_lt {w a b ctl : Nat} (ha : a < 2 ^ w) : bitInsert w a b ctl < 2 ^ w := by
  have hb : (b * 2 ^ ctlPos ctl % 2 ^ w) &&& ((2 ^ ctlLen w ctl - 1) * 2 ^ ctlPos ctl % 2 ^ w) < 2 ^ w :=
    Nat.lt_of_le_of_lt Nat.and_le_left (Nat.mod_lt _ (Nat.two_pow_pos w))
  have hd : maskDiff a ((2 ^ ctlLen w ctl - 1) * 2 ^ ctlPos ctl % 2 ^ w) < 2 ^ w :=
    Nat.xor_lt_two_pow ha (Nat.lt_of_le_of_lt Nat.and_le_left ha)
  exact Nat.or_lt_two_pow hd hb

/-- Settles O18: each operation on the bits of numbers is that on bit vectors; a field that is put in, bit by bit. -/
theorem integerBitOperations : Obligations.IntegerBitOperations := by
  refine ⟨?_, ?_, fun s c o hi h => ?_⟩
  · intro s c o x y n len gives
    have out : ∀ {i : Instr} {f : Nat → Nat → Nat → Nat} {r : Nat → BitVec (widthOf o.ty)}, exec i s = .next (s.bits2 o c f) →
        (∀ l, f (widthOf o.ty) (x l).toNat (y l).toNat = (r l).toNat) →
        exec i s = .next (s.vOut c o.g o.ty o.d 4 (fun l => regBits o.ty (r l))) := fun h hr =>
      vOut_gives h (fun l => by
        rw [s.low_eq, s.low_eq]
        exact (congrArg _ (hr l)).trans (extendTo_toNat _ _))
    have hn : ∀ l, (y l).toNat % 128 = n l := fun l => toNat_ofNat_mod_count o.ty _
    refine ⟨fun _ => ⟨fun h => ?_, fun h => ?_, fun h => ?_⟩, fun _ => ⟨fun h => ?_, fun h => ?_, fun h => ?_, fun h => ?_⟩⟩
    · exact out ((exec_issues h (by rfl)).trans rfl) (fun l => rfl)
    · exact out ((exec_issues h (by rfl)).trans rfl) (fun l => rfl)
    · exact out ((exec_issues h (by rfl)).trans rfl) (fun l => rfl)
    · exact out ((exec_issues h (by rfl)).trans rfl) (fun l => by rw [shiftLeft_eq, hn])
    · exact out ((exec_issues h (by rfl)).trans rfl) (fun l => by rw [shiftRight_eq, hn])
    · exact out ((exec_issues h (by rfl)).trans rfl) (fun l => by rw [rotLeft_eq, hn])
    · refine vOut_gives ((exec_issues h (by rfl)).trans rfl) (fun l => ?_)
      rw [s.low_eq, bitExtract_eq, extendTo_toNat, ctlLen_mod, ctlPos_mod]
  · intro s c o x gives
    have out : ∀ {i : Instr} {f : Nat → Nat → Nat} {r : Nat → BitVec (widthOf o.ty)}, exec i s = .next (s.bits1 o c f) →
        (∀ l, f (widthOf o.ty) (x l).toNat = (r l).toNat) →
        exec i s = .next (s.vOut c o.g o.ty o.d 4 (fun l => regBits o.ty (r l))) := fun h hr =>
      vOut_gives h (fun l => by
        rw [s.low_eq]
        exact (congrArg _ (hr l)).trans (extendTo_toNat _ _))
    refine ⟨fun _ => ⟨fun h => ?_, fun h => ?_⟩, fun _ => ⟨fun h => ?_, fun h => ?_⟩⟩
    · exact out ((exec_issues h (by rfl)).trans rfl) (fun l => not_eq (x l))
    · exact out ((exec_issues h (by rfl)).trans rfl) (fun l => bitRev_eq (x l))
    · refine out ((exec_issues h (by rfl)).trans rfl) (fun l => ?_)
      have hcount : popCount (widthOf o.ty) (x l).toNat = (List.range (widthOf o.ty)).countP (fun k => (x l).getLsbD k) := popCount_eq _ _
      rw [BitVec.toNat_ofNat, ← hcount]
      exact (Nat.mod_eq_of_lt (Nat.lt_of_le_of_lt (popCount_le _ _) Nat.lt_two_pow_self)).symm
    · exact out ((exec_issues h (by rfl)).trans rfl) (fun l => countLz_eq (Nat.lt_of_lt_of_le (by decide) (widthOf_pos o.ty)) (x l))
  · intro x y pos len inside
    let r : Nat → BitVec (widthOf o.ty) := fun l =>
      BitVec.ofNat _ (bitInsert (widthOf o.ty) (x l).toNat (y l).toNat (s.operand c o.c l o.ty % 2 ^ 32))
    have hr : ∀ l, (r l).toNat = bitInsert (widthOf o.ty) (x l).toNat (y l).toNat (s.operand c o.c l o.ty % 2 ^ 32) := fun l => by
      rw [BitVec.toNat_ofNat]
      exact Nat.mod_eq_of_lt (bitInsert_lt (x l).isLt)
    refine ⟨r, vOut_gives ((exec_issues h (by rfl)).trans rfl) (fun l => ?_), fun l k hk => ?_⟩
    · rw [← extendTo_toNat, hr, s.low_eq, s.low_eq]
    · rw [← BitVec.testBit_toNat, hr, testBit_bitInsert _ _ _ hk, ctlLen_mod, ctlPos_mod]

end Sys2Proof.Machine
end

section
/-! Exact values and rounding (R60, R61, R69, R151, R152). -/

namespace Sys2Proof.Machine

/-! Exact values as rationals. -/

theorem two_zpow_pos (e : Int) : (0 : Rat) < 2 ^ e := zpow_pos (by decide) e

@[simp] theorem exVal_fin_false (m : Nat) (e : Int) : exVal (.fin false m e) = m * 2 ^ e := by simp [exVal]

@[simp] theorem exVal_fin_true (m : Nat) (e : Int) : exVal (.fin true m e) = -(m * 2 ^ e) := by simp [exVal]

@[simp] theorem exVal_fin_zero (neg : Bool) (e : Int) : exVal (.fin neg 0 e) = 0 := by simp [exVal]

theorem exVal_fin_neg (neg : Bool) (m : Nat) (e : Int) : exVal (.fin (!neg) m e) = -exVal (.fin neg m e) := by cases neg <;> simp

theorem abs_exVal_fin (neg : Bool) (m : Nat) (e : Int) : |exVal (.fin neg m e)| = m * 2 ^ e := by
  have : (0 : Rat) ≤ m * 2 ^ e := mul_nonneg (Nat.cast_nonneg m) (two_zpow_pos e).le
  cases neg
  · rw [exVal_fin_false, abs_of_nonneg this]
  · rw [exVal_fin_true, abs_neg, abs_of_nonneg this]

/-- A significand moved to a smaller exponent has the same value. -/
theorem alignTo_mul (neg : Bool) (m : Nat) {e q : Int} (h : q ≤ e) : (alignTo neg m e q : Rat) * 2 ^ q = exVal (.fin neg m e) := by
  have hpow : (2 : Rat) ^ (e - q).toNat * 2 ^ q = 2 ^ e := by
    rw [← zpow_natCast, ← zpow_add₀ (by decide), Int.toNat_of_nonneg (Int.sub_nonneg_of_le h), Int.sub_add_cancel]
  cases neg <;> simp [alignTo, mul_assoc, hpow]

/-- An integer at an exponent, by its sign and magnitude. -/
theorem exVal_ofInt (s q : Int) : exVal (.fin (decide (s < 0)) s.natAbs q) = s * 2 ^ q := by
  have habs : ((s.natAbs : Nat) : Rat) = |(s : Rat)| := by rw [← Int.cast_abs, Int.abs_eq_natAbs, Int.cast_natCast]
  by_cases h : s < 0
  · rw [decide_eq_true h, exVal_fin_true, habs, abs_of_neg (by exact_mod_cast h)]
    ring
  · rw [decide_eq_false h, exVal_fin_false, habs, abs_of_nonneg (by exact_mod_cast Int.not_lt.mp h)]

/-- The exact sum of finite values (R152). -/
theorem exVal_exAdd (a b : Bool) (m n : Nat) (e f : Int) (down : Bool) :
    exVal (exAdd down (.fin a m e) (.fin b n f)) = exVal (.fin a m e) + exVal (.fin b n f) := by
  rw [exAdd]
  by_cases hm : m = 0
  · by_cases hn : n = 0
    · simp [hm, hn]
    · simp [hm, hn]
  · by_cases hn : n = 0
    · simp [hm, hn]
    · rw [if_neg (fun h => hm h.1), if_neg hm, if_neg hn, ← alignTo_mul a m (min_le_left e f), ← alignTo_mul b n (min_le_right e f),
        ← add_mul, ← Int.cast_add]
      simp only []
      split
      · next h => rw [h]; simp
      · exact exVal_ofInt _ _

/-- The exact product of finite values (R152). -/
theorem exVal_exMul (a b : Bool) (m n : Nat) (e f : Int) :
    exVal (exMul (.fin a m e) (.fin b n f)) = exVal (.fin a m e) * exVal (.fin b n f) := by
  cases a <;> cases b <;> simp [exMul, zpow_add₀] <;> ring

/-- The order of finite values is that of rationals. -/
theorem finLt_iff (a b : Bool) (m n : Nat) (e f : Int) : finLt a m e b n f = true ↔ exVal (.fin a m e) < exVal (.fin b n f) := by
  rw [finLt, decide_eq_true_eq, ← alignTo_mul a m (min_le_left e f), ← alignTo_mul b n (min_le_right e f),
    mul_lt_mul_iff_left₀ (two_zpow_pos _), Int.cast_lt]

theorem exactArithmeticIsRational : Claims.ExactArithmeticIsRational := by
  intro a b m n e f down x y
  refine ⟨exVal_exAdd a b m n e f down, ?_, exVal_exMul a b m n e f, finLt_iff a b m n e f, ?_⟩
  · exact (exVal_exAdd a (!b) m n e f down).trans (by rw [exVal_fin_neg, ← sub_eq_add_neg])
  · show (!(finLt a m e b n f) && !(finLt b n f a m e)) = true ↔ _
    rw [Bool.and_eq_true, Bool.not_eq_true', Bool.not_eq_true', ← Bool.not_eq_true, ← Bool.not_eq_true, finLt_iff, finLt_iff, not_lt,
      not_lt]
    exact ⟨fun h => le_antisymm h.2 h.1, fun h => ⟨h.ge, h.le⟩⟩

/-! Float arithmetic. -/

theorem latOf_flt {t : Ty} (h : isFlt t = true) : latOf t = if t = .f64 then 10 else 6 := by
  cases t <;> first | rfl | exact absurd h (by decide)

/-- A NaN source of a sum gives a NaN. -/
theorem exAdd_nan (d : Bool) {x y : Ex} (h : x = .nan ∨ y = .nan) : exAdd d x y = .nan := by
  rcases h with rfl | rfl
  · cases y <;> rfl
  · cases x <;> rfl

/-- A NaN source of a product gives a NaN. -/
theorem exMul_nan {x y : Ex} (h : x = .nan ∨ y = .nan) : exMul x y = .nan := by
  rcases h with rfl | rfl
  · cases y <;> rfl
  · cases x <;> rfl

theorem roundEx_of_nan {x : Ex} (h : x = .nan) (f : Fmt) (rm : Rm) (sat : Bool) (r : Nat) : roundEx x f rm sat r = f.nan := by
  rw [h]
  rfl

theorem floatArithmeticRoundsOnce : Claims.FloatArithmeticRoundsOnce := by
  refine ⟨?_, fun s c o hf h => ?_⟩
  · intro s c o hf x down lat out gives
    have hlat : lat = latOf o.ty := (latOf_flt hf).symm
    refine ⟨fun h => ⟨?_, fun l j hn => ?_⟩, fun h => ⟨?_, fun l j hn => ?_⟩, fun h => ⟨?_, fun l j hn => ?_⟩⟩
    · show _ = Host.Outcome.next (s.vOut c o.g o.ty o.d lat _)
      rw [hlat]
      exact (exec_issues h (by rfl)).trans rfl
    · exact roundEx_of_nan (exAdd_nan down hn) _ _ _ _
    · show _ = Host.Outcome.next (s.vOut c o.g o.ty o.d lat _)
      rw [hlat]
      exact (exec_issues h (by rfl)).trans rfl
    · exact roundEx_of_nan (exAdd_nan down (hn.imp_right (fun h => by rw [h]; rfl))) _ _ _ _
    · show _ = Host.Outcome.next (s.vOut c o.g o.ty o.d lat _)
      rw [hlat]
      exact (exec_issues h (by rfl)).trans rfl
    · exact roundEx_of_nan (exMul_nan hn) _ _ _ _
  · intro x r
    refine ⟨?_, fun l j hn => ?_⟩
    · rw [← latOf_flt hf]
      exact (exec_issues h (by rfl)).trans rfl
    · refine roundEx_of_nan (exAdd_nan _ ?_) _ _ _ _
      rcases hn with hn | hn | hn
      · exact .inl (exMul_nan (.inl hn))
      · exact .inl (exMul_nan (.inr hn))
      · exact .inr hn

/-- Settles O19: exact values by rationals, and each result by the one rounding of its exact value. -/
theorem floatArithmetic : Obligations.FloatArithmetic := ⟨exactArithmeticIsRational, floatArithmeticRoundsOnce⟩

/-! Formats. -/

/-- The number of the largest finite encoding of a format. -/
def Fmt.last (f : Fmt) : Nat := (f.top - (f.mb : Int) - qMin f).toNat * 2 ^ f.mb + f.maxN

/-- What the formats of R60 have in common: the largest significand has a leading one at the largest exponent, and every encoding up to
the largest finite one is finite. -/
structure Fmt.Good (f : Fmt) : Prop where
  sig : 2 ^ f.mb ≤ f.maxN ∧ f.maxN < 2 * 2 ^ f.mb
  exp : qMin f ≤ f.top - (f.mb : Int)
  room : f.last < 2 ^ f.eb * 2 ^ f.mb
  ieee : f.ieee = true → f.last < (2 ^ f.eb - 1) * 2 ^ f.mb
  nan : f.nan = 0x7F → f.mb = 3 → f.last < 15 * 2 ^ f.mb + 7

theorem fmtOf_good (t : Ty) : (fmtOf t).Good := by
  cases t <;> exact ⟨by decide, by decide, by decide, by decide, by decide⟩

/-- The fields of an encoding by sign and number. -/
theorem fld_enc (f : Fmt) (neg : Bool) {j : Nat} (hj : j < 2 ^ f.eb * 2 ^ f.mb) :
    fld (signBit f neg + j) 0 f.mb = j % 2 ^ f.mb ∧ fld (signBit f neg + j) f.mb f.eb = j / 2 ^ f.mb
      ∧ (fld (signBit f neg + j) (f.eb + f.mb) 1 = 1 ↔ neg = true) := by
  have hs : signBit f neg = neg.toNat * (2 ^ f.eb * 2 ^ f.mb) := by
    cases neg <;> simp [signBit, Nat.pow_add]
  have hm := Nat.two_pow_pos f.mb
  have he : j / 2 ^ f.mb < 2 ^ f.eb := (Nat.div_lt_iff_lt_mul hm).mpr hj
  have hdiv : (signBit f neg + j) / 2 ^ f.mb = neg.toNat * 2 ^ f.eb + j / 2 ^ f.mb := by
    rw [hs, ← Nat.mul_assoc, Nat.add_comm, Nat.add_mul_div_right _ _ hm, Nat.add_comm]
  refine ⟨?_, ?_, ?_⟩
  · rw [fld, Nat.pow_zero, Nat.div_one, hs, ← Nat.mul_assoc, Nat.add_comm, Nat.add_mul_mod_self_right]
  · rw [fld, hdiv, Nat.add_comm, Nat.add_mul_mod_self_right, Nat.mod_eq_of_lt he]
  · rw [fld, Nat.add_comm f.eb, Nat.pow_add, ← Nat.div_div_eq_div_mul, hdiv, Nat.add_comm, Nat.add_mul_div_right _ _ (Nat.two_pow_pos _),
      Nat.div_eq_of_lt he]
    cases neg <;> simp

/-- A finite encoding by its number: the significand and the exponent that its fields give (R60). -/
theorem decodeF_enc {f : Fmt} (hf : f.Good) (neg : Bool) {j : Nat} (hj : j ≤ f.last) : decodeF f (signBit f neg + j) =
    if j / 2 ^ f.mb = 0 then .fin neg (j % 2 ^ f.mb) (qMin f)
    else .fin neg (j % 2 ^ f.mb + 2 ^ f.mb) (qMin f + ((j / 2 ^ f.mb : Nat) : Int) - 1) := by
  obtain ⟨h0, h1, h2⟩ := fld_enc f neg (Nat.lt_of_le_of_lt hj hf.room)
  have hm := Nat.two_pow_pos f.mb
  have notInf : ¬ (f.ieee && decide (j / 2 ^ f.mb = 2 ^ f.eb - 1)) = true := fun h => by
    obtain ⟨hi, he⟩ := Bool.and_eq_true_iff.mp h
    have := hf.ieee hi
    rw [← of_decide_eq_true he] at this
    have := Nat.div_mul_le_self j (2 ^ f.mb)
    omega
  have notNan : ¬ (f.nan = 0x7F && f.mb = 3 && j / 2 ^ f.mb = 15 && j % 2 ^ f.mb = 7) = true := fun h => by
    simp only [Bool.and_eq_true, decide_eq_true_eq] at h
    obtain ⟨⟨⟨hn, hmb⟩, he⟩, hr⟩ := h
    have := hf.nan hn hmb
    have := Nat.div_add_mod j (2 ^ f.mb)
    rw [he, hr, Nat.mul_comm] at this
    omega
  have hneg : decide (fld (signBit f neg + j) (f.eb + f.mb) 1 = 1) = neg := by
    cases neg <;> simp [h2]
  simp only [decodeF, h0, h1, hneg]
  rw [if_neg notInf, if_neg notNan]

/-- A significand at a step of the format, encoded: its number decodes to its value (R60, R69). -/
theorem decodeF_step {f : Fmt} (hf : f.Good) (neg : Bool) {k n : Nat} (hlead : k = 0 ∨ 2 ^ f.mb ≤ n) (htop : n ≤ 2 * 2 ^ f.mb)
    (hlast : k * 2 ^ f.mb + n ≤ f.last) :
    ∃ n' g, decodeF f (signBit f neg + (k * 2 ^ f.mb + n)) = .fin neg n' g ∧ (n' : Rat) * 2 ^ g = n * 2 ^ (qMin f + k) := by
  have hm := Nat.two_pow_pos f.mb
  rw [decodeF_enc hf neg hlast]
  have hdiv : (k * 2 ^ f.mb + n) / 2 ^ f.mb = k + n / 2 ^ f.mb := by
    rw [Nat.add_comm, Nat.add_mul_div_right _ _ hm, Nat.add_comm]
  have hmod : (k * 2 ^ f.mb + n) % 2 ^ f.mb = n % 2 ^ f.mb := by rw [Nat.add_comm, Nat.add_mul_mod_self_right]
  rw [hdiv, hmod]
  rcases Nat.lt_or_ge n (2 ^ f.mb) with small | large
  · have hk : k = 0 := hlead.resolve_right (Nat.not_le.mpr small)
    rw [hk, Nat.div_eq_of_lt small, Nat.mod_eq_of_lt small]
    exact ⟨n, qMin f, by simp, by simp⟩
  · rcases Nat.lt_or_eq_of_le htop with lt | eq
    · have h1 : n / 2 ^ f.mb = 1 := Nat.div_eq_of_lt_le (by omega) (by omega)
      have h2 : n % 2 ^ f.mb + 2 ^ f.mb = n := by
        have := Nat.div_add_mod n (2 ^ f.mb)
        rw [h1] at this
        omega
      rw [h1, h2, if_neg (Nat.succ_ne_zero k)]
      refine ⟨n, _, rfl, ?_⟩
      push_cast
      congr 2
      omega
    · have h1 : n / 2 ^ f.mb = 2 := by rw [eq, Nat.mul_div_cancel _ hm]
      have h2 : n % 2 ^ f.mb = 0 := by rw [eq, Nat.mul_mod_left]
      rw [h1, h2, if_neg (by omega)]
      refine ⟨_, _, rfl, ?_⟩
      have he : qMin f + ((k + 2 : Nat) : Int) - 1 = qMin f + k + 1 := by push_cast; omega
      rw [he, zpow_add_one₀ (by decide), eq]
      push_cast
      ring

/-- A finite value of a format is a significand of its width at a step that it has. -/
theorem decodeF_fin {f : Fmt} {z : Nat} {b : Bool} {k : Nat} {g : Int} (h : decodeF f z = .fin b k g) :
    qMin f ≤ g ∧ k < 2 * 2 ^ f.mb := by
  have hm : fld z 0 f.mb < 2 ^ f.mb := Nat.mod_lt _ (Nat.two_pow_pos _)
  simp only [decodeF] at h
  split at h
  · split at h <;> cases h
  · split at h
    · cases h
    · split at h
      · cases h
        exact ⟨le_refl _, by omega⟩
      · next he =>
        cases h
        refine ⟨?_, by omega⟩
        have : 1 ≤ fld z f.mb f.eb := Nat.one_le_iff_ne_zero.mpr he
        omega

/-! Rounding to a grid. -/

/-- The rounded significand of a multiple of the step is exact. -/
theorem roundSig_exact (mode : Rm) (neg : Bool) (m : Nat) {e q : Int} (r : Nat) (h : q ≤ e) :
    (roundSig mode neg m e q r : Rat) * 2 ^ q = m * 2 ^ e := by
  rw [roundSig, if_pos h, Nat.cast_mul, Nat.cast_pow, mul_assoc, Nat.cast_ofNat, ← zpow_natCast, ← zpow_add₀ (by decide),
    Int.toNat_of_nonneg (Int.sub_nonneg_of_le h), Int.sub_add_cancel]

/-- What a value that lies below the step is made of: its significand divided by a power of two. -/
theorem mul_zpow_below (m : Nat) {e q : Int} (h : ¬ q ≤ e) : (m : Rat) * 2 ^ e = (m : Rat) / (2 ^ (q - e).toNat : Nat) * 2 ^ q := by
  have hs : q = e + ((q - e).toNat : Int) := by omega
  have hpos : (2 : Rat) ^ (q - e).toNat ≠ 0 := pow_ne_zero _ (by decide)
  conv_rhs => rw [hs, add_sub_cancel_left, Int.toNat_natCast]
  rw [zpow_add₀ (by decide), zpow_natCast, Nat.cast_pow, Nat.cast_ofNat]
  field_simp

/-- The significand of a value below the step is one of its neighbours on the grid. -/
theorem roundSig_below (mode : Rm) (neg : Bool) (m : Nat) {e q : Int} (r : Nat) (h : ¬ q ≤ e) : roundSig mode neg m e q r =
    if stepsUp mode neg (m / 2 ^ (q - e).toNat) (m % 2 ^ (q - e).toNat) (q - e).toNat r then m / 2 ^ (q - e).toNat + 1
    else m / 2 ^ (q - e).toNat := if_neg h

/-- An exact quotient does not step up. -/
theorem stepsUp_rem_ne_zero {mode : Rm} {neg : Bool} {n rem s r : Nat} (h : stepsUp mode neg n rem s r = true) : rem ≠ 0 := by
  rintro rfl
  have := Nat.two_pow_pos s
  cases mode <;> simp [stepsUp] at h
  omega

/-- A grid point not above the value is not above its significand. -/
theorem le_roundSig (mode : Rm) (neg : Bool) {m a : Nat} {e q : Int} (r : Nat) (h : (a : Rat) * 2 ^ q ≤ m * 2 ^ e) :
    a ≤ roundSig mode neg m e q r := by
  have hq := two_zpow_pos q
  by_cases hqe : q ≤ e
  · rw [← roundSig_exact mode neg m r hqe] at h
    exact_mod_cast le_of_mul_le_mul_right h hq
  · have hN : (0 : Rat) < (2 ^ (q - e).toNat : Nat) := by exact_mod_cast Nat.two_pow_pos _
    rw [mul_zpow_below m hqe] at h
    have h1 := (le_div_iff₀ hN).mp (le_of_mul_le_mul_right h hq)
    have h2 : a ≤ m / 2 ^ (q - e).toNat := (Nat.le_div_iff_mul_le (Nat.two_pow_pos _)).mpr (by exact_mod_cast h1)
    rw [roundSig_below mode neg m r hqe]
    split <;> omega

/-- A grid point not below the value is not below its significand. -/
theorem roundSig_le (mode : Rm) (neg : Bool) {m b : Nat} {e q : Int} (r : Nat) (h : (m : Rat) * 2 ^ e ≤ b * 2 ^ q) :
    roundSig mode neg m e q r ≤ b := by
  have hq := two_zpow_pos q
  by_cases hqe : q ≤ e
  · rw [← roundSig_exact mode neg m r hqe] at h
    exact_mod_cast le_of_mul_le_mul_right h hq
  · have hN : (0 : Rat) < (2 ^ (q - e).toNat : Nat) := by exact_mod_cast Nat.two_pow_pos _
    rw [mul_zpow_below m hqe] at h
    have h1 : m ≤ b * 2 ^ (q - e).toNat := by exact_mod_cast (div_le_iff₀ hN).mp (le_of_mul_le_mul_right h hq)
    rw [roundSig_below mode neg m r hqe]
    split
    · next up =>
      have hrem := stepsUp_rem_ne_zero up
      have hdm := Nat.div_add_mod m (2 ^ (q - e).toNat)
      exact (Nat.div_lt_iff_lt_mul (Nat.two_pow_pos _)).mpr (Nat.lt_of_le_of_ne h1 (fun heq => hrem (by rw [heq, Nat.mul_mod_left])))
    · exact Nat.div_le_of_le_mul (by rwa [Nat.mul_comm])

/-- Modes that round a magnitude toward zero. -/
theorem roundSig_toward (mode : Rm) (neg : Bool) (m : Nat) (e q : Int) (r : Nat) (hmode : ∀ n rem s, stepsUp mode neg n rem s r = false) :
    (roundSig mode neg m e q r : Rat) * 2 ^ q ≤ m * 2 ^ e := by
  by_cases hqe : q ≤ e
  · exact (roundSig_exact mode neg m r hqe).le
  · have hN : (0 : Rat) < (2 ^ (q - e).toNat : Nat) := by exact_mod_cast Nat.two_pow_pos _
    rw [roundSig_below mode neg m r hqe, hmode, if_neg Bool.false_ne_true, mul_zpow_below m hqe]
    refine mul_le_mul_of_nonneg_right ((le_div_iff₀ hN).mpr ?_) (two_zpow_pos q).le
    exact_mod_cast Nat.div_mul_le_self m _

/-- Modes that round a magnitude away from zero. -/
theorem roundSig_away (mode : Rm) (neg : Bool) (m : Nat) (e q : Int) (r : Nat)
    (hmode : ∀ n rem s, stepsUp mode neg n rem s r = decide (rem ≠ 0)) :
    (m : Rat) * 2 ^ e ≤ (roundSig mode neg m e q r : Rat) * 2 ^ q := by
  by_cases hqe : q ≤ e
  · exact (roundSig_exact mode neg m r hqe).ge
  · have hN : (0 : Rat) < (2 ^ (q - e).toNat : Nat) := by exact_mod_cast Nat.two_pow_pos _
    rw [roundSig_below mode neg m r hqe, hmode, mul_zpow_below m hqe]
    refine mul_le_mul_of_nonneg_right ((div_le_iff₀ hN).mpr ?_) (two_zpow_pos q).le
    have hdm := Nat.div_add_mod m (2 ^ (q - e).toNat)
    have hlt := Nat.mod_lt m (Nat.two_pow_pos (q - e).toNat)
    rw [Nat.mul_comm] at hdm
    split
    · have : m ≤ (m / 2 ^ (q - e).toNat + 1) * 2 ^ (q - e).toNat := by rw [Nat.succ_mul]; omega
      exact_mod_cast this
    · next h0 =>
      have : m ≤ m / 2 ^ (q - e).toNat * 2 ^ (q - e).toNat := by simp at h0; omega
      exact_mod_cast this

/-- Of the multiples of `N`, none is nearer to a number than its nearer neighbour. -/
theorem nearest_multiple {N a b n : Nat} (hn : (n = a ∧ 2 * b ≤ N) ∨ (n = a + 1 ∧ N ≤ 2 * b)) (hb : b < N) (k : Int) :
    |((a * N + b : Nat) : Int) - n * N| ≤ |((a * N + b : Nat) : Int) - k * N| := by
  have side : (k - a) * N ≤ 0 ∨ (N : Int) ≤ (k - a) * N := by
    rcases lt_or_ge (a : Int) k with h | h
    · exact .inr (le_mul_of_one_le_left (by omega) (by omega))
    · exact .inl (Int.mul_nonpos_of_nonpos_of_nonneg (by omega) (by omega))
  have hk : ((a * N + b : Nat) : Int) - k * N = b - (k - a) * N := by push_cast; ring
  have hv : ((a * N + b : Nat) : Int) - n * N = if n = a then (b : Int) else b - N := by
    rcases hn with ⟨rfl, _⟩ | ⟨rfl, _⟩
    · simp
    · simp only [Nat.succ_ne_self, if_false]; push_cast; ring
  rw [hk, hv]
  rcases hn with ⟨rfl, hle⟩ | ⟨rfl, hle⟩
  · rw [if_pos rfl, abs_of_nonneg (by omega)]
    rcases side with h | h
    · exact le_abs.mpr (.inl (by omega))
    · exact le_abs.mpr (.inr (by omega))
  · rw [if_neg (Nat.succ_ne_self a), abs_of_neg (by omega)]
    rcases side with h | h
    · exact le_abs.mpr (.inl (by omega))
    · exact le_abs.mpr (.inr (by omega))

/-- Rounding to nearest takes the nearest grid point (R69). -/
theorem roundSig_rne_nearest (neg : Bool) (m : Nat) (e q : Int) (r : Nat) (k : Int) :
    |(m : Rat) * 2 ^ e - roundSig .rne neg m e q r * 2 ^ q| ≤ |(m : Rat) * 2 ^ e - k * 2 ^ q| := by
  by_cases hqe : q ≤ e
  · rw [roundSig_exact .rne neg m r hqe, sub_self, abs_zero]
    exact abs_nonneg _
  · have hNpos := Nat.two_pow_pos (q - e).toNat
    have hn : ∀ N a b : Nat, N = 2 ^ (q - e).toNat → a = m / N → b = m % N →
        ((roundSig .rne neg m e q r = a ∧ 2 * b ≤ N) ∨ (roundSig .rne neg m e q r = a + 1 ∧ N ≤ 2 * b)) := by
      rintro N a b rfl rfl rfl
      rw [roundSig_below .rne neg m r hqe]
      by_cases up : stepsUp .rne neg (m / 2 ^ (q - e).toNat) (m % 2 ^ (q - e).toNat) (q - e).toNat r = true
      · rw [if_pos up]
        simp only [stepsUp, Bool.or_eq_true, Bool.and_eq_true, decide_eq_true_eq] at up
        exact .inr ⟨rfl, by omega⟩
      · rw [if_neg up]
        simp only [stepsUp, Bool.or_eq_true, Bool.and_eq_true, decide_eq_true_eq, not_or] at up
        exact .inl ⟨rfl, by omega⟩
    have near := nearest_multiple (hn _ _ _ rfl rfl rfl) (Nat.mod_lt m hNpos) k
    have hm : m / 2 ^ (q - e).toNat * 2 ^ (q - e).toNat + m % 2 ^ (q - e).toNat = m := by
      rw [Nat.mul_comm]
      exact Nat.div_add_mod m _
    rw [hm] at near
    have hN : (0 : Rat) < (2 ^ (q - e).toNat : Nat) := by exact_mod_cast hNpos
    have scaled : ∀ y : Rat, |(m : Rat) / (2 ^ (q - e).toNat : Nat) * 2 ^ q - y * 2 ^ q|
        = |(m : Rat) - y * (2 ^ (q - e).toNat : Nat)| * (2 ^ q / (2 ^ (q - e).toNat : Nat)) := fun y => by
      rw [← abs_of_pos (div_pos (two_zpow_pos q) hN), ← abs_mul]
      congr 1
      field_simp
    rw [mul_zpow_below m hqe, scaled, scaled]
    refine mul_le_mul_of_nonneg_right ?_ (div_pos (two_zpow_pos q) hN).le
    exact_mod_cast near

/-! Rounding to a format. -/

/-- The step of the grid on which a value of a format's range is rounded (R69). -/
def Fmt.step (f : Fmt) (m : Nat) (e : Int) : Int := max (qMin f) (min ((m.log2 : Int) + e) f.top - (f.mb : Int))

/-- The largest finite value of a format. -/
def Fmt.big (f : Fmt) : Rat := f.maxN * 2 ^ (f.top - (f.mb : Int))

theorem exVal_maxEnc {f : Fmt} (hf : f.Good) : exVal (decodeF f (maxEnc f false)) = f.big := by
  obtain ⟨n', g, hd, hv⟩ := decodeF_step hf false (k := (f.top - (f.mb : Int) - qMin f).toNat) (n := f.maxN) (.inr hf.sig.1) hf.sig.2.le
    (le_refl _)
  have henc : maxEnc f false = signBit f false + ((f.top - (f.mb : Int) - qMin f).toNat * 2 ^ f.mb + f.maxN) := Nat.add_assoc _ _ _
  rw [henc, hd, exVal_fin_false, hv, Int.toNat_of_nonneg (Int.sub_nonneg_of_le hf.exp), Fmt.big]
  congr 2
  omega

/-- The leading power of two of a value. -/
theorem log2_bounds {m : Nat} (hm : m ≠ 0) (e : Int) :
    (2 : Rat) ^ ((m.log2 : Int) + e) ≤ m * 2 ^ e ∧ (m : Rat) * 2 ^ e < 2 ^ ((m.log2 : Int) + e + 1) := by
  have lo : ((2 ^ m.log2 : Nat) : Rat) ≤ m := by exact_mod_cast Nat.log2_self_le hm
  have hi : (m : Rat) < (2 ^ (m.log2 + 1) : Nat) := by exact_mod_cast Nat.lt_log2_self
  have hcomm : (m.log2 : Int) + e + 1 = ((m.log2 + 1 : Nat) : Int) + e := by push_cast; omega
  rw [hcomm, zpow_add₀ (by decide), zpow_add₀ (by decide), zpow_natCast, zpow_natCast]
  push_cast at lo hi
  exact ⟨mul_le_mul_of_nonneg_right lo (two_zpow_pos e).le, mul_lt_mul_of_pos_right hi (two_zpow_pos e)⟩

/-- What a value in a format's range says of its step: it is a step that the format has, and one above the least only if the value has
the format's full significand on it. -/
theorem Fmt.step_spec {f : Fmt} (hf : f.Good) {m : Nat} (hm : m ≠ 0) {e : Int} (hbig : (m : Rat) * 2 ^ e ≤ f.big) :
    qMin f ≤ f.step m e ∧ f.step m e ≤ f.top - (f.mb : Int)
      ∧ (f.step m e = qMin f ∨ ((2 ^ f.mb : Nat) : Rat) * 2 ^ f.step m e ≤ m * 2 ^ e)
      ∧ (m : Rat) * 2 ^ e ≤ ((2 * 2 ^ f.mb : Nat) : Rat) * 2 ^ f.step m e := by
  obtain ⟨lo, hi⟩ := log2_bounds hm e
  have hexp := hf.exp
  have pow_sig : ∀ q : Int, ((2 ^ f.mb : Nat) : Rat) * 2 ^ q = 2 ^ ((f.mb : Int) + q) := fun q => by
    rw [zpow_add₀ (by decide), zpow_natCast]; push_cast; rfl
  have pow_sig2 : ∀ q : Int, ((2 * 2 ^ f.mb : Nat) : Rat) * 2 ^ q = 2 ^ ((f.mb : Int) + q + 1) := fun q => by
    rw [zpow_add_one₀ (by decide), ← pow_sig]; push_cast; ring
  have hle : f.step m e ≤ f.top - (f.mb : Int) := by unfold Fmt.step; omega
  refine ⟨le_max_left _ _, hle, ?_, ?_⟩
  · by_cases h : f.step m e = qMin f
    · exact .inl h
    · refine .inr ?_
      rw [pow_sig]
      refine le_trans (zpow_le_zpow_right₀ (by decide) ?_) lo
      unfold Fmt.step at h ⊢
      omega
  · have below : (m.log2 : Int) + e ≤ f.top := by
      by_contra h
      have h1 : (2 : Rat) ^ (f.top + 1) ≤ m * 2 ^ e := le_trans (zpow_le_zpow_right₀ (by decide) (by omega)) lo
      have h2 : f.big < ((2 * 2 ^ f.mb : Nat) : Rat) * 2 ^ (f.top - (f.mb : Int)) :=
        mul_lt_mul_of_pos_right (by exact_mod_cast hf.sig.2) (two_zpow_pos _)
      rw [pow_sig2, show (f.mb : Int) + (f.top - f.mb) + 1 = f.top + 1 by omega] at h2
      exact absurd (lt_of_le_of_lt (h1.trans hbig) h2) (lt_irrefl _)
    rw [pow_sig2]
    refine hi.le.trans (zpow_le_zpow_right₀ (by decide) ?_)
    unfold Fmt.step
    omega

/-- A value in a format's range is rounded, in every mode, to the finite encoding of its significand on its step (R69, R70). -/
theorem decodeF_roundEx {f : Fmt} (hf : f.Good) (neg : Bool) {m : Nat} (hm : m ≠ 0) {e : Int} (hbig : (m : Rat) * 2 ^ e ≤ f.big)
    (mode : Rm) (r : Nat) : ∃ n' g, decodeF f (roundEx (.fin neg m e) f mode false r) = .fin neg n' g
      ∧ (n' : Rat) * 2 ^ g = roundSig mode neg m e (f.step m e) r * 2 ^ f.step m e := by
  obtain ⟨h1, h2, h3, h4⟩ := Fmt.step_spec hf hm hbig
  have htop : roundSig mode neg m e (f.step m e) r ≤ 2 * 2 ^ f.mb := roundSig_le mode neg r h4
  have hmax : f.step m e = f.top - (f.mb : Int) → roundSig mode neg m e (f.step m e) r ≤ f.maxN := fun h => by
    refine roundSig_le mode neg r ?_
    rw [h]
    exact hbig
  have hlead : (f.step m e - qMin f).toNat = 0 ∨ 2 ^ f.mb ≤ roundSig mode neg m e (f.step m e) r :=
    h3.imp (fun h => by omega) (fun h => le_roundSig mode neg r h)
  have hlast : (f.step m e - qMin f).toNat * 2 ^ f.mb + roundSig mode neg m e (f.step m e) r ≤ f.last := by
    have hsig := hf.sig.1
    unfold Fmt.last
    by_cases h : f.step m e = f.top - (f.mb : Int)
    · have := hmax h
      rw [← h]
      omega
    · have hk : (f.step m e - qMin f).toNat + 1 ≤ (f.top - (f.mb : Int) - qMin f).toNat := by omega
      have := Nat.mul_le_mul_right (2 ^ f.mb) hk
      rw [Nat.succ_mul] at this
      omega
  obtain ⟨n', g, hd, hv⟩ := decodeF_step hf neg hlead htop hlast
  have henc : roundEx (.fin neg m e) f mode false r
      = signBit f neg + ((f.step m e - qMin f).toNat * 2 ^ f.mb + roundSig mode neg m e (f.step m e) r) := by
    rw [← Nat.add_assoc]
    simp only [roundEx, if_neg hm]
    exact if_neg (fun h => absurd (hmax h.1) (Nat.not_le.mpr h.2))
  refine ⟨n', g, by rw [henc]; exact hd, hv.trans ?_⟩
  congr 2
  omega

/-- No finite value of a format lies nearer to a value in its range than the one that rounding to nearest takes (R69). -/
theorem roundSig_nearest_value {f : Fmt} (hf : f.Good) (neg : Bool) {m : Nat} (hm : m ≠ 0) {e : Int}
    (hbig : (m : Rat) * 2 ^ e ≤ f.big) (r : Nat) {z k : Nat} {b : Bool} {g : Int} (hz : decodeF f z = .fin b k g) (b' : Bool) :
    |(m : Rat) * 2 ^ e - roundSig .rne neg m e (f.step m e) r * 2 ^ f.step m e| ≤ |(m : Rat) * 2 ^ e - exVal (.fin b' k g)| := by
  obtain ⟨h1, -, h3, -⟩ := Fmt.step_spec hf hm hbig
  obtain ⟨hg, hk⟩ := decodeF_fin hz
  rcases le_or_gt (f.step m e) g with on | off
  · rw [← alignTo_mul b' k on]
    exact roundSig_rne_nearest neg m e _ r _
  · have lead := h3.resolve_left (fun h => by omega)
    have near := roundSig_rne_nearest neg m e (f.step m e) r ((2 ^ f.mb : Nat) : Int)
    rw [Int.cast_natCast, abs_of_nonneg (sub_nonneg.mpr lead)] at near
    have small : exVal (.fin b' k g) ≤ ((2 ^ f.mb : Nat) : Rat) * 2 ^ f.step m e := by
      have hkQ : (k : Rat) ≤ ((2 ^ f.mb : Nat) : Rat) * 2 := by exact_mod_cast (by omega : k ≤ 2 ^ f.mb * 2)
      calc exVal (.fin b' k g) ≤ |exVal (.fin b' k g)| := le_abs_self _
        _ = k * 2 ^ g := abs_exVal_fin b' k g
        _ ≤ ((2 ^ f.mb : Nat) : Rat) * 2 * 2 ^ g := mul_le_mul_of_nonneg_right hkQ (two_zpow_pos g).le
        _ = ((2 ^ f.mb : Nat) : Rat) * 2 ^ (g + 1) := by rw [zpow_add_one₀ (by decide)]; ring
        _ ≤ ((2 ^ f.mb : Nat) : Rat) * 2 ^ f.step m e :=
          mul_le_mul_of_nonneg_left (zpow_le_zpow_right₀ (by decide) (by omega)) (Nat.cast_nonneg _)
    exact near.trans ((sub_le_sub_left small _).trans (le_abs_self _))

/-- A zero is rounded to a zero of its sign. -/
theorem decodeF_roundEx_zero {f : Fmt} (hf : f.Good) (neg : Bool) (e : Int) (mode : Rm) (r : Nat) :
    decodeF f (roundEx (.fin neg 0 e) f mode false r) = .fin neg 0 (qMin f) := by
  have := decodeF_enc hf neg (Nat.zero_le f.last)
  simpa [roundEx] using this

/-- Settles O20: the grid of the format's own step holds the value's neighbours, and every finite value of the format is on the grid or
below the value's leading power of two. -/
theorem roundingIsNearest : Obligations.RoundingIsNearest := by
  intro t neg m e _ x y big hle
  have hf := fmtOf_good t
  rw [show big = (fmtOf t).big from exVal_maxEnc hf, abs_exVal_fin] at hle
  by_cases hm : m = 0
  · subst hm
    have hy : ∀ rm, y rm = .fin neg 0 (qMin (fmtOf t)) := fun rm => decodeF_roundEx_zero hf neg e rm 0
    refine ⟨⟨_, _, _, hy .rne⟩, fun z b k g _ => ?_, ?_, ?_, ?_⟩ <;> simp [x, hy]
  · have hy := fun rm => decodeF_roundEx hf neg hm hle rm 0
    refine ⟨?_, fun z b k g hz => ?_, ?_, ?_, ?_⟩
    · obtain ⟨n', g', hd, -⟩ := hy .rne
      exact ⟨_, _, _, hd⟩
    · obtain ⟨n', g', hd, hv⟩ := hy .rne
      have near := fun b' => roundSig_nearest_value hf neg hm hle 0 hz b'
      show |exVal (.fin neg m e) - exVal (decodeF _ _)| ≤ _
      rw [hd]
      cases neg
      · rw [exVal_fin_false, exVal_fin_false, hv]
        exact near b
      · have flip : ∀ a c : Rat, |-a - c| = |a - -c| := fun a c => by rw [← abs_neg]; congr 1; ring
        rw [exVal_fin_true, exVal_fin_true, hv, flip, flip, neg_neg, ← exVal_fin_neg]
        exact near (!b)
    · obtain ⟨n', g', hd, hv⟩ := hy .rz
      show |exVal (decodeF _ _)| ≤ |exVal (.fin neg m e)|
      rw [hd, abs_exVal_fin, abs_exVal_fin, hv]
      exact roundSig_toward .rz neg m e _ 0 (fun _ _ _ => rfl)
    · obtain ⟨n', g', hd, hv⟩ := hy .rdn
      show exVal (decodeF _ _) ≤ exVal (.fin neg m e)
      rw [hd]
      cases neg
      · rw [exVal_fin_false, exVal_fin_false, hv]
        exact roundSig_toward .rdn false m e _ 0 (fun _ _ _ => rfl)
      · rw [exVal_fin_true, exVal_fin_true, hv]
        exact neg_le_neg (roundSig_away .rdn true m e _ 0 (fun _ _ _ => rfl))
    · obtain ⟨n', g', hd, hv⟩ := hy .rup
      show exVal (.fin neg m e) ≤ exVal (decodeF _ _)
      rw [hd]
      cases neg
      · rw [exVal_fin_false, exVal_fin_false, hv]
        exact roundSig_away .rup false m e _ 0 (fun _ _ _ => rfl)
      · rw [exVal_fin_true, exVal_fin_true, hv]
        exact neg_le_neg (roundSig_toward .rup true m e _ 0 (fun _ _ _ => rfl))

end Sys2Proof.Machine
end

section
/-! The vector slot: selection and sign of floats, and the special cases of the transcendentals (R153, R154). -/

namespace Sys2Proof.Machine

/-! Order of exact values. -/

theorem exLt_ne_nan {x y : Ex} (h : exLt x y = true) : x ≠ .nan ∧ y ≠ .nan := by
  constructor <;> rintro rfl
  · exact absurd h (by simp [exLt])
  · cases x <;> exact absurd h (by simp [exLt])

theorem exIsNan_iff {x : Ex} : exIsNan x = true ↔ x = .nan := by cases x <;> simp [exIsNan]

theorem finLt_asymm {a b : Bool} {m n : Nat} {e f : Int} (h : finLt a m e b n f = true) : finLt b n f a m e = false := by
  rw [Bool.eq_false_iff]
  intro h'
  exact absurd ((finLt_iff ..).mp h') (not_lt.mpr (le_of_lt ((finLt_iff ..).mp h)))

theorem exLt_asymm {x y : Ex} (h : exLt x y = true) : exLt y x = false := by
  cases x with
  | nan => exact absurd h (by simp [exLt])
  | inf a => cases y with
    | nan => rfl
    | inf b => revert h; cases a <;> cases b <;> decide
    | fin b n f => simpa [exLt] using h
  | fin a m e => cases y with
    | nan => rfl
    | inf b => simpa [exLt] using h
    | fin b n f => exact finLt_asymm h

theorem exEq_of_exLt {x y : Ex} (h : exLt x y = true) : exEq x y = false ∧ exEq y x = false := by
  cases x with
  | nan => exact absurd h (by simp [exLt])
  | inf a => cases y with
    | nan => exact absurd h (by simp [exLt])
    | inf b => revert h; cases a <;> cases b <;> decide
    | fin b n f => exact ⟨rfl, rfl⟩
  | fin a m e => cases y with
    | nan => exact absurd h (by simp [exLt])
    | inf b => exact ⟨rfl, rfl⟩
    | fin b n f =>
      have hlt : finLt a m e b n f = true := h
      simp [exEq, hlt]

theorem exEq_ne_nan {x y : Ex} (h : exEq x y = true) : x ≠ .nan ∧ y ≠ .nan := by
  constructor <;> rintro rfl
  · exact absurd h (by simp [exEq])
  · cases x <;> exact absurd h (by simp [exEq])

/-! Minimum and maximum. -/

theorem fltMinMax_of_num {mx : Bool} {t : Ty} {a b : Nat} (ha : exOf t a ≠ .nan) (hb : exOf t b ≠ .nan) : fltMinMax mx t a b =
    if (if exEq (exOf t a) (exOf t b) then exSign (exOf t a) && !(exSign (exOf t b)) else exLt (exOf t a) (exOf t b)) != mx
    then a else b := by
  unfold fltMinMax
  simp only [exIsNan_iff, ha, hb, if_false]

/-- A minimum or maximum takes the smaller or the larger element (R153). -/
theorem fltMinMax_gives (mx : Bool) (t : Ty) (a b : Nat) :
    (exOf t a = .nan → exOf t b = .nan → fltMinMax mx t a b = (fmtOf t).nan)
      ∧ (exOf t a = .nan → exOf t b ≠ .nan → fltMinMax mx t a b = b) ∧ (exOf t b = .nan → exOf t a ≠ .nan → fltMinMax mx t a b = a)
      ∧ (exOf t a ≠ .nan → exOf t b ≠ .nan → exLt (exOf t a) (exOf t b) = true → fltMinMax mx t a b = if mx then b else a)
      ∧ (exOf t a ≠ .nan → exOf t b ≠ .nan → exLt (exOf t b) (exOf t a) = true → fltMinMax mx t a b = if mx then a else b)
      ∧ (exEq (exOf t a) (exOf t b) = true → exSign (exOf t a) = true → exSign (exOf t b) = false →
          fltMinMax mx t a b = if mx then b else a)
      ∧ (exEq (exOf t a) (exOf t b) = true → exSign (exOf t a) = false → exSign (exOf t b) = true →
          fltMinMax mx t a b = if mx then a else b) := by
  refine ⟨fun ha hb => ?_, fun ha hb => ?_, fun hb ha => ?_, fun ha hb h => ?_, fun ha hb h => ?_, fun h hs ht => ?_, fun h hs ht => ?_⟩
  · simp [fltMinMax, exIsNan_iff, ha, hb, nanOf]
  · simp [fltMinMax, exIsNan_iff, ha, hb]
  · simp [fltMinMax, exIsNan_iff, ha, hb]
  · rw [fltMinMax_of_num ha hb, (exEq_of_exLt h).1, h]
    cases mx <;> rfl
  · rw [fltMinMax_of_num ha hb, (exEq_of_exLt h).2, exLt_asymm h]
    cases mx <;> rfl
  · rw [fltMinMax_of_num (exEq_ne_nan h).1 (exEq_ne_nan h).2, h, hs, ht]
    cases mx <;> rfl
  · rw [fltMinMax_of_num (exEq_ne_nan h).1 (exEq_ne_nan h).2, h, hs, ht]
    cases mx <;> rfl

/-! Signs. -/

/-- A float result is written as wide as its elements are. -/
theorem vWrite_packElems_congr {t : Ty} (hf : isFlt t = true) {f g : Nat → Nat}
    (h : ∀ j, f j % 2 ^ fmtBits (fmtOf t) = g j % 2 ^ fmtBits (fmtOf t)) (l d : Nat) (b : Bool) :
    vWrite t l d (packElems t f) b = vWrite t l d (packElems t g) b := by
  have h0 := h 0
  have h1 := h 1
  cases t with
  | f16 | bf16 => exact congrArg (vWrite _ l d · b) (by rw [packElems, packElems]; exact congrArg₂ _ h0 (congrArg _ h1))
  | f32 => exact congrArg (fun x => Write.v l d x none b) h0
  | f64 =>
    have h64 : f 0 % 2 ^ 64 = g 0 % 2 ^ 64 := h0
    show Write.v l d (f 0 % 2 ^ 32) (some (f 0 / 2 ^ 32 % 2 ^ 32)) b = Write.v l d (g 0 % 2 ^ 32) (some (g 0 / 2 ^ 32 % 2 ^ 32)) b
    have hlo : f 0 % 2 ^ 32 = g 0 % 2 ^ 32 := by omega
    have hhi : f 0 / 2 ^ 32 % 2 ^ 32 = g 0 / 2 ^ 32 % 2 ^ 32 := by omega
    rw [hlo, hhi]
  | _ => exact absurd hf (by decide)

theorem vOut_packElems_congr (s : State) (c : Cursor) (g : Guard) {t : Ty} (hf : isFlt t = true) (d : Fin 256) (lat : Nat)
    {u v : Nat → Nat → Nat} (h : ∀ l j, u l j % 2 ^ fmtBits (fmtOf t) = v l j % 2 ^ fmtBits (fmtOf t)) :
    s.vOut c g t d lat (fun l => packElems t (u l)) = s.vOut c g t d lat (fun l => packElems t (v l)) := by
  unfold State.vOut
  refine congrArg _ (List.map_congr_left fun l _ => vWrite_packElems_congr hf (h l) l d true)

/-- Clearing the top bit of a word. -/
theorem ofNat_and_not_top {w : Nat} (hw : 0 < w) (x : Nat) :
    (BitVec.ofNat w x &&& ~~~(1#w <<< (w - 1))).toNat = x % 2 ^ (w - 1) := by
  refine Nat.eq_of_testBit_eq fun k => ?_
  rw [BitVec.testBit_toNat, Nat.testBit_mod_two_pow]
  by_cases hk : k < w
  · simp only [BitVec.getLsbD_and, BitVec.getLsbD_ofNat, BitVec.getLsbD_not, BitVec.getLsbD_shiftLeft, hk]
    by_cases hlast : k = w - 1
    · simp [hlast, hw]
    · have hlt : k < w - 1 := by omega
      simp [hlt]
  · rw [BitVec.getLsbD_of_ge _ _ (by omega), decide_eq_false (by omega), Bool.false_and]

/-- Inverting the top bit of a word. -/
theorem ofNat_xor_top {w : Nat} (hw : 0 < w) (x : Nat) :
    (BitVec.ofNat w x ^^^ 1#w <<< (w - 1)).toNat = (x ^^^ 2 ^ (w - 1)) % 2 ^ w := by
  have htop : (1#w <<< (w - 1)).toNat = 2 ^ (w - 1) % 2 ^ w := by
    simp [BitVec.toNat_shiftLeft, Nat.shiftLeft_eq, Nat.mod_eq_of_lt (Nat.one_lt_two_pow (by omega : w ≠ 0))]
  rw [BitVec.toNat_xor, htop, BitVec.toNat_ofNat, Nat.xor_mod_two_pow]

theorem floatSelectionAndSign : Claims.FloatSelectionAndSign := by
  refine ⟨fun s c o mx hf => ?_, fun s c o hf => ?_⟩
  · intro v i h
    refine ⟨fun l j => fltMinMax mx o.ty (v o.a l j) (v o.b l j), ?_, fun l j => fltMinMax_gives mx o.ty _ _⟩
    rw [← latOf_flt hf]
    cases mx
    · exact (exec_issues (i := .vfmin o) h (by rfl)).trans rfl
    · exact (exec_issues (i := .vfmax o) h (by rfl)).trans rfl
  · intro w v gives
    have hw : 0 < w := by show 0 < 1 + _ + _; omega
    refine ⟨fun h => ?_, fun h => ?_⟩
    · rw [← latOf_flt hf]
      refine (exec_issues h (by rfl)).trans (congrArg _ (vOut_packElems_congr s c o.g hf o.d _ fun l j => ?_))
      dsimp only
      simp only [exIsNan_iff]
      split
      · rfl
      · rw [ofNat_and_not_top hw]
    · rw [← latOf_flt hf]
      refine (exec_issues h (by rfl)).trans (congrArg _ (vOut_packElems_congr s c o.g hf o.d _ fun l j => ?_))
      dsimp only
      simp only [exIsNan_iff]
      split
      · rfl
      · rw [ofNat_xor_top hw, Nat.mod_mod]

/-! Transcendentals of dyadic numbers. -/

/-- A significand that makes one, with its exponent. -/
theorem exVal_eq_one {neg : Bool} {m : Nat} {e : Int} (h : exVal (.fin neg m e) = 1) : neg = false ∧ ∃ k : Nat, e = -(k : Int) ∧ m = 2 ^ k := by
  have hpos := two_zpow_pos e
  cases neg with
  | true =>
    rw [exVal_fin_true] at h
    have : (0 : Rat) ≤ m * 2 ^ e := by positivity
    linarith
  | false =>
    rw [exVal_fin_false] at h
    refine ⟨rfl, ?_⟩
    have hm : m ≠ 0 := by rintro rfl; simp at h
    have hle : e ≤ 0 := by
      by_contra hgt
      have h2 : (1 : Rat) < 2 ^ e := one_lt_zpow₀ (by norm_num) (by omega)
      have h1 : (1 : Rat) ≤ m := by exact_mod_cast Nat.one_le_iff_ne_zero.mpr hm
      nlinarith
    refine ⟨(-e).toNat, by omega, ?_⟩
    have he : (2 : Rat) ^ e = (2 ^ (-e).toNat)⁻¹ := by
      rw [← zpow_natCast, Int.toNat_of_nonneg (by omega), zpow_neg, inv_inv]
    rw [he, mul_inv_eq_one₀ (by positivity)] at h
    exact_mod_cast h

/-- A number below the point that is a multiple of a fraction of one: its significand over that fraction. -/
theorem exVal_fin_of_neg {neg : Bool} {m k : Nat} : exVal (.fin neg m (-(k : Int))) * 2 ^ k = if neg then -(m : Rat) else m := by
  have hk : (2 : Rat) ^ (-(k : Int)) * 2 ^ k = 1 := by
    rw [zpow_neg, zpow_natCast, inv_mul_cancel₀ (by positivity)]
  cases neg
  · rw [exVal_fin_false, mul_assoc, hk]; simp
  · rw [exVal_fin_true, neg_mul, mul_assoc, hk]; simp

theorem splitPos_nonneg (m k : Nat) : splitPos m (k : Int) = (m * 2 ^ k, 0, 0) := by
  unfold splitPos
  rw [if_pos (by omega), Int.toNat_natCast]

theorem splitPos_neg (m k : Nat) (hk : k ≠ 0) : splitPos m (-(k : Int)) = (m / 2 ^ k, m % 2 ^ k, k) := by
  unfold splitPos
  rw [if_neg (by omega), neg_neg, Int.toNat_natCast]

/-- The residue of a whole number of half turns has the sine zero. -/
theorem sinPiRes_whole (rd : Ex → Nat) (flip zneg : Bool) (a b : Nat) (h : a = 0 ∨ a = 2 ^ b) : sinPiRes rd flip zneg a b = rd (.fin zneg 0 0) := by
  unfold sinPiRes
  rcases h with rfl | rfl
  · simp
  · simp

theorem sinF_of_int (rd : Ex → Nat) (neg : Bool) {m : Nat} {e : Int} {n : Int} (h : exVal (.fin neg m e) = n) :
    sinF rd neg m e = rd (.fin neg 0 0) := by
  unfold sinF
  split
  · rfl
  · rcases lt_or_ge e 0 with he | he
    · obtain ⟨k, hk⟩ := Int.eq_ofNat_of_zero_le (a := -e) (by omega)
      obtain rfl : e = -(k : Int) := by omega
      rw [splitPos_neg m k (by omega)]
      have hdvd : m % 2 ^ k = 0 := by
        have hm := exVal_fin_of_neg (neg := neg) (m := m) (k := k)
        rw [h] at hm
        have hint : (n * 2 ^ k : Int) = if neg then -(m : Int) else m := by
          cases neg <;> simp only [if_true, if_false, Bool.false_eq_true] at hm ⊢ <;> exact_mod_cast hm
        have : ((2 ^ k : Nat) : Int) ∣ (m : Int) := by
          cases neg
          · exact ⟨n, by push_cast; simp at hint; rw [← hint, mul_comm]⟩
          · exact ⟨-n, by push_cast; simp at hint; linarith⟩
        exact Nat.mod_eq_zero_of_dvd (Int.natCast_dvd_natCast.mp this)
      rw [hdvd]
      exact sinPiRes_whole _ _ _ _ _ (by rcases Nat.mod_two_eq_zero_or_one (m / 2 ^ k) with h | h <;> simp [h])
    · obtain ⟨k, rfl⟩ := Int.eq_ofNat_of_zero_le he
      rw [splitPos_nonneg]
      exact sinPiRes_whole _ _ _ _ _ (by rcases Nat.mod_two_eq_zero_or_one (m * 2 ^ k) with h | h <;> simp [h])

/-- A number half way between two integers has an odd multiple of the half below its point. -/
theorem half_mod {neg : Bool} {m : Nat} {e n : Int} (h : exVal (.fin neg m e) = n + 1 / 2) :
    ∃ k : Nat, e = -((k + 1 : Nat) : Int) ∧ m % 2 ^ (k + 1) = 2 ^ k := by
  have hneg : e < 0 := by
    by_contra hge
    obtain ⟨k, rfl⟩ := Int.eq_ofNat_of_zero_le (not_lt.mp hge)
    rw [← alignTo_mul neg m (q := 0) (by omega), zpow_zero, mul_one] at h
    have : (2 * alignTo neg m k 0 : Int) = 2 * n + 1 := by
      have := congrArg (2 * ·) h
      field_simp at this
      exact_mod_cast this
    omega
  obtain ⟨k, hk⟩ := Int.eq_ofNat_of_zero_le (a := -e - 1) (by omega)
  obtain rfl : e = -((k + 1 : Nat) : Int) := by push_cast; omega
  refine ⟨k, rfl, ?_⟩
  have hm := exVal_fin_of_neg (neg := neg) (m := m) (k := k + 1)
  rw [h] at hm
  have hint : ((2 * n + 1) * 2 ^ k : Int) = if neg then -(m : Int) else m := by
    have hsplit : ((n : Rat) + 1 / 2) * 2 ^ (k + 1) = (2 * n + 1) * 2 ^ k := by ring
    rw [hsplit] at hm
    cases neg <;> simp only [if_true, if_false, Bool.false_eq_true] at hm ⊢ <;> exact_mod_cast hm
  have hodd : ∃ q : Int, (m : Int) = (2 * q + 1) * 2 ^ k := by
    cases neg
    · exact ⟨n, by simpa using hint.symm⟩
    · exact ⟨-n - 1, by simp at hint; linarith⟩
  obtain ⟨q, hq⟩ := hodd
  have hmod : (m : Int) % ((2 ^ (k + 1) : Nat) : Int) = ((2 ^ k : Nat) : Int) := by
    rw [hq]
    push_cast
    rw [show (2 * q + 1) * (2 : Int) ^ k = 2 ^ k + 2 ^ (k + 1) * q by ring, Int.add_mul_emod_self_left]
    exact Int.emod_eq_of_lt (by positivity) (by rw [pow_succ]; have : (0 : Int) < 2 ^ k := by positivity
                                                linarith)
  exact_mod_cast hmod

theorem cosF_of_half (rd : Ex → Nat) {neg : Bool} {m : Nat} {e n : Int} (h : exVal (.fin neg m e) = n + 1 / 2) :
    cosF rd m e = rd (.fin false 0 0) := by
  obtain ⟨k, rfl, hm⟩ := half_mod h
  unfold cosF
  rw [splitPos_neg m (k + 1) (by omega)]
  refine sinPiRes_whole _ _ _ _ _ ?_
  rw [hm]
  have hpos : 0 < 2 ^ k := Nat.two_pow_pos k
  have h2 : 2 ^ (k + 1) = 2 * 2 ^ k := by ring
  have h3 : 2 ^ (k + 1 + 1) = 2 * (2 * 2 ^ k) := by ring
  have h4 : 2 ^ (k + 1 + 2) = 4 * (2 * 2 ^ k) := by ring
  rcases Nat.mod_two_eq_zero_or_one (m / 2 ^ (k + 1)) with h | h
  · rw [h, h2, h3, h4]
    exact .inr (by rw [Nat.mod_eq_of_lt (by omega)]; omega)
  · rw [h, h2, h3, h4, show 1 * (2 * (2 * 2 ^ k)) + 2 * 2 ^ k + 2 * 2 ^ k = 4 * (2 * 2 ^ k) by ring]
    exact .inl (Nat.mod_self _)

theorem log2F_of_one (rd : Ex → Nat) (k : Nat) : log2F rd (2 ^ k) (-(k : Int)) = rd (.fin false 0 0) := by
  unfold log2F
  simp [Nat.log2_two_pow, exOfInt]

theorem transcendentalsComplete : Claims.TranscendentalsComplete := by
  refine ⟨fun s c o => ?_, fun rnd neg m e hm => ?_⟩
  · intro gives
    refine ⟨?_, ?_, ?_, ?_, ?_, ?_, ?_, ?_⟩ <;> exact fun h => (exec_issues h (by rfl)).trans rfl
  · refine ⟨fun op => ?_, rfl, rfl, rfl, rfl, ?_, rfl, rfl, ?_, rfl, rfl, rfl, fun h => ?_, rfl, rfl, ?_, rfl, rfl, fun n h => ?_, rfl,
      fun n h => ?_, rfl, ?_⟩
    · cases op <;> rfl
    · simp [transc, hm]
    · simp [transc, hm]
    · obtain ⟨rfl, k, rfl, rfl⟩ := exVal_eq_one h
      show (if 2 ^ k = 0 then _ else if false = true then _ else log2F rnd (2 ^ k) (-(k : Int))) = _
      rw [if_neg hm, if_neg (by decide), log2F_of_one]
    · simp [transc, hm]
    · exact sinF_of_int rnd neg h
    · show (if m = 0 then _ else cosF rnd m e) = _
      rw [if_neg hm, cosF_of_half rnd h]
    · cases neg <;> rfl

/-- Settles O21: the minimum and maximum by the order of exact values, the signs by the top bit, the special cases by the residue of
a whole number of half turns. -/
theorem floatSelectionAndTranscendentals : Obligations.FloatSelectionAndTranscendentals := ⟨floatSelectionAndSign, transcendentalsComplete⟩

end Sys2Proof.Machine
end

section
/-! The vector slot: comparisons, moves, conversions and block quantisation (R146, R155 to R163). -/

namespace Sys2Proof.Machine

/-! Comparisons. -/

theorem latOf_eq (t : Ty) : latOf t = if t = .f64 then 10 else if isFlt t then 6 else 4 := by cases t <;> rfl

theorem intOf_inj {t : Ty} {x y : BitVec (widthOf t)} : intOf t x = intOf t y ↔ x = y :=
  ⟨fun h => by rw [← ofInt_intOf t x, h, ofInt_intOf], fun h => by rw [h]⟩

theorem intOf_le_iff (t : Ty) (x y : BitVec (widthOf t)) :
    intOf t x ≤ intOf t y ↔ (if isSigned t then y.slt x else y.ult x) = false := by
  rw [← not_lt, intOf_lt_iff, Bool.not_eq_true]

/-- A comparison of integers (R155), by the order of their bit vectors. -/
theorem intCond_gives (cc : Cond) (t : Ty) (x y : BitVec (widthOf t)) :
    let less := fun (a b : BitVec (widthOf t)) => if isSigned t then a.slt b else a.ult b
    (cc = .eq → intCond cc (intOf t x) (intOf t y) = decide (x = y)) ∧ (cc = .ne → intCond cc (intOf t x) (intOf t y) = decide (x ≠ y))
      ∧ (cc = .lt → intCond cc (intOf t x) (intOf t y) = less x y) ∧ (cc = .le → intCond cc (intOf t x) (intOf t y) = !(less y x))
      ∧ (cc = .gt → intCond cc (intOf t x) (intOf t y) = less y x) ∧ (cc = .ge → intCond cc (intOf t x) (intOf t y) = !(less x y)) := by
  refine ⟨?_, ?_, ?_, ?_, ?_, ?_⟩ <;> rintro rfl <;>
    simp only [intCond, ne_eq, intOf_inj, gt_iff_lt, ge_iff_le, intOf_lt_iff, intOf_le_iff, Bool.decide_eq_true, Bool.decide_eq_false]

/-- A comparison with a NaN (R155). -/
theorem fltCond_nan (cc : Cond) {x y : Ex} (h : x = .nan ∨ y = .nan) : fltCond cc x y = decide (cc = .ne ∨ cc = .un) := by
  have hn : (exIsNan x || exIsNan y) = true := by
    rcases h with rfl | rfl
    · rfl
    · exact Bool.or_true _
  unfold fltCond
  rw [hn]
  cases cc <;> rfl

theorem exEq_fin (a b : Bool) (m n : Nat) (e f : Int) :
    exEq (.fin a m e) (.fin b n f) = decide (exVal (.fin a m e) = exVal (.fin b n f)) := by
  rw [Bool.eq_iff_iff, decide_eq_true_iff]
  show (!(finLt a m e b n f) && !(finLt b n f a m e)) = true ↔ _
  rw [Bool.and_eq_true, Bool.not_eq_true', Bool.not_eq_true', ← Bool.not_eq_true, ← Bool.not_eq_true, finLt_iff, finLt_iff, not_lt,
    not_lt, le_antisymm_iff, and_comm]

theorem exLt_fin (a b : Bool) (m n : Nat) (e f : Int) :
    exLt (.fin a m e) (.fin b n f) = decide (exVal (.fin a m e) < exVal (.fin b n f)) := by
  rw [Bool.eq_iff_iff, decide_eq_true_iff]
  exact finLt_iff ..

/-- A comparison of finite values is that of numbers (R155). -/
theorem fltCond_fin (cc : Cond) (a b : Bool) (m n : Nat) (e f : Int) :
    fltCond cc (.fin a m e) (.fin b n f) = match cc with
      | .eq => decide (exVal (.fin a m e) = exVal (.fin b n f))
      | .ne => decide (exVal (.fin a m e) ≠ exVal (.fin b n f))
      | .lt => decide (exVal (.fin a m e) < exVal (.fin b n f))
      | .le => decide (exVal (.fin a m e) ≤ exVal (.fin b n f))
      | .gt => decide (exVal (.fin a m e) > exVal (.fin b n f))
      | .ge => decide (exVal (.fin a m e) ≥ exVal (.fin b n f))
      | .un => false
      | .ord => true := by
  cases cc <;> simp only [fltCond, exIsNan, exEq_fin, exLt_fin, Bool.or_self, Bool.not_false, Bool.true_and, Bool.false_or, gt_iff_lt,
    ge_iff_le, le_iff_lt_or_eq, Bool.decide_or, ne_eq, decide_not, eq_comm]

theorem comparisonsByType : Claims.ComparisonsByType := by
  intro s c o h
  refine ⟨fun l => if isFlt o.ty then fltCond o.cc (s.cmpVal c o o.a l) (s.cmpVal c o o.b l)
      else intCond o.cc (intVal o.ty (widthOf o.ty) (s.operand c o.a l o.ty)) (intVal o.ty (widthOf o.ty) (s.operand c o.b l o.ty)),
    ?_, fun hf l => ?_, fun hf l => ?_⟩
  · rw [← latOf_eq]
    exact (exec_issues h (by rfl)).trans rfl
  · simp only [hf, Bool.false_eq_true, if_false, State.intVal_operand]
    exact intCond_gives o.cc o.ty _ _
  · simp only [hf, if_true]
    refine ⟨fun hn => fltCond_nan o.cc hn, fun a m e b n f hx hy => ?_⟩
    rw [State.cmpVal, State.cmpVal, hx, hy]
    exact fltCond_fin o.cc a b m n e f

/-! Moves. -/

/-- The flush of a flushed encoding leaves it (R73). -/
theorem flush_flush (ftz : Bool) (t : Ty) (x : Nat) : flush ftz t (flush ftz t x) = flush ftz t x := by
  by_cases h : (ftz && flushes t && isSubnormal (fmtOf t) x) = true
  · have hz : fld (x - fld x 0 (fmtOf t).mb) 0 (fmtOf t).mb = 0 := by
      rw [fld, fld, Nat.pow_zero, Nat.div_one, Nat.div_one]
      exact Nat.sub_mod_eq_zero_of_mod_eq (by rw [Nat.mod_mod])
    have hx : flush ftz t x = x - fld x 0 (fmtOf t).mb := if_pos h
    have hs : isSubnormal (fmtOf t) (x - fld x 0 (fmtOf t).mb) = false := by
      rw [isSubnormal, hz]
      exact Bool.and_false _
    rw [hx, flush, hs, Bool.and_false, if_neg Bool.false_ne_true]
  · have hx : flush ftz t x = x := if_neg h
    rw [hx, hx]

theorem State.canon_felem (s : State) (c : Cursor) (t : Ty) (p : Opd) (l j : Nat) :
    s.canon c t (s.felem c t p l j) = if exOf t (s.felem c t p l j) = .nan then (fmtOf t).nan else s.felem c t p l j := by
  have hf : flush (s.ftz c) t (s.felem c t p l j) = s.felem c t p l j := flush_flush _ _ _
  rw [State.canon, hf]
  simp only [exIsNan_iff, nanOf]

theorem sx_mod (w x : Nat) : sx w (x % 2 ^ w) = sx w x := by
  unfold sx
  rw [Nat.mod_mod]

/-- A register holds the low bits of a value, as wide as its type (R56). -/
theorem extendTo_ofNat (t : Ty) (x : Nat) : extendTo t x = regBits t (BitVec.ofNat (widthOf t) x) := by
  rw [← extendTo_toNat, BitVec.toNat_ofNat]
  unfold extendTo
  by_cases h : is64 t = true
  · rw [if_pos h, if_pos h, widthOf_of_is64 h, Nat.mod_mod]
  · rw [if_neg h, if_neg h, sx_mod, Nat.mod_mod]

/-- A value as VMOV and VSEL write it. -/
theorem State.moved_eq (s : State) (c : Cursor) (t : Ty) (p : Opd) (l : Nat) : s.moved c t p l =
    if isFlt t then packElems t (fun j => if exOf t (s.felem c t p l j) = .nan then (fmtOf t).nan else s.felem c t p l j)
    else regBits t (s.srcBits c t p l) := by
  unfold State.moved
  split
  · exact congrArg _ (funext fun j => s.canon_felem c t p l j)
  · exact extendTo_ofNat t _

theorem movesAndSelections : Claims.MovesAndSelections := by
  intro s c t g d a b val lat
  have hlat : lat = latOf t := (latOf_eq t).symm
  refine ⟨fun rm sat h => ?_, fun p neg h => ?_⟩
  · rw [hlat]
    exact vOut_gives ((exec_issues h (by rfl)).trans rfl) (fun l => s.moved_eq c t a l)
  · rw [hlat]
    refine vOut_gives ((exec_issues h (by rfl)).trans rfl) (fun l => ?_)
    show s.moved c t (if xor (s.readP c l p) neg = true then a else b) l = _
    split
    · exact s.moved_eq c t a l
    · exact s.moved_eq c t b l

/-- Settles O22: the comparisons by the order of bit vectors and of exact values, the moves by their one way to write a source. -/
theorem comparisonsAndMoves : Obligations.ComparisonsAndMoves := ⟨comparisonsByType, movesAndSelections⟩

/-! Conversions. -/

/-- An integer as an exact value rounds to itself. -/
theorem exToInt_ofInt (rm : Rm) (i : Int) : exToInt rm (decide (i < 0)) i.natAbs 0 = i := by
  have h : roundSig rm (decide (i < 0)) i.natAbs 0 0 0 = i.natAbs := by simp [roundSig]
  rw [exToInt, h]
  by_cases hi : i < 0
  · simp only [hi, decide_true, if_true]; omega
  · simp only [hi, decide_false]
    show ((i.natAbs : Nat) : Int) = i
    omega

/-- The integer that an element holds. -/
theorem intVal_of_lt {t : Ty} {x : Nat} (hx : x < 2 ^ widthOf t) :
    intVal t (widthOf t) x = if isSigned t then (BitVec.ofNat (widthOf t) x).toInt else (x : Int) := by
  rw [intVal_eq_intOf, intOf, BitVec.toNat_ofNat, Nat.mod_eq_of_lt hx]

theorem intMin_pow (t : Ty) : intMin t = if isSigned t then -(2 ^ (widthOf t - 1) : Int) else 0 := by
  unfold intMin
  push_cast
  rfl

theorem intMax_pow (t : Ty) : intMax t = if isSigned t then (2 ^ (widthOf t - 1) - 1 : Int) else 2 ^ widthOf t - 1 := by
  unfold intMax
  push_cast
  rfl

/-- A conversion to an integer type, wrapped or clamped (R57, R58). -/
theorem wrap_clamp (t : Ty) (sat : Bool) (n : Int) : wrap (widthOf t) (if sat then max (intMin t) (min (intMax t) n) else n) =
    (BitVec.ofInt (widthOf t) (if sat then (if n < intMin t then intMin t else if intMax t < n then intMax t else n) else n)).toNat := by
  rw [wrap_eq_toNat, max_min_eq_clamp (intMin_le_intMax t)]

theorem State.cvt_to_int {s : State} {c : Cursor} {dt st : Ty} {rm : Rm} {sat : Bool} {r x : Nat} (hd : isInt dt = true)
    (hx : x < 2 ^ widthOf st) :
    s.cvt c dt st rm sat r x =
      match (if isInt st then exOfInt (if isSigned st then (BitVec.ofNat (widthOf st) x).toInt else (x : Int)) else exOf st x) with
      | .nan => 0
      | .inf neg => if sat then (BitVec.ofInt (widthOf dt) (if neg then intMin dt else intMax dt)).toNat else 0
      | .fin neg m e =>
        let n := exToInt rm neg m e
        (BitVec.ofInt (widthOf dt) (if sat then (if n < intMin dt then intMin dt else if intMax dt < n then intMax dt else n) else n)).toNat := by
  unfold State.cvt
  by_cases hs : isInt st = true
  · rw [if_pos (by rw [hs, hd]; rfl), if_pos hs, ← intVal_of_lt hx]
    show wrap _ (if sat then _ else _) = (BitVec.ofInt _ (if sat then (if exToInt .. < _ then _ else _) else exToInt ..)).toNat
    rw [exToInt_ofInt, wrap_clamp]
  · rw [if_neg (by simp [hs]), if_neg hs, if_pos hd, if_neg hs]
    cases exOf st x with
    | nan => rfl
    | inf neg => dsimp only; rw [wrap_eq_toNat]
    | fin neg m e => exact wrap_clamp dt sat _

theorem State.cvt_to_float {s : State} {c : Cursor} {dt st : Ty} {rm : Rm} {sat : Bool} {r x : Nat} (hd : isInt dt = false)
    (hx : x < 2 ^ widthOf st) :
    s.cvt c dt st rm sat r x = flush (s.ftz c) dt
      (roundEx (if isInt st then exOfInt (if isSigned st then (BitVec.ofNat (widthOf st) x).toInt else (x : Int)) else exOf st x)
        (fmtOf dt) rm sat r) := by
  unfold State.cvt
  by_cases hs : isInt st = true
  · rw [if_neg (by simp [hd]), if_pos hs, if_pos hs, ← intVal_of_lt hx]
    rfl
  · rw [if_neg (by simp [hd]), if_neg hs, if_neg (by simp [hd]), if_neg hs]
    rfl

theorem conversionsAreOneRounding : Claims.ConversionsAreOneRounding := by
  refine ⟨fun s c dt st rm sat r x _ hx => ?_, fun s c o h => ?_, fun s c o h => ?_, fun s c o h => ?_⟩
  · intro v lo hi
    have hlo : intMin dt = lo := intMin_pow dt
    have hhi : intMax dt = hi := intMax_pow dt
    by_cases hd : isInt dt = true
    · rw [if_pos hd, ← hlo, ← hhi]
      exact State.cvt_to_int hd hx
    · rw [if_neg hd]
      exact State.cvt_to_float (Bool.eq_false_iff.mpr hd) hx
  · refine (exec_issues h (by rfl)).trans (congrArg (fun f => Host.Outcome.next ((s.vOut c o.g o.dt o.d 6 f).advance c o.g o.rm 1))
      (funext fun l => ?_))
    dsimp only
    rw [extendTo_ofNat]
  · exact (exec_issues h (by rfl)).trans rfl
  · intro w x hd rnd
    refine vOut_gives ((exec_issues h (by rfl)).trans rfl) (fun l => ?_)
    have h8 : fld (s.operandI c o.h l) 0 8 = s.operand c o.h l .b32 % 2 ^ 8 := by rw [fld, Nat.pow_zero, Nat.div_one]; rfl
    dsimp only
    rw [extendTo_ofNat, h8]
    rfl

/-! Block quantisation. -/

theorem State.qBlock_eq (s : State) (c : Cursor) (o : VQnt) (i : Nat) : s.qBlock c o i = quantBlock o.rm
    ((List.range (if o.k32 then 32 else 16)).map (fun k =>
      if i / (if o.k32 then 32 else 16) * (if o.k32 then 32 else 16) + k ∈ s.active c o.g then
        (s.felem c .f32 o.a (i / (if o.k32 then 32 else 16) * (if o.k32 then 32 else 16) + k) 0,
          s.draw c (i / (if o.k32 then 32 else 16) * (if o.k32 then 32 else 16) + k) 0)
      else (0, 0))) := by
  simp only [State.qBlock, List.contains_iff_mem]

theorem foldl_range_eight (f : Nat → Nat) :
    (List.range 8).foldl (fun x j => x + f j) 0 = f 0 + f 1 + f 2 + f 3 + f 4 + f 5 + f 6 + f 7 := by
  simp [List.range_succ]

theorem blocksAreQuantised : Claims.BlocksAreQuantised := by
  intro s c o h n act elem block code
  refine (exec_issues h (by rfl)).trans ?_
  refine congrArg (fun ws => Host.Outcome.next ((s.send 10 ws).advance c o.g o.rm 1)) (List.map_congr_left fun l _ => ?_)
  have hb : s.qBlock c o l = block l := s.qBlock_eq c o l
  dsimp only
  rw [hb, foldl_range_eight (fun j => (block l).2.getD (l / 8 * 8 % (if o.k32 then 32 else 16) + j) 0 * 16 ^ j)]

/-- Settles O23: a conversion takes the exact value of its source, and rounds it once. -/
theorem conversionsAndBlocks : Obligations.ConversionsAndBlocks := ⟨conversionsAreOneRounding, blocksAreQuantised⟩

end Sys2Proof.Machine
end

section
/-! The vector slot: lane-crossing instructions, the reduction tree, and the slot's frame (R77, R142, R165 to R169). -/

namespace Sys2Proof.Machine

/-! Votes and shuffles. -/

/-- All bits of a list agree when one of the two values fills it. -/
theorem all_id_or_all_not (l : List Nat) (t : Nat → Bool) :
    ((l.map t).all id || (l.map t).all not) = true ↔ ∀ i ∈ l, ∀ k ∈ l, t i = t k := by
  simp only [Bool.or_eq_true, List.all_eq_true, List.mem_map, forall_exists_index, and_imp, forall_apply_eq_imp_iff₂, id,
    Bool.not_eq_true']
  constructor
  · rintro (h | h) i hi k hk <;> rw [h i hi, h k hk]
  · intro h
    by_cases ht : ∃ i ∈ l, t i = true
    · obtain ⟨i, hi, hti⟩ := ht
      exact .inl fun k hk => by rw [← hti, h i hi k hk]
    · exact .inr fun k hk => by_contra fun hn => ht ⟨k, hk, by simpa using hn⟩

theorem vote_gives {s : State} {c : Cursor} {o : VVote} (h : s.issues c (.vote o)) :
    let act := s.active c o.g
    let t := fun l => xor (s.readP c l o.pa) o.neg
    ∃ r : Bool, exec (.vote o) s = .next (s.send 4 (act.map (fun l => Write.p l o.pd r)))
      ∧ (o.mode = .all → (r = true ↔ ∀ l ∈ act, t l = true)) ∧ (o.mode = .any → (r = true ↔ ∃ l ∈ act, t l = true))
      ∧ (o.mode = .uni → (r = true ↔ ∀ l ∈ act, ∀ k ∈ act, t l = t k)) := by
  intro act t
  refine ⟨match o.mode with
      | .all => (act.map t).all id
      | .any => (act.map t).any id
      | .uni => (act.map t).all id || (act.map t).all not, ?_, fun hm => ?_, fun hm => ?_, fun hm => ?_⟩
  · exact (exec_issues h (by rfl)).trans rfl
  · rw [hm]; simp [List.all_eq_true]
  · rw [hm]; simp [List.any_eq_true]
  · rw [hm]; exact all_id_or_all_not act t

/-- The lane that a selector names, where it is active (R167). -/
theorem State.shflLane_eq (s : State) (c : Cursor) (o : VShfl) (i : Nat) :
    let k := shflSrc (s.operandI c o.sel i) i
    s.shflLane c o i = if (decide (0 ≤ k) && decide (k ≤ 63) && (s.active c o.g).contains k.toNat) = true then some k.toNat else none := by
  intro k
  unfold State.shflLane
  simp only [Bool.and_eq_true, decide_eq_true_iff, and_assoc]
  rfl

theorem shflSrc_eq (x i : Nat) : shflSrc x i = if x / 64 % 4 = 0 then ((x % 64 : Nat) : Int) else if x / 64 % 4 = 1 then (i : Int) - (x % 64 : Nat)
    else if x / 64 % 4 = 2 then (i : Int) + (x % 64 : Nat) else ((i ^^^ (x % 64) : Nat) : Int) := by
  unfold shflSrc fld
  norm_num only
  generalize x / 64 % 4 = m
  match m with
  | 0 | 1 | 2 => rfl
  | m + 3 => simp

theorem laneCrossing : Claims.LaneCrossing := by
  refine ⟨fun s c o h => vote_gives h, fun s c o h => ?_, fun s c o h => ?_⟩
  · refine ⟨_, (exec_issues h (by rfl)).trans rfl, fun l => ?_⟩
    rw [testBit_maskOf, decide_eq_true_iff, List.mem_filter]
  · intro act sel from_ found
    have hlane : ∀ l, s.shflLane c o l = if found l = true then some (from_ l).toNat else none := fun l => by
      have hk : shflSrc (s.operandI c o.sel l) l = from_ l := shflSrc_eq _ _
      rw [s.shflLane_eq c o l, hk]
    refine (exec_issues h (by rfl)).trans (congrArg₂ (fun a b => Host.Outcome.next (s.send 6 (a ++ b)))
      (List.map_congr_left fun l _ => ?_) (List.map_congr_left fun l _ => ?_))
    · rw [hlane l]
      by_cases hf : found l = true
      · simp only [hf, if_true]
      · simp only [hf]
        rfl
    · rw [hlane l]
      by_cases hf : found l = true
      · simp only [hf, if_true]; rfl
      · simp only [Bool.eq_false_iff.mpr hf]; rfl

/-! The pairwise tree. -/

/-- A node of the tree: of two children, or of the one that is there. -/
def pairNode (f : Nat → Nat → Nat) : Option Nat → Option Nat → Option Nat
  | none, y => y
  | some x, none => some x
  | some x, some y => some (f x y)

theorem redLevel_cons (f : Nat → Nat → Nat) (a b : Option Nat) (l : List (Option Nat)) :
    redLevel f (a :: b :: l) = pairNode f a b :: redLevel f l := by
  cases a <;> cases b <;> rfl

theorem pairTree_succ (f : Nat → Nat → Nat) (leaf : Nat → Option Nat) (n b : Nat) :
    pairTree f leaf (n + 1) b = pairNode f (pairTree f leaf n b) (pairTree f leaf n (b + 2 ^ n)) := by
  rw [pairTree]
  cases pairTree f leaf n b <;> cases pairTree f leaf n (b + 2 ^ n) <;> rfl

/-- One level of the reduction makes a node of every two leaves. -/
theorem redLevel_range (f : Nat → Nat → Nat) (leaf : Nat → Option Nat) (k b : Nat) :
    redLevel f ((List.range' (2 * b) (2 * k)).map leaf) =
      (List.range' b k).map (fun i => pairNode f (leaf (2 * i)) (leaf (2 * i + 1))) := by
  induction k generalizing b with
  | zero => rfl
  | succ k ih =>
    rw [show 2 * (k + 1) = 2 * k + 1 + 1 by ring, List.range'_succ, List.range'_succ, List.range'_succ, List.map_cons, List.map_cons,
      redLevel_cons, List.map_cons, show 2 * b + 1 + 1 = 2 * (b + 1) by ring, ih]

/-- The tree over pairs of leaves is the tree of one level more. -/
theorem pairTree_pairs (f : Nat → Nat → Nat) (leaf : Nat → Option Nat) (n b : Nat) :
    pairTree f (fun i => pairNode f (leaf (2 * i)) (leaf (2 * i + 1))) n b = pairTree f leaf (n + 1) (2 * b) := by
  induction n generalizing b with
  | zero => rw [pairTree_succ]; rfl
  | succ n ih => rw [pairTree_succ, ih, ih, pairTree_succ f leaf (n + 1), show 2 * (b + 2 ^ n) = 2 * b + 2 ^ (n + 1) by ring]

/-- The levels of the reduction over the leaves of the tree leave its root. -/
theorem foldl_redLevel (f : Nat → Nat → Nat) (leaf : Nat → Option Nat) (n : Nat) :
    (List.range n).foldl (fun l _ => redLevel f l) ((List.range' 0 (2 ^ n)).map leaf) = [pairTree f leaf n 0] := by
  induction n generalizing leaf with
  | zero => rfl
  | succ n ih =>
    rw [List.range_succ_eq_map, List.foldl_cons, List.foldl_map, show 2 ^ (n + 1) = 2 * 2 ^ n by ring]
    have := redLevel_range f leaf (2 ^ n) 0
    rw [Nat.mul_zero] at this
    rw [this, ih, pairTree_pairs]

theorem reduce_eq (f : Nat → Nat → Nat) (leaf : Nat → Option Nat) : reduce f ((List.range 64).map leaf) = pairTree f leaf 6 0 := by
  rw [reduce, List.range_eq_range', show 64 = 2 ^ 6 by rfl, foldl_redLevel f leaf 6]
  cases pairTree f leaf 6 0 <;> rfl

/-- A tree whose nodes add modulo `m` gives the sum of its leaves modulo `m` (R168). -/
theorem pairTree_sum {f : Nat → Nat → Nat} {m : Nat} (hf : ∀ x y, f x y = (x + y) % m) (leaf : Nat → Option Nat) (n b : Nat) :
    (pairTree f leaf n b).getD 0 % m = ((List.range' b (2 ^ n)).map (fun l => (leaf l).getD 0)).sum % m := by
  induction n generalizing b with
  | zero => simp [pairTree]
  | succ n ih =>
    have hnode : ∀ u v, (pairNode f u v).getD 0 % m = (u.getD 0 + v.getD 0) % m := by
      rintro (_ | x) (_ | y) <;> simp [pairNode, hf]
    rw [pairTree_succ, hnode, Nat.add_mod, ih, ih, ← Nat.add_mod, ← List.sum_append, ← List.map_append, List.range'_append_1,
      show 2 ^ (n + 1) = 2 ^ n + 2 ^ n by ring]

/-! The active lanes. -/

theorem Gang.mem_lanesOf_lt {g : Gang} {m l : Nat} (h : l ∈ g.lanesOf m) : l < 64 := by
  obtain ⟨k, hk, hl⟩ := List.mem_flatMap.mp h
  split at hl
  · exact absurd hl List.not_mem_nil
  · obtain ⟨j, hj, rfl⟩ := List.mem_map.mp hl
    have := (mem_bitsOf.mp hk).1
    have := (mem_bitsOf.mp hj).1
    omega

theorem Gang.nodup_lanesOf (g : Gang) (m : Nat) : (g.lanesOf m).Nodup := by
  refine List.nodup_flatMap.mpr ⟨fun k _ => ?_, ?_⟩
  · split
    · exact List.nodup_nil
    · exact (nodup_bitsOf _ _).map fun i j h => by omega
  · refine (nodup_bitsOf 8 m).imp_of_mem fun {i j} _ _ hij => ?_
    intro l hi hj
    have hdiv : ∀ k, l ∈ (match (g.slice k).curSet with
        | none => []
        | some x => (bitsOf 8 x.mask).map (fun j => 8 * k + j)) → l / 8 = k := fun k h => by
      split at h
      · exact absurd h List.not_mem_nil
      · obtain ⟨q, hq, rfl⟩ := List.mem_map.mp h
        have := (mem_bitsOf.mp hq).1
        omega
    exact hij ((hdiv i hi).symm.trans (hdiv j hj))

/-- The sum over the active lanes is the sum over all 64, the others counting as nothing. -/
theorem State.sum_active (s : State) (c : Cursor) (g : Guard) (f : Nat → Nat) :
    ((List.range' 0 64).map (fun l => (if l ∈ s.active c g then some (f l) else none).getD 0)).sum = ((s.active c g).map f).sum := by
  have hzero : (fun l => (if l ∈ s.active c g then some (f l) else none).getD 0) = fun l => if l ∈ s.active c g then f l else 0 := by
    funext l
    split <;> rfl
  have hperm : ((List.range' 0 64).filter (fun l => decide (l ∈ s.active c g))).Perm (s.active c g) := by
    refine (List.perm_ext_iff_of_nodup (List.Nodup.filter _ List.nodup_range') ((Gang.nodup_lanesOf _ _).filter _)).mpr fun l => ?_
    rw [List.mem_filter, decide_eq_true_iff, List.mem_range'_1]
    exact ⟨And.right, fun h => ⟨⟨Nat.zero_le _, Gang.mem_lanesOf_lt (List.mem_filter.mp h).1⟩, h⟩⟩
  rw [hzero, ← (hperm.map f).sum_eq]
  generalize List.range' 0 64 = ls
  induction ls with
  | nil => rfl
  | cons l ls ih =>
    by_cases hl : l ∈ s.active c g
    · simp [hl, ih]
    · simp [hl, ih]

theorem extendTo_mod (t : Ty) (x : Nat) (h : isWide t = true) : extendTo t x % 2 ^ widthOf t = x % 2 ^ widthOf t := by
  rw [extendTo_ofNat]
  cases t with
  | i64 | n64 => exact Nat.mod_mod _ _
  | i32 =>
    show (BitVec.signExtend 32 (BitVec.ofNat 32 x)).toNat % 2 ^ 32 = x % 2 ^ 32
    rw [BitVec.signExtend_eq, BitVec.toNat_ofNat, Nat.mod_mod]
  | n32 => exact Nat.mod_mod _ _
  | _ => exact absurd h (by decide)

theorem isFlt_of_isWide {t : Ty} (h : isWide t = true) : isFlt t = false := by
  cases t <;> first | rfl | exact absurd h (by decide)

/-- A node of an integer reduction (R168), on bit vectors. -/
theorem State.redNode_int (s : State) (c : Cursor) (o : VRed) (hf : isFlt o.ty = false) (a b : BitVec (widthOf o.ty)) :
    let less := fun (a b : BitVec (widthOf o.ty)) => if isSigned o.ty then a.slt b else a.ult b
    let node := s.redNode c o a.toNat b.toNat
    (o.op = .add → node = (a + b).toNat) ∧ (o.op = .min → node = (if less b a then b else a).toNat)
      ∧ (o.op = .max → node = (if less a b then b else a).toNat) ∧ (o.op = .and → node = (a &&& b).toNat)
      ∧ (o.op = .or → node = (a ||| b).toNat) ∧ (o.op = .xor → node = (a ^^^ b).toNat) := by
  intro less node
  have hnode : node = match o.op with
      | .add => (a.toNat + b.toNat) % 2 ^ widthOf o.ty
      | .min => if intOf o.ty a ≤ intOf o.ty b then a.toNat else b.toNat
      | .max => if intOf o.ty b ≤ intOf o.ty a then a.toNat else b.toNat
      | .and => a.toNat &&& b.toNat
      | .or => a.toNat ||| b.toNat
      | .xor => a.toNat ^^^ b.toNat := by
    simp only [node, State.redNode, hf, Bool.false_eq_true, if_false, intVal_eq_intOf, BitVec.ofNat_toNat, BitVec.setWidth_eq]
      <;> cases o.op <;> rfl
  have hpick : ∀ x y : BitVec (widthOf o.ty), (if intOf o.ty x ≤ intOf o.ty y then a.toNat else b.toNat)
      = (if less y x = true then b else a).toNat := fun x y => by
    by_cases h : less y x = true
    · have hgt : ¬ intOf o.ty x ≤ intOf o.ty y := not_le.mpr ((intOf_lt_iff ..).mpr h)
      simp only [hgt, h, if_false, if_true]
    · have hle : intOf o.ty x ≤ intOf o.ty y := not_lt.mp fun hlt => h ((intOf_lt_iff ..).mp hlt)
      rw [if_pos hle, if_neg h]
  refine ⟨fun h => ?_, fun h => ?_, fun h => ?_, fun h => ?_, fun h => ?_, fun h => ?_⟩ <;> rw [hnode, h]
  · exact (BitVec.toNat_add a b).symm
  · exact hpick a b
  · exact hpick b a
  · exact (BitVec.toNat_and a b).symm
  · exact (BitVec.toNat_or a b).symm
  · exact (BitVec.toNat_xor a b).symm

theorem State.redNode_add (s : State) (c : Cursor) (o : VRed) (hf : isFlt o.ty = false) (hop : o.op = .add) (x y : Nat) :
    s.redNode c o x y = (x + y) % 2 ^ widthOf o.ty := by
  rw [State.redNode, hop, hf]
  rfl

/-- A float node of minimum or maximum is VFMIN or VFMAX of its children (R153, R168). -/
theorem State.redNode_minMax (s : State) (c : Cursor) (o : VRed) (hf : isFlt o.ty = true) (hop : o.op = .min ∨ o.op = .max) (x y : Nat) :
    s.redNode c o x y = fltMinMax (decide (o.op = .max)) o.ty x y := by
  rw [State.redNode, hf, if_pos rfl]
  rcases hop with h | h <;> rw [h] <;> rfl

theorem reductionsFollowTheTree : Claims.ReductionsFollowTheTree := by
  intro s c o h src leaf
  have hred : reduce (s.redNode c o) ((List.range 64).map (fun l => if (s.active c o.g).contains l then some (src l) else none))
      = pairTree (s.redNode c o) leaf 6 0 := by
    rw [reduce_eq]
    simp only [List.contains_iff_mem, leaf]
  refine ⟨if isFlt o.ty then s.canon c o.ty ((pairTree (s.redNode c o) leaf 6 0).getD 0)
      else extendTo o.ty ((pairTree (s.redNode c o) leaf 6 0).getD 0), ?_, fun hf => ?_, fun hf => ?_, fun hw hop => ?_,
    fun hf a b => s.redNode_int c o hf a b, fun hf a b => ⟨fun hop => ?_, fun hop => ?_⟩⟩
  · rw [← hred]
    exact (exec_issues h (by rfl)).trans rfl
  · rw [hf]; rfl
  · rw [hf]; rfl
  · have hf := isFlt_of_isWide hw
    have hsrc : src = fun l => s.operand c o.a l o.ty := by
      funext l
      simp only [src, hf]
      rfl
    rw [hf, if_neg Bool.false_ne_true, extendTo_mod _ _ hw, pairTree_sum (s.redNode_add c o hf hop), ← hsrc,
      ← s.sum_active c o.g src]
    rfl
  · show s.redNode c o a b = _
    rw [State.redNode, hf, if_pos rfl, hop]
    rfl
  · have hnode := s.redNode_minMax c o hf hop a b
    have hgives := fltMinMax_gives (decide (o.op = .max)) o.ty a b
    rw [← hnode] at hgives
    exact hgives

/-- Settles O24: the cross-lane instructions by the active lanes, the reduction by the levels of its tree. -/
theorem lanesCrossAndReduce : Obligations.LanesCrossAndReduce := ⟨laneCrossing, reductionsFollowTheTree⟩

end Sys2Proof.Machine
end

section
/-! The vector slot's frame (R92, R96, R71, R142): a gang table that lists one gang twice. -/

namespace Sys2Proof.Machine

/-- A gang with a write in flight, or with none, listed under the number 0. -/
def flyingGang (fl : List InFlight) : Nat × Gang := (0, { (default : Gang) with flight := fl })

/-- A bundle of the gang 0 with its checks made. -/
def checkedCursor : Cursor := { (default : Cursor) with checked := true }

/-- A state that lists the gang 0 twice, once with a write in flight. -/
def twiceListed : State :=
  { (default : State) with cur := some checkedCursor, gangs := [flyingGang [⟨1, 0, 0, 0, .s 0 0⟩], flyingGang []] }

/-- An instruction of the vector slot. -/
def someVneg : V1 := ⟨.i32, .rne, false, ⟨31, false⟩, 0, .l0⟩

theorem mem_smMod_same {α : Type} {m : List (Nat × α)} {i : Nat} {f : α → α} {x : α} (h : (i, x) ∈ smMod m i f) : ∃ y, x = f y := by
  obtain ⟨e, -, he⟩ := List.mem_map.mp h
  by_cases hk : e.1 = i
  · rw [if_pos hk] at he
    exact ⟨e.2, (Prod.mk.inj he).2.symm⟩
  · rw [if_neg hk] at he
    exact absurd (congrArg Prod.fst he) hk

/-- A state that differs in one gang's flight alone has one flight under that gang's number. -/
theorem flights_of_onlyFlight {s t : State} {c : Cursor} (h : s.onlyFlight t c) :
    ∃ fl : List InFlight, ∀ g, (c.gang, g) ∈ t.gangs → g.flight = fl := by
  obtain ⟨fl, rs, n, rfl⟩ := h
  refine ⟨fl, fun g hg => ?_⟩
  obtain ⟨y, rfl⟩ := mem_smMod_same (m := s.gangs) (f := fun g => { g with flight := fl, g := rs }) hg
  rfl

theorem exec_vneg {s : State} {c : Cursor} {o : V1} (h : s.issues c (.vneg o)) : exec (.vneg o) s = .next (s.int1 o c (fun a => -a)) :=
  exec_issues h (by rfl)

/-- Refutes O25: the claim is of every state, and where the table of gangs lists the bundle's gang twice, each with its own writes in
flight, no one list of writes is the flight of both; VNEG with no active lane leaves both as they are. -/
theorem not_vectorSlotFrame : ¬ Obligations.VectorSlotFrame := by
  intro h
  have hissues : twiceListed.issues checkedCursor (.vneg someVneg) := ⟨rfl, .inl rfl⟩
  obtain ⟨t, ht, honly, -⟩ := h twiceListed checkedCursor (.vneg someVneg) rfl hissues rfl
  have hexec : exec (.vneg someVneg) twiceListed = .next twiceListed := (exec_vneg hissues).trans rfl
  obtain rfl : twiceListed = t := Host.Outcome.next.inj (hexec.symm.trans ht)
  obtain ⟨fl, hfl⟩ := flights_of_onlyFlight honly
  have h1 : [⟨1, 0, 0, 0, .s 0 0⟩] = fl := hfl (flyingGang [⟨1, 0, 0, 0, .s 0 0⟩]).2 (.head _)
  have h2 : [] = fl := hfl (flyingGang []).2 (.tail _ (.head _))
  exact absurd (h1.trans h2.symm) (List.cons_ne_nil _ _)

end Sys2Proof.Machine
end

section
/-! Every operation keeps the state legal (R25, R357, R366, R393, R394, R397, R403, R404), one lemma for each, in the order of
the model: the state and its tables. -/

namespace Sys2Proof.Machine

/-! Lists of operations. -/

theorem State.Inv.foldl {α : Type} {f : State → α → State} (hf : ∀ s x, s.Inv → (f s x).Inv) {l : List α} {s : State} (hs : s.Inv) :
    (l.foldl f s).Inv := by
  induction l generalizing s with
  | nil => exact hs
  | cons x l ih => exact ih (hf s x hs)

theorem foldl_snd_inv {α β : Type} {f : β × State → α → β × State} (hf : ∀ p x, p.2.Inv → (f p x).2.Inv) {l : List α} {p : β × State}
    (hp : p.2.Inv) : (l.foldl f p).2.Inv := by
  induction l generalizing p with
  | nil => exact hp
  | cons x l ih => exact ih (hf p x hp)

theorem foldl_last_inv {α β γ : Type} {f : β × γ × State → α → β × γ × State} (hf : ∀ p x, p.2.2.Inv → (f p x).2.2.Inv) {l : List α}
    {p : β × γ × State} (hp : p.2.2.Inv) : (l.foldl f p).2.2.Inv := by
  induction l generalizing p with
  | nil => exact hp
  | cons x l ih => exact ih (hf p x hp)

theorem snd_inv_of_eq {α : Type} {p : α × State} {a : α} {t : State} (hp : p.2.Inv) (h : p = (a, t)) : t.Inv := by
  rw [h] at hp
  exact hp

theorem last_inv_of_eq {α β : Type} {p : α × β × State} {a : α} {b : β} {t : State} (hp : p.2.2.Inv) (h : p = (a, b, t)) : t.Inv := by
  rw [h] at hp
  exact hp

/-- A state with the device registers, the memory and the host memory of a legal one is legal. -/
theorem State.Inv.of_eq {s t : State} (hs : s.Inv) (hdev : t.dev = s.dev) (hmem : t.mem = s.mem) (hhost : t.host = s.host) : t.Inv := by
  unfold State.Inv
  rw [hdev, hmem, hhost]
  exact hs

theorem State.Inv.modGang {s : State} {u : Nat} {f : Gang → Gang} (hs : s.Inv) : (State.modGang s u f).Inv :=
  hs

theorem State.Inv.modGroup {s : State} {g : Nat} {f : Group → Group} (hs : s.Inv) : (State.modGroup s g f).Inv :=
  hs

theorem State.Inv.modCore {s : State} {c : Nat} {f : Core → Core} (hs : s.Inv) : (State.modCore s c f).Inv :=
  hs

theorem State.Inv.modCluster {s : State} {k : Nat} {f : Cluster → Cluster} (hs : s.Inv) : (State.modCluster s k f).Inv :=
  hs

theorem State.Inv.modDie {s : State} {d : Nat} {f : Die → Die} (hs : s.Inv) : (State.modDie s d f).Inv :=
  hs

theorem State.Inv.modCtx {s : State} {c : Nat} {f : Ctx → Ctx} (hs : s.Inv) : (State.modCtx s c f).Inv :=
  hs

theorem State.Inv.modQueue {s : State} {c q : Nat} {f : Queue → Queue} (hs : s.Inv) : (State.modQueue s c q f).Inv :=
  hs

theorem State.Inv.modLaunch {s : State} {c q n : Nat} {f : Launch → Launch} (hs : s.Inv) : (State.modLaunch s c q n f).Inv :=
  hs

theorem State.Inv.modLink {s : State} {f : Link → Link} (hs : s.Inv) : (State.modLink s f).Inv :=
  hs

theorem State.Inv.modPeer {s : State} {p : Nat} {f : Peer → Peer} (hs : s.Inv) : (State.modPeer s p f).Inv :=
  hs

theorem State.Inv.modReq {s : State} {r : Nat} {f : Req → Req} (hs : s.Inv) : (State.modReq s r f).Inv :=
  hs

theorem State.Inv.delReq {s : State} {r : Nat} (hs : s.Inv) : (State.delReq s r).Inv :=
  hs

theorem State.Inv.note {s : State} {x : LogLine} (hs : s.Inv) : (State.note s x).Inv :=
  hs

theorem State.Inv.modDev {s : State} {f : Dev → Dev} (hs : s.Inv) (hf : (f s.dev).ok) : (State.modDev s f).Inv := by
  obtain ⟨-, hmem, hhost⟩ := hs
  exact ⟨hf, hmem, hhost⟩

theorem State.Inv.later {s : State} {i : Instr} (hs : s.Inv) : (State.later s i).Inv :=
  hs

theorem State.Inv.fresh {s : State} (hs : s.Inv) : (State.fresh s).2.Inv :=
  hs

theorem State.Inv.tickSerial {s : State} (hs : s.Inv) : (State.tickSerial s).Inv :=
  hs

theorem State.Inv.modLaunchOf {s : State} {g : Nat} {f : Launch → Launch} (hs : s.Inv) : (State.modLaunchOf s g f).Inv :=
  hs

theorem State.Inv.toStage {s : State} {n : Nat} (hs : s.Inv) (hn : n ≤ 2) : (State.toStage s n).Inv := by
  obtain ⟨⟨hbit, havail, -, hrest⟩, hmem, hhost⟩ := hs
  exact ⟨⟨hbit, havail, hn, hrest⟩, hmem, hhost⟩

/-- Local HBM written in its canonical form. -/
theorem State.Inv.of_mem {s : State} {m : Memory} (hs : s.Inv) (hm : Memory.wf m = true) : ({ s with mem := m } : State).Inv := by
  obtain ⟨hdev, -, hhost⟩ := hs
  exact ⟨hdev, hm, hhost⟩

/-- Host memory written in its canonical form. -/
theorem State.Inv.of_host {s : State} {m : Memory} (hs : s.Inv) (hm : Memory.wf m = true) : ({ s with host := m } : State).Inv := by
  obtain ⟨hdev, hmem, -⟩ := hs
  exact ⟨hdev, hmem, hm⟩

theorem State.Inv.mem_wf {s : State} (hs : s.Inv) : Memory.wf s.mem = true := hs.2.1

theorem State.Inv.host_wf {s : State} (hs : s.Inv) : Memory.wf s.host = true := hs.2.2

theorem State.Inv.wr {s : State} {pa : Nat} {bs : List Byte} (hs : s.Inv) : (State.wr s pa bs).Inv :=
  hs.of_mem (Memory.writeN_wf pa bs hs.mem_wf)

theorem State.Inv.wr64 {s : State} {pa x : Nat} (hs : s.Inv) : (State.wr64 s pa x).Inv := by
  unfold State.wr64
  grind only [State.Inv.wr]

theorem State.Inv.wrAll {s : State} {ws : List (Nat × Byte)} (hs : s.Inv) : (State.wrAll s ws).Inv :=
  hs.of_mem (Memory.writeAll_wf ws hs.mem_wf)

theorem State.Inv.mark {s : State} {pa site : Nat} (hs : s.Inv) : (State.mark s pa site).Inv := by
  unfold State.mark
  split <;> exact hs

theorem State.Inv.unmark {s : State} {pa n : Nat} (hs : s.Inv) : (State.unmark s pa n).Inv :=
  hs

theorem State.Inv.touch {s : State} {pa : Nat} (hs : s.Inv) : (State.touch s pa).Inv :=
  hs

theorem State.Inv.crossed {s : State} {d : Nat} (hs : s.Inv) : (State.crossed s d).Inv :=
  hs

theorem State.Inv.clear {s : State} {t : Nat}
    (hs : s.Inv) : ({ s with mem := Memory.clear s.mem t 4096, tblNext := t + 4096 } : State).Inv :=
  hs.of_mem (Memory.clear_wf t 4096 hs.mem_wf)

theorem State.Inv.setEntry {va e lvl tbl l : Nat} {s : State} (hs : s.Inv) : (setEntry va e lvl tbl l s).Inv := by
  induction l generalizing tbl s with
  | zero =>
    unfold Machine.setEntry
    grind only [State.Inv.wr64]
  | succ k ih =>
    unfold Machine.setEntry
    grind only [State.Inv.wr64, State.Inv.clear, State.Inv.foldl]

theorem State.Inv.setPage {s : State} {c va size e : Nat} (hs : s.Inv) : (State.setPage s c va size e).Inv := by
  unfold State.setPage
  grind only [State.Inv.setEntry]

theorem State.Inv.modPages {s : State} {c va size : Nat} {f : PageRec → PageRec} (hs : s.Inv) : (State.modPages s c va size f).Inv :=
  hs

theorem State.Inv.dropTlb {s : State} {c va size : Nat} (hs : s.Inv) : (State.dropTlb s c va size).Inv :=
  hs

theorem State.Inv.dropCtx {s : State} {c : Nat} (hs : s.Inv) : (State.dropCtx s c).Inv :=
  hs

theorem State.Inv.tlbLookup {s : State} {core c va : Nat} (hs : s.Inv) : (State.tlbLookup s core c va).2.Inv := by
  unfold State.tlbLookup
  grind only [State.Inv.modCore]

theorem State.Inv.hostWr {s : State} {c iova : Nat} {bs : List Byte} (hs : s.Inv) : (State.hostWr s c iova bs).Inv :=
  hs.of_host (Memory.writeN_wf (hostKey c iova) bs hs.host_wf)

theorem State.Inv.askHost {s : State} {c va : Nat} (hs : s.Inv) : (State.askHost s c va).Inv := by
  unfold State.askHost
  split <;> exact hs

theorem State.Inv.spWr {s : State} {g a : Nat} {bs : List Byte} (hs : s.Inv) : (State.spWr s g a bs).Inv :=
  hs

theorem State.Inv.spWrAll {s : State} {g : Nat} {ws : List (Nat × Byte)} (hs : s.Inv) : (State.spWrAll s g ws).Inv :=
  hs

theorem State.Inv.send {s : State} {lat : Nat} {ws : List Write} (hs : s.Inv) : (State.send s lat ws).Inv := by
  unfold State.send
  split <;> exact hs

theorem State.Inv.modPort {s : State} {k : Nat} {f : Port → Port} (hs : s.Inv) : (State.modPort s k f).Inv :=
  hs

theorem State.Inv.recover {s : State} {p : Nat} (hs : s.Inv) : (State.recover s p).Inv := by
  unfold State.recover
  grind only [State.Inv.modPeer]

theorem State.Inv.transmit {s : State} {id : Nat} (hs : s.Inv) : (State.transmit s id).Inv := by
  unfold State.transmit
  grind only [State.Inv.modLink, State.Inv.modReq, State.Inv.modPort, State.Inv.recover]

theorem State.Inv.flushLink {s : State} (hs : s.Inv) : (State.flushLink s).Inv := by
  unfold State.flushLink
  grind only [State.Inv.transmit, State.Inv.foldl]

theorem State.Inv.request {s
    : State} {peer : Nat} {op : RemoteOp} {msg : Option (MsgKind × Msg)} {origin : Origin} {carries : List Nat} {hold gang : Nat} (hs :
        s.Inv) : (State.request s peer op msg origin carries hold gang).2.Inv := by
  unfold State.request
  grind only [State.Inv.modLink, State.Inv.fresh, State.Inv.transmit]

theorem State.Inv.sendMsg {s : State} {peer : Nat} {k : MsgKind} {seq addr : Nat}
    (hs : s.Inv) : (State.sendMsg s peer k seq addr).Inv := by
  unfold State.sendMsg
  grind only [State.Inv.request]

theorem State.Inv.noticeOn {s : State} {port peer : Nat} {k : MsgKind} (hs : s.Inv) : (State.noticeOn s port peer k).Inv :=
  hs

theorem State.Inv.notice {s : State} {peer : Nat} {k : MsgKind} (hs : s.Inv) : (State.notice s peer k).Inv := by
  unfold State.notice
  grind only [State.Inv.noticeOn]

theorem State.Inv.stale {s : State} {p : Nat} (hs : s.Inv) : (State.stale s p).Inv :=
  hs

theorem State.Inv.farAsk {s : State} {peer : Nat} {op : RemoteOp} {use : FarUse} {addr : Nat}
    (hs : s.Inv) : (State.farAsk s peer op use addr).2.Inv := by
  unfold State.farAsk
  grind only [State.Inv, State.Inv.request]

theorem State.Inv.hostAsk {s : State} {c va : Nat} {use : FarUse} (hs : s.Inv) : (State.hostAsk s c va use).2.Inv := by
  unfold State.hostAsk
  grind only [State.Inv, State.Inv.askHost]

theorem State.Inv.hubReadPage {s : State} {c va n : Nat} {use : FarUse} (hs : s.Inv) : (State.hubReadPage s c va n use).2.Inv := by
  unfold State.hubReadPage
  grind only [State.Inv.touch, State.Inv.crossed, State.Inv.farAsk, State.Inv.hostAsk]

theorem State.Inv.hubRead {s : State} {c va n : Nat} {use : FarUse} (hs : s.Inv) : (State.hubRead s c va n use).2.Inv := by
  unfold State.hubRead
  extract_lets far
  split
  next r t heq =>
    have ht : t.Inv := by
      refine snd_inv_of_eq (foldl_snd_inv (fun p x hp => ?_) hs) heq
      grind only [State.Inv.hubReadPage]
    split <;> exact ht

theorem State.Inv.recBlock {s : State} {c va : Nat} {bs : List Byte} (hs : s.Inv) : (State.recBlock s c va bs).2.2.Inv := by
  unfold State.recBlock
  grind only [State.Inv.tickSerial, State.Inv.wr, State.Inv.touch, State.Inv.crossed, State.Inv.hostWr, State.Inv.farAsk,
      State.Inv.hostAsk]

theorem State.Inv.record {s : State} {c va : Nat} {bs : List Byte} {kind : Nat} (hs : s.Inv) : (State.record s c va bs kind).2.Inv := by
  unfold State.record
  extract_lets ps far
  split
  · exact hs
  · split
    next fin ok t heq =>
      have ht : t.Inv := by
        refine last_inv_of_eq (foldl_last_inv (fun p x hp => ?_) hs) heq
        exact State.Inv.recBlock hp
      split
      · exact ht
      · grind only [State.Inv.note]

end Sys2Proof.Machine
end

section
/-! Every operation keeps the state legal (R25, R357, R366, R393, R394, R397, R403, R404), one lemma for each, in the order of
the model: faults, batons and waits. -/

namespace Sys2Proof.Machine

theorem State.Inv.setFlag {s : State} {u slices k : Nat} (hs : s.Inv) : (State.setFlag s u slices k).Inv :=
  hs

theorem State.Inv.fail {s : State} {u bit n : Nat} (hs : s.Inv) : (State.fail s u bit n).Inv :=
  hs

theorem State.Inv.arriveCurs {s : State} {u m : Nat} (hs : s.Inv) : (State.arriveCurs s u m).Inv :=
  hs

theorem State.Inv.arriveSets {s : State} {u : Nat} {new : LaneSet → Bool} (hs : s.Inv) : (State.arriveSets s u new).Inv :=
  hs

theorem State.Inv.wakeSets {s : State} {u ready : Nat} {p : Nat → LaneSet → Bool} (hs : s.Inv) : (State.wakeSets s u ready p).Inv :=
  hs

theorem State.Inv.tryRecords {s : State} {c q n : Nat} (hs : s.Inv) : (State.tryRecords s c q n).Inv := by
  induction n generalizing s with
  | zero => exact hs
  | succ n ih =>
    unfold State.tryRecords
    grind only [State.Inv.modQueue, State.Inv.record]

theorem State.Inv.tryAllRecords {s : State} (hs : s.Inv) : (State.tryAllRecords s).Inv := by
  unfold State.tryAllRecords
  grind only [State.Inv.tryRecords, State.Inv.foldl]

theorem State.Inv.stopNow {s : State} {u : Nat} (hs : s.Inv) : (State.stopNow s u).Inv :=
  hs

theorem State.Inv.park {s : State} {g : Nat} {f : FaultRec} (hs : s.Inv) : (State.park s g f).Inv := by
  unfold State.park
  grind only [State.Inv.modGroup, State.Inv.modQueue, State.Inv.stopNow, State.Inv.foldl]

theorem State.Inv.sysFault {s : State} {u cause pc addr detail : Nat} (hs : s.Inv) : (State.sysFault s u cause pc addr detail).Inv := by
  unfold State.sysFault
  grind only [State.Inv.park]

theorem State.Inv.protFault {s : State} {u pc addr sub : Nat} (hs : s.Inv) : (State.protFault s u pc addr sub).Inv := by
  unfold State.protFault
  grind only [State.Inv.sysFault]

theorem State.Inv.trap {s : State} {u m cause info pc at_ ready : Nat} (hs : s.Inv) : (State.trap s u m cause info pc at_ ready).Inv := by
  unfold State.trap
  grind only [State.Inv.modGang, State.Inv.arriveCurs, State.Inv.sysFault, State.Inv.protFault]

theorem State.Inv.preTrap {s : State} {c : Cursor} {cause info : Nat} (hs : s.Inv) : (State.preTrap s c cause info).Inv := by
  unfold State.preTrap
  grind only [State.Inv.trap]

theorem State.Inv.preFault {s : State} {c : Cursor} {addr sub : Nat} (hs : s.Inv) : (State.preFault s c addr sub).Inv := by
  unfold State.preFault
  grind only [State.Inv.protFault]

theorem State.Inv.hold {s : State} {u k : Nat} {h : Hold} (hs : s.Inv) : (State.hold s u k h).Inv :=
  hs

theorem State.Inv.unholdAt {s : State} {u : Nat} {h : Hold} {t : Nat} (hs : s.Inv) : (State.unholdAt s u h t).Inv := by
  unfold State.unholdAt
  grind only [State.Inv.modGang, State.Inv.arriveCurs]

theorem State.Inv.unhold {s : State} {u : Nat} {h : Hold} (hs : s.Inv) : (State.unhold s u h).Inv := by
  unfold State.unhold
  grind only [State.Inv.unholdAt]

theorem State.Inv.holdBlocks {s : State} {u : Nat} {h : Hold} {w : Wait} {pc : Nat} (hs : s.Inv) : (State.holdBlocks s u h w pc).Inv :=
  hs

theorem State.Inv.blockPart {s : State} {c : Cursor} {w : Wait} (hs : s.Inv) : (State.blockPart s c w).Inv :=
  hs

theorem State.Inv.setLanes {s : State} {u id : Nat} {lanes : List Nat} {f : AccLane → AccLane}
    (hs : s.Inv) : (State.setLanes s u id lanes f).Inv :=
  hs

theorem State.Inv.modBaton {s : State} {q : Nat} {f : Baton → Baton} (hs : s.Inv) : (State.modBaton s q f).Inv :=
  hs

theorem State.Inv.sweepBatons {s : State} (hs : s.Inv) : (State.sweepBatons s).Inv :=
  hs

theorem State.Inv.tellDests {s : State} {q : Nat} (hs : s.Inv) : (State.tellDests s q).Inv := by
  unfold State.tellDests
  grind only [State.Inv.sendMsg, State.Inv.modBaton, State.Inv.foldl]

theorem Dev.ok.expcnt {d : Dev} (hd : d.ok) (n : Nat) : ({ d with expcnt := n % 2 ^ 64 } : Dev).ok := by
  obtain ⟨hbit, havail, hstage, herr, hplanes, hpkg, hport, hbase, -, hsafe⟩ := hd
  exact ⟨hbit, havail, hstage, herr, hplanes, hpkg, hport, hbase, Nat.mod_lt _ (Nat.two_pow_pos 64), hsafe⟩

theorem State.Inv.dev_ok {s : State} (hs : s.Inv) : s.dev.ok := hs.1

theorem State.Inv.expiry {s : State} {srcInc srcPkg reason seq pa : Nat} (hs : s.Inv) :
    (State.expiry s srcInc srcPkg reason seq pa).Inv := by
  have hcount := (hs.modDev (f := fun d => { d with expcnt := (d.expcnt + 1) % 2 ^ 64 }) (hs.dev_ok.expcnt _))
  unfold State.expiry
  extract_lets n t u
  split
  · exact hcount
  · exact State.Inv.hostWr hcount

theorem State.Inv.failAcc {s : State} {u id bit : Nat} (hs : s.Inv) : (State.failAcc s u id bit).Inv :=
  hs

theorem State.Inv.killFault {s : State} {u id seq : Nat} (hs : s.Inv) : (State.killFault s u id seq).Inv := by
  unfold State.killFault
  grind only [State.Inv.sysFault]

theorem State.Inv.failLanes {s : State} {u id : Nat} {lanes : List Nat} {bit : Nat}
    (hs : s.Inv) : (State.failLanes s u id lanes bit).Inv := by
  unfold State.failLanes
  grind only [State.Inv.setLanes, State.Inv.failAcc, State.Inv.killFault]

theorem State.Inv.expireLanes {s : State} {u id : Nat} {lanes : List Nat} {seq : Nat}
    (hs : s.Inv) : (State.expireLanes s u id lanes seq).Inv := by
  unfold State.expireLanes
  grind only [State.Inv.setLanes, State.Inv.failAcc, State.Inv.killFault]

theorem State.Inv.expireOrigin {s : State} {o : Origin} {seq : Nat} (hs : s.Inv) : (State.expireOrigin s o seq).Inv := by
  unfold State.expireOrigin
  grind only [State.Inv.expireLanes]

theorem State.Inv.failBatons {n : Nat} {qs : List Nat} {s : State} (hs : s.Inv) : (State.failBatons n qs s).Inv := by
  induction n generalizing s qs with
  | zero => exact hs
  | succ n ih =>
    unfold State.failBatons
    split
    · exact hs
    · refine ih (.foldl (fun _ _ h => ?_) (.foldl (fun _ _ h => ?_) hs.modBaton.tellDests))
      · exact State.Inv.expireOrigin (State.Inv.delReq h)
      · exact State.Inv.expireOrigin (State.Inv.expiry (State.Inv.modLink h))

theorem State.Inv.failBaton {s : State} {q : Nat} (hs : s.Inv) : (State.failBaton s q).Inv := by
  unfold State.failBaton
  grind [State.Inv.of_eq, State.Inv.flushLink, State.Inv.failBatons]

theorem State.Inv.lostStore {s : State} {u id : Nat} (hs : s.Inv) : (State.lostStore s u id).Inv := by
  unfold State.lostStore
  grind only [State.Inv.later, State.Inv.failBaton]

theorem State.Inv.ackBaton {s : State} {q n : Nat} (hs : s.Inv) : (State.ackBaton s q n).Inv := by
  unfold State.ackBaton
  grind only [State.Inv.modBaton, State.Inv.tellDests]

theorem State.Inv.reply {s : State} {src inc tag : Nat} {a : AnsKind} {poison : Nat}
    (hs : s.Inv) : (State.reply s src inc tag a poison).Inv :=
  hs

theorem State.Inv.keepOutcome {s : State} {t : TagRec} (hs : s.Inv) : (State.keepOutcome s t).Inv :=
  hs

theorem State.Inv.answer {s : State} {src inc tag number : Nat} {a : AnsKind} {poison : Nat}
    (hs : s.Inv) : (State.answer s src inc tag number a poison).Inv :=
  hs

theorem State.Inv.applyHeld {n : Nat} {s : State} (hs : s.Inv) : (State.applyHeld n s).Inv := by
  induction n generalizing s with
  | zero => exact hs
  | succ n ih =>
    unfold State.applyHeld
    grind only [State.Inv.modLink, State.Inv.wrAll, State.Inv.tickSerial, State.Inv.setLanes, State.Inv.lostStore, State.Inv.ackBaton,
      State.Inv.answer]

theorem State.Inv.settleHeld {s : State} (hs : s.Inv) : (State.settleHeld s).Inv := by
  unfold State.settleHeld
  grind [State.Inv.of_eq, State.Inv.sweepBatons, State.Inv.applyHeld]

theorem State.Inv.dropHeld {s : State} {id reason : Nat} (hs : s.Inv) : (State.dropHeld s id reason).Inv := by
  unfold State.dropHeld
  grind only [State.Inv.modLink, State.Inv.sendMsg, State.Inv.expiry, State.Inv.expireOrigin, State.Inv.failBaton,
      State.Inv.keepOutcome, State.Inv.foldl]

theorem State.Inv.miss {s : State} {die c va : Nat} (hs : s.Inv) : (State.miss s die c va).Inv :=
  hs

theorem State.Inv.faultPage {s : State} {die c va : Nat} (hs : s.Inv) : (State.faultPage s die c va).Inv :=
  hs

theorem State.Inv.refillMerge {s : State} {die : Nat} (hs : s.Inv) : (State.refillMerge s die).Inv :=
  hs

theorem State.Inv.installDie {s : State} {die : Nat} {e : TlbEntry} (hs : s.Inv) : (State.installDie s die e).Inv :=
  hs

theorem State.Inv.translate {s : State} {core c va : Nat} {u : Use} (hs : s.Inv) : (State.translate s core c va u).2.Inv := by
  unfold State.translate
  grind only [State.Inv.tlbLookup, State.Inv.miss]

theorem State.Inv.countRegion {s : State} {c va die n : Nat} (hs : s.Inv) : (State.countRegion s c va die n).Inv :=
  hs

theorem State.Inv.acquired {s : State} {u : Nat} (hs : s.Inv) : (State.acquired s u).Inv :=
  hs

theorem State.Inv.noteAcquire {s : State} {u : Nat} {a : Acc} (hs : s.Inv) : (State.noteAcquire s u a).Inv := by
  unfold State.noteAcquire
  grind only [State.Inv.acquired]

end Sys2Proof.Machine
end

section
/-! Every operation keeps the state legal (R25, R357, R366, R393, R394, R397, R403, R404), one lemma for each, in the order of
the model: checks and performed accesses. -/

namespace Sys2Proof.Machine

theorem State.Inv.readOnly {s : State} {core acq pa n : Nat} (hs : s.Inv) : (State.readOnly s core acq pa n).2.Inv := by
  unfold State.readOnly
  grind only [State.Inv.modCore]

theorem State.Inv.parkOn {s : State} {u id : Nat} {a : Acc} {l : Nat} {grp : Option Nat} {cell : Nat}
    (hs : s.Inv) : (State.parkOn s u id a l grp cell).Inv := by
  unfold State.parkOn
  split <;> exact hs

theorem State.Inv.setFut {s : State} {grp : Option Nat} {cell : Nat} {full : Bool} (hs : s.Inv) : (State.setFut s grp cell full).Inv := by
  unfold State.setFut
  grind only [State.Inv, State.Inv.modGroup]

theorem State.Inv.answerPark {s : State} {u id : Nat} {a : Acc} {l : AccLane} {v : Nat} {bad : Bool}
    (hs : s.Inv) : (State.answerPark s u id a l v bad).Inv := by
  unfold State.answerPark
  grind only [State.Inv.modGang, State.Inv.later, State.Inv.setLanes, State.Inv.acquired, State.Inv.noteAcquire]

theorem State.Inv.present {s : State} {u id : Nat} {a : Acc} {l : AccLane} {grp : Option Nat} {cell : Nat}
    (hs : s.Inv) : (State.present s u id a l grp cell).Inv := by
  unfold State.present
  grind only [State.Inv.parkOn, State.Inv.setFut, State.Inv.answerPark]

theorem State.Inv.fill {s : State} {c : Nat} {grp : Option Nat} {cell : Nat} (hs : s.Inv) : (State.fill s c grp cell).2.Inv := by
  unfold State.fill
  grind only [State.Inv, State.Inv.modGang, State.Inv.modCore, State.Inv.tickSerial, State.Inv.setFut, State.Inv.foldl]

theorem State.Inv.ackOwn {s : State} {a : Acc} {n : Nat} (hs : s.Inv) : (State.ackOwn s a n).Inv := by
  unfold State.ackOwn
  grind only [State.Inv.ackBaton]

theorem State.Inv.dropCarrier {s : State} {u id : Nat} {a : Acc} {lanes : List Nat}
    (hs : s.Inv) : (State.dropCarrier s u id a lanes).Inv := by
  unfold State.dropCarrier
  grind only [State.Inv.expireLanes, State.Inv.failBaton]

theorem State.Inv.crossLost {s : State} {u id : Nat} {a : Acc} {l : AccLane} {v : Nat}
    (hs : s.Inv) : (State.crossLost s u id a l v).Inv := by
  unfold State.crossLost
  grind only [State.Inv.crossed, State.Inv.setLanes, State.Inv.lostStore, State.Inv.noteAcquire, State.Inv.answerPark]

theorem State.Inv.noteRemote {s : State} {u : Nat} {vas : List Nat} (hs : s.Inv) : (State.noteRemote s u vas).Inv := by
  unfold State.noteRemote
  grind only [State.Inv.modGroup]

theorem State.Inv.countPlace {s : State} {core c va : Nat} {p : Place} (hs : s.Inv) : (State.countPlace s core c va p).Inv := by
  unfold State.countPlace
  grind only [State.Inv.countRegion]

theorem State.Inv.performHbm {s : State} {u id : Nat} {a : Acc} {l : AccLane} {pa : Nat}
    (hs : s.Inv) : (State.performHbm s u id a l pa).2.Inv := by
  unfold State.performHbm
  grind only [State.Inv.tickSerial, State.Inv.wr, State.Inv.setLanes, State.Inv.settleHeld, State.Inv.countRegion,
      State.Inv.noteAcquire, State.Inv.readOnly, State.Inv.present, State.Inv.fill, State.Inv.ackOwn, State.Inv.dropCarrier,
          State.Inv.crossLost]

theorem State.Inv.performHost {s : State} {u id : Nat} {a : Acc} {l : AccLane} {io : Nat}
    (hs : s.Inv) : (State.performHost s u id a l io).Inv := by
  unfold State.performHost
  grind only [State.Inv.tickSerial, State.Inv.hostWr, State.Inv.setLanes, State.Inv.countRegion, State.Inv.noteAcquire]

theorem State.Inv.dropL1 {s : State} {pa n : Nat} (hs : s.Inv) : (State.dropL1 s pa n).Inv :=
  hs

theorem State.Inv.freeHbm {s : State} {pa size : Nat} (hs : s.Inv) : (State.freeHbm s pa size).Inv :=
  hs

theorem State.Inv.dropCopy {s : State} {c vpage : Nat} (hs : s.Inv) : (State.dropCopy s c vpage).Inv := by
  unfold State.dropCopy
  grind only [State.Inv.setPage, State.Inv.modPages, State.Inv.dropTlb, State.Inv.dropL1, State.Inv.freeHbm]

theorem State.Inv.freeSpill {s : State} {c io : Nat} (hs : s.Inv) : (State.freeSpill s c io).Inv :=
  hs

theorem State.Inv.freeMoveSpace {s : State} {m : Move} (hs : s.Inv) : (State.freeMoveSpace s m).Inv := by
  unfold State.freeMoveSpace
  grind only [State.Inv.freeHbm, State.Inv.freeSpill]

theorem State.Inv.restartMove {s : State} {m : Move} (hs : s.Inv) : (State.restartMove s m).Inv := by
  unfold State.restartMove
  grind only [State.Inv, State.Inv.setPage, State.Inv.modPages, State.Inv.freeMoveSpace]

theorem State.Inv.shootHere {s : State} {home addr serial : Nat} {waiting : List Nat}
    (hs : s.Inv) : (State.shootHere s home addr serial waiting).Inv := by
  unfold State.shootHere
  grind only [State.Inv.modLink, State.Inv.setPage, State.Inv.modPages, State.Inv.dropTlb, State.Inv.dropL1, State.Inv.dropCopy,
      State.Inv.restartMove, State.Inv.foldl]

theorem State.Inv.shootDown {s : State} {c va : Nat} (hs : s.Inv) : (State.shootDown s c va).Inv := by
  unfold State.shootDown
  grind only [State.Inv.modLink, State.Inv.later, State.Inv.modPages, State.Inv.sendMsg, State.Inv.shootHere, State.Inv.foldl]

theorem State.Inv.replayLane {s : State} {u id : Nat} {a : Acc} {l : AccLane} {ask : Bool}
    (hs : s.Inv) : (State.replayLane s u id a l ask).Inv := by
  unfold State.replayLane
  grind only [State.Inv.askHost, State.Inv.setLanes, State.Inv.miss, State.Inv.faultPage, State.Inv.fill, State.Inv.shootDown]

theorem State.Inv.stickLane {s : State} {u id : Nat} {a : Acc} {l : AccLane} {cause detail : Nat}
    (hs : s.Inv) : (State.stickLane s u id a l cause detail).Inv := by
  unfold State.stickLane
  grind only [State.Inv.sysFault, State.Inv.setLanes]

theorem State.Inv.poisonLane {s : State} {u id : Nat} {a : Acc} {l : AccLane} (hs : s.Inv) : (State.poisonLane s u id a l).Inv := by
  unfold State.poisonLane
  grind only [State.Inv.setLanes, State.Inv.lostStore]

theorem State.Inv.holdLanes {s : State} {u id : Nat} {a : Acc} {ls : List (AccLane × Nat)}
    (hs : s.Inv) : (State.holdLanes s u id a ls).Inv := by
  unfold State.holdLanes
  grind only [State.Inv.modLink, State.Inv.fresh, State.Inv.hold, State.Inv.setLanes, State.Inv.settleHeld, State.Inv.dropCarrier]

theorem State.Inv.holdAgain {s : State} {id : Nat} (hs : s.Inv) : (State.holdAgain s id).Inv := by
  unfold State.holdAgain
  grind only [State.Inv.modLink, State.Inv.modReq, State.Inv.delReq, State.Inv.hold, State.Inv.setLanes, State.Inv.settleHeld]

theorem State.Inv.sendLanes {s : State} {u id : Nat} {a : Acc} {peer : Nat} {ls : List (AccLane × Nat)}
    (hs : s.Inv) : (State.sendLanes s u id a peer ls).Inv := by
  unfold State.sendLanes
  grind only [State.Inv.modGroup, State.Inv.request, State.Inv.hold, State.Inv.setLanes, State.Inv.modBaton, State.Inv.failLanes,
      State.Inv.failBaton, State.Inv.countRegion, State.Inv.dropCarrier, State.Inv.foldl]

theorem State.Inv.decideHwait {u : Nat} {s : State} {h : Hold} (hs : s.Inv) : (State.decideHwait u s h).Inv := by
  unfold State.decideHwait
  grind only [State.Inv.unholdAt, State.Inv.holdBlocks, State.Inv.acquired]

theorem State.Inv.testHurdles {s : State} {cluster : Nat} (hs : s.Inv) : (State.testHurdles s cluster).Inv := by
  unfold State.testHurdles
  grind only [State.Inv.wakeSets, State.Inv.acquired, State.Inv.decideHwait, State.Inv.foldl]

theorem State.Inv.bankStore {s : State} {grp : Nat} {o : BankOp} (hs : s.Inv) : (State.bankStore s grp o).Inv := by
  unfold State.bankStore
  grind only [State.Inv.modGroup, State.Inv.setLanes]

theorem State.Inv.bankCell {s : State} {grp a : Nat} {f : List Byte → List Byte} (hs : s.Inv) : (State.bankCell s grp a f).Inv := by
  unfold State.bankCell
  grind only [State.Inv.modGroup, State.Inv.bankStore, State.Inv.foldl]

theorem State.Inv.performSp {s : State} {u id : Nat} {a : Acc} {l : AccLane} (hs : s.Inv) : (State.performSp s u id a l).2.Inv := by
  unfold State.performSp
  grind only [State.Inv.setLanes, State.Inv.noteAcquire, State.Inv.present, State.Inv.fill, State.Inv.bankStore]

theorem State.Inv.pumpLane {u id i : Nat} {acc : List Nat × List (AccLane × Nat × Nat) × State} (hs : acc.2.2.Inv) :
    (State.pumpLane u id acc i).2.2.Inv := by
  unfold State.pumpLane
  grind only [State.Inv.performSp, State.Inv.translate, State.Inv.touch, State.Inv.performHbm, State.Inv.performHost,
      State.Inv.replayLane,
    State.Inv.stickLane, State.Inv.poisonLane]

theorem State.Inv.pumpAcc {u id : Nat} {acc : List Nat × State} (hs : acc.2.Inv) : (State.pumpAcc u acc id).2.Inv := by
  unfold State.pumpAcc
  extract_lets lanes
  split
  next ws rem t heq =>
    have ht : t.Inv := last_inv_of_eq (foldl_last_inv (fun _ _ hp => State.Inv.pumpLane hp) hs) heq
    exact .foldl (fun _ _ h => by grind only [State.Inv.touch, State.Inv.holdLanes, State.Inv.sendLanes]) ht

theorem State.Inv.sweepAccs {s : State} {u : Nat} (hs : s.Inv) : (State.sweepAccs s u).Inv := by
  unfold State.sweepAccs
  grind only [State.Inv.modGang, State.Inv.wakeSets]

theorem State.Inv.pumpGang {s : State} {u : Nat} (hs : s.Inv) : (State.pumpGang s u).2.Inv := by
  unfold State.pumpGang
  split
  next ws t heq => exact (snd_inv_of_eq (foldl_snd_inv (fun _ _ hp => State.Inv.pumpAcc hp) hs) heq).sweepAccs

theorem State.Inv.pumpAll {n : Nat} {us : List Nat} {s : State} (hs : s.Inv) : (State.pumpAll n us s).Inv := by
  induction n generalizing us s with
  | zero => exact hs
  | succ n ih =>
    cases us with
    | nil => exact hs
    | cons u us => exact ih hs.pumpGang

theorem State.Inv.pump {s : State} {us : List Nat} (hs : s.Inv) : (State.pump s us).Inv := hs.pumpAll

theorem State.Inv.hubFill {s : State} {c cell v : Nat} (hs : s.Inv) : (State.hubFill s c cell v).Inv := by
  unfold State.hubFill
  grind only [State.Inv.wr, State.Inv.fill, State.Inv.pump]

theorem State.Inv.presentParks {s : State} {cluster : Nat} (hs : s.Inv) : (State.presentParks s cluster).Inv := by
  unfold State.presentParks
  grind only [State.Inv.pump]

theorem State.Inv.ackPage {s : State} {c vpage : Nat} (hs : s.Inv) : (State.ackPage s c vpage).Inv := by
  unfold State.ackPage
  grind only [State.Inv, State.Inv.modGang, State.Inv.refillMerge, State.Inv.pump, State.Inv.foldl]

/-- Every state that an option holds is legal. -/
def AllInv (o : Option State) : Prop := ∀ t ∈ o, t.Inv

theorem AllInv.none : AllInv none := fun _ h => absurd h (by simp)

theorem AllInv.some {s : State} (hs : s.Inv) : AllInv (some s) := fun t h => by
  cases h
  exact hs

theorem AllInv.map {α : Type} {o : Option α} {f : α → State} (hf : ∀ x, (f x).Inv) : AllInv (o.map f) := by
  cases o with
  | none => exact AllInv.none
  | some x => exact AllInv.some (hf x)

theorem AllInv.getD {o : Option State} {s : State} (ho : AllInv o) (hs : s.Inv) : (o.getD s).Inv := by
  cases o with
  | none => exact hs
  | some t => exact ho t rfl

theorem State.Inv.checkMode {s : State} {c : Cursor} {i : Instr} (hs : s.Inv) : AllInv (State.checkMode s c i) := by
  unfold State.checkMode
  split
  · exact AllInv.map (fun _ => hs.preTrap)
  · exact AllInv.none

theorem AllInv.firstOf {l : List (Option State)} (h : ∀ o ∈ l, AllInv o) : AllInv (firstOf l) := by
  intro t ht
  obtain ⟨o, ho, hot⟩ := List.mem_filterMap.mp (List.mem_of_mem_head? ht)
  exact h o ho t hot

theorem AllInv.stopIf {b : Bool} {s : State} (hs : s.Inv) : AllInv (stopIf b s) := by
  unfold Machine.stopIf
  split
  · exact AllInv.some hs
  · exact AllInv.none

theorem State.Inv.boundsTrap {s : State} {c : Cursor} {slot lane off : Nat} (hs : s.Inv) : (State.boundsTrap s c slot lane off).Inv := by
  unfold State.boundsTrap
  grind only [State.Inv.preTrap]

theorem State.Inv.extentIn {s : State} {c : Cursor} {slot : Nat} {e : Nat × Nat} (hs : s.Inv) : AllInv (State.extentIn s c slot e) := by
  unfold State.extentIn
  grind only [AllInv.none, AllInv.some, AllInv.stopIf, AllInv.map, State.Inv.boundsTrap]

theorem State.Inv.cellIn {s : State} {c : Cursor} {slot a n : Nat} (hs : s.Inv) : AllInv (State.cellIn s c slot a n) := by
  unfold State.cellIn
  grind only [AllInv.none, AllInv.some, AllInv.stopIf, AllInv.map, State.Inv.extentIn]

theorem State.Inv.laneBounds {s : State} {c : Cursor} {ls : List (Nat × Nat)} {n : Nat}
    (hs : s.Inv) : AllInv (State.laneBounds s c ls n) := by
  unfold State.laneBounds
  grind only [AllInv.none, AllInv.some, AllInv.stopIf, AllInv.map, State.Inv.boundsTrap, State.Inv.foldl]

theorem State.Inv.laneLocks {s : State} {c : Cursor} {glob : Bool} {ls : List (Nat × Nat)} {n : Nat} {writes : Bool}
    (hs : s.Inv) : AllInv (State.laneLocks s c glob ls n writes) := by
  unfold State.laneLocks
  grind only [AllInv.none, AllInv.some, AllInv.stopIf, AllInv.map, State.Inv.preTrap]

theorem State.Inv.laneForm {s : State} {c : Cursor} {glob : Bool} {ls : List (Nat × Nat)} {n : Nat}
    (hs : s.Inv) : AllInv (State.laneForm s c glob ls n) := by
  unfold State.laneForm
  grind only [AllInv.none, AllInv.some, AllInv.stopIf, AllInv.map, State.Inv.preFault]

theorem State.Inv.accessChecks {s : State} {c : Cursor} {sp : Bool} {ls : List (Nat × Nat)} {n : Nat} {writes : Bool} (hs : s.Inv) :
    AllInv (State.accessChecks s c sp ls n writes) := by
  unfold State.accessChecks
  refine AllInv.firstOf ?_
  simp only [List.forall_mem_cons, List.not_mem_nil, false_implies, implies_true, and_true]
  refine ⟨?_, hs.laneLocks, hs.laneForm⟩
  split
  · exact hs.laneBounds
  · exact AllInv.none

theorem State.Inv.strmChecks {s : State} {c : Cursor} {o : MStrm} (hs : s.Inv) : AllInv (State.strmChecks s c o) := by
  unfold State.strmChecks
  grind only [AllInv.none, AllInv.some, AllInv.stopIf, AllInv.map, State.Inv.preTrap, State.Inv.preFault, State.Inv.extentIn,
      State.Inv.cellIn]

theorem State.Inv.memChecks {s : State} {c : Cursor} {i : Instr} (hs : s.Inv) : AllInv (State.memChecks s c i) := by
  cases i <;> first | exact AllInv.none | exact hs.accessChecks | exact hs.strmChecks

theorem State.Inv.mmaChecks {s : State} {c : Cursor} {sx fb : Nat} {tiles : List Nat} {coop : Bool} (hs : s.Inv) :
    AllInv (State.mmaChecks s c sx fb tiles coop) := by
  unfold State.mmaChecks
  split
  · exact AllInv.some hs.preFault
  · split
    · exact AllInv.some hs.preFault
    · split
      · exact AllInv.none
      · refine AllInv.firstOf (List.forall_mem_append.mpr ⟨List.forall_mem_map.mpr fun _ _ => hs.cellIn, ?_⟩)
        exact List.forall_mem_singleton.mpr (AllInv.stopIf hs.preFault)

theorem State.Inv.imageChecks {s : State} {c : Cursor} {g : Guard} {sx sz n : Nat}
    (hs : s.Inv) : AllInv (State.imageChecks s c g sx sz n) := by
  unfold State.imageChecks
  grind only [AllInv.none, AllInv.some, AllInv.stopIf, AllInv.map, State.Inv.preFault, State.Inv.extentIn]

theorem State.Inv.copyChecks {s : State} {c : Cursor} {o : XCpy} {remote : Bool} (hs : s.Inv) :
    AllInv (State.copyChecks s c o remote) := by
  unfold State.copyChecks
  extract_lets a src dst d se de
  split
  · exact AllInv.some hs.preFault
  · split
    next x hx => exact AllInv.some (hs.cellIn x hx)
    next =>
      split
      · exact AllInv.some hs.preFault
      · refine AllInv.firstOf ?_
        simp only [List.forall_mem_cons, List.not_mem_nil, false_implies, implies_true, and_true]
        grind only [AllInv.none, AllInv.stopIf, State.Inv.extentIn, State.Inv.cellIn, State.Inv.preFault]

theorem State.Inv.xChecks {s : State} {c : Cursor} {i : Instr} (hs : s.Inv) : AllInv (State.xChecks s c i) := by
  unfold State.xChecks
  grind only [AllInv.none, AllInv.some, AllInv.stopIf, State.Inv.mmaChecks, State.Inv.imageChecks, State.Inv.copyChecks,
      State.Inv.preFault,
    State.Inv.cellIn]

theorem State.Inv.indirect {s : State} {c : Cursor} {t : Nat} (hs : s.Inv) : AllInv (State.indirect s c t) := AllInv.stopIf hs.preFault

theorem State.Inv.lapChecks {s : State} {c : Cursor} {g : Guard} {n : Src16} (hs : s.Inv) : AllInv (State.lapChecks s c g n) :=
  AllInv.stopIf hs.preFault

theorem State.Inv.cChecks {s : State} {c : Cursor} {i : Instr} (hs : s.Inv) : AllInv (State.cChecks s c i) := by
  unfold State.cChecks
  grind only [AllInv.none, AllInv.some, AllInv.stopIf, State.Inv.indirect, State.Inv.lapChecks, State.Inv.preFault, State.Inv.cellIn]

theorem State.Inv.pre {s : State} {c : Cursor} {i : Instr} (hs : s.Inv) : AllInv (State.pre s c i) := by
  unfold State.pre
  refine AllInv.firstOf ?_
  simp only [List.forall_mem_cons, List.not_mem_nil, false_implies, implies_true, and_true]
  exact ⟨hs.checkMode, hs.memChecks, hs.xChecks, hs.cChecks⟩

theorem State.Inv.preAll {s : State} {c : Cursor} {is : List Instr} {cur lap : Option State} (hs : s.Inv) (hcur : AllInv cur)
    (hlap : AllInv lap) : AllInv (State.preAll s c is cur lap) := by
  unfold State.preAll
  refine AllInv.firstOf ?_
  simp only [List.forall_mem_append, List.forall_mem_map, List.forall_mem_singleton]
  exact ⟨⟨⟨⟨⟨fun _ _ => hs.checkMode, hcur⟩, fun _ _ => hs.memChecks⟩, fun _ _ => hs.xChecks⟩, fun _ _ => hs.cChecks⟩, hlap⟩

end Sys2Proof.Machine
end

section
/-! Every operation keeps the state legal (R25, R357, R366, R393, R394, R397, R403, R404), one lemma for each, in the order of
the model: the slots of a bundle. -/

namespace Sys2Proof.Machine

theorem State.Inv.enter {s : State} {u : Nat} {a : Acc} (hs : s.Inv) : (State.enter s u a).Inv := by
  unfold State.enter
  grind only [State.Inv.modGang, State.Inv.fresh, State.Inv.noteRemote, State.Inv.pump]

theorem State.Inv.dropStrmLock {s : State} {core lock : Nat} (hs : s.Inv) : (State.dropStrmLock s core lock).Inv := by
  unfold State.dropStrmLock
  grind only [State.Inv.modCore]

theorem State.Inv.endStreams {s : State} {u m : Nat} (hs : s.Inv) : (State.endStreams s u m).Inv := by
  unfold State.endStreams
  grind only [State.Inv.modGang, State.Inv.dropStrmLock, State.Inv.foldl]

theorem State.Inv.strmx {s : State} {c : Cursor} (hs : s.Inv) : (State.strmx s c).Inv :=
  hs

theorem State.Inv.vOut {s : State} {c : Cursor} {g : Guard} {t : Ty} {d : Fin 256} {lat : Nat} {f : Nat → Nat}
    (hs : s.Inv) : (State.vOut s c g t d lat f).Inv := by
  unfold State.vOut
  grind only [State.Inv.send]

theorem State.Inv.pOut {s : State} {c : Cursor} {g : Guard} {d : Fin 32} {lat : Nat} {f : Nat → Bool}
    (hs : s.Inv) : (State.pOut s c g d lat f).Inv := by
  unfold State.pOut
  grind only [State.Inv.send]

theorem State.Inv.int1 {s : State} {o : V1} {c : Cursor} {f : Int → Int} (hs : s.Inv) : (State.int1 s o c f).Inv := by
  unfold State.int1
  grind only [State.Inv.vOut]

theorem State.Inv.int2 {s : State} {o : V2} {c : Cursor} {f : Int → Int → Int} (hs : s.Inv) : (State.int2 s o c f).Inv := by
  unfold State.int2
  grind only [State.Inv.vOut]

theorem State.Inv.bits1 {s : State} {o : V1} {c : Cursor} {f : Nat → Nat → Nat} (hs : s.Inv) : (State.bits1 s o c f).Inv := by
  unfold State.bits1
  grind only [State.Inv.vOut]

theorem State.Inv.bits2 {s : State} {o : V2} {c : Cursor} {f : Nat → Nat → Nat → Nat} (hs : s.Inv) : (State.bits2 s o c f).Inv := by
  unfold State.bits2
  grind only [State.Inv.vOut]

theorem State.Inv.flt1 {s : State} {o : V1} {c : Cursor} {lat : Nat} {f : Nat → Nat} (hs : s.Inv) : (State.flt1 s o c lat f).Inv := by
  unfold State.flt1
  grind only [State.Inv.vOut]

theorem State.Inv.flt2 {s : State} {o : V2} {c : Cursor} {f : Nat → Nat → Nat} (hs : s.Inv) : (State.flt2 s o c f).Inv := by
  unfold State.flt2
  grind only [State.Inv.vOut]

theorem State.Inv.arith2 {s : State} {o : V2} {c : Cursor} {f : Ex → Ex → Ex} (hs : s.Inv) : (State.arith2 s o c f).Inv := by
  unfold State.arith2
  grind only [State.Inv.flt2]

theorem State.Inv.trans {s : State} {o : V1} {c : Cursor} {op : TOp} (hs : s.Inv) : (State.trans s o c op).Inv := by
  unfold State.trans
  grind only [State.Inv.flt1]

theorem State.Inv.advance {s : State} {c : Cursor} {g : Guard} {rm : Rm} {n : Nat} (hs : s.Inv) : (State.advance s c g rm n).Inv := by
  unfold State.advance
  grind only [State.Inv.modGang]

theorem State.Inv.queueMat {s : State} {c : Cursor} {i : Instr} {f : MatCmd → MatCmd} (hs : s.Inv) : (State.queueMat s c i f).Inv :=
  hs

theorem State.Inv.setDepth {s : State} {grp t : Nat} {f : Nat → Nat} (hs : s.Inv) : (State.setDepth s grp t f).Inv :=
  hs

theorem State.Inv.queueOut {s : State} {c : Cursor} {i : Instr} {o : XZst} (hs : s.Inv) : (State.queueOut s c i o).Inv := by
  unfold State.queueOut
  grind only [State.Inv.modGang, State.Inv.queueMat]

theorem State.Inv.queueCopy {s : State} {c : Cursor} {i : Instr} {o : XCpy} {remote : Bool}
    (hs : s.Inv) : (State.queueCopy s c i o remote).Inv := by
  unfold State.queueCopy
  grind only [State.Inv.modGang, State.Inv.modCore, State.Inv.fresh, State.Inv.noteRemote]

theorem State.Inv.leaveBarriers {s : State} {u : Nat} (hs : s.Inv) : (State.leaveBarriers s u).Inv :=
  hs

theorem State.Inv.leaveWaiters {s : State} {u : Nat} (hs : s.Inv) : (State.leaveWaiters s u).Inv :=
  hs

theorem State.Inv.leavePower {s : State} {u : Nat} (hs : s.Inv) : (State.leavePower s u).Inv :=
  hs

theorem State.Inv.leaveAl {s : State} {u : Nat} (hs : s.Inv) : (State.leaveAl s u).Inv :=
  hs

theorem State.Inv.drainCheck {s : State} {g : Nat} (hs : s.Inv) : (State.drainCheck s g).Inv := by
  unfold State.drainCheck
  grind only [State.Inv.modGroup]

theorem State.Inv.recapture {s : State} {u : Nat} (hs : s.Inv) : (State.recapture s u).Inv := by
  unfold State.recapture
  grind only [State.Inv.modCore, State.Inv.foldl]

theorem State.Inv.gangDied {s : State} {u : Nat} (hs : s.Inv) : (State.gangDied s u).Inv := by
  unfold State.gangDied
  grind only [State.Inv.modGang, State.Inv.endStreams, State.Inv.leaveBarriers, State.Inv.leaveWaiters, State.Inv.leavePower,
      State.Inv.leaveAl, State.Inv.drainCheck]

theorem State.Inv.exitLanes {s : State} {u m ready : Nat} (hs : s.Inv) : (State.exitLanes s u m ready).Inv := by
  unfold State.exitLanes
  grind only [State.Inv.modGang, State.Inv.endStreams, State.Inv.gangDied]

theorem State.Inv.goto {s : State} {c : Cursor} {t : Nat} (hs : s.Inv) : (State.goto s c t).Inv :=
  hs

theorem State.Inv.gotoFar {s : State} {c : Cursor} {t : Nat} (hs : s.Inv) : (State.gotoFar s c t).Inv :=
  hs

theorem State.Inv.setLoops {s : State} {c : Cursor} {l : List Loop} (hs : s.Inv) : (State.setLoops s c l).Inv :=
  hs

theorem State.Inv.pred2 {s : State} {c : Cursor} {o : PBin} {f : Bool → Bool → Bool} (hs : s.Inv) : (State.pred2 s c o f).Inv := by
  unfold State.pred2
  grind only [State.Inv.send]

theorem State.Inv.scalar {s : State} {c : Cursor} {o : SBin} {f : Nat → Nat → Nat} (hs : s.Inv) : (State.scalar s c o f).Inv := by
  unfold State.scalar
  grind only [State.Inv.send]

theorem State.Inv.markLap {s : State} {c : Cursor} {n : Src16} {wait : Bool} (hs : s.Inv) : (State.markLap s c n wait).Inv := by
  unfold State.markLap
  grind only [State.Inv.modGang, State.Inv.modGroup, State.Inv.mark, State.Inv.unmark, State.Inv.hold]

theorem State.Inv.takeClass {s : State} {u c : Nat} (hs : s.Inv) : (State.takeClass s u c).Inv :=
  hs

theorem State.Inv.askClass {s : State} {u k id : Nat} (hs : s.Inv) : (State.askClass s u k id).Inv :=
  hs

theorem State.Inv.askLease {s : State} {u n id : Nat} (hs : s.Inv) : (State.askLease s u n id).Inv :=
  hs

theorem State.Inv.grantClass {s : State} {r : PwrReq} (hs : s.Inv) : (State.grantClass s r).Inv :=
  hs

theorem State.Inv.mulTile {s : State} {m : MatCmd} {h : Shape} {ameta : List Byte} {t col0 cols : Nat}
    (hs : s.Inv) : (State.mulTile s m h ameta t col0 cols).Inv :=
  hs

theorem State.Inv.storeTile {s : State} {m : MatCmd} {t : Nat} (hs : s.Inv) : (State.storeTile s m t).Inv := by
  unfold State.storeTile
  grind only [State.Inv.spWr, State.Inv.foldl]

theorem State.Inv.loadTile {s : State} {m : MatCmd} {t : Nat} (hs : s.Inv) : (State.loadTile s m t).Inv := by
  unfold State.loadTile
  grind only [State.Inv.modGroup, State.Inv.foldl]

theorem State.Inv.clearTile {s : State} {m : MatCmd} {t : Nat} (hs : s.Inv) : (State.clearTile s m t).Inv :=
  hs

theorem State.Inv.engineTranslate {s : State} {core c va : Nat} {u : Use} (hs : s.Inv) : (State.engineTranslate s core c va u).2.Inv := by
  unfold State.engineTranslate
  grind only [State.Inv.tlbLookup, State.Inv.installDie]

theorem State.Inv.rowPlaces {s : State} {core c : Nat} {ps : List (Nat × List Byte)} (hs : s.Inv) :
    (State.rowPlaces s core c ps).2.Inv := by
  unfold State.rowPlaces
  refine foldl_snd_inv (fun p x hp => ?_) hs
  exact State.Inv.engineTranslate hp

theorem State.Inv.engineFault {s : State} {core c va : Nat} {ask write : Bool}
    (hs : s.Inv) : (State.engineFault s core c va ask write).Inv := by
  unfold State.engineFault
  grind only [State.Inv.askHost, State.Inv.faultPage, State.Inv.shootDown]

theorem State.Inv.modMat {s : State} {core id : Nat} {f : MatCmd → MatCmd} (hs : s.Inv) : (State.modMat s core id f).Inv :=
  hs

theorem State.Inv.rowFault {s : State} {core id : Nat} {m : MatCmd} {held : State → State} (hs : s.Inv)
    (hheld : ∀ s, s.Inv → (held s).Inv) : (State.rowFault s core id m held).Inv := by
  unfold State.rowFault
  split
  · exact hs.modMat
  · exact hheld s hs

theorem State.Inv.writeRows {s : State} {core id : Nat} {m : MatCmd} {t : Nat} (hs : s.Inv) : (State.writeRows s core id m t).Inv := by
  unfold State.writeRows
  grind only [State.Inv.later, State.Inv.tickSerial, State.Inv.wrAll, State.Inv.touch, State.Inv.crossed, State.Inv.hostWr,
      State.Inv.request, State.Inv.fail, State.Inv.sysFault, State.Inv.miss, State.Inv.countPlace, State.Inv.rowPlaces,
          State.Inv.engineFault, State.Inv.modMat, State.Inv.rowFault, State.Inv.foldl]

theorem State.Inv.finishMat {s : State} {core id : Nat} {m : MatCmd} (hs : s.Inv) : (State.finishMat s core id m).Inv := by
  unfold State.finishMat
  grind only [State.Inv.modCore, State.Inv.setFlag, State.Inv.protFault]

theorem State.Inv.runMat {s : State} {core id : Nat} {m : MatCmd} (hs : s.Inv) : (State.runMat s core id m).Inv := by
  unfold State.runMat
  grind only [State.Inv.mulTile, State.Inv.storeTile, State.Inv.loadTile, State.Inv.clearTile, State.Inv.writeRows, State.Inv.finishMat]

theorem State.Inv.fire {s : State} {l : List (Nat × Nat × MatCmd)} {z0 z1 : MatCmd} {cluster : Nat}
    (hs : s.Inv) : (State.fire s l z0 z1 cluster).Inv := by
  unfold State.fire
  grind only [State.Inv.modMat, State.Inv.foldl]

theorem State.Inv.modCopy {s : State} {core id : Nat} {f : CopyCmd → CopyCmd} (hs : s.Inv) : (State.modCopy s core id f).Inv :=
  hs

theorem State.Inv.countHurdle {s : State} {grp off n : Nat} (hs : s.Inv) : (State.countHurdle s grp off n).Inv := by
  unfold State.countHurdle
  grind only [State.Inv.bankCell]

theorem State.Inv.deliverSp {s : State} {grp : Nat} {ws : List (Nat × Byte)} {n : Nat} {hurdle : Option Nat}
    (hs : s.Inv) : (State.deliverSp s grp ws n hurdle).Inv := by
  unfold State.deliverSp
  grind only [State.Inv.spWrAll, State.Inv.countHurdle]

theorem State.Inv.lockRemote {s : State} {grp : Option Nat} {off n : Nat} {dest : Bool} {hurdle : Option Nat} {owner : Nat}
    (hs : s.Inv) : (State.lockRemote s grp off n dest hurdle owner).2.Inv := by
  unfold State.lockRemote
  grind only [State.Inv.modCore]

theorem State.Inv.unlockRemote {s : State} {owner : Nat} (hs : s.Inv) : (State.unlockRemote s owner).Inv :=
  hs

theorem State.Inv.failCopy {s : State} {core id bit : Nat} (hs : s.Inv) : (State.failCopy s core id bit).Inv :=
  hs

theorem State.Inv.askLock {s : State} {core id : Nat} {m : CopyCmd} (hs : s.Inv) : (State.askLock s core id m).Inv := by
  unfold State.askLock
  grind only [State.Inv.request, State.Inv.modCopy, State.Inv.lockRemote, State.Inv.failCopy]

theorem State.Inv.doneElems {s : State} {core id : Nat} {ns : List Nat} (hs : s.Inv) : (State.doneElems s core id ns).Inv :=
  hs

theorem State.Inv.sentElems {s : State} {core id r : Nat} {ns : List Nat} (hs : s.Inv) : (State.sentElems s core id r ns).Inv :=
  hs

theorem State.Inv.sendCopy {s : State} {core id peer : Nat} {op : RemoteOp} {ns : List Nat}
    (hs : s.Inv) : (State.sendCopy s core id peer op ns).Inv := by
  unfold State.sendCopy
  grind only [State.Inv.request, State.Inv.failCopy, State.Inv.sentElems]

theorem State.Inv.sendElems {s : State} {core id : Nat} {m : CopyCmd} {l : List FarElem}
    (hs : s.Inv) : (State.sendElems s core id m l).Inv := by
  unfold State.sendElems
  grind only [State.Inv.sendCopy, State.Inv.foldl]

theorem State.Inv.sideOf {s : State} {core c va : Nat} {glob : Bool} {u : Use}
    (hs : s.Inv) : (State.sideOf s core c va glob u).2.Inv := by
  unfold State.sideOf
  grind only [State.Inv.countPlace, State.Inv.engineTranslate]

theorem State.Inv.copyFault {s : State} {core id : Nat} {m : CopyCmd} {va : Nat} {p : Place} {write : Bool}
    (hs : s.Inv) : (State.copyFault s core id m va p write).Inv := by
  unfold State.copyFault
  grind only [State.Inv.sysFault, State.Inv.miss, State.Inv.engineFault, State.Inv.modCopy, State.Inv.failCopy]

theorem State.Inv.copyCrossed {s : State} {m : CopyCmd} {d : Nat} (hs : s.Inv) : (State.copyCrossed s m d).Inv :=
  hs

theorem State.Inv.hostWrAll {s : State} {ws : List (Nat × Byte)}
    (hs : s.Inv) : ({ s with host := Memory.writeAll s.host ws } : State).Inv :=
  hs.of_host (Memory.writeAll_wf ws hs.host_wf)

theorem State.Inv.putElem {s : State} {core id : Nat} {m : CopyCmd} {n : Nat} {bs : List Byte} (hs : s.Inv) :
    (State.putElem s core id m n bs).2.Inv := by
  unfold State.putElem
  extract_lets g ws va cells
  split
  · exact hs.deliverSp.doneElems
  · split
    · grind only [State.Inv.failCopy, State.Inv.copyCrossed, State.Inv.deliverSp, State.Inv.doneElems]
    · have hside := State.Inv.sideOf (core := core) (c := g.ctx) (va := va) (glob := true) (u := .write) hs
      split <;> rename_i heq <;> have ht := snd_inv_of_eq hside heq
      · split
        · exact ht.copyCrossed.doneElems
        · exact ht.touch.wrAll.tickSerial.doneElems
      · exact (State.Inv.hostWrAll ht).tickSerial.doneElems
      · exact ht
      · exact ht.later.doneElems
      · exact ht.copyFault
      · exact ht

theorem State.Inv.copyElem {core id n : Nat} {acc : List FarElem × State} (hs : acc.2.Inv) : (State.copyElem core id acc n).2.Inv := by
  unfold State.copyElem
  grind only [State.Inv.putElem, State.Inv.failCopy, State.Inv.copyCrossed, State.Inv.sideOf, State.Inv.touch, State.Inv.later,
    State.Inv.copyFault]

theorem State.Inv.batchDone {s : State} {u id : Nat} (hs : s.Inv) : (State.batchDone s u id).Inv := by
  unfold State.batchDone
  grind only [State.Inv.modGang, State.Inv.setFlag, State.Inv.foldl]

theorem State.Inv.currentCheck {s : State} {c : Cursor} {is : List Instr} (hs : s.Inv) : AllInv (State.currentCheck s c is) := by
  unfold State.currentCheck
  grind only [AllInv.none, AllInv.some, AllInv.stopIf, AllInv.map, State.Inv.preTrap]

theorem State.Inv.beforeRoom {s : State} {c : Cursor} {is : List Instr} (hs : s.Inv) : AllInv (State.beforeRoom s c is) := by
  unfold State.beforeRoom
  refine AllInv.firstOf ?_
  simp only [List.forall_mem_append, List.forall_mem_map, List.forall_mem_singleton]
  exact ⟨⟨⟨fun _ _ => hs.checkMode, hs.currentCheck⟩, fun _ _ => hs.memChecks⟩, fun _ _ => hs.xChecks⟩

theorem State.Inv.asRunning {s : State} {us : List Nat} (hs : s.Inv) : (State.asRunning s us).Inv := by
  unfold State.asRunning
  grind only [State.Inv.modGang, State.Inv.modGroup, State.Inv.foldl]

theorem State.Inv.serveWaitf {s : State} {u : Nat} (hs : s.Inv) : (State.serveWaitf s u).Inv := by
  unfold State.serveWaitf
  grind only [State.Inv.modGang, State.Inv.foldl]

theorem State.Inv.watch {s : State} {u : Nat} (hs : s.Inv) : (State.watch s u).Inv := by
  unfold State.watch
  grind only [State.Inv.modGang, State.Inv.later, State.Inv.foldl]

theorem State.Inv.age {s : State} {l : List Issuer} (hs : s.Inv) : (State.age s l).Inv := by
  unfold State.age
  grind only [State.Inv.modGang, State.Inv.later, State.Inv.foldl]

theorem State.Inv.commence {s : State} {c : Cursor} {is : List Instr} (hs : s.Inv) : (State.commence s c is).Inv := by
  unfold State.commence
  grind only [State.Inv.modGang, State.Inv.modGroup, State.Inv.modCore, State.Inv.modCluster, State.Inv.tickSerial, State.Inv.foldl]

theorem State.Inv.lateFault {s : State} {u k : Nat} (hs : s.Inv) : (State.lateFault s u k).Inv := by
  unfold State.lateFault
  grind only [State.Inv.park, State.Inv.sysFault, State.Inv.preAll, State.Inv.currentCheck, State.Inv.asRunning]

theorem State.Inv.finish {s : State} (hs : s.Inv) : (State.finish s).Inv := by
  unfold State.finish
  grind only [State.Inv, State.Inv.modGang, State.Inv.arriveCurs, State.Inv.arriveSets]

end Sys2Proof.Machine
end

section
/-! Every operation keeps the state legal (R25, R357, R366, R393, R394, R397, R403, R404), one lemma for each, in the order of
the model: pages, arrivals and queues. -/

namespace Sys2Proof.Machine

/-! The place that `firstFree` finds stays folded: its bounds are too large to compute with. -/

theorem State.Inv.allocPage {s t : State} {size pa : Nat} {die : Option Nat}
    (hs : s.Inv) (h : State.allocPage s size die = some (pa, t)) :
    t.Inv := by
  conv at h => lhs; fun; fun; fun; delta State.allocPage
  extract_lets used d n at h
  generalize firstFree used n _ _ _ = o at h
  cases o with
  | none => exact absurd h (by simp)
  | some u =>
    obtain ⟨-, rfl⟩ := Prod.mk.inj (Option.some.inj h)
    exact (State.Inv.of_mem hs (Memory.clear_wf (u * 0x10000) size hs.mem_wf)).of_eq rfl rfl rfl

theorem State.Inv.ackRange {s : State} {c va size : Nat} (hs : s.Inv) : (State.ackRange s c va size).Inv := by
  unfold State.ackRange
  grind only [State.Inv.ackPage, State.Inv.foldl]

theorem State.Inv.putPages {s : State} {c va size : Nat} {r : PageRec} (hs : s.Inv) : (State.putPages s c va size r).Inv :=
  hs

theorem State.Inv.dropProofs {s : State} {c va size : Nat} (hs : s.Inv) : (State.dropProofs s c va size).Inv :=
  hs

theorem State.Inv.clearPage {s : State} {c va size : Nat} (hs : s.Inv) : (State.clearPage s c va size).Inv := by
  unfold State.clearPage
  grind only [State.Inv, State.Inv.modCtx, State.Inv.setPage, State.Inv.dropTlb, State.Inv.dropL1, State.Inv.dropProofs, State.Inv.foldl]

theorem State.Inv.openPage {s : State} {c vpage : Nat} (hs : s.Inv) : (State.openPage s c vpage).Inv := by
  unfold State.openPage
  grind only [State.Inv.setPage, State.Inv.modPages, State.Inv.dropTlb, State.Inv.dropL1, State.Inv.dropCopy, State.Inv.ackPage,
      State.Inv.dropProofs]

theorem State.Inv.modEntry {s : State} {m : Move} {f : TtEntry → TtEntry} (hs : s.Inv) : (State.modEntry s m f).Inv :=
  hs

theorem State.Inv.settleEntry {s : State} {m : Move} (hs : s.Inv) : (State.settleEntry s m).Inv := by
  unfold State.settleEntry
  grind only [State.Inv.modLaunch, State.Inv.modEntry]

theorem State.Inv.moveOver {s : State} {m : Move} {ok : Bool} {n : Nat} (hs : s.Inv) : (State.moveOver s m ok n).Inv := by
  unfold State.moveOver
  grind only [State.Inv, State.Inv.modLaunch, State.Inv.note, State.Inv.modEntry, State.Inv.settleEntry, State.Inv.foldl]

theorem State.Inv.abandonMove {s : State} {m : Move} (hs : s.Inv) : (State.abandonMove s m).Inv := by
  unfold State.abandonMove
  grind only [State.Inv.setPage, State.Inv.modPages, State.Inv.freeMoveSpace, State.Inv.moveOver]

theorem State.Inv.dropMoves {s : State} {c vpage : Nat} (hs : s.Inv) : (State.dropMoves s c vpage).Inv := by
  unfold State.dropMoves
  grind only [State.Inv.moveOver, State.Inv.abandonMove, State.Inv.foldl]

theorem State.Inv.ackShoots {s : State} (hs : s.Inv) : (State.ackShoots s).Inv := by
  unfold State.ackShoots
  grind only [State.Inv.modLink, State.Inv.sendMsg, State.Inv.foldl]

theorem State.Inv.settleShoots {s : State} (hs : s.Inv) : (State.settleShoots s).Inv := by
  unfold State.settleShoots
  grind only [State.Inv.modLink, State.Inv.sendMsg, State.Inv.openPage, State.Inv.ackShoots, State.Inv.foldl]

theorem State.Inv.refuseLanes {s : State} {die c page : Nat} {w : Walk} (hs : s.Inv) : (State.refuseLanes s die c page w).Inv := by
  unfold State.refuseLanes
  grind only [State.Inv.stickLane, State.Inv.poisonLane, State.Inv.foldl]

theorem State.Inv.answerPage {die c : Nat} {s : State} {page : Nat} (hs : s.Inv) : (State.answerPage die c s page).Inv := by
  unfold State.answerPage
  grind only [State.Inv.faultPage, State.Inv.installDie, State.Inv.refuseLanes]

theorem State.Inv.refuseEngines {s : State} {c vpage : Nat} (hs : s.Inv) : (State.refuseEngines s c vpage).Inv := by
  unfold State.refuseEngines
  grind only [State.Inv.sysFault, State.Inv.modMat, State.Inv.modCopy, State.Inv.foldl]

theorem State.Inv.refusePage {s : State} {c vpage : Nat} (hs : s.Inv) : (State.refusePage s c vpage).Inv := by
  unfold State.refusePage
  grind only [State.Inv, State.Inv.modGang, State.Inv.sysFault, State.Inv.refillMerge, State.Inv.refuseEngines, State.Inv.foldl]

theorem State.Inv.answerAsks {s : State} {c vpage : Nat} {refused : Bool} (hs : s.Inv) : (State.answerAsks s c vpage refused).Inv :=
  hs

theorem State.Inv.modDeque {s : State} {core c : Nat} {f : Deque → Deque} (hs : s.Inv) : (State.modDeque s core c f).Inv :=
  hs

theorem State.Inv.raise {s : State} {core c : Nat} {up : Bool} (hs : s.Inv) : (State.raise s core c up).Inv :=
  hs

theorem State.Inv.leaveForks {s : State} {u : Nat} (hs : s.Inv) : (State.leaveForks s u).Inv := by
  unfold State.leaveForks
  grind only [State.Inv.modDeque, State.Inv.raise]

theorem State.Inv.dequeOp {s : State} {core c : Nat} {f : Deque → Deque} (hs : s.Inv) : (State.dequeOp s core c f).Inv :=
  hs

theorem State.Inv.push {s : State} {u bits pc id : Nat} {h : Hold} (hs : s.Inv) : (State.push s u bits pc id h).Inv := by
  unfold State.push
  grind only [State.Inv.unhold, State.Inv.holdBlocks, State.Inv.raise, State.Inv.dequeOp]

theorem State.Inv.endHold {u : Nat} {s : State} {h : Hold} (hs : s.Inv) : (State.endHold u s h).Inv := by
  unfold State.endHold
  grind only [State.Inv.modGang, State.Inv.unhold, State.Inv.acquired, State.Inv.pump, State.Inv.dropStrmLock, State.Inv.strmx,
      State.Inv.push, State.Inv.foldl]

theorem State.Inv.pushBlocked {s : State} {core ctx : Nat} (hs : s.Inv) : (State.pushBlocked s core ctx).Inv := by
  unfold State.pushBlocked
  grind only [State.Inv.wakeSets, State.Inv.dequeOp]

theorem State.Inv.setX {s : State} {c va : Nat} (hs : s.Inv) : (State.setX s c va).Inv := by
  unfold State.setX
  grind only [State.Inv.setPage, State.Inv.dropTlb]

theorem State.Inv.readCode {s : State} {c base len : Nat} (hs : s.Inv) : (State.readCode s c base len).2.Inv := by
  unfold State.readCode
  extract_lets far n
  split
  next r t heq =>
    have ht : t.Inv := by
      refine snd_inv_of_eq (foldl_snd_inv (fun p x hp => ?_) hs) heq
      grind only [State.Inv.hubReadPage]
    split <;> exact ht

theorem State.Inv.judgeCode {s : State} {c : Nat} {d : List Nat} {code : List Byte}
    (hs : s.Inv) : (State.judgeCode s c d code).2.Inv := by
  unfold State.judgeCode
  grind only [State.Inv, State.Inv.setX, State.Inv.foldl]

theorem State.Inv.proofStep {s : State} {r : ProofReq} (hs : s.Inv) : (State.proofStep s r).2.Inv := by
  unfold State.proofStep
  grind only [State.Inv.hubRead, State.Inv.readCode, State.Inv.judgeCode]

theorem State.Inv.status {s : State} {rec_ st detail value : Nat} (hs : s.Inv) : (State.status s rec_ st detail value).Inv := by
  unfold State.status
  grind only [State.Inv, State.Inv.wr]

/-- The safe kernel's registers take values that they can hold (R397). -/
theorem Dev.ok.safe {d : Dev} (hd : d.ok) {n : Nat} (hn : n ≤ 3) (a b c : Nat) :
    ({ d with safeState := n, safeEnd := a, safeReason := b, safeOffset := c } : Dev).ok := by
  obtain ⟨hbit, havail, hstage, herr, hplanes, hpkg, hport, hbase, hcount, -⟩ := hd
  exact ⟨hbit, havail, hstage, herr, hplanes, hpkg, hport, hbase, hcount, hn⟩

theorem State.Inv.safeProofed {s : State} {f : Finding} (hs : s.Inv) : (State.safeProofed s f).Inv := by
  unfold State.safeProofed
  split
  · exact hs.modQueue
  · exact State.Inv.modDev (s := { s with ctxs := smDel s.ctxs safeCtx }) hs (hs.dev_ok.safe (Nat.le_refl 3) _ _ _)

theorem State.Inv.startMove {s : State} {m : Move} {e dst : Nat} (hs : s.Inv) : (State.startMove s m e dst).Inv := by
  unfold State.startMove
  grind only [State.Inv, State.Inv.fresh, State.Inv.setPage, State.Inv.modPages, State.Inv.dropTlb, State.Inv.dropL1]

theorem State.Inv.tryMove {s : State} {m : Move} (hs : s.Inv) : (State.tryMove s m).Inv := by
  have hA := @State.Inv.allocPage
  conv => arg 1; fun; fun; delta State.tryMove
  generalize @State.allocPage = A at hA ⊢
  split
  · exact hs
  · split
    · exact hs
    · split
      · exact hs
      · exact State.Inv.moveOver (by grind only [State.Inv.dropCopy])
      · exact hs.moveOver
      · next e _ =>
        extract_lets pa
        split
        · grind only [State.Inv.moveOver, State.Inv.modCtx, State.Inv.startMove]
        · split
          · exact hs.moveOver
          · split
            · exact hs.askHost
            · split
              · exact hs
              · next dst t ht => exact State.Inv.startMove (hA hs ht)

theorem State.Inv.pumpMoves {s : State} (hs : s.Inv) : (State.pumpMoves s).Inv := by
  unfold State.pumpMoves
  grind only [State.Inv.tryMove, State.Inv.foldl]

theorem State.Inv.pinRange {s : State} {c va size : Nat} {on : Bool} (hs : s.Inv) : (State.pinRange s c va size on).Inv :=
  hs

theorem State.Inv.beginEntry {c q n : Nat} {s : State} {i : Nat} (hs : s.Inv) : (State.beginEntry c q n s i).Inv := by
  unfold State.beginEntry
  grind only [State.Inv, State.Inv.later, State.Inv.dropCopy, State.Inv.modEntry, State.Inv.settleEntry, State.Inv.pinRange,
      State.Inv.foldl]

theorem State.Inv.pace {s : State} {c q n : Nat} (hs : s.Inv) : (State.pace s c q n).Inv := by
  unfold State.pace
  grind only [State.Inv.pumpMoves, State.Inv.beginEntry, State.Inv.foldl]

theorem State.Inv.paceAll {s : State} (hs : s.Inv) : (State.paceAll s).Inv := by
  unfold State.paceAll
  grind only [State.Inv.pace, State.Inv.foldl]

theorem State.Inv.missRecord {s : State} {x : Group} {lap : Nat} {miss : Nat × Nat × Nat × Nat}
    (hs : s.Inv) : (State.missRecord s x lap miss).2.Inv := by
  unfold State.missRecord
  grind only [State.Inv.modLaunch, State.Inv.record, State.Inv.miss]

theorem State.Inv.makeRoom {s : State} {die : Nat} (hs : s.Inv) : (State.makeRoom s die).Inv := by
  unfold State.makeRoom
  grind only [State.Inv]

theorem State.Inv.mapDone {s : State} {c va len rec_ value : Nat} (hs : s.Inv) : (State.mapDone s c va len rec_ value).Inv :=
  hs

/-- `allocAll` for any way `A` to allocate a page. -/
def allocAllWith (A : State → Nat → Option Nat → Option (Nat × State)) (size : Nat) : Nat → State → Option (List Nat × State)
  | 0, s => some ([], s)
  | n + 1, s =>
    match A s size none with
    | none => none
    | some (pa, s) => (allocAllWith A size n s).map (fun r => (pa :: r.1, r.2))

theorem allocAll_eq : @allocAll = allocAllWith State.allocPage := by
  delta allocAll allocAll._f allocAllWith allocAllWith._f
  generalize State.allocPage = A
  rfl

theorem allocAllWith_inv {A : State → Nat → Option Nat → Option (Nat × State)}
    (hA : ∀ {s t : State} {size pa : Nat} {die : Option Nat}, s.Inv → A s size die = some (pa, t) → t.Inv) {size n : Nat} {s t : State}
    {l : List Nat} (hs : s.Inv) (h : allocAllWith A size n s = some (l, t)) : t.Inv := by
  induction n generalizing s l with
  | zero =>
    obtain ⟨-, rfl⟩ := Prod.mk.inj (Option.some.inj h)
    exact hs
  | succ n ih =>
    unfold allocAllWith at h
    split at h
    · exact absurd h (by simp)
    · next pa u hu =>
      obtain ⟨⟨l', t'⟩, hr, heq⟩ := Option.map_eq_some_iff.mp h
      obtain ⟨-, rfl⟩ := Prod.mk.inj heq
      exact ih (hA hs hu) hr

theorem State.Inv.allocAll {size n : Nat} {s t : State} {l : List Nat} (hs : s.Inv) (h : allocAll size n s = some (l, t)) : t.Inv := by
  rw [allocAll_eq] at h
  exact allocAllWith_inv (A := State.allocPage) (fun hs h => hs.allocPage h) hs h

theorem State.Inv.mapPage {c size kind peer : Nat} {w ro wrev owned : Bool} {s : State} {p : Nat × Nat}
    (hs : s.Inv) : (State.mapPage c size kind peer w ro wrev owned s p).Inv := by
  unfold State.mapPage
  grind only [State.Inv, State.Inv.setPage, State.Inv.putPages, State.Inv.clearPage]

theorem State.Inv.mapRange {s : State} {c : Nat} {d : List Nat} (hs : s.Inv) : AllInv (State.mapRange s c d) := by
  unfold State.mapRange
  extract_lets size n kind own bit got
  have hgot : ∀ l t, got = some (l, t) → t.Inv := fun l t h => by
    by_cases ho : own = true
    · exact hs.allocAll ((if_pos ho).symm.trans h)
    · obtain ⟨-, rfl⟩ := Prod.mk.inj (Option.some.inj ((if_neg ho).symm.trans h))
      exact hs
  rcases hg : got with _ | ⟨addrs, t⟩
  · exact AllInv.none
  · exact AllInv.some (State.Inv.ackRange (.foldl (fun _ _ h => h.mapPage) (hgot addrs t hg)))

theorem State.Inv.setAttrs {c hi : Nat} {w ro wrev : Bool} {n va : Nat} {s : State} (hs : s.Inv) :
    (setAttrs c hi w ro wrev n va s).Inv := by
  induction n generalizing va s with
  | zero => exact hs
  | succ n ih =>
    unfold Machine.setAttrs
    split
    · exact hs
    · split
      · refine ih (State.Inv.modPages (State.Inv.dropTlb (State.Inv.setPage ?_)))
        grind only [State.Inv.modPages, State.Inv.dropProofs]
      · exact ih hs

theorem State.Inv.mapAct {s : State} {c : Nat} {d : List Nat} (hs : s.Inv) : AllInv (State.mapAct s c d) := by
  unfold State.mapAct
  extract_lets op va n len rec_ w ro wrev count
  repeat' split
  · exact AllInv.some hs.status
  · exact AllInv.some hs
  · exact AllInv.some hs.status
  · exact AllInv.some hs.modCtx.status
  · exact AllInv.none
  · exact AllInv.some hs.status
  · exact AllInv.some hs.status
  · next t ht => exact AllInv.some (State.Inv.mapDone (hs.mapRange t ht))
  · exact AllInv.some (State.Inv.mapDone (State.Inv.ackRange (.foldl (fun _ _ h => h.clearPage) hs)))
  · exact AllInv.none
  · exact AllInv.some (State.Inv.mapDone (State.Inv.ackRange (State.Inv.setAttrs (by grind only [State.Inv.dropCopy, State.Inv.foldl]))))
  · exact AllInv.some (State.Inv.status hs.pinRange)

theorem State.Inv.runMap {s : State} {fn : Nat} {cmd : List Dword} (hs : s.Inv) :
    AllInv (State.runMap s fn cmd).1 ∧ (State.runMap s fn cmd).2.Inv := by
  unfold State.runMap
  extract_lets d c rec_
  repeat' split
  · exact ⟨AllInv.some hs.status, hs⟩
  · exact ⟨AllInv.some hs.status, hs⟩
  · exact ⟨AllInv.some hs.status, hs⟩
  · next t ht => exact ⟨AllInv.some (hs.mapAct t ht), hs⟩
  · exact ⟨AllInv.none, .foldl (fun _ _ h => h.shootDown) hs⟩
  · exact ⟨AllInv.none, hs⟩

theorem State.Inv.finMaps {s : State} (hs : s.Inv) : (State.finMaps s).Inv := by
  unfold State.finMaps
  grind only [State.Inv, State.Inv.status, State.Inv.foldl]

theorem State.Inv.mapsOn {c n : Nat} {s : State} (hs : s.Inv) : (State.mapsOn c n s).Inv := by
  induction n generalizing s with
  | zero => exact hs
  | succ n ih =>
    unfold State.mapsOn
    split
    · exact hs
    · split
      · exact hs
      · next w _ =>
        obtain ⟨hdone, hwait⟩ := hs.runMap (fn := w.1) (cmd := w.2)
        rcases hr : s.runMap w.1 w.2 with ⟨_ | t, u⟩
        · exact snd_inv_of_eq hwait hr
        · have ht : t.Inv := hdone t (by rw [hr]; rfl)
          exact ih (State.Inv.finMaps ht)

theorem State.Inv.settleMaps {s : State} (hs : s.Inv) : (State.settleMaps s).Inv := by
  unfold State.settleMaps
  grind only [State.Inv.finMaps, State.Inv.mapsOn, State.Inv.foldl]

theorem State.Inv.mapStore {s : State} {op fn : Nat} {cmd : List Dword} (hs : s.Inv) : (State.mapStore s op fn cmd).Inv := by
  unfold State.mapStore
  grind only [State.Inv, State.Inv.settleMaps]

theorem State.Inv.pullPage {s : State} {m : Move} (hs : s.Inv) : (State.pullPage s m).2.Inv := by
  unfold State.pullPage
  extract_lets use pa far
  split
  next l t heq =>
    have ht : t.Inv := by
      refine snd_inv_of_eq (foldl_snd_inv (fun p x hp => ?_) hs) heq
      exact State.Inv.farAsk hp
    split
    · exact ht
    · extract_lets fs
      split <;> exact ht

theorem State.Inv.placeMoved {s : State} {m : Move} (hs : s.Inv) : (State.placeMoved s m).Inv := by
  unfold State.placeMoved
  grind only [State.Inv.setPage, State.Inv.modPages, State.Inv.freeHbm, State.Inv.freeSpill, State.Inv.moveOver]

theorem State.Inv.unparkPage {s : State} {pa : Nat} (hs : s.Inv) : (State.unparkPage s pa).Inv := by
  unfold State.unparkPage
  grind only [State.Inv, State.Inv.modGang, State.Inv.foldl]

theorem State.Inv.keepCode {s : State} {m : Move} (hs : s.Inv) : (State.keepCode s m).Inv := by
  unfold State.keepCode
  split <;> exact hs

theorem State.Inv.moveLocal {s : State} {m : Move} (hs : s.Inv) : (State.moveLocal s m).Inv := by
  have hkeep : (s.keepCode m).Inv := hs.keepCode
  unfold State.moveLocal
  extract_lets a k to_ here lost t u
  split
  · exact (State.Inv.of_host hkeep (copyCells_wf _ _ _ hkeep.host_wf)).of_eq rfl rfl rfl
  · have hu : u.Inv := (hs.of_mem (copyCells_wf _ _ _ hs.mem_wf)).of_eq rfl rfl rfl
    split
    · exact .foldl (fun _ _ h => h.mark) hu.crossed
    · exact hu

theorem State.Inv.afterMove {s : State} {c vpage : Nat} (hs : s.Inv) : (State.afterMove s c vpage).Inv := by
  unfold State.afterMove
  grind only [State.Inv.ackPage, State.Inv.pumpMoves, State.Inv.settleMaps]

theorem State.Inv.arrive {s : State} {c q : Nat} {x : Submission} (hs : s.Inv) : (State.arrive s c q x).Inv :=
  hs

theorem State.Inv.answerLaunch {s : State} {u : Nat} {h : Hold} {sd st : Nat} (hs : s.Inv) : (State.answerLaunch s u h sd st).Inv := by
  unfold State.answerLaunch
  grind only [State.Inv.modGang, State.Inv.unhold]

theorem State.Inv.submit {s : State} {c q : Nat} {x : Submission} (hs : s.Inv) : (State.submit s c q x).Inv := by
  unfold State.submit
  grind only [State.Inv.modQueue, State.Inv.answer, State.Inv.answerLaunch]

theorem State.Inv.acceptOne {s : State} {c q : Nat} (hs : s.Inv) : (State.acceptOne s c q).Inv := by
  unfold State.acceptOne
  grind only [State.Inv.modQueue, State.Inv.submit]

theorem State.Inv.hubBegin {s : State} (hs : s.Inv) : (State.hubBegin s).Inv := by
  unfold State.hubBegin
  grind only [State.Inv, State.Inv.acceptOne, State.Inv.foldl]

theorem State.Inv.queueCmd {s : State} {fn c q : Nat} {ok : Bool} {act : State → State} (hs : s.Inv) (hact : ∀ s, s.Inv → (act s).Inv) :
    (State.queueCmd s fn c q ok act).Inv := by
  unfold State.queueCmd
  split
  · exact hs
  · split
    · exact hact _ hs.modQueue
    · exact hs.modQueue

theorem State.Inv.ending {s : State} {c q n st err : Nat} (hs : s.Inv) : (State.ending s c q n st err).Inv :=
  hs

theorem State.Inv.cancelHeld {s : State} {c q st : Nat} (hs : s.Inv) : (State.cancelHeld s c q st).Inv := by
  unfold State.cancelHeld
  grind only [State.Inv.ending, State.Inv.foldl]

theorem State.Inv.freeSlot {s : State} {c q slot : Nat} (hs : s.Inv) : (State.freeSlot s c q slot).Inv := by
  unfold State.freeSlot
  grind only [State.Inv.modQueue, State.Inv.tryRecords]

theorem State.Inv.resumeGroup {s : State} {g : Nat} (hs : s.Inv) : (State.resumeGroup s g).Inv := by
  unfold State.resumeGroup
  grind only [State.Inv.modGang, State.Inv.modGroup, State.Inv.modCore, State.Inv.later, State.Inv.pump, State.Inv.foldl]

theorem State.Inv.killGang {s : State} {u : Nat} (hs : s.Inv) : (State.killGang s u).Inv := by
  unfold State.killGang
  grind only [State.Inv.modGang, State.Inv.sweepAccs, State.Inv.gangDied, State.Inv.leaveForks]

theorem State.Inv.failCmds {s : State} {g : Nat} (hs : s.Inv) : (State.failCmds s g).Inv := by
  unfold State.failCmds
  grind only [State.Inv.modMat, State.Inv.failCopy, State.Inv.foldl]

theorem State.Inv.dropWaits {s : State} {us : List Nat} (hs : s.Inv) : (State.dropWaits s us).Inv := by
  unfold State.dropWaits
  grind only [State.Inv.modGang, State.Inv.pump, State.Inv.foldl]

theorem State.Inv.killGroup {s : State} {g cause : Nat} (hs : s.Inv) : (State.killGroup s g cause).Inv := by
  unfold State.killGroup
  grind only [State.Inv.modGroup, State.Inv.modCore, State.Inv.killGang, State.Inv.failCmds, State.Inv.dropWaits, State.Inv.foldl]

theorem State.Inv.leaveSlots {s : State} {c q : Nat} (hs : s.Inv) : (State.leaveSlots s c q).Inv := by
  unfold State.leaveSlots
  grind only [State.Inv.modQueue, State.Inv.record, State.Inv.freeSlot, State.Inv.resumeGroup, State.Inv.killGroup, State.Inv.foldl]

theorem State.Inv.leaveAllSlots {s : State} (hs : s.Inv) : (State.leaveAllSlots s).Inv := by
  unfold State.leaveAllSlots
  grind only [State.Inv.leaveSlots, State.Inv.foldl]

theorem State.Inv.leaveSlot {s : State} {fn c q slot : Nat} {kill : Bool} (hs : s.Inv) : (State.leaveSlot s fn c q slot kill).Inv := by
  unfold State.leaveSlot
  grind only [State.Inv.modQueue, State.Inv.queueCmd, State.Inv.leaveSlots]

theorem State.Inv.startRead {s : State} {c q n kh : Nat} (hs : s.Inv) : (State.startRead s c q n kh).2.Inv := by
  unfold State.startRead
  grind only [State.Inv, State.Inv.hubRead]

theorem State.Inv.startLaunch {s : State} {c q n : Nat} (hs : s.Inv) : (State.startLaunch s c q n).Inv := by
  unfold State.startLaunch
  grind only [State.Inv.modLaunch, State.Inv.pace, State.Inv.ending, State.Inv.startRead]

theorem State.Inv.queueClear {s : State} {core grp : Nat} {u : Option Nat} {bits n : Nat}
    (hs : s.Inv) : (State.queueClear s core grp u bits n).Inv :=
  hs

theorem State.Inv.placeOn {s : State} {gid : Nat} {x : Group} {h : Kernel} {core : Nat}
    (hs : s.Inv) : (State.placeOn s gid x h core).Inv :=
  hs

theorem State.Inv.beforePlaced {s : State} (hs : s.Inv) : (State.beforePlaced s).Inv :=
  hs

theorem State.Inv.placeNext {s v : State} {c q : Nat} (hs : s.Inv) : AllInv (State.placeNext s v c q) := by
  unfold State.placeNext
  split
  · exact AllInv.none
  · next gid x _ =>
    extract_lets h
    split
    · exact AllInv.none
    · exact AllInv.some (State.Inv.placeOn (State.Inv.modLaunch hs))

theorem State.Inv.placeMany {c q n : Nat} {old : List (Nat × Nat)} {s : State} (hs : s.Inv) : AllInv (State.placeMany c q old n s) := by
  induction n generalizing s with
  | zero => exact AllInv.some hs
  | succ n ih =>
    unfold State.placeMany
    split
    · exact AllInv.none
    · next t ht => exact ih (hs.placeNext t ht)

theorem State.Inv.enterCode {s : State} {u pc : Nat} (hs : s.Inv) : (State.enterCode s u pc).Inv := by
  unfold State.enterCode
  grind only [State.Inv.arriveCurs, State.Inv.protFault]

theorem State.Inv.startGang {s : State} {u cls : Nat} (hs : s.Inv) : (State.startGang s u cls).Inv :=
  hs

theorem State.Inv.becomeResident {s : State} {g : Nat} (hs : s.Inv) : (State.becomeResident s g).Inv := by
  unfold State.becomeResident
  grind only [State.Inv.modGroup, State.Inv.enterCode, State.Inv.startGang, State.Inv.foldl]

theorem State.Inv.startTask {s : State} {u bits : Nat} (hs : s.Inv) : (State.startTask s u bits).Inv := by
  unfold State.startTask
  grind only [State.Inv.modGang, State.Inv.enterCode, State.Inv.foldl]

theorem State.Inv.placeTask {s : State} {core c owner host : Nat} {r : TaskRec}
    (hs : s.Inv) : (State.placeTask s core c owner host r).Inv :=
  hs

end Sys2Proof.Machine
end

section
/-! Every operation keeps the state legal (R25, R357, R366, R393, R394, R397, R403, R404), one lemma for each, in the order of
the model: groups, saves and contexts. -/

namespace Sys2Proof.Machine

theorem State.Inv.modBar {s : State} {b : BarRef} {f : Bar → Bar} (hs : s.Inv) : (State.modBar s b f).Inv := by
  unfold State.modBar
  grind only [State.Inv.modGroup, State.Inv.modCtx]

theorem State.Inv.releasing {s : State} {b : BarRef} (hs : s.Inv) : (State.releasing s b).Inv := by
  unfold State.releasing
  grind only [State.Inv.modBar]

theorem State.Inv.testBar {s : State} {b : BarRef} (hs : s.Inv) : (State.testBar s b).Inv := by
  unfold State.testBar
  grind only [State.Inv.modGroup, State.Inv.releasing]

theorem State.Inv.wakeBar {b : BarRef} {s : State} {u : Nat} (hs : s.Inv) : (State.wakeBar b s u).Inv :=
  hs

theorem State.Inv.relock {s : State} {u : Nat} (hs : s.Inv) : (State.relock s u).Inv := by
  unfold State.relock
  grind only [State.Inv.modGang, State.Inv.modCore, State.Inv.foldl]

theorem State.Inv.catchUp {s : State} {u : Nat} (hs : s.Inv) : (State.catchUp s u).Inv := by
  unfold State.catchUp
  grind only [State.Inv.modGang, State.Inv.sweepAccs, State.Inv.recapture, State.Inv.batchDone]

theorem State.Inv.rollBack {s : State} {g : Nat} (hs : s.Inv) : (State.rollBack s g).Inv := by
  unfold State.rollBack
  grind only [State.Inv, State.Inv.modGroup, State.Inv.modDie, State.Inv.setFlag, State.Inv.wakeSets, State.Inv.pump,
      State.Inv.endStreams, State.Inv.leaveBarriers, State.Inv.leaveWaiters, State.Inv.relock, State.Inv.catchUp, State.Inv.foldl]

theorem State.Inv.rollAll {s : State} (hs : s.Inv) : (State.rollAll s).Inv := by
  unfold State.rollAll
  grind only [State.Inv.rollBack, State.Inv.foldl]

theorem State.Inv.poisonPage {s : State} {c vpage : Nat} (hs : s.Inv) : (State.poisonPage s c vpage).Inv := by
  unfold State.poisonPage
  grind only [State.Inv.setPage, State.Inv.modPages, State.Inv.dropTlb, State.Inv.dropL1, State.Inv.freeHbm, State.Inv.dropProofs]

theorem State.Inv.poisonMove {s : State} {m : Move} (hs : s.Inv) : (State.poisonMove s m).Inv := by
  unfold State.poisonMove
  grind only [State.Inv.freeHbm, State.Inv.freeSpill, State.Inv.freeMoveSpace, State.Inv.moveOver, State.Inv.poisonPage]

theorem State.Inv.triggerGroups {s : State} (hs : s.Inv) : (State.triggerGroups s).Inv :=
  hs

theorem State.Inv.settleLaunch {s : State} {c q n : Nat} (hs : s.Inv) : (State.settleLaunch s c q n).Inv := by
  unfold State.settleLaunch
  grind only [State.Inv.modLaunch, State.Inv.ending]

theorem State.Inv.settleLaunches {s : State} (hs : s.Inv) : (State.settleLaunches s).Inv := by
  unfold State.settleLaunches
  grind only [State.Inv.triggerGroups, State.Inv.settleLaunch, State.Inv.foldl]

theorem State.Inv.fillEvent {s : State} {x : Group} (hs : s.Inv) : (State.fillEvent s x).2.Inv := by
  unfold State.fillEvent
  grind only [State.Inv.note, State.Inv.wr, State.Inv.crossed, State.Inv.fill, State.Inv.pump]

theorem State.Inv.safeEnded {s : State} {st : Nat} (hs : s.Inv) : (State.safeEnded s st).Inv := by
  have h : (s.modDev (fun d => { d with safeState := 2, safeEnd := st })).Inv :=
    hs.modDev (hs.dev_ok.safe (n := 2) (by decide) _ _ _)
  exact h.of_eq rfl rfl rfl

theorem State.Inv.stopPart {s : State} {u : Nat} {p : Part} (hs : s.Inv) : (State.stopPart s u p).Inv :=
  hs

theorem State.Inv.stopParts {s : State} {u : Nat} (hs : s.Inv) : (State.stopParts s u).Inv := by
  unfold State.stopParts
  grind only [State.Inv.modGang, State.Inv.stopPart, State.Inv.foldl]

theorem State.Inv.releaseGang {s : State} {u : Nat} (hs : s.Inv) : (State.releaseGang s u).Inv := by
  unfold State.releaseGang
  grind only [State.Inv.modGang, State.Inv.modCore, State.Inv.modDie, State.Inv.failBaton, State.Inv.settleHeld,
      State.Inv.leaveWaiters, State.Inv.leaveAl, State.Inv.foldl]

theorem State.Inv.readKernels {s : State} {c : Nat} {l : List GroupImage} (hs : s.Inv) : (State.readKernels s c l).2.Inv := by
  unfold State.readKernels
  refine foldl_snd_inv (fun p x hp => ?_) hs
  grind only [State.Inv.hubRead]

theorem State.Inv.readHeld {s : State} {c qbuf : Nat} {l : List Nat} (hs : s.Inv) : (State.readHeld s c qbuf l).2.Inv := by
  unfold State.readHeld
  refine foldl_snd_inv (fun p x hp => ?_) hs
  grind only [State.Inv.hubRead]

theorem State.Inv.loadQueue {s
    : State} {c : Nat} {p : Stop} {kept : Option Kept} {ks : List (Nat × Option (List Nat))} {l : List GroupImage}
    {q : Nat} (hs : s.Inv) : (State.loadQueue s c p kept ks l q).2.Inv := by
  unfold State.loadQueue
  extract_lets d started old
  split <;> rename_i heq <;> exact snd_inv_of_eq hs.readHeld heq

theorem State.Inv.loadQueues {s : State} {c : Nat} {p : Stop} {kept : Option Kept} {ks : List (Nat × Option (List Nat))}
    {l : List GroupImage} (hs : s.Inv) : (State.loadQueues s c p kept ks l).2.Inv := by
  unfold State.loadQueues
  refine foldl_snd_inv (fun p x hp => ?_) hs
  grind only [State.Inv.loadQueue]

theorem foldl_fst_inv {α β : Type} {f : State × β → α → State × β} (hf : ∀ p x, p.1.Inv → (f p x).1.Inv) {l : List α} {p : State × β}
    (hp : p.1.Inv) : (l.foldl f p).1.Inv := by
  induction l generalizing p with
  | nil => exact hp
  | cons x l ih => exact ih (hf p x hp)

theorem fst_inv_of_eq {α : Type} {p : State × α} {a : α} {t : State} (hp : p.1.Inv) (h : p = (t, a)) : t.Inv := by
  rw [h] at hp
  exact hp

theorem State.Inv.loadGroup {s : State} {c : Nat} {p : Stop} {kept : Option Kept} {h : Kernel} {ages : List (Nat × Nat)} {x : GroupImage}
    (hs : s.Inv) : AllInv (State.loadGroup s c p kept h ages x) := by
  unfold State.loadGroup
  extract_lets core order hd
  split
  · exact AllInv.none
  · split
    · exact AllInv.none
    · refine AllInv.some ?_
      refine State.Inv.of_eq (foldl_fst_inv ?_ ?_) rfl rfl rfl
      · intro _ _ hp
        exact hp
      · refine foldl_fst_inv ?_ ?_
        · intro _ _ hp
          exact hp
        · exact hs

theorem State.Inv.loadSlot {c : Nat} {s : State} {g : Nat} (hs : s.Inv) : (State.loadSlot c s g).Inv := by
  unfold State.loadSlot
  grind only [State.Inv.modQueue]

theorem State.Inv.refork {s : State} {u : Nat} {kept : Option Kept} {old core : Nat}
    (hs : s.Inv) : (State.refork s u kept old core).Inv := by
  unfold State.refork
  grind only [State.Inv.modDeque, State.Inv.raise, State.Inv.foldl]

theorem State.Inv.resumeClass {s : State} {u k id : Nat} (hs : s.Inv) : (State.resumeClass s u k id).Inv := by
  unfold State.resumeClass
  grind only [State.Inv.askClass, State.Inv.grantClass]

theorem State.Inv.resumeGang {s : State} {u : Nat} (hs : s.Inv) : (State.resumeGang s u).Inv := by
  unfold State.resumeGang
  grind only [State.Inv.modGang, State.Inv.fresh, State.Inv.mark, State.Inv.recapture, State.Inv.askLease, State.Inv.relock,
      State.Inv.resumeClass, State.Inv.foldl]

theorem State.Inv.ctxCmd {s : State} {op fn : Nat} {cmd : List Dword} {act : List Nat → Nat → Nat → State → State} (hs : s.Inv)
    (hact : ∀ d c r s, s.Inv → (act d c r s).Inv) : (State.ctxCmd s op fn cmd act).Inv := by
  unfold State.ctxCmd
  grind only [State.Inv.status]

theorem State.Inv.wrongState {s : State} {c rec_ : Nat} (hs : s.Inv) : (State.wrongState s c rec_).Inv := by
  unfold State.wrongState
  grind only [State.Inv.status]

theorem State.Inv.revertGroup {s : State} {g : Nat} (hs : s.Inv) : (State.revertGroup s g).Inv :=
  hs

theorem State.Inv.revertPlaced {s : State} {c : Nat} (hs : s.Inv) : (State.revertPlaced s c).Inv := by
  unfold State.revertPlaced
  grind only [State.Inv.revertGroup, State.Inv.foldl]

theorem State.Inv.killLaunch {s : State} {c q n : Nat} (hs : s.Inv) : (State.killLaunch s c q n).Inv := by
  unfold State.killLaunch
  grind only [State.Inv.modLaunch, State.Inv.ending]

theorem State.Inv.killResident {s : State} {g : Nat} (hs : s.Inv) : (State.killResident s g).Inv := by
  unfold State.killResident
  grind only [State.Inv.failCmds, State.Inv.dropWaits, State.Inv.killGroup]

theorem State.Inv.killCtx {s : State} {c rec_ : Nat} (hs : s.Inv) : (State.killCtx s c rec_).Inv := by
  unfold State.killCtx
  grind only [State.Inv.modCtx, State.Inv.killLaunch, State.Inv.killResident, State.Inv.foldl]

theorem State.Inv.dropContext {s : State} {c : Nat} (hs : s.Inv) : (State.dropContext s c).Inv := by
  unfold State.dropContext
  grind only [State.Inv, State.Inv.dropCtx, State.Inv.abandonMove, State.Inv.foldl]

theorem State.Inv.writeHeld {s : State} {c : Nat} (hs : s.Inv) : (State.writeHeld s c).2.Inv := by
  unfold State.writeHeld
  refine foldl_snd_inv (fun p x hp => ?_) hs
  exact State.Inv.record hp

theorem State.Inv.keep {s : State} {c : Nat} (hs : s.Inv) : (State.keep s c).Inv :=
  hs

theorem State.Inv.installCtx {s : State} {c : Nat} {p : Stop} (hs : s.Inv) : (State.installCtx s c p).Inv := by
  unfold State.installCtx
  split <;> exact hs

theorem State.Inv.restoreFails {s : State} {c : Nat} {p : Stop} {st detail : Nat}
    (hs : s.Inv) : (State.restoreFails s c p st detail).Inv := by
  unfold State.restoreFails
  grind only [State.Inv, State.Inv.modCtx, State.Inv.status, State.Inv.dropContext]

/-- A state that a restore has come to is legal; one that fails holds none. -/
def OkInv (o : Except Nat State) : Prop := ∀ t, o = .ok t → t.Inv

theorem OkInv.ok {s : State} (hs : s.Inv) : OkInv (.ok s) := fun t h => by
  cases h
  exact hs

theorem OkInv.error {k : Nat} : OkInv (.error k) := fun t h => by cases h

theorem OkInv.foldl {α : Type} {f : Except Nat State → α → Except Nat State} (hf : ∀ o x, OkInv o → OkInv (f o x)) {l : List α}
    {o : Except Nat State} (ho : OkInv o) : OkInv (l.foldl f o) := by
  induction l generalizing o with
  | nil => exact ho
  | cons x l ih => exact ih (hf o x ho)

theorem State.Inv.loadGroups {s : State} {c : Nat} {p : Stop} {kept : Option Kept} {ks : List (Nat × Option (List Nat))}
    {l : List GroupImage} (hs : s.Inv) : OkInv (State.loadGroups s c p kept ks l) := by
  unfold State.loadGroups
  extract_lets ages news t full
  refine OkInv.foldl (fun o x ho => ?_) (OkInv.ok hs)
  cases o with
  | error k => exact OkInv.error
  | ok u =>
    dsimp only
    split
    · exact OkInv.error
    · split
      · exact OkInv.error
      · next v hv =>
        obtain ⟨h, -, hload⟩ := Option.bind_eq_some_iff.mp hv
        exact OkInv.ok ((ho u rfl).loadGroup v hload)

theorem State.Inv.loadWords {s : State} {c : Nat} {p : Stop} (hs : s.Inv) : (State.loadWords s c p).Inv :=
  hs

theorem State.Inv.loadBars {s : State} {c : Nat} {p : Stop} {kept : Option Kept} (hs : s.Inv) : (State.loadBars s c p kept).Inv := by
  unfold State.loadBars
  grind only [State.Inv.modCtx, State.Inv.foldl]

theorem State.Inv.loadDeques {s : State} {c : Nat} {p : Stop} {kept : Option Kept} {l : List GroupImage} (hs : s.Inv) :
    OkInv (State.loadDeques s c p kept l) := by
  unfold State.loadDeques
  refine OkInv.foldl (fun o x ho => ?_) (OkInv.ok hs)
  split
  · exact OkInv.error
  · next u =>
    have hu : u.Inv := ho u rfl
    extract_lets rs to_
    split
    · exact OkInv.ok hu
    · split
      · exact OkInv.error
      · exact OkInv.ok hu.modDeque

theorem State.Inv.resumeAll {s
    : State} {c : Nat} {p : Stop} {kept : Option Kept} {l : List GroupImage} {ages : List Nat} {base : Nat} (hs : s.Inv) :
        (State.resumeAll s c p kept l ages base).Inv := by
  unfold State.resumeAll
  grind only [State.Inv.refork, State.Inv.resumeGang, State.Inv.foldl]

theorem OkInv.bind {e : Except Nat State} {f : State → Except Nat State} (he : OkInv e) (hf : ∀ w, w.Inv → OkInv (f w)) :
    OkInv (e.bind f) := by
  cases e with
  | error k => exact OkInv.error
  | ok w => exact hf w (he w rfl)

theorem State.Inv.restoreStep {s : State} {c : Nat} (hs : s.Inv) : (State.restoreStep s c).Inv := by
  unfold State.restoreStep
  split
  · exact hs
  next p _ =>
  split
  · exact hs
  extract_lets l kept on
  split
  · next heq => exact snd_inv_of_eq hs.readKernels heq
  next ks t heq =>
  have ht : t.Inv := snd_inv_of_eq hs.readKernels heq
  split
  · next heq => exact snd_inv_of_eq ht.loadQueues heq
  next qs u heq =>
  have hu : u.Inv := snd_inv_of_eq ht.loadQueues heq
  extract_lets badPc ages
  split
  · exact hu.restoreFails
  split
  · exact hu.restoreFails
  next v hv =>
  have hload : (u.modCtx c (fun x => { x with queues := qs })).Inv := State.Inv.modCtx hu
  have hv' : v.Inv :=
    OkInv.bind (State.Inv.loadGroups hload) (fun _ hw => State.Inv.loadDeques hw) v hv
  extract_lets t₁ t₂ t₃ t₄
  have h₁ : t₁.Inv := State.Inv.loadBars (State.Inv.loadWords hv')
  have h₂ : t₂.Inv := State.Inv.foldl (fun _ _ h => State.Inv.loadSlot h) h₁
  have h₃ : t₃.Inv := State.Inv.modCtx h₂
  have h₄ : t₄.Inv := State.Inv.pump (State.Inv.resumeAll h₃)
  exact State.Inv.status (State.Inv.tickSerial h₄)

theorem State.Inv.settleRestores {s : State} (hs : s.Inv) : (State.settleRestores s).Inv := by
  unfold State.settleRestores
  grind only [State.Inv.restoreStep, State.Inv.foldl]

end Sys2Proof.Machine
end

section
/-! Every operation keeps the state legal (R25, R357, R366, R393, R394, R397, R403, R404), one lemma for each, in the order of
the model: links and start-up. -/

namespace Sys2Proof.Machine

theorem State.Inv.screen {s : State} {src srcInc dstInc : Nat} (hs : s.Inv) : AllInv (State.screen s src srcInc dstInc) := by
  unfold State.screen
  grind only [AllInv.none, AllInv.some, AllInv.stopIf, AllInv.map, State.Inv.notice, State.Inv.stale]

theorem State.Inv.unlockFor {s : State} {src core off n : Nat} (hs : s.Inv) : (State.unlockFor s src core off n).Inv :=
  hs

theorem State.Inv.serve {s : State} {r : RemoteReq} (hs : s.Inv) : (State.serve s r).2.2.Inv := by
  unfold State.serve
  extract_lets s
  have hs' : s.Inv := by grind only [State.Inv.touch]
  clear_value s
  split
  · exact hs'
  · grind only [State.Inv.wrAll, State.Inv.tickSerial]
  · extract_lets n bad
    split
    next olds m heq =>
    have hm : m.Inv := snd_inv_of_eq (foldl_snd_inv (fun p x hp => State.Inv.tickSerial (State.Inv.wr hp)) hs') heq
    grind only
  · split
    grind only [State.Inv.deliverSp]
  · grind only
  · split
    · exact hs'
    · exact hs'.lockRemote
  · exact hs'.unlockFor
  all_goals exact hs'

theorem State.Inv.holdFor {s : State} {r : RemoteReq} {bs : List (Nat × Byte)} (hs : s.Inv) : (State.holdFor s r bs).Inv := by
  unfold State.holdFor
  grind only [State.Inv.modLink, State.Inv.fresh, State.Inv.sendMsg, State.Inv.hold, State.Inv.reply]

theorem State.Inv.copyAnswered {s : State} {core cmd r : Nat} (hs : s.Inv) : (State.copyAnswered s core cmd r).Inv :=
  hs

theorem State.Inv.failReq {s : State} {id bit : Nat} (hs : s.Inv) : (State.failReq s id bit).Inv := by
  unfold State.failReq
  grind only [State.Inv, State.Inv.modGang, State.Inv.delReq, State.Inv.fail, State.Inv.sweepBatons, State.Inv.tellDests,
      State.Inv.failLanes, State.Inv.failBaton, State.Inv.settleHeld, State.Inv.pump, State.Inv.modMat, State.Inv.failCopy,
          State.Inv.copyAnswered, State.Inv.foldl]

theorem State.Inv.dropReplicas {s : State} {p : Nat} (hs : s.Inv) : (State.dropReplicas s p).Inv := by
  unfold State.dropReplicas
  grind only [State.Inv.modLink, State.Inv.dropCopy, State.Inv.openPage, State.Inv.settleShoots, State.Inv.foldl]

theorem State.Inv.failPeer {s : State} {p bit : Nat} (hs : s.Inv) : (State.failPeer s p bit).Inv := by
  unfold State.failPeer
  grind only [State.Inv.failReq, State.Inv.foldl]

theorem State.Inv.dropHeldOf {s : State} {p reason : Nat} (hs : s.Inv) : (State.dropHeldOf s p reason).Inv := by
  unfold State.dropHeldOf
  grind only [State.Inv.settleHeld, State.Inv.dropHeld, State.Inv.foldl]

theorem State.Inv.failBatonsTo {s : State} {p : Nat} (hs : s.Inv) : (State.failBatonsTo s p).Inv := by
  unfold State.failBatonsTo
  grind only [State.Inv.failBaton, State.Inv.foldl]

theorem State.Inv.enterDead {s : State} {p : Nat} (hs : s.Inv) : (State.enterDead s p).Inv := by
  unfold State.enterDead
  grind only [State.Inv.modPeer, State.Inv.sweepBatons, State.Inv.settleHeld, State.Inv.unlockRemote, State.Inv.dropReplicas,
      State.Inv.failPeer, State.Inv.dropHeldOf, State.Inv.failBatonsTo]

theorem State.Inv.renew {s : State} {p inc : Nat} (hs : s.Inv) : (State.renew s p inc).Inv := by
  unfold State.renew
  grind only [State.Inv.modLink, State.Inv.modPeer, State.Inv.notice, State.Inv.sweepBatons, State.Inv.unlockRemote,
      State.Inv.dropReplicas, State.Inv.failPeer, State.Inv.dropHeldOf]

theorem State.Inv.revive {s : State} {p : Nat} (hs : s.Inv) : (State.revive s p).Inv := by
  unfold State.revive
  grind only [State.Inv.modPeer, State.Inv.modReq, State.Inv.transmit, State.Inv.foldl]

theorem State.Inv.lanesAnswered {s
    : State} {u id : Nat} {lanes : List Nat} {op : RemoteOp} {data : List Byte} {marks : Nat} {lost : Bool} (hs : s.Inv) :
        (State.lanesAnswered s u id lanes op data marks lost).Inv := by
  unfold State.lanesAnswered
  grind only [State.Inv.modGang, State.Inv.tickSerial, State.Inv.setLanes, State.Inv.lostStore, State.Inv.settleHeld,
      State.Inv.noteAcquire, State.Inv.ackOwn, State.Inv.pump]

theorem State.Inv.elemsRead {s : State} {core cmd : Nat} {ns : List Nat} {lo : Nat} {data : List Byte} (hs : s.Inv) :
    (State.elemsRead s core cmd ns lo data).Inv := by
  unfold State.elemsRead
  split
  · exact hs
  split
  next heq =>
  refine State.Inv.sendElems (snd_inv_of_eq (foldl_snd_inv (fun p x hp => ?_) hs) heq)
  exact State.Inv.putElem (State.Inv.modCopy hp)

theorem State.Inv.copyReplied {s
    : State} {core cmd r : Nat} {ns : List Nat} {op : RemoteOp} {data : List Byte} {marks : Nat} {lost : Bool} (hs : s.Inv) :
        (State.copyReplied s core cmd r ns op data marks lost).Inv := by
  unfold State.copyReplied
  grind only [State.Inv.later, State.Inv.modCopy, State.Inv.doneElems, State.Inv.copyAnswered, State.Inv.elemsRead]

theorem State.Inv.completeReq {s : State} {id : Nat} {data : List Byte} {marks : Nat} {lost : Bool}
    (hs : s.Inv) : (State.completeReq s id data marks lost).Inv := by
  unfold State.completeReq
  grind only [State.Inv, State.Inv.delReq, State.Inv.later, State.Inv.sweepBatons, State.Inv.tellDests, State.Inv.modMat,
      State.Inv.lanesAnswered, State.Inv.copyReplied, State.Inv.foldl]

theorem State.Inv.receive {s : State} {m : Msg} {act : State → State} (hact : ∀ s, s.Inv → (act s).Inv) (hs : s.Inv) :
    (State.receive s m act).Inv := by
  unfold State.receive
  split
  · exact hs
  split
  · exact hs.reply
  split
  · exact hs.stale
  split
  · next heq => exact hs.screen _ heq
  extract_lets again
  refine State.Inv.answer ?_
  split
  · exact hs
  · exact hact s hs

theorem State.Inv.tellLate {s : State} {peer q : Nat} (hs : s.Inv) : (State.tellLate s peer q).Inv := by
  unfold State.tellLate
  grind only [State.Inv.modBaton]

theorem State.Inv.setPort {s : State} {k : Nat} {st : PortSt} (hs : s.Inv) : (State.setPort s k st).Inv := by
  unfold State.setPort
  grind only [State.Inv.modPort, State.Inv.recover, State.Inv.flushLink, State.Inv.foldl]

theorem State.Inv.retrain {s : State} {k : Nat} (hs : s.Inv) : (State.retrain s k).Inv := by
  unfold State.retrain
  grind only [State.Inv.note, State.Inv.modPort, State.Inv.setPort]

theorem State.Inv.enterStage1 {s : State} {r : BootResult} (hs : s.Inv) : (State.enterStage1 s r).Inv := by
  have h : (s.toStage 1).Inv := hs.toStage (by decide)
  exact h

theorem State.Inv.announce {s : State} {plane d : Nat} (hs : s.Inv) : (State.announce s plane d).Inv := by
  unfold State.announce
  grind only [State.Inv.noticeOn]

theorem State.Inv.enablePort {v : Nat} {s : State} {k : Nat} (hs : s.Inv) : (State.enablePort v s k).Inv := by
  unfold State.enablePort
  grind only [State.Inv.setPort]

theorem State.Inv.reclass {s : State} {c q cls : Nat} (hs : s.Inv) : (State.reclass s c q cls).Inv := by
  unfold State.reclass
  grind only [State.Inv.modGang, State.Inv.modGroup, State.Inv.foldl]

theorem Dev.ok.expbase {d : Dev} (hd : d.ok) {v : Nat} (hv : v % 4096 = 0) : ({ d with expbase := v } : Dev).ok := by
  obtain ⟨hbit, havail, hstage, herr, hplanes, hpkg, hport, -, hrest⟩ := hd
  exact ⟨hbit, havail, hstage, herr, hplanes, hpkg, hport, hv, hrest⟩

theorem State.Inv.storeReg {s : State} {r : RegAddr} {v : Nat} (hs : s.Inv) : (State.storeReg s r v).Inv := by
  unfold State.storeReg
  split
  · split
    · next hv => exact hs.modDev (hs.dev_ok.expbase hv)
    · exact hs
  · exact hs
  · grind only [State.Inv.modQueue, State.Inv.reclass]

theorem State.Inv.settleClock {s : State} {c : Nat} (hs : s.Inv) : (State.settleClock s c).Inv :=
  hs

theorem State.Inv.raiseRail {s : State} {c : Nat} (hs : s.Inv) : (State.raiseRail s c).Inv := by
  unfold State.raiseRail
  grind only [State.Inv.modCluster]

theorem State.Inv.endLeases {s : State} {c : Nat} (hs : s.Inv) : (State.endLeases s c).Inv :=
  hs

theorem State.Inv.powerOff {s : State} {c : Nat} (hs : s.Inv) : (State.powerOff s c).Inv := by
  have hdev : Dev.reset.ok := by
    unfold Dev.ok
    decide
  exact ⟨hdev, rfl, hs.host_wf⟩

theorem State.Inv.heat {s : State} {c : Nat} {eff : Int} {susp : Bool} (hs : s.Inv) : (State.heat s c eff susp).Inv := by
  unfold State.heat
  grind only [State.Inv.modCluster, State.Inv.settleClock, State.Inv.endLeases, State.Inv.powerOff]

theorem State.Inv.judgeTemp {s : State} {c : Nat} (hs : s.Inv) : (State.judgeTemp s c).Inv := by
  unfold State.judgeTemp
  grind only [State.Inv.modCluster, State.Inv.heat]

theorem State.Inv.judgeAmps {s : State} {c : Nat} (hs : s.Inv) : (State.judgeAmps s c).Inv :=
  hs

theorem State.Inv.fallBehind {s : State} {c : Nat} (hs : s.Inv) : (State.fallBehind s c).Inv := by
  unfold State.fallBehind
  grind only [State.Inv.modCore, State.Inv.foldl]

theorem State.Inv.countCycle {s : State} {c : Nat} (hs : s.Inv) : (State.countCycle s c).Inv := by
  unfold State.countCycle
  grind only [State.Inv.modLaunch, State.Inv.foldl]

end Sys2Proof.Machine
end

section
/-! Every operation keeps the state legal (R25, R357, R366, R393, R394, R397, R403, R404), one lemma for each, in the order of
the model: a clock edge. -/

namespace Sys2Proof.Machine

theorem State.Inv.landCluster {s : State} {k : Nat} (hs : s.Inv) : (State.landCluster s k).Inv :=
  hs

theorem State.Inv.settle {s : State} (hs : s.Inv) : (State.settle s).Inv := by
  unfold State.settle
  grind only [State.Inv.tryAllRecords, State.Inv.settleShoots, State.Inv.pumpMoves, State.Inv.paceAll, State.Inv.settleMaps,
      State.Inv.rollAll, State.Inv.settleLaunches, State.Inv.settleRestores]

theorem State.Inv.beginCycle {s : State} {k : Nat} (hs : s.Inv) : (State.beginCycle s k).Inv := by
  unfold State.beginCycle
  grind only [State.Inv.modCluster, State.Inv.testHurdles, State.Inv.presentParks, State.Inv.settleClock, State.Inv.raiseRail,
      State.Inv.fallBehind, State.Inv.countCycle, State.Inv.landCluster]

theorem State.Inv.edgesAt {s : State} {now : Nat} (hs : s.Inv) : (State.edgesAt s now).Inv := by
  unfold State.edgesAt
  grind only [State.Inv, State.Inv.hubBegin, State.Inv.leaveAllSlots, State.Inv.settle, State.Inv.beginCycle, State.Inv.foldl]

theorem State.Inv.tick {s : State} (hs : s.Inv) : (State.tick s).Inv := by
  unfold State.tick
  grind only [State.Inv.edgesAt]

end Sys2Proof.Machine
end

section
/-! Every meaning answers a next state, and keeps a legal state legal. -/

namespace Sys2Proof.Machine

/-- An outcome is a next state, which is legal if `s` is. -/
def Goes (s : State) (o : Host.Outcome State Fault Refusal) : Prop := ∃ t, o = .next t ∧ (s.Inv → t.Inv)

theorem Goes.next {s t : State} (h : s.Inv → t.Inv) : Goes s (.next t) := ⟨t, rfl, h⟩

theorem Goes.slot {s : State} {i : Instr} {act : Cursor → State → State} (h : ∀ c, s.Inv → (act c s).Inv) :
    Goes s (Machine.slot s i act) := by
  unfold Machine.slot
  split
  · exact .next id
  · split
    · exact .next (h _)
    · exact .next fun hs => hs.pre.getD (h _ hs)

theorem Goes.sysSlot {s : State} {i : Instr} {g : Guard} {act : Cursor → State → State} (h : ∀ c, s.Inv → (act c s).Inv) :
    Goes s (Machine.sysSlot s i g act) :=
  .slot fun c hs => by
    split
    · exact h c hs
    · exact hs

theorem goes_ld {o : MLoad} {s : State} : Goes s (execLd o s) :=
  .slot fun _ hs => hs.enter

theorem goes_st {o : MStore} {s : State} : Goes s (execSt o s) :=
  .slot fun _ hs => hs.enter

theorem goes_ldsp {o : MLoad} {s : State} : Goes s (execLdsp o s) :=
  .slot fun _ hs => hs.enter

theorem goes_stsp {o : MStore} {s : State} : Goes s (execStsp o s) :=
  .slot fun _ hs => hs.enter

theorem goes_pref {o : MPref} {s : State} : Goes s (execPref o s) :=
  .slot fun _ hs => hs

theorem goes_atom {o : MAtom} {s : State} : Goes s (execAtom o s) :=
  .slot fun _ hs => hs.enter

theorem goes_atomq {o : MAtom} {s : State} : Goes s (execAtomq o s) :=
  .slot fun _ hs => hs.enter

theorem goes_atomsp {o : MAtom} {s : State} : Goes s (execAtomsp o s) :=
  .slot fun _ hs => hs.enter

theorem goes_fence {o : MFence} {s : State} : Goes s (execFence o s) :=
  .slot fun _ hs => hs

theorem goes_stb {o : MBaton} {s : State} : Goes s (execStb o s) :=
  .slot fun c hs => by grind only [State.Inv.modLink, State.Inv.send, State.Inv.enter]

theorem goes_stk {o : MBaton} {s : State} : Goes s (execStk o s) :=
  .slot fun _ hs => hs.enter

theorem goes_bwait {o : MBwait} {s : State} : Goes s (execBwait o s) :=
  .slot fun _ hs => hs.hold

theorem goes_strm {o : MStrm} {s : State} : Goes s (execStrm o s) :=
  .slot fun c hs => by grind only [State.Inv.foldl, State.Inv.modGang, State.Inv.modCore, State.Inv.fresh, State.Inv.strmx]

theorem goes_strmx {s : State} : Goes s (execStrmx s) :=
  .slot fun _ hs => hs.strmx

theorem goes_fput {o : MFput} {s : State} : Goes s (execFput o s) :=
  .slot fun _ hs => hs.enter

theorem goes_fwait {o : MFwait} {s : State} : Goes s (execFwait o s) :=
  .slot fun c hs => by grind only [State.Inv.blockPart, State.Inv.enter]

theorem goes_bcmin {o : MBcmin} {s : State} : Goes s (execBcmin o s) :=
  .slot fun c hs => by grind only [State.Inv.foldl, State.Inv.modCtx]

theorem goes_bcrd {o : MBcrd} {s : State} : Goes s (execBcrd o s) :=
  .slot fun c hs => by grind only [State.Inv, State.Inv.enter]

theorem goes_vadd {o : V2} {s : State} : Goes s (execVadd o s) :=
  .slot fun _ hs => hs.int2

theorem goes_vsub {o : V2} {s : State} : Goes s (execVsub o s) :=
  .slot fun _ hs => hs.int2

theorem goes_vmul {o : V2} {s : State} : Goes s (execVmul o s) :=
  .slot fun _ hs => hs.int2

theorem goes_vmulh {o : V2} {s : State} : Goes s (execVmulh o s) :=
  .slot fun _ hs => hs.int2

theorem goes_vmad {o : V3} {s : State} : Goes s (execVmad o s) :=
  .slot fun _ hs => hs.vOut

theorem goes_vmin {o : V2} {s : State} : Goes s (execVmin o s) :=
  .slot fun _ hs => hs.int2

theorem goes_vmax {o : V2} {s : State} : Goes s (execVmax o s) :=
  .slot fun _ hs => hs.int2

theorem goes_vabs {o : V1} {s : State} : Goes s (execVabs o s) :=
  .slot fun _ hs => hs.int1

theorem goes_vneg {o : V1} {s : State} : Goes s (execVneg o s) :=
  .slot fun _ hs => hs.int1

theorem goes_vand {o : V2} {s : State} : Goes s (execVand o s) :=
  .slot fun _ hs => hs.bits2

theorem goes_vor {o : V2} {s : State} : Goes s (execVor o s) :=
  .slot fun _ hs => hs.bits2

theorem goes_vxor {o : V2} {s : State} : Goes s (execVxor o s) :=
  .slot fun _ hs => hs.bits2

theorem goes_vnot {o : V1} {s : State} : Goes s (execVnot o s) :=
  .slot fun _ hs => hs.bits1

theorem goes_vshl {o : V2} {s : State} : Goes s (execVshl o s) :=
  .slot fun _ hs => hs.bits2

theorem goes_vshr {o : V2} {s : State} : Goes s (execVshr o s) :=
  .slot fun _ hs => hs.bits2

theorem goes_vrot {o : V2} {s : State} : Goes s (execVrot o s) :=
  .slot fun _ hs => hs.bits2

theorem goes_vbfx {o : V2} {s : State} : Goes s (execVbfx o s) :=
  .slot fun _ hs => hs.vOut

theorem goes_vbfi {o : V3} {s : State} : Goes s (execVbfi o s) :=
  .slot fun _ hs => hs.vOut

theorem goes_vpopc {o : V1} {s : State} : Goes s (execVpopc o s) :=
  .slot fun _ hs => hs.bits1

theorem goes_vclz {o : V1} {s : State} : Goes s (execVclz o s) :=
  .slot fun _ hs => hs.bits1

theorem goes_vbrev {o : V1} {s : State} : Goes s (execVbrev o s) :=
  .slot fun _ hs => hs.bits1

theorem goes_vfadd {o : V2} {s : State} : Goes s (execVfadd o s) :=
  .slot fun _ hs => hs.arith2

theorem goes_vfsub {o : V2} {s : State} : Goes s (execVfsub o s) :=
  .slot fun _ hs => hs.arith2

theorem goes_vfmul {o : V2} {s : State} : Goes s (execVfmul o s) :=
  .slot fun _ hs => hs.arith2

theorem goes_vfma {o : V3} {s : State} : Goes s (execVfma o s) :=
  .slot fun _ hs => hs.vOut

theorem goes_vfmin {o : V2} {s : State} : Goes s (execVfmin o s) :=
  .slot fun _ hs => hs.flt2

theorem goes_vfmax {o : V2} {s : State} : Goes s (execVfmax o s) :=
  .slot fun _ hs => hs.flt2

theorem goes_vfabs {o : V1} {s : State} : Goes s (execVfabs o s) :=
  .slot fun _ hs => hs.flt1

theorem goes_vfneg {o : V1} {s : State} : Goes s (execVfneg o s) :=
  .slot fun _ hs => hs.flt1

theorem goes_vrcp {o : V1} {s : State} : Goes s (execVrcp o s) :=
  .slot fun _ hs => hs.trans

theorem goes_vrsq {o : V1} {s : State} : Goes s (execVrsq o s) :=
  .slot fun _ hs => hs.trans

theorem goes_vsqrt {o : V1} {s : State} : Goes s (execVsqrt o s) :=
  .slot fun _ hs => hs.trans

theorem goes_vexp2 {o : V1} {s : State} : Goes s (execVexp2 o s) :=
  .slot fun _ hs => hs.trans

theorem goes_vlog2 {o : V1} {s : State} : Goes s (execVlog2 o s) :=
  .slot fun _ hs => hs.trans

theorem goes_vsin {o : V1} {s : State} : Goes s (execVsin o s) :=
  .slot fun _ hs => hs.trans

theorem goes_vcos {o : V1} {s : State} : Goes s (execVcos o s) :=
  .slot fun _ hs => hs.trans

theorem goes_vtanh {o : V1} {s : State} : Goes s (execVtanh o s) :=
  .slot fun _ hs => hs.trans

theorem goes_vcmp {o : VCmp} {s : State} : Goes s (execVcmp o s) :=
  .slot fun _ hs => hs.pOut

theorem goes_vsel {o : VSel} {s : State} : Goes s (execVsel o s) :=
  .slot fun _ hs => hs.vOut

theorem goes_vmov {o : V1} {s : State} : Goes s (execVmov o s) :=
  .slot fun _ hs => hs.vOut

theorem goes_vcvt {o : VCvt} {s : State} : Goes s (execVcvt o s) :=
  .slot fun c hs => by grind only [State.Inv.vOut, State.Inv.advance]

theorem goes_vpack {o : VPack} {s : State} : Goes s (execVpack o s) :=
  .slot fun c hs => by grind only [State.Inv.vOut, State.Inv.advance]

theorem goes_vunpk {o : VUnpk} {s : State} : Goes s (execVunpk o s) :=
  .slot fun _ hs => hs.vOut

theorem goes_vqnt {o : VQnt} {s : State} : Goes s (execVqnt o s) :=
  .slot fun c hs => by grind only [State.Inv.foldl, State.Inv.send, State.Inv.advance]

theorem goes_vote {o : VVote} {s : State} : Goes s (execVote o s) :=
  .slot fun _ hs => hs.pOut

theorem goes_vballot {o : VBallot} {s : State} : Goes s (execVballot o s) :=
  .slot fun _ hs => hs.send

theorem goes_shfl {o : VShfl} {s : State} : Goes s (execShfl o s) :=
  .slot fun _ hs => hs.send

theorem goes_vred {o : VRed} {s : State} : Goes s (execVred o s) :=
  .slot fun _ hs => hs.vOut

theorem goes_mma {o : XMma} {s : State} : Goes s (execMma o s) :=
  .slot fun _ hs => hs

theorem goes_mmac {o : XMmac} {s : State} : Goes s (execMmac o s) :=
  .slot fun c hs => by grind only [State.Inv.modCore, State.Inv.queueMat, State.Inv.setDepth]

theorem goes_zld {o : XZld} {s : State} : Goes s (execZld o s) :=
  .slot fun _ hs => hs

theorem goes_zst {o : XZst} {s : State} : Goes s (execZst o s) :=
  .slot fun _ hs => hs.queueOut

theorem goes_zclr {o : XZclr} {s : State} : Goes s (execZclr o s) :=
  .slot fun _ hs => hs

theorem goes_zret {o : XZret} {s : State} : Goes s (execZret o s) :=
  .slot fun _ hs => hs

theorem goes_zretSp {o : XZst} {s : State} : Goes s (execZretSp o s) :=
  .slot fun c hs => by grind only [State.Inv.setDepth, State.Inv.queueOut]

theorem goes_zretG {o : XZst} {s : State} : Goes s (execZretG o s) :=
  .slot fun c hs => by grind only [State.Inv.setDepth, State.Inv.queueOut]

theorem goes_cpy {o : XCpy} {s : State} : Goes s (execCpy o s) :=
  .slot fun _ hs => hs.queueCopy

theorem goes_cpyr {o : XCpy} {s : State} : Goes s (execCpyr o s) :=
  .slot fun _ hs => hs.queueCopy

theorem goes_cpseal {f : Flag} {s : State} : Goes s (execCpseal f s) :=
  .slot fun c hs => by grind only [State.Inv.modGang, State.Inv.setFlag]

theorem goes_cpwait {n : Fin 16} {s : State} : Goes s (execCpwait n s) :=
  .slot fun _ hs => hs.hold

theorem goes_hset {o : XHset} {s : State} : Goes s (execHset o s) :=
  .slot fun c hs => by grind only [State.Inv.modCore, State.Inv.fresh, State.Inv.bankCell]

theorem goes_emptyRun {gap : Fin 16} {run : Fin 64} {regang check : Bool} {s : State} : Goes s (execEmptyRun gap run regang check s) :=
  .slot fun _ hs => hs.modGang

theorem goes_br {g : Guard} {off : Off20} {s : State} : Goes s (execBr g off s) :=
  .slot fun _ hs => hs.modGang

theorem goes_jmpr {a : Fin 64} {s : State} : Goes s (execJmpr a s) :=
  .slot fun _ hs => hs.gotoFar

theorem goes_call {off : Off20} {s : State} : Goes s (execCall off s) :=
  .slot fun c hs => by grind only [State.Inv.send, State.Inv.goto]

theorem goes_callr {a : Fin 64} {s : State} : Goes s (execCallr a s) :=
  .slot fun c hs => by grind only [State.Inv.send, State.Inv.gotoFar]

theorem goes_ret {a : Fin 64} {s : State} : Goes s (execRet a s) :=
  .slot fun _ hs => hs.gotoFar

theorem goes_exit {s : State} : Goes s (execExit s) :=
  .slot fun _ hs => hs.exitLanes

theorem goes_bsz {a : Fin 64} {off : Off14} {s : State} : Goes s (execBsz a off s) :=
  .slot fun _ hs => hs.goto

theorem goes_bsnz {a : Fin 64} {off : Off14} {s : State} : Goes s (execBsnz a off s) :=
  .slot fun _ hs => hs.goto

theorem goes_loop {n : Fin 8} {k : LoopCount} {s : State} : Goes s (execLoop n k s) :=
  .slot fun _ hs => hs

theorem goes_endl {n : Fin 8} {s : State} : Goes s (execEndl n s) :=
  .slot fun _ hs => hs

theorem goes_lbrk {n : Fin 8} {off : Off16} {s : State} : Goes s (execLbrk n off s) :=
  .slot fun _ hs => hs

theorem goes_waitf {mask : BitVec 16} {any : Bool} {s : State} : Goes s (execWaitf mask any s) :=
  .slot fun c hs => by grind only [State.Inv.modGang, State.Inv.acquired]

theorem goes_testf {d : Fin 32} {neg : Bool} {mask : BitVec 16} {any : Bool} {s : State} : Goes s (execTestf d neg mask any s) :=
  .slot fun _ hs => hs.send

theorem goes_clrf {mask : BitVec 16} {s : State} : Goes s (execClrf mask s) :=
  .slot fun _ hs => hs.modGang

theorem goes_pand {o : PBin} {s : State} : Goes s (execPand o s) :=
  .slot fun _ hs => hs.pred2

theorem goes_por {o : PBin} {s : State} : Goes s (execPor o s) :=
  .slot fun _ hs => hs.pred2

theorem goes_pxor {o : PBin} {s : State} : Goes s (execPxor o s) :=
  .slot fun _ hs => hs.pred2

theorem goes_sadd {o : SBin} {s : State} : Goes s (execSadd o s) :=
  .slot fun _ hs => hs.scalar

theorem goes_ssub {o : SBin} {s : State} : Goes s (execSsub o s) :=
  .slot fun _ hs => hs.scalar

theorem goes_smul {o : SBin} {s : State} : Goes s (execSmul o s) :=
  .slot fun _ hs => hs.scalar

theorem goes_sand {o : SBin} {s : State} : Goes s (execSand o s) :=
  .slot fun _ hs => hs.scalar

theorem goes_sor {o : SBin} {s : State} : Goes s (execSor o s) :=
  .slot fun _ hs => hs.scalar

theorem goes_sxor {o : SBin} {s : State} : Goes s (execSxor o s) :=
  .slot fun _ hs => hs.scalar

theorem goes_sshl {o : SBin} {s : State} : Goes s (execSshl o s) :=
  .slot fun _ hs => hs.scalar

theorem goes_sshr {o : SBin} {s : State} : Goes s (execSshr o s) :=
  .slot fun _ hs => hs.scalar

theorem goes_ssra {o : SBin} {s : State} : Goes s (execSsra o s) :=
  .slot fun _ hs => hs.scalar

theorem goes_smin {o : SBin} {s : State} : Goes s (execSmin o s) :=
  .slot fun _ hs => hs.scalar

theorem goes_smax {o : SBin} {s : State} : Goes s (execSmax o s) :=
  .slot fun _ hs => hs.scalar

theorem goes_smov {d : Fin 64} {b : SSrc} {s : State} : Goes s (execSmov d b s) :=
  .slot fun _ hs => hs.send

theorem goes_sysrd {g : Guard} {dst : SysDst} {num : BitVec 8} {s : State} : Goes s (execSysrd g dst num s) :=
  .sysSlot fun c hs => by grind only [State.Inv.send]

theorem goes_syswr {g : Guard} {num : BitVec 8} {r : Fin 64} {s : State} : Goes s (execSyswr g num r s) :=
  .sysSlot fun _ hs => hs.send

theorem goes_trap {g : Guard} {code : BitVec 16} {s : State} : Goes s (execTrap g code s) :=
  .sysSlot fun _ hs => hs.trap

theorem goes_tret {g : Guard} {s : State} : Goes s (execTret g s) :=
  .sysSlot fun _ hs => hs.modGang

theorem goes_mark {g : Guard} {n : Src16} {s : State} : Goes s (execMark g n s) :=
  .sysSlot fun c hs => by grind only [State.Inv.mark, State.Inv.markLap]

theorem goes_markWait {g : Guard} {n : Src16} {s : State} : Goes s (execMarkWait g n s) :=
  .sysSlot fun _ hs => hs.markLap

theorem goes_trig {g : Guard} {s : State} : Goes s (execTrig g s) :=
  .sysSlot fun _ hs => hs.modGang

theorem goes_launch {g : Guard} {sd sq sp : Fin 64} {s : State} : Goes s (execLaunch g sd sq sp s) :=
  .sysSlot fun _ hs => hs

theorem goes_fork {g : Guard} {sa sf : Fin 64} {w : Fin 8} {off : BitVec 32} {s : State} : Goes s (execFork g sa sf w off s) :=
  .sysSlot fun _ hs => hs

theorem goes_join {g : Guard} {sd sf : Fin 64} {s : State} : Goes s (execJoin g sd sf s) :=
  .sysSlot fun c hs => by grind only [State.Inv.blockPart, State.Inv.enter]

theorem goes_yield {g : Guard} {s : State} : Goes s (execYield g s) :=
  .sysSlot fun _ hs => hs.modGang

theorem goes_pwracq {g : Guard} {x : Src3} {s : State} : Goes s (execPwracq g x s) :=
  .sysSlot fun c hs => by grind only [State.Inv.fresh, State.Inv.blockPart, State.Inv.takeClass, State.Inv.askClass]

theorem goes_pwrrel {g : Guard} {s : State} : Goes s (execPwrrel g s) :=
  .sysSlot fun _ hs => hs.modGang

theorem goes_sprint {g : Guard} {t : Src16} {s : State} : Goes s (execSprint g t s) :=
  .sysSlot fun c hs => by grind only [State.Inv.modGang, State.Inv.fresh, State.Inv.hold, State.Inv.askLease]

theorem goes_sync {g : Guard} {l : SyncLevel} {s : State} : Goes s (execSync g l s) :=
  .sysSlot fun c hs => by grind only [State.Inv.fresh, State.Inv.blockPart]

theorem goes_hwait {g : Guard} {x : Fin 64} {s : State} : Goes s (execHwait g x s) :=
  .sysSlot fun _ hs => hs.hold

theorem goes_chkm {g : Guard} {on : Bool} {s : State} : Goes s (execChkm g on s) :=
  .sysSlot fun _ hs => hs.modGang

theorem goes_matrixCommandComplete {core : Nat} {s : State} : Goes s (execMatrixCommandComplete core s) := by
  unfold execMatrixCommandComplete
  grind only [Goes.next, State.Inv.runMat]

theorem goes_mmacInstanceComplete {ctx cluster set : Nat} {s : State} : Goes s (execMmacInstanceComplete ctx cluster set s) := by
  unfold execMmacInstanceComplete
  grind only [Goes.next, State.Inv.foldl, State.Inv.fire]

theorem goes_copyBytesPerformed {core cmd : Nat} {elems : List Nat} {s : State} : Goes s (execCopyBytesPerformed core cmd elems s) := by
  unfold execCopyBytesPerformed
  split
  · exact .next id
  split
  · exact .next id
  split
  · exact .next State.Inv.askLock
  split
  · exact .next id
  split
  next heq =>
  exact .next fun hs => State.Inv.sendElems (snd_inv_of_eq (foldl_snd_inv (fun _ _ => State.Inv.copyElem) hs) heq)

theorem goes_copyComplete {core cmd : Nat} {s : State} : Goes s (execCopyComplete core cmd s) := by
  unfold execCopyComplete
  grind only [Goes.next, State.Inv.modCore, State.Inv.request, State.Inv.setFlag, State.Inv.unlockRemote, State.Inv.batchDone]

theorem goes_quarterIssuePick {core quarter : Nat} {s : State} : Goes s (execQuarterIssuePick core quarter s) := by
  unfold execQuarterIssuePick
  grind only [State.Inv, Goes.next, State.Inv.foldl, State.Inv.modGang, State.Inv.mark, State.Inv.asRunning, State.Inv.serveWaitf,
      State.Inv.watch, State.Inv.age]

theorem goes_promotion {gang part : Nat} {s : State} : Goes s (execPromotion gang part s) :=
  .next fun hs => hs.modGang

theorem goes_regangRelease {gang : Nat} {s : State} : Goes s (execRegangRelease gang s) :=
  .next fun hs => hs.modGang

theorem goes_loadDataArrival {gang slice pos : Nat} {s : State} : Goes s (execLoadDataArrival gang slice pos s) := by
  unfold execLoadDataArrival
  grind only [Goes.next, State.Inv.modGang, State.Inv.later, State.Inv.fill, State.Inv.sweepAccs]

theorem goes_streamElement {gang slice : Nat} {s : State} : Goes s (execStreamElement gang slice s) := by
  unfold execStreamElement
  grind only [Goes.next, State.Inv.modGang, State.Inv.protFault, State.Inv.hold, State.Inv.enter, State.Inv.dropStrmLock]

theorem goes_translationWalk {die : Nat} {s : State} : Goes s (execTranslationWalk die s) := by
  unfold execTranslationWalk
  grind only [Goes.next, State.Inv.foldl, State.Inv.modDie, State.Inv.touch, State.Inv.refillMerge, State.Inv.pump, State.Inv.answerPage]

theorem goes_faultAcknowledge {ctx vpage : Nat} {s : State} : Goes s (execFaultAcknowledge ctx vpage s) := by
  unfold execFaultAcknowledge
  grind only [Goes.next, State.Inv.ackPage, State.Inv.settleShoots]

theorem goes_hostPageResponse {ctx vpage : Nat} {present : Bool} {s : State} : Goes s (execHostPageResponse ctx vpage present s) := by
  unfold execHostPageResponse
  grind only [State.Inv, Goes.next, State.Inv.present, State.Inv.ackPage, State.Inv.dropMoves, State.Inv.refusePage, State.Inv.answerAsks]

theorem goes_hostAddressTranslationChange {ctx iova : Nat} {present : Bool} {s : State}
    : Goes s (execHostAddressTranslationChange ctx iova present s) := by
  unfold execHostAddressTranslationChange
  grind only [State.Inv, Goes.next, State.Inv.present]

theorem goes_futureParkRetry {gang part : Nat} {s : State} : Goes s (execFutureParkRetry gang part s) := by
  unfold execFutureParkRetry
  grind only [Goes.next, State.Inv.modGang, State.Inv.pump]

theorem goes_fenceComplete {gang part : Nat} {s : State} : Goes s (execFenceComplete gang part s) := by
  unfold execFenceComplete
  grind only [Goes.next, State.Inv.foldl, State.Inv.endHold]

theorem goes_forkRetry {core ctx : Nat} {s : State} : Goes s (execForkRetry core ctx s) := by
  unfold execForkRetry
  grind only [Goes.next, State.Inv.modDeque, State.Inv.raise, State.Inv.dequeOp, State.Inv.pushBlocked]

theorem goes_prooferScan {s : State} : Goes s (execProoferScan s) := by
  unfold execProoferScan
  grind only [State.Inv, Goes.next, State.Inv.wr, State.Inv.proofStep, State.Inv.status, State.Inv.safeProofed]

theorem goes_markPacerAnswer {gang part : Nat} {s : State} : Goes s (execMarkPacerAnswer gang part s) := by
  unfold execMarkPacerAnswer
  grind only [Goes.next, State.Inv.modGang, State.Inv.modLaunch, State.Inv.mark, State.Inv.wakeSets, State.Inv.trap, State.Inv.miss,
      State.Inv.pace, State.Inv.missRecord]

theorem State.Inv.withCtxs {s : State} (hs : s.Inv) (l : List (Nat × Ctx)) : State.Inv { s with ctxs := l } := hs

theorem State.Inv.withMoves {s : State} (hs : s.Inv) (l : List Move) : State.Inv { s with moves := l } := hs

theorem goes_placementCounterHalving {s : State} : Goes s (execPlacementCounterHalving s) := by
  have hroom : ∀ (s : State) (die : Nat), s.Inv → (s.makeRoom die).Inv := fun _ _ => State.Inv.makeRoom
  unfold execPlacementCounterHalving
  generalize @State.makeRoom = room at hroom ⊢
  refine .next fun hs => State.Inv.pumpMoves (State.Inv.withCtxs ?_ _)
  exact State.Inv.foldl hroom (State.Inv.withMoves hs _)

theorem goes_mapMap {fn : Nat} {cmd : List Dword} {s : State} : Goes s (execMapMap fn cmd s) :=
  .next fun hs => hs.mapStore

theorem goes_mapUnmap {fn : Nat} {cmd : List Dword} {s : State} : Goes s (execMapUnmap fn cmd s) :=
  .next fun hs => hs.mapStore

theorem goes_mapSetAttributes {fn : Nat} {cmd : List Dword} {s : State} : Goes s (execMapSetAttributes fn cmd s) :=
  .next fun hs => hs.mapStore

theorem goes_mapProof {fn : Nat} {cmd : List Dword} {s : State} : Goes s (execMapProof fn cmd s) :=
  .next fun hs => hs.mapStore

theorem goes_mapPin {fn : Nat} {cmd : List Dword} {s : State} : Goes s (execMapPin fn cmd s) :=
  .next fun hs => hs.mapStore

theorem goes_mapUnpin {fn : Nat} {cmd : List Dword} {s : State} : Goes s (execMapUnpin fn cmd s) :=
  .next fun hs => hs.mapStore

theorem goes_mapSpillArea {fn : Nat} {cmd : List Dword} {s : State} : Goes s (execMapSpillArea fn cmd s) :=
  .next fun hs => hs.mapStore

theorem goes_pageMoveComplete {ctx vpage : Nat} {s : State} : Goes s (execPageMoveComplete ctx vpage s) := by
  unfold execPageMoveComplete
  split
  · exact .next id
  next m _ =>
  split
  · exact .next id
  split
  · exact .next fun hs => State.Inv.afterMove (State.Inv.placeMoved (State.Inv.unparkPage (State.Inv.moveLocal hs)))
  · split
    · next heq => exact .next fun hs => snd_inv_of_eq hs.pullPage heq
    · next heq => exact .next fun hs => State.Inv.afterMove (State.Inv.abandonMove (snd_inv_of_eq hs.pullPage heq))
    · next heq =>
      refine .next fun hs => State.Inv.afterMove (State.Inv.placeMoved ?_)
      have ht := snd_inv_of_eq hs.pullPage heq
      exact ht.of_mem (Memory.writeN_wf _ _ ht.mem_wf)
  · extract_lets io
    split
    · exact .next State.Inv.askHost
    · exact .next fun hs => State.Inv.afterMove (State.Inv.placeMoved (hs.of_mem (copyCells_wf _ _ _ hs.mem_wf)))

theorem goes_hostSubmission {fn ctx q off len : Nat} {dwords : List Dword} {s : State}
    : Goes s (execHostSubmission fn ctx q off len dwords s) := by
  unfold execHostSubmission
  grind only [Goes.next, State.Inv.modQueue, State.Inv.arrive]

theorem goes_launchPacketRead {gang part : Nat} {s : State} : Goes s (execLaunchPacketRead gang part s) := by
  unfold execLaunchPacketRead
  grind only [Goes.next, State.Inv.modGang, State.Inv.hubRead, State.Inv.fail, State.Inv.sysFault, State.Inv.arrive,
      State.Inv.answerLaunch]

theorem goes_queueEnable {fn ctx q : Nat} {s : State} : Goes s (execQueueEnable fn ctx q s) := by
  unfold execQueueEnable
  grind only [Goes.next, State.Inv.modQueue, State.Inv.queueCmd]

theorem goes_queueDrain {fn ctx q : Nat} {s : State} : Goes s (execQueueDrain fn ctx q s) := by
  unfold execQueueDrain
  grind only [Goes.next, State.Inv.modQueue, State.Inv.queueCmd]

theorem goes_queueHalt {fn ctx q : Nat} {s : State} : Goes s (execQueueHalt fn ctx q s) := by
  unfold execQueueHalt
  grind only [Goes.next, State.Inv.modQueue, State.Inv.queueCmd]

theorem goes_queueResume {fn ctx q : Nat} {s : State} : Goes s (execQueueResume fn ctx q s) := by
  unfold execQueueResume
  grind only [Goes.next, State.Inv.modQueue, State.Inv.queueCmd]

theorem goes_queueDisable {fn ctx q : Nat} {s : State} : Goes s (execQueueDisable fn ctx q s) := by
  unfold execQueueDisable
  grind only [Goes.next, State.Inv.foldl, State.Inv.modQueue, State.Inv.clear, State.Inv.queueCmd, State.Inv.ending]

theorem goes_queueResumeParked {fn ctx q slot : Nat} {s : State} : Goes s (execQueueResumeParked fn ctx q slot s) :=
  .next fun hs => hs.leaveSlot

theorem goes_queueKillParked {fn ctx q slot : Nat} {s : State} : Goes s (execQueueKillParked fn ctx q slot s) :=
  .next fun hs => hs.leaveSlot

theorem goes_launchStart {ctx q : Nat} {s : State} : Goes s (execLaunchStart ctx q s) := by
  unfold execLaunchStart
  grind only [Goes.next, State.Inv.ending, State.Inv.startLaunch]

theorem goes_groupPlace {ctx q : Nat} {s : State} : Goes s (execGroupPlace ctx q s) := by
  unfold execGroupPlace
  extract_lets x
  split
  · exact .next id
  split
  · exact .next id
  split
  · exact .next fun hs => hs.placeMany.getD hs
  · exact .next fun hs => (State.Inv.placeNext hs).getD hs

theorem goes_poolClearDone {core : Nat} {s : State} : Goes s (execPoolClearDone core s) := by
  unfold execPoolClearDone
  grind only [Goes.next, State.Inv.modCore, State.Inv.record, State.Inv.becomeResident, State.Inv.startTask]

theorem goes_taskTake {core ctx : Nat} {s : State} : Goes s (execTaskTake core ctx s) := by
  unfold execTaskTake
  grind only [Goes.next, State.Inv.dequeOp, State.Inv.placeTask]

theorem goes_taskSteal {core ctx : Nat} {s : State} : Goes s (execTaskSteal core ctx s) := by
  unfold execTaskSteal
  grind only [Goes.next, State.Inv.dequeOp, State.Inv.placeTask]

theorem goes_barrierArrival {gang : Nat} {s : State} : Goes s (execBarrierArrival gang s) := by
  unfold execBarrierArrival
  grind only [Goes.next, State.Inv.later, State.Inv.modBar]

theorem goes_barrierRelease {b : BarRef} {s : State} : Goes s (execBarrierRelease b s) := by
  unfold execBarrierRelease
  grind only [Goes.next, State.Inv.foldl, State.Inv.later, State.Inv.modBar, State.Inv.testBar, State.Inv.wakeBar]

theorem goes_snapshotComplete {group : Nat} {s : State} : Goes s (execSnapshotComplete group s) := by
  unfold execSnapshotComplete
  grind only [Goes.next, State.Inv.modGroup, State.Inv.releasing]

theorem goes_uncorrectableErrorConsumed {group gang site : Nat} {s : State}
    : Goes s (execUncorrectableErrorConsumed group gang site s) := by
  unfold execUncorrectableErrorConsumed
  grind only [Goes.next, State.Inv.modGroup, State.Inv.note, State.Inv.sysFault, State.Inv.killGroup]

theorem goes_storageErrorDetected {site : ErrSite} {corrected : Bool} {s : State}
    : Goes s (execStorageErrorDetected site corrected s) := by
  unfold execStorageErrorDetected
  grind only [State.Inv, Goes.next, State.Inv.modGang, State.Inv.modGroup, State.Inv.modCore, State.Inv.note, State.Inv.mark,
      State.Inv.dropTlb, State.Inv.sysFault, State.Inv.hold, State.Inv.failBaton, State.Inv.settleHeld, State.Inv.dropHeld]

theorem goes_hbmRepairFailure {pa : Nat} {s : State} : Goes s (execHbmRepairFailure pa s) := by
  unfold execHbmRepairFailure
  grind only [State.Inv, Goes.next, State.Inv.foldl, State.Inv.note, State.Inv.freeHbm, State.Inv.ackPage, State.Inv.poisonPage,
      State.Inv.poisonMove]

theorem goes_watchdogExpiry {gang slice set : Nat} {s : State} : Goes s (execWatchdogExpiry gang slice set s) := by
  unfold execWatchdogExpiry
  grind only [Goes.next, State.Inv.sysFault]

theorem goes_groupRetire {group : Nat} {s : State} : Goes s (execGroupRetire group s) := by
  unfold execGroupRetire
  grind only [State.Inv, Goes.next, State.Inv.modLaunch, State.Inv.pace, State.Inv.settleLaunch, State.Inv.fillEvent]

theorem goes_launchEnd {ctx q seq : Nat} {s : State} : Goes s (execLaunchEnd ctx q seq s) := by
  unfold execLaunchEnd
  grind only [Goes.next, State.Inv.modQueue, State.Inv.modLaunch, State.Inv.record, State.Inv.status, State.Inv.safeEnded]

theorem goes_gangStop {gang : Nat} {s : State} : Goes s (execGangStop gang s) := by
  unfold execGangStop
  grind only [Goes.next, State.Inv.stopParts]

theorem goes_ctxCreate {fn : Nat} {cmd : List Dword} {s : State} : Goes s (execCtxCreate fn cmd s) := by
  unfold execCtxCreate
  grind only [State.Inv, Goes.next, State.Inv.status, State.Inv.ctxCmd, State.Inv.wrongState]

theorem goes_ctxSet {fn : Nat} {cmd : List Dword} {s : State} : Goes s (execCtxSet fn cmd s) := by
  unfold execCtxSet
  grind only [Goes.next, State.Inv.modCtx, State.Inv.status, State.Inv.ctxCmd, State.Inv.wrongState]

theorem goes_ctxSave {fn : Nat} {cmd : List Dword} {s : State} : Goes s (execCtxSave fn cmd s) := by
  unfold execCtxSave
  grind only [Goes.next, State.Inv.modCtx, State.Inv.status, State.Inv.ctxCmd, State.Inv.wrongState, State.Inv.revertPlaced]

theorem goes_ctxKill {fn : Nat} {cmd : List Dword} {s : State} : Goes s (execCtxKill fn cmd s) := by
  unfold execCtxKill
  grind only [Goes.next, State.Inv.modCtx, State.Inv.status, State.Inv.ctxCmd, State.Inv.wrongState, State.Inv.killCtx]

theorem goes_ctxDestroy {fn : Nat} {cmd : List Dword} {s : State} : Goes s (execCtxDestroy fn cmd s) := by
  unfold execCtxDestroy
  grind only [State.Inv, Goes.next, State.Inv.status, State.Inv.ctxCmd, State.Inv.wrongState, State.Inv.dropContext]

theorem goes_ctxStopComplete {ctx : Nat} {s : State} : Goes s (execCtxStopComplete ctx s) := by
  unfold execCtxStopComplete
  grind only [State.Inv, Goes.next, State.Inv.foldl, State.Inv.modCtx, State.Inv.status, State.Inv.releaseGang, State.Inv.dropContext]

theorem goes_ctxSaveAreaWritten {ctx : Nat} {error : Option Nat} {s : State} : Goes s (execCtxSaveAreaWritten ctx error s) := by
  unfold execCtxSaveAreaWritten
  extract_lets x us
  split
  · split
    · extract_lets t u
      have hu : s.Inv → u.Inv := fun hs =>
        State.Inv.pump (State.Inv.foldl (fun _ _ => State.Inv.resumeGang) (State.Inv.status (State.Inv.modCtx hs)))
      split
      · exact .next hu
      · exact .next fun hs => State.Inv.foldl (fun _ _ => State.Inv.wrongState) (State.Inv.killCtx (hu hs))
    · split
      next t heq =>
      have ht : s.Inv → t.Inv := fun hs => snd_inv_of_eq hs.writeHeld heq
      split
      · exact .next ht
      split
      extract_lets u v
      have hu : s.Inv → u.Inv := fun hs =>
        State.Inv.unmark ((ht hs).of_mem (putPieces_wf _ (Memory.clear_wf _ _ (ht hs).mem_wf)))
      exact .next fun hs => State.Inv.foldl (fun _ _ => State.Inv.wrongState)
        (State.Inv.status (State.Inv.dropContext (State.Inv.keep (hu hs))))
  · exact .next id

theorem goes_ctxRestore {fn : Nat} {cmd : List Dword} {s : State} : Goes s (execCtxRestore fn cmd s) := by
  unfold execCtxRestore
  grind only [Goes.next, State.Inv.status, State.Inv.ctxCmd, State.Inv.wrongState, State.Inv.installCtx, State.Inv.restoreStep]

theorem goes_remoteRequestReceive {r : RemoteReq} {s : State} : Goes s (execRemoteRequestReceive r s) := by
  unfold execRemoteRequestReceive
  split
  · exact .next id
  split
  · exact .next State.Inv.reply
  split
  · next heq => exact .next fun hs => hs.screen _ heq
  split
  · exact .next State.Inv.stale
  extract_lets refuse
  have hrefuse : s.Inv → (refuse s).Inv := State.Inv.answer
  split
  · next t _ =>
    refine .next fun hs => ?_
    cases t.ans with
    | none => exact hs
    | some a => exact hs.reply
  split
  · exact .next State.Inv.sendMsg
  split
  · exact .next hrefuse
  split
  · split
    next heq => exact .next fun hs => State.Inv.answer (last_inv_of_eq hs.serve heq)
  · split
    · exact .next State.Inv.holdFor
    · exact .next hrefuse

theorem goes_remoteAnswer {a : RemoteAns} {s : State} : Goes s (execRemoteAnswer a s) := by
  unfold execRemoteAnswer
  grind only [Goes.next, State.Inv.modReq, State.Inv.recover, State.Inv.transmit, State.Inv.flushLink, State.Inv.notice,
      State.Inv.stale, State.Inv.failReq, State.Inv.revive, State.Inv.completeReq]

theorem goes_requestResendTimeout {req : Nat} {s : State} : Goes s (execRequestResendTimeout req s) := by
  unfold execRequestResendTimeout
  grind only [Goes.next, State.Inv.recover, State.Inv.transmit]

theorem goes_carriedStoreResend {req : Nat} {s : State} : Goes s (execCarriedStoreResend req s) := by
  unfold execCarriedStoreResend
  grind only [Goes.next, State.Inv.modReq, State.Inv.transmit, State.Inv.holdAgain, State.Inv.pump]

theorem goes_holdBoundExpiry {h : HoldRef} {s : State} : Goes s (execHoldBoundExpiry h s) := by
  unfold execHoldBoundExpiry
  grind only [Goes.next, State.Inv.foldl, State.Inv.delReq, State.Inv.flushLink, State.Inv.hold, State.Inv.tellDests, State.Inv.expiry,
      State.Inv.expireOrigin, State.Inv.failBaton, State.Inv.settleHeld, State.Inv.dropHeld, State.Inv.pump]

theorem goes_brel {m : Msg} {s : State} : Goes s (execBrel m s) := by
  unfold execBrel
  grind only [Goes.next, State.Inv.modLink, State.Inv.settleHeld, State.Inv.receive]

theorem goes_bfail {m : Msg} {s : State} : Goes s (execBfail m s) := by
  unfold execBfail
  grind only [Goes.next, State.Inv.foldl, State.Inv.settleHeld, State.Inv.dropHeld, State.Inv.receive]

theorem goes_heldack {m : Msg} {s : State} : Goes s (execHeldack m s) := by
  unfold execHeldack
  grind only [Goes.next, State.Inv.foldl, State.Inv.modReq, State.Inv.tellDests, State.Inv.pump, State.Inv.receive, State.Inv.tellLate]

theorem goes_bexp {m : Msg} {s : State} : Goes s (execBexp m s) := by
  unfold execBexp
  grind only [Goes.next, State.Inv.foldl, State.Inv.delReq, State.Inv.flushLink, State.Inv.tellDests, State.Inv.expireOrigin,
      State.Inv.failBaton, State.Inv.settleHeld, State.Inv.pump, State.Inv.receive]

theorem goes_sdreq {m : Msg} {s : State} : Goes s (execSdreq m s) := by
  unfold execSdreq
  grind only [Goes.next, State.Inv.sendMsg, State.Inv.shootHere, State.Inv.ackShoots, State.Inv.receive]

theorem goes_sdack {m : Msg} {s : State} : Goes s (execSdack m s) := by
  unfold execSdack
  grind only [Goes.next, State.Inv.modLink, State.Inv.settleShoots, State.Inv.receive]

theorem goes_sddone {m : Msg} {s : State} : Goes s (execSddone m s) := by
  unfold execSddone
  grind only [Goes.next, State.Inv.foldl, State.Inv.modLink, State.Inv.openPage, State.Inv.receive]

theorem goes_incann {m : Msg} {s : State} : Goes s (execIncann m s) := by
  unfold execIncann
  extract_lets p
  split
  · exact .next id
  split
  · exact .next State.Inv.stale
  split
  · exact .next State.Inv.renew
  split
  · split
    · exact .next fun hs => State.Inv.notice (State.Inv.stale hs)
    · exact .next id
  split
  · exact .next State.Inv.renew
  · exact .next State.Inv.stale

theorem goes_deadn {m : Msg} {s : State} : Goes s (execDeadn m s) := by
  unfold execDeadn
  grind only [Goes.next, State.Inv.stale, State.Inv.enterDead]

theorem goes_peerRecoveryTimeout {peer : Nat} {s : State} : Goes s (execPeerRecoveryTimeout peer s) := by
  unfold execPeerRecoveryTimeout
  grind only [Goes.next, State.Inv.enterDead]

theorem goes_portTrained {port lanes : Nat} {s : State} : Goes s (execPortTrained port lanes s) := by
  unfold execPortTrained
  grind only [Goes.next, State.Inv.setPort, State.Inv.retrain]

theorem goes_portLaneFailure {port : Nat} {s : State} : Goes s (execPortLaneFailure port s) := by
  unfold execPortLaneFailure
  grind only [Goes.next, State.Inv.setPort, State.Inv.retrain]

theorem goes_portReplayExhausted {port : Nat} {s : State} : Goes s (execPortReplayExhausted port s) := by
  unfold execPortReplayExhausted
  grind only [Goes.next, State.Inv.retrain]

theorem goes_portTrainingTimeout {port : Nat} {s : State} : Goes s (execPortTrainingTimeout port s) := by
  unfold execPortTrainingTimeout
  grind only [Goes.next, State.Inv.note, State.Inv.setPort, State.Inv.retrain]

theorem goes_portIdleTimeout {port : Nat} {s : State} : Goes s (execPortIdleTimeout port s) := by
  unfold execPortIdleTimeout
  grind only [Goes.next, State.Inv.modPort]

theorem Dev.ok.started {d : Dev} (hd : d.ok) (t : Nat) (key : Bool) :
    ({ d with t0 := t, identity := key, err := if key then 0 else 6 } : Dev).ok := by
  obtain ⟨hbit, havail, hstage, -, hrest⟩ := hd
  exact ⟨hbit, havail, hstage, by dsimp only; split <;> omega, hrest⟩

theorem Dev.ok.failed {d : Dev} (hd : d.ok) {e : Nat} (he : e ≤ 6) : ({ d with err := e } : Dev).ok := by
  obtain ⟨hbit, havail, hstage, -, hrest⟩ := hd
  exact ⟨hbit, havail, hstage, he, hrest⟩

theorem goes_powerGood {verified : Bool} {s : State} : Goes s (execPowerGood verified s) := by
  unfold execPowerGood
  split
  · exact .next id
  split
  · extract_lets key
    refine .next fun hs => State.Inv.tickSerial ?_
    have ht : (s.toStage 0).Inv := hs.toStage (by decide)
    exact ht.modDev (ht.dev_ok.started _ _)
  · exact .next fun hs => hs.modDev (hs.dev_ok.failed (by decide))

theorem Dev.recordErr_le {d : Dev} {r : SignedRecord} {e : Nat × Nat} (h : d.recordErr r = some e) : e.1 ≤ 6 := by
  unfold Dev.recordErr at h
  grind only

theorem Dev.bootErr_le {d : Dev} {r : BootResult} {e : Nat × Nat} (h : d.bootErr r = some e) : e.1 ≤ 6 := by
  unfold Dev.bootErr at h
  split at h
  · next x hx =>
    obtain ⟨y, -, hy⟩ := List.exists_of_findSome?_eq_some hx
    cases h
    exact Dev.recordErr_le hy
  · obtain ⟨k, -, hk⟩ := Option.map_eq_some_iff.mp h
    subst hk
    exact (by decide : 5 ≤ 6)

theorem goes_stage1Entry {r : BootResult} {s : State} : Goes s (execStage1Entry r s) := by
  unfold execStage1Entry
  split
  · exact .next id
  split
  · next err detail heq =>
    exact .next fun hs => hs.modDev (hs.dev_ok.failed (Dev.bootErr_le heq))
  split
  · exact .next id
  split
  · exact .next fun hs => hs.modDev hs.dev_ok
  · exact .next State.Inv.enterStage1

theorem Dev.ok.joins {d : Dev} (hd : d.ok) {a b : Nat} (ha : a < 512) (hb : b ≤ 5) (go : Bool) :
    ({ d with pkgid := a, planes := b, go := go } : Dev).ok := by
  obtain ⟨hbit, havail, hstage, herr, -, -, hrest⟩ := hd
  exact ⟨hbit, havail, hstage, herr, hb, ha, hrest⟩

theorem goes_joinWrite {value : Dword} {s : State} : Goes s (execJoinWrite value s) := by
  unfold execJoinWrite
  extract_lets v t
  split
  · exact .next id
  next h =>
  have hplanes : fld v 16 3 ≤ 5 := by
    simp only [Bool.or_eq_true, decide_eq_true_eq, not_or] at h
    omega
  have ht : s.Inv → t.Inv := fun hs => hs.modDev (hs.dev_ok.joins (Nat.mod_lt _ (by decide)) hplanes _)
  refine .next fun hs => ?_
  split
  · exact State.Inv.modLink (ht hs)
  · exact ht hs

theorem goes_joinComplete {s : State} : Goes s (execJoinComplete s) := by
  unfold execJoinComplete
  grind only [Goes.next, State.Inv.foldl, State.Inv.toStage, State.Inv.announce]

theorem featAccepted_testBit (v : Nat) : ((v &&& Config.featAvail) ||| 1).testBit 0 = true := by
  rw [Nat.testBit_or]
  simp

theorem featAccepted_available (v : Nat) : ((v &&& Config.featAvail) ||| 1) &&& Config.featAvail = (v &&& Config.featAvail) ||| 1 := by
  rw [Nat.and_or_distrib_right, Nat.and_assoc, Nat.and_self]
  rfl

theorem goes_featacptWrite {off size : Nat} {value : BitVec 128} {s : State} : Goes s (execFeatacptWrite off size value s) := by
  unfold execFeatacptWrite
  split
  · exact .next id
  · refine .next fun hs => hs.modDev ?_
    obtain ⟨-, -, hrest⟩ := hs.dev_ok
    exact ⟨featAccepted_testBit _, featAccepted_available _, hrest⟩

theorem goes_safelpWrite {value : Dword} {s : State} : Goes s (execSafelpWrite value s) := by
  unfold execSafelpWrite
  extract_lets a t p u
  have ht : s.Inv → t.Inv := fun hs => hs.modDev hs.dev_ok
  split
  · exact .next id
  split
  · exact .next ht
  · have hu : s.Inv → u.Inv := fun hs => (ht hs).modDev ((ht hs).dev_ok.safe (by decide) _ _ _)
    exact .next hu

theorem goes_portenWrite {value : Dword} {s : State} : Goes s (execPortenWrite value s) := by
  unfold execPortenWrite
  split
  · exact .next id
  · extract_lets v
    refine .next fun hs => State.Inv.foldl (fun _ _ => State.Inv.enablePort) (hs.modDev ?_)
    obtain ⟨hbit, havail, hstage, herr, hplanes, hpkg, -, hrest⟩ := hs.dev_ok
    exact ⟨hbit, havail, hstage, herr, hplanes, hpkg, Nat.mod_lt _ (by decide), hrest⟩

theorem goes_diecapWrite {die : Nat} {value : Dword} {s : State} : Goes s (execDiecapWrite die value s) := by
  unfold execDiecapWrite
  grind only [Goes.next, State.Inv.modDie]

theorem goes_peerstatStaleClear {peer : Nat} {value : Dword} {s : State} : Goes s (execPeerstatStaleClear peer value s) := by
  unfold execPeerstatStaleClear
  grind only [Goes.next, State.Inv.modPeer, State.Inv.stale]

theorem goes_registerWrite {r : RegAddr} {size : Nat} {value : Dword} {s : State} : Goes s (execRegisterWrite r size value s) := by
  unfold execRegisterWrite
  grind only [Goes.next, State.Inv.storeReg]

theorem goes_spdmRequest {r : SpdmReq} {s : State} : Goes s (execSpdmRequest r s) := by
  unfold execSpdmRequest
  grind only [State.Inv, Goes.next, State.Inv.tickSerial]

theorem goes_clusterIdleTimeout {cluster : Nat} {s : State} : Goes s (execClusterIdleTimeout cluster s) := by
  unfold execClusterIdleTimeout
  grind only [Goes.next, State.Inv.modCluster]

theorem goes_railChangeComplete {cluster : Nat} {s : State} : Goes s (execRailChangeComplete cluster s) := by
  unfold execRailChangeComplete
  grind only [Goes.next, State.Inv.modCluster]

theorem goes_currentGrant {die : Nat} {s : State} : Goes s (execCurrentGrant die s) := by
  unfold execCurrentGrant
  grind only [Goes.next, State.Inv.modDie, State.Inv.grantClass]

theorem goes_leaseGrant {die : Nat} {s : State} : Goes s (execLeaseGrant die s) := by
  unfold execLeaseGrant
  grind only [Goes.next, State.Inv.modGang, State.Inv.modDie, State.Inv.later, State.Inv.unhold, State.Inv.settleClock]

theorem goes_leaseExpiry {gang : Nat} {s : State} : Goes s (execLeaseExpiry gang s) := by
  unfold execLeaseExpiry
  grind only [Goes.next, State.Inv.modGang, State.Inv.settleClock]

theorem goes_temperatureReading {cluster : Nat} {raw : Int} {s : State} : Goes s (execTemperatureReading cluster raw s) := by
  unfold execTemperatureReading
  grind only [Goes.next, State.Inv.foldl, State.Inv.modCluster, State.Inv.judgeTemp]

theorem goes_currentReading {cluster : Nat} {raw : Int} {s : State} : Goes s (execCurrentReading cluster raw s) := by
  unfold execCurrentReading
  grind only [Goes.next, State.Inv.foldl, State.Inv.modCluster, State.Inv.judgeAmps]

theorem goes_sensorSuspectClear {cluster : Nat} {thermal : Bool} {s : State} : Goes s (execSensorSuspectClear cluster thermal s) := by
  unfold execSensorSuspectClear
  grind only [Goes.next, State.Inv.judgeTemp, State.Inv.judgeAmps]

theorem goes_energyInterval {cluster energy : Nat} {s : State} : Goes s (execEnergyInterval cluster energy s) := by
  unfold execEnergyInterval
  grind only [Goes.next, State.Inv.foldl, State.Inv.modLaunch]

theorem goes_timingReplay {core : Nat} {s : State} : Goes s (execTimingReplay core s) := by
  unfold execTimingReplay
  grind only [Goes.next, State.Inv.foldl, State.Inv.modCore, State.Inv.modCluster, State.Inv.modLaunch, State.Inv.note,
      State.Inv.settleClock, State.Inv.endLeases]

theorem goes_replayHoldExpiry {cluster : Nat} {s : State} : Goes s (execReplayHoldExpiry cluster s) := by
  unfold execReplayHoldExpiry
  grind only [Goes.next, State.Inv.modCluster]

theorem goes_hbmIdleTimeout {stack : Nat} {s : State} : Goes s (execHbmIdleTimeout stack s) := by
  unfold execHbmIdleTimeout
  grind only [State.Inv, Goes.next]

end Sys2Proof.Machine
end

section
/-! A step keeps the state legal. -/

namespace Sys2Proof.Machine

theorem exec_goes (i : Instr) (s : State) : Goes s (exec i s) := by
  cases i with
  | emptyRun => exact goes_emptyRun
  | vadd => exact goes_vadd
  | vsub => exact goes_vsub
  | vmul => exact goes_vmul
  | vmulh => exact goes_vmulh
  | vmad => exact goes_vmad
  | vmin => exact goes_vmin
  | vmax => exact goes_vmax
  | vabs => exact goes_vabs
  | vneg => exact goes_vneg
  | vand => exact goes_vand
  | vor => exact goes_vor
  | vxor => exact goes_vxor
  | vnot => exact goes_vnot
  | vshl => exact goes_vshl
  | vshr => exact goes_vshr
  | vrot => exact goes_vrot
  | vbfx => exact goes_vbfx
  | vbfi => exact goes_vbfi
  | vpopc => exact goes_vpopc
  | vclz => exact goes_vclz
  | vbrev => exact goes_vbrev
  | vfadd => exact goes_vfadd
  | vfsub => exact goes_vfsub
  | vfmul => exact goes_vfmul
  | vfma => exact goes_vfma
  | vfmin => exact goes_vfmin
  | vfmax => exact goes_vfmax
  | vfabs => exact goes_vfabs
  | vfneg => exact goes_vfneg
  | vrcp => exact goes_vrcp
  | vrsq => exact goes_vrsq
  | vsqrt => exact goes_vsqrt
  | vexp2 => exact goes_vexp2
  | vlog2 => exact goes_vlog2
  | vsin => exact goes_vsin
  | vcos => exact goes_vcos
  | vtanh => exact goes_vtanh
  | vcmp => exact goes_vcmp
  | vsel => exact goes_vsel
  | vmov => exact goes_vmov
  | vcvt => exact goes_vcvt
  | vpack => exact goes_vpack
  | vunpk => exact goes_vunpk
  | vqnt => exact goes_vqnt
  | vote => exact goes_vote
  | vballot => exact goes_vballot
  | shfl => exact goes_shfl
  | vred => exact goes_vred
  | ld => exact goes_ld
  | st => exact goes_st
  | ldsp => exact goes_ldsp
  | stsp => exact goes_stsp
  | pref => exact goes_pref
  | atom => exact goes_atom
  | atomq => exact goes_atomq
  | atomsp => exact goes_atomsp
  | fence => exact goes_fence
  | stb => exact goes_stb
  | stk => exact goes_stk
  | bwait => exact goes_bwait
  | strm => exact goes_strm
  | strmx => exact goes_strmx
  | fput => exact goes_fput
  | fwait => exact goes_fwait
  | bcmin => exact goes_bcmin
  | bcrd => exact goes_bcrd
  | mma => exact goes_mma
  | mmac => exact goes_mmac
  | zld => exact goes_zld
  | zst => exact goes_zst
  | zclr => exact goes_zclr
  | zret => exact goes_zret
  | zretSp => exact goes_zretSp
  | zretG => exact goes_zretG
  | cpy => exact goes_cpy
  | cpyr => exact goes_cpyr
  | cpseal => exact goes_cpseal
  | cpwait => exact goes_cpwait
  | hset => exact goes_hset
  | br => exact goes_br
  | jmpr => exact goes_jmpr
  | call => exact goes_call
  | callr => exact goes_callr
  | ret => exact goes_ret
  | exit => exact goes_exit
  | bsz => exact goes_bsz
  | bsnz => exact goes_bsnz
  | loop => exact goes_loop
  | endl => exact goes_endl
  | lbrk => exact goes_lbrk
  | waitf => exact goes_waitf
  | testf => exact goes_testf
  | clrf => exact goes_clrf
  | pand => exact goes_pand
  | por => exact goes_por
  | pxor => exact goes_pxor
  | sadd => exact goes_sadd
  | ssub => exact goes_ssub
  | smul => exact goes_smul
  | sand => exact goes_sand
  | sor => exact goes_sor
  | sxor => exact goes_sxor
  | sshl => exact goes_sshl
  | sshr => exact goes_sshr
  | ssra => exact goes_ssra
  | smin => exact goes_smin
  | smax => exact goes_smax
  | smov => exact goes_smov
  | sysrd => exact goes_sysrd
  | syswr => exact goes_syswr
  | trap => exact goes_trap
  | tret => exact goes_tret
  | mark => exact goes_mark
  | markWait => exact goes_markWait
  | trig => exact goes_trig
  | launch => exact goes_launch
  | fork => exact goes_fork
  | join => exact goes_join
  | yield => exact goes_yield
  | pwracq => exact goes_pwracq
  | pwrrel => exact goes_pwrrel
  | sprint => exact goes_sprint
  | sync => exact goes_sync
  | hwait => exact goes_hwait
  | chkm => exact goes_chkm
  | quarterIssuePick => exact goes_quarterIssuePick
  | promotion => exact goes_promotion
  | regangRelease => exact goes_regangRelease
  | loadDataArrival => exact goes_loadDataArrival
  | streamElement => exact goes_streamElement
  | translationWalk => exact goes_translationWalk
  | faultAcknowledge => exact goes_faultAcknowledge
  | hostPageResponse => exact goes_hostPageResponse
  | fenceComplete => exact goes_fenceComplete
  | matrixCommandComplete => exact goes_matrixCommandComplete
  | mmacInstanceComplete => exact goes_mmacInstanceComplete
  | copyBytesPerformed => exact goes_copyBytesPerformed
  | copyComplete => exact goes_copyComplete
  | remoteRequestReceive => exact goes_remoteRequestReceive
  | remoteAnswer => exact goes_remoteAnswer
  | requestResendTimeout => exact goes_requestResendTimeout
  | carriedStoreResend => exact goes_carriedStoreResend
  | holdBoundExpiry => exact goes_holdBoundExpiry
  | brel => exact goes_brel
  | bfail => exact goes_bfail
  | heldack => exact goes_heldack
  | bexp => exact goes_bexp
  | sdreq => exact goes_sdreq
  | sdack => exact goes_sdack
  | sddone => exact goes_sddone
  | incann => exact goes_incann
  | deadn => exact goes_deadn
  | peerRecoveryTimeout => exact goes_peerRecoveryTimeout
  | portTrained => exact goes_portTrained
  | portLaneFailure => exact goes_portLaneFailure
  | portReplayExhausted => exact goes_portReplayExhausted
  | portTrainingTimeout => exact goes_portTrainingTimeout
  | portIdleTimeout => exact goes_portIdleTimeout
  | hostSubmission => exact goes_hostSubmission
  | launchPacketRead => exact goes_launchPacketRead
  | queueEnable => exact goes_queueEnable
  | queueDrain => exact goes_queueDrain
  | queueHalt => exact goes_queueHalt
  | queueResume => exact goes_queueResume
  | queueDisable => exact goes_queueDisable
  | queueResumeParked => exact goes_queueResumeParked
  | queueKillParked => exact goes_queueKillParked
  | launchStart => exact goes_launchStart
  | groupPlace => exact goes_groupPlace
  | poolClearDone => exact goes_poolClearDone
  | taskTake => exact goes_taskTake
  | taskSteal => exact goes_taskSteal
  | forkRetry => exact goes_forkRetry
  | barrierArrival => exact goes_barrierArrival
  | barrierRelease => exact goes_barrierRelease
  | snapshotComplete => exact goes_snapshotComplete
  | futureParkRetry => exact goes_futureParkRetry
  | groupRetire => exact goes_groupRetire
  | launchEnd => exact goes_launchEnd
  | uncorrectableErrorConsumed => exact goes_uncorrectableErrorConsumed
  | storageErrorDetected => exact goes_storageErrorDetected
  | hbmRepairFailure => exact goes_hbmRepairFailure
  | watchdogExpiry => exact goes_watchdogExpiry
  | gangStop => exact goes_gangStop
  | ctxCreate => exact goes_ctxCreate
  | ctxSet => exact goes_ctxSet
  | ctxSave => exact goes_ctxSave
  | ctxRestore => exact goes_ctxRestore
  | ctxKill => exact goes_ctxKill
  | ctxDestroy => exact goes_ctxDestroy
  | ctxStopComplete => exact goes_ctxStopComplete
  | ctxSaveAreaWritten => exact goes_ctxSaveAreaWritten
  | mapMap => exact goes_mapMap
  | mapUnmap => exact goes_mapUnmap
  | mapSetAttributes => exact goes_mapSetAttributes
  | mapProof => exact goes_mapProof
  | mapPin => exact goes_mapPin
  | mapUnpin => exact goes_mapUnpin
  | mapSpillArea => exact goes_mapSpillArea
  | prooferScan => exact goes_prooferScan
  | pageMoveComplete => exact goes_pageMoveComplete
  | markPacerAnswer => exact goes_markPacerAnswer
  | placementCounterHalving => exact goes_placementCounterHalving
  | currentGrant => exact goes_currentGrant
  | leaseGrant => exact goes_leaseGrant
  | leaseExpiry => exact goes_leaseExpiry
  | clusterIdleTimeout => exact goes_clusterIdleTimeout
  | railChangeComplete => exact goes_railChangeComplete
  | temperatureReading => exact goes_temperatureReading
  | currentReading => exact goes_currentReading
  | sensorSuspectClear => exact goes_sensorSuspectClear
  | energyInterval => exact goes_energyInterval
  | timingReplay => exact goes_timingReplay
  | replayHoldExpiry => exact goes_replayHoldExpiry
  | hbmIdleTimeout => exact goes_hbmIdleTimeout
  | powerGood => exact goes_powerGood
  | stage1Entry => exact goes_stage1Entry
  | joinWrite => exact goes_joinWrite
  | joinComplete => exact goes_joinComplete
  | featacptWrite => exact goes_featacptWrite
  | safelpWrite => exact goes_safelpWrite
  | portenWrite => exact goes_portenWrite
  | diecapWrite => exact goes_diecapWrite
  | peerstatStaleClear => exact goes_peerstatStaleClear
  | registerWrite => exact goes_registerWrite
  | spdmRequest => exact goes_spdmRequest
  | hostAddressTranslationChange => exact goes_hostAddressTranslationChange

/-- Settles O3: each of the 228 meanings answers a next state (`exec_goes`). -/
theorem everyMeaningGoesOn : Obligations.EveryMeaningGoesOn := by
  unfold Obligations.EveryMeaningGoesOn
  intro i s
  obtain ⟨t, ht, -⟩ := exec_goes i s
  exact ⟨t, ht⟩

theorem exec_keeps_inv {i : Instr} {s t : State} (hs : s.Inv) (h : exec i s = .next t) : t.Inv := by
  obtain ⟨u, hu, hinv⟩ := exec_goes i s
  rw [h] at hu
  cases hu
  exact hinv hs

theorem runSlots_keeps_inv {is : List Instr} {s t : State} (hs : s.Inv) (h : runSlots is s = .next t) : t.Inv := by
  induction is generalizing s with
  | nil =>
    cases h
    exact hs
  | cons i is ih =>
    obtain ⟨u, hu, hinv⟩ := exec_goes i s
    rw [runSlots, hu] at h
    exact ih (hinv hs) h

/-- The state with which a picked part stops, or starts to issue, is legal. -/
def BeginInv : Begin → Prop
  | .stop t => t.Inv
  | .slots t _ => t.Inv
  | .refused _ _ => True

theorem State.Inv.begin {s : State} {u k : Nat} (hs : s.Inv) : BeginInv (s.begin u k) := by
  unfold State.begin
  extract_lets g
  split
  · exact hs.lateFault
  split
  · exact State.Inv.later hs.modGang
  split
  · exact hs
  · split
    · exact hs.later
    · exact hs.sysFault
  · trivial
  · extract_lets d c
    split
    · next heq => exact hs.preAll hs.currentCheck AllInv.none _ heq
    split
    · exact hs.later
    split
    · exact hs.hold
    · exact hs.commence

theorem issue_keeps_inv {s t : State} {u k : Nat} (hs : s.Inv) (h : issue u k s = .next t) : t.Inv := by
  unfold issue at h
  have hb : BeginInv (s.begin u k) := hs.begin
  split at h
  · next heq =>
    cases h
    rw [heq] at hb
    exact hb
  · cases h
  · next v is heq =>
    rw [heq] at hb
    unfold finishBundle at h
    split at h
    · next hrun =>
      cases h
      exact (runSlots_keeps_inv hb hrun).finish
    · cases h
    · cases h

theorem State.Inv.popPicked {s : State} (hs : s.Inv) (l : List (Nat × Nat)) : State.Inv { s with picked := l } := hs

theorem State.Inv.popAgenda {s : State} (hs : s.Inv) (l : List Instr) : State.Inv { s with agenda := l } := hs

/-- Settles O2: a step runs a picked bundle, an event of the agenda or a clock edge, and each keeps the state legal. -/
theorem stepKeepsLegal : Obligations.StepKeepsLegal := by
  unfold Obligations.StepKeepsLegal
  intro s t hs h
  unfold step at h
  split at h
  · exact issue_keeps_inv (hs.popPicked _) h
  · exact exec_keeps_inv (hs.popAgenda _) h
  · cases h
    exact State.Inv.tick hs

end Sys2Proof.Machine
end

section
/-! The ports of the fabric (R357): what sending leaves alone, and the states that a port goes through. -/

namespace Sys2Proof.Machine

/-- `t` differs from `s` in the link's tables alone, and in no port's state. -/
def State.linkKeeps (s t : State) : Prop := (∃ l, t = { s with link := l }) ∧ ∀ k, (t.port k).st = (s.port k).st

theorem State.linkKeeps.refl (s : State) : s.linkKeeps s := ⟨⟨s.link, rfl⟩, fun _ => rfl⟩

theorem State.linkKeeps.trans {s t u : State} (h : s.linkKeeps t) (h' : t.linkKeeps u) : s.linkKeeps u := by
  obtain ⟨⟨l, rfl⟩, hst⟩ := h
  obtain ⟨⟨l', rfl⟩, hst'⟩ := h'
  exact ⟨⟨l', rfl⟩, fun k => (hst' k).trans (hst k)⟩

theorem State.linkKeeps.foldl {α : Type} {f : State → α → State} (hf : ∀ (s : State) x, s.linkKeeps (f s x)) (l : List α) (s : State) :
    s.linkKeeps (l.foldl f s) := by
  induction l generalizing s with
  | nil => exact .refl s
  | cons x l ih => exact (hf s x).trans (ih _)

theorem State.linkKeeps.mem {s t : State} (h : s.linkKeeps t) : t.mem = s.mem := by
  obtain ⟨⟨l, rfl⟩, -⟩ := h
  rfl

theorem State.linkKeeps.gangs {s t : State} (h : s.linkKeeps t) : t.gangs = s.gangs := by
  obtain ⟨⟨l, rfl⟩, -⟩ := h
  rfl

/-- A change of the link's tables that leaves the ports alone. -/
theorem State.linkKeeps_modLink {s : State} {f : Link → Link} (h : (f s.link).ports = s.link.ports) : s.linkKeeps (s.modLink f) :=
  ⟨⟨f s.link, rfl⟩, fun k => by
    show ((smFind (f s.link).ports k).getD _).st = _
    rw [h]
    rfl⟩

theorem State.port_modPort_same (s : State) (k : Nat) (f : Port → Port) : (s.modPort k f).port k = f (s.port k) := by
  show (smFind (smPut s.link.ports k (f (s.port k))) k).getD _ = _
  rw [smFind_smPut_same]
  rfl

theorem State.port_modPort_other (s : State) {k j : Nat} (f : Port → Port) (h : j ≠ k) : (s.modPort k f).port j = s.port j := by
  show (smFind (smPut s.link.ports k (f (s.port k))) j).getD _ = _
  rw [smFind_smPut_other _ _ _ _ h]
  rfl

theorem State.linkKeeps_modPort {s : State} {k : Nat} {f : Port → Port} (h : ∀ p, (f p).st = p.st) : s.linkKeeps (s.modPort k f) := by
  refine ⟨⟨_, rfl⟩, fun j => ?_⟩
  by_cases hj : j = k
  · rw [hj, State.port_modPort_same, h]
  · rw [State.port_modPort_other s f hj]

theorem State.linkKeeps_recover (s : State) (p : Nat) : s.linkKeeps (s.recover p) := by
  unfold State.recover
  split
  · exact State.linkKeeps_modLink rfl
  · exact .refl s

/-- Sending a request changes no state of a port (R356, R358). -/
theorem State.linkKeeps_transmit (s : State) (id : Nat) : s.linkKeeps (s.transmit id) := by
  unfold State.transmit
  split
  · exact .refl s
  split
  · exact .refl s
  extract_lets from_ now
  split
  · exact s.linkKeeps_recover _
  split
  · exact .refl s
  extract_lets t u out
  have ht : s.linkKeeps t := State.linkKeeps_modLink rfl
  have hu : t.linkKeeps u := State.linkKeeps_modPort fun _ => rfl
  exact (ht.trans hu).trans (State.linkKeeps_modLink rfl)

theorem State.linkKeeps_flushLink (s : State) : s.linkKeeps s.flushLink :=
  .foldl (fun t (e : Nat × Req) => t.linkKeeps_transmit e.1) _ s

/-- A port that enters a state has it, and memory and the gangs are as before (R357). -/
theorem State.setPort_enters (s : State) (k : Nat) (st : PortSt) :
    ((s.setPort k st).port k).st = st ∧ (s.setPort k st).mem = s.mem ∧ (s.setPort k st).gangs = s.gangs := by
  let t := s.modPort k (fun p => { p with st := st, since := s.time, lastUse := s.time, low := false })
  have hkeep : t.linkKeeps (s.setPort k st) := (State.linkKeeps.foldl State.linkKeeps_recover _ t).trans (State.linkKeeps_flushLink _)
  refine ⟨?_, hkeep.mem, hkeep.gangs⟩
  rw [hkeep.2 k, State.port_modPort_same]

/-- A port that retrains enters RETRAIN, or FAILED with its third within a second (R357). -/
theorem State.retrain_enters (s : State) (k : Nat) :
    let n := ((s.port k).retrains.filter (fun t => s.time < t + 1000 * Config.ms)).length
    ((s.retrain k).port k).st = (if 2 ≤ n then .failed else .retrain) ∧ (s.retrain k).mem = s.mem ∧ (s.retrain k).gangs = s.gangs := by
  intro n
  unfold State.retrain
  extract_lets l t
  have hl : l.length = n + 1 := rfl
  by_cases h : 2 ≤ n
  · rw [if_pos (by omega), if_pos h]
    exact t.setPort_enters k .failed
  · rw [if_neg (by omega), if_neg h]
    exact t.setPort_enters k .retrain

theorem PortSt.usable_of (st : PortSt) (h : st = .active ∨ st = .degraded) : st.usable = true := by
  rcases h with rfl | rfl <;> rfl

/-- Training that ends in time (R357). -/
theorem execPortTrained_trains {s : State} {k : Nat}
    (h : ((s.port k).st = .training ∧ s.time ≤ (s.port k).since + 4200000000) ∨ ((s.port k).st = .retrain ∧ s.time ≤ (s.port k).since + 420000000)) :
    execPortTrained k 2 s = .next (s.setPort k .active) ∧ execPortTrained k 1 s = .next (s.setPort k .degraded) := by
  rcases h with ⟨h, ht⟩ | ⟨h, ht⟩
  · have hlim : ¬ (s.port k).since + 100 * Config.ms < s.time := not_lt.mpr ht
    simp [execPortTrained, h, hlim]
  · have hlim : ¬ (s.port k).since + 10 * Config.ms < s.time := not_lt.mpr ht
    simp [execPortTrained, h, hlim]

/-- Settles O48: each event of a port sets the port's state (`setPort_enters`, `retrain_enters`). -/
theorem portsTrainAndFail : Obligations.PortsTrainAndFail := by
  unfold Obligations.PortsTrainAndFail
  intro s k p becomes
  have hset : ∀ {i : Instr} {st : PortSt}, exec i s = .next (s.setPort k st) → becomes i st := fun h => ⟨_, h, s.setPort_enters k _⟩
  have hbusy : ∀ {i : Instr} {st : PortSt}, exec i s = .next (s.retrain k) →
      (if 2 ≤ (p.retrains.filter (fun t => s.time < t + 42000000000)).length then PortSt.failed else .retrain) = st → becomes i st :=
    fun h hst => ⟨_, h, (s.retrain_enters k).1.trans hst, (s.retrain_enters k).2⟩
  refine ⟨fun h => ?_, fun h => hset ?_, fun hn => ⟨fun h => hbusy ?_ (if_neg (by omega)), fun h => hbusy ?_ (if_neg (by omega))⟩,
    fun hn h => hbusy ?_ (if_pos hn), fun h => ?_, fun h hidle => ?_⟩
  · have hrun := execPortTrained_trains h
    exact ⟨hset hrun.1, hset hrun.2⟩
  · show execPortLaneFailure k s = _
    unfold execPortLaneFailure
    rw [show (s.port k).st = .active from h]
  · show execPortLaneFailure k s = _
    unfold execPortLaneFailure
    rw [show (s.port k).st = .degraded from h]
  · exact if_pos (p.st.usable_of h)
  · exact if_pos (p.st.usable_of h)
  · refine ⟨(s.setPort k .failed).note (.portFailed k), if_pos ?_, s.setPort_enters k .failed⟩
    rcases h with ⟨h, ht⟩ | ⟨h, ht⟩
    · exact (Bool.or_eq_true _ _).mpr (.inl ((Bool.and_eq_true _ _).mpr ⟨decide_eq_true h, decide_eq_true ht⟩))
    · exact (Bool.or_eq_true _ _).mpr (.inr ((Bool.and_eq_true _ _).mpr ⟨decide_eq_true h, decide_eq_true ht⟩))
  · refine ⟨s.modPort k (fun p => { p with low := true }), if_pos ?_, ?_, ?_, rfl, rfl⟩
    · exact (Bool.and_eq_true _ _).mpr ⟨p.st.usable_of h, decide_eq_true hidle⟩
    · rw [State.port_modPort_same]
    · rw [State.port_modPort_same]

end Sys2Proof.Machine
end

section
/-! Waiting lane sets and held parts: which states of lane sets waking and settling leave, and that a hold that ends is gone (R34 to R36,
R187). -/

namespace Sys2Proof.Machine

/-- The states of the lane sets of slice `k`. -/
def Gang.sts (g : Gang) (k : Nat) : List Wait := (g.slice k).sets.map (fun e => e.2.st)

theorem setNth_getD {α : Type} (l : List α) (i j : Nat) (f : α → α) (d : α) :
    (setNth l i f).getD j d = if j = i ∧ i < l.length then f (l.getD i d) else l.getD j d := by
  unfold setNth
  by_cases hj : j < l.length
  · simp only [List.getD_eq_getElem?_getD, List.getElem?_mapIdx]
    grind only [= List.getElem?_eq_getElem, = Option.map_some, = Option.getD_some]
  · have hjl : l.length ≤ j := not_lt.mp hj
    have hne : ¬ (j = i ∧ i < l.length) := fun h => hj (h.1 ▸ h.2)
    rw [if_neg hne]
    simp [List.getD_eq_getElem?_getD, hjl]

theorem smMod_map_of {α β : Type} (m : List (Nat × α)) (i : Nat) (f : α → α) (v : α → β) (h : ∀ x, v (f x) = v x) :
    (smMod m i f).map (fun e => v e.2) = m.map (fun e => v e.2) := by
  unfold smMod
  rw [List.map_map]
  refine List.map_congr_left fun e _ => ?_
  dsimp only [Function.comp]
  split
  · exact h e.2
  · rfl

/-- A change of a slice that keeps the states of its lane sets. -/
theorem Gang.sts_modSlice (g : Gang) (i k : Nat) (f : Slice → Slice)
    (h : ∀ x, (f x).sets.map (fun e => e.2.st) = x.sets.map (fun e => e.2.st)) : (g.modSlice i f).sts k = g.sts k := by
  show ((setNth g.slices i f).getD k default).sets.map (fun e => e.2.st) = _
  rw [setNth_getD]
  split
  · next hk =>
    rw [h, ← hk.1]
    rfl
  · rfl

theorem Gang.sts_bringIn (g : Gang) (i e ready k : Nat) : (g.bringIn i e ready).sts k = g.sts k :=
  g.sts_modSlice i k _ fun x => smMod_map_of x.sets e (fun y => { y with ready := max y.ready ready, idle := 0 }) LaneSet.st fun _ => rfl

/-- A slice that settles changes which lane set is current, and no lane set's state (R34). -/
theorem Gang.sts_settleSlice (g : Gang) (i k : Nat) : (g.settleSlice i).sts k = g.sts k := by
  unfold Gang.settleSlice
  extract_lets x
  split
  · split
    · exact g.sts_modSlice i k _ fun _ => rfl
    · exact g.sts_bringIn ..
  · split
    · rfl
    · split
      · rfl
      · exact g.sts_bringIn ..

theorem Gang.sts_settle (g : Gang) (m k : Nat) : (g.settle m).sts k = g.sts k := by
  unfold Gang.settle
  induction bitsOf 8 m generalizing g with
  | nil => rfl
  | cons i l ih => exact (ih _).trans (g.sts_settleSlice i k)

/-! A part's holds. -/

/-- No part has the hold. -/
def Gang.noHold (g : Gang) (h : Hold) : Prop := ∀ p ∈ g.parts, h ∉ p.holds

theorem Gang.noHold_leavePart {g : Gang} {h : Hold} (hg : g.noHold h) (k : Nat) : (g.leavePart k).noHold h := fun p hp => by
  obtain ⟨q, hq, rfl⟩ := List.mem_map.mp (List.mem_of_mem_filter hp)
  exact hg q hq

theorem Gang.noHold_bringIn {g : Gang} {h : Hold} (hg : g.noHold h) (k e ready : Nat) : (g.bringIn k e ready).noHold h := fun p hp => by
  rcases List.mem_append.mp hp with hp | hp
  · exact Gang.noHold_leavePart (g := g.modSlice k _) hg k p hp
  · rw [List.mem_singleton.mp hp]
    exact List.not_mem_nil

theorem Gang.noHold_settleSlice {g : Gang} {h : Hold} (hg : g.noHold h) (k : Nat) : (g.settleSlice k).noHold h := by
  unfold Gang.settleSlice
  extract_lets x
  split
  · split
    · exact Gang.noHold_leavePart (g := g.modSlice k _) hg k
    · exact Gang.noHold_bringIn hg _ _ _
  · split
    · exact hg
    · split
      · exact hg
      · exact Gang.noHold_bringIn hg _ _ _

theorem Gang.noHold_settle {g : Gang} {h : Hold} (hg : g.noHold h) (m : Nat) : (g.settle m).noHold h := by
  unfold Gang.settle
  induction bitsOf 8 m generalizing g with
  | nil => exact hg
  | cons i l ih => exact ih (Gang.noHold_settleSlice hg i)

theorem Gang.noHold_dropHold (g : Gang) (h : Hold) : (g.dropHold h).noHold h := fun p hp => by
  obtain ⟨q, -, rfl⟩ := List.mem_map.mp hp
  simp

theorem Gang.noHold_dropHold_other {g : Gang} {h : Hold} (hg : g.noHold h) (h' : Hold) : (g.dropHold h').noHold h := fun p hp => by
  obtain ⟨q, hq, rfl⟩ := List.mem_map.mp hp
  exact fun hmem => hg q hq (List.mem_of_mem_filter hmem)

/-! What settling, waking and the end of a hold leave of a gang. -/

/-- Two gangs that differ in their slices and parts alone. -/
def Gang.sameRest (g g' : Gang) : Prop := ∃ sl ps, g' = { g with slices := sl, parts := ps }

theorem Gang.sameRest.trans {a b c : Gang} (h : a.sameRest b) (h' : b.sameRest c) : a.sameRest c := by
  obtain ⟨_, _, rfl⟩ := h
  obtain ⟨_, _, rfl⟩ := h'
  exact ⟨_, _, rfl⟩

theorem Gang.sameRest_settleSlice (g : Gang) (k : Nat) : g.sameRest (g.settleSlice k) := by
  obtain ⟨f, ps, h⟩ := g.settleSlice_eq k
  exact ⟨_, ps, h⟩

theorem Gang.sameRest_settle (g : Gang) (m : Nat) : g.sameRest (g.settle m) := by
  unfold Gang.settle
  induction bitsOf 8 m generalizing g with
  | nil => exact ⟨_, _, rfl⟩
  | cons i l ih => exact (g.sameRest_settleSlice i).trans (ih _)

theorem smMod_smMod {α : Type} (m : List (Nat × α)) (i : Nat) (f f' : α → α) : smMod (smMod m i f) i f' = smMod m i (fun x => f' (f x)) := by
  unfold smMod
  rw [List.map_map]
  refine List.map_congr_left fun e _ => ?_
  by_cases h : e.1 = i <;> simp [h]

theorem State.modGang_modGang (s : State) (u : Nat) (f f' : Gang → Gang) : (s.modGang u f).modGang u f' = s.modGang u (fun g => f' (f g)) := by
  unfold State.modGang
  rw [smMod_smMod]

/-- A hold goes from a gang's parts, whose slices settle. -/
def Gang.endHold (g : Gang) (h : Hold) (m t : Nat) : Gang :=
  ((g.dropHold h).modCurs m (fun y => { y with ready := max y.ready t })).settle m

theorem Gang.sameRest_endHold (g : Gang) (h : Hold) (m t : Nat) : g.sameRest (g.endHold h m t) :=
  Gang.sameRest.trans ⟨_, _, rfl⟩ (Gang.sameRest_settle _ m)

theorem Gang.noHold_endHold (g : Gang) (h : Hold) (m t : Nat) : (g.endHold h m t).noHold h :=
  Gang.noHold_settle (g := (g.dropHold h).modCurs m _) (g.noHold_dropHold h) m

theorem Gang.noHold_endHold_other {g : Gang} {h : Hold} (hg : g.noHold h) (h' : Hold) (m t : Nat) : (g.endHold h' m t).noHold h :=
  Gang.noHold_settle (g := (g.dropHold h').modCurs m _) (Gang.noHold_dropHold_other hg h') m

/-- The end of a hold changes slices and parts of its gang alone, and no part has the hold any more (R187). -/
theorem State.unholdAt_eq (s : State) (u : Nat) (h : Hold) (t : Nat) :
    ∃ f, s.unholdAt u h t = s.modGang u f ∧ ∀ g : Gang, g.sameRest (f g) ∧ (f g).noHold h ∧ ∀ h', g.noHold h' → (f g).noHold h' := by
  unfold State.unholdAt
  extract_lets m
  split
  · exact ⟨fun g => g.endHold h m t, rfl, fun g => ⟨g.sameRest_endHold h m t, g.noHold_endHold h m t, fun h' hg =>
      Gang.noHold_endHold_other hg h m t⟩⟩
  · refine ⟨_, State.modGang_modGang s u (fun g => g.endHold h m t) _, fun g => ⟨(g.sameRest_endHold h m t).trans ?_, ?_, fun h' hg => ?_⟩⟩
    · exact Gang.sameRest.trans ⟨_, _, rfl⟩ (Gang.sameRest_settle _ m)
    · exact Gang.noHold_settle (g := (g.endHold h m t).modCurs _ _) (g.noHold_endHold h m t) m
    · exact Gang.noHold_settle (g := (g.endHold h m t).modCurs _ _) (Gang.noHold_endHold_other hg h m t) m

/-- A property that a gang without contents has too, of a gang that has changed. -/
theorem State.gang_modGang_of {P : Gang → Prop} (hd : P default) {s : State} {u : Nat} {f : Gang → Gang} (h : P (f (s.gang u))) :
    P ((s.modGang u f).gang u) := by
  cases hu : smFind s.gangs u with
  | some g => rwa [State.gang_modGang_same _ _ _ (by rw [hu]; rfl)]
  | none =>
    have : (s.modGang u f).gang u = default := by
      show (smFind (smMod s.gangs u f) u).getD default = default
      rw [smFind_smMod, if_pos rfl, hu]
      rfl
    rwa [this]

theorem Gang.sameRest_bringIn (g : Gang) (k e ready : Nat) : g.sameRest (g.bringIn k e ready) := ⟨_, _, rfl⟩

theorem Gang.sameRest_wake (g : Gang) (ready : Nat) (p : Nat → LaneSet → Bool) : g.sameRest (g.wake ready p) := by
  unfold Gang.wake
  induction List.range g.slices.length generalizing g with
  | nil => exact ⟨_, _, rfl⟩
  | cons k l ih =>
    refine Gang.sameRest.trans ?_ (ih _)
    beta_reduce
    extract_lets x stuck left g' x'
    have hg : g.sameRest g' := ⟨_, _, rfl⟩
    refine iteInduction (fun _ => iteInduction (fun _ => ?_) fun _ => hg) fun _ => ⟨_, _, rfl⟩
    split
    · exact hg
    · exact iteInduction (fun _ => hg) fun _ => hg.trans (g'.sameRest_bringIn _ _ _)

/-- A woken lane set runs, or waits for a future again. -/
theorem Gang.resume_st (g : Gang) (k e ready : Nat) (y : LaneSet) :
    (g.resume k e ready y).st = .run ∨ ∃ a id, (g.resume k e ready y).st = .future a (some id) 0 := by
  unfold Gang.resume
  extract_lets mine
  split
  · exact .inr ⟨_, _, rfl⟩
  · exact .inl rfl

/-- Waking changes slices and parts of its gang alone; the lane sets that were to wake then wait at a regang bundle or for a future, or
run (R35). -/
theorem State.wakeSets_eq (s : State) (u ready : Nat) (p : Nat → LaneSet → Bool) :
    ∃ f, s.wakeSets u ready p = s.modGang u f ∧ ∀ g : Gang, g.sameRest (f g)
      ∧ ∀ k, ∀ w ∈ (f g).sts k, w = .regang ∨ (∃ a id, w = .future a (some id) 0) ∨ ∃ y : LaneSet, p k y = false ∧ y.st = w := by
  unfold State.wakeSets
  refine ⟨_, rfl, fun g => ?_⟩
  extract_lets waits g₁ g₂
  refine ⟨?_, fun k w hw => ?_⟩
  · exact ((g.sameRest_wake _ _).trans ⟨_, _, rfl⟩).trans (Gang.sameRest_settle _ _)
  · rw [Gang.sts_settle] at hw
    obtain ⟨e, he, rfl⟩ := List.mem_map.mp hw
    have hslice : g₂.slice k = (g₁.slices.mapIdx (fun k x => { x with sets := x.sets.map (fun e =>
        if p k e.2 then
          let y := g₁.resume k e.1 ready e.2
          (e.1, if y.st = .run then { y with st := .regang } else y)
        else e) })).getD k default := rfl
    rw [hslice, List.getD_eq_getElem?_getD, List.getElem?_mapIdx] at he
    cases hx : g₁.slices[k]? with
    | none =>
      rw [hx] at he
      exact absurd he List.not_mem_nil
    | some x =>
      rw [hx] at he
      obtain ⟨e', -, rfl⟩ := List.mem_map.mp he
      by_cases hp : p k e'.2 = true
      · rw [if_pos hp]
        dsimp only
        split
        · exact .inl rfl
        · next hrun => exact .inr (.inl ((g₁.resume_st k e'.1 ready e'.2).resolve_left hrun))
      · rw [if_neg hp]
        exact .inr (.inr ⟨e'.2, Bool.eq_false_iff.mpr hp, rfl⟩)

end Sys2Proof.Machine
end

section
/-! Rails, current grants, leases and replays (R255, R256, R382, R385, R387, R391). -/

namespace Sys2Proof.Machine

/-! Clusters, dies and cores. -/

theorem State.cluster_modCluster_same {s : State} {c : Nat} (f : Cluster → Cluster) (h : (smFind s.clusters c).isSome = true) :
    (s.modCluster c f).cluster c = f (s.cluster c) := by
  obtain ⟨k, hk⟩ := Option.isSome_iff_exists.mp h
  simp [State.cluster, smFind_smMod, hk]

theorem State.cluster_modCluster_other (s : State) {c j : Nat} (f : Cluster → Cluster) (h : j ≠ c) :
    (s.modCluster c f).cluster j = s.cluster j := by
  simp [State.cluster, smFind_smMod, h]

theorem isSome_smMod {α : Type} {m : List (Nat × α)} {j : Nat} (c : Nat) (f : α → α) (h : (smFind m j).isSome = true) :
    (smFind (smMod m c f) j).isSome = true := by
  obtain ⟨k, hk⟩ := Option.isSome_iff_exists.mp h
  rw [smFind_smMod, hk]
  split <;> rfl

theorem State.die_modDie_same {s : State} {d : Nat} (f : Die → Die) (h : (smFind s.dies d).isSome = true) :
    (s.modDie d f).die d = f (s.die d) := by
  obtain ⟨k, hk⟩ := Option.isSome_iff_exists.mp h
  simp [State.die, smFind_smMod, hk]

theorem State.hasDie_of_ne {s : State} {d : Nat} (h : s.die d ≠ default) : (smFind s.dies d).isSome = true := by
  cases hk : smFind s.dies d with
  | none => exact absurd (by simp [State.die, hk]) h
  | some k => rfl

theorem State.core_modCore_same (s : State) (c : Nat) (f : Core → Core) : (s.modCore c f).core c = f (s.core c) := by
  simp [State.core, smFind_smPut_same]

theorem State.core_modCore_other (s : State) {c j : Nat} (f : Core → Core) (h : j ≠ c) : (s.modCore c f).core j = s.core j := by
  show (smFind (smPut s.cores c _) j).getD default = _
  rw [smFind_smPut_other _ _ _ _ h]
  rfl

/-! A cluster's clock. -/

@[simp] theorem Cluster.retune_high (k : Cluster) (t : Nat) (high sprint : Bool) : (k.retune t high sprint).high = high := by
  unfold Cluster.retune
  extract_lets k'
  split <;> rfl

@[simp] theorem Cluster.retune_sprint (k : Cluster) (t : Nat) (high sprint : Bool) : (k.retune t high sprint).sprint = sprint := by
  unfold Cluster.retune
  extract_lets k'
  split <;> rfl

/-- Taking a rail and a lease state changes those, and the change that is under way (R385). -/
theorem Cluster.retune_eq (k : Cluster) (t : Nat) (high sprint : Bool) :
    ∃ x, k.retune t high sprint = { k with high := high, sprint := sprint, change := x } := by
  unfold Cluster.retune
  extract_lets k'
  split
  · exact ⟨_, rfl⟩
  · exact ⟨_, rfl⟩

theorem State.settleClock_same {s : State} {c : Nat} (h : (smFind s.clusters c).isSome = true) :
    (s.settleClock c).cluster c = (s.cluster c).retune s.time ((s.cluster c).forced.getD (s.cluster c).high) (s.leased c) :=
  State.cluster_modCluster_same _ h

/-- Rails and clocks (R385). -/
theorem railsChange : Claims.RailsChange := by
  unfold Claims.RailsChange
  intro s c hc k
  refine ⟨fun hhigh hchange hhot hhold hidle => ?_, fun hbusy => ?_, fun t₀ hchange hdue => ?_⟩
  · refine ⟨s.modCluster c (fun k => k.retune s.time false k.sprint), ?_, ?_, ?_, ?_, fun j hj => s.cluster_modCluster_other _ hj, rfl, rfl⟩
    · have hforced : k.forced = none := by simp [Cluster.forced, hhot, hhold]
      have hidle' : ¬ s.time < k.lastIssue + 10 * Config.us := not_lt.mpr hidle
      show execClusterIdleTimeout c s = _
      simp only [k] at *
      simp [execClusterIdleTimeout, hhigh, hchange, hforced, hidle']
    all_goals rw [State.cluster_modCluster_same _ hc]
    · exact Cluster.retune_high ..
    · have hne : ¬ (false = (s.cluster c).high) := by
        simp only [k] at hhigh
        simp [hhigh]
      simp [Cluster.retune, hne, changeTime]
    · simp [Cluster.period]
  · have hbusy' : s.time < k.lastIssue + 10 * Config.us := hbusy
    show execClusterIdleTimeout c s = _
    simp only [k] at hbusy'
    simp [execClusterIdleTimeout, hbusy']
  · refine ⟨s.modCluster c (fun k => { k with change := none }), ?_, State.cluster_modCluster_same _ hc, rfl, rfl⟩
    show execRailChangeComplete c s = _
    simp only [k] at hchange
    simp [execRailChangeComplete, hchange, not_lt.mpr hdue]

theorem State.modDie_gang (s : State) (d u : Nat) (f : Die → Die) : (s.modDie d f).gang u = s.gang u := rfl

/-- A granted class (R255, R387): the gang takes it, and no lane set waits for the request any more. -/
theorem State.grantClass_eq (s : State) (r : PwrReq) :
    ∃ f, s.grantClass r = s.modGang r.gang f ∧ ∀ g : Gang, (f g).curcls = r.want ∧ (f g).inReg = true
      ∧ ∀ k n, .pwr n r.id ∉ (f g).sts k := by
  obtain ⟨f, hwake, hf⟩ := (s.takeClass r.gang r.want).wakeSets_eq r.gang ((s.takeClass r.gang r.want).cycOf r.gang + 1)
    (fun _ y => match y.st with
      | .pwr _ id => id = r.id
      | _ => false)
  have hgrant : s.grantClass r = (s.takeClass r.gang r.want).modGang r.gang f := hwake
  refine ⟨fun g => f { g with curcls := r.want, inReg := true }, hgrant.trans (State.modGang_modGang ..), fun g => ?_⟩
  obtain ⟨⟨sl, ps, hrest⟩, hsts⟩ := hf { g with curcls := r.want, inReg := true }
  refine ⟨congrArg Gang.curcls hrest, congrArg Gang.inReg hrest, fun k n hmem => ?_⟩
  rcases hsts k _ hmem with h | ⟨a, id, h⟩ | ⟨y, hy, hst⟩
  · cases h
  · cases h
  · rw [hst] at hy
    simp at hy

/-- CURRENT_GRANT (R255, R387). -/
theorem currentIsGranted : Claims.CurrentIsGranted := by
  unfold Claims.CurrentIsGranted
  intro s d r rest hq hgang core raised
  have hexec : exec (.currentGrant d) s
      = if (s.pwrFits r.gang r.want).1 || (s.pwrFits r.gang r.want).2 then
          .next ((s.modDie d (fun d => { d with pwrq := rest })).grantClass r) else .next s := by
    show execCurrentGrant d s = _
    rw [execCurrentGrant, hq]
  refine ⟨fun hfits => ?_, fun hmore hover => ?_⟩
  · obtain ⟨f, hgrant, hf⟩ := (s.modDie d (fun d => { d with pwrq := rest })).grantClass_eq r
    obtain ⟨hcls, hreg, hsts⟩ := hf (s.gang r.gang)
    have hown : (((s.modDie d (fun d => { d with pwrq := rest })).modGang r.gang f).gang r.gang) = f (s.gang r.gang) :=
      State.gang_modGang_same _ _ _ hgang
    have hfit : ((s.pwrFits r.gang r.want).1 || (s.pwrFits r.gang r.want).2) = true := by
      rw [Bool.or_eq_true]
      exact hfits.imp decide_eq_true decide_eq_true
    refine ⟨_, hexec.trans (if_pos hfit), ?_⟩
    rw [hgrant]
    refine ⟨?_, ?_, ?_, fun k e he n hst => ?_, rfl⟩
    · have hd : (smFind s.dies d).isSome = true := State.hasDie_of_ne fun h => by
        rw [h] at hq
        cases hq
      exact congrArg Die.pwrq (State.die_modDie_same (fun d => { d with pwrq := rest }) hd)
    · rw [hown, hcls]
    · rw [hown, hreg]
    · rw [hown] at he
      exact hsts k n (List.mem_map.mpr ⟨e, he, hst⟩)
  · rw [hexec, if_neg]
    have h1 : ¬ raised ≤ s.coreCharge core := not_le.mpr hmore
    have h2 : ¬ s.dieCharge (dieOf core) + raised ≤ (s.die (dieOf core)).budget + s.coreCharge core := not_le.mpr hover
    simp only [core, raised] at h1 h2
    simp [State.pwrFits, h1, h2]

/-! Leases. -/

theorem mem_of_smFind {α : Type} {m : List (Nat × α)} {i : Nat} {x : α} (h : smFind m i = some x) : (i, x) ∈ m := by
  induction m with
  | nil => cases h
  | cons e m ih =>
    obtain ⟨k, v⟩ := e
    rw [smFind] at h
    split at h
    · next hk =>
      cases h
      rw [hk]
      exact List.mem_cons_self
    · exact List.mem_cons_of_mem _ (ih h)

theorem State.hasGang_of_ne {s : State} {u : Nat} (h : s.gang u ≠ default) : (smFind s.gangs u).isSome = true := by
  cases hk : smFind s.gangs u with
  | none => exact absurd (by simp [State.gang, hk]) h
  | some k => rfl

theorem State.mem_gangs {s : State} {u : Nat} (h : (smFind s.gangs u).isSome = true) : (u, s.gang u) ∈ s.gangs := by
  obtain ⟨g, hg⟩ := Option.isSome_iff_exists.mp h
  rw [State.gang, hg]
  exact mem_of_smFind hg

theorem State.hasGang_modGang {s : State} {u : Nat} (f : Gang → Gang) (h : (smFind s.gangs u).isSome = true) :
    (smFind (s.modGang u f).gangs u).isSome = true := by
  obtain ⟨g, hg⟩ := Option.isSome_iff_exists.mp h
  show (smFind (smMod s.gangs u f) u).isSome = true
  rw [smFind_smMod, if_pos rfl, hg]
  rfl

/-- A cluster is leased whose gang holds a lease that is in force. -/
theorem State.leased_of {s : State} {c u t : Nat} (h : (smFind s.gangs u).isSome = true) (hlive : (s.gang u).live = true)
    (hc : clusterOf (s.gang u).core = c) (ht : (s.gang u).leaseEnd = some t) (hlt : s.time < t) : s.leased c = true := by
  refine List.any_eq_true.mpr ⟨_, State.mem_gangs h, ?_⟩
  simp only [hlive, hc, decide_true, Bool.and_self, Bool.true_and]
  rw [ht]
  exact decide_eq_true hlt

/-- What a granted lease does to its gang (R256). -/
theorem State.giveLease_eq (s : State) (u id e : Nat) :
    ∃ f, ((s.modGang u (fun g => { g with leaseEnd := some e, leaseCut := none, leaseLeft := 0 })).unhold u (.sprint id)).unhold u (.lease id)
        = s.modGang u f
      ∧ ∀ g : Gang, (f g).leaseEnd = some e ∧ (f g).core = g.core ∧ (f g).live = g.live ∧ (f g).noHold (.sprint id) ∧ (f g).noHold (.lease id) := by
  let s₁ := s.modGang u (fun g => { g with leaseEnd := some e, leaseCut := none, leaseLeft := 0 })
  obtain ⟨f, hf, hfs⟩ := s₁.unholdAt_eq u (.sprint id) (s₁.cycOf u + 1)
  obtain ⟨f', hf', hfs'⟩ := (s₁.unhold u (.sprint id)).unholdAt_eq u (.lease id) ((s₁.unhold u (.sprint id)).cycOf u + 1)
  have hs₁ : s₁.unhold u (.sprint id) = s.modGang u (fun g => f { g with leaseEnd := some e, leaseCut := none, leaseLeft := 0 }) :=
    hf.trans (State.modGang_modGang ..)
  have hs₂ : (s₁.unhold u (.sprint id)).unhold u (.lease id)
      = s.modGang u (fun g => f' (f { g with leaseEnd := some e, leaseCut := none, leaseLeft := 0 })) :=
    (hf'.trans (by rw [hs₁])).trans (State.modGang_modGang ..)
  refine ⟨_, hs₂, fun g => ?_⟩
  obtain ⟨hrest, hsprint, -⟩ := hfs { g with leaseEnd := some e, leaseCut := none, leaseLeft := 0 }
  obtain ⟨hrest', hlease, hkeep⟩ := hfs' (f { g with leaseEnd := some e, leaseCut := none, leaseLeft := 0 })
  obtain ⟨sl, ps, hall⟩ := hrest.trans hrest'
  exact ⟨congrArg Gang.leaseEnd hall, (congrArg Gang.core hall).trans rfl, (congrArg Gang.live hall).trans rfl, hkeep _ hsprint, hlease⟩

/-- Leases (R256, R391). -/
theorem leasesRunTheirTime : Claims.LeasesRunTheirTime := by
  unfold Claims.LeasesRunTheirTime
  refine ⟨?_, fun s u t₀ hend => ⟨fun hdue => ?_, fun hearly => ?_⟩⟩
  · intro s d r hq hlive hwant c hc
    have hexec : exec (.leaseGrant d) s = execLeaseGrant d s := rfl
    have hgang : (smFind s.gangs r.gang).isSome = true := State.hasGang_of_ne fun h => by
      rw [h] at hlive
      cases hlive
    have hdie : (smFind s.dies d).isSome = true := State.hasDie_of_ne fun h => by
      rw [h] at hq
      cases hq
    refine ⟨fun hmay hlast => ?_, fun hmay hlast => ?_, fun hlast => ?_⟩
    · let s₁ := s.modDie d (fun d => { d with leaseq := d.leaseq.filter (fun x => x ≠ r) })
      obtain ⟨f, hgive, hf⟩ := s₁.giveLease_eq r.gang r.id (s.time + r.want * Config.us)
      obtain ⟨hend, hcore, hlive', hsprint, hlease⟩ := hf (s.gang r.gang)
      have hown : (s₁.modGang r.gang f).gang r.gang = f (s.gang r.gang) := State.gang_modGang_same _ _ _ hgang
      have hcluster : clusterOf ((s₁.modGang r.gang (fun g =>
          { g with leaseEnd := some (s.time + r.want * Config.us), leaseCut := none, leaseLeft := 0 })).gang r.gang).core = c := by
        rw [State.gang_modGang_same s₁ _ _ hgang]
        rfl
      refine ⟨(s₁.modGang r.gang f).settleClock c, ?_, ?_, hown ▸ hend, fun p hp => ?_, ?_, rfl⟩
      · rw [hexec, execLeaseGrant, hq]
        dsimp only
        rw [if_neg (Bool.eq_false_iff.mp hlast), if_neg (by rw [show s.mayLease (clusterOf (s.gang r.gang).core) = true from hmay]; decide)]
        exact congrArg Host.Outcome.next (congrArg₂ State.settleClock hgive hcluster)
      · show (s₁.die d).leaseq = []
        rw [State.die_modDie_same _ hdie]
        simp [hq]
      · have hp' : p ∈ (f (s.gang r.gang)).parts := hown ▸ hp
        exact ⟨hsprint p hp', hlease p hp'⟩
      · rw [State.settleClock_same (s := s₁.modGang r.gang f) hc, Cluster.retune_sprint]
        refine State.leased_of (u := r.gang) (t := s.time + r.want * Config.us) ?_ ?_ ?_ ?_ ?_
        · exact State.hasGang_modGang f hgang
        · rw [hown, hlive', hlive]
        · rw [hown, hcore]
        · rw [hown, hend]
        · show s.time < s.time + r.want * Config.us
          have : 0 < r.want * Config.us := Nat.mul_pos (Nat.pos_of_ne_zero hwant) (by decide)
          omega
    · have hmay' : s.mayLease (clusterOf (s.gang r.gang).core) = false := hmay
      rw [hexec, execLeaseGrant, hq]
      simp [hlast, hmay']
    · rw [hexec, execLeaseGrant, hq]
      simp [hlast, State.later]
  · refine ⟨(s.modGang u (fun g => { g with leaseEnd := none })).settleClock (clusterOf (s.gang u).core), ?_, ?_, fun v hv => ?_, rfl⟩
    · show execLeaseExpiry u s = _
      rw [execLeaseExpiry, hend]
      exact if_neg (not_lt.mpr hdue)
    · exact congrArg Gang.leaseEnd (State.gang_modGang_same s u (fun g => { g with leaseEnd := none }) (State.hasGang_of_ne fun h => by rw [h] at hend; cases hend))
    · exact State.gang_modGang_other s u v (fun g => { g with leaseEnd := none }) hv
  · show execLeaseExpiry u s = _
    rw [execLeaseExpiry, hend]
    exact if_pos hearly

/-- Ended leases are gone (R391). -/
theorem State.endLeases_none (s : State) (c : Nat) : ∀ e ∈ (s.endLeases c).gangs, clusterOf e.2.core = c → e.2.leaseEnd = none :=
  fun e he hc => by
    obtain ⟨e', -, rfl⟩ := List.mem_map.mp he
    by_cases h : clusterOf e'.2.core = c
    · rw [if_pos h]
    · rw [if_neg h] at hc
      exact absurd hc h

theorem State.leased_endLeases (s : State) (c : Nat) : (s.endLeases c).leased c = false := by
  refine Bool.eq_false_iff.mpr fun h => ?_
  obtain ⟨e, he, hl⟩ := List.any_eq_true.mp h
  simp only [Bool.and_eq_true, decide_eq_true_eq] at hl
  rw [s.endLeases_none c e he hl.1.2] at hl
  exact absurd hl.2 Bool.false_ne_true

/-! Replays. -/

/-- Counting for launches changes contexts alone. -/
theorem State.foldl_modLaunch_eq (f : Launch → Launch) (l : List (Nat × Nat × Nat)) (s : State) :
    ∃ cs, l.foldl (fun s x => s.modLaunch x.1 x.2.1 x.2.2 f) s = { s with ctxs := cs } := by
  induction l generalizing s with
  | nil => exact ⟨s.ctxs, rfl⟩
  | cons x l ih => exact ih (s.modLaunch x.1 x.2.1 x.2.2 f)

/-- The state in which a core has replayed a cycle (R382): its cluster counts the replay, and the core repeats the cycle. -/
def State.replayed (s : State) (core : Nat) : State :=
  (s.modCluster (clusterOf core) (fun k => { k with
    replays := s.time :: (s.cluster (clusterOf core)).replays.filter (fun t => s.time < t + Config.ms) })).modCore core
      (fun x => x.repeat_ (s.cluster (clusterOf core)).cyc)

theorem State.hasCluster_replayed {s : State} {c : Nat} (core : Nat) (h : (smFind s.clusters c).isSome = true) :
    (smFind (s.replayed core).clusters c).isSome = true := by
  simp only [State.replayed, State.modCore_clusters, State.modCluster_clusters]
  exact isSome_smMod _ _ h

theorem execTimingReplay_eq (core : Nat) (s : State) :
    ∃ cs, execTimingReplay core s = (
      let u : State := { s.replayed core with ctxs := cs }
      if (s.time :: (s.cluster (clusterOf core)).replays.filter (fun t => s.time < t + Config.ms)).length < 16 then .next u
      else if (s.cluster (clusterOf core)).high && !(s.leased (clusterOf core)) then
        .next ((u.modCluster (clusterOf core) (fun k => { k with replays := [] })).note (.replay (clusterOf core)))
      else .next (((((u.modCluster (clusterOf core) (fun k => { k with replays := [] })).note (.replay (clusterOf core))).modCluster
        (clusterOf core) (fun k => { k with rhold := some (s.time + 100 * Config.ms) })).endLeases (clusterOf core)).settleClock
          (clusterOf core))) := by
  obtain ⟨cs, hcs⟩ := State.foldl_modLaunch_eq (fun y => { y with throttled := setNth y.throttled 5 (· + 1) })
    ((s.replayed core).launchesOn (fun c => c = core)) (s.replayed core)
  refine ⟨cs, ?_⟩
  unfold execTimingReplay
  extract_lets cluster k l t u v w
  have hu : u = { s.replayed core with ctxs := cs } := hcs
  clear_value u
  subst hu
  rfl

/-- TIMING_REPLAY and REPLAY_HOLD_EXPIRY (R382). -/
theorem replaysHoldTheRail : Claims.ReplaysHoldTheRail := by
  unfold Claims.ReplaysHoldTheRail
  intro s core hc c k n late
  obtain ⟨cs, hrun⟩ := execTimingReplay_eq core s
  have hn : (s.time :: (s.cluster (clusterOf core)).replays.filter (fun t => s.time < t + Config.ms)).length = n := rfl
  have hcluster : (s.replayed core).cluster c = { k with replays := s.time :: k.replays.filter (fun t => s.time < t + Config.ms) } :=
    State.cluster_modCluster_same
      (fun x => { x with replays := s.time :: (s.cluster (clusterOf core)).replays.filter (fun t => s.time < t + Config.ms) }) hc
  have hlate : ∀ t : State, (t.cluster c).edge = k.edge → t.cores = (s.replayed core).cores → late t := fun t hedge hcores => by
    have hcore : ∀ j, t.core j = (s.replayed core).core j := fun j => by rw [State.core, hcores]; rfl
    refine ⟨hedge, ?_, fun j hj => ?_⟩
    · rw [hcore, State.replayed, State.core_modCore_same]
      exact List.length_append
    · rw [hcore, State.replayed, State.core_modCore_other _ _ hj]
      rfl
  refine ⟨fun hfew => ?_, fun hmany hlow hhot => ?_, fun t₀ hhold hdue => ?_⟩
  · refine ⟨{ s.replayed core with ctxs := cs }, hrun.trans (if_pos (hn ▸ hfew)), hlate _ ?_ rfl, ?_, ?_, ?_, rfl, rfl⟩
    · exact (congrArg Cluster.edge hcluster).trans rfl
    · exact (congrArg (fun k => k.replays.length) hcluster).trans rfl
    · exact (congrArg Cluster.rhold hcluster).trans rfl
    · exact (congrArg Cluster.high hcluster).trans rfl
  · let u : State := (({ s.replayed core with ctxs := cs } : State).modCluster c (fun k => { k with replays := [] })).note (.replay c)
    let v : State := (u.modCluster c (fun k => { k with rhold := some (s.time + 100 * Config.ms) })).endLeases c
    have hr : (smFind (s.replayed core).clusters c).isSome = true := State.hasCluster_replayed core hc
    have hu : (smFind u.clusters c).isSome = true := isSome_smMod c (fun k : Cluster => { k with replays := [] }) hr
    have hu' : u.cluster c = { k with replays := [] } :=
      (State.cluster_modCluster_same (s := { s.replayed core with ctxs := cs }) (fun k => { k with replays := [] })
        hr).trans (congrArg (fun k : Cluster => { k with replays := [] }) hcluster)
    have hv : (smFind v.clusters c).isSome = true := isSome_smMod c (fun k : Cluster => { k with rhold := some (s.time + 100 * Config.ms) }) hu
    have hv' : v.cluster c = { k with replays := [], rhold := some (s.time + 100 * Config.ms) } :=
      (State.cluster_modCluster_same (fun k => { k with rhold := some (s.time + 100 * Config.ms) }) hu).trans
        (congrArg (fun k : Cluster => { k with rhold := some (s.time + 100 * Config.ms) }) hu')
    have hforced : (v.cluster c).forced = some true := by
      rw [hv', Cluster.forced]
      simp only [k] at hhot
      simp [k, hhot]
    have hclock : (v.settleClock c).cluster c = (v.cluster c).retune v.time true (v.leased c) := by
      rw [State.settleClock_same hv, hforced]
      rfl
    obtain ⟨x, hx⟩ := (v.cluster c).retune_eq v.time true (v.leased c)
    refine ⟨v.settleClock c, ?_, hlate _ ?_ rfl, ?_, ?_, ?_, ?_, State.endLeases_none _ c, rfl⟩
    · refine hrun.trans ((if_neg (by omega)).trans (if_neg ?_))
      simp only [k] at hlow
      rcases hlow with h | h <;> simp [h, c]
    · rw [hclock, hx, hv']
    · rw [hclock, hx, hv']
      rfl
    · rw [hclock, hx]
    · rw [hclock, Cluster.retune_sprint]
      exact State.leased_endLeases _ c
    · rw [hclock, hx, hv']
  · refine ⟨s.modCluster c (fun k => { k with rhold := none }), ?_, State.cluster_modCluster_same _ hc, rfl, rfl⟩
    show execReplayHoldExpiry c s = _
    rw [execReplayHoldExpiry, show (s.cluster c).rhold = some t₀ from hhold]
    exact if_neg (not_lt.mpr hdue)

/-- Settles O57: `railsChange`, `currentIsGranted`, `leasesRunTheirTime` and `replaysHoldTheRail`. -/
theorem railsAndLeases : Obligations.RailsAndLeases :=
  ⟨railsChange, currentIsGranted, leasesRunTheirTime, replaysHoldTheRail⟩

end Sys2Proof.Machine
end

section
/-! Sensor readings, energy and idle stacks (R308, R388, R392). -/

namespace Sys2Proof.Machine

theorem State.hasCluster_modCluster {s : State} {c j : Nat} (f : Cluster → Cluster) (h : (smFind s.clusters j).isSome = true) :
    (smFind (s.modCluster c f).clusters j).isSome = true :=
  isSome_smMod c f h

theorem ne_of_mem_ringOf {c j : Nat} (h : j ∈ ringOf c) : j ≠ c := by
  simp only [ringOf, List.mem_cons, List.not_mem_nil, or_false] at h
  omega

theorem spread_keepHist_nil (t : Nat) : spread (keepHist t []) = 0 := rfl

/-- A sensor none of whose neighbours has read anything is not stuck (R392). -/
theorem stuck_of_silent {t : Nat} {own : List (Nat × Int)} {ring : List (List (Nat × Int))} (h : ∀ l ∈ ring, l = []) :
    stuck t own ring = false := by
  have hnone : ring.any (fun l => 2 ≤ spread (keepHist t l)) = false := by
    refine List.any_eq_false.mpr fun l hl => ?_
    rw [h l hl, spread_keepHist_nil]
    decide
  rw [stuck, hnone, Bool.and_false]

/-! Temperatures. -/

theorem tempCase_of_silent {t : Nat} {raw : Int} {own : List (Nat × Int)} {ring : List (List (Nat × Int))} (h : ∀ l ∈ ring, l = []) :
    tempCase t raw own ring (0, 0) = (decide (raw < -20) || decide (150 < raw), false) := by
  simp [tempCase, stuck_of_silent h]

theorem filter_read_eq_nil {l : List Nat} {f : Nat → Cluster} {susp : Cluster → Bool} {hist : Cluster → List (Nat × Int)}
    (h : ∀ j ∈ l, hist (f j) = []) : (l.map f).filter (fun x => !susp x && !(hist x).isEmpty) = [] := by
  refine List.filter_eq_nil_iff.mpr fun x hx => ?_
  obtain ⟨j, hj, rfl⟩ := List.mem_map.mp hx
  simp [h j hj]

theorem map_hist_silent {l : List Nat} {f : Nat → Cluster} {hist : Cluster → List (Nat × Int)} (h : ∀ j ∈ l, hist (f j) = []) :
    ∀ r ∈ (l.map f).map hist, r = [] := fun r hr => by
  obtain ⟨x, hx, rfl⟩ := List.mem_map.mp hr
  obtain ⟨j, hj, rfl⟩ := List.mem_map.mp hx
  exact h j hj

/-- The sensor's standing temperature is out of range (R392). -/
def Cluster.tOut (k : Cluster) : Bool := decide (k.tRaw < -20) || decide (150 < k.tRaw)

/-- A standing temperature is suspect, where no neighbour has read anything (R392). -/
def Cluster.tDoubt (k : Cluster) (t : Nat) : Bool :=
  k.tOut || (k.tSusp && decide (t < lastCase t k.tOut k.tHeld k.tSince + 10 * Config.ms))

/-- Judging a temperature where no neighbour has read anything (R392). -/
theorem State.judgeTemp_of_silent {s : State} {c : Nat} (h : ∀ j ∈ ringOf c, (s.cluster j).tHist = []) :
    s.judgeTemp c = (s.modCluster c (fun k => { k with
        tSusp := (s.cluster c).tDoubt s.time, tHeld := (s.cluster c).tOut,
        tSince := lastCase s.time (s.cluster c).tOut (s.cluster c).tHeld (s.cluster c).tSince })).heat c
      (if (s.cluster c).tDoubt s.time then 105 else (s.cluster c).tRaw) ((s.cluster c).tDoubt s.time) := by
  unfold State.judgeTemp
  extract_lets k ring m
  have hm : m = (0, 0) := by
    show meanOf ((ring.filter _).map _) = _
    rw [show ring.filter (fun x => !x.tSusp && !x.tHist.isEmpty) = [] from filter_read_eq_nil (hist := Cluster.tHist) h]
    rfl
  have hring : ∀ l ∈ ring.map (fun x => x.tHist), l = [] := map_hist_silent h
  rw [hm, tempCase_of_silent hring]
  simp only [Bool.or_false, tempInstead, decide_true, Bool.or_true, if_true]
  rfl

/-- What an effective temperature does to its cluster, unless it removes power (R388). -/
theorem State.heat_cluster {s : State} {c : Nat} {eff : Int} {susp : Bool} (hc : (smFind s.clusters c).isSome = true)
    (hstay : susp = true ∨ eff < 110) :
    (∃ x high sprint, (s.heat c eff susp).cluster c = { s.cluster c with
        tEff := eff, tSubst := susp, hot90 := hotAt 90 eff (s.cluster c).hot90, hot100 := hotAt 100 eff (s.cluster c).hot100
        hot105 := hotAt 105 eff (s.cluster c).hot105, change := x, high := high, sprint := sprint }
      ∧ (hotAt 100 eff (s.cluster c).hot100 = true → high = false))
    ∧ (∀ j, j ≠ c → (s.heat c eff susp).cluster j = s.cluster j) ∧ (s.heat c eff susp).mem = s.mem ∧ (s.heat c eff susp).dev = s.dev
    ∧ (hotAt 90 eff (s.cluster c).hot90 = true → ∀ e ∈ (s.heat c eff susp).gangs, clusterOf e.2.core = c → e.2.leaseEnd = none) := by
  have hpower : ¬ ((!susp && decide (110 ≤ eff)) = true) := by
    rcases hstay with rfl | h
    · simp
    · simp [h]
  unfold State.heat
  extract_lets k t
  rw [if_neg hpower]
  have ht : (smFind t.clusters c).isSome = true := isSome_smMod c (fun k : Cluster => { k with
      tEff := eff, tSubst := susp, hot90 := hotAt 90 eff k.hot90, hot100 := hotAt 100 eff k.hot100, hot105 := hotAt 105 eff k.hot105 }) hc
  have hk : t.cluster c = { s.cluster c with
      tEff := eff, tSubst := susp, hot90 := hotAt 90 eff (s.cluster c).hot90, hot100 := hotAt 100 eff (s.cluster c).hot100
      hot105 := hotAt 105 eff (s.cluster c).hot105 } :=
    State.cluster_modCluster_same (fun k => { k with
      tEff := eff, tSubst := susp, hot90 := hotAt 90 eff k.hot90, hot100 := hotAt 100 eff k.hot100, hot105 := hotAt 105 eff k.hot105 }) hc
  have hother : ∀ j, j ≠ c → t.cluster j = s.cluster j := fun j hj => s.cluster_modCluster_other _ hj
  generalize hu : (if hotAt 90 eff k.hot90 then t.endLeases c else t) = u
  have hclusters : u.clusters = t.clusters := by rw [← hu]; split <;> rfl
  have hmem : u.mem = s.mem := by rw [← hu]; split <;> rfl
  have hdev : u.dev = s.dev := by rw [← hu]; split <;> rfl
  have hclu : ∀ j, u.cluster j = t.cluster j := fun j => by rw [State.cluster, hclusters]; rfl
  obtain ⟨x, hx⟩ := (u.cluster c).retune_eq u.time ((u.cluster c).forced.getD (u.cluster c).high) (u.leased c)
  have hclock := State.settleClock_same (s := u) (c := c) (by rw [hclusters]; exact ht)
  refine ⟨⟨x, (u.cluster c).forced.getD (u.cluster c).high, u.leased c, ?_, fun hhot => ?_⟩, fun j hj => ?_, hmem, hdev, fun hhot => ?_⟩
  · rw [hclock, hx, hclu, hk]
  · rw [hclu, hk, Cluster.forced]
    simp [hhot]
  · rw [State.settleClock, State.cluster_modCluster_other _ _ hj, hclu, hother j hj]
  · rw [if_pos hhot] at hu
    rw [← hu]
    exact State.endLeases_none t c

/-- A standing temperature out of range stays suspect, and removes no power (R388, R392). -/
theorem State.judgeTemp_stays {s : State} {c : Nat} (hc : (smFind s.clusters c).isSome = true) (hout : (s.cluster c).tOut = true) :
    ((s.judgeTemp c).cluster c).tSusp = true ∧ (s.judgeTemp c).dev = s.dev ∧ (s.judgeTemp c).mem = s.mem := by
  unfold State.judgeTemp
  extract_lets k ring m
  have hcase : (tempCase s.time k.tRaw (keepHist s.time k.tHist) (ring.map (fun x => x.tHist)) m).1 = true := hout
  generalize tempCase s.time k.tRaw (keepHist s.time k.tHist) (ring.map (fun x => x.tHist)) m = case at hcase
  obtain ⟨out, odd⟩ := case
  subst hcase
  simp only [Bool.true_or, if_true]
  obtain ⟨⟨x, high, sprint, hk, -⟩, -, hmem, hdev, -⟩ := State.heat_cluster (c := c) (eff := tempInstead true m)
    (susp := true) (State.hasCluster_modCluster (fun x => { x with
      tSusp := true, tHeld := true, tSince := lastCase s.time true k.tHeld k.tSince }) hc) (.inl rfl)
  refine ⟨?_, hdev, hmem⟩
  rw [hk, State.cluster_modCluster_same _ hc]

/-- The state in which a sensor has read `raw` (R388). -/
def State.readTemp (s : State) (c : Nat) (raw : Int) : State :=
  s.modCluster c (fun k => { k with tRaw := raw, tHist := keepHist s.time ((s.time, raw) :: k.tHist) })

/-- A reading whose neighbours are silent judges its own sensor alone. -/
theorem execTemperatureReading_of_silent {s : State} {c : Nat} {raw : Int}
    (h : ∀ j ∈ ringOf c, (((s.readTemp c raw).judgeTemp c).cluster j).tHist = []) :
    execTemperatureReading c raw s = .next ((s.readTemp c raw).judgeTemp c) := by
  have hnone : ((s.readTemp c raw).judgeTemp c).readNeighbours c (·.tHist) = [] :=
    List.filter_eq_nil_iff.mpr fun j hj => by simp [h j hj]
  show Host.Outcome.next ((((s.readTemp c raw).judgeTemp c).readNeighbours c (·.tHist)).foldl State.judgeTemp _) = _
  rw [hnone]
  rfl

/-- A first reading of a sensor that is not suspect and whose neighbours are silent (R388, R392). -/
theorem State.judgeTemp_readTemp {s : State} {c : Nat} {raw : Int} (hc : (smFind s.clusters c).isSome = true)
    (hsusp : (s.cluster c).tSusp = false) (hring : ∀ j ∈ ringOf c, (s.cluster j).tHist = []) :
    let out := decide (raw < -20) || decide (150 < raw)
    ∃ t : State, (s.readTemp c raw).judgeTemp c = t.heat c (if out then 105 else raw) out
      ∧ (∃ hist held since, t.cluster c = { s.cluster c with tRaw := raw, tHist := hist, tSusp := out, tHeld := held, tSince := since })
      ∧ (smFind t.clusters c).isSome = true ∧ (∀ j, j ≠ c → t.cluster j = s.cluster j) ∧ ∃ cs, t = { s with clusters := cs } := by
  intro out
  have hown : (s.readTemp c raw).cluster c = { s.cluster c with
      tRaw := raw, tHist := keepHist s.time ((s.time, raw) :: (s.cluster c).tHist) } :=
    State.cluster_modCluster_same (fun k => { k with tRaw := raw, tHist := keepHist s.time ((s.time, raw) :: k.tHist) }) hc
  have hother : ∀ j, j ≠ c → (s.readTemp c raw).cluster j = s.cluster j := fun j hj => s.cluster_modCluster_other _ hj
  have hdoubt : ((s.readTemp c raw).cluster c).tDoubt (s.readTemp c raw).time = out := by
    rw [Cluster.tDoubt, hown, hsusp]
    simp [Cluster.tOut, out]
  have hc₁ : (smFind (s.readTemp c raw).clusters c).isSome = true :=
    isSome_smMod c (fun k : Cluster => { k with tRaw := raw, tHist := keepHist s.time ((s.time, raw) :: k.tHist) }) hc
  have hj := (s.readTemp c raw).judgeTemp_of_silent (c := c) fun j hj => by rw [hother j (ne_of_mem_ringOf hj), hring j hj]
  have hraw : ((s.readTemp c raw).cluster c).tRaw = raw := by rw [hown]
  rw [hdoubt, hraw] at hj
  refine ⟨_, hj, ?_, ?_, fun j hj => ?_, ⟨_, rfl⟩⟩
  · rw [State.cluster_modCluster_same _ hc₁, hown]
    exact ⟨_, _, _, rfl⟩
  · exact State.hasCluster_modCluster _ hc₁
  · rw [State.cluster_modCluster_other _ _ hj, hother j hj]

theorem hotAt_iff (lim eff : Int) (was : Bool) : hotAt lim eff was = true ↔ lim ≤ eff ∨ (was = true ∧ lim - 5 ≤ eff) := by
  simp [hotAt]

theorem smFind_map_snd {α β : Type} (m : List (Nat × α)) (f : α → β) (i : Nat) :
    smFind (m.map (fun e => (e.1, f e.2))) i = (smFind m i).map f := by
  induction m with
  | nil => rfl
  | cons e m ih =>
    simp only [List.map_cons, smFind, ih]
    split <;> rfl

/-- Without power no sensor has read anything (log entry 46). -/
theorem State.powerOff_tHist (s : State) (c j : Nat) : ((s.powerOff c).cluster j).tHist = [] := by
  rw [State.cluster, show smFind (s.powerOff c).clusters j = _ from
    smFind_map_snd s.clusters (fun k : Cluster => ({ Cluster.reset with edge := k.edge } : Cluster)) j]
  cases smFind s.clusters j <;> rfl

/-- Thermal readings (R388, R392). -/
theorem thermalReadingsAct : Claims.ThermalReadingsAct := by
  unfold Claims.ThermalReadingsAct
  intro s c raw hc k hsusp _ hring
  obtain ⟨t, hjudge, ⟨hist, held, since, hown⟩, htc, hother, cs, hframe⟩ := State.judgeTemp_readTemp (raw := raw) hc hsusp hring
  have hmem : t.mem = s.mem := by rw [hframe]
  refine ⟨fun hlo hhi => ?_, fun hout => ?_, fun hlo hhi => ?_⟩
  · have hin : (decide (raw < -20) || decide (150 < raw)) = false := by
      simp only [Bool.or_eq_false_iff, decide_eq_false_iff_not]
      omega
    rw [hin] at hjudge hown
    obtain ⟨⟨x, high, sprint, hk, -⟩, hothers, hmem', -, hcold⟩ := State.heat_cluster (eff := raw) (susp := false) htc (.inr hhi)
    have hstate : (s.readTemp c raw).judgeTemp c = t.heat c raw false := hjudge
    refine ⟨t.heat c raw false, hstate ▸ execTemperatureReading_of_silent fun j hj => ?_, ?_⟩
    · rw [hstate, hothers j (ne_of_mem_ringOf hj), hother j (ne_of_mem_ringOf hj), hring j hj]
    · rw [hk, hown]
      refine ⟨rfl, rfl, rfl, hotAt_iff .., hotAt_iff .., hotAt_iff .., fun h90 => hcold ?_, hmem'.trans hmem⟩
      rw [hotAt_iff]
      exact .inl h90
  · have hin : (decide (raw < -20) || decide (150 < raw)) = true := by
      simpa using hout
    rw [hin] at hjudge hown
    obtain ⟨⟨x, high, sprint, hk, hlow⟩, hothers, hmem', -, -⟩ := State.heat_cluster (eff := 105) (susp := true) htc (.inl rfl)
    have hstate : (s.readTemp c raw).judgeTemp c = t.heat c 105 true := hjudge
    refine ⟨t.heat c 105 true, hstate ▸ execTemperatureReading_of_silent fun j hj => ?_, ?_⟩
    · rw [hstate, hothers j (ne_of_mem_ringOf hj), hother j (ne_of_mem_ringOf hj), hring j hj]
    · rw [hk]
      refine ⟨by rw [hown], rfl, by rw [hown], ?_, hlow ?_, hmem'.trans hmem⟩
      · exact (hotAt_iff 105 105 (t.cluster c).hot105).mpr (.inl (le_refl 105))
      · exact (hotAt_iff 100 105 (t.cluster c).hot100).mpr (.inl (by decide))
  · have hin : (decide (raw < -20) || decide (150 < raw)) = false := by
      simp only [Bool.or_eq_false_iff, decide_eq_false_iff_not]
      omega
    rw [hin] at hjudge hown
    have hstate : (s.readTemp c raw).judgeTemp c = t.powerOff c := by
      rw [hjudge]
      exact if_pos (by simpa using hlo)
    refine ⟨t.powerOff c, hstate ▸ execTemperatureReading_of_silent fun j _ => ?_, rfl, rfl, rfl, rfl, rfl, ?_, ?_⟩
    · rw [hstate]
      exact t.powerOff_tHist c j
    · rw [hframe]
      rfl
    · rw [hframe]
      rfl

/-! Currents. -/

theorem ampCase_of_silent {t : Nat} {raw : Int} {own : List (Nat × Int)} {ring : List (List (Nat × Int))} (h : ∀ l ∈ ring, l = []) :
    ampCase t raw own ring (0, 0) = (decide (raw < 0) || decide (4000 < raw), false) := by
  simp [ampCase, stuck_of_silent h]

/-- The sensor's standing current is out of range (R392). -/
def Cluster.iOut (k : Cluster) : Bool := decide (k.iRaw < 0) || decide (4000 < k.iRaw)

/-- A standing current is suspect, where no neighbour has read anything (R392). -/
def Cluster.iDoubt (k : Cluster) (t : Nat) : Bool :=
  k.iOut || (k.iSusp && decide (t < lastCase t k.iOut k.iHeld k.iSince + 10 * Config.ms))

/-- The cluster once its standing current is judged, where no neighbour has read anything (R388, R392). -/
def Cluster.judged (k : Cluster) (t : Nat) : Cluster :=
  { k with
    iSusp := k.iDoubt t, iHeld := k.iOut, iSince := lastCase t k.iOut k.iHeld k.iSince
    iEff := if k.iDoubt t then 1300 else k.iRaw, iSubst := k.iDoubt t
    overI := decide (1300 < (if k.iDoubt t then 1300 else k.iRaw)) || (k.overI && decide (1200 ≤ (if k.iDoubt t then 1300 else k.iRaw))) }

theorem State.judgeAmps_of_silent {s : State} {c : Nat} (h : ∀ j ∈ ringOf c, (s.cluster j).iHist = []) :
    s.judgeAmps c = s.modCluster c (fun k => { k with
      iSusp := (s.cluster c).iDoubt s.time, iHeld := (s.cluster c).iOut,
      iSince := lastCase s.time (s.cluster c).iOut (s.cluster c).iHeld (s.cluster c).iSince }.draw
        (if (s.cluster c).iDoubt s.time then 1300 else (s.cluster c).iRaw) 1 ((s.cluster c).iDoubt s.time)) := by
  unfold State.judgeAmps
  extract_lets k ring m
  have hm : m = (0, 0) := by
    show meanOf ((ring.filter _).map _) = _
    rw [show ring.filter (fun x => !x.iSusp && !x.iHist.isEmpty) = [] from filter_read_eq_nil (hist := Cluster.iHist) h]
    rfl
  have hring : ∀ l ∈ ring.map (fun x => x.iHist), l = [] := map_hist_silent h
  rw [hm, ampCase_of_silent hring]
  dsimp only
  simp only [Bool.or_false, decide_true, Bool.or_true, if_true]
  show s.modCluster c _ = s.modCluster c _
  have hreading : ∀ (b : Bool) (x : Int), (if (!b) = true then (x, (1 : Int)) else (1300, 1)) = (if b = true then 1300 else x, 1) :=
    fun b _ => by cases b <;> rfl
  simp only [hreading]
  rfl

/-- Judging a current where no neighbour has read anything changes its own cluster alone (R388, R392). -/
theorem State.judgeAmps_cluster {s : State} {c : Nat} (hc : (smFind s.clusters c).isSome = true)
    (h : ∀ j ∈ ringOf c, (s.cluster j).iHist = []) :
    (s.judgeAmps c).cluster c = (s.cluster c).judged s.time ∧ (∀ j, j ≠ c → (s.judgeAmps c).cluster j = s.cluster j)
      ∧ ∃ cs, s.judgeAmps c = { s with clusters := cs } := by
  rw [State.judgeAmps_of_silent h]
  refine ⟨?_, fun j hj => State.cluster_modCluster_other _ _ hj, ⟨_, rfl⟩⟩
  rw [State.cluster_modCluster_same _ hc]
  simp only [Cluster.draw, Cluster.judged, Int.ediv_one, Int.mul_one]

/-- The state in which a sensor has read a current (R388). -/
def State.readAmps (s : State) (c : Nat) (raw : Int) : State :=
  s.modCluster c (fun k => { k with iRaw := raw, iHist := keepHist s.time ((s.time, raw) :: k.iHist) })

/-- A current reading whose neighbours are silent judges its own sensor alone. -/
theorem execCurrentReading_of_silent {s : State} {c : Nat} {raw : Int}
    (h : ∀ j ∈ ringOf c, (((s.readAmps c raw).judgeAmps c).cluster j).iHist = []) :
    execCurrentReading c raw s = .next ((s.readAmps c raw).judgeAmps c) := by
  have hnone : ((s.readAmps c raw).judgeAmps c).readNeighbours c (·.iHist) = [] :=
    List.filter_eq_nil_iff.mpr fun j hj => by simp [h j hj]
  show Host.Outcome.next ((((s.readAmps c raw).judgeAmps c).readNeighbours c (·.iHist)).foldl State.judgeAmps _) = _
  rw [hnone]
  rfl

/-- A first current reading of a sensor that is not suspect and whose neighbours are silent (R388, R392). -/
theorem State.judgeAmps_readAmps {s : State} {c : Nat} {raw : Int} (hc : (smFind s.clusters c).isSome = true)
    (hsusp : (s.cluster c).iSusp = false) (hring : ∀ j ∈ ringOf c, (s.cluster j).iHist = []) :
    let out := decide (raw < 0) || decide (4000 < raw)
    let t := (s.readAmps c raw).judgeAmps c
    execCurrentReading c raw s = .next t ∧ (t.cluster c).iRaw = raw ∧ (t.cluster c).iEff = (if out then 1300 else raw)
      ∧ (t.cluster c).iSusp = out
      ∧ (t.cluster c).overI = (decide (1300 < (if out then 1300 else raw)) || ((s.cluster c).overI && decide (1200 ≤ (if out then 1300 else raw))))
      ∧ t.gangs = s.gangs ∧ t.mem = s.mem := by
  intro out t
  have hown : (s.readAmps c raw).cluster c = { s.cluster c with
      iRaw := raw, iHist := keepHist s.time ((s.time, raw) :: (s.cluster c).iHist) } :=
    State.cluster_modCluster_same (fun k => { k with iRaw := raw, iHist := keepHist s.time ((s.time, raw) :: k.iHist) }) hc
  have hother : ∀ j, j ≠ c → (s.readAmps c raw).cluster j = s.cluster j := fun j hj => s.cluster_modCluster_other _ hj
  have hdoubt : ((s.readAmps c raw).cluster c).iDoubt (s.readAmps c raw).time = out := by
    rw [Cluster.iDoubt, hown, hsusp]
    simp [Cluster.iOut, out]
  obtain ⟨hk, hothers, cs, hframe⟩ := State.judgeAmps_cluster (s := s.readAmps c raw) (c := c) (State.hasCluster_modCluster _ hc)
    fun j hj => by rw [hother j (ne_of_mem_ringOf hj), hring j hj]
  have hraw : ((s.readAmps c raw).cluster c).iRaw = raw := by rw [hown]
  have hover : ((s.readAmps c raw).cluster c).overI = (s.cluster c).overI := by rw [hown]
  refine ⟨execCurrentReading_of_silent fun j hj => ?_, ?_, ?_, ?_, ?_, ?_, ?_⟩
  · rw [hothers j (ne_of_mem_ringOf hj), hother j (ne_of_mem_ringOf hj), hring j hj]
  · rw [hk]
    exact hraw
  · rw [hk, Cluster.judged, hdoubt, hraw]
  · rw [hk, Cluster.judged, hdoubt]
  · rw [hk, Cluster.judged, hdoubt, hraw, hover]
  · exact (congrArg State.gangs hframe).trans rfl
  · exact (congrArg State.mem hframe).trans rfl

/-- Current readings, and the end of suspicion (R388, R392). -/
theorem currentReadingsAct : Claims.CurrentReadingsAct := by
  unfold Claims.CurrentReadingsAct
  refine ⟨?_, ?_⟩
  · intro s c raw hc k hsusp _ hring
    obtain ⟨hexec, hraw, heff, hsusp', hover, hgangs, hmem⟩ := State.judgeAmps_readAmps (raw := raw) hc hsusp hring
    refine ⟨fun hlo hhi => ⟨_, hexec, hraw, ?_⟩, fun hout => ⟨_, hexec, hraw, ?_⟩⟩
    · have hin : (decide (raw < 0) || decide (4000 < raw)) = false := by
        simp only [Bool.or_eq_false_iff, decide_eq_false_iff_not]
        omega
      rw [hin] at heff hsusp' hover
      refine ⟨heff, hsusp', ?_, hgangs, hmem⟩
      rw [hover]
      simp [k]
    · have hin : (decide (raw < 0) || decide (4000 < raw)) = true := by simpa using hout
      rw [hin] at heff hsusp'
      exact ⟨heff, hsusp', hgangs, hmem⟩
  · intro s c hc k
    refine ⟨fun hout hsusp => ?_, fun hsusp hheld hdue hlo hhi hring => ?_, fun hsusp hheld hdue hlo hhi hring => ?_⟩
    · by_cases hdue : s.time < k.tSince + 10 * Config.ms
      · refine ⟨s, ?_, hsusp, rfl, rfl⟩
        show execSensorSuspectClear c true s = _
        rw [execSensorSuspectClear, if_pos rfl, if_pos (by simp only [k] at hdue; simp [hdue])]
      · obtain ⟨hk, hdev, hmem⟩ := State.judgeTemp_stays hc (by simpa [Cluster.tOut] using hout)
        refine ⟨s.judgeTemp c, ?_, hk, hdev, hmem⟩
        show execSensorSuspectClear c true s = _
        rw [execSensorSuspectClear, if_pos rfl, if_neg (by simp only [k] at hdue hsusp; simp [hdue, hsusp])]
    · have hout : k.tOut = false := by
        simp only [Cluster.tOut, Bool.or_eq_false_iff, decide_eq_false_iff_not]
        omega
      have hdue' : ¬ s.time < k.tSince + 10 * Config.ms := not_lt.mpr hdue
      have hdoubt : k.tDoubt s.time = false := by
        rw [Cluster.tDoubt, hout, hheld]
        simp [lastCase, hdue']
      have hj := State.judgeTemp_of_silent hring
      rw [hdoubt] at hj
      obtain ⟨⟨x, high, sprint, hk, -⟩, -, hmem, -, -⟩ := State.heat_cluster (c := c) (eff := k.tRaw) (susp := false)
        (State.hasCluster_modCluster (fun x => { x with
          tSusp := false, tHeld := k.tOut, tSince := lastCase s.time k.tOut k.tHeld k.tSince }) hc) (.inr hhi)
      have hown := State.cluster_modCluster_same (fun x : Cluster => { x with
          tSusp := false, tHeld := k.tOut, tSince := lastCase s.time k.tOut k.tHeld k.tSince }) hc
      refine ⟨s.judgeTemp c, ?_, ?_⟩
      · show execSensorSuspectClear c true s = _
        rw [execSensorSuspectClear, if_pos rfl, if_neg (by simp only [k] at hdue' hsusp; simp [hdue', hsusp])]
      · have hk' : (s.judgeTemp c).cluster c = _ := (congrArg (fun t : State => t.cluster c) hj).trans hk
        rw [hk', hown]
        refine ⟨rfl, rfl, hotAt_iff .., hotAt_iff .., hotAt_iff .., ?_⟩
        rw [hj]
        exact hmem
    · have hout : k.iOut = false := by
        simp only [Cluster.iOut, Bool.or_eq_false_iff, decide_eq_false_iff_not]
        omega
      have hdue' : ¬ s.time < k.iSince + 10 * Config.ms := not_lt.mpr hdue
      have hdoubt : k.iDoubt s.time = false := by
        rw [Cluster.iDoubt, hout, hheld]
        simp [lastCase, hdue']
      obtain ⟨hk, -, cs, hframe⟩ := State.judgeAmps_cluster hc hring
      refine ⟨s.judgeAmps c, ?_, ?_⟩
      · show execSensorSuspectClear c false s = _
        rw [execSensorSuspectClear, if_neg Bool.false_ne_true, if_neg (by simp only [k] at hdue' hsusp; simp [hdue', hsusp])]
      · rw [hk, Cluster.judged, show (s.cluster c).iDoubt s.time = false from hdoubt]
        refine ⟨rfl, rfl, ?_, by rw [hframe], by rw [hframe]⟩
        simp [k]

/-! Energy, and stacks of HBM. -/

/-- Adding fractions adds their values (R308). -/
theorem addFrac_value (a b : Nat × Nat) (hb : 0 < b.2) :
    ((addFrac a b).1 : Rat) / ((addFrac a b).2 : Rat) = (a.1 : Rat) / (max 1 a.2 : Nat) + (b.1 : Rat) / (b.2 : Rat) := by
  unfold addFrac
  extract_lets d n g
  have hd : 0 < d := by omega
  have hg : 0 < g := by omega
  have hgn : g ∣ n ∧ g ∣ d * b.2 := by
    have hpos : 0 < Nat.gcd n (d * b.2) := Nat.gcd_pos_of_pos_right _ (Nat.mul_pos hd hb)
    have hgg : g = Nat.gcd n (d * b.2) := by omega
    rw [hgg]
    exact ⟨Nat.gcd_dvd_left .., Nat.gcd_dvd_right ..⟩
  obtain ⟨⟨x, hx⟩, ⟨y, hy⟩⟩ := hgn
  have hd' : (d : Rat) ≠ 0 := by exact_mod_cast hd.ne'
  have hb' : (b.2 : Rat) ≠ 0 := by exact_mod_cast hb.ne'
  have hg' : (g : Rat) ≠ 0 := by exact_mod_cast hg.ne'
  have hy' : (y : Rat) ≠ 0 := by
    have : y ≠ 0 := fun h => by
      rw [h, Nat.mul_zero] at hy
      exact absurd hy (Nat.mul_pos hd hb).ne'
    exact_mod_cast this
  show ((n / g : Nat) : Rat) / ((d * b.2 / g : Nat) : Rat) = (a.1 : Rat) / (d : Rat) + _
  have hxq : (a.1 : Rat) * b.2 + b.1 * d = g * x := by exact_mod_cast hx
  have hyq : (d : Rat) * b.2 = g * y := by exact_mod_cast hy
  rw [hx, hy, Nat.mul_div_cancel_left _ hg, Nat.mul_div_cancel_left _ hg, div_add_div _ _ hd' hb', hyq]
  rw [show (a.1 : Rat) * b.2 + d * b.1 = g * x by rw [← hxq]; ring]
  rw [mul_div_mul_left _ _ hg']

/-! Contexts, queues and launches. -/

theorem State.ctx_modCtx_same {s : State} {c : Nat} (f : Ctx → Ctx) (h : (smFind s.ctxs c).isSome = true) :
    (s.modCtx c f).ctx c = f (s.ctx c) := by
  obtain ⟨x, hx⟩ := Option.isSome_iff_exists.mp h
  simp [State.ctx, smFind_smMod, hx]

theorem State.ctx_modCtx_other (s : State) {c d : Nat} (f : Ctx → Ctx) (h : d ≠ c) : (s.modCtx c f).ctx d = s.ctx d := by
  simp [State.ctx, smFind_smMod, h]

theorem State.hasCtx_of_ne {s : State} {c : Nat} (h : s.ctx c ≠ default) : (smFind s.ctxs c).isSome = true := by
  cases hk : smFind s.ctxs c with
  | none => exact absurd (by simp [State.ctx, hk]) h
  | some x => rfl

theorem State.queue_modQueue_same {s : State} {c q : Nat} (f : Queue → Queue) (h : (smFind s.ctxs c).isSome = true) :
    (s.modQueue c q f).queue c q = f (s.queue c q) := by
  rw [State.queue, State.modQueue, State.ctx_modCtx_same _ h, smFind_smPut_same]
  rfl

theorem State.queue_modQueue_other {s : State} {c q p : Nat} (f : Queue → Queue) (h : (smFind s.ctxs c).isSome = true) (hp : p ≠ q) :
    (s.modQueue c q f).queue c p = s.queue c p := by
  rw [State.queue, State.modQueue, State.ctx_modCtx_same _ h, smFind_smPut_other _ _ _ _ hp]
  rfl

/-- A context that has a queue with something in it is there. -/
theorem State.hasCtx_of_queue {s : State} {c q : Nat} (h : s.queue c q ≠ Queue.reset) : (smFind s.ctxs c).isSome = true :=
  State.hasCtx_of_ne fun hd => h (by rw [State.queue, hd]; rfl)

theorem State.hasCtx_of_launch {s : State} {c q n : Nat} (h : (smFind (s.queue c q).launches n).isSome = true) :
    (smFind s.ctxs c).isSome = true :=
  State.hasCtx_of_queue fun hd => by
    rw [hd] at h
    exact absurd h Bool.false_ne_true

theorem State.launch_modLaunch_same {s : State} {c q n : Nat} (f : Launch → Launch)
    (h : (smFind (s.queue c q).launches n).isSome = true) : (s.modLaunch c q n f).launch c q n = f (s.launch c q n) := by
  rw [State.launch, State.modLaunch, State.queue_modQueue_same _ (State.hasCtx_of_launch h), smFind_smMod, if_pos rfl]
  obtain ⟨l, hl⟩ := Option.isSome_iff_exists.mp h
  rw [State.launch, hl]
  rfl

/-- ENERGY_INTERVAL and HBM_IDLE_TIMEOUT (R308). -/
theorem energyIsShared : Claims.EnergyIsShared := by
  unfold Claims.EnergyIsShared
  refine ⟨?_, fun s k hidle => ?_⟩
  · intro s c energy a q n hone hlaunch hslot l
    let slots := fun (l : Nat × Nat × Nat) => (s.gangs.filter (fun e => s.holdsSlot e.1 e.2 && clusterOf e.2.core = c
      && (let x := s.group e.2.group; (x.ctx, x.q, x.seq) = l))).length
    have hpos : 0 < slots (a, q, n) := by
      obtain ⟨e, he, hholds, hcore, hctx, hq, hseq⟩ := hslot
      exact List.length_pos_of_mem (List.mem_filter.mpr ⟨he, by simp [hholds, hcore, hctx, hq, hseq]⟩)
    refine ⟨s.modLaunch a q n (fun x => { x with energy := addFrac x.energy (energy * slots (a, q, n), slots (a, q, n)) }), ?_, rfl, rfl, ?_⟩
    · show execEnergyInterval c energy s = _
      unfold execEnergyInterval
      rw [hone]
      exact if_neg hpos.ne'
    · rw [State.launch_modLaunch_same _ hlaunch]
      show ((addFrac l.energy (energy * slots (a, q, n), slots (a, q, n))).1 : Rat) / _ = _
      rw [addFrac_value _ _ hpos]
      have hne : ((slots (a, q, n) : Nat) : Rat) ≠ 0 := by exact_mod_cast hpos.ne'
      congr 1
      push_cast
      field_simp
  · refine ⟨{ s with hbm := smPut s.hbm k (((smFind s.hbm k).getD (0, false)).1, true) }, if_neg (not_lt.mpr hidle),
      smFind_smPut_same .., fun j hj => smFind_smPut_other _ _ _ _ hj, rfl, rfl⟩

/-- Settles O58: `thermalReadingsAct`, `currentReadingsAct` and `energyIsShared`. -/
theorem readingsAndEnergy : Obligations.ReadingsAndEnergy := ⟨thermalReadingsAct, currentReadingsAct, energyIsShared⟩

end Sys2Proof.Machine
end

section
/-! Power-good and stage 1 (R389, R393 to R396, R400). -/

namespace Sys2Proof.Machine

/-- A record that stage 0 finds nothing wrong with (R394 to R396). -/
def Dev.accepts (d : Dev) (x : SignedRecord) : Prop :=
  x.signed = true ∧ d.counters.getD (x.kind.code - 1) 0 ≤ x.version
    ∧ (x.kind = .unitMap → x.content.length = 4 ∧ ∀ m ∈ x.content, m < 8192 ∧ ((List.range 13).filter (fun i => m.testBit i)).length = 12)

theorem maskOk_iff (m : Nat) : maskOk m = true ↔ m < 8192 ∧ ((List.range 13).filter (fun i => m.testBit i)).length = 12 := by
  simp only [maskOk, Bool.and_eq_true, decide_eq_true_eq, popCount_eq, List.countP_eq_length_filter]
  exact Iff.rfl

theorem Dev.mapOk_iff (x : SignedRecord) :
    (x.kind = .unitMap && (x.content.length ≠ 4 || !(x.content.all maskOk))) = false
      ↔ (x.kind = .unitMap → x.content.length = 4 ∧ ∀ m ∈ x.content, m < 8192 ∧ ((List.range 13).filter (fun i => m.testBit i)).length = 12) := by
  simp only [← maskOk_iff, ← List.all_eq_true]
  by_cases hk : x.kind = .unitMap <;> simp [hk]

theorem Dev.recordErr_eq_none {d : Dev} {x : SignedRecord} : d.recordErr x = none ↔ d.accepts x := by
  unfold Dev.recordErr Dev.accepts
  rw [← Dev.mapOk_iff]
  generalize d.counters.getD (x.kind.code - 1) 0 = n
  generalize (decide (x.kind = .unitMap) && (decide (x.content.length ≠ 4) || !(x.content.all maskOk))) = bad
  cases x.signed with
  | false => simp
  | true =>
    by_cases hv : x.version < n
    · simp [hv]
    · cases bad <;> simp [hv, not_lt.mp hv]

theorem execStage1Entry_open {s : State} {b : BootResult} (hp : s.dev.powered = true) (hs : s.dev.stage = 0)
    (he : s.dev.err = 0 ∨ s.dev.err = 6) :
    execStage1Entry b s = (match s.dev.bootErr b with
      | some (err, detail) => .next (s.modDev (fun d => { d with err := err, detail := detail, boot := none }))
      | none =>
        if !([RecordKind.unitMap, .trims] ++ (List.finRange 8).map RecordKind.repair).all (fun k => b.records.any (fun x => x.kind = k)) then .next s
        else if s.dev.safeState = 1 then .next (s.modDev (fun d => { d with boot := some b }))
        else .next (s.enterStage1 b)) := by
  refine if_neg ?_
  rcases he with he | he <;> simp [hp, hs, he]

theorem execStage1Entry_fails {s : State} {b : BootResult} {e n : Nat} (hp : s.dev.powered = true) (hs : s.dev.stage = 0)
    (he : s.dev.err = 0 ∨ s.dev.err = 6) (h : s.dev.bootErr b = some (e, n)) :
    exec (.stage1Entry b) s = .next { s with dev := { s.dev with err := e, detail := n, boot := none } } := by
  show execStage1Entry b s = _
  rw [execStage1Entry_open hp hs he, h]
  rfl

/-- The first record that fails ends stage 0 (R394). -/
theorem Dev.bootErr_of_record {d : Dev} {b : BootResult} {pre post : List SignedRecord} {r : SignedRecord} {e : Nat × Nat}
    (hb : b.records = pre ++ r :: post) (hpre : ∀ x ∈ pre, d.accepts x) (hr : d.recordErr r = some e) : d.bootErr b = some e := by
  have hnone : pre.findSome? d.recordErr = none := List.findSome?_eq_none_iff.mpr fun x hx => Dev.recordErr_eq_none.mpr (hpre x hx)
  have hfirst : b.records.findSome? d.recordErr = some e := by
    rw [hb, List.findSome?_append, hnone, List.findSome?_cons, hr]
    rfl
  rw [Dev.bootErr, hfirst]

theorem Dev.bootErr_of_accepted {d : Dev} {b : BootResult} (h : ∀ x ∈ b.records, d.accepts x) :
    d.bootErr b = b.untrained.map (fun k => (5, k.val)) := by
  have hnone : b.records.findSome? d.recordErr = none := List.findSome?_eq_none_iff.mpr fun x hx => Dev.recordErr_eq_none.mpr (h x hx)
  rw [Dev.bootErr, hnone]

/-- What the one record of a type says. -/
theorem contentOf_unique {b : BootResult} {x : SignedRecord} (hx : x ∈ b.records) (h : ∀ y ∈ b.records, y.kind = x.kind → y = x) :
    contentOf b x.kind = x.content := by
  cases hf : b.records.find? (fun y => y.kind = x.kind) with
  | none => exact absurd (decide_eq_true rfl) (List.find?_eq_none.mp hf x hx)
  | some y =>
    have hy : y = x := h y (List.mem_of_find?_eq_some hf) (by simpa using List.find?_some hf)
    rw [contentOf, hf, hy]
    rfl

theorem smFind_finRange_map {α : Type} {n : Nat} (f : Fin n → α) (k : Fin n) :
    smFind ((List.finRange n).map (fun k => (k.val, f k))) k.val = some (f k) := by
  have key : ∀ l : List (Fin n), k ∈ l → smFind (l.map (fun k => (k.val, f k))) k.val = some (f k) := fun l hl => by
    induction l with
    | nil => cases hl
    | cons j l ih =>
      rw [List.map_cons, smFind]
      split
      · next h => rw [Fin.ext h]
      · next h =>
        exact ih ((List.mem_cons.mp hl).resolve_left fun hk => h (by rw [hk]))
  exact key _ (List.mem_finRange k)

theorem smFind_map_key {α β : Type} (m : List (Nat × α)) (f : Nat → α → β) (i : Nat) :
    smFind (m.map (fun e => (e.1, f e.1 e.2))) i = (smFind m i).map (f i) := by
  induction m with
  | nil => rfl
  | cons e m ih =>
    simp only [List.map_cons, smFind, ih]
    split
    · next h => rw [h]; rfl
    · rfl

/-- Power-good and stage 1 (R389, R393 to R396, R400). -/
theorem powerGoodAndStageOne : Claims.PowerGoodAndStageOne := by
  unfold Claims.PowerGoodAndStageOne
  refine ⟨fun s hoff herr => ⟨?_, ?_⟩, ?_⟩
  · have hkey : (Config.keyRebuilt s.serial s.dev.helper = true ∧ (if Config.keyRebuilt s.serial s.dev.helper = true then 0 else 6) = 0)
        ∨ (Config.keyRebuilt s.serial s.dev.helper = false ∧ (if Config.keyRebuilt s.serial s.dev.helper = true then 0 else 6) = 6) := by
      cases Config.keyRebuilt s.serial s.dev.helper <;> simp
    refine ⟨((s.toStage 0).modDev (fun d => { d with
      t0 := s.time, identity := Config.keyRebuilt s.serial s.dev.helper,
      err := if Config.keyRebuilt s.serial s.dev.helper then 0 else 6 })).tickSerial, ?_, rfl, rfl, rfl, hkey, rfl, rfl, rfl, rfl⟩
    show execPowerGood true s = _
    rw [execPowerGood, if_neg (by simp [hoff, herr]), if_pos rfl]
  · show execPowerGood false s = _
    rw [execPowerGood, if_neg (by simp [hoff, herr])]
    rfl
  · intro s b pre post r hp hs he counter good fails
    have hfail : ∀ {e n : Nat}, s.dev.bootErr b = some (e, n) → fails e n := fun h => execStage1Entry_fails hp hs he h
    refine ⟨fun hb hpre => ⟨fun hsig => ?_, fun hsig hold => ?_, fun hsig hnew hbad => ?_⟩, fun hall => ⟨fun k hk => ?_, fun htrained hkinds => ?_⟩⟩
    · exact hfail (Dev.bootErr_of_record hb hpre (by simp [Dev.recordErr, hsig]))
    · have hold' : r.version < s.dev.counters.getD (r.kind.code - 1) 0 := hold
      refine hfail (Dev.bootErr_of_record hb hpre ?_)
      rw [Dev.recordErr, hsig, if_neg (by decide), if_pos hold']
    · have hnew' : ¬ r.version < s.dev.counters.getD (r.kind.code - 1) 0 := not_lt.mpr hnew
      have hmap : ¬ (r.kind = .unitMap → r.content.length = 4
          ∧ ∀ m ∈ r.content, m < 8192 ∧ ((List.range 13).filter (fun i => m.testBit i)).length = 12) := fun h => hbad ⟨hsig, hnew, h⟩
      have hkind : r.kind = .unitMap := by
        by_contra hk
        exact hmap fun h => absurd h hk
      rw [← Dev.mapOk_iff, Bool.not_eq_false] at hmap
      refine hfail (Dev.bootErr_of_record hb hpre ?_)
      rw [Dev.recordErr, hsig, if_neg (by decide), if_neg hnew', if_pos hmap, hkind]
      rfl
    · refine hfail ?_
      rw [Dev.bootErr_of_accepted hall, hk]
      rfl
    · have hnone : s.dev.bootErr b = none := by rw [Dev.bootErr_of_accepted hall, htrained]; rfl
      have hkinds' : ([RecordKind.unitMap, .trims] ++ (List.finRange 8).map RecordKind.repair).all (fun k => b.records.any (fun x => x.kind = k)) = true :=
        List.all_eq_true.mpr fun k hk => by
          obtain ⟨x, hx, hxk⟩ := hkinds k hk
          exact List.any_eq_true.mpr ⟨x, hx, decide_eq_true hxk⟩
      have hexec : exec (.stage1Entry b) s = if s.dev.safeState = 1 then .next (s.modDev (fun d => { d with boot := some b }))
          else .next (s.enterStage1 b) := by
        show execStage1Entry b s = _
        rw [execStage1Entry_open hp hs he, hnone]
        simp only [hkinds']
        rfl
      refine ⟨fun hsafe => hexec.trans (if_pos hsafe), fun hsafe => ⟨_, hexec.trans (if_neg hsafe), rfl, rfl, rfl, fun x hx hone => ?_, rfl, rfl⟩⟩
      have hcontent := contentOf_unique hx hone
      refine ⟨fun hk => ?_, fun hk => ⟨?_, fun d hd => ?_⟩, fun k hk => ?_⟩
      · rw [hk] at hcontent
        exact hcontent
      · rw [hk] at hcontent
        exact hcontent
      · rw [hk] at hcontent
        obtain ⟨y, hy⟩ := Option.isSome_iff_exists.mp hd
        have hdies : smFind (s.enterStage1 b).dies d = (smFind s.dies d).map (fun x => { x with budget := (contentOf b .trims).getD d 0 }) :=
          smFind_map_key s.dies (fun n (x : Die) => ({ x with budget := (contentOf b .trims).getD n 0 } : Die)) d
        rw [← hcontent, State.die, hdies, hy]
        rfl
      · rw [hk] at hcontent
        rw [← hcontent]
        exact smFind_finRange_map (fun k => contentOf b (.repair k)) k

end Sys2Proof.Machine
end

section
/-! Joining the domain, and the host's registers (R290, R357, R362, R366, R389, R399, R401, R402, R404). -/

namespace Sys2Proof.Machine

/-! Announcing the package's incarnation. -/

/-- Announcing adds to the messages sent, and changes nothing else but the times of use of ports. -/
def State.announces (s t : State) : Prop :=
  s.linkKeeps t ∧ (∀ x ∈ s.link.sentMsgs, x ∈ t.link.sentMsgs) ∧ t.link.noRoute = s.link.noRoute ∧ t.link.inc = s.link.inc ∧ t.link.peers = s.link.peers

theorem State.announces.refl (s : State) : s.announces s := ⟨.refl s, fun _ h => h, rfl, rfl, rfl⟩

theorem State.announces.trans {s t u : State} (h : s.announces t) (h' : t.announces u) : s.announces u := by
  obtain ⟨hk, hm, hr, hi, hp⟩ := h
  obtain ⟨hk', hm', hr', hi', hp'⟩ := h'
  exact ⟨hk.trans hk', fun x hx => hm' x (hm x hx), hr'.trans hr, hi'.trans hi, hp'.trans hp⟩

theorem State.announces.foldl {α : Type} {f : State → α → State} (hf : ∀ (s : State) x, s.announces (f s x)) (l : List α) (s : State) :
    s.announces (l.foldl f s) := by
  induction l generalizing s with
  | nil => exact .refl s
  | cons x l ih => exact (hf s x).trans (ih _)

theorem State.announces_noticeOn (s : State) (k d : Nat) (m : MsgKind) : s.announces (s.noticeOn k d m) := by
  let t := s.modPort k (fun p => { p with lastUse := s.time, low := false })
  have huse : s.linkKeeps t := State.linkKeeps_modPort fun _ => rfl
  have hsend : t.linkKeeps (t.modLink (fun l => { l with sentMsgs := (k, m, s.msg d 0 0) :: l.sentMsgs })) := State.linkKeeps_modLink rfl
  exact ⟨huse.trans hsend, fun x hx => List.mem_cons_of_mem _ hx, rfl, rfl, rfl⟩

theorem State.announces_announce (s : State) (p d : Nat) : s.announces (s.announce p d) := by
  unfold State.announce
  split
  · exact .refl s
  · exact s.announces_noticeOn _ _ _

theorem State.announces.dev {s t : State} (h : s.announces t) : t.dev = s.dev := by
  obtain ⟨⟨⟨l, rfl⟩, -⟩, -⟩ := h
  rfl

theorem State.announces.planeCount {s t : State} (h : s.announces t) : t.planeCount = s.planeCount := by
  rw [State.planeCount, h.dev]
  rfl

/-- Announcing leaves every port as usable as it was. -/
theorem State.announces.portUsable {s t : State} (h : s.announces t) (d k : Nat) : t.portUsable d k = s.portUsable d k := by
  obtain ⟨⟨-, hst⟩, -, hroute, -, -⟩ := id h
  rw [State.portUsable, hst, hroute, h.planeCount]
  rfl

/-- A package is told on each plane that has a usable port for it (R404). -/
theorem State.announce_tells {s : State} {p d k : Nat} (hk : k < 32) (hp : k % s.planeCount = p) (hu : s.portUsable d k = true) :
    ∃ j x, (j, .incann, x) ∈ (s.announce p d).link.sentMsgs ∧ j % s.planeCount = p ∧ s.portUsable d j = true ∧ x.dstPkg = d
      ∧ x.srcInc = s.link.inc ∧ x.srcPkg = s.dev.pkgid := by
  unfold State.announce
  split
  · next hnone =>
    have := List.find?_eq_none.mp hnone k (List.mem_map.mpr ⟨(k + 32 - d % 32) % 32, List.mem_range.mpr (Nat.mod_lt _ (by decide)), by omega⟩)
    simp [hp, hu] at this
  · next j hj =>
    have := List.find?_some hj
    simp only [Bool.and_eq_true, decide_eq_true_eq] at this
    exact ⟨j, s.msg d 0 0, List.mem_cons_self, this.1, this.2, rfl, rfl, rfl⟩

/-- Announcing to a list of packages on a plane. -/
def State.announceAll (s : State) (ds : List Nat) (p : Nat) : State := ds.foldl (fun s d => s.announce p d) s

theorem State.announces_announceAll (s : State) (ds : List Nat) (p : Nat) : s.announces (s.announceAll ds p) :=
  .foldl (fun s d => s.announces_announce p d) ds s

/-- That a package has been told on a plane with a port that was usable for it in `s`. -/
def State.told (s t : State) (p d : Nat) : Prop :=
  ∃ j x, (j, .incann, x) ∈ t.link.sentMsgs ∧ j % s.planeCount = p ∧ s.portUsable d j = true ∧ x.dstPkg = d
    ∧ x.srcInc = s.link.inc ∧ x.srcPkg = s.dev.pkgid

theorem State.told.later {s t u : State} {p d : Nat} (h : s.told t p d) (hu : t.announces u) : s.told u p d := by
  obtain ⟨j, x, hmem, hrest⟩ := h
  exact ⟨j, x, hu.2.1 _ hmem, hrest⟩

theorem State.told.earlier {s t u : State} {p d : Nat} (h : s.announces t) (hu : t.told u p d) : s.told u p d := by
  obtain ⟨j, x, hmem, hp, hport, hd, hi, hpk⟩ := hu
  exact ⟨j, x, hmem, by rw [← h.planeCount]; exact hp, by rw [← h.portUsable]; exact hport, hd, hi.trans h.2.2.2.1, hpk.trans (by rw [h.dev])⟩

/-- Each element of a list is told in a fold of announcements that tells its own. -/
theorem State.told_foldl {α : Type} {f : State → α → State} (hf : ∀ (s : State) x, s.announces (f s x)) {p d : Nat} {a : α}
    (ha : ∀ s : State, (∃ k < 32, k % s.planeCount = p ∧ s.portUsable d k = true) → s.told (f s a) p d) :
    ∀ (l : List α) (s : State), a ∈ l → (∃ k < 32, k % s.planeCount = p ∧ s.portUsable d k = true) → s.told (l.foldl f s) p d := by
  intro l
  induction l with
  | nil => exact fun s h => absurd h List.not_mem_nil
  | cons x l ih =>
    intro s hmem hport
    rcases List.mem_cons.mp hmem with rfl | hmem
    · exact (ha s hport).later (.foldl hf l _)
    · refine State.told.earlier (hf s x) (ih (f s x) hmem ?_)
      obtain ⟨k, hk, hp, hu⟩ := hport
      exact ⟨k, hk, by rw [(hf s x).planeCount]; exact hp, by rw [(hf s x).portUsable]; exact hu⟩

theorem planesUp_iff (s : State) :
    s.planesUp = true ↔ ∀ p < s.planeCount, ∃ k < 32, k % s.planeCount = p ∧ (s.port k).st.usable = true := by
  simp only [State.planesUp, State.planeList, List.all_eq_true, List.mem_range, Bool.not_eq_true', List.isEmpty_eq_false_iff_exists_mem,
    State.planePorts, List.mem_filter, Bool.and_eq_true, decide_eq_true_eq]
  refine forall₂_congr fun p _ => exists_congr fun k => and_congr_right fun _ => And.comm

/-- JOIN (R404). -/
theorem joiningTheDomain : Claims.JoiningTheDomain := by
  unfold Claims.JoiningTheDomain
  refine ⟨fun s v hw hw0 hgo hpl => ?_, fun s v hno => ?_, fun s => ⟨fun hch => ?_, fun k was hch => ?_⟩, fun s hstage hgo => ⟨fun hdark => ?_, fun hup => ?_⟩⟩
  · have hopen : ¬ ((decide (s.writeStage.getD 0 = 0) || s.dev.go || decide (6 ≤ fld v.toNat 16 3)) = true) := by
      cases hs : s.writeStage with
      | none => exact absurd hs hw
      | some n =>
        have hn : n ≠ 0 := fun h => hw0 (by rw [hs, h])
        simp [hn, hgo]
        omega
    have hexec : exec (.joinWrite v) s = .next (if v.toNat.testBit 31 then
        (s.modDev (fun d => { d with pkgid := fld v.toNat 0 9, planes := fld v.toNat 16 3, go := v.toNat.testBit 31 })).modLink
          (fun l => { l with inc := (l.inc + 1) % 2 ^ 32 })
        else s.modDev (fun d => { d with pkgid := fld v.toNat 0 9, planes := fld v.toNat 16 3, go := v.toNat.testBit 31 })) := if_neg hopen
    refine ⟨_, hexec, ?_⟩
    cases v.toNat.testBit 31 <;> exact ⟨rfl, rfl, rfl, rfl⟩
  · refine if_pos ?_
    rcases hno with h | h | h | h <;> simp [h]
  · rw [State.writeStage, hch]
  · rw [State.writeStage, hch]
  · obtain ⟨p, hp, hnone⟩ := hdark
    have hdown : s.planesUp = false := by
      rw [Bool.eq_false_iff]
      intro h
      obtain ⟨k, hk, hkp, hu⟩ := (planesUp_iff s).mp h p hp
      rw [hnone k hk hkp] at hu
      cases hu
    show execJoinComplete s = _
    rw [execJoinComplete, if_pos (by simp [hdown])]
  · have hplanes : s.planesUp = true := (planesUp_iff s).mpr hup
    let others := (List.range 512).filter (fun d => d ≠ s.dev.pkgid)
    let t := s.planeList.foldl (fun s p => s.announceAll others p) s
    have ht : s.announces t := .foldl (fun s p => s.announces_announceAll others p) _ s
    refine ⟨t.toStage 2, ?_, ?_, fun d hd hne k hk hu => ?_, ht.2.2.2.2, ht.1.mem⟩
    · show execJoinComplete s = _
      rw [execJoinComplete, if_neg (by simp [hplanes, hstage, hgo])]
      rfl
    · obtain ⟨⟨⟨l, hl⟩, -⟩, -⟩ := ht
      rw [hl]
      rfl
    · have htold : s.told t (k % s.planeCount) d := by
        refine State.told_foldl (a := k % s.planeCount) (fun s p => s.announces_announceAll others p) (fun s hport => ?_) _ s
          (List.mem_range.mpr (Nat.mod_lt _ (Nat.two_pow_pos _))) ⟨k, hk, rfl, hu⟩
        refine State.told_foldl (a := d) (fun s d => s.announces_announce _ d) (fun s hport => ?_) _ s
          (List.mem_filter.mpr ⟨List.mem_range.mpr hd, decide_eq_true hne⟩) hport
        obtain ⟨k, hk, hp, hu⟩ := hport
        exact State.announce_tells hk hp hu
      exact htold

/-! Registers. -/

theorem State.die_modDie_other (s : State) {d e : Nat} (f : Die → Die) (h : e ≠ d) : (s.modDie d f).die e = s.die e := by
  simp [State.die, smFind_smMod, h]

theorem State.group_modGroup_same {s : State} {g : Nat} (f : Group → Group) (h : (smFind s.groups g).isSome = true) :
    (s.modGroup g f).group g = f (s.group g) := by
  obtain ⟨x, hx⟩ := Option.isSome_iff_exists.mp h
  simp [State.group, smFind_smMod, hx]

theorem State.group_modGroup_other (s : State) {g h : Nat} (f : Group → Group) (hne : h ≠ g) : (s.modGroup g f).group h = s.group h := by
  simp [State.group, smFind_smMod, hne]

theorem State.peer_modPeer_same (s : State) (p : Nat) (f : Peer → Peer) : (s.modPeer p f).peer p = f (s.peer p) :=
  congrArg (fun x => Option.getD x default) (smFind_smPut_same _ _ _)

theorem State.peer_modPeer_other (s : State) {p q : Nat} (f : Peer → Peer) (h : q ≠ p) : (s.modPeer p f).peer q = s.peer q :=
  congrArg (fun x => Option.getD x default) (smFind_smPut_other _ _ _ _ h)

/-- A port that enters a state leaves the states of the others (R357). -/
theorem State.setPort_frame (s : State) (k : Nat) (st : PortSt) :
    ((s.setPort k st).port k).st = st ∧ (∀ j, j ≠ k → ((s.setPort k st).port j).st = (s.port j).st) ∧ ∃ l, s.setPort k st = { s with link := l } := by
  let t := s.modPort k (fun p => { p with st := st, since := s.time, lastUse := s.time, low := false })
  have hkeep : t.linkKeeps (s.setPort k st) := (State.linkKeeps.foldl State.linkKeeps_recover _ t).trans (State.linkKeeps_flushLink _)
  refine ⟨(s.setPort_enters k st).1, fun j hj => ?_, ?_⟩
  · rw [hkeep.2 j, State.port_modPort_other _ _ hj]
  · obtain ⟨l, hl⟩ := hkeep.1
    exact ⟨l, hl⟩

/-- The state that a bit of PORTEN gives a port (R357). -/
def PortSt.enabledBy (b : Bool) (st : PortSt) : PortSt := if b then (if st = .disabled then .training else st) else .disabled

theorem State.enablePort_frame (v : Nat) (s : State) (k : Nat) :
    ((s.enablePort v k).port k).st = (s.port k).st.enabledBy (v.testBit k)
      ∧ (∀ j, j ≠ k → ((s.enablePort v k).port j).st = (s.port j).st) ∧ ∃ l, s.enablePort v k = { s with link := l } := by
  unfold State.enablePort PortSt.enabledBy
  extract_lets st
  split
  · split
    · exact s.setPort_frame k .training
    · exact ⟨rfl, fun _ _ => rfl, s.link, rfl⟩
  · split
    · next h => exact ⟨h, fun _ _ => rfl, s.link, rfl⟩
    · exact s.setPort_frame k .disabled

/-- PORTEN gives each port of a list the state that its bit gives it (R357). -/
theorem State.enablePorts_frame (v : Nat) {l : List Nat} (hl : l.Nodup) (s : State) :
    (∀ k ∈ l, ((l.foldl (State.enablePort v) s).port k).st = (s.port k).st.enabledBy (v.testBit k))
      ∧ (∀ j, j ∉ l → ((l.foldl (State.enablePort v) s).port j).st = (s.port j).st)
      ∧ ∃ x, l.foldl (State.enablePort v) s = { s with link := x } := by
  induction l generalizing s with
  | nil => exact ⟨fun _ h => absurd h List.not_mem_nil, fun _ _ => rfl, s.link, rfl⟩
  | cons k l ih =>
    obtain ⟨hk, hl⟩ := List.nodup_cons.mp hl
    obtain ⟨hown, hother, x, hx⟩ := s.enablePort_frame v k
    obtain ⟨hin, hout, y, hy⟩ := ih hl (s.enablePort v k)
    refine ⟨fun j hj => ?_, fun j hj => ?_, y, by rw [List.foldl_cons, hy, hx]⟩
    · by_cases hjk : j = k
      · rw [hjk, List.foldl_cons, hout k hk, hown]
      · rw [List.foldl_cons, hin j ((List.mem_cons.mp hj).resolve_left hjk), hother j hjk]
    · rw [List.foldl_cons, hout j (fun h => hj (List.mem_cons_of_mem _ h)), hother j (fun h => hj (h ▸ List.mem_cons_self))]

theorem execPortenWrite_eq {s : State} (v : Dword) (hw : s.writeStage ≠ none) :
    exec (.portenWrite v) s = .next ((List.range 32).foldl (State.enablePort (v.toNat % 2 ^ 32))
      (s.modDev (fun d => { d with porten := v.toNat % 2 ^ 32 }))) := if_neg hw

theorem portenTakesEffect (s : State) (v : Dword) (k : Nat) (hw : s.writeStage ≠ none) (hk : k < 32) :
    ∃ t, exec (.portenWrite v) s = .next t ∧ t.dev.porten = v.toNat % 2 ^ 32
      ∧ (v.toNat.testBit k = true → (s.port k).st = .disabled → (t.port k).st = .training)
      ∧ (v.toNat.testBit k = true → (s.port k).st ≠ .disabled → (t.port k).st = (s.port k).st)
      ∧ (v.toNat.testBit k = false → (t.port k).st = .disabled) ∧ t.mem = s.mem ∧ t.gangs = s.gangs := by
  obtain ⟨hin, -, x, hx⟩ := State.enablePorts_frame (v.toNat % 2 ^ 32) List.nodup_range (s.modDev (fun d => { d with porten := v.toNat % 2 ^ 32 }))
  have hst := hin k (List.mem_range.mpr hk)
  have hbit : (v.toNat % 2 ^ 32).testBit k = v.toNat.testBit k := by
    rw [Nat.testBit_mod_two_pow]
    simp [hk]
  have hport : (s.modDev (fun d => { d with porten := v.toNat % 2 ^ 32 })).port k = s.port k := rfl
  rw [hbit, hport] at hst
  refine ⟨_, execPortenWrite_eq v hw, by rw [hx]; rfl, fun hb hd => ?_, fun hb hd => ?_, fun hb => ?_, by rw [hx]; rfl, by rw [hx]; rfl⟩
  · rw [hst, hb, PortSt.enabledBy, if_pos rfl, if_pos hd]
  · rw [hst, hb, PortSt.enabledBy, if_pos rfl, if_neg hd]
  · rw [hst, hb]
    rfl

/-- A queue's window of BAR2 (R290, R399). -/
theorem bar2Window_queue {c q o : Nat} (hc : c < 64) (hq : q < 64) (ho : o < 0x100) :
    bar2Window (0x100000 + 0x4000 * c + 0x100 * q + o) = some (.queue c q o) := by
  have hlow : ¬ 0x100000 + 0x4000 * c + 0x100 * q + o < 0x40 := by omega
  have hlow' : ¬ 0x100000 + 0x4000 * c + 0x100 * q + o < 0x80 := by omega
  have hin : (decide (0x100000 ≤ 0x100000 + 0x4000 * c + 0x100 * q + o) && decide (0x100000 + 0x4000 * c + 0x100 * q + o < 0x200000)) = true := by
    simp only [Bool.and_eq_true, decide_eq_true_eq]
    omega
  rw [bar2Window, if_neg hlow, if_neg hlow', if_pos hin]
  have h1 : (0x100000 + 0x4000 * c + 0x100 * q + o - 0x100000) / 0x4000 = c := by omega
  have h2 : (0x100000 + 0x4000 * c + 0x100 * q + o - 0x100000) % 0x4000 / 0x100 = q := by omega
  have h3 : (0x100000 + 0x4000 * c + 0x100 * q + o - 0x100000) % 0x100 = o := by omega
  simp only [h1, h2, h3]

theorem bar0Reads (s : State) (off : Nat) (h8 : off % 8 = 0) (hlt : s.bar0 off < 2 ^ 64) :
    s.bar0Read off 8 = s.bar0 off ∧ s.bar0Read off 4 = s.bar0 off % 2 ^ 32 ∧ s.bar0Read (off + 4) 4 = s.bar0 off / 2 ^ 32 := by
  refine ⟨?_, ?_, ?_⟩
  · simp [State.bar0Read, h8]
  · have h4 : off % 4 = 0 := by omega
    simp [State.bar0Read, h8, h4, fld]
  · have h4 : (off + 4) % 4 = 0 := by omega
    have h84 : (off + 4) % 8 = 4 := by omega
    have hdiv : s.bar0 off / 2 ^ 32 < 2 ^ 32 := Nat.div_lt_of_lt_mul (by omega)
    simp only [State.bar0Read, h4, h84, Nat.add_sub_cancel, fld]
    simpa using hdiv

theorem bar0Words (s : State) : s.bar0 0x00 = s.dev.detail * 2 ^ 32 + s.dev.err * 2 ^ 24 + s.dev.stage ∧ s.bar0 0x10 = Config.featAvail % 2 ^ 64
    ∧ s.bar0 0x20 = s.dev.feat % 2 ^ 64 ∧ s.bar0 0x28 = s.dev.feat / 2 ^ 64 ∧ s.bar0 0x38 = s.dev.porten ∧ s.bar0 0x40 = s.dev.expbase
    ∧ s.bar0 0x48 = s.dev.expcnt ∧ ∀ d < 4, s.bar0 (0x100 + 8 * d) = (s.die d).budget := by
  refine ⟨rfl, rfl, rfl, rfl, rfl, rfl, rfl, fun d hd => ?_⟩
  interval_cases d <;> rfl

theorem hostWrites (fn c q o : Nat) (x : Dword) (ds : List Dword) (hc : c < 64) (hq : q < 64) (ho : o < 0x100) :
    let at_ := 0x100000 + 0x4000 * c + 0x100 * q + o
    let k := x.toNat % 256
    (o < 0x80 → hostWrite fn at_ ds = some (.hostSubmission fn c q o (8 * ds.length) ds))
      ∧ (o = 0x80 → (k = 1 → hostWrite fn at_ [x] = some (.queueEnable fn c q)) ∧ (k = 2 → hostWrite fn at_ [x] = some (.queueDrain fn c q))
        ∧ (k = 3 → hostWrite fn at_ [x] = some (.queueHalt fn c q)) ∧ (k = 4 → hostWrite fn at_ [x] = some (.queueResume fn c q))
        ∧ (k = 5 → hostWrite fn at_ [x] = some (.queueDisable fn c q))
        ∧ (k = 6 → hostWrite fn at_ [x] = some (.queueResumeParked fn c q (x.toNat / 2 ^ 16 % 16)))
        ∧ (k = 7 → hostWrite fn at_ [x] = some (.queueKillParked fn c q (x.toNat / 2 ^ 16 % 16))))
      ∧ (0x80 < o → hostWrite fn at_ [x] = some (.registerWrite (.bar2 fn at_) 8 x)) := by
  intro at_ k
  have hwin : bar2Window at_ = some (.queue c q o) := bar2Window_queue hc hq ho
  refine ⟨fun hlow => ?_, fun heq => ?_, fun hhigh => ?_⟩
  · simp [hostWrite, hwin, hlow]
  · subst heq
    have hcmd : hostWrite fn at_ [x] = some (match x.toNat % 256 with
        | 1 => .queueEnable fn c q | 2 => .queueDrain fn c q | 3 => .queueHalt fn c q | 4 => .queueResume fn c q
        | 5 => .queueDisable fn c q | 6 => .queueResumeParked fn c q (x.toNat / 2 ^ 16 % 16) | 7 => .queueKillParked fn c q (x.toNat / 2 ^ 16 % 16)
        | _ => .registerWrite (.bar2 fn at_) 8 x) := by
      rw [hostWrite, hwin]
      rfl
    refine ⟨fun h => ?_, fun h => ?_, fun h => ?_, fun h => ?_, fun h => ?_, fun h => ?_, fun h => ?_⟩ <;> exact hcmd.trans (by simp only [show x.toNat % 256 = _ from h])
  · have h1 : ¬ o < 0x80 := by omega
    have h2 : o ≠ 0x80 := by omega
    simp [hostWrite, hwin, h1, h2]

theorem diecapStores (s : State) (d : Nat) (v : Dword) (hw : s.writeStage ≠ none) (hd : (smFind s.dies d).isSome = true) :
    ∃ t, exec (.diecapWrite d v) s = .next t ∧ t.die d = { s.die d with budget := min (v.toNat % 2 ^ 32) (s.dev.records.getD d 0) }
      ∧ (∀ e, e ≠ d → t.die e = s.die e) ∧ t.mem = s.mem ∧ t.gangs = s.gangs := by
  let f := fun k : Die => { k with budget := min (v.toNat % 2 ^ 32) (s.dev.records.getD d 0) }
  exact ⟨s.modDie d f, if_neg hw, State.die_modDie_same f hd, fun e he => s.die_modDie_other f he, rfl, rfl⟩

theorem staleClears (s : State) (p : Nat) (v : Dword) (hv : fld v.toNat 16 16 ≠ 0) (hp : (smFind s.link.peers p).isSome = true) :
    ∃ t, exec (.peerstatStaleClear p v) s = .next t ∧ t.peer p = { s.peer p with stale := 0 } ∧ (∀ q, q ≠ p → t.peer q = s.peer q) ∧ t.mem = s.mem := by
  let f := fun x : Peer => { x with stale := 0 }
  refine ⟨s.modPeer p f, ?_, s.peer_modPeer_same p f, fun q hq => s.peer_modPeer_other f hq, rfl⟩
  show execPeerstatStaleClear p v s = _
  rw [execPeerstatStaleClear, if_neg]
  simp [hv, Option.isSome_iff_ne_none.mp hp]

/-! A queue's registers (R290, R294, R297). -/

/-- Giving a class to groups and their gangs changes the group and gang tables only. -/
theorem foldl_modGang_eq (l : List Nat) (f : Gang → Gang) (s : State) :
    ∃ gs, l.foldl (fun s u => s.modGang u f) s = { s with gangs := gs } := by
  induction l generalizing s with
  | nil => exact ⟨s.gangs, rfl⟩
  | cons u l ih => exact ih (s.modGang u f)

/-- A group's class, and that of what its snapshot holds of its gangs. -/
def Group.withCls (cls : Nat) (x : Group) : Group := { x with
  cls := cls
  snap := x.snap.map (fun n => { n with gangs := n.gangs.map (fun e => (e.1, { e.2 with cls := cls })) }) }

/-- One group and its launch gangs take a class (R297). -/
def State.reclassGroup (s : State) (cls g : Nat) : State :=
  (s.group g).launchGangs.foldl (fun s u => s.modGang u (fun x => { x with cls := cls })) (s.modGroup g (Group.withCls cls))

theorem State.reclassGroup_eq (s : State) (cls g : Nat) :
    ∃ gs, s.reclassGroup cls g = { s.modGroup g (Group.withCls cls) with gangs := gs } :=
  foldl_modGang_eq _ _ _

theorem State.isSome_reclassGroup (s : State) (cls g : Nat) {h : Nat} (hh : (smFind s.groups h).isSome = true) :
    (smFind (s.reclassGroup cls g).groups h).isSome = true := by
  obtain ⟨gs, hgs⟩ := s.reclassGroup_eq cls g
  rw [hgs]
  exact isSome_smMod g (Group.withCls cls) hh

theorem State.cls_reclassGroup (s : State) (cls g h : Nat) (hh : (smFind s.groups h).isSome = true) :
    ((s.reclassGroup cls g).group h).cls = if h = g then cls else (s.group h).cls := by
  obtain ⟨gs, hgs⟩ := s.reclassGroup_eq cls g
  rw [hgs]
  by_cases hg : h = g
  · subst hg
    rw [if_pos rfl]
    exact congrArg Group.cls (State.group_modGroup_same (Group.withCls cls) hh)
  · rw [if_neg hg]
    exact congrArg Group.cls (s.group_modGroup_other (Group.withCls cls) hg)

/-- Groups of a list take a class, and the queues keep theirs (R297). -/
theorem State.reclassGroups (cls : Nat) (l : List Nat) (s : State) :
    (l.foldl (fun s g => s.reclassGroup cls g) s).ctxs = s.ctxs
      ∧ ∀ h, (smFind s.groups h).isSome = true → (h ∈ l ∨ (s.group h).cls = cls) → ((l.foldl (fun s g => s.reclassGroup cls g) s).group h).cls = cls := by
  induction l generalizing s with
  | nil => exact ⟨rfl, fun h _ hc => hc.resolve_left List.not_mem_nil⟩
  | cons g l ih =>
    obtain ⟨hctx, hcls⟩ := ih (s.reclassGroup cls g)
    obtain ⟨gs, hgs⟩ := s.reclassGroup_eq cls g
    refine ⟨by rw [List.foldl_cons, hctx, hgs]; rfl, fun h hh hc => hcls h (s.isSome_reclassGroup cls g hh) ?_⟩
    rw [s.cls_reclassGroup cls g h hh]
    by_cases hg : h = g
    · simp [hg]
    · simpa [hg] using hc

/-- What a value written to the register at offset `o` of a queue's window does (R290, R294). -/
def State.storeQueueReg (s : State) (c q o v : Nat) : State :=
  match o with
  | 0x80 => if v % 256 = 0 || 8 ≤ v % 256 then s.modQueue c q (fun x => { x with cmderr := 1 }) else s
  | 0x90 => (s.modQueue c q (fun x => { x with cls := v % 8 })).reclass c q (v % 8)
  | 0x98 => if (s.queue c q).st = .disabled && v % 8192 = 0 then s.modQueue c q (fun x => { x with qbuf := v }) else s
  | 0xA0 => if (s.queue c q).st = .disabled && v % 1024 = 0 then s.modQueue c q (fun x => { x with faultbase := v }) else s
  | _ => s

theorem State.storeReg_queue {s : State} {fn c q o : Nat} (hown : s.queueOwned fn c q = true) (ho : o < 0x100) (v : Nat) :
    s.storeReg (.bar2 fn (0x100000 + 0x4000 * c + 0x100 * q + o)) v = s.storeQueueReg c q o v := by
  have hkeep := hown
  rw [State.queueOwned] at hkeep
  simp only [Bool.and_eq_true, decide_eq_true_eq] at hkeep
  obtain ⟨⟨⟨hc, -⟩, -⟩, hq⟩ := hkeep
  rw [State.storeReg, bar2Window_queue hc hq ho]
  exact if_neg (by simp [hown])

/-- The last case of a queue's registers: a write that changes its queue and nothing else. -/
theorem queueTakes {s : State} {c q : Nat} (f : Queue → Queue) (hctx : (smFind s.ctxs c).isSome = true) :
    (s.modQueue c q f).queue c q = f (s.queue c q) ∧ (s.modQueue c q f).mem = s.mem ∧ (s.modQueue c q f).gangs = s.gangs :=
  ⟨State.queue_modQueue_same f hctx, rfl, rfl⟩

theorem State.hasCtx_of_owned {s : State} {fn c q : Nat} (h : s.queueOwned fn c q = true) : (smFind s.ctxs c).isSome = true := by
  rw [State.queueOwned] at h
  simp only [Bool.and_eq_true, decide_eq_true_eq] at h
  obtain ⟨⟨-, hst⟩, -⟩ := h
  exact State.hasCtx_of_ne fun hd => hst (by rw [hd]; rfl)

/-- The groups that take a queue's class with it: those whose state began in this cycle (R297). -/
def State.reclassed (s : State) (c q : Nat) : List Nat :=
  (s.groups.filter (fun e => e.2.ctx = c && e.2.q = q && (e.2.st = .resident || e.2.st = .draining || e.2.st = .parked) && e.2.since = s.hubCycle)).map (·.1)

theorem State.reclass_eq (s : State) (c q cls : Nat) : s.reclass c q cls = (s.reclassed c q).foldl (fun s g => s.reclassGroup cls g) s := rfl

theorem expbaseTakes (s : State) (v : Dword) (hw : s.writeStage ≠ none) (hv : v.toNat % 4096 = 0) :
    exec (.registerWrite (.bar0 0x40) 8 v) s = .next { s with dev := { s.dev with expbase := v.toNat } } := by
  show execRegisterWrite _ _ _ s = _
  rw [execRegisterWrite, if_neg (by simp [hw])]
  exact congrArg Host.Outcome.next (if_pos hv)

theorem queueRegisterWrite {s : State} {fn c q o : Nat} {v : Dword} (hw : s.writeStage ≠ none) (t : State)
    (h : s.storeReg (.bar2 fn (0x100000 + 0x4000 * c + 0x100 * q + o)) v.toNat = t) :
    exec (.registerWrite (.bar2 fn (0x100000 + 0x4000 * c + 0x100 * q + o)) 8 v) s = .next t := by
  show execRegisterWrite _ _ _ s = _
  rw [execRegisterWrite, if_neg (by simp [hw]), h]

theorem queueRegistersTake (s : State) (v : Dword) (hw : s.writeStage ≠ none) (fn c q : Nat) (hown : s.queueOwned fn c q = true) :
    let x := s.queue c q
    let reg := fun (off : Nat) => RegAddr.bar2 fn (0x100000 + 0x4000 * c + 0x100 * q + off)
    let takes := fun (off : Nat) (y : Queue) => ∃ t, exec (.registerWrite (reg off) 8 v) s = .next t ∧ t.queue c q = y
      ∧ t.mem = s.mem ∧ t.gangs = s.gangs
    ((∀ e ∈ s.groups, e.2.ctx = c → e.2.q = q → e.2.since ≠ s.hubCycle) → takes 0x90 { x with cls := v.toNat % 8 })
      ∧ (∃ t, exec (.registerWrite (reg 0x90) 8 v) s = .next t ∧ (t.queue c q).cls = v.toNat % 8
        ∧ ∀ g, (s.group g).ctx = c → (s.group g).q = q → (s.group g).st = .resident → (s.group g).since = s.hubCycle →
          (smFind s.groups g).isSome = true → (t.group g).cls = v.toNat % 8)
      ∧ ((v.toNat % 256 = 0 ∨ 8 ≤ v.toNat % 256) → takes 0x80 { x with cmderr := 1 })
      ∧ (x.st = .disabled → v.toNat % 8192 = 0 → takes 0x98 { x with qbuf := v.toNat })
      ∧ (x.st = .disabled → v.toNat % 1024 = 0 → takes 0xA0 { x with faultbase := v.toNat })
      ∧ (x.st ≠ .disabled → takes 0x98 x ∧ takes 0xA0 x) := by
  intro x reg takes
  have hctx := State.hasCtx_of_owned hown
  have hwrite : ∀ {o : Nat} (f : Queue → Queue), s.storeReg (reg o) v.toNat = s.modQueue c q f → takes o (f x) := fun f h =>
    ⟨_, queueRegisterWrite hw _ h, queueTakes f hctx⟩
  have hidle : ∀ {o : Nat}, s.storeReg (reg o) v.toNat = s → takes o x := fun h => ⟨s, queueRegisterWrite hw _ h, rfl, rfl, rfl⟩
  let f := fun y : Queue => { y with cls := v.toNat % 8 }
  let m := s.modQueue c q f
  have hcls : s.storeReg (reg 0x90) v.toNat = (m.reclassed c q).foldl (fun s g => s.reclassGroup (v.toNat % 8) g) m :=
    State.storeReg_queue hown (by decide) _
  refine ⟨fun hnone => hwrite f ?_, ?_, fun hv => ?_, fun hst hv => ?_, fun hst hv => ?_, fun hst => ⟨hidle ?_, hidle ?_⟩⟩
  · have hempty : m.reclassed c q = [] := by
      rw [State.reclassed, List.map_eq_nil_iff, List.filter_eq_nil_iff]
      intro e he
      have := hnone e he
      simp only [Bool.and_eq_true, decide_eq_true_eq, not_and]
      exact fun ⟨⟨hc, hq⟩, _⟩ => this hc hq
    rw [hcls, hempty]
    rfl
  · obtain ⟨hctxs, hgroups⟩ := State.reclassGroups (v.toNat % 8) (m.reclassed c q) m
    refine ⟨_, queueRegisterWrite hw _ hcls, ?_, fun g hc hq hst hnow hg => hgroups g hg (.inl ?_)⟩
    · rw [State.queue, State.ctx, hctxs]
      exact congrArg Queue.cls (State.queue_modQueue_same f hctx)
    · obtain ⟨y, hy⟩ := Option.isSome_iff_exists.mp hg
      have hgy : s.group g = y := by rw [State.group, hy]; rfl
      rw [hgy] at hc hq hst hnow
      refine List.mem_map.mpr ⟨(g, y), List.mem_filter.mpr ⟨mem_of_smFind hy, ?_⟩, rfl⟩
      simpa [hc, hq, hst] using (show y.since = m.hubCycle from hnow)
  · refine hwrite (fun y => { y with cmderr := 1 }) ((State.storeReg_queue hown (by decide) _).trans (if_pos ?_))
    simpa using hv
  · refine hwrite (fun y => { y with qbuf := v.toNat }) ((State.storeReg_queue hown (by decide) _).trans (if_pos ?_))
    simp [hv, show (s.queue c q).st = .disabled from hst]
  · refine hwrite (fun y => { y with faultbase := v.toNat }) ((State.storeReg_queue hown (by decide) _).trans (if_pos ?_))
    simp [hv, show (s.queue c q).st = .disabled from hst]
  · refine (State.storeReg_queue hown (by decide) _).trans (if_neg ?_)
    simp [show ¬ (s.queue c q).st = .disabled from hst]
  · refine (State.storeReg_queue hown (by decide) _).trans (if_neg ?_)
    simp [show ¬ (s.queue c q).st = .disabled from hst]

/-- SPDM (R394, R401). -/
theorem spdmAnswers (s : State) (r : SpdmReq) (hp : s.dev.powered = true) :
    let answers := fun (a : Option SpdmAns) => ∃ t, exec (.spdmRequest r) s = .next t ∧ t.spdm = (r, a) :: s.spdm ∧ t.dev = s.dev ∧ t.mem = s.mem
      ∧ t.gangs = s.gangs
    (s.dev.identity = false → answers none)
      ∧ (s.dev.identity = true → (r = .getMeasurements 6 → answers (some (.block s.dev.feat))) ∧ (r = .getVersion → answers (some (.version 1 3)))
        ∧ (r = .negotiateAlgorithms → answers (some (.algorithms [.ed448, .shake256])))) := by
  intro answers
  have hans : ∀ a, s.attest r = a → answers a := by
    rintro a rfl
    refine ⟨({ s with spdm := (r, s.attest r) :: s.spdm } : State).tickSerial, ?_, rfl, rfl, rfl, rfl⟩
    show execSpdmRequest r s = _
    rw [execSpdmRequest, if_neg (by simp [hp])]
  refine ⟨fun hid => hans _ (if_pos (by simp [hid])), fun hid => ?_⟩
  refine ⟨fun hr => hans _ ?_, fun hr => hans _ ?_, fun hr => hans _ ?_⟩ <;> rw [hr, State.attest, if_neg (by simp [hid])]

theorem registersTakeTheirWrites : Claims.RegistersTakeTheirWrites := by
  unfold Claims.RegistersTakeTheirWrites
  refine ⟨portenTakesEffect, diecapStores, staleClears, fun s v hw => ⟨expbaseTakes s v hw, queueRegistersTake s v hw⟩, fun s r n v hn => ?_,
    spdmAnswers, bar0Reads, bar0Words, hostWrites⟩
  show execRegisterWrite r n v s = _
  rw [execRegisterWrite, if_pos (by simp [hn])]

/-- Settles O59: powering up, joining the domain, and what a write of each register does. -/
theorem startUpEvents : Obligations.StartUpEvents := by
  unfold Obligations.StartUpEvents
  exact ⟨powerGoodAndStageOne, joiningTheDomain, registersTakeTheirWrites⟩

end Sys2Proof.Machine
end

section
/-! Hold bounds and the baton messages (R194, R353, R354, R360, R364 to R366, R368). -/

namespace Sys2Proof.Machine

/-- `t` is `s` after sending: requests, the states of peers and ports, and what has been sent may differ. -/
def State.sends (s t : State) : Prop :=
  ∃ n reqs peers ports sr sm, t = { s with
    nextId := n, link := { s.link with reqs := reqs, peers := peers, ports := ports, sentReqs := sr, sentMsgs := sm } }

theorem State.sends.refl (s : State) : s.sends s := ⟨_, _, _, _, _, _, rfl⟩

theorem State.sends.trans {s t u : State} (h : s.sends t) (h' : t.sends u) : s.sends u := by
  obtain ⟨_, _, _, _, _, _, rfl⟩ := h
  obtain ⟨_, _, _, _, _, _, rfl⟩ := h'
  exact ⟨_, _, _, _, _, _, rfl⟩

theorem State.sends.foldl {α : Type} {f : State → α → State} (hf : ∀ (s : State) x, s.sends (f s x)) (l : List α) (s : State) :
    s.sends (l.foldl f s) := by
  induction l generalizing s with
  | nil => exact .refl s
  | cons x l ih => exact (hf s x).trans (ih _)

theorem State.sends_recover (s : State) (p : Nat) : s.sends (s.recover p) := by
  unfold State.recover
  split
  · exact ⟨_, _, _, _, _, _, rfl⟩
  · exact .refl s

theorem State.sends_transmit (s : State) (id : Nat) : s.sends (s.transmit id) := by
  unfold State.transmit
  split
  · exact .refl s
  split
  · exact .refl s
  extract_lets from_ now
  split
  · exact s.sends_recover _
  split
  · exact .refl s
  · exact ⟨_, _, _, _, _, _, rfl⟩

theorem State.sends_flushLink (s : State) : s.sends s.flushLink := .foldl (fun t (e : Nat × Req) => t.sends_transmit e.1) _ s

/-- A request is entered, and sent if it can be (R356). -/
theorem State.request_eq (s : State) (peer : Nat) (op : RemoteOp) (msg : Option (MsgKind × Msg)) (origin : Origin) (carries : List Nat)
    (hold gang : Nat) : ∃ r, (s.request peer op msg origin carries hold gang).2 =
      State.transmit { s with nextId := s.nextId + 1, link := { s.link with reqs := smPut s.link.reqs s.nextId r } } s.nextId := ⟨_, rfl⟩

theorem State.sends_request (s : State) (peer : Nat) (op : RemoteOp) (msg : Option (MsgKind × Msg)) (origin : Origin) (carries : List Nat)
    (hold gang : Nat) : s.sends (s.request peer op msg origin carries hold gang).2 := by
  obtain ⟨r, hr⟩ := s.request_eq peer op msg origin carries hold gang
  rw [hr]
  exact State.sends.trans ⟨_, _, _, _, _, _, rfl⟩ (State.sends_transmit _ _)

theorem State.sends_sendMsg (s : State) (peer : Nat) (k : MsgKind) (seq addr : Nat) : s.sends (s.sendMsg peer k seq addr) := by
  unfold State.sendMsg
  split
  · exact .refl s
  · exact s.sends_request _ _ _ _ _ _ _

/-! What does nothing where there is nothing to do. -/

theorem State.modLink_eq_self {s : State} {f : Link → Link} (h : f s.link = s.link) : s.modLink f = s := by
  rw [State.modLink, h]

theorem State.pump_nil (s : State) : s.pump [] = s := rfl

theorem State.sweepBatons_nil {s : State} (h : s.link.batons = []) : s.sweepBatons = s :=
  State.modLink_eq_self (by rw [h, List.filter_nil, ← h])

theorem State.settleHeld_nil {s : State} (h : s.link.held = []) : s.settleHeld = s.sweepBatons := by
  rw [State.settleHeld, h]
  rfl

theorem State.tellDests_nil {s : State} (h : s.link.batons = []) (q : Nat) : s.tellDests q = s := by
  rw [State.tellDests, h]
  rfl

theorem foldl_eq_self {α : Type} {f : State → α → State} {s : State} (hf : ∀ x, f s x = s) (l : List α) : l.foldl f s = s := by
  induction l with
  | nil => rfl
  | cons x l ih => rw [List.foldl_cons, hf, ih]

theorem State.flushLink_nil {s : State} (h : s.link.reqs = []) : s.flushLink = s := by
  rw [State.flushLink, h]
  rfl

theorem State.firstUnreleased_nil {s : State} (h : s.link.batons = []) (qs : List Nat) : s.firstUnreleased qs = qs.headD 0 := by
  have hnone : ∀ q, (s.batonPending q || s.batonFailed q) = false := fun q => by
    rw [State.batonPending, State.batonFailed, h]
    rfl
  rw [State.firstUnreleased, List.find?_eq_none.mpr (by simp [hnone])]
  rfl

/-- Sweeping the batons changes their table only. -/
theorem State.sweepBatons_eq (s : State) : ∃ b, s.sweepBatons = { s with link := { s.link with batons := b } } := ⟨_, rfl⟩

/-- An expiry record (R366) counts, is listed, and stands in host memory. -/
theorem State.expiry_eq (s : State) (inc pkg reason seq pa : Nat) : ∃ m, s.expiry inc pkg reason seq pa = { s with
    host := m, dev := { s.dev with expcnt := (s.dev.expcnt + 1) % 2 ^ 64 }, link := { s.link with expiries := (seq, reason) :: s.link.expiries } } := by
  unfold State.expiry
  extract_lets n t u
  split
  · exact ⟨s.host, rfl⟩
  · exact ⟨_, rfl⟩

/-- A peer's held store that is dropped leaves the queue with an expiry record (R365, R366), and its sender may be told. -/
def State.drops (s t : State) (q reason : Nat) : Prop :=
  ∃ n reqs peers ports sr sm tags b m, t = { s with
    nextId := n, host := m, dev := { s.dev with expcnt := (s.dev.expcnt + 1) % 2 ^ 64 }
    link := { s.link with reqs := reqs, peers := peers, ports := ports, sentReqs := sr, sentMsgs := sm, tags := tags, batons := b, held := [],
                          expiries := (q, reason) :: s.link.expiries } }

/-- The baton that a peer's dropped store names: the first it has not been told of (R366). -/
def Held.missing (h : Held) : Nat := (h.carries.find? (fun q => !(h.got.contains q))).getD 0

theorem State.dropHeld_peer {s : State} {id : Nat} {h : Held} (hheld : s.link.held = [(id, h)]) (hsrc : h.src ≠ s.dev.pkgid) (reason : Nat) :
    ∃ x m, x = { s with
        host := m, dev := { s.dev with expcnt := (s.dev.expcnt + 1) % 2 ^ 64 }
        link := { s.link with held := [], expiries := (h.missing, reason) :: s.link.expiries } }
      ∧ s.dropHeld id reason = if reason = 4 then x else (x.keepOutcome ⟨h.src, h.tag, h.number, none, 0⟩).sendMsg h.src .bexp h.missing h.tag := by
  have hown : (decide (h.src = s.dev.pkgid) && decide (h.srcInc = s.link.inc)) = false := by simp [hsrc]
  have hdel : smDel s.link.held id = [] := by simp [hheld, smDel]
  let t := s.modLink (fun l => { l with held := [] })
  have ht : s.modLink (fun l => { l with held := smDel l.held id }) = t := by
    show ({ s with link := { s.link with held := smDel s.link.held id } } : State) = _
    rw [hdel]
    rfl
  obtain ⟨m, hm⟩ := t.expiry_eq h.srcInc h.src reason h.missing ((h.bytes.head?.map (·.1)).getD 0)
  let x := t.expiry h.srcInc h.src reason h.missing ((h.bytes.head?.map (·.1)).getD 0)
  have hx : x = { s with
      host := m, dev := { s.dev with expcnt := (s.dev.expcnt + 1) % 2 ^ 64 }
      link := { s.link with held := [], expiries := (h.missing, reason) :: s.link.expiries } } := hm
  refine ⟨x, m, hx, ?_⟩
  have hfind : smFind s.link.held id = some h := by simp [hheld, smFind]
  simp only [State.dropHeld, hfind, hown, ht]
  rfl

theorem State.dropHeld_drops {s : State} {id : Nat} {h : Held} (hheld : s.link.held = [(id, h)]) (hsrc : h.src ≠ s.dev.pkgid) (reason : Nat) :
    s.drops (s.dropHeld id reason) h.missing reason := by
  obtain ⟨x, m, hx, hdrop⟩ := State.dropHeld_peer hheld hsrc reason
  rw [hdrop]
  split
  · rw [hx]
    exact ⟨_, _, _, _, _, _, _, _, _, rfl⟩
  · obtain ⟨n, reqs, peers, ports, sr, sm, hsend⟩ := (x.keepOutcome ⟨h.src, h.tag, h.number, none, 0⟩).sends_sendMsg h.src .bexp h.missing h.tag
    rw [hsend, hx]
    exact ⟨_, _, _, _, _, _, _, _, _, rfl⟩

/-- After that nothing is left to apply (R364). -/
theorem State.drops.settle {s t : State} {q reason : Nat} (h : s.drops t q reason) : s.drops t.settleHeld q reason := by
  obtain ⟨_, _, _, _, _, _, _, _, _, rfl⟩ := h
  exact ⟨_, _, _, _, _, _, _, _, _, rfl⟩

theorem State.tellDests_all_nil {s : State} (h : s.link.batons = []) (qs : List Nat) : qs.foldl State.tellDests s = s :=
  foldl_eq_self (fun q => State.tellDests_nil h q) qs

/-- HOLD_BOUND_EXPIRY (R194, R364 to R366). -/
theorem holdBoundsExpire : Claims.HoldBoundsExpire := by
  unfold Claims.HoldBoundsExpire
  refine ⟨fun s id h hheld hsrc hdue horigin => ?_, fun s id r hreqs hcarries hheld hwent hdue horigin hnone hbatons => ?_⟩
  · have hrun : exec (.holdBoundExpiry (.held id)) s = .next (s.dropHeld id 1).settleHeld := by
      have hfind : smFind s.link.held id = some h := by simp [hheld, smFind]
      have hlate : ¬ s.time < h.since + h.hold * Config.us := not_lt.mpr hdue
      show execHoldBoundExpiry (.held id) s = _
      simp only [execHoldBoundExpiry, hfind, if_neg hlate, horigin, originGangs, State.pump_nil]
    obtain ⟨_, _, _, _, _, _, _, _, _, ht⟩ := (State.dropHeld_drops hheld hsrc 1).settle
    exact ⟨_, hrun, by rw [ht], by rw [ht], ⟨h.missing, by rw [ht]⟩, by rw [ht], by rw [ht]⟩
  · obtain ⟨m, hm⟩ := (s.delReq id).expiry_eq s.link.inc s.dev.pkgid 3 (r.carries.headD 0) (opAddr r.op)
    let t := (s.delReq id).expiry s.link.inc s.dev.pkgid 3 (r.carries.headD 0) (opAddr r.op)
    have htb : t.link.batons = [] := (congrArg (fun x => x.link.batons) hm).trans hbatons
    have hth : t.link.held = [] := (congrArg (fun x => x.link.held) hm).trans hnone
    have htr : t.link.reqs = [] := by
      refine (congrArg (fun x => x.link.reqs) hm).trans (?_ : smDel s.link.reqs id = [])
      simp [hreqs, smDel]
    have hrun : exec (.holdBoundExpiry (.unheld id)) s = .next t := by
      have hfind : smFind s.link.reqs id = some r := by simp [hreqs, smFind]
      have hlate : ¬ (r.carries.isEmpty || r.held || !r.went || decide (s.time < r.first + r.hold * Config.us)) = true := by
        simp only [List.isEmpty_eq_false_iff.mpr hcarries, hheld, hwent, Bool.not_true, Bool.false_or, decide_eq_true_eq, not_lt]
        exact hdue
      show execHoldBoundExpiry (.unheld id) s = _
      simp only [execHoldBoundExpiry, hfind, if_neg hlate, horigin, originGangs, State.pump_nil, State.ownBaton, State.expireOrigin, List.foldl_nil,
        State.firstUnreleased_nil hbatons]
      show Host.Outcome.next (r.carries.foldl State.tellDests t).settleHeld.flushLink = _
      rw [State.tellDests_all_nil htb, State.settleHeld_nil hth, State.sweepBatons_nil htb, State.flushLink_nil htr]
    exact ⟨t, hrun, htr, congrArg (fun x => x.dev.expcnt) hm, congrArg (fun x => x.link.expiries) hm, congrArg (fun x => x.mem) hm,
      congrArg (fun x => x.gangs) hm⟩

/-! Messages (R353, R354, R360, R368). -/

theorem newer_self (a : Nat) : newer a a = false := by
  have h : (a + 2 ^ 32 - a % 2 ^ 32) % 2 ^ 32 = 0 := by omega
  simp only [newer, h]
  rfl

/-- What comes from the current incarnation of a peer on an UP link passes the screen (R358, R360). -/
theorem State.screen_current {s : State} {src srcInc dstInc : Nat} (h : s.current src srcInc dstInc) : s.screen src srcInc dstInc = none := by
  obtain ⟨-, hup, rfl, rfl⟩ := h
  simp [State.screen, hup, newer_self]

theorem State.receive_acts {s : State} {m : Msg} (h : s.heeds m) (hk : s.keptOutcome m.srcPkg m.tag m.number = none) (act : State → State) :
    s.receive m act = (act s).answer m.srcPkg m.srcInc m.tag m.number (.done []) 0 := by
  obtain ⟨hcur, hdst, hcrc⟩ := h
  have hstage : s.dev.stage = 2 := hcur.1
  simp [State.receive, State.linked, hstage, hcrc, hdst, State.screen_current hcur, hk]

theorem State.receive_again {s : State} {m : Msg} (h : s.heeds m) (hk : (s.keptOutcome m.srcPkg m.tag m.number).isSome = true) (act : State → State) :
    s.receive m act = s.answer m.srcPkg m.srcInc m.tag m.number (.done []) 0 := by
  obtain ⟨hcur, hdst, hcrc⟩ := h
  have hstage : s.dev.stage = 2 := hcur.1
  simp [State.receive, State.linked, hstage, hcrc, hdst, State.screen_current hcur, hk]

theorem State.receive_bad {s : State} {m : Msg} (hstage : s.dev.stage = 2) (hcrc : m.crcOk = false) (act : State → State) :
    s.receive m act = s.reply m.srcPkg m.srcInc m.tag .negative 0 := by
  simp [State.receive, State.linked, hstage, hcrc]

theorem State.receive_elsewhere {s : State} {m : Msg} (hstage : s.dev.stage = 2) (hcrc : m.crcOk = true) (hdst : m.dstPkg ≠ s.dev.pkgid)
    (act : State → State) : s.receive m act = s.stale m.srcPkg := by
  simp [State.receive, State.linked, hstage, hcrc, hdst]

theorem State.receive_stale {s : State} {m : Msg} (hstage : s.dev.stage = 2) (hcrc : m.crcOk = true) (hdst : m.dstPkg = s.dev.pkgid)
    (hup : (s.peer m.srcPkg).st = .up) (hold : newer (s.peer m.srcPkg).inc m.srcInc = true ∨ m.dstInc ≠ s.link.inc) (act : State → State) :
    s.receive m act = s.stale m.srcPkg := by
  have hscreen : s.screen m.srcPkg m.srcInc m.dstInc = some (s.stale m.srcPkg) := by
    rcases hold with h | h <;> simp [State.screen, hup, h]
  simp [State.receive, State.linked, hstage, hcrc, hdst, hscreen]

/-- Every message of R353 that is answered goes through `State.receive`. -/
theorem exec_receives {s t : State} {m : Msg} (h : ∀ act, s.receive m act = t) :
    ∀ i ∈ [Instr.brel m, .bfail m, .heldack m, .bexp m, .sdreq m, .sdack m, .sddone m], exec i s = .next t := by
  intro i hi
  simp only [List.mem_cons, List.not_mem_nil, or_false] at hi
  rcases hi with rfl | rfl | rfl | rfl | rfl | rfl | rfl <;> exact congrArg Host.Outcome.next (h _)

/-- A store of a peer whose one baton is released is applied and answered (R364). -/
theorem State.applyHeld_peer {s : State} {id : Nat} {h : Held} (hheld : s.link.held = [(id, h)]) (hsrc : h.src ≠ s.dev.pkgid)
    (hgot : ∀ q ∈ h.carries, q ∈ h.got) (horigin : h.origin = .msg) (hgood : s.failed = []) :
    ∃ n tags answers batons, s.settleHeld = { s with
      serial := n, mem := Memory.writeAll s.mem h.bytes
      link := { s.link with held := [], tags := tags, answers := answers, batons := batons } } := by
  have hready : s.heldReady (id, h) = true := by
    simp [State.heldReady, hheld, hsrc]
    exact hgot
  have hlost : h.bytes.any (fun b => s.failedAt b.1) = false := by
    simp [State.failedAt, hgood]
  have hfind : s.link.held.find? (fun e => s.heldReady e) = some (id, h) := by
    rw [hheld, List.find?_cons_of_pos hready]
  have hdel : ∀ l : Link, l.held = [(id, h)] → ({ l with held := smDel l.held id } : Link) = { l with held := [] } := fun l hl => by
    rw [hl]
    simp [smDel]
  have happly : s.settleHeld = ((({ s with link := { s.link with held := [] } } : State).wrAll h.bytes).tickSerial.answer
      h.src h.srcInc h.tag h.number (.done []) 0).sweepBatons := by
    rw [State.settleHeld, hheld]
    show (State.applyHeld 1 s).sweepBatons = _
    simp only [State.applyHeld, hfind, hlost, horigin, State.modLink, hdel _ hheld]
    rfl
  exact ⟨_, _, _, _, happly⟩

/-- The baton messages from a current peer: the store that it holds here is applied, or dropped (R364, R365). -/
theorem batonMessageActs {s : State} {m : Msg} {id : Nat} {h : Held} (hheeds : s.heeds m) (hk : s.keptOutcome m.srcPkg m.tag m.number = none)
    (hheld : s.link.held = [(id, h)]) (hsrc : h.src = m.srcPkg) (hinc : h.srcInc = m.srcInc) (hcarries : h.carries = [m.seq])
    (horigin : h.origin = .msg) (hpeer : m.srcPkg ≠ s.dev.pkgid) (hgood : s.failed = []) :
    (∃ t, exec (.brel m) s = .next t ∧ t.link.answers.head? = some (s.answerTo m) ∧ t.link.held = [] ∧ t.mem = Memory.writeAll s.mem h.bytes ∧ t.dev = s.dev ∧ t.gangs = s.gangs)
      ∧ (h.got = [] → ∃ t, exec (.bfail m) s = .next t ∧ t.link.answers.head? = some (s.answerTo m) ∧ t.link.held = [] ∧ t.mem = s.mem ∧ t.dev.expcnt = (s.dev.expcnt + 1) % 2 ^ 64
          ∧ t.link.expiries = (m.seq, 2) :: s.link.expiries ∧ t.gangs = s.gangs) := by
  have hwith : s.heldWith m = [id] := by simp [State.heldWith, hheld, hsrc, hinc, hcarries]
  refine ⟨?_, fun hgot => ?_⟩
  · let y := if h.got.contains m.seq then h else { h with got := h.got ++ [m.seq] }
    let r := s.modLink (fun l => { l with held := [(id, y)] })
    have hy : ∀ q ∈ y.carries, q ∈ y.got := by
      intro q hq
      by_cases hc : h.got.contains m.seq = true <;> simp_all [y]
    have hyf : y.src = h.src ∧ y.origin = h.origin ∧ y.bytes = h.bytes := by
      dsimp only [y]
      split <;> exact ⟨rfl, rfl, rfl⟩
    obtain ⟨hys, hyo, hyb⟩ := hyf
    obtain ⟨_, _, _, _, hset⟩ := State.applyHeld_peer (s := r) (h := y) rfl (by rw [hys, hsrc]; exact hpeer) hy (hyo.trans horigin) hgood
    have hrun : exec (.brel m) s = .next (r.settleHeld.answer m.srcPkg m.srcInc m.tag m.number (.done []) 0) := by
      show execBrel m s = _
      rw [execBrel, State.receive_acts hheeds hk]
      have hmap : s.link.held.map (fun e => if [id].contains e.1 && !(e.2.got.contains m.seq) then (e.1, { e.2 with got := e.2.got ++ [m.seq] }) else e)
          = [(id, y)] := by
        by_cases hc : m.seq ∈ h.got <;> simp [hheld, hc, y]
      simp only [State.modLink, hwith, hmap]
      rfl
    refine ⟨_, hrun, ?_⟩
    rw [hset, hyb]
    exact ⟨rfl, rfl, rfl, rfl, rfl⟩
  · obtain ⟨_, _, _, _, _, _, _, _, _, ht⟩ := (State.dropHeld_drops hheld (by rw [hsrc]; exact hpeer) 2).settle
    have hmiss : h.missing = m.seq := by simp [Held.missing, hcarries, hgot]
    have hrun : exec (.bfail m) s = .next ((s.dropHeld id 2).settleHeld.answer m.srcPkg m.srcInc m.tag m.number (.done []) 0) := by
      show execBfail m s = _
      rw [execBfail, State.receive_acts hheeds hk, hwith]
      rfl
    refine ⟨_, hrun, ?_⟩
    rw [ht, hmiss]
    exact ⟨rfl, rfl, rfl, rfl, rfl, rfl⟩

/-- The carried store that a HELDACK or BEXP names, sent to its destination (R365). -/
theorem State.carried_only {s : State} {m : Msg} {id : Nat} {r : Req} (hreqs : s.link.reqs = [(id, r)]) (hpeer : r.peer = m.srcPkg)
    (htag : r.tag = m.addr) (hcarries : r.carries ≠ []) : s.carried m = some (id, r) := by
  simp [State.carried, hreqs, hpeer, htag, hcarries]

theorem State.tellLate_nil {s : State} (h : s.link.batons = []) (peer q : Nat) : s.tellLate peer q = s := by
  rw [State.tellLate, State.batonFailed, h]
  rfl

/-- The baton messages from a current peer: the store of this package that it holds, or has dropped (R364, R365). -/
theorem holdMessageActs {s : State} {m : Msg} {id : Nat} {r : Req} (hheeds : s.heeds m) (hk : s.keptOutcome m.srcPkg m.tag m.number = none)
    (hreqs : s.link.reqs = [(id, r)]) (hpeer : r.peer = m.srcPkg) (htag : r.tag = m.addr) (hcarries : r.carries ≠ [])
    (hbatons : s.link.batons = []) (hheld : s.link.held = []) (horigin : r.origin = .msg) :
    (∃ t, exec (.heldack m) s = .next t ∧ t.link.answers.head? = some (s.answerTo m) ∧ (t.req id).held = true ∧ (t.req id).busy = false ∧ t.mem = s.mem ∧ t.gangs = s.gangs)
      ∧ (∃ t, exec (.bexp m) s = .next t ∧ t.link.answers.head? = some (s.answerTo m) ∧ t.link.reqs = [] ∧ t.mem = s.mem ∧ t.gangs = s.gangs) := by
  have hfind := State.carried_only hreqs hpeer htag hcarries
  refine ⟨?_, ?_⟩
  · let f := fun y : Req => { y with held := true, busy := false }
    let x := s.modReq id f
    have hx : x.link.batons = [] := hbatons
    have hreq : x.req id = f r := by
      show (smFind (smMod s.link.reqs id f) id).getD default = f r
      simp [hreqs, smFind, smMod]
    have hrun : exec (.heldack m) s = .next (x.answer m.srcPkg m.srcInc m.tag m.number (.done []) 0) := by
      show execHeldack m s = _
      rw [execHeldack, State.receive_acts hheeds hk]
      simp only [hfind, horigin, originGangs, State.pump_nil]
      have hlate : r.carries.foldl (fun s q => s.tellLate r.peer q) x = x := foldl_eq_self (fun q => State.tellLate_nil hx r.peer q) _
      rw [hlate, State.tellDests_all_nil hx]
    refine ⟨_, hrun, rfl, ?_, ?_, rfl, rfl⟩
    · exact congrArg Req.held hreq
    · exact congrArg Req.busy hreq
  · let x := s.delReq id
    have hx : x.link.batons = [] := hbatons
    have hnone : x.link.reqs = [] := by
      show smDel s.link.reqs id = []
      simp [hreqs, smDel]
    have hrun : exec (.bexp m) s = .next (x.answer m.srcPkg m.srcInc m.tag m.number (.done []) 0) := by
      show execBexp m s = _
      rw [execBexp, State.receive_acts hheeds hk]
      simp only [hfind, horigin, originGangs, State.pump_nil, State.ownBaton, State.expireOrigin, List.foldl_nil]
      rw [State.tellDests_all_nil hx, State.settleHeld_nil (s := x) hheld, State.sweepBatons_nil hx, State.flushLink_nil hnone]
    exact ⟨_, hrun, rfl, hnone, rfl, rfl⟩

theorem batonMessagesAct : Claims.BatonMessagesAct := by
  unfold Claims.BatonMessagesAct
  refine ⟨fun s m id h hheeds hk hheld hsrc hinc hcarries horigin hpeer _ hgood => batonMessageActs hheeds hk hheld hsrc hinc hcarries horigin hpeer hgood,
    fun s m id r hheeds hk hreqs hpeer htag hcarries hbatons hheld horigin => holdMessageActs hheeds hk hreqs hpeer htag hcarries hbatons hheld horigin,
    fun s m hstage hcrc hdst => exec_receives (State.receive_elsewhere hstage hcrc hdst),
    fun s m hstage hcrc hdst hup hold => exec_receives (State.receive_stale hstage hcrc hdst hup hold),
    fun s m hstage hcrc => exec_receives (State.receive_bad hstage hcrc), fun s m hheeds hk => exec_receives (State.receive_again hheeds hk)⟩

/-- Settles O46: a dropped store leaves the queue with its expiry record (`State.drops`), and each message acts through `State.receive`. -/
theorem batonEvents : Obligations.BatonEvents := by
  unfold Obligations.BatonEvents
  exact ⟨holdBoundsExpire, batonMessagesAct⟩

end Sys2Proof.Machine
end

section
/-! Shoot-down messages and peer links (R273, R350, R353, R358 to R361). -/

namespace Sys2Proof.Machine

/-! With no access under way, nothing is performed. -/

/-- No gang has an access under way. -/
def State.still (s : State) : Prop := ∀ u, (s.gang u).accs = []

theorem State.still_of {s : State} (h : ∀ e ∈ s.gangs, e.2.accs = []) : s.still := by
  intro u
  rw [State.gang]
  cases hu : smFind s.gangs u with
  | none => rfl
  | some g => exact h _ (mem_of_smFind hu)

theorem State.pumpGang_still {s : State} {u : Nat} (h : (s.gang u).accs = []) : s.pumpGang u = ([], s) := by
  simp [State.pumpGang, State.sweepAccs, h]

theorem State.pumpAll_still {s : State} (n : Nat) {us : List Nat} (h : ∀ u ∈ us, (s.gang u).accs = []) : State.pumpAll n us s = s := by
  induction us generalizing n with
  | nil => cases n <;> rfl
  | cons u us ih =>
    cases n with
    | zero => rfl
    | succ n =>
      rw [State.pumpAll, State.pumpGang_still (h u List.mem_cons_self)]
      simpa using ih n fun v hv => h v (List.mem_cons_of_mem _ hv)

theorem State.pump_still {s : State} {us : List Nat} (h : ∀ u ∈ us, (s.gang u).accs = []) : s.pump us = s := s.pumpAll_still _ h

theorem State.still_modGang {s : State} (h : s.still) (u : Nat) {f : Gang → Gang} (hf : ∀ g, g.accs = [] → (f g).accs = []) :
    (s.modGang u f).still := by
  intro v
  by_cases hv : v = u
  · subst hv
    exact State.gang_modGang_of (P := fun g => g.accs = []) rfl (hf _ (h _))
  · rw [State.gang_modGang_other _ _ _ _ hv]
    exact h v

/-- `t` is `s` but for memory's tables, translations and pages: the links are as they were, and no gang has an access under way. -/
def State.rests (s t : State) : Prop := t.link = s.link ∧ t.still

theorem State.rests.trans {s t u : State} (h : s.rests t) (h' : t.rests u) : s.rests u := ⟨h'.1.trans h.1, h'.2⟩

theorem State.still.foldl {α : Type} {f : State → α → State} (hf : ∀ (s : State) x, s.still → s.rests (f s x)) (l : List α) {s : State}
    (h : s.still) : s.rests (l.foldl f s) := by
  induction l generalizing s with
  | nil => exact ⟨rfl, h⟩
  | cons x l ih => exact (hf s x h).trans (ih (hf s x h).2)

theorem State.still.ackPage {s : State} (h : s.still) (c vpage : Nat) : s.rests (s.ackPage c vpage) := by
  unfold State.ackPage
  extract_lets clr t u gs v free w
  have ht : s.rests t := ⟨rfl, h⟩
  have hu : t.rests u := ht.2.foldl (f := State.refillMerge) (fun s x hs => ⟨rfl, hs⟩) _
  have hv : u.rests v := hu.2.foldl (f := fun s x => s.modGang x (fun g => g.replayPage vpage)) (fun s x hs => ⟨rfl, State.still_modGang hs x fun g hg => by simp [Gang.replayPage, hg]⟩) _
  have hw : v.rests w := ⟨rfl, hv.2⟩
  rw [State.pump_still fun x _ => hw.2 x]
  exact ((ht.trans hu).trans hv).trans hw

/-- `t` is `s` but for memory and the next place of the table region. -/
def State.tables (s t : State) : Prop := ∃ m n, t = { s with mem := m, tblNext := n }

theorem State.tables.refl (s : State) : s.tables s := ⟨_, _, rfl⟩

theorem State.tables.trans {s t u : State} (h : s.tables t) (h' : t.tables u) : s.tables u := by
  obtain ⟨_, _, rfl⟩ := h
  obtain ⟨_, _, rfl⟩ := h'
  exact ⟨_, _, rfl⟩

theorem State.tables.foldl {α : Type} {f : State → α → State} (hf : ∀ (s : State) x, s.tables (f s x)) (l : List α) (s : State) :
    s.tables (l.foldl f s) := by
  induction l generalizing s with
  | nil => exact .refl s
  | cons x l ih => exact (hf s x).trans (ih _)

/-- Writing an entry of the page tables (R280) changes memory and the table region only. -/
theorem State.tables_setEntry (va e lvl : Nat) (l tbl : Nat) (s : State) : s.tables (setEntry va e lvl tbl l s) := by
  induction l generalizing s tbl with
  | zero =>
    unfold setEntry
    split
    · exact ⟨_, _, rfl⟩
    · exact .refl s
  | succ k ih =>
    unfold setEntry
    extract_lets pa x t u
    split
    · exact ⟨_, _, rfl⟩
    dsimp only
    split
    · exact ih _ s
    · have hcleared : s.tables u := ⟨_, _, rfl⟩
      have hentry : ∀ v : State, v.tables (v.wr64 pa (t / 256 * 256 + 1)) := fun v => ⟨_, _, rfl⟩
      refine (hcleared.trans ?_).trans (ih t _)
      refine State.tables.trans ?_ (hentry _)
      split
      · exact .foldl (fun s i => ⟨_, _, rfl⟩) _ u
      · exact .refl u

theorem State.tables_setPage (s : State) (c va size e : Nat) : s.tables (s.setPage c va size e) := by
  unfold State.setPage
  split
  · exact .refl s
  · exact s.tables_setEntry _ _ _ _ _

theorem State.still.setPage {s : State} (h : s.still) (c va size e : Nat) : s.rests (s.setPage c va size e) := by
  obtain ⟨m, n, ht⟩ := s.tables_setPage c va size e
  rw [ht]
  exact ⟨rfl, h⟩

theorem State.still.dropCopy {s : State} (h : s.still) (c vpage : Nat) : s.rests (s.dropCopy c vpage) := by
  unfold State.dropCopy
  extract_lets va r
  split
  · next e base size _ =>
    extract_lets pa
    split
    · exact (h.setPage c va 0x10000 r.entry).trans ⟨rfl, (h.setPage c va 0x10000 r.entry).2⟩
    · exact ⟨rfl, h⟩
  · exact ⟨rfl, h⟩

/-- A page that opens again leaves the links alone, with no access under way (R273). -/
theorem State.still.openPage {s : State} (h : s.still) (c vpage : Nat) : s.rests (s.openPage c vpage) := by
  unfold State.openPage
  extract_lets t va
  have ht : s.rests t := h.dropCopy c vpage
  refine ht.trans ?_
  split
  · next e base size _ =>
    split
    · exact ht.2.ackPage c vpage
    · extract_lets u e'
      have hu : t.rests u := by
        dsimp only [u]
        split
        · exact ⟨rfl, ht.2⟩
        · exact ⟨rfl, ht.2⟩
      have hset : u.rests ((u.dropProofs c base size).setPage c base size e') := State.still.setPage (s := u.dropProofs c base size) hu.2 c base size e'
      refine (hu.trans hset).trans (State.still.ackPage (s := (((_ : State).dropTlb c base size).modPages c base size _)) hset.2 c vpage)
  · exact ht.2.ackPage c vpage

/-! Shoot-downs (R273, R350). -/

theorem State.ackShoots_told {s : State} (h : ∀ x ∈ s.link.shoots, x.told = true) : s.ackShoots = s := by
  have hopen : s.link.shoots.filter (fun x => !x.told) = [] := List.filter_eq_nil_iff.mpr fun x hx => by simp [h x hx]
  rw [State.ackShoots, hopen]
  rfl

theorem State.settleShoots_waits {s : State} (htold : ∀ x ∈ s.link.shoots, x.told = true) (h : ∀ x ∈ s.link.shoots, s.shootOver x = false) :
    s.settleShoots = s := by
  have hfin : s.link.shoots.filter s.shootOver = [] := List.filter_eq_nil_iff.mpr fun x hx => by simp [h x hx]
  simp [State.settleShoots, State.ackShoots_told htold, hfin]

theorem State.sends.still {s t : State} (h : s.sends t) (hs : s.still) : t.still := by
  obtain ⟨_, _, _, _, _, _, rfl⟩ := h
  exact hs

theorem State.sends.shoots {s t : State} (h : s.sends t) : t.link.shoots = s.link.shoots := by
  obtain ⟨_, _, _, _, _, _, rfl⟩ := h
  rfl

/-- A shoot-down that is over, the only one, goes (R350). -/
theorem State.settleShoots_over {s : State} {x : Shoot} (hs : s.still) (h : s.link.shoots = [x]) (htold : x.told = true) (hover : s.shootOver x = true) :
    s.settleShoots.link.shoots = [] := by
  have hfin : s.link.shoots.filter s.shootOver = [x] := by simp [h, hover]
  rw [State.settleShoots, State.ackShoots_told (by simpa [h] using htold)]
  simp only [hfin]
  rw [if_neg (by simp)]
  let t := s.modLink (fun l => { l with shoots := l.shoots.filter (fun y => !([x].contains y)) })
  have ht : t.link.shoots = [] := by
    show s.link.shoots.filter _ = []
    simp [h]
  have hsend : ∀ l : List (Nat × Nat), t.sends (l.foldl (fun s y => s.joined.foldl (fun s p => s.sendMsg p .sddone y.1 y.2) s) t) := fun l =>
    .foldl (fun s y => .foldl (fun s p => s.sends_sendMsg p _ _ _) _ s) l t
  generalize (List.map (fun x : Shoot => (x.serial, x.pa)) _).eraseDups = l
  obtain ⟨hlink, -⟩ := State.still.foldl (f := fun s (x : Shoot) => s.openPage x.ctx x.vpage) (fun s x hs => hs.openPage x.ctx x.vpage) [x]
    ((hsend l).still hs)
  exact (congrArg Link.shoots hlink).trans ((hsend l).shoots.trans ht)

theorem State.readsOver_still {s : State} (hs : s.still) (x : Shoot) : s.readsOver x = true := by
  simp [State.readsOver, hs _]

theorem shootdownMessagesAct : Claims.ShootdownMessagesAct := by
  unfold Claims.ShootdownMessagesAct
  refine ⟨fun s m hheeds hk hnone => ?_, fun s m x hheeds hk hx hhome hpa htold => ?_, fun s m hheeds hk hother => ?_,
    fun s m x hheeds hk hx hhome hpa => ?_⟩
  · show execSdreq m s = _
    rw [execSdreq, State.receive_acts hheeds hk, hnone]
    rfl
  · let y : Shoot := if x.serial = m.seq then { x with waiting := x.waiting.filter (fun w => w ≠ m.srcPkg) } else x
    let t := s.modLink (fun l => { l with shoots := [y] })
    have hy : y.home = s.dev.pkgid ∧ y.told = true := by
      dsimp only [y]
      split <;> exact ⟨hhome, htold⟩
    have hrun : exec (.sdack m) s = .next (t.settleShoots.answer m.srcPkg m.srcInc m.tag m.number (.done []) 0) := by
      show execSdack m s = _
      rw [execSdack, State.receive_acts hheeds hk]
      have hmap : s.link.shoots.map (fun x => if x.home = s.dev.pkgid && x.pa = m.addr && x.serial = m.seq then
          { x with waiting := x.waiting.filter (fun w => w ≠ m.srcPkg) } else x) = [y] := by
        simp [hx, hhome, hpa, y]
      simp only [State.modLink, hmap]
      rfl
    have honly : ∀ {P : Shoot → Prop}, P y → ∀ z ∈ t.link.shoots, P z := fun hp z hz => List.mem_singleton.mp (show z ∈ [y] from hz) ▸ hp
    refine ⟨fun q hq hwait => ?_, fun hwait hserial hidle => ?_⟩
    · have hyw : y = { x with waiting := if x.serial = m.seq then [q] else [m.srcPkg, q] } := by
        by_cases hserial : x.serial = m.seq <;> simp [y, hserial, hwait, hq]
        rw [← hwait]
      have hover : t.shootOver y = false := by
        have hne : y.waiting ≠ [] := by
          rw [hyw]
          dsimp only
          split <;> exact List.cons_ne_nil _ _
        have hhomed : y.home = t.dev.pkgid := hy.1
        simp [State.shootOver, hhomed, hne]
      have hsettle : t.settleShoots = t := State.settleShoots_waits (honly hy.2) (honly hover)
      rw [hsettle] at hrun
      have hmem : (t.answer m.srcPkg m.srcInc m.tag m.number (.done []) 0).mem = t.mem := rfl
      have hshoots : (t.answer m.srcPkg m.srcInc m.tag m.number (.done []) 0).link.shoots = t.link.shoots := rfl
      exact ⟨_, hrun, hmem, hshoots.trans (congrArg (fun z => [z]) hyw)⟩
    · have hstill : t.still := State.still_of hidle
      have hyw : y = { x with waiting := [] } := by simp [y, hserial, hwait]
      have hover : t.shootOver y = true := by
        have hhomed : y.home = t.dev.pkgid := hy.1
        have hemp : y.waiting = [] := by rw [hyw]
        simp [State.shootOver, hhomed, hemp, State.readsOver_still hstill]
      have hend : t.settleShoots.link.shoots = [] := State.settleShoots_over hstill rfl hy.2 hover
      generalize t.settleShoots = u at hrun hend
      exact ⟨_, hrun, hend⟩
  · show execSddone m s = _
    have hfin : s.link.shoots.filter (fun x => x.home = m.srcPkg && x.pa = m.addr) = [] :=
      List.filter_eq_nil_iff.mpr fun x hx => by simpa using hother x hx
    have hkeep : s.modLink (fun l => { l with shoots := l.shoots.filter (fun x => !(([] : List Shoot).contains x)) }) = s :=
      State.modLink_eq_self (by simp)
    rw [execSddone, State.receive_acts hheeds hk, hfin]
    dsimp only
    rw [hkeep]
    rfl
  · show execSddone m s = _
    have hfin : s.link.shoots.filter (fun x => x.home = m.srcPkg && x.pa = m.addr) = [x] := by simp [hx, hhome, hpa]
    have hgone : s.modLink (fun l => { l with shoots := l.shoots.filter (fun y => !([x].contains y)) }) = s.modLink (fun l => { l with shoots := [] }) := by
      simp [State.modLink, hx]
    rw [execSddone, State.receive_acts hheeds hk, hfin]
    dsimp only
    rw [hgone]
    rfl

/-! Peer links (R358 to R361). -/

/-- INCANN goes out on a usable port, the newest of the messages sent (R356, R360). -/
theorem State.notice_tells {s : State} {p : Nat} (h : s.usablePorts p ≠ []) :
    ∃ j, s.notice p .incann = s.noticeOn j p .incann := by
  obtain ⟨k, hk⟩ := List.exists_mem_of_ne_nil _ h
  obtain ⟨hlt, hu⟩ := List.mem_filter.mp hk
  have hlt : k < 32 := List.mem_range.mp hlt
  cases hj : s.portFrom p (p % 32) with
  | some j => exact ⟨j, by rw [State.notice, hj]⟩
  | none =>
    have := List.find?_eq_none.mp hj k (List.mem_map.mpr ⟨(k + 32 - p % 32) % 32, List.mem_range.mpr (Nat.mod_lt _ (by decide)), by omega⟩)
    exact absurd hu this

theorem State.noticeOn_tells (s : State) (j p : Nat) (k : MsgKind) :
    (s.noticeOn j p k).link.sentMsgs.head? = some (j, k, s.msg p 0 0) ∧ (s.msg p 0 0).dstPkg = p ∧ (s.msg p 0 0).srcInc = s.link.inc := ⟨rfl, rfl, rfl⟩

theorem State.peer_noticeOn (s : State) (j p : Nat) (k : MsgKind) (q : Nat) : (s.noticeOn j p k).peer q = s.peer q := rfl

theorem State.sends_notice (s : State) (p : Nat) (k : MsgKind) : s.sends (s.notice p k) := by
  unfold State.notice
  split
  · exact .refl s
  · exact ⟨_, _, _, _, _, _, rfl⟩

/-- With nothing of the home's pages here and no shoot-down, a peer's replicas need no work (R359). -/
theorem State.dropReplicas_nil {s : State} (hctxs : s.ctxs = []) (hshoots : s.link.shoots = []) (p : Nat) : s.dropReplicas p = s := by
  have hkeep : ∀ f : List Shoot → List Shoot, f [] = [] → s.modLink (fun l => { l with shoots := f l.shoots }) = s := fun f hf =>
    State.modLink_eq_self (by rw [hshoots, hf, ← hshoots])
  have htold : ∀ x ∈ s.link.shoots, x.told = true := by simp [hshoots]
  rw [State.dropReplicas]
  simp only [hctxs, hshoots, List.flatMap_nil, List.foldl_nil, List.filter_nil, hkeep (List.filter _) rfl, hkeep (List.map _) rfl]
  exact State.settleShoots_waits htold (by simp [hshoots])

theorem State.failPeer_nil {s : State} {p : Nat} (h : ∀ e ∈ s.link.reqs, e.2.peer ≠ p) (bit : Nat) : s.failPeer p bit = s := by
  have hnone : s.link.reqs.filter (fun e => e.2.peer = p) = [] := List.filter_eq_nil_iff.mpr fun e he => by simpa using h e he
  rw [State.failPeer, hnone]
  rfl

theorem State.dropHeldOf_nil {s : State} (h : s.link.held = []) (hb : s.link.batons = []) (p reason : Nat) : s.dropHeldOf p reason = s := by
  rw [State.dropHeldOf, h]
  show s.settleHeld = s
  rw [State.settleHeld_nil h, State.sweepBatons_nil hb]

theorem State.failBatonsTo_nil {s : State} (h : s.link.batons = []) (p : Nat) : s.failBatonsTo p = s := by
  rw [State.failBatonsTo, h]
  rfl

theorem State.renew_known {s : State} {p : Nat} (h : (s.peer p).st ≠ .none) (inc : Nat) :
    s.renew p inc = ((((((s.modPeer p (fun x => { x with st := .up, inc := inc })).failPeer p fRefused).dropHeldOf p 4).dropReplicas p).unlockRemote
      (peerOwner p)).modLink (fun l => { l with tags := l.tags.filter (fun t => t.src ≠ p) })).sweepBatons.notice p .incann := by
  simp [State.renew, h]

/-- A notice changes the ports' times of use and the messages sent. -/
theorem State.notice_eq (s : State) (p : Nat) (k : MsgKind) :
    ∃ ports sm, s.notice p k = { s with link := { s.link with ports := ports, sentMsgs := sm } } := by
  unfold State.notice
  split
  · exact ⟨_, _, rfl⟩
  · exact ⟨_, _, rfl⟩

/-- What was kept of the old incarnation goes, and this package announces itself again (R361). -/
def State.greet (s : State) (p : Nat) : State :=
  ((s.unlockRemote (peerOwner p)).modLink (fun l => { l with tags := l.tags.filter (fun t => t.src ≠ p) })).sweepBatons.notice p .incann

/-- A greeting changes the locks of the cores and tables of the links. -/
theorem State.greet_eq (s : State) (p : Nat) : ∃ cores ports sm batons, s.greet p = { s with
    cores := cores, link := { s.link with ports := ports, sentMsgs := sm, batons := batons, tags := s.link.tags.filter (fun t => t.src ≠ p) } } := by
  obtain ⟨ports, sm, h⟩ :=
    ((s.unlockRemote (peerOwner p)).modLink (fun l => { l with tags := l.tags.filter (fun t => t.src ≠ p) })).sweepBatons.notice_eq p .incann
  rw [State.greet, h]
  exact ⟨_, _, _, _, rfl⟩

/-- The held store of a peer's old incarnation is dropped with a record of reason 4 (R361). -/
theorem renewDropsHeld (s : State) (p inc id : Nat) (h : Held) (hknown : (s.peer p).st ≠ .none) (hreqs : ∀ e ∈ s.link.reqs, e.2.peer ≠ p)
    (hheld : s.link.held = [(id, h)]) (hsrc : h.src = p) (hpeer : p ≠ s.dev.pkgid) (hctxs : s.ctxs = []) (hshoots : s.link.shoots = [])
    (hbatons : s.link.batons = []) :
    let t := s.renew p inc
    (t.peer p).st = .up ∧ (t.peer p).inc = inc ∧ (∀ q, q ≠ p → t.peer q = s.peer q) ∧ t.link.held = [] ∧ (∃ q, t.link.expiries = (q, 4) :: s.link.expiries)
      ∧ (∀ x ∈ t.link.tags, x.src ≠ p) ∧ t.mem = s.mem ∧ t.gangs = s.gangs := by
  intro t
  let f := fun x : Peer => { x with st := .up, inc := inc }
  let a := s.modPeer p f
  obtain ⟨x, m, hx, hdrop⟩ := State.dropHeld_peer (s := a) hheld (by rw [hsrc]; exact hpeer) 4
  rw [if_pos rfl] at hdrop
  have hgone : a.dropHeldOf p 4 = x := by
    have hids : (a.link.held.filter (fun e => e.2.src = p)).map (·.1) = [id] := by
      show (s.link.held.filter _).map _ = _
      simp [hheld, hsrc]
    rw [State.dropHeldOf, hids]
    show (a.dropHeld id 4).settleHeld = x
    rw [hdrop, State.settleHeld_nil (by rw [hx]), State.sweepBatons_nil (by rw [hx]; exact hbatons)]
  have ht : t = x.greet p := by
    show s.renew p inc = _
    rw [State.renew_known hknown, State.failPeer_nil (s := a) hreqs, hgone, State.dropReplicas_nil (by rw [hx]; exact hctxs) (by rw [hx]; exact hshoots)]
    rfl
  obtain ⟨cores, ports, sm, batons, hg⟩ := x.greet_eq p
  have hpeers : ∀ q, t.peer q = a.peer q := fun q => by
    rw [ht, hg, hx]
    rfl
  refine ⟨by rw [hpeers, State.peer_modPeer_same], by rw [hpeers, State.peer_modPeer_same], fun q hq => by rw [hpeers, s.peer_modPeer_other f hq], ?_⟩
  rw [ht, hg, hx]
  exact ⟨rfl, ⟨_, rfl⟩, fun y hy => by simpa using (List.mem_filter.mp hy).2, rfl, rfl⟩

/-- What was asked of a peer's old incarnation fails (R361). -/
theorem renewFailsRequests (s : State) (p inc id addr : Nat) (r : Req) (use : FarUse) (hknown : (s.peer p).st ≠ .none)
    (hreqs : s.link.reqs = [(id, r)]) (hpeer : r.peer = p) (horigin : r.origin = .far use addr) (hwant : (s.delReq id).wantsFar use = true)
    (hheld : s.link.held = []) (hctxs : s.ctxs = []) (hshoots : s.link.shoots = []) (hbatons : s.link.batons = []) :
    let t := s.renew p inc
    t.link.reqs = [] ∧ t.far = s.far ++ [⟨use, addr, none, 0⟩] := by
  intro t
  let a := s.modPeer p (fun x => { x with st := .up, inc := inc })
  let b := a.delReq id
  let x : State := { b with far := b.far ++ [⟨use, addr, none, 0⟩] }
  have hnone : b.link.reqs = [] := by
    show smDel s.link.reqs id = []
    simp [hreqs, smDel]
  have hwantb : b.wantsFar use = true := hwant
  have hfail : a.failPeer p fRefused = x := by
    have hids : (a.link.reqs.filter (fun e => e.2.peer = p)).map (·.1) = [id] := by
      show (s.link.reqs.filter _).map _ = _
      simp [hreqs, hpeer]
    have hfind : smFind a.link.reqs id = some r := by
      show smFind s.link.reqs id = _
      simp [hreqs, smFind]
    have hreq : a.req id = r := by rw [State.req, hfind]; rfl
    rw [State.failPeer, hids]
    show (if (smFind a.link.reqs id).isSome then a.failReq id fRefused else a) = x
    rw [hfind]
    simp only [Option.isSome_some, if_true, State.failReq, hreq, horigin]
    exact if_pos hwantb
  have ht : t = x.greet p := by
    show s.renew p inc = _
    rw [State.renew_known hknown, hfail, State.dropHeldOf_nil (s := x) hheld hbatons, State.dropReplicas_nil (s := x) hctxs hshoots]
    rfl
  obtain ⟨cores, ports, sm, batons, hg⟩ := x.greet_eq p
  rw [ht, hg]
  exact ⟨hnone, rfl⟩

/-- A link that nothing of this package uses enters DEAD (R359). -/
theorem deadLink (s : State) (p : Nat) (hreqs : ∀ e ∈ s.link.reqs, e.2.peer ≠ p) (hheld : s.link.held = []) (hctxs : s.ctxs = [])
    (hshoots : s.link.shoots = []) (hbatons : s.link.batons = []) :
    let t := s.enterDead p
    (t.peer p).st = .dead ∧ (∀ q, q ≠ p → t.peer q = s.peer q) ∧ t.mem = s.mem ∧ t.gangs = s.gangs := by
  intro t
  let f := fun x : Peer => { x with st := .dead }
  let a := s.modPeer p f
  have ht : t = (a.unlockRemote (peerOwner p)) := by
    show s.enterDead p = _
    rw [State.enterDead]
    show (((((a.failPeer p fDead).failBatonsTo p).settleHeld.dropHeldOf p 1).dropReplicas p).unlockRemote (peerOwner p)).sweepBatons = _
    rw [State.failPeer_nil (s := a) hreqs, State.failBatonsTo_nil (s := a) hbatons, State.settleHeld_nil (s := a) hheld,
      State.sweepBatons_nil (s := a) hbatons, State.dropHeldOf_nil (s := a) hheld hbatons, State.dropReplicas_nil (s := a) hctxs hshoots]
    exact State.sweepBatons_nil (s := a.unlockRemote (peerOwner p)) hbatons
  rw [ht]
  exact ⟨congrArg Peer.st (s.peer_modPeer_same p f), fun q hq => s.peer_modPeer_other f hq, rfl, rfl⟩

theorem peerLinksFollowTheirNotices : Claims.PeerLinksFollowTheirNotices := by
  unfold Claims.PeerLinksFollowTheirNotices
  refine ⟨?_, ?_, renewDropsHeld, renewFailsRequests, ?_, ?_, deadLink⟩
  · intro s m hstage hcrc hports hnone hdst hinc
    let f := fun x : Peer => { x with st := .up, inc := m.srcInc }
    let a := ((s.modPeer m.srcPkg f).modLink (fun l => { l with tags := l.tags.filter (fun t => t.src ≠ m.srcPkg) })).sweepBatons
    have hrun : exec (.incann m) s = .next (a.notice m.srcPkg .incann) := by
      show execIncann m s = _
      have hok : ¬ (m.dstInc ≠ 0 ∧ ¬ m.dstInc = s.link.inc) := by tauto
      have hfirst : s.renew m.srcPkg m.srcInc = a.notice m.srcPkg .incann := by
        rw [State.renew, if_neg (by simp [hnone])]
      rw [← hfirst]
      simp [execIncann, State.linked, hstage, hcrc, hports, hdst, hnone, hok]
    obtain ⟨j, hj⟩ := State.notice_tells (s := a) (p := m.srcPkg) hports
    have hpeer : a.peer m.srcPkg = f (s.peer m.srcPkg) := s.peer_modPeer_same _ f
    rw [hj] at hrun
    have hnoticed : (a.noticeOn j m.srcPkg .incann).peer m.srcPkg = f (s.peer m.srcPkg) := (a.peer_noticeOn j m.srcPkg .incann m.srcPkg).trans hpeer
    have hmem : a.mem = s.mem := rfl
    have hgangs : a.gangs = s.gangs := rfl
    have hinc : a.link.inc = s.link.inc := rfl
    clear_value a
    have htells := a.noticeOn_tells j m.srcPkg .incann
    rw [hinc] at htells
    exact ⟨_, hrun, congrArg Peer.st hnoticed, congrArg Peer.inc hnoticed, ⟨j, _, htells⟩, hmem, hgangs⟩
  · intro s m hstage hcrc hports hdst hinc hknown hnew
    show execIncann m s = _
    have hok : ¬ (m.dstInc ≠ 0 ∧ ¬ m.dstInc = s.link.inc) := by tauto
    have hne : m.srcInc ≠ (s.peer m.srcPkg).inc := fun h => by
      rw [h, newer_self] at hnew
      cases hnew
    simp [execIncann, State.linked, hstage, hcrc, hports, hdst, hknown, hok, hne, hnew]
  · intro s m hstage hcrc hup hsrc hinc hdst
    show execDeadn m s = _
    simp [execDeadn, State.linked, hstage, hcrc, hup, hsrc, hinc, hdst, newer_self]
  · intro s p hst hlate
    show execPeerRecoveryTimeout p s = _
    exact if_pos ((Bool.and_eq_true _ _).mpr ⟨decide_eq_true hst, decide_eq_true hlate⟩)

/-- Settles O47: each message acts through `State.receive`, and a link's renewal and death are followed through what they drop. -/
theorem domainMessages : Obligations.DomainMessages := by
  unfold Obligations.DomainMessages
  exact ⟨shootdownMessagesAct, peerLinksFollowTheirNotices⟩

end Sys2Proof.Machine
end

section
/-! The system class: special registers, marks, the gang's own state and power requests (R237 to R246, R253 to R256, R387, R391). -/

namespace Sys2Proof.Machine

/-- What a system instruction with a true guard does. -/
theorem exec_acts {s : State} {c : Cursor} {i : Instr} {g : Guard} {act : Cursor → State → State} (h : s.issues c i) (hg : s.acts c g = true)
    (meaning : exec i s = sysSlot s i g act) : exec i s = .next (act c s) :=
  meaning.trans (sysSlot_issues act h hg)

theorem State.acts_eq_false {s : State} {c : Cursor} {g : Guard} (h : ∀ l ∈ s.partLanes c, xor (s.readP c l g.p) g.neg = false) :
    s.acts c g = false := by
  have hnone : s.active c g = [] := List.filter_eq_nil_iff.mpr fun l hl => by
    have := h l hl
    simpa [State.guardAt] using this
  simp [State.acts, hnone]

/-- Every instruction of the system class is a system slot (R237). -/
theorem exec_sysSlot {i : Instr} {g : Guard} (h : sysGuard i = some g) (s : State) : ∃ act, exec i s = sysSlot s i g act := by
  cases i <;> simp only [sysGuard, Option.some.injEq, reduceCtorEq] at h
  all_goals
    subst h
    simp only [exec, execSysrd, execSyswr, execTrap, execTret, execMark, execMarkWait, execTrig, execLaunch, execFork, execJoin, execYield,
      execPwracq, execPwrrel, execSprint, execSync, execHwait, execChkm]
    exact ⟨_, rfl⟩

theorem systemGuardFalse : Claims.SystemGuardFalse := by
  unfold Claims.SystemGuardFalse
  intro s c i g hg hissues hfalse
  obtain ⟨act, hact⟩ := exec_sysSlot hg s
  rw [hact, sysSlot_idle act hissues (State.acts_eq_false hfalse)]

/-! Special registers (R239 to R242). -/

theorem specialRegistersRead : Claims.SpecialRegistersRead := by
  unfold Claims.SpecialRegistersRead
  intro s c g n hacts u f
  refine ⟨fun d h => (exec_acts h hacts (by rfl)).trans rfl, fun d h => (exec_acts h hacts (by rfl)).trans rfl, fun l => ?_⟩
  refine ⟨rfl, rfl, rfl, rfl, rfl, rfl, rfl, rfl, rfl, ?_, rfl, fun hp => if_pos hp, rfl, rfl, rfl, rfl, rfl, rfl, fun hl => ?_, rfl, rfl, rfl⟩
  · show u.task.toNat = _
    cases u.task <;> rfl
  · show s.leaseLeft u = 0
    rw [State.leaseLeft, hl]

theorem Gang.landWrite_sys (g : Gang) (t num x m : Nat) : g.landWrite t (.sys num x m) = g.landReg t (.sys num x m) := rfl

/-- The bits of FSTAT after a SYSWR: a fence's bit of the same cycle stays (R242). -/
theorem Gang.testBit_clearFstat (g : Gang) (cyc x : Nat) {k : Nat} (hk : k < 4) :
    (g.clearFstat cyc x).fstat.testBit k
      = (g.fstat.testBit k && (!(x.testBit k) || (if g.fstatSet.1 = cyc then g.fstatSet.2 else 0).testBit k)) := by
  show (maskDiff g.fstat (maskDiff x _) % 2 ^ 4).testBit k = _
  rw [Nat.testBit_mod_two_pow, testBit_maskDiff, testBit_maskDiff]
  simp [hk]

theorem specialRegistersWrite : Claims.SpecialRegistersWrite := by
  unfold Claims.SpecialRegistersWrite
  refine ⟨fun s c g n r hacts h => ?_, fun g t x m => ⟨?_, fun k hk => ?_, fun hset k hk => ?_, fun hset k hk => ?_⟩⟩
  · exact (exec_acts h hacts (by rfl)).trans rfl
  · show BitVec.ofNat 64 (x &&& dmrMask) = _
    rw [BitVec.ofNat_and]
    rfl
  · show ((g.modSlices m (fun k => { k with frame := { k.frame with pc := x } })).slice k).frame.pc = _
    rw [Gang.slice_modSlices hk]
    split <;> rfl
  · show (g.clearFstat (t - 1) x).fstat.testBit k = _
    rw [g.testBit_clearFstat _ _ hk, if_neg hset]
    simp
  · show (g.clearFstat (t - 1) x).fstat.testBit k = _
    rw [g.testBit_clearFstat _ _ hk, if_pos hset]

/-- Settles O35: SYSRD and SYSWR are system slots, and a special register's write lands as `landReg` says. -/
theorem specialRegisters : Obligations.SpecialRegisters := by
  unfold Obligations.SpecialRegisters
  exact ⟨specialRegistersRead, specialRegistersWrite⟩

/-! The gang's own state (R245, R246, R253 to R255). -/

theorem Gang.part_modPart (g : Gang) (k : Nat) (f : Part → Part) (hf : ∀ p, (f p).slices = p.slices) : (g.modPart k f).part k = (g.part k).map f := by
  show (g.parts.map (fun p => if p.slices.testBit k then f p else p)).find? (fun p => p.slices.testBit k) = (g.parts.find? _).map f
  induction g.parts with
  | nil => rfl
  | cons p ps ih =>
    by_cases h : p.slices.testBit k = true
    · simp [h, hf]
    · simp [h, ih]

/-- A hold that marks no lap. -/
def Hold.unmarked : Hold → Bool
  | .marked _ => false
  | _ => true

theorem Gang.unmark_eq (g : Gang) (k : Nat) : g.unmark k = g.modPart k (fun p => { p with holds := p.holds.filter Hold.unmarked }) := rfl

theorem Gang.lapMarked_unmark (g : Gang) (k lap : Nat) : (g.unmark k).lapMarked k lap = false := by
  rw [Gang.lapMarked, Gang.unmark_eq, Gang.part_modPart g k (fun p => { p with holds := p.holds.filter Hold.unmarked }) fun _ => rfl]
  cases g.part k with
  | none => rfl
  | some p => simp [Hold.unmarked]

theorem markTakesItsLap : Claims.MarkTakesItsLap := by
  unfold Claims.MarkTakesItsLap
  intro s c g n hacts lap k
  have hrun : ∀ {i : Instr} {w : Bool}, s.issues c i → exec i s = sysSlot s i g (fun c s => s.markLap c n w) → exec i s = .next (s.markLap c n w) :=
    fun h hi => exec_acts h hacts hi
  refine ⟨fun hmarked i hi h => ?_, fun hnot => ⟨fun h => ?_, fun h => ?_⟩⟩
  · have ht : ∀ w, s.markLap c n w = (s.modGang c.gang (fun x => x.unmark k)).modGroup (s.grp c) (fun x => { x with lap := lap }) :=
      fun w => if_pos hmarked
    obtain ⟨w, hw⟩ : ∃ w, exec i s = .next (s.markLap c n w) := by
      simp only [List.mem_cons, List.not_mem_nil, or_false] at hi
      rcases hi with rfl | rfl
      · exact ⟨false, hrun h rfl⟩
      · exact ⟨true, hrun h rfl⟩
    refine ⟨_, hw, ?_⟩
    rw [ht]
    let a := s.modGang c.gang (fun x => x.unmark k)
    have hsame : s.sameRegs a := s.sameRegs_modGang c.gang (Gang.keepsRegs_refl _)
    refine ⟨fun hg => ?_, ?_, ⟨hsame.1, hsame.2⟩, rfl⟩
    · exact congrArg Group.lap (State.group_modGroup_same (s := a) (fun x => { x with lap := lap }) hg)
    · exact State.gang_modGang_of (P := fun x => x.lapMarked k lap = false) (f := fun x => x.unmark k) rfl (Gang.lapMarked_unmark _ _ _)
  · exact (hrun h rfl).trans (congrArg _ (if_neg (by rw [hnot]; exact Bool.false_ne_true)))
  · exact (hrun h rfl).trans (congrArg _ (if_neg (by rw [hnot]; exact Bool.false_ne_true)))

theorem gangStateInstructions : Claims.GangStateInstructions := by
  unfold Claims.GangStateInstructions
  intro s c g hacts hgang x
  refine ⟨fun h => ?_, fun on h => ?_, fun h => ?_, fun h => ?_⟩
  · let f := fun x : Gang => if x.task || x.trig then x else { x with trig := true, trigUpTo := s.nextId }
    have hsame : s.sameRegs (s.modGang c.gang f) := s.sameRegs_modGang c.gang (by
      dsimp only [f]
      split <;> exact ⟨rfl, rfl, rfl, rfl, rfl, rfl, rfl, rfl, rfl, rfl, rfl, rfl, rfl, rfl, rfl, rfl⟩)
    have hat := s.gang_modGang_same c.gang f hgang
    refine ⟨s.modGang c.gang f, (exec_acts h hacts (by rfl)).trans rfl, fun hno => ?_, fun htask htrig => ?_, hsame, rfl⟩
    · rw [hat]
      exact if_pos (by simpa using hno)
    · have hf : f x = { x with trig := true, trigUpTo := s.nextId } := if_neg (by simp [htask, htrig])
      rw [hat, hf]
      exact ⟨rfl, rfl⟩
  · let f := fun y : Gang => { y with chk := if on then true else y.chk && (s.ctx x.ctx).check }
    have hat := s.gang_modGang_same c.gang f hgang
    refine ⟨s.modGang c.gang f, (exec_acts h hacts (by rfl)).trans rfl, ?_, rfl, ?_⟩
    · rw [hat]
      cases on <;> simp [f, x]
    · rw [hat]
  · let f := fun x : Gang => (x.modCurs c.slices (fun y => { y with edge := true })).modPart (lowSlice c.slices) (fun p =>
      { p with aging := 0, promoted := none, yielded := true })
    have hat := s.gang_modGang_same c.gang f hgang
    refine ⟨s.modGang c.gang f, (exec_acts h hacts (by rfl)).trans rfl, ?_, fun k hk hbit y hy => ?_, s.sameRegs_modGang c.gang (Gang.keepsRegs_refl _), rfl⟩
    · rw [hat]
      rfl
    · rw [hat] at hy
      change ((x.modCurs c.slices (fun y => { y with edge := true })).slice k).curSet = some y at hy
      rw [Gang.modCurs, Gang.slice_modSlices hk, if_pos hbit, Slice.curSet_modCur] at hy
      obtain ⟨z, -, rfl⟩ := Option.map_eq_some_iff.mp hy
      rfl
  · let f := fun y : Gang => { y with curcls := (s.kernelOf c.gang).curclass, inReg := false }
    have hat := s.gang_modGang_same c.gang f hgang
    refine ⟨s.modGang c.gang f, (exec_acts h hacts (by rfl)).trans rfl, ?_⟩
    rw [hat]
    exact ⟨rfl, rfl, rfl, rfl⟩

/-- Settles O38: each instruction is a system slot that changes its gang or its group. -/
theorem gangInstructions : Obligations.GangInstructions := by
  unfold Obligations.GangInstructions
  exact ⟨systemGuardFalse, markTakesItsLap, gangStateInstructions⟩

/-! Power requests (R255, R256, R387, R391). -/

/-- A request that takes its place is in the queue (R387). -/
theorem State.mem_enqueue (s : State) (l : List PwrReq) (r : PwrReq) : r ∈ s.enqueue l r :=
  List.mem_append_right _ List.mem_cons_self

/-- A part that blocks: its current lane sets wait (R117). -/
theorem State.blockPart_curSet {s : State} {c : Cursor} {w : Wait} {j : Nat} {y : LaneSet} (hgang : (smFind s.gangs c.gang).isSome = true)
    (hj : j < (s.gang c.gang).slices.length) (hbit : c.slices.testBit j = true) (hy : (((s.blockPart c w).gang c.gang).slice j).curSet = some y) :
    y.st = w := by
  rw [State.blockPart, State.gang_modGang_same _ _ _ hgang, Gang.modCurs, Gang.slice_modSlices hj, if_pos hbit, Slice.curSet_modCur] at hy
  obtain ⟨z, -, rfl⟩ := Option.map_eq_some_iff.mp hy
  split <;> rfl

/-- Settles O39: PWRACQ takes a class that adds nothing and else waits at the arbiter; SPRINT gives a lease up or asks for one. -/
theorem powerRequests : Obligations.PowerRequests := by
  unfold Obligations.PowerRequests
  intro s c g hacts hgang hdie x
  refine ⟨fun k h => ⟨fun hle => ?_, fun hlt => ?_⟩, fun n h => ⟨fun hz => ?_, fun hnz => ?_⟩⟩
  · have hrun : exec (.pwracq g k) s = .next (s.takeClass c.gang (s.src3 c k)) :=
      (exec_acts h hacts (by rfl)).trans (congrArg _ (if_pos (decide_eq_true hle)))
    refine ⟨_, hrun, ?_⟩
    rw [State.takeClass, s.gang_modGang_same c.gang _ hgang]
    exact ⟨rfl, rfl, rfl⟩
  · let t := ({ s with nextId := s.nextId + 1 } : State).blockPart c (.pwr (s.src3 c k) s.nextId)
    have hrun : exec (.pwracq g k) s = .next (t.askClass c.gang (s.src3 c k) s.nextId) :=
      (exec_acts h hacts (by rfl)).trans (congrArg _ (if_neg (decide_eq_false (not_le.mpr hlt) ▸ Bool.false_ne_true)))
    have hat : t.gang c.gang = x.modCurs c.slices (fun y => if y.st = .run then { y with st := .pwr (s.src3 c k) s.nextId, pc := c.pc, nxt := y.pc }
        else { y with st := .pwr (s.src3 c k) s.nextId }) := State.gang_modGang_same _ _ _ hgang
    have hcore : (t.gang c.gang).core = x.core := by rw [hat]; rfl
    refine ⟨_, hrun, ?_, ?_, fun j hj hbit y hy => State.blockPart_curSet hgang hj hbit hy⟩
    · rw [State.askClass, hcore, State.die_modDie_same (s := t) _ hdie]
      exact t.mem_enqueue _ _
    · show (t.gang c.gang).curcls = _
      rw [hat]
      rfl
  · have hrun : exec (.sprint g n) s = .next (s.modGang c.gang (fun x => { x with leaseEnd := none, leaseCut := none })) :=
      (exec_acts h hacts (by rfl)).trans (congrArg _ (if_pos hz))
    refine ⟨_, hrun, ?_, s.sameRegs_modGang c.gang (Gang.keepsRegs_refl _)⟩
    rw [s.gang_modGang_same c.gang _ hgang]
  · let t := ({ s with nextId := s.nextId + 1 } : State).hold c.gang (lowSlice c.slices) (.sprint s.nextId)
    have hrun : exec (.sprint g n) s = .next (t.askLease c.gang (s.src16 c n) s.nextId) :=
      (exec_acts h hacts (by rfl)).trans (congrArg _ (if_neg hnz))
    have hat : t.gang c.gang = x.modPart (lowSlice c.slices) (fun p => { p with holds := p.holds ++ [.sprint s.nextId] }) :=
      State.gang_modGang_same _ _ _ hgang
    have hcore : (t.gang c.gang).core = x.core := by rw [hat]; rfl
    refine ⟨_, hrun, ?_, ?_, ?_⟩
    · rw [State.askLease, hcore, State.die_modDie_same (s := t) _ hdie]
      exact t.mem_enqueue _ _
    · show (t.gang c.gang).parts = _
      rw [hat]
      rfl
    · exact s.sameRegs_modGang c.gang (f := fun x => x.modPart (lowSlice c.slices) (fun p => { p with holds := p.holds ++ [.sprint s.nextId] }))
        (Gang.keepsRegs_refl _)

end Sys2Proof.Machine
end

section
/-! The commands on a parked group, where the hub's write to the record does not get through (R294, R354). -/

namespace Sys2Proof.Machine

/-- A FAULTED queue with group 0 in slot 0, whose record lies in die 0, on the page that the tables at 0x1000 map there; the next
transaction of the hub's die to another die fails every attempt. -/
def brokenPath : State :=
  { (default : State) with
    dieFails := [hubDie]
    mem := [(0x1000, 1), (0x1001, 0x20), (0x2000, 1), (0x2001, 0x30), (0x3000, 11)]
    ctxs := [(0, { (default : Ctx) with st := .live, root := 0x1000, queues := [(0, { Queue.reset with st := .faulted, slots := [(0, 0)] })] })] }

/-- The failed paths that a step leaves. -/
def stepFails : Host.Outcome State Fault Refusal → Option (List Nat)
  | .next t => some t.dieFails
  | _ => none

/-- The command's write fails on its way, which uses the failure up (R354). -/
theorem brokenPath_used : stepFails (exec (.queueResumeParked 0 0 0 0) brokenPath) = some [] := by decide +kernel

/-- Refutes O49: QCMD 6 on a parked group whose record lies on another die, where the hub's write to it fails every attempt (R354): the write is
dropped, so that the state is not the one in which VALID := 0 has been written. -/
theorem not_queueEvents : ¬ Obligations.QueueEvents := by
  rintro ⟨-, -, hparked, -⟩
  obtain ⟨hhere, -⟩ := hparked brokenPath 0 0 0 0 0 (by decide +kernel) (by decide +kernel) (by decide +kernel) (by decide +kernel)
  obtain ⟨hresume, -⟩ := hhere 0 (by decide +kernel)
  have hused := (congrArg stepFails hresume).symm.trans brokenPath_used
  revert hused
  decide +kernel

end Sys2Proof.Machine
end

section
/-! The end of a launch, where the hub's write of its completion record does not get through (R307, R354, R422). -/

namespace Sys2Proof.Machine

/-- A launch that is ending, whose completion record goes to virtual address 0. -/
def endingLaunch : Launch := { (default : Launch) with st := 3 }

/-- The state of `brokenPath` with one ending launch. -/
def brokenEnd : State := brokenPath.modQueue 0 0 (fun x => { x with launches := [(1, endingLaunch)] })

/-- The byte at an address of memory after a step. -/
def stepByte (a : Nat) : Host.Outcome State Fault Refusal → Option Byte
  | .next t => some (Memory.read t.mem a)
  | _ => none

/-- The record is dropped: memory has no byte of it. -/
theorem brokenEnd_dropped : stepByte 4 (exec (.launchEnd 0 0 1) brokenEnd) = some 0 := by decide +kernel

/-- Refutes O50: LAUNCH_END of a launch whose record lies on another die, where the hub's write of it fails every attempt (R354): the
record is dropped, so that memory does not hold it. -/
theorem not_launchEvents : ¬ Obligations.LaunchEvents := by
  rintro ⟨-, -, hends, -⟩
  obtain ⟨-, t, hrun, hmem, -⟩ := hends brokenEnd 0 0 1 0 endingLaunch (by decide +kernel) (by decide +kernel) (by decide) (by decide) rfl rfl
    (by decide) (by decide +kernel)
  have hbyte : some (Memory.read t.mem 4) = some 0 := (congrArg (stepByte 4) hrun).symm.trans brokenEnd_dropped
  rw [hmem] at hbyte
  revert hbyte
  decide +kernel

end Sys2Proof.Machine
end

section
/-! A restore from an area without groups that still answers with an error: its task deques have no place (R50, R285). -/

namespace Sys2Proof.Machine

/-- A save area at 0x10000 without groups, whose deque image of core 0 holds one record (R284). -/
def dequeArea : Memory := [(0x10000, 1), (0x10001, 1), (0x20000, 1)]

/-- A task deque of a context with one record. -/
def otherDeque (c : Nat) : Deque := { (default : Deque) with ctx := c, recs := [default] }

/-- A package at stage 1 where the deques of core 0 hold records of four contexts, and context number 0 is FREE. -/
def fullDeques : State :=
  (({ State.reset with mem := dequeArea } : State).modDev (fun d => { d with powered := true, stage := 1 })).modCore 0
    (fun k => { k with deques := [otherDeque 1, otherDeque 2, otherDeque 3, otherDeque 4] })

/-- CTX_RESTORE of context 0 from the area. -/
def restoreCmd : List Dword := [4, 0, 0x10000, 0x1000000, 0, 0, 0, 0]

/-- What the hub holds of that restore. -/
def restoreStop : Stop := ⟨false, 0x10000, 0x1000000, 0, 0, [], true⟩

/-- The state of a context after a step. -/
def stepCtx (c : Nat) : Host.Outcome State Fault Refusal → Option CState
  | .next t => some (t.ctx c).st
  | _ => none

/-- The restore fails, and the number is FREE again. -/
theorem fullDeques_restoreFails : stepCtx 0 (exec (.ctxRestore 0 restoreCmd) fullDeques) = some .free := by decide +kernel

/-- What the hub reads of the area's queues (R286). -/
def fullDequesQueues : Option (List (Nat × Queue)) × State :=
  let s := fullDeques.installCtx 0 restoreStop
  s.loadQueues 0 restoreStop (s.keptFor restoreStop) [] []

/-- The queues of the area can be read. -/
theorem fullDequesQueues_read : fullDequesQueues = (some (fullDequesQueues.1.getD []), fullDequesQueues.2) := by
  have hsome : fullDequesQueues.1.isSome = true := by decide +kernel
  exact Prod.ext (Option.some_get hsome ▸ rfl) rfl

/-- Refutes O54: a restore from an area without groups that passes R285's checks and whose queues can be read leaves the number FREE where
the area holds task records for a core whose four deques are other contexts' (R50): the command answers with status 6. -/
theorem not_contextEvents : ¬ Obligations.ContextEvents := by
  rintro ⟨-, -, hrestores, -⟩
  obtain ⟨t, hrun, hlive, -⟩ := hrestores fullDeques 0 restoreCmd (by unfold Claims.ctxCommand; decide +kernel) (by decide) (by decide) rfl
    (by decide +kernel) (by decide) (by decide) (by decide +kernel) _ _ fullDequesQueues_read
  have hst : some (t.ctx 0).st = some CState.free := (congrArg (stepCtx 0) hrun).symm.trans fullDeques_restoreFails
  exact absurd (hlive.symm.trans (Option.some.inj hst)) (by decide)

end Sys2Proof.Machine
end

section
/-! Picks of issuers without slices (R38). -/

namespace Sys2Proof.Machine

/-- An issuer that stands back and has no slices. -/
def sliceless : Issuer := { u := 0, k := 0, prom := none, cls := 0, phys := 0, x := false, yielded := true }

/-- It does not overlap itself: both picks take it. -/
theorem pickTwo_sliceless : pickTwo [sliceless] = [sliceless, sliceless] := by decide

/-- Refutes O41: of an issuer that stands back, is alone, and has no slices, `pickTwo` makes both picks; the second stands back too. -/
theorem not_picksAndReconvergence : ¬ Obligations.PicksAndReconvergence := by
  rintro ⟨⟨-, hpicks, -⟩, -⟩
  obtain ⟨a, rest, hpick, -, -, -, hsecond⟩ := hpicks [sliceless] ⟨sliceless, by decide, .inr rfl⟩
  obtain ⟨-, rfl⟩ := List.cons.inj (pickTwo_sliceless.symm.trans hpick)
  rcases hsecond with ⟨hnil, -⟩ | ⟨b, -, hb, hyield, -⟩
  · exact List.cons_ne_nil _ _ hnil
  · rw [← (List.cons.inj hb).1] at hyield
    exact absurd hyield (by decide)

end Sys2Proof.Machine
end

section
/-! The host makes a page present that a read of the hub waits for (R338, R398). -/

namespace Sys2Proof.Machine

/-- Page 0 of context 0 lies in the host's memory, the host has been asked for it, and the proofer's read of it waits. -/
def askedPage : State :=
  { (default : State) with
    mem := [(0x1000, 1), (0x1001, 0x20), (0x2000, 1), (0x2001, 0x30), (0x3000, 131)]
    pageReqs := [(0, 0)], asks := [(.proof 0, 0, 0)]
    ctxs := [(0, { (default : Ctx) with st := .live, root := 0x1000 })] }

/-- How many reads and writes of the hub wait for a page of the host after a step. -/
def stepAsks : Host.Outcome State Fault Refusal → Option Nat
  | .next t => some t.asks.length
  | _ => none

/-- The page's entry. -/
theorem askedPage_walk : askedPage.walk 0 (0 * 0x10000) = .leaf 131 0 (pageSize 2) := by decide +kernel

/-- The response ends the wait. -/
theorem askedPage_answered : stepAsks (exec (.hostPageResponse 0 0 true) askedPage) = some 0 := by decide +kernel

/-- With no gang and no die, an acknowledgement leaves what the hub waits for (R342). -/
theorem State.ackPage_asks {s : State} (hgangs : s.gangs = []) (hdies : s.dies = []) (c vpage : Nat) : (s.ackPage c vpage).asks = s.asks := by
  simp [State.ackPage, State.everyGangOfCtx, hgangs, hdies, State.pump_nil]

/-- Refutes O43: HOST_PAGE_RESPONSE also ends the waits of the hub's own reads for the page, which the statement leaves as they were. -/
theorem not_walksAndPages : ¬ Obligations.WalksAndPages := by
  rintro ⟨-, -, hresponse, -⟩
  obtain ⟨h, hrun, -⟩ := hresponse askedPage 0 0 131 0 (pageSize 2) (by decide) askedPage_walk (by decide)
  have hasks := (congrArg stepAsks hrun).symm.trans askedPage_answered
  rw [stepAsks, State.ackPage_asks rfl rfl] at hasks
  exact absurd (show askedPage.asks.length = 0 from Option.some.inj hasks) (by decide)

end Sys2Proof.Machine
end

section
/-! Traps and returns from them (R100, R243, R244, R373, R375). -/

namespace Sys2Proof.Machine

/-! Writes that land at once (R100). -/

/-- Landing keeps what is not a register, a latch or a slice's trap frame. -/
theorem Gang.landNow_eq (g : Gang) (now : Nat) (ws : List InFlight) :
    ∃ v b p s k sl d f a l0 l1, g.landNow now ws
      = { g with v := v, badV := b, p := p, s := s, k := k, slices := sl, dmr := d, fstat := f, latchAt := a, l0 := l0, l1 := l1 } := by
  have regs : ∀ (ws : List InFlight) (g : Gang), ∃ v b p s k sl d f, ws.foldl (fun g w => g.landReg (now + 1) w.w) g
      = { g with v := v, badV := b, p := p, s := s, k := k, slices := sl, dmr := d, fstat := f } := by
    intro ws
    induction ws with
    | nil => exact fun g => ⟨_, _, _, _, _, _, _, _, rfl⟩
    | cons w ws ih =>
      intro g
      obtain ⟨_, _, _, _, _, _, _, _, h⟩ := g.landReg_eq (now + 1) w.w
      obtain ⟨_, _, _, _, _, _, _, _, h'⟩ := ih (g.landReg (now + 1) w.w)
      rw [List.foldl_cons, h', h]
      exact ⟨_, _, _, _, _, _, _, _, rfl⟩
  have latches : ∀ (ws : List InFlight) (g : Gang), ∃ a l0 l1, ws.foldl (fun g w => g.landLatch now w.w) g
      = { g with latchAt := a, l0 := l0, l1 := l1 } := by
    intro ws
    induction ws with
    | nil => exact fun g => ⟨_, _, _, rfl⟩
    | cons w ws ih =>
      intro g
      obtain ⟨_, _, _, h⟩ := g.landLatch_eq now w.w
      obtain ⟨_, _, _, h'⟩ := ih (g.landLatch now w.w)
      rw [List.foldl_cons, h', h]
      exact ⟨_, _, _, rfl⟩
  obtain ⟨_, _, _, _, _, _, _, _, h⟩ := regs ws g
  obtain ⟨_, _, _, h'⟩ := latches (ws.foldl (fun l w => insertIssue w l) []) (ws.foldl (fun g w => g.landReg (now + 1) w.w) g)
  rw [Gang.landNow, h', h]
  exact ⟨_, _, _, _, _, _, _, _, _, _, _, rfl⟩

/-- The latches land after the registers and reach none of them. -/
theorem Gang.landNow_regs (g : Gang) (now : Nat) (ws : List InFlight) :
    (g.landNow now ws).s = (ws.foldl (fun g w => g.landReg (now + 1) w.w) g).s
      ∧ (g.landNow now ws).slices = (ws.foldl (fun g w => g.landReg (now + 1) w.w) g).slices := by
  have latches : ∀ (ls : List InFlight) (g : Gang), (ls.foldl (fun g w => g.landLatch now w.w) g).s = g.s
      ∧ (ls.foldl (fun g w => g.landLatch now w.w) g).slices = g.slices := by
    intro ls
    induction ls with
    | nil => exact fun _ => ⟨rfl, rfl⟩
    | cons w ls ih => exact fun g => ⟨(ih _).1.trans (by simp), (ih _).2.trans (by simp)⟩
  exact latches _ _

/-- With no special register among them, writes that land leave the slices. -/
theorem Gang.landNow_slices {g : Gang} {now : Nat} {ws : List InFlight} (h : ∀ w ∈ ws, ∀ n x sl, w.w ≠ .sys n x sl) :
    (g.landNow now ws).slices = g.slices := by
  rw [(g.landNow_regs now ws).2]
  induction ws generalizing g with
  | nil => rfl
  | cons w ws ih =>
    rw [List.foldl_cons, ih (fun e he => h e (List.mem_cons_of_mem _ he))]
    exact (Gang.special_landReg_ne g (now + 1) w.w).2.2 (fun x m => h w List.mem_cons_self 0x19 x m)

/-- A landing write keeps the canonical form of the S registers. -/
theorem Gang.landReg_wf_s (g : Gang) (t : Nat) (w : Write) (h : smWf (0 : Dword) g.s = true) : smWf (0 : Dword) (g.landReg t w).s = true := by
  cases w with
  | s r x => exact smSet_wf 0 r _ h
  | v i r lo hi b => cases hi <;> exact h
  | p i r b => simp only [Gang.landReg, Gang.setP]; split <;> exact h
  | k r x => exact h
  | sys n x m => simp only [Gang.landReg]; split <;> [exact h; split <;> exact h]

/-- An S register takes the value that would have landed last (R100). -/
theorem Gang.sReg_landNow {g : Gang} {now r x : Nat} {fs rest : List InFlight} {f : InFlight} (hwf : smWf (0 : Dword) g.s = true)
    (hf : f.w = .s r x) (hlast : ∀ e ∈ rest, ∀ y, e.w ≠ .s r y) : (g.landNow now (fs ++ f :: rest)).sReg r = x % 2 ^ 64 := by
  have earlier : ∀ (fs : List InFlight) (g : Gang), smWf (0 : Dword) g.s = true →
      smWf (0 : Dword) (fs.foldl (fun g w => g.landReg (now + 1) w.w) g).s = true := by
    intro fs
    induction fs with
    | nil => exact fun _ h => h
    | cons w fs ih => exact fun g h => ih _ (g.landReg_wf_s _ _ h)
  have later : ∀ (rest : List InFlight) (g : Gang), (∀ e ∈ rest, ∀ y, e.w ≠ .s r y) →
      (rest.foldl (fun g w => g.landReg (now + 1) w.w) g).sReg r = g.sReg r := by
    intro rest
    induction rest with
    | nil => exact fun _ _ => rfl
    | cons w rest ih =>
      intro g h
      rw [List.foldl_cons, ih _ (fun e he => h e (List.mem_cons_of_mem _ he))]
      exact g.sReg_landReg_ne _ _ (h w List.mem_cons_self)
  rw [Gang.sReg, (g.landNow_regs now _).1, List.foldl_append, List.foldl_cons]
  refine (later rest _ hlast).trans ?_
  rw [hf]
  show (smGet (0 : Dword) (smSet 0 _ r (BitVec.ofNat 64 x)) r).toNat = _
  rw [smGet_smSet_same (0 : Dword) r _ (earlier fs g hwf), BitVec.toNat_ofNat]

/-- The writes of a part's trap land in the order of the queue. -/
theorem Gang.sReg_landPart {g : Gang} {now m r x : Nat} {fs rest : List InFlight} {f : InFlight} (hwf : smWf (0 : Dword) g.s = true)
    (hfl : g.flight = fs ++ f :: rest) (hf : f.w = .s r x) (hm : f.slices &&& m ≠ 0) (hlast : ∀ e ∈ rest, ∀ y, e.w ≠ .s r y) :
    (g.landPart now m).sReg r = x % 2 ^ 64 := by
  have hpart : f.ofPart m = true := by simp [InFlight.ofPart, hf, hm]
  rw [Gang.landPart, hfl, List.filter_append (p := InFlight.ofPart m), List.filter_cons_of_pos hpart]
  exact Gang.sReg_landNow (g := { g with flight := _ }) hwf hf fun e he => hlast e (List.mem_of_mem_filter he)

/-- All writes of a gang land in the order of the queue. -/
theorem Gang.sReg_landEvery {g : Gang} {now r x : Nat} {fs rest : List InFlight} {f : InFlight} (hwf : smWf (0 : Dword) g.s = true)
    (hfl : g.flight = fs ++ f :: rest) (hf : f.w = .s r x) (hlast : ∀ e ∈ rest, ∀ y, e.w ≠ .s r y) :
    (g.landEvery now).sReg r = x % 2 ^ 64 := by
  rw [Gang.landEvery, hfl]
  exact Gang.sReg_landNow (g := { g with flight := _ }) hwf hf hlast

/-- No write is in flight once all have landed. -/
theorem Gang.landEvery_flight (g : Gang) (now : Nat) : (g.landEvery now).flight = [] := by
  obtain ⟨_, _, _, _, _, _, _, _, _, _, _, h⟩ := Gang.landNow_eq { g with flight := [] } now g.flight
  rw [Gang.landEvery, h]

/-! Captured latches (R373, R375). -/

/-- The lanes of a slice. -/
def sliceLanes (k : Nat) : List Nat := (List.range 8).map (fun j => 8 * k + j)

theorem mem_sliceLanes {k j : Nat} : j ∈ sliceLanes k ↔ j / 8 = k := by
  simp only [sliceLanes, List.mem_map, List.mem_range]
  exact ⟨fun ⟨i, hi, e⟩ => by omega, fun h => ⟨j % 8, by omega, by omega⟩⟩

/-- The words of some lanes copied from one file to another. -/
def copyLanes (src dst : List (Nat × Word)) (l : List Nat) : List (Nat × Word) := l.foldl (fun d i => smSet 0 d i (smGet 0 src i)) dst

theorem smGet_copyLanes (src : List (Nat × Word)) (l : List Nat) {dst : List (Nat × Word)} (h : smWf (0 : Word) dst = true) (j : Nat) :
    smGet (0 : Word) (copyLanes src dst l) j = if j ∈ l then smGet 0 src j else smGet 0 dst j := by
  induction l generalizing dst with
  | nil => simp [copyLanes]
  | cons i l ih =>
    rw [copyLanes, List.foldl_cons, ← copyLanes, ih (smSet_wf 0 i _ h)]
    by_cases hij : j = i
    · subst hij
      rw [smGet_smSet_same (0 : Word) j _ h]
      simp
    · rw [smGet_smSet_other (0 : Word) i j _ h hij]
      simp [hij]

/-- Capturing the latches of slices copies those of their lanes. -/
theorem Gang.captureLatches_fold (ks : List Nat) (g : Gang) :
    ks.foldl Gang.captureLatches g = { g with c0 := copyLanes g.l0 g.c0 (ks.flatMap sliceLanes), c1 := copyLanes g.l1 g.c1 (ks.flatMap sliceLanes) } := by
  have lanes : ∀ (k : Nat) (js : List Nat) (g : Gang), js.foldl (fun g j =>
      let i := 8 * k + j
      { g with c0 := smSet 0 g.c0 i (smGet 0 g.l0 i), c1 := smSet 0 g.c1 i (smGet 0 g.l1 i) }) g
        = { g with c0 := copyLanes g.l0 g.c0 (js.map (8 * k + ·)), c1 := copyLanes g.l1 g.c1 (js.map (8 * k + ·)) } := by
    intro k js
    induction js with
    | nil => exact fun _ => rfl
    | cons j js ih => exact fun g => (ih _).trans rfl
  induction ks generalizing g with
  | nil => rfl
  | cons k ks ih =>
    rw [List.foldl_cons, Gang.captureLatches, lanes, ih]
    simp [copyLanes, sliceLanes, List.foldl_append]

/-- Restoring the latches of slices copies the captured ones of their lanes. -/
theorem Gang.restoreLatches_fold (ks : List Nat) (g : Gang) :
    ks.foldl Gang.restoreLatches g = { g with l0 := copyLanes g.c0 g.l0 (ks.flatMap sliceLanes), l1 := copyLanes g.c1 g.l1 (ks.flatMap sliceLanes) } := by
  have lanes : ∀ (k : Nat) (js : List Nat) (g : Gang), js.foldl (fun g j =>
      let i := 8 * k + j
      { g with l0 := smSet 0 g.l0 i (smGet 0 g.c0 i), l1 := smSet 0 g.l1 i (smGet 0 g.c1 i) }) g
        = { g with l0 := copyLanes g.c0 g.l0 (js.map (8 * k + ·)), l1 := copyLanes g.c1 g.l1 (js.map (8 * k + ·)) } := by
    intro k js
    induction js with
    | nil => exact fun _ => rfl
    | cons j js ih => exact fun g => (ih _).trans rfl
  induction ks generalizing g with
  | nil => rfl
  | cons k ks ih =>
    rw [List.foldl_cons, Gang.restoreLatches, lanes, ih]
    simp [copyLanes, sliceLanes, List.foldl_append]

/-! Entering and leaving the handler. -/

/-- What a slice of a part keeps and where it goes on as the part enters the handler (R373). -/
def Slice.enterHandler (laq cause info tpc handler ready : Nat) (x : Slice) : Slice :=
  { x.modCur (fun y => { y with loops := [], pc := handler, nxt := handler, inh := true, ready := ready, st := .run, jumped := true }) with
    frame := { cause := cause, pc := tpc, info := info, valid := true, capLdq := x.ldq.length, capLaq := laq,
               flags := x.flags.ended
               loops := (match x.curSet with | none => [] | some y => y.loops) }
    ldq := (x.modCur (fun y => { y with loops := [], pc := handler, nxt := handler, inh := true, ready := ready, st := .run, jumped := true })).ldq.map
      (fun e => { e with cap := true }) }

/-- A slice of a gang that enters the handler. -/
theorem Gang.slice_enterHandler {g : Gang} {now m cause info tpc handler ready k : Nat} (hk : k < g.slices.length)
    (hsys : ∀ w ∈ g.flight, ∀ n x sl, w.w ≠ .sys n x sl) :
    ∃ laq, (g.enterHandler now m cause info tpc handler ready).slice k
      = if m.testBit k then (g.slice k).enterHandler laq cause info tpc handler ready else g.slice k := by
  have hslices : ((bitsOf 8 m).foldl Gang.captureLatches (g.landPart now m)).slices = g.slices := by
    rw [Gang.captureLatches_fold]
    exact Gang.landNow_slices (g := { g with flight := _ }) fun w hw => hsys w (List.mem_of_mem_filter hw)
  refine ⟨((bitsOf 8 m).foldl Gang.captureLatches (g.landPart now m)).laqCount k, ?_⟩
  simp only [Gang.enterHandler, Gang.slice, List.getD_eq_getElem?_getD, List.getElem?_mapIdx, hslices, List.getElem?_eq_getElem hk,
    Option.map_some, Option.getD_some]
  split <;> rfl

/-- The registers, the latches and what is in flight as a part enters the handler. -/
theorem Gang.enterHandler_eq (g : Gang) (now m cause info tpc handler ready : Nat) :
    ∃ sl, g.enterHandler now m cause info tpc handler ready = { g.landPart now m with
      slices := sl, c0 := copyLanes (g.landPart now m).l0 (g.landPart now m).c0 ((bitsOf 8 m).flatMap sliceLanes)
      c1 := copyLanes (g.landPart now m).l1 (g.landPart now m).c1 ((bitsOf 8 m).flatMap sliceLanes) } := by
  rw [Gang.enterHandler, Gang.captureLatches_fold]
  exact ⟨_, rfl⟩

theorem trapEntersTheHandler : Claims.TrapEntersTheHandler := by
  refine ⟨?_, ?_, ?_⟩
  · intro s c g code hg h k hhandler hout htarget
    refine (exec_acts h hg (by rfl)).trans (congrArg _ ?_)
    show State.trap _ _ _ _ _ _ _ _ = _
    rw [State.trap, if_neg (by simp [hout]; exact hhandler), if_neg (by simpa using htarget)]
  · intro g now m cause info pc handler ready k y hm hk hk8 hsys hy hc0 hc1 h f
    obtain ⟨laq, hslice⟩ := Gang.slice_enterHandler (now := now) (m := m) (cause := cause) (info := info) (tpc := pc) (handler := handler)
      (ready := ready) hk hsys
    rw [if_pos hm] at hslice
    obtain ⟨_, hgang⟩ := g.enterHandler_eq now m cause info pc handler ready
    obtain ⟨_, _, _, _, _, _, _, _, _, _, _, hland⟩ :=
      Gang.landNow_eq { g with flight := g.flight.filter (fun w => !(w.ofPart m)) } now (g.flight.filter (InFlight.ofPart m))
    have hland : g.landPart now m = _ := hland
    have hlanes : ∀ j, j / 8 = k → j ∈ (bitsOf 8 m).flatMap sliceLanes := fun j hj =>
      List.mem_flatMap.mpr ⟨k, mem_bitsOf.mpr ⟨hk8, hm⟩, mem_sliceLanes.mpr hj⟩
    have hc : (g.landPart now m).c0 = g.c0 ∧ (g.landPart now m).c1 = g.c1 ∧ (g.landPart now m).accs = g.accs
        ∧ (g.landPart now m).flight = g.flight.filter (fun w => !(w.ofPart m)) := by rw [hland]; exact ⟨rfl, rfl, rfl, rfl⟩
    obtain ⟨h0, h1, haccs, hflight⟩ := hc
    simp only [f, h]
    refine ⟨by rw [hslice]; rfl, by rw [hslice]; rfl, by rw [hslice]; rfl, by rw [hslice]; rfl, ?_, by rw [hslice]; rfl, ?_, ?_, ?_, ?_, ?_, ?_, ?_⟩
    · rw [hslice]; simp only [Slice.enterHandler, hy]
    · rw [hslice]
      exact (Slice.curSet_modCur _ _).trans (by rw [hy]; rfl)
    · rw [hslice]
      intro e he
      obtain ⟨_, _, rfl⟩ := List.mem_map.mp he
      rfl
    · intro w hw
      rw [hgang] at hw
      obtain ⟨hmem, hout⟩ := List.mem_filter.mp (hflight ▸ hw : w ∈ g.flight.filter _)
      exact ⟨hmem, by simpa using hout⟩
    · intro j hj
      rw [hgang]
      exact ⟨by rw [smGet_copyLanes _ _ (by rw [h0]; exact hc0), if_pos (hlanes j hj)],
        by rw [smGet_copyLanes _ _ (by rw [h1]; exact hc1), if_pos (hlanes j hj)]⟩
    · intro j hj hmj
      obtain ⟨_, hj'⟩ := Gang.slice_enterHandler (now := now) (m := m) (cause := cause) (info := info) (tpc := pc) (handler := handler)
        (ready := ready) hj hsys
      rw [hj', if_neg (by simp [hmj])]
    · rw [hgang]; exact haccs
    · rw [hgang]; exact ⟨rfl, rfl, rfl, rfl, rfl, rfl, rfl, rfl, rfl⟩
  · intro g now m r x fs f rest hwf hfl hf hm hlast
    exact Gang.sReg_landPart hwf hfl hf hm hlast

theorem trapWithoutAHandlerParks : Claims.TrapWithoutAHandlerParks := by
  intro s c g code hg h hno
  refine (exec_acts h hg (by rfl)).trans (congrArg _ ?_)
  show State.trap _ _ _ _ _ _ _ _ = _
  rw [State.trap, if_pos (by simpa using hno)]

/-- Where a slice goes on as its part leaves the handler (R375). -/
def Slice.leaveHandler (x : Slice) : Slice :=
  let x := x.modCur (fun y => { y with loops := x.frame.loops, pc := x.frame.pc, nxt := x.frame.pc, inh := false, jumped := true })
  { x with
    frame := { x.frame with valid := x.sets.any (fun e => e.2.inh) }
    ldq := x.ldq.map (fun e => { e with cap := false }) }

/-- What a part changes as it leaves the handler. -/
theorem Gang.leaveHandler_eq (g : Gang) (m : Nat) : ∃ ps, g.leaveHandler m = { g.modSlices m Slice.leaveHandler with
    parts := ps, l0 := copyLanes g.c0 g.l0 ((bitsOf 8 m).flatMap sliceLanes), l1 := copyLanes g.c1 g.l1 ((bitsOf 8 m).flatMap sliceLanes) } := by
  rw [Gang.leaveHandler, Gang.restoreLatches_fold]
  exact ⟨_, rfl⟩

theorem tretRestores : Claims.TretRestores := by
  refine ⟨fun s c g hg h => exec_acts h hg (by rfl), ?_⟩
  intro g m k y hm hk hk8 hy hl0 hl1 h
  obtain ⟨ps, heq⟩ := g.leaveHandler_eq m
  have hslice : ∀ j < g.slices.length, (g.leaveHandler m).slice j = if m.testBit j then (g.slice j).leaveHandler else g.slice j := by
    intro j hj
    rw [heq]
    exact Gang.slice_modSlices hj m Slice.leaveHandler
  have hlanes : ∀ j, j / 8 = k → j ∈ (bitsOf 8 m).flatMap sliceLanes := fun j hj =>
    List.mem_flatMap.mpr ⟨k, mem_bitsOf.mpr ⟨hk8, hm⟩, mem_sliceLanes.mpr hj⟩
  have hown := (hslice k hk).trans (if_pos hm)
  refine ⟨?_, ?_, ?_, ?_, ?_⟩
  · show ((g.leaveHandler m).slice k).curSet = _
    rw [hown]
    exact (Slice.curSet_modCur _ _).trans (by rw [hy]; rfl)
  · show ∀ e ∈ ((g.leaveHandler m).slice k).ldq, _
    rw [hown]
    intro e he
    obtain ⟨_, _, rfl⟩ := List.mem_map.mp he
    rfl
  · intro j hj
    simp only [h, heq]
    exact ⟨by rw [smGet_copyLanes _ _ hl0, if_pos (hlanes j hj)], by rw [smGet_copyLanes _ _ hl1, if_pos (hlanes j hj)]⟩
  · intro j hj hmj
    exact (hslice j hj).trans (if_neg (by simp [hmj]))
  · simp only [h, heq]
    exact ⟨rfl, rfl, rfl, rfl⟩

/-- Settles O36: a trap enters the handler or parks its group, and TRET restores what the handler's entry captured. -/
theorem trapsAndReturns : Obligations.TrapsAndReturns := ⟨trapEntersTheHandler, trapWithoutAHandlerParks, tretRestores⟩

end Sys2Proof.Machine
end

section
/-! System faults, and the checks that precede a bundle (R298, R311, R317, R372). -/

namespace Sys2Proof.Machine

/-! Parking. -/

/-- A gang that stops in cycle `now`: its writes land, unless its bundle is issuing (R100, R117, R317). -/
def Gang.stopIn (issuing : Bool) (now : Nat) (g : Gang) : Gang :=
  let y := if issuing then g else g.landEvery now
  { y with stopped := some (y.stopped.getD now) }

/-- Nothing that all writes in flight do is left to do. -/
theorem Gang.landEvery_landed {g : Gang} (h : g.flight = []) (now : Nat) : g.landEvery now = g := by
  have hself : { g with flight := [] } = g := by rw [← h]
  rw [Gang.landEvery, hself, h]
  rfl

/-- Landing keeps a gang's core and the cycle in which it stopped. -/
theorem Gang.landEvery_core (g : Gang) (now : Nat) : (g.landEvery now).core = g.core ∧ (g.landEvery now).stopped = g.stopped := by
  obtain ⟨_, _, _, _, _, _, _, _, _, _, _, h⟩ := Gang.landNow_eq { g with flight := [] } now g.flight
  rw [Gang.landEvery, h]
  exact ⟨rfl, rfl⟩

theorem Gang.stopIn_core (issuing : Bool) (now : Nat) (g : Gang) : (g.stopIn issuing now).core = g.core := by
  cases issuing <;> [exact (g.landEvery_core now).1; rfl]

theorem Gang.stopIn_eq (issuing : Bool) (now : Nat) (g : Gang) :
    g.stopIn issuing now = { (if issuing then g else g.landEvery now) with stopped := some (g.stopped.getD now) } := by
  cases issuing with
  | true => rfl
  | false =>
    show ({ g.landEvery now with stopped := some ((g.landEvery now).stopped.getD now) } : Gang) = _
    rw [(g.landEvery_core now).2]
    rfl

/-- A gang that has stopped stops once. -/
theorem Gang.stopIn_stopIn (issuing : Bool) (now : Nat) (g : Gang) : (g.stopIn issuing now).stopIn issuing now = g.stopIn issuing now := by
  cases issuing with
  | true => rfl
  | false =>
    have hflight : (g.stopIn false now).flight = [] := g.landEvery_flight now
    have hland := Gang.landEvery_landed hflight now
    show { (g.stopIn false now).landEvery now with stopped := some (((g.stopIn false now).landEvery now).stopped.getD now) } = _
    rw [hland]
    rfl

/-- Whether a gang's bundle is issuing. -/
def State.issuing (s : State) (u : Nat) : Bool := s.cur.any (fun z => z.gang = u)

/-- Stopping changes the gangs alone. -/
theorem State.stopNow_fold (l : List Nat) (s : State) : ∃ gs, l.foldl State.stopNow s = { s with gangs := gs } := by
  induction l generalizing s with
  | nil => exact ⟨_, rfl⟩
  | cons u l ih =>
    obtain ⟨gs, h⟩ := ih (s.stopNow u)
    exact ⟨gs, h.trans rfl⟩

/-- A gang's core runs on its own cycles, whatever gangs there are. -/
theorem State.cyc_gangs (s : State) (gs : List (Nat × Gang)) (core : Nat) : { s with gangs := gs }.cyc core = s.cyc core := rfl

/-- Stopping gangs stops each of them and no other. -/
theorem State.gang_stopNow_fold (l : List Nat) (s : State) (hl : ∀ u ∈ l, (smFind s.gangs u).isSome = true) (v : Nat) :
    (l.foldl State.stopNow s).gang v = if v ∈ l then (s.gang v).stopIn (s.issuing v) (s.cyc (s.gang v).core) else s.gang v := by
  induction l generalizing s with
  | nil => simp
  | cons u l ih =>
    have hu := hl u List.mem_cons_self
    have hnext : (s.stopNow u).gang u = (s.gang u).stopIn (s.issuing u) (s.cyc (s.gang u).core) := State.gang_modGang_same _ _ _ hu
    have hrest : ∀ w ∈ l, (smFind (s.stopNow u).gangs w).isSome = true := fun w hw =>
      isSome_smMod u (Gang.stopIn (s.issuing u) (s.cyc (s.gang u).core)) (hl w (List.mem_cons_of_mem _ hw))
    rw [List.foldl_cons, ih (s.stopNow u) hrest]
    by_cases huv : v = u
    · subst huv
      have hcyc : (s.stopNow v).cyc ((s.gang v).stopIn (s.issuing v) (s.cyc (s.gang v).core)).core = s.cyc (s.gang v).core := by
        rw [Gang.stopIn_core]
        rfl
      rw [hnext, hcyc, show (s.stopNow v).issuing v = s.issuing v from rfl, Gang.stopIn_stopIn]
      simp
    · have hother : (s.stopNow u).gang v = s.gang v := State.gang_modGang_other _ _ _ _ huv
      rw [hother]
      simp only [List.mem_cons, huv, false_or]
      rfl

theorem isSome_smFind_of_mem {α : Type} {m : List (Nat × α)} {e : Nat × α} (h : e ∈ m) : (smFind m e.1).isSome = true := by
  induction m with
  | nil => cases h
  | cons a m ih =>
    rw [smFind]
    rcases List.mem_cons.mp h with rfl | h
    · simp
    · split
      · rfl
      · exact ih h

/-- The gangs of a group are there. -/
theorem State.isSome_of_gangsOf {s : State} {g u : Nat} (h : u ∈ s.gangsOf g) : (smFind s.gangs u).isSome = true := by
  obtain ⟨e, he, rfl⟩ := List.mem_map.mp h
  exact isSome_smFind_of_mem (List.mem_of_mem_filter he)

/-- A group as it parks. -/
def Group.parks (f : FaultRec) (x : Group) : Group := { x with st := .parked, from_ := x.st, fault := some f, barred := true }

/-- What parking a group that has not parked does (R311, R317). -/
theorem State.park_eq {s : State} {g : Nat} {f : FaultRec} (h : (s.group g).st = .resident ∨ (s.group g).st = .draining) :
    s.park g f = ((s.gangsOf g).foldl State.stopNow
      (s.modGroup g (Group.parks f))).modQueue (s.group g).ctx (s.group g).q
        (fun q => { q with waiting := q.waiting ++ [g] }) := by
  rcases h with h | h <;> simp only [State.park, h] <;> rfl

theorem State.park_acts {s : State} {g : Nat} {f : FaultRec} (hg : (smFind s.groups g).isSome = true)
    (h : (s.group g).st = .resident ∨ (s.group g).st = .draining) :
    (s.park g f).group g = (s.group g).parks f
      ∧ (∀ v, (s.park g f).gang v = if v ∈ s.gangsOf g then (s.gang v).stopIn (s.issuing v) (s.cyc (s.gang v).core) else s.gang v)
      ∧ ((smFind s.ctxs (s.group g).ctx).isSome = true → g ∈ ((s.park g f).queue (s.group g).ctx (s.group g).q).waiting)
      ∧ (∀ k, k ≠ g → (s.park g f).group k = s.group k) ∧ (s.park g f).mem = s.mem ∧ (s.park g f).dev = s.dev := by
  obtain ⟨gs, hgs⟩ := State.stopNow_fold (s.gangsOf g)
    (s.modGroup g (Group.parks f))
  have hgang := State.gang_stopNow_fold (s.gangsOf g)
    (s.modGroup g (Group.parks f)) (fun u hu => State.isSome_of_gangsOf hu)
  rw [hgs] at hgang
  rw [State.park_eq h, hgs]
  refine ⟨State.group_modGroup_same (Group.parks f) hg, hgang, ?_, fun k hk => s.group_modGroup_other (Group.parks f) hk, rfl, rfl⟩
  intro hctx
  refine (congrArg (fun q : Queue => g ∈ q.waiting) (State.queue_modQueue_same (s := { s.modGroup g (Group.parks f) with gangs := gs })
    (fun q => { q with waiting := q.waiting ++ [g] }) hctx)).mpr ?_
  exact List.mem_append_right _ List.mem_cons_self

/-- Lane sets that go on at a regang bundle wait there: no register changes. -/
theorem State.sameRegs_arriveCurs (s : State) (u m : Nat) : s.sameRegs (s.arriveCurs u m) := by
  refine s.sameRegs_modGang u ?_
  obtain ⟨_, _, sl, ps, hsl⟩ := Gang.settleSlices_frame (bitsOf 8 m) (Gang.modCurs (s.gang u)
    (maskOf ((bitsOf 8 m).filter (fun k => !((s.gang u).held k))))
    (fun y => if y.st = .run && s.isRegang (s.gang u).ctx y.pc then { y with st := .regang } else y))
  rw [Gang.settle, hsl]
  exact Gang.keepsRegs_lanes _ _ _

theorem State.sameRegs_arriveSets (s : State) (u : Nat) (new : LaneSet → Bool) : s.sameRegs (s.arriveSets u new) :=
  s.sameRegs_modGang u (Gang.keepsRegs_lanes _ _ _)

/-- At a bundle's end the writes of a gang that stops land, and no other register changes. -/
theorem State.sameRegs_finish {s : State} {c : Cursor} (hc : s.cur = some c) (hstop : (s.gang c.gang).stopped.isSome = true) :
    (s.modGang c.gang (fun g => g.landEvery c.cyc)).sameRegs s.finish := by
  have hland : (if (s.gang c.gang).stopped.isSome then s.modGang c.gang (fun g => g.landEvery c.cyc) else s)
      = s.modGang c.gang (fun g => g.landEvery c.cyc) := if_pos hstop
  simp only [State.finish, hc, hland]
  have divided : ∀ t : State, t.sameRegs { t.modGang c.gang (fun g => g.repart c.slices) with cur := none } := fun t =>
    State.sameRegs_trans (t.sameRegs_modGang c.gang (f := fun g => g.repart c.slices) (Gang.keepsRegs_lanes _ _ _)) (State.sameRegs_of_gangs rfl rfl)
  exact State.sameRegs_trans (State.sameRegs_arriveSets _ _ _) (State.sameRegs_trans (State.sameRegs_arriveCurs _ _ _) (divided _))

theorem systemFaultParksTheGroup : Claims.SystemFaultParksTheGroup := by
  refine ⟨?_, ?_, ?_⟩
  · intro s u cause pc addr detail g x hg hst t
    obtain ⟨hgroup, hgang, hqueue, hgroups, hmem, hdev⟩ := State.park_acts (f :=
      ⟨x.seq, cause, x.index, x.core, (s.gang u).idx, pc, addr, detail, s.timens⟩) hg hst
    refine ⟨congrArg (·.st) hgroup, congrArg (·.from_) hgroup, congrArg (·.fault) hgroup, ?_, hqueue, hgroups, ?_, hmem, hdev⟩
    · exact fun v hv => ((hgang v).trans (if_pos hv)).trans (Gang.stopIn_eq _ _ _)
    · exact fun v hv => (hgang v).trans (if_neg hv)
  · intro s c hc hstop l h
    have hne : s.gang c.gang ≠ default := fun e => absurd (e ▸ hstop) (by decide)
    have hgang : (s.modGang c.gang (fun g => g.landEvery c.cyc)).gang c.gang = l := State.gang_modGang_same _ _ _ (State.hasGang_of_ne hne)
    obtain ⟨hv, hp, hl0, hl1, -, -, -, hs, hk, hdmr, hfstat, -, -, -, -, hflight⟩ := hgang ▸ (State.sameRegs_finish hc hstop).2 c.gang
    exact ⟨hflight.trans (Gang.landEvery_flight _ _), hv, hp, hs, hk, hl0, hl1, hdmr, hfstat⟩
  · intro g now r x fs f rest hwf hfl hf hlast
    exact ⟨Gang.sReg_landEvery hwf hfl hf hlast, g.landEvery_flight now⟩

/-! The checks before a bundle (R372). -/

/-- A check that finds something stops the instruction. -/
theorem exec_stopped {s : State} {c : Cursor} {i : Instr} {t : State} (act : Cursor → State → State) (hc : s.cur = some c)
    (hchecked : c.checked = false) (meaning : exec i s = slot s i act) (hpre : s.pre c i = some t) : exec i s = .next t := by
  rw [meaning, slot, hc]
  simp [hchecked, hpre]

/-- Outside the check mode, the checks of a control instruction are those of its operands. -/
theorem State.pre_control {s : State} {c : Cursor} {i : Instr} (hmode : s.checks c = false) (hm : s.memChecks c i = none)
    (hx : s.xChecks c i = none) : s.pre c i = s.cChecks c i := by
  have hcheck : s.checkMode c i = none := if_neg (by simp [hmode])
  rw [State.pre, hcheck, hm, hx]
  cases s.cChecks c i <;> rfl

/-- What stops a control instruction's operands stops it. -/
theorem exec_stopped_control {s : State} {c : Cursor} {i : Instr} {g : Guard} {act : Cursor → State → State} {b : Bool} {t : State}
    (hc : s.cur = some c) (hchecked : c.checked = false) (hmode : s.checks c = false) (meaning : exec i s = sysSlot s i g act)
    (hm : s.memChecks c i = none) (hx : s.xChecks c i = none) (hcheck : s.cChecks c i = stopIf b t) (hb : b = true) : exec i s = .next t := by
  refine exec_stopped _ hc hchecked meaning ?_
  rw [State.pre_control hmode hm hx, hcheck, hb]
  rfl

theorem checksStopTheBundle : Claims.ChecksStopTheBundle := by
  intro s c g hc hchecked hmode hg stops
  have stop : ∀ {i : Instr} {act : Cursor → State → State} {b : Bool} {t : State}, exec i s = sysSlot s i g act → s.memChecks c i = none →
      s.xChecks c i = none → s.cChecks c i = stopIf b t → b = true → exec i s = .next t :=
    fun meaning hm hx => exec_stopped_control hc hchecked hmode meaning hm hx
  refine ⟨?_, ?_, ?_, ?_, ?_, ?_, ?_, ?_⟩
  · intro hout
    exact stop (by rfl) rfl rfl rfl (by simp [hg, hout])
  · intro n hlap
    have hbad : (s.acts c g && (0xFFFF < s.src16 c n || s.src16 c n < (s.group (s.grp c)).lap)) = true := by
      have : 0xFFFF < s.src16 c n ∨ s.src16 c n < (s.group (s.grp c)).lap := hlap.symm
      simp only [hg, Bool.true_and, Bool.or_eq_true, decide_eq_true_eq]
      exact this
    exact ⟨stop (by rfl) rfl rfl rfl hbad, stop (by rfl) rfl rfl rfl hbad⟩
  · intro harm
    exact stop (by rfl) rfl rfl rfl (by simp [hg, harm])
  · intro harm
    exact stop (by rfl) rfl rfl rfl (by simp [hg, harm])
  · intro d q p hp
    exact stop (by rfl) rfl rfl rfl (by simp [hg, hp])
  · intro r hr
    exact stop (by rfl) rfl rfl rfl (by simp [hg, State.src3, hr])
  · intro r hr
    exact stop (by rfl) rfl rfl rfl (by simp [hg, State.src16, hr])
  · intro o l hl hfar
    have hmode' : s.checkMode c (.stsp o) = none := if_neg (by simp [hmode])
    have hbounds : s.laneBounds c (s.addrs c o.g o.at_ o.off.toInt) (Machine.sizeOf o.ty)
        = some (s.boundsTrap c 0 l (max (s.ea c o.at_ o.off.toInt l) (s.spad c))) := by
      simp [State.laneBounds, State.addrs, hl, hfar]
    have haccess : s.memChecks c (.stsp o) = some (s.boundsTrap c 0 l (max (s.ea c o.at_ o.off.toInt l) (s.spad c))) := by
      rw [State.memChecks, State.accessChecks, if_pos rfl, hbounds]
      rfl
    have hpre : s.pre c (.stsp o) = some (s.boundsTrap c 0 l (max (s.ea c o.at_ o.off.toInt l) (s.spad c))) := by
      rw [State.pre, hmode', haccess]
      rfl
    obtain ⟨act, meaning⟩ : ∃ act, exec (.stsp o) s = slot s (.stsp o) act :=
      ⟨_, (show exec (.stsp o) s = execStsp o s from rfl).trans (by rw [execStsp])⟩
    exact ⟨_, exec_stopped act hc hchecked meaning hpre⟩

/-- Settles O37: a system fault parks its group with its gangs' writes landed, and the checks of R372 stop a bundle before it acts. -/
theorem faultsAndChecks : Obligations.FaultsAndChecks := ⟨systemFaultParksTheGroup, checksStopTheBundle⟩

end Sys2Proof.Machine
end

section
/-! Barriers: arrival, the completion test and the release (R46, R320, R324, R325, R329, R330). -/

namespace Sys2Proof.Machine

/-- Where a barrier's record stands: its group or its context is there. -/
def State.hasBar (s : State) : BarRef → Bool
  | .grp g _ => (smFind s.groups g).isSome
  | .clu c _ _ | .dev c _ => (smFind s.ctxs c).isSome

/-- In a table without two entries of one key, an entry is the one that its key finds. -/
theorem smFind_of_mem {α : Type} {m : List (Nat × α)} {i : Nat} {x : α} (hkeys : (m.map (·.1)).Nodup) (h : (i, x) ∈ m) : smFind m i = some x := by
  induction m with
  | nil => cases h
  | cons a m ih =>
    obtain ⟨hnew, hkeys⟩ := List.nodup_cons.mp hkeys
    rw [smFind]
    rcases List.mem_cons.mp h with rfl | h
    · simp
    · have hne : a.1 ≠ i := fun e => hnew (List.mem_map.mpr ⟨(i, x), h, e.symm⟩)
      rw [if_neg (by simpa using hne)]
      exact ih hkeys h

/-- A barrier's record reads what was written. -/
theorem State.bar_modBar {s : State} {b : BarRef} (f : Bar → Bar) (h : s.hasBar b = true) : (s.modBar b f).bar b = f (s.bar b) := by
  cases b with
  | grp g n =>
    have hgroup : (s.modBar (.grp g n) f).group g = _ := State.group_modGroup_same _ h
    simp only [State.bar, hgroup, smFind_smPut_same]
    rfl
  | clu c k n =>
    have hctx : (s.modBar (.clu c k n) f).ctx c = _ := State.ctx_modCtx_same _ h
    simp only [State.bar, hctx, smFind_smPut_same]
    rfl
  | dev c n =>
    have hctx : (s.modBar (.dev c n) f).ctx c = _ := State.ctx_modCtx_same _ h
    simp only [State.bar, hctx, smFind_smPut_same]
    rfl

/-- A barrier's record lies in the groups and the contexts. -/
theorem State.bar_of_tables {s t : State} (hgroups : t.groups = s.groups) (hctxs : t.ctxs = s.ctxs) (b : BarRef) : t.bar b = s.bar b := by
  cases b <;> simp only [State.bar, State.group, State.ctx, hgroups, hctxs]

/-- Writing a barrier's record changes no gang, no cluster and no memory. -/
theorem State.modBar_frame (s : State) (b : BarRef) (f : Bar → Bar) :
    (s.modBar b f).gangs = s.gangs ∧ (s.modBar b f).mem = s.mem ∧ (s.modBar b f).clusters = s.clusters := by
  cases b <;> exact ⟨rfl, rfl, rfl⟩

/-- The members are gangs for which the barrier is armed. -/
theorem State.member_of_mem_members {s : State} {b : BarRef} {u : Nat} (hkeys : (s.gangs.map (·.1)).Nodup) (h : u ∈ s.members b) :
    (s.gang u).member u (s.group (s.gang u).group) b = true := by
  obtain ⟨⟨v, g⟩, he, rfl⟩ := List.mem_map.mp h
  obtain ⟨hmem, hmember⟩ := List.mem_filter.mp he
  have hfind : smFind s.gangs v = some g := smFind_of_mem hkeys hmem
  have hgang : s.gang v = g := by rw [State.gang, hfind]; rfl
  rw [hgang]
  exact hmember

/-- BARRIER_ARRIVAL (R46, R325). -/
theorem barrierArrives {s : State} {u n : Nat} {b : BarRef} (hwaits : (s.gang u).waitsAt = some (b, n)) (hmember : u ∈ s.members b)
    (hout : u ∉ (s.bar b).arrived) (hbar : s.hasBar b = true) (hrel : (s.bar b).release = none)
    (hdone : (s.gang u).earlierDone (barScope b) n = true) (hkeys : (s.gangs.map (·.1)).Nodup) :
    ∃ t, exec (.barrierArrival u) s = .next t ∧ (t.bar b).arrived = (s.bar b).arrived ++ [u] ∧ (t.bar b).phase = (s.bar b).phase
      ∧ (t.bar b).release = none ∧ Instr.barrierRelease b ∈ t.agenda ∧ t.mem = s.mem ∧ t.gangs = s.gangs := by
  let r := s.modBar b (fun x => { x with arrived := x.arrived ++ [u] })
  have hrun : exec (.barrierArrival u) s = .next (r.later (.barrierRelease b)) := by
    show execBarrierArrival u s = _
    have hgo : (!((s.gang u).member u (s.group (s.gang u).group) b) || (s.bar b).arrived.contains u || (s.bar b).release.isSome
        || !((s.gang u).earlierDone (barScope b) n)) = false := by
      simp [State.member_of_mem_members hkeys hmember, hout, hrel, hdone]
    rw [execBarrierArrival, hwaits]
    exact if_neg (by rw [hgo]; decide)
  have hbar' : (r.later (.barrierRelease b)).bar b = { s.bar b with arrived := (s.bar b).arrived ++ [u] } :=
    (State.bar_of_tables rfl rfl b).trans (State.bar_modBar _ hbar)
  obtain ⟨hgangs, hmem, -⟩ := s.modBar_frame b (fun x => { x with arrived := x.arrived ++ [u] })
  refine ⟨_, hrun, congrArg (·.arrived) hbar', congrArg (·.phase) hbar', (congrArg (·.release) hbar').trans hrel, ?_, hmem, hgangs⟩
  exact List.mem_append_right _ List.mem_cons_self

/-- An event of the agenda that comes last in its cycle. -/
theorem lastInCycle_iff (i : Instr) : lastInCycle i = true ↔ (∃ b, i = .barrierRelease b) ∨ ∃ d, i = .leaseGrant d := by
  unfold lastInCycle
  split <;> simp_all

/-- BARRIER_RELEASE before the barrier is due: the completion test, after the cycle's other events. -/
theorem exec_barrierRelease_tests {s : State} {b : BarRef} (h : (s.bar b).release = none) :
    exec (.barrierRelease b) s = .next (if s.agenda.all lastInCycle then s.testBar b else s.later (.barrierRelease b)) := by
  show execBarrierRelease b s = _
  rw [execBarrierRelease, h]

/-- The group of a barrier takes a snapshot before the release (R320). -/
def State.takesSnap (s : State) : BarRef → Bool
  | .grp g _ => (s.kernel g).rollback
  | _ => false

section
variable {s : State} {b : BarRef}

/-- A barrier that waits for a member is not complete (R325). -/
theorem State.testBar_waits (harr : (s.bar b).arrived ≠ []) (hout : ∃ m ∈ s.members b, m ∉ (s.bar b).arrived) : s.testBar b = s := by
  obtain ⟨u, rest, hl⟩ := List.exists_cons_of_ne_nil harr
  have hall : (s.members b).all (fun m => (u :: rest).contains m) = false := by
    obtain ⟨m, hm, hno⟩ := hout
    refine List.all_eq_false.mpr ⟨m, hm, ?_⟩
    simpa [hl] using hno
  rw [State.testBar, hl]
  exact if_pos (by rw [hall]; simp)

/-- With every member there, a barrier that takes no snapshot begins its release (R330). -/
theorem State.testBar_releases (hrel : (s.bar b).release = none) (harr : (s.bar b).arrived ≠ [])
    (hin : ∀ m ∈ s.members b, m ∈ (s.bar b).arrived) (htakes : s.takesSnap b = false) : s.testBar b = s.releasing b := by
  obtain ⟨u, rest, hl⟩ := List.exists_cons_of_ne_nil harr
  have hall : (s.members b).all (fun m => (u :: rest).contains m) = true :=
    List.all_eq_true.mpr fun m hm => by simpa [hl] using hin m hm
  rw [State.testBar, hl]
  refine (if_neg (by rw [hall, hrel]; decide)).trans ?_
  cases b with
  | grp g n => exact if_neg (by rw [show (s.kernel g).rollback = false from htakes]; decide)
  | clu c k n => rfl
  | dev c n => rfl

/-- With every member there, a group barrier of a group with ROLLBACK has its snapshot due first (R320). -/
theorem State.testBar_snaps {g n : Nat} (hrel : (s.bar (.grp g n)).release = none) (harr : (s.bar (.grp g n)).arrived ≠ [])
    (hin : ∀ m ∈ s.members (.grp g n), m ∈ (s.bar (.grp g n)).arrived) (htakes : (s.kernel g).rollback = true)
    (hdue : (s.group g).snapDue = none) :
    s.testBar (.grp g n) = s.modGroup g (fun y => { y with snapDue := some (n, s.cycOf ((s.bar (.grp g n)).arrived.headD 0)) }) := by
  obtain ⟨u, rest, hl⟩ := List.exists_cons_of_ne_nil harr
  have hall : (s.members (.grp g n)).all (fun m => (u :: rest).contains m) = true :=
    List.all_eq_true.mpr fun m hm => by simpa [hl] using hin m hm
  rw [State.testBar, hl]
  refine (if_neg (by rw [hall, hrel]; decide)).trans ((if_pos htakes).trans ?_)
  rw [hdue]
  rfl

end

/-- The release of a barrier is due on the clocks of the clusters of its gangs (R5, R330). -/
theorem State.releasing_acts {s : State} {b : BarRef} (hbar : s.hasBar b = true) :
    ∃ l, ((s.releasing b).bar b).release = some l ∧ (∀ e ∈ l, e.2 = (s.cluster e.1).cyc + barDelay b)
      ∧ (∀ k, (∃ e ∈ l, e.1 = k) ↔ ∃ u ∈ (s.bar b).arrived, clusterOf (s.gang u).core = k)
      ∧ ((s.releasing b).bar b).arrived = (s.bar b).arrived ∧ ((s.releasing b).bar b).phase = (s.bar b).phase
      ∧ (s.releasing b).mem = s.mem ∧ (s.releasing b).gangs = s.gangs := by
  let ks := ((s.bar b).arrived.map (fun u => clusterOf (s.gang u).core)).eraseDups
  let l := ks.map (fun k => (k, (s.cluster k).cyc + barDelay b))
  have hbar' : (s.releasing b).bar b = { s.bar b with release := some l } := State.bar_modBar _ hbar
  obtain ⟨hgangs, hmem, -⟩ := s.modBar_frame b (fun x => { x with release := some l })
  refine ⟨l, congrArg (·.release) hbar', ?_, fun k => ?_, congrArg (·.arrived) hbar', congrArg (·.phase) hbar', hmem, hgangs⟩
  · intro e he
    obtain ⟨k, -, rfl⟩ := List.mem_map.mp he
    rfl
  · simp [l, ks, List.mem_eraseDups]

/-- No lane set of a gang that a release wakes waits at the barrier (R46). -/
def Gang.offBar (b : BarRef) (g : Gang) : Prop := ∀ k, ∀ e ∈ (g.slice k).sets, ∀ l id n, e.2.st ≠ .barrier b l id n

theorem Gang.offBar_default (b : BarRef) : (default : Gang).offBar b := by
  intro k e he
  have : ((default : Gang).slice k).sets = [] := rfl
  rw [this] at he
  cases he

/-- A lane set waits at the barrier. -/
def onBar (b : BarRef) (_ : Nat) (y : LaneSet) : Bool :=
  match y.st with
  | .barrier b' _ _ _ => b' = b
  | _ => false

theorem State.wakeBar_eq (s : State) (b : BarRef) (u : Nat) : s.wakeBar b u = (s.wakeSets u (s.cycOf u + 1) (onBar b)).acquired u := rfl

/-- A gang that a release wakes has left the barrier. -/
theorem State.wakeBar_wakes (s : State) (b : BarRef) (u : Nat) : ((s.wakeBar b u).gang u).offBar b := by
  obtain ⟨f, heq, hf⟩ := s.wakeSets_eq u (s.cycOf u + 1) (onBar b)
  have hoff : ∀ g : Gang, (f g).offBar b := by
    intro g k e he l id n hst
    rcases (hf g).2 k _ (List.mem_map_of_mem (f := fun e : Nat × LaneSet => e.2.st) he) with h | ⟨a, i, h⟩ | ⟨y, hp, hy⟩
    · rw [hst] at h; cases h
    · rw [hst] at h; cases h
    · rw [onBar, hy, hst] at hp
      simp at hp
  have hwake : ((s.wakeSets u (s.cycOf u + 1) (onBar b)).gang u).offBar b := by
    rw [heq]
    exact State.gang_modGang_of (P := Gang.offBar b) (Gang.offBar_default b) (hoff _)
  rw [State.wakeBar_eq, State.acquired]
  exact State.gang_modGang_of (P := Gang.offBar b) (Gang.offBar_default b) hwake

/-- Waking one gang changes no other gang, no table and no memory. -/
theorem State.wakeBar_frame (s : State) (b : BarRef) (u : Nat) : (∀ v, v ≠ u → (s.wakeBar b u).gang v = s.gang v)
    ∧ (s.wakeBar b u).groups = s.groups ∧ (s.wakeBar b u).ctxs = s.ctxs ∧ (s.wakeBar b u).mem = s.mem := by
  refine ⟨fun v hv => ?_, rfl, rfl, rfl⟩
  obtain ⟨f, heq, -⟩ := s.wakeSets_eq u (s.cycOf u + 1) (onBar b)
  rw [State.wakeBar_eq, heq, State.acquired, State.gang_modGang_other _ _ _ _ hv]
  exact State.gang_modGang_other s u v f hv

/-- A release wakes every gang that had arrived. -/
theorem State.wakeBar_fold (b : BarRef) (us : List Nat) (s : State) :
    (∀ u, (u ∈ us ∨ (s.gang u).offBar b) → ((us.foldl (State.wakeBar b) s).gang u).offBar b)
      ∧ (us.foldl (State.wakeBar b) s).groups = s.groups ∧ (us.foldl (State.wakeBar b) s).ctxs = s.ctxs
      ∧ (us.foldl (State.wakeBar b) s).mem = s.mem := by
  induction us generalizing s with
  | nil => exact ⟨fun u h => h.resolve_left (by simp), rfl, rfl, rfl⟩
  | cons v us ih =>
    obtain ⟨hgangs, hgroups, hctxs, hmem⟩ := s.wakeBar_frame b v
    obtain ⟨ihgangs, ihgroups, ihctxs, ihmem⟩ := ih (s.wakeBar b v)
    refine ⟨fun u hu => ihgangs u ?_, ihgroups.trans hgroups, ihctxs.trans hctxs, ihmem.trans hmem⟩
    by_cases huv : u = v
    · exact Or.inr (huv ▸ s.wakeBar_wakes b v)
    · rw [hgangs u huv]
      rcases hu with hu | hu
      · exact Or.inl ((List.mem_cons.mp hu).resolve_left huv)
      · exact Or.inr hu

/-- BARRIER_RELEASE of a barrier that is due (R46, R330). -/
theorem barrierIsReleased {s : State} {b : BarRef} {l : List (Nat × Nat)} (hrel : (s.bar b).release = some l)
    (hdue : ∀ e ∈ l, e.2 ≤ (s.cluster e.1).cyc) (hbar : s.hasBar b = true) :
    ∃ t, exec (.barrierRelease b) s = .next t ∧ (t.bar b).phase = ((s.bar b).phase + 1) % 65536 ∧ (t.bar b).arrived = []
      ∧ (t.bar b).release = none ∧ t.mem = s.mem
      ∧ ∀ u ∈ (s.bar b).arrived, ∀ k, ∀ e ∈ ((t.gang u).slice k).sets, ∀ l id n, e.2.st ≠ .barrier b l id n := by
  let r := s.modBar b (fun x => { x with phase := (x.phase + 1) % 2 ^ 16, arrived := [], release := none })
  have hrun : exec (.barrierRelease b) s = .next ((s.bar b).arrived.foldl (State.wakeBar b) r) := by
    show execBarrierRelease b s = _
    have hnow : l.any (fun e => (s.cluster e.1).cyc < e.2) = false :=
      List.any_eq_false.mpr fun e he => by simpa using hdue e he
    rw [execBarrierRelease, hrel]
    exact if_neg (by rw [hnow]; decide)
  obtain ⟨hoff, hgroups, hctxs, hmem⟩ := State.wakeBar_fold b (s.bar b).arrived r
  obtain ⟨-, hrmem, -⟩ := s.modBar_frame b (fun x => { x with phase := (x.phase + 1) % 2 ^ 16, arrived := [], release := none })
  have hbar' : ((s.bar b).arrived.foldl (State.wakeBar b) r).bar b = { phase := ((s.bar b).phase + 1) % 2 ^ 16, arrived := [], release := none } :=
    (State.bar_of_tables hgroups hctxs b).trans (State.bar_modBar _ hbar)
  refine ⟨_, hrun, congrArg (·.phase) hbar', congrArg (·.arrived) hbar', congrArg (·.release) hbar', hmem.trans hrmem, ?_⟩
  exact fun u hu => hoff u (Or.inl hu)

/-- Settles O52: a gang arrives, the completion test comes last in its cycle, and a release that is due wakes the gangs that had arrived. -/
theorem barriersReleaseTheirGangs : Obligations.BarriersReleaseTheirGangs := by
  refine ⟨?_, ?_, ?_⟩
  · intro s u n b hwaits hmember hout hbar hrel hdone hkeys
    exact barrierArrives hwaits hmember hout (by cases b <;> exact hbar) hrel hdone hkeys
  · intro s b hrel harr hbar takes last
    have hbar' : s.hasBar b = true := by cases b <;> exact hbar
    have htest : last → exec (.barrierRelease b) s = .next (s.testBar b) := fun hlast =>
      (exec_barrierRelease_tests hrel).trans (congrArg _ (if_pos (List.all_eq_true.mpr fun i hi => (lastInCycle_iff i).mpr (hlast i hi))))
    refine ⟨?_, ?_, ?_, ?_⟩
    · intro hnot
      refine (exec_barrierRelease_tests hrel).trans (congrArg _ (if_neg fun hall => hnot fun i hi => ?_))
      exact (lastInCycle_iff i).mp (List.all_eq_true.mp hall i hi)
    · intro hlast hout
      exact (htest hlast).trans (congrArg _ (State.testBar_waits harr hout))
    · intro hlast hin htakes
      have hsnap : s.takesSnap b = false := by cases b <;> exact htakes
      obtain ⟨l, hl, htimes, hclusters, harrived, hphase, hmem, hgangs⟩ := s.releasing_acts hbar'
      refine ⟨_, l, (htest hlast).trans (congrArg _ (State.testBar_releases hrel harr hin hsnap)), hl, ?_, hclusters, harrived, hphase, hmem, hgangs⟩
      intro e he
      rw [htimes e he]
      cases b <;> rfl
    · rintro g n rfl hlast hin htakes hdue
      have hgroup := s.group_modGroup_same (fun y => { y with snapDue := some (n, s.cycOf ((s.bar (.grp g n)).arrived.headD 0)) }) hbar'
      refine ⟨_, (htest hlast).trans (congrArg _ (State.testBar_snaps hrel harr hin htakes hdue)), congrArg (·.snapDue) hgroup, ?_, ?_, rfl, rfl⟩
      · rw [State.bar, hgroup]
        exact hrel
      · rw [State.bar, hgroup]
        rfl
  · intro s b l hrel hdue hbar
    exact barrierIsReleased hrel hdue (by cases b <;> exact hbar)

end Sys2Proof.Machine
end

section
/-! Requests of peers, answers to this package's own, and resends (R183, R353 to R368). -/

namespace Sys2Proof.Machine

/-! Requests that peers send (R354, R360, R364, R367, R368). -/

section
variable {s : State} {r : RemoteReq}

/-- A current request that is not answered yet is performed, where it stays inside memory and carries no baton. -/
theorem exec_request_serves (hcur : s.current r.srcPkg r.srcInc r.dstInc) (hcrc : r.crcOk = true) (hlisted : unlisted r.op = false)
    (hnew : s.keptOutcome r.srcPkg r.tag r.number = none) (hfree : s.holdsStore r.srcPkg r.srcInc r.tag r.number = false)
    (hsize : opSize r.op ≤ 256) (hin : s.opInside r.op = true) (hcarries : r.carries = []) :
    exec (.remoteRequestReceive r) s
      = .next ((s.serve r).2.2.answer r.srcPkg r.srcInc r.tag r.number (s.serve r).1 (s.serve r).2.1) := by
  show execRemoteRequestReceive r s = _
  have hstage : s.dev.stage = 2 := hcur.1
  have hsize' : ¬ (256 < opSize r.op) := not_lt.mpr hsize
  simp [execRemoteRequestReceive, State.linked, hstage, hcrc, State.screen_current hcur, hlisted, hnew, hfree, hsize', hin, hcarries]

/-- A current request that carries batons is held (R364). -/
theorem exec_request_holds {bs : List (Nat × Byte)} (hcur : s.current r.srcPkg r.srcInc r.dstInc) (hcrc : r.crcOk = true) (hop : r.op = .write bs)
    (hnew : s.keptOutcome r.srcPkg r.tag r.number = none) (hfree : s.holdsStore r.srcPkg r.srcInc r.tag r.number = false)
    (hsize : bs.length ≤ 256) (hin : s.opInside (.write bs) = true) (hcarries : r.carries ≠ []) :
    exec (.remoteRequestReceive r) s = .next (s.holdFor r bs) := by
  show execRemoteRequestReceive r s = _
  have hstage : s.dev.stage = 2 := hcur.1
  have hsize' : ¬ (256 < bs.length) := not_lt.mpr hsize
  simp [execRemoteRequestReceive, State.linked, hstage, hcrc, State.screen_current hcur, hop, unlisted, opSize, hnew, hfree, hsize', hin, hcarries]

/-- What a store inside memory that touches no page table names (R281, R337). -/
theorem State.opInside_write {bs : List (Nat × Byte)} (h : ∀ b ∈ bs, b.1 < Config.hbmBytes ∧ s.inTables b.1 = false) : s.opInside (.write bs) = true :=
  List.all_eq_true.mpr fun b hb => by
    obtain ⟨hlt, htab⟩ := h b hb
    simp [hlt, htab]

/-- The marks of a range's sectors do not depend on when memory was last used. -/
theorem State.markedSectors_touch (p pa n : Nat) : (s.touch p).markedSectors pa n = s.markedSectors pa n := rfl

theorem State.serve_read {pa n : Nat} (hop : r.op = .read pa n) : s.serve r = (.done (s.rd pa n), s.markedSectors pa n, s.touch pa) := by
  simp only [State.serve, hop]
  rfl

theorem State.serve_write {bs : List (Nat × Byte)} (hop : r.op = .write bs) : s.serve r
    = if bs.any (fun b => s.failedAt b.1) then (.lost [], 0, s.touch (opAddr (.write bs)))
      else (.done [], 0, ((s.touch (opAddr (.write bs))).wrAll bs).tickSerial) := by
  simp only [State.serve, hop]
  rfl

theorem State.serve_atomic {op : AtomOp} {ty : Ty} {pa : Nat} {d : Nat × Nat} (hop : r.op = .atomic op ty pa [d]) (hgood : s.failedAt pa = false) :
    s.serve r = (.done (bytesOf (Machine.sizeOf ty) (s.rdN pa (Machine.sizeOf ty))), s.markedSectors pa (Machine.sizeOf ty),
      ((s.touch pa).wr pa (bytesOf (Machine.sizeOf ty) (atomNew op ty (s.rdN pa (Machine.sizeOf ty)) d.1 d.2))).tickSerial) := by
  have hgood' : (s.touch pa).failedAt pa = false := hgood
  simp only [State.serve, hop, List.foldl_cons, List.foldl_nil, hgood', List.nil_append]
  rfl

/-- An answer is listed for the peer and stands for this use of the tag (R368). -/
theorem State.answer_answers {t : State} (ht : t.link = s.link) (a : AnsKind) (marks : Nat) :
    (t.answer r.srcPkg r.srcInc r.tag r.number a marks).link.answers = ⟨r.srcPkg, r.srcInc, s.link.inc, r.tag, a, marks⟩ :: s.link.answers := by
  rw [← ht]
  rfl

end

/-- A read, a write and an atomic of a peer (R183, R354). -/
theorem peersOperationsAct {s : State} {r : RemoteReq} (hcur : s.current r.srcPkg r.srcInc r.dstInc) (hcrc : r.crcOk = true)
    (hnew : s.keptOutcome r.srcPkg r.tag r.number = none) (hfree : s.holdsStore r.srcPkg r.srcInc r.tag r.number = false)
    (hcarries : r.carries = []) (hgood : s.failed = []) :
    let answer := fun (a : AnsKind) (marks : Nat) => (⟨r.srcPkg, r.srcInc, s.link.inc, r.tag, a, marks⟩ : Reply)
    (∀ pa n, r.op = .read pa n → n ≤ 256 → pa + n ≤ Config.hbmBytes → ∃ t, exec (.remoteRequestReceive r) s = .next t
        ∧ t.link.answers = answer (.done (s.rd pa n)) (s.markedSectors pa n) :: s.link.answers ∧ t.mem = s.mem ∧ t.gangs = s.gangs)
      ∧ (∀ bs, r.op = .write bs → bs.length ≤ 256 → (∀ b ∈ bs, b.1 < Config.hbmBytes ∧ s.inTables b.1 = false) → ∃ t, exec (.remoteRequestReceive r) s = .next t
        ∧ t.link.answers = answer (.done []) 0 :: s.link.answers ∧ t.mem = Memory.writeAll s.mem bs ∧ t.gangs = s.gangs)
      ∧ (∀ op ty pa d, r.op = .atomic op ty pa [d] → pa + Machine.sizeOf ty ≤ Config.hbmBytes → s.inTables pa = false → ∃ t, exec (.remoteRequestReceive r) s = .next t
        ∧ t.link.answers = answer (.done (bytesOf (Machine.sizeOf ty) (s.rdN pa (Machine.sizeOf ty)))) (s.markedSectors pa (Machine.sizeOf ty)) :: s.link.answers
        ∧ t.mem = Memory.writeN s.mem pa (bytesOf (Machine.sizeOf ty) (atomNew op ty (s.rdN pa (Machine.sizeOf ty)) d.1 d.2)) ∧ t.gangs = s.gangs) := by
  intro answer
  have hnone : ∀ pa, s.failedAt pa = false := fun pa => by rw [State.failedAt, hgood]; rfl
  have hsize : ∀ ty : Ty, Machine.sizeOf ty ≤ 8 := fun ty => by cases ty <;> decide
  refine ⟨?_, ?_, ?_⟩
  · intro pa n hop hn hin
    refine ⟨_, exec_request_serves hcur hcrc (by rw [hop]; rfl) hnew hfree (by rw [hop]; exact hn) (by rw [hop]; exact decide_eq_true hin) hcarries, ?_⟩
    rw [State.serve_read hop]
    exact ⟨State.answer_answers (t := s.touch pa) rfl _ _, rfl, rfl⟩
  · intro bs hop hlen hin
    refine ⟨_, exec_request_serves hcur hcrc (by rw [hop]; rfl) hnew hfree (by rw [hop]; exact hlen) (by rw [hop]; exact State.opInside_write hin)
      hcarries, ?_⟩
    rw [State.serve_write hop, if_neg (by simp [hnone])]
    exact ⟨State.answer_answers (t := ((s.touch (opAddr (.write bs))).wrAll bs).tickSerial) rfl _ _, rfl, rfl⟩
  · intro op ty pa d hop hin htab
    have hbytes : opSize r.op ≤ 256 := by
      have hty := hsize ty
      rw [hop, opSize, atomBytes]
      split <;> simp only [List.length_singleton] <;> omega
    have hinside : s.opInside r.op = true := by simp [hop, State.opInside, hin, htab]
    refine ⟨_, exec_request_serves hcur hcrc (by rw [hop]; rfl) hnew hfree hbytes hinside hcarries, ?_⟩
    rw [State.serve_atomic hop (hnone pa)]
    exact ⟨State.answer_answers (t := ((s.touch pa).wr pa _).tickSerial) rfl _ _, rfl, rfl⟩

theorem State.peer_stale (s : State) (p : Nat) : (s.stale p).peer p = { s.peer p with stale := min 0xFFFF ((s.peer p).stale + 1) } :=
  s.peer_modPeer_same p _

theorem remoteRequestsAreServed : Claims.RemoteRequestsAreServed := by
  intro s r answer first
  refine ⟨fun hcur hcrc hfirst hcarries hgood => peersOperationsAct hcur hcrc hfirst.1 hfirst.2 hcarries hgood, ?_, ?_, ?_, ?_, ?_⟩
  · intro bs hcur hcrc hfirst hcarries hop hlen hin hlost
    refine ⟨_, exec_request_serves hcur hcrc (by rw [hop]; rfl) hfirst.1 hfirst.2 (by rw [hop]; exact hlen)
      (by rw [hop]; exact State.opInside_write hin) hcarries, ?_⟩
    rw [State.serve_write hop, if_pos (List.any_eq_true.mpr hlost)]
    exact ⟨State.answer_answers (t := s.touch (opAddr (.write bs))) rfl _ _, rfl, rfl⟩
  · intro hstage hcrc
    have hrun : exec (.remoteRequestReceive r) s = .next (s.reply r.srcPkg r.srcInc r.tag .negative 0) := by
      show execRemoteRequestReceive r s = _
      simp [execRemoteRequestReceive, State.linked, hstage, hcrc]
    exact ⟨_, hrun, rfl, rfl, rfl⟩
  · intro hstage hcrc hup hinc hdst
    have hscreen : s.screen r.srcPkg r.srcInc r.dstInc = some (s.stale r.srcPkg) := by simp [State.screen, hup, hinc, newer_self, hdst]
    have hrun : exec (.remoteRequestReceive r) s = .next (s.stale r.srcPkg) := by
      show execRemoteRequestReceive r s = _
      simp [execRemoteRequestReceive, State.linked, hstage, hcrc, hscreen]
    exact ⟨_, hrun, congrArg (·.stale) (s.peer_stale r.srcPkg), rfl, rfl, rfl⟩
  · intro k a hcur hcrc hlisted hkept hans
    have hstage : s.dev.stage = 2 := hcur.1
    have hrun : exec (.remoteRequestReceive r) s = .next (s.reply r.srcPkg r.srcInc r.tag a k.poison) := by
      show execRemoteRequestReceive r s = _
      simp [execRemoteRequestReceive, State.linked, hstage, hcrc, State.screen_current hcur, hlisted, hkept, hans]
    exact ⟨_, hrun, rfl, rfl, rfl, rfl⟩
  · intro bs hcur hcrc hfirst hcarries hop hlen hin hroom
    let h : Held := { src := r.srcPkg, srcInc := r.srcInc, gang := r.gang, order := s.nextId, carries := r.carries, got := [], bytes := bs,
                      tag := r.tag, number := r.number, origin := .msg, hold := r.hold, since := s.time }
    let x : State := { s with nextId := s.nextId + 1, link := { s.link with held := smPut s.link.held s.nextId h } }
    have hhold : s.holdFor r bs = x.sendMsg r.srcPkg .heldack (r.carries.headD 0) r.tag := if_neg (not_le.mpr hroom)
    obtain ⟨n, reqs, peers, ports, sr, sm, hsent⟩ := x.sends_sendMsg r.srcPkg .heldack (r.carries.headD 0) r.tag
    refine ⟨_, h, exec_request_holds hcur hcrc hop hfirst.1 hfirst.2 hlen (State.opInside_write hin) hcarries, ?_⟩
    rw [hhold, hsent]
    exact ⟨smFind_smPut_same _ _ _, rfl, rfl, rfl, rfl, rfl, rfl, rfl, rfl, rfl⟩

/-! Sending requests (R353, R356, R358, R364, R368). -/

/-- A request that is sent on port `k` at `now` (R356). -/
def Req.sentOn (k : Nat) (now ns : Nat) (r : Req) : Req :=
  { r with
    attempts := r.attempts + 1, busy := false, port := k, sent := now, first := if r.went then r.first else now, went := true
    msg := r.msg.map (fun m => (m.1, { m.2 with time := ns })) }

theorem State.find_modReq {s : State} {id : Nat} {r : Req} (f : Req → Req) (h : smFind s.link.reqs id = some r) :
    smFind (s.modReq id f).link.reqs id = some (f r) := by
  show smFind (smMod s.link.reqs id f) id = _
  rw [smFind_smMod, if_pos rfl, h]
  rfl

/-- A request that can be sent is sent, and its attempt counts. -/
theorem State.transmit_acts {s : State} {id k : Nat} {r : Req} (hfind : smFind s.link.reqs id = some r) (hup : (s.peer r.peer).st = .up)
    (hport : s.portFrom r.peer (if r.attempts = 0 then r.start else r.port + 1) = some k) (hfree : s.lineBusy id r k = false) :
    (s.transmit id).link.sentReqs = (id, k) :: s.link.sentReqs ∧ ((s.transmit id).req id) = r.sentOn k s.time s.timens := by
  let x := (s.modReq id (Req.sentOn k s.time s.timens)).modPort k (fun p => { p with lastUse := s.time, low := false })
  have hsend : s.transmit id = x.modLink (fun l => { l with
      sentReqs := (id, k) :: l.sentReqs, sentMsgs := match (x.req id).msg with | none => x.link.sentMsgs | some m => (k, m) :: x.link.sentMsgs }) := by
    rw [State.transmit, hfind]
    simp only [hport, hfree, hup]
    rfl
  have hreq : smFind (s.transmit id).link.reqs id = some (r.sentOn k s.time s.timens) := by
    rw [hsend]
    exact State.find_modReq (Req.sentOn k s.time s.timens) hfind
  exact ⟨by rw [hsend]; rfl, by rw [State.req, hreq]; rfl⟩

theorem State.transmit_mem (s : State) (id : Nat) : (s.transmit id).mem = s.mem ∧ (s.transmit id).gangs = s.gangs := by
  obtain ⟨_, _, _, _, _, _, h⟩ := s.sends_transmit id
  rw [h]
  exact ⟨rfl, rfl⟩

/-- A request that has gone keeps to its line (R356). -/
theorem State.lineBusy_went {s : State} {id k : Nat} {r : Req} (h : r.went = true) : s.lineBusy id r k = false := by
  rw [State.lineBusy, h]
  rfl

/-- A link that was UP is in RECOVERY from now on (R358). -/
theorem State.peer_recover {s : State} {p : Nat} (h : (s.peer p).st = .up) :
    (s.recover p).peer p = { s.peer p with st := .recovery, since := s.time } := by
  rw [State.recover, if_pos h]
  exact s.peer_modPeer_same p _

theorem requestsAreResent : Claims.RequestsAreResent := by
  refine ⟨?_, ?_, ?_⟩
  · intro s id k r hfind hup hport hfree t
    obtain ⟨hsent, hreq⟩ := State.transmit_acts hfind hup hport hfree
    obtain ⟨hmem, hgangs⟩ := s.transmit_mem id
    exact ⟨hsent, congrArg (·.attempts) hreq, congrArg (·.port) hreq, congrArg (·.sent) hreq, hmem, hgangs⟩
  · intro s id r hfind hup hattempts hheld hbusy hdue
    have hgo : (decide (r.attempts = 0) || r.busy || decide (s.time < r.sent + 100 * Config.us)) = false := by
      have : ¬ s.time < r.sent + 100 * Config.us := not_lt.mpr hdue
      simp [hattempts, hbusy, this]
    have hrun : exec (.requestResendTimeout id) s = if 4 ≤ r.attempts then .next (if r.held then s else s.recover r.peer) else .next (s.transmit id) := by
      show execRequestResendTimeout id s = _
      rw [execRequestResendTimeout, hfind]
      exact if_neg (by rw [hgo]; decide)
    refine ⟨fun hfew => hrun.trans (if_neg (by omega)), fun hmany => ⟨s.recover r.peer, ?_, ?_, ?_⟩⟩
    · rw [hrun, if_pos hmany, if_neg (by rw [hheld]; decide)]
    · exact congrArg (·.st) (State.peer_recover hup)
    · exact congrArg (·.since) (State.peer_recover hup)
  · intro s id k r hfind hup hbusy hdue hport hwent hpeer
    let x := s.modReq id (fun r => { r with attempts := 0 })
    have hrun : exec (.carriedStoreResend id) s = .next (x.transmit id) := by
      have hlate : ¬ s.time < r.sent + 2 * Config.us := not_lt.mpr hdue
      show execCarriedStoreResend id s = _
      simp only [execCarriedStoreResend, hfind, hbusy, hlate, hpeer]
      rfl
    have hfind' := State.find_modReq (fun r => { r with attempts := 0 }) hfind
    obtain ⟨hsent, hreq⟩ := State.transmit_acts hfind' hup hport (State.lineBusy_went hwent)
    refine ⟨_, hrun, congrArg (·.attempts) hreq, congrArg (·.busy) hreq, (congrArg (·.first) hreq).trans ?_, ?_⟩
    · exact if_pos hwent
    · rw [hsent]
      rfl

/-! Answers to this package's requests (R180, R354, R358). -/

/-- An answer on an UP link goes to the request of its tag. -/
theorem exec_answer {s : State} {a : RemoteAns} {id : Nat} {r : Req} (hstage : s.dev.stage = 2) (hcrc : a.crcOk = true)
    (hup : (s.peer a.srcPkg).st = .up) (hinc : a.srcInc = (s.peer a.srcPkg).inc)
    (hfind : s.link.reqs.find? (fun e => e.2.peer = a.srcPkg && e.2.tag = a.tag) = some (id, r)) :
    exec (.remoteAnswer a) s = match a.ans with
      | .done data => .next (s.completeReq id data a.poison false).flushLink
      | .lost data => .next (s.completeReq id data a.poison true).flushLink
      | .refused => .next (s.failReq id fRefused).flushLink
      | .locked => .next (s.failReq id fLocked).flushLink
      | .busy => .next (s.modReq id (fun r => { r with busy := true, sent := s.time }))
      | .negative =>
        if 4 ≤ r.attempts then .next (s.recover a.srcPkg)
        else .next ((s.modReq id (fun r => { r with crcFails := r.crcFails + 1 })).transmit id) := by
  have hrevive : s.revive a.srcPkg = s := if_pos (by rw [hup]; decide)
  show execRemoteAnswer a s = _
  cases hans : a.ans <;> simp [execRemoteAnswer, State.linked, hstage, hcrc, hup, hinc, hrevive, hfind, hans]

/-- A table without two entries of one key has none of a key that goes. -/
theorem smFind_smDel_self {α : Type} {m : List (Nat × α)} {i : Nat} (h : (m.map (·.1)).Nodup) : smFind (smDel m i) i = none := by
  induction m with
  | nil => rfl
  | cons a m ih =>
    obtain ⟨hnew, hkeys⟩ := List.nodup_cons.mp h
    rw [smDel]
    split
    · next hi =>
      cases hm : smFind m i with
      | none => rfl
      | some x => exact absurd (List.mem_map.mpr ⟨_, mem_of_smFind hm, hi.symm⟩) hnew
    · next hi => rw [smFind, if_neg hi, ih hkeys]

theorem answersReachTheirRequests : Claims.AnswersReachTheirRequests := by
  refine ⟨?_, ?_⟩
  · intro s a id r hstage hcrc hup hinc hfind
    have hrun := exec_answer hstage hcrc hup hinc hfind
    have hpeer : r.peer = a.srcPkg := by
      have := List.find?_some hfind
      simp only [Bool.and_eq_true, decide_eq_true_eq] at this
      exact this.1
    refine ⟨fun data h => ?_, fun data h => ?_, fun h => ?_, fun h => ?_, fun h => ?_, fun h hfew => ?_, fun h hmany => ?_⟩
    · rw [hrun, h]
    · rw [hrun, h]
    · rw [hrun, h]
    · rw [hrun, h]
    · rw [hrun, h]
    · refine ⟨?_, fun k hreq hport hwent => ?_⟩
      · rw [hrun, h]
        exact if_neg (by omega)
      · let x := s.modReq id (fun r => { r with crcFails := r.crcFails + 1 })
        have hfind' := State.find_modReq (fun r => { r with crcFails := r.crcFails + 1 }) hreq
        have hup' : (x.peer r.peer).st = .up := by rw [hpeer]; exact hup
        obtain ⟨hsent, hreq'⟩ := State.transmit_acts hfind' hup' hport (State.lineBusy_went hwent)
        obtain ⟨hmem, hgangs⟩ := x.transmit_mem id
        exact ⟨hsent, congrArg (·.attempts) hreq', congrArg (·.origin) hreq', hmem, hgangs⟩
    · refine ⟨s.recover a.srcPkg, ?_, congrArg (·.st) (State.peer_recover hup)⟩
      rw [hrun, h]
      exact if_pos hmany
  · intro s id r use addr data marks hfind horigin hkeys hwants t
    have hreq : s.req id = r := by rw [State.req, hfind]; rfl
    have ht : t = { s.delReq id with far := s.far ++ [⟨use, addr, some data, marks⟩] } := by
      show State.completeReq _ _ _ _ _ = _
      simp only [State.completeReq, hreq, horigin, hwants]
      rfl
    rw [ht]
    refine ⟨rfl, ?_, rfl, rfl⟩
    show smFind (smDel s.link.reqs id) id = none
    exact smFind_smDel_self hkeys

/-- Settles O45: what peers ask is served once (`State.serve`), answers reach their requests, and requests are sent again. -/
theorem fabricRequests : Obligations.FabricRequests := ⟨remoteRequestsAreServed, answersReachTheirRequests, requestsAreResent⟩

end Sys2Proof.Machine
end

section
/-! The map commands (R283, R333, R340, R341). -/

namespace Sys2Proof.Machine

/-! Translations and pages. -/

/-- One level of a walk: what the entry at `pa` gives, `next` being the walk of the table that it names. -/
def State.walkStep (s : State) (va pa l : Nat) (next : Walk) : Walk :=
  if s.poisoned pa 8 then .poison l
  else if !(entV (s.rdN pa 8)) then
    (if entLeaf (s.rdN pa 8) then .held l (va / pageSize l * pageSize l) (pageSize l) else .unmapped l)
  else if malformed l (s.rdN pa 8) then .malformed l
  else if entLeaf (s.rdN pa 8) then .leaf (s.rdN pa 8) (va / pageSize l * pageSize l) (pageSize l)
  else next

theorem walkFrom_zero (s : State) (va tbl : Nat) : walkFrom s va tbl 0 = s.walkStep va (tbl + 8 * levelIndex va 0) 0 (.malformed 0) := rfl

theorem walkFrom_succ (s : State) (va tbl k : Nat) : walkFrom s va tbl (k + 1) = s.walkStep va (tbl + 8 * levelIndex va (k + 1)) (k + 1)
    (walkFrom s va (entAddr (s.rdN (tbl + 8 * levelIndex va (k + 1)) 8)) k) := rfl

/-- The page tables are read from memory and its marks alone. -/
theorem walkFrom_of_same {s t : State} (hmem : t.mem = s.mem) (hpoison : t.poison = s.poison) (va : Nat) (l tbl : Nat) :
    walkFrom t va tbl l = walkFrom s va tbl l := by
  have hread : ∀ pa, t.rdN pa 8 = s.rdN pa 8 := fun pa => by rw [State.rdN, State.rd, hmem]; rfl
  have hstep : ∀ pa l next, t.walkStep va pa l next = s.walkStep va pa l next := fun pa l next => by
    rw [State.walkStep, State.walkStep, State.poisoned, State.poisoned, hpoison, hread]
  induction l generalizing tbl with
  | zero => rw [walkFrom_zero, walkFrom_zero, hstep]
  | succ k ih => rw [walkFrom_succ, walkFrom_succ, hread, ih, hstep]

theorem State.walk_of_same {s t : State} (hmem : t.mem = s.mem) (hpoison : t.poison = s.poison) (hctxs : t.ctxs = s.ctxs)
    (hproofs : t.proofs = s.proofs) (c va : Nat) : t.walk c va = s.walk c va := by
  simp only [State.walk, State.safeWalk, State.ctx, hctxs, hproofs, walkFrom_of_same hmem hpoison]

/-- The entries of a filtered table whose keys pass. -/
theorem smFind_filter_key {α : Type} (m : List (Nat × α)) (p : Nat → Bool) (i : Nat) :
    smFind (m.filter (fun e => p e.1)) i = if p i then smFind m i else none := by
  induction m with
  | nil => simp [smFind]
  | cons e m ih =>
    obtain ⟨k, v⟩ := e
    by_cases hp : p k = true
    · rw [List.filter_cons_of_pos (by exact hp), smFind, ih, smFind]
      by_cases hk : k = i
      · subst hk; simp [hp]
      · simp [hk]
    · rw [List.filter_cons_of_neg (by exact hp), ih, smFind]
      by_cases hk : k = i
      · subst hk; simp [hp]
      · simp [hk]

/-- `t` is `s` but for memory and its marks, translations and pages: the gangs, the links, the statuses and the map commands are as they were. -/
def State.remaps (s t : State) : Prop :=
  t.gangs = s.gangs ∧ t.link = s.link ∧ t.stats = s.stats ∧ t.mapWait = s.mapWait ∧ t.mapFin = s.mapFin
    ∧ ∀ c, (smFind t.ctxs c).isSome = (smFind s.ctxs c).isSome

theorem State.remaps.refl (s : State) : s.remaps s := ⟨rfl, rfl, rfl, rfl, rfl, fun _ => rfl⟩

theorem State.remaps.trans {s t u : State} (h : s.remaps t) (h' : t.remaps u) : s.remaps u := by
  obtain ⟨a1, a2, a3, a4, a5, a6⟩ := h
  obtain ⟨b1, b2, b3, b4, b5, b6⟩ := h'
  exact ⟨b1.trans a1, b2.trans a2, b3.trans a3, b4.trans a4, b5.trans a5, fun c => (b6 c).trans (a6 c)⟩

theorem State.remaps.foldl {α : Type} {f : State → α → State} (hf : ∀ (s : State) x, s.remaps (f s x)) (l : List α) (s : State) :
    s.remaps (l.foldl f s) := by
  induction l generalizing s with
  | nil => exact .refl s
  | cons x l ih => exact (hf s x).trans (ih _)

theorem State.tables.remaps {s t : State} (h : s.tables t) : s.remaps t := by
  obtain ⟨_, _, rfl⟩ := h
  exact .refl s

theorem State.tables.ctxs {s t : State} (h : s.tables t) : t.ctxs = s.ctxs := by
  obtain ⟨_, _, rfl⟩ := h
  rfl

theorem State.remaps_modCtx (s : State) (c : Nat) (f : Ctx → Ctx) : s.remaps (s.modCtx c f) := by
  refine ⟨rfl, rfl, rfl, rfl, rfl, fun d => ?_⟩
  rw [State.modCtx, smFind_smMod]
  split <;> simp

/-- The record of a page, if its context lists one. -/
def State.page? (s : State) (c p : Nat) : Option PageRec := smFind (s.ctx c).pages p

theorem State.pageRec_eq (s : State) (c p : Nat) : s.pageRec c (p * 65536) = (s.page? c p).getD { (default : PageRec) with st := .unmapped } := by
  rw [State.pageRec, Nat.mul_div_cancel p (by decide)]
  rfl

theorem State.page?_of_ctxs {s t : State} (h : t.ctxs = s.ctxs) (c p : Nat) : t.page? c p = s.page? c p := by
  rw [State.page?, State.page?, State.ctx, State.ctx, h]

/-- A page inside a range of addresses. -/
def pageIn (va size p : Nat) : Bool := decide (va / 0x10000 ≤ p ∧ p < (va + size) / 0x10000)

/-- What goes with the old translation of a range (R341): its pages' places, and what is kept of them. -/
theorem State.clearPage_eq (s : State) (c va size : Nat) : ∃ (own : List Nat) (keep : Nat → Bool) (alloc : List Nat) (reqs : List (Nat × Nat)) (asks : List (FarUse × Nat × Nat)),
    s.clearPage c va size = (((own.foldl (fun s u => s.dropL1 (u * 0x10000) 0x10000) (({ s.modCtx c (fun x => { x with spillUsed := x.spillUsed.filter keep }) with
      alloc := alloc, pageReqs := reqs, asks := asks } : State).dropProofs c va size)).setPage c va size 0).dropTlb c va size).modCtx c
      (fun x => { x with pages := x.pages.filter (fun p => !(pageIn va size p.1)) }) := ⟨_, _, _, _, _, rfl⟩

/-- A list of pages of memory dropped from the read-only lines of L1. -/
theorem State.dropL1_fold (l : List Nat) (s : State) :
    s.remaps (l.foldl (fun s u => s.dropL1 (u * 0x10000) 0x10000) s) ∧ (l.foldl (fun s u => s.dropL1 (u * 0x10000) 0x10000) s).ctxs = s.ctxs := by
  induction l generalizing s with
  | nil => exact ⟨.refl s, rfl⟩
  | cons u l ih =>
    obtain ⟨hm, hc⟩ := ih (s.dropL1 (u * 0x10000) 0x10000)
    exact ⟨hm, hc⟩

/-- A range loses its records. -/
theorem State.clearPage_acts {s : State} {c : Nat} (hc : (smFind s.ctxs c).isSome = true) (va size : Nat) :
    s.remaps (s.clearPage c va size) ∧ ∀ p, (s.clearPage c va size).page? c p = if pageIn va size p then none else s.page? c p := by
  obtain ⟨own, keep, alloc, reqs, asks, h⟩ := s.clearPage_eq c va size
  let x : State := { s.modCtx c (fun x => { x with spillUsed := x.spillUsed.filter keep }) with alloc := alloc, pageReqs := reqs, asks := asks }
  have hx : s.remaps x := (s.remaps_modCtx c (fun x => { x with spillUsed := x.spillUsed.filter keep })).trans
    ⟨rfl, rfl, rfl, rfl, rfl, fun _ => rfl⟩
  have hctx : x.ctx c = { s.ctx c with spillUsed := (s.ctx c).spillUsed.filter keep } :=
    State.ctx_modCtx_same (fun x => { x with spillUsed := x.spillUsed.filter keep }) hc
  have hpages : (x.ctx c).pages = (s.ctx c).pages := by rw [hctx]
  obtain ⟨hdrop, hdropc⟩ := State.dropL1_fold own (x.dropProofs c va size)
  rw [h]
  generalize own.foldl (fun s u => s.dropL1 (u * 0x10000) 0x10000) (x.dropProofs c va size) = y at *
  have hy : s.remaps y := hx.trans (State.remaps.trans (.refl x) hdrop)
  have hz : s.remaps (y.setPage c va size 0) := hy.trans (y.tables_setPage c va size 0).remaps
  have hzc : (y.setPage c va size 0).ctxs = x.ctxs := (y.tables_setPage c va size 0).ctxs.trans hdropc
  generalize y.setPage c va size 0 = z at *
  refine ⟨hz.trans (State.remaps.trans (.refl z) ((z.dropTlb c va size).remaps_modCtx c _)), fun p => ?_⟩
  have hzs : (smFind (z.dropTlb c va size).ctxs c).isSome = true := (hz.2.2.2.2.2 c).trans hc
  have hzp : ((z.dropTlb c va size).ctx c).pages = (s.ctx c).pages := by
    rw [← hpages, State.ctx, State.ctx, show (z.dropTlb c va size).ctxs = x.ctxs from hzc]
  rw [State.page?, State.ctx_modCtx_same _ hzs]
  dsimp only
  rw [hzp, smFind_filter_key _ (fun p => !(pageIn va size p))]
  cases pageIn va size p <;> rfl

/-- A range's records are written. -/
theorem State.putPages_acts {s : State} {c : Nat} (hc : (smFind s.ctxs c).isSome = true) (va size : Nat) (r : PageRec) :
    s.remaps (s.putPages c va size r) ∧ ∀ p, (s.putPages c va size r).page? c p
      = if va / 0x10000 ≤ p ∧ p < va / 0x10000 + size / 0x10000 then some r else s.page? c p := by
  refine ⟨s.remaps_modCtx c _, fun p => ?_⟩
  rw [State.page?, State.putPages, State.ctx_modCtx_same _ hc]
  dsimp only
  have puts : ∀ (n : Nat) (m : List (Nat × PageRec)), smFind ((List.range n).foldl (fun m i => smPut m (va / 0x10000 + i) r) m) p
      = if va / 0x10000 ≤ p ∧ p < va / 0x10000 + n then some r else smFind m p := by
    intro n m
    induction n with
    | zero => rw [if_neg (by omega)]; rfl
    | succ n ih =>
      rw [List.range_succ, List.foldl_append, List.foldl_cons, List.foldl_nil]
      by_cases hp : p = va / 0x10000 + n
      · rw [hp, smFind_smPut_same, if_pos (by omega)]
      · rw [smFind_smPut_other _ _ _ _ hp, ih]
        by_cases hin : va / 0x10000 ≤ p ∧ p < va / 0x10000 + n
        · rw [if_pos hin, if_pos (by omega)]
        · rw [if_neg hin, if_neg (by omega)]
  exact puts _ _

/-- The records of a range change. -/
theorem State.modPages_acts {s : State} {c : Nat} (hc : (smFind s.ctxs c).isSome = true) (va size : Nat) (f : PageRec → PageRec) :
    s.remaps (s.modPages c va size f) ∧ ∀ p, (s.modPages c va size f).page? c p = if pageIn va size p then (s.page? c p).map f else s.page? c p := by
  refine ⟨s.remaps_modCtx c _, fun p => ?_⟩
  rw [State.page?, State.modPages, State.ctx_modCtx_same _ hc]
  have hkey : ∀ m : List (Nat × PageRec), m.map (fun e => if va / 0x10000 ≤ e.1 && e.1 < (va + size) / 0x10000 then (e.1, f e.2) else e)
      = m.map (fun e => (e.1, if pageIn va size e.1 then f e.2 else e.2)) := fun m => by
    refine List.map_congr_left fun e _ => ?_
    by_cases he : va / 0x10000 ≤ e.1 ∧ e.1 < (va + size) / 0x10000
    · simp [pageIn, he.1, he.2]
    · simp only [pageIn, ← Bool.decide_and, he, decide_false]
      rfl
  dsimp only
  rw [hkey, smFind_map_key _ (fun k r => if pageIn va size k then f r else r), ← State.page?]
  cases hp : pageIn va size p
  · simp
  · simp

/-- Accesses that waited for pages of a context without gangs: nothing goes on (R342). -/
theorem State.ackPage_acts {s : State} {c : Nat} (h : s.everyGangOfCtx c = []) (p : Nat) :
    s.remaps (s.ackPage c p) ∧ (s.ackPage c p).ctxs = s.ctxs := by
  unfold State.ackPage
  extract_lets clr t u gs v free w
  have hu : t.remaps u ∧ u.ctxs = t.ctxs := by
    have : ∀ (l : List Nat) (x : State), x.remaps (l.foldl State.refillMerge x) ∧ (l.foldl State.refillMerge x).ctxs = x.ctxs := by
      intro l
      induction l with
      | nil => exact fun x => ⟨.refl x, rfl⟩
      | cons d l ih => exact fun x => ih (x.refillMerge d)
    exact this _ _
  have hgs : gs = [] := by
    show u.everyGangOfCtx c = []
    rw [State.everyGangOfCtx, hu.1.1]
    exact h
  have hv : v = u := by
    show gs.foldl _ u = u
    rw [hgs]
    rfl
  rw [hgs, State.pump_nil]
  exact ⟨hu.1.trans (hv ▸ .refl v), by
    show v.ctxs = s.ctxs
    rw [hv]
    exact hu.2⟩

theorem State.ackRange_acts {s : State} {c : Nat} (h : s.everyGangOfCtx c = []) (va size : Nat) :
    s.remaps (s.ackRange c va size) ∧ (s.ackRange c va size).ctxs = s.ctxs := by
  have acks : ∀ (l : List Nat) (x : State), x.everyGangOfCtx c = [] →
      x.remaps (l.foldl (fun s p => s.ackPage c p) x) ∧ (l.foldl (fun s p => s.ackPage c p) x).ctxs = x.ctxs := by
    intro l
    induction l with
    | nil => exact fun x _ => ⟨.refl x, rfl⟩
    | cons p l ih =>
      intro x hx
      obtain ⟨hm, hc⟩ := State.ackPage_acts hx p
      have hx' : (x.ackPage c p).everyGangOfCtx c = [] := by rw [State.everyGangOfCtx, hm.1]; exact hx
      obtain ⟨hm', hc'⟩ := ih _ hx'
      exact ⟨hm.trans hm', hc'.trans hc⟩
  exact acks _ _ h

end Sys2Proof.Machine
end

section
/-! The map commands (R283, R333, R340, R341). -/

namespace Sys2Proof.Machine

/-! Ranges of pages. -/

/-- A page size of the map commands, in pages of 64 KiB. -/
theorem mapSize_units (d : List Nat) : ∃ m, mapSize d = 65536 * m := by
  unfold mapSize
  split
  · exact ⟨1, rfl⟩
  · exact ⟨32, rfl⟩
  · exact ⟨16384, rfl⟩
  · exact ⟨0, rfl⟩

theorem pageIn_units (va m p : Nat) : pageIn va (65536 * m) p = decide (va / 65536 ≤ p ∧ p < va / 65536 + m) := by
  rw [pageIn, Nat.add_mul_div_left _ _ (by decide)]

/-- A page of a range lies in one of the range's pages of the command's size. -/
theorem pageIn_covers {va n m p : Nat} (h : pageIn va (n * (65536 * m)) p = true) : ∃ i < n, pageIn (va + i * (65536 * m)) (65536 * m) p = true := by
  rw [show n * (65536 * m) = 65536 * (n * m) by ring, pageIn_units, decide_eq_true_eq] at h
  obtain ⟨hlo, hhi⟩ := h
  obtain ⟨j, rfl⟩ := Nat.exists_eq_add_of_le hlo
  have hj : j < n * m := by omega
  have hm : 0 < m := Nat.pos_of_ne_zero fun e => by simp [e] at hj
  refine ⟨j / m, Nat.div_lt_of_lt_mul (by rwa [Nat.mul_comm]), ?_⟩
  have hdiv := Nat.div_add_mod j m
  have hmod := Nat.mod_lt j hm
  rw [pageIn_units, show va + j / m * (65536 * m) = va + 65536 * (m * (j / m)) by ring, Nat.add_mul_div_left _ _ (by decide), decide_eq_true_eq]
  omega

/-! Mapping and unmapping (R341). -/

/-- One page of a MAP takes its record, and no other page's changes. -/
theorem State.mapPage_acts {s : State} {c m kind peer : Nat} {w ro wrev owned : Bool} {p : Nat × Nat} (hc : (smFind s.ctxs c).isSome = true) :
    s.remaps (State.mapPage c (65536 * m) kind peer w ro wrev owned s p)
      ∧ ∀ q, (State.mapPage c (65536 * m) kind peer w ro wrev owned s p).page? c q = if pageIn p.1 (65536 * m) q then
          some { st := if ro then .replica else kindState kind, wrev := wrev, pinned := false, owned := owned, entry := 0, size := 65536 * m }
        else s.page? c q := by
  unfold State.mapPage
  extract_lets x y r
  obtain ⟨hx, hxp⟩ := State.clearPage_acts hc p.1 (65536 * m)
  have hxy : x.remaps y ∧ y.ctxs = x.ctxs := by
    dsimp only [y]
    split
    · exact ⟨⟨rfl, rfl, rfl, rfl, rfl, fun _ => rfl⟩, rfl⟩
    · exact ⟨.refl x, rfl⟩
  have htab := y.tables_setPage c p.1 (65536 * m) (mkLeaf p.2 kind (if kind = 1 then peer else 0) w false ro)
  have hz := (hx.trans hxy.1).trans htab.remaps
  have hzc := htab.ctxs.trans hxy.2
  generalize y.setPage c p.1 (65536 * m) (mkLeaf p.2 kind (if kind = 1 then peer else 0) w false ro) = z at *
  obtain ⟨hput, hputp⟩ := State.putPages_acts ((hz.2.2.2.2.2 c).trans hc) p.1 (65536 * m) r
  refine ⟨hz.trans hput, fun q => ?_⟩
  rw [hputp, State.page?_of_ctxs hzc, hxp, Nat.mul_div_cancel_left _ (by decide), pageIn_units]
  by_cases hq : p.1 / 65536 ≤ q ∧ q < p.1 / 65536 + m
  · rw [if_pos hq, if_pos (by simpa using hq)]
  · rw [if_neg hq, if_neg (by simpa using hq), if_neg (by simpa using hq)]

/-- A MAP's pages take their records. -/
theorem State.mapPages_acts {c m kind peer : Nat} {w ro wrev owned : Bool} (ps : List (Nat × Nat)) {s : State} (hc : (smFind s.ctxs c).isSome = true) :
    s.remaps (ps.foldl (State.mapPage c (65536 * m) kind peer w ro wrev owned) s)
      ∧ ∀ q, (ps.foldl (State.mapPage c (65536 * m) kind peer w ro wrev owned) s).page? c q = if ps.any (fun p => pageIn p.1 (65536 * m) q) then
          some { st := if ro then .replica else kindState kind, wrev := wrev, pinned := false, owned := owned, entry := 0, size := 65536 * m }
        else s.page? c q := by
  induction ps generalizing s with
  | nil => exact ⟨.refl s, fun q => rfl⟩
  | cons p ps ih =>
    obtain ⟨hm, hp⟩ := State.mapPage_acts (m := m) (kind := kind) (peer := peer) (w := w) (ro := ro) (wrev := wrev) (owned := owned) (p := p) hc
    obtain ⟨hm', hp'⟩ := ih ((hm.2.2.2.2.2 c).trans hc)
    refine ⟨hm.trans hm', fun q => ?_⟩
    rw [List.foldl_cons, hp', hp, List.any_cons]
    cases pageIn p.1 (65536 * m) q <;> cases ps.any (fun p => pageIn p.1 (65536 * m) q) <;> rfl

/-- An UNMAP's pages lose their records. -/
theorem State.clearPages_acts {c va m : Nat} (n : Nat) {s : State} (hc : (smFind s.ctxs c).isSome = true) :
    s.remaps ((List.range n).foldl (fun s i => s.clearPage c (va + i * (65536 * m)) (65536 * m)) s)
      ∧ ∀ q, ((List.range n).foldl (fun s i => s.clearPage c (va + i * (65536 * m)) (65536 * m)) s).page? c q
        = if (List.range n).any (fun i => pageIn (va + i * (65536 * m)) (65536 * m) q) then none else s.page? c q := by
  induction List.range n generalizing s with
  | nil => exact ⟨.refl s, fun q => rfl⟩
  | cons i l ih =>
    obtain ⟨hm, hp⟩ := State.clearPage_acts hc (va + i * (65536 * m)) (65536 * m)
    obtain ⟨hm', hp'⟩ := ih ((hm.2.2.2.2.2 c).trans hc)
    refine ⟨hm.trans hm', fun q => ?_⟩
    rw [List.foldl_cons, hp', hp, List.any_cons]
    cases pageIn (va + i * (65536 * m)) (65536 * m) q <;> cases l.any (fun i => pageIn (va + i * (65536 * m)) (65536 * m) q) <;> rfl

/-- The place that the pacer takes for a page (R341). -/
def State.freePlace (s : State) (size : Nat) (die : Option Nat) : Option Nat :=
  firstFree s.usedUnits (size / 0x10000) ((die.getD (roomiest s.usedUnits) + 1) * dieUnits) (s.usedUnits.length + 2)
    (die.getD (roomiest s.usedUnits) * dieUnits)

/-- A page of the pacer at a place: its units are taken, cleared, and their future bits and marks gone. -/
def State.takePage (s : State) (size u : Nat) : Nat × State :=
  (u * 0x10000, ({ s with
    alloc := s.alloc ++ (List.range (size / 0x10000)).map (fun i => u + i)
    mem := Memory.clear s.mem (u * 0x10000) size
    futs := s.futs.filter (fun a => !(u * 0x10000 ≤ a && a < u * 0x10000 + size)) } : State).unmark (u * 0x10000) size)

theorem State.allocPage_eq (s : State) (size : Nat) (die : Option Nat) : s.allocPage size die = (s.freePlace size die).map (s.takePage size) := by
  conv => lhs; fun; fun; fun; delta State.allocPage
  extract_lets used d n
  rw [show s.freePlace size die = firstFree used n ((d + 1) * dieUnits) (used.length + 2) (d * dieUnits) from rfl]
  generalize firstFree used n _ _ _ = o
  cases o <;> rfl

/-- The pacer's allocation changes no record of a page. -/
theorem State.allocPage_acts {s : State} {size : Nat} {die : Option Nat} {r : Nat × State} (h : s.allocPage size die = some r) :
    s.remaps r.2 ∧ r.2.ctxs = s.ctxs := by
  rw [State.allocPage_eq] at h
  obtain ⟨k, -, rfl⟩ := Option.map_eq_some_iff.mp h
  exact ⟨⟨rfl, rfl, rfl, rfl, rfl, fun _ => rfl⟩, rfl⟩

/-- The pages of a MAP are allocated one after the other. -/
theorem allocAllWith_succ (A : State → Nat → Option Nat → Option (Nat × State)) (size n : Nat) (s : State) : allocAllWith A size (n + 1) s
    = (A s size none).bind (fun p => (allocAllWith A size n p.2).map (fun r => (p.1 :: r.1, r.2))) := by
  rw [allocAllWith]
  cases A s size none <;> rfl

theorem allocAll_acts {size : Nat} (n : Nat) {s : State} {r : List Nat × State} (h : allocAll size n s = some r) :
    r.1.length = n ∧ s.remaps r.2 ∧ r.2.ctxs = s.ctxs := by
  rw [allocAll_eq] at h
  induction n generalizing s r with
  | zero =>
    rw [← Option.some.inj h]
    exact ⟨rfl, .refl s, rfl⟩
  | succ n ih =>
    rw [allocAllWith_succ] at h
    obtain ⟨p, hpage, hrest⟩ := Option.bind_eq_some_iff.mp h
    obtain ⟨r', hr', rfl⟩ := Option.map_eq_some_iff.mp hrest
    obtain ⟨hlen, hm, hc⟩ := ih hr'
    obtain ⟨hm', hc'⟩ := State.allocPage_acts hpage
    exact ⟨congrArg (· + 1) hlen, hm'.trans hm, hc.trans hc'⟩

/-- The command in the window does not change the pacer's choice of a page. -/
theorem State.usedUnits_waiting (s : State) (l : List (Nat × List Dword)) : ({ s with mapWait := l } : State).usedUnits = s.usedUnits := by
  have hmapped : ({ s with mapWait := l } : State).mappedUnits = s.mappedUnits := by
    have hwalk : ∀ c va, ({ s with mapWait := l } : State).walk c va = s.walk c va := State.walk_of_same rfl rfl rfl rfl
    simp only [State.mappedUnits, hwalk]
  simp only [State.usedUnits, hmapped]

theorem allocAll_waiting {size : Nat} (l : List (Nat × List Dword)) (n : Nat) (s : State) :
    allocAll size n { s with mapWait := l } = (allocAll size n s).map (fun r => (r.1, { r.2 with mapWait := l })) := by
  rw [allocAll_eq]
  induction n generalizing s with
  | zero => rfl
  | succ n ih =>
    have hpage : ({ s with mapWait := l } : State).allocPage size none
        = (s.allocPage size none).map (fun r => (r.1, { r.2 with mapWait := l })) := by
      rw [State.allocPage_eq, State.allocPage_eq, State.freePlace, State.usedUnits_waiting, ← State.freePlace, Option.map_map]
      rfl
    rw [allocAllWith_succ, allocAllWith_succ, hpage]
    cases s.allocPage size none with
    | none => rfl
    | some r =>
      show (allocAllWith State.allocPage size n { r.2 with mapWait := l }).map _ = Option.map _ ((allocAllWith State.allocPage size n r.2).map _)
      rw [ih, Option.map_map, Option.map_map]
      rfl

/-- Where the pacer has the space, a MAP's pages take their records (R341). -/
theorem State.mapRange_acts {s t : State} {c : Nat} {d : List Nat} (hc : (smFind s.ctxs c).isSome = true) (hg : s.everyGangOfCtx c = [])
    (h : s.mapRange c d = some t) : s.remaps t ∧ ∀ q, pageIn (dw d 1) (dw d 2 / 2 ^ 32 * mapSize d) q = true → ∃ r, t.page? c q = some r
      ∧ r.st = (if (dw d 4).testBit 8 && s.feature 11 then .replica else kindState (mapKind d)) ∧ r.wrev = ((dw d 4).testBit 9 && s.feature 11)
      ∧ r.pinned = false := by
  obtain ⟨m, hm⟩ := mapSize_units d
  obtain ⟨addrs, x, hx, hxc, hlen, owned, ht⟩ : ∃ (addrs : List Nat) (x : State), s.remaps x ∧ x.ctxs = s.ctxs ∧ addrs.length = dw d 2 / 2 ^ 32 ∧ ∃ owned,
      t = ((addrs.mapIdx (fun i a => (dw d 1 + i * mapSize d, a))).foldl (State.mapPage c (mapSize d) (mapKind d) (fld (dw d 4) 55 9)
        ((dw d 4).testBit 7 && (decide (7 = 7) || s.feature 11)) ((dw d 4).testBit 8 && (decide (8 = 7) || s.feature 11))
        ((dw d 4).testBit 9 && (decide (9 = 7) || s.feature 11)) owned) x).ackRange c (dw d 1) (dw d 2 / 2 ^ 32 * mapSize d) := by
    unfold State.mapRange at h
    extract_lets size n kind own bit got at h
    cases hgot : got with
    | none => rw [hgot] at h; cases h
    | some r =>
      obtain ⟨addrs, x⟩ := r
      rw [hgot] at h
      refine ⟨addrs, x, ?_⟩
      have hkept : addrs.length = n ∧ s.remaps x ∧ x.ctxs = s.ctxs := by
        dsimp only [got] at hgot
        split at hgot
        · exact allocAll_acts n hgot
        · obtain ⟨ha, hb⟩ := Prod.mk.inj (Option.some.inj hgot)
          exact ⟨by rw [← ha]; simp, hb ▸ .refl s, hb ▸ rfl⟩
      exact ⟨hkept.2.1, hkept.2.2, hkept.1, own, (Option.some.inj h).symm⟩
  rw [hm] at ht
  obtain ⟨hmap, hpages⟩ := State.mapPages_acts (m := m) (kind := mapKind d) (peer := fld (dw d 4) 55 9)
    (w := (dw d 4).testBit 7 && (decide (7 = 7) || s.feature 11)) (ro := (dw d 4).testBit 8 && (decide (8 = 7) || s.feature 11))
    (wrev := (dw d 4).testBit 9 && (decide (9 = 7) || s.feature 11)) (owned := owned)
    (addrs.mapIdx (fun i a => (dw d 1 + i * (65536 * m), a))) ((hx.2.2.2.2.2 c).trans hc)
  have hall := hx.trans hmap
  have hnone : (((addrs.mapIdx (fun i a => (dw d 1 + i * (65536 * m), a))).foldl (State.mapPage c (65536 * m) (mapKind d) (fld (dw d 4) 55 9)
        ((dw d 4).testBit 7 && (decide (7 = 7) || s.feature 11)) ((dw d 4).testBit 8 && (decide (8 = 7) || s.feature 11))
        ((dw d 4).testBit 9 && (decide (9 = 7) || s.feature 11)) owned) x)).everyGangOfCtx c = [] := by
    rw [State.everyGangOfCtx, hall.1]
    exact hg
  obtain ⟨hack, hackc⟩ := State.ackRange_acts hnone (dw d 1) (dw d 2 / 2 ^ 32 * (65536 * m))
  rw [ht]
  refine ⟨hall.trans hack, fun q hq => ?_⟩
  rw [hm] at hq
  obtain ⟨i, hi, hin⟩ := pageIn_covers hq
  have hany : (addrs.mapIdx (fun i a => (dw d 1 + i * (65536 * m), a))).any (fun p => pageIn p.1 (65536 * m) q) = true := by
    refine List.any_eq_true.mpr ⟨(dw d 1 + i * (65536 * m), addrs[i]'(hlen ▸ hi)), ?_, hin⟩
    exact List.mem_mapIdx.mpr ⟨i, hlen ▸ hi, rfl⟩
  refine ⟨_, by rw [State.page?_of_ctxs hackc, hpages, if_pos hany], ?_, ?_, rfl⟩
  · simp
  · simp

/-! The command window (R340). -/

end Sys2Proof.Machine
end

section
/-! The map commands' window (R283, R340, R341). -/

namespace Sys2Proof.Machine

/-- A status record counts, and may stand in memory. -/
theorem State.status_eq (s : State) (rec_ st detail value : Nat) :
    ∃ m, s.status rec_ st detail value = { s with stats := (rec_, detail * 2 ^ 32 + st, value) :: s.stats, mem := m } := by
  unfold State.status
  extract_lets t
  split
  · exact ⟨_, rfl⟩
  · exact ⟨s.mem, rfl⟩

theorem cdw_eq (cmd : List Dword) (i : Nat) : dw (cmd.map (·.toNat)) i = cdw cmd i := by
  rw [dw, cdw, List.getD_eq_getElem?_getD, List.getElem?_map, List.getD_eq_getElem?_getD]
  cases cmd[i]? <;> rfl

theorem State.finMaps_nil {s : State} (h : s.mapFin = []) : s.finMaps = s := by
  rw [State.finMaps, h]
  rfl

/-- A state with one command in the window. -/
def State.waiting (s : State) (fn : Nat) (cmd : List Dword) : State := { s with mapWait := [(fn, cmd)] }

section
variable {s t x : State} {op fn : Nat} {cmd : List Dword}

/-- A store to the window with none before it under way runs its command. -/
theorem State.mapStore_runs (hlen : cmd.length = 8) (hstage : s.writeStage ≠ none)
    (hop : (decide (cdw cmd 0 % 256 = op) || (decide (op = 1) && (decide (cdw cmd 0 % 256 = 0) || decide (8 ≤ cdw cmd 0 % 256)))) = true)
    (hwait : s.mapWait = []) (hfin : s.mapFin = []) (hproof : ∀ r ∈ s.proofq, r.ctx ≠ cmdCtx cmd)
    (hrun : (s.waiting fn cmd).runMap fn cmd = (some t, x)) :
    s.mapStore op fn cmd = ({ t with mapWait := t.mapWait.erase (fn, cmd) } : State).finMaps := by
  have hstore : s.mapStore op fn cmd = (s.waiting fn cmd).settleMaps := by
    rw [State.mapStore, hwait]
    exact if_neg (by rw [hlen]; simp only [ne_eq, not_true_eq_false, decide_false, hstage, hop]; decide)
  have hbusy : (s.waiting fn cmd).mapBusy (cmdCtx cmd) = false := by
    have hp : s.proofq.any (fun r => r.ctx = cmdCtx cmd && !r.safe) = false :=
      List.any_eq_false.mpr fun r hr => by simp [hproof r hr]
    show (s.mapFin.any _ || s.proofq.any _) = false
    rw [hfin, hp]
    rfl
  have hfind : (s.waiting fn cmd).mapWait.find? (fun w => cmdCtx w.2 = cmdCtx cmd) = some (fn, cmd) := by
    show [(fn, cmd)].find? _ = _
    simp
  have hon : State.mapsOn (cmdCtx cmd) 1 (s.waiting fn cmd) = ({ t with mapWait := t.mapWait.erase (fn, cmd) } : State).finMaps := by
    rw [State.mapsOn, hbusy, hfind]
    simp only [hrun]
    rfl
  rw [hstore, State.settleMaps, State.finMaps_nil (s := s.waiting fn cmd) hfin]
  exact hon

/-- A command of a LIVE context that is well formed and of its own function acts. -/
theorem State.runMap_acts {d : List Nat} {c : Nat} (hd : d = cmd.map (·.toNat)) (hc : c = fld (dw d 0) 16 6) (hforeign : s.foreign fn c = false)
    (hbad : mapBad d = none) (hlive : (s.ctx c).st = .live) (hact : s.mapAct c d = some t) : s.runMap fn cmd = (some t, s) := by
  subst hd hc
  simp only [State.runMap, hforeign, hbad, hlive, hact]
  rfl

end

/-- What a command has answered: its status, with no other command in the window (R340). -/
def State.answered (s t : State) (rec_ st value : Nat) : Prop := t.stats = (rec_, st, value) :: s.stats ∧ t.mapWait = [] ∧ t.mapFin = []

section
variable {s y : State} {fn : Nat} {cmd : List Dword}

/-- A command that answers at once. -/
theorem State.finish_status (hy : (s.waiting fn cmd).remaps y) (hfin : s.mapFin = []) (r st detail v : Nat) :
    let z := y.status r st detail v
    let f := ({ z with mapWait := z.mapWait.erase (fn, cmd) } : State).finMaps
    s.answered f r (detail * 2 ^ 32 + st) v ∧ f.gangs = s.gangs ∧ f.ctxs = y.ctxs := by
  intro z f
  obtain ⟨hgangs, -, hstats, hwait, hfins, -⟩ := hy
  obtain ⟨m, hz⟩ := y.status_eq r st detail v
  have hf : f = { z with mapWait := z.mapWait.erase (fn, cmd) } := State.finMaps_nil (by
    show z.mapFin = []
    rw [show z = _ from hz]
    exact hfins.trans hfin)
  have hempty : z.mapWait.erase (fn, cmd) = [] := by
    rw [show z = _ from hz]
    show y.mapWait.erase (fn, cmd) = []
    rw [hwait]
    simp [State.waiting]
  rw [hf, hempty, show z = _ from hz]
  exact ⟨⟨congrArg _ hstats, rfl, hfins.trans hfin⟩, hgangs, rfl⟩

/-- A command whose status waits for what still uses the old translation: nothing does in a context without gangs (R283). -/
theorem State.finish_done {c : Nat} (hy : (s.waiting fn cmd).remaps y) (hfin : s.mapFin = []) (hg : s.everyGangOfCtx c = []) (hreqs : s.link.reqs = [])
    (va len r v : Nat) :
    let z := y.mapDone c va len r v
    let f := ({ z with mapWait := z.mapWait.erase (fn, cmd) } : State).finMaps
    s.answered f r 0 v ∧ f.gangs = s.gangs ∧ f.ctxs = y.ctxs := by
  intro z f
  obtain ⟨hgangs, hlink, hstats, hwait, hfins, -⟩ := hy
  let m : MapFin := ⟨c, va, len, r, v, y.nextId⟩
  have hempty : z.mapWait.erase (fn, cmd) = [] := by
    show y.mapWait.erase (fn, cmd) = []
    rw [hwait]
    simp [State.waiting]
  have hnew : y.mapFin ++ [m] = [m] := by rw [hfins, show (s.waiting fn cmd).mapFin = [] from hfin]; rfl
  let w : State := { y with mapWait := [], mapFin := [m] }
  have hw : ({ z with mapWait := z.mapWait.erase (fn, cmd) } : State) = w := by
    rw [hempty]
    show ({ y with mapFin := y.mapFin ++ [m], mapWait := [] } : State) = w
    rw [hnew]
  have hold : w.oldUse c va len y.nextId = false := by
    have hnone : w.everyGangOfCtx c = [] := by
      show (y.gangs.filter _).map _ = []
      rw [hgangs]
      exact hg
    have hreqs' : w.link.reqs = [] := by
      show y.link.reqs = []
      rw [hlink]
      exact hreqs
    rw [State.oldUse, hnone, hreqs']
    rfl
  have hfilter : w.mapFin.filter (fun m => !(w.oldUse m.ctx m.va m.len m.upTo)) = [m] := by
    show [m].filter _ = [m]
    rw [List.filter_cons_of_pos (by rw [hold]; rfl)]
    rfl
  have hgone : ([m] : List MapFin).filter (fun x => x ≠ m) = [] := by simp
  obtain ⟨mem, hst⟩ := State.status_eq { w with mapFin := [] } r 0 0 v
  have hf : f = ({ w with mapFin := [] } : State).status r 0 0 v := by
    show State.finMaps _ = _
    rw [hw, State.finMaps, hfilter]
    show ({ w with mapFin := [m].filter (fun x => x ≠ m) } : State).status r 0 0 v = _
    rw [hgone]
  rw [hf, hst]
  exact ⟨⟨congrArg _ hstats, rfl, rfl⟩, hgangs, rfl⟩

end

/-! What each command does (R341). -/

section
variable {s : State} {c : Nat} {d : List Nat}

/-- The bits of a command that its feature gates. -/
def mapBit (d : List Nat) (k : Nat) : Bool := (dw d 4).testBit k

theorem State.mapAct_unsupported (hop : dw d 0 % 256 = 1 ∨ dw d 0 % 256 = 3) (hbits : mapBit d 8 = true ∨ mapBit d 9 = true)
    (hfeat : s.feature 11 = false) : s.mapAct c d = some (s.status (dw d 6) (13 + Config.notSupported.toNat % 243) 0 0) := by
  have hb : (mapBit d 8 || mapBit d 9) = true := by simpa using hbits
  unfold State.mapAct
  refine if_pos ?_
  show ((decide _ || decide _) && (mapBit d 8 || mapBit d 9) && !(s.feature 11)) = true
  rw [hb, hfeat]
  rcases hop with h | h <;> simp [h]

/-- A command that is supported passes the feature's test. -/
def State.supports (s : State) (d : List Nat) : Prop := mapBit d 8 = false ∧ mapBit d 9 = false ∨ s.feature 11 = true

theorem State.mapAct_supported (hs : s.supports d) (op : Nat) :
    ((decide (op = 1) || decide (op = 3)) && ((dw d 4).testBit 8 || (dw d 4).testBit 9) && !(s.feature 11)) = false := by
  rcases hs with ⟨h8, h9⟩ | h
  · have h8 : (dw d 4).testBit 8 = false := h8
    have h9 : (dw d 4).testBit 9 = false := h9
    simp [h8, h9]
  · simp [h]

/-- W with RO, or WREV without it. -/
def mapClash (d : List Nat) : Bool := (mapBit d 7 && mapBit d 8) || (mapBit d 9 && !(mapBit d 8))

theorem State.mapAct_clash (hop : dw d 0 % 256 = 1 ∨ dw d 0 % 256 = 3) (hs : s.supports d)
    (hbusy : s.rangeBusy c (dw d 1) (dw d 2 / 2 ^ 32 * mapSize d) = false) (hclash : mapClash d = true) :
    s.mapAct c d = some (s.status (dw d 6) 4 0 0) := by
  have hclash : ((dw d 4).testBit 7 && (dw d 4).testBit 8 || (dw d 4).testBit 9 && !(dw d 4).testBit 8) = true := hclash
  have h := s.mapAct_supported hs (dw d 0 % 256)
  unfold State.mapAct
  refine (if_neg (by rw [h]; decide)).trans ?_
  rcases hop with hop | hop <;> rw [hop] <;> simp only [hbusy, hclash] <;> rfl

theorem State.mapAct_map (hop : dw d 0 % 256 = 1) (hs : s.supports d) (hclash : mapClash d = false)
    (hbusy : s.rangeBusy c (dw d 1) (dw d 2 / 2 ^ 32 * mapSize d) = false) {t : State} (ht : s.mapRange c d = some t) :
    s.mapAct c d = some (t.mapDone c (dw d 1) (dw d 2 / 2 ^ 32 * mapSize d) (dw d 6) (dw d 2 / 2 ^ 32)) := by
  have hclash : ((dw d 4).testBit 7 && (dw d 4).testBit 8 || (dw d 4).testBit 9 && !(dw d 4).testBit 8) = false := hclash
  have h := s.mapAct_supported hs (dw d 0 % 256)
  unfold State.mapAct
  refine (if_neg (by rw [h]; decide)).trans ?_
  rw [hop]
  simp only [hbusy, hclash, ht]
  rfl

theorem State.mapAct_unmap (hop : dw d 0 % 256 = 2) (hbusy : s.rangeBusy c (dw d 1) (dw d 2 / 2 ^ 32 * mapSize d) = false) :
    s.mapAct c d = some ((((List.range (dw d 2 / 2 ^ 32)).foldl (fun s i => s.clearPage c (dw d 1 + i * mapSize d) (mapSize d)) s).ackRange c (dw d 1)
      (dw d 2 / 2 ^ 32 * mapSize d)).mapDone c (dw d 1) (dw d 2 / 2 ^ 32 * mapSize d) (dw d 6) (s.mappedIn c (dw d 1) (mapSize d) (dw d 2 / 2 ^ 32))) := by
  unfold State.mapAct
  rw [hop]
  simp only [hbusy]
  rfl

theorem State.mapAct_attributes (hop : dw d 0 % 256 = 3) (hs : s.supports d) (hclash : mapClash d = false)
    (hbusy : s.rangeBusy c (dw d 1) (dw d 2 / 2 ^ 32 * mapSize d) = false) (hreps : s.replicasIn c (dw d 1) (dw d 2 / 2 ^ 32 * mapSize d) = []) :
    s.mapAct c d = some (((setAttrs c (dw d 1 + dw d 2 / 2 ^ 32 * mapSize d) (mapBit d 7) (mapBit d 8) (mapBit d 9)
      (dw d 2 / 2 ^ 32 * mapSize d / 0x10000) (dw d 1) s).ackRange c (dw d 1) (dw d 2 / 2 ^ 32 * mapSize d)).mapDone c (dw d 1)
      (dw d 2 / 2 ^ 32 * mapSize d) (dw d 6) (s.mappedIn c (dw d 1) (mapSize d) (dw d 2 / 2 ^ 32))) := by
  have hclash : ((dw d 4).testBit 7 && (dw d 4).testBit 8 || (dw d 4).testBit 9 && !(dw d 4).testBit 8) = false := hclash
  have h := s.mapAct_supported hs (dw d 0 % 256)
  unfold State.mapAct
  refine (if_neg (by rw [h]; decide)).trans ?_
  rw [hop]
  simp only [hbusy, hclash, hreps, List.foldl_nil, ite_self]
  simp [mapBit]

theorem State.mapAct_pin {on : Bool} (hop : dw d 0 % 256 = if on then 5 else 6)
    (hbusy : s.rangeBusy c (dw d 1) (dw d 2 / 2 ^ 32 * mapSize d) = false) :
    s.mapAct c d = some ((s.pinRange c (dw d 1) (dw d 2 / 2 ^ 32 * mapSize d) on).status (dw d 6) 0 0
      (s.mappedIn c (dw d 1) (mapSize d) (dw d 2 / 2 ^ 32))) := by
  unfold State.mapAct
  rw [hop]
  cases on <;> simp only [hbusy] <;> rfl

theorem State.mapAct_proof (hop : dw d 0 % 256 = 4) :
    s.mapAct c d = some { s with proofq := s.proofq ++ [⟨c, dw d 1, dw d 5, dw d 6, false⟩] } := by
  unfold State.mapAct
  rw [hop]
  rfl

theorem State.mapAct_spill (hop : dw d 0 % 256 = 7) : s.mapAct c d = some (if (s.ctx c).spillUsed = [] then
      (s.modCtx c (fun x => { x with spill := some (dw d 3, dw d 2 / 2 ^ 32) })).status (dw d 6) 0 0 (dw d 2 / 2 ^ 32)
    else s.status (dw d 6) 4 0 0) := by
  unfold State.mapAct
  rw [hop]
  cases (s.ctx c).spillUsed <;> rfl

/-- SET ATTRIBUTES of one page that is mapped by itself. -/
theorem setAttrs_one {va e : Nat} {w ro wrev : Bool} (hc : (smFind s.ctxs c).isSome = true) (hwalk : s.walk c va = .leaf e va 0x10000) :
    s.remaps (setAttrs c (va + 0x10000) w ro wrev 1 va s) ∧ (setAttrs c (va + 0x10000) w ro wrev 1 va s).page? c (va / 65536)
      = (s.page? c (va / 65536)).map (fun r => { r with st := if ro then .replica else kindState (entKind e), wrev := wrev }) := by
  have hone : setAttrs c (va + 0x10000) w ro wrev 1 va s =
      ((((if entX e && w then s.dropProofs c va 0x10000 else s).setPage c va 0x10000
        (mkLeaf (entAddr (e + (va - va))) (entKind e) (entPeer e) w (entX e && !w) ro)).dropTlb c va 0x10000).modPages c va 0x10000
          (fun r => { r with st := if ro then .replica else kindState (entKind e), wrev := wrev })) := by
    rw [setAttrs, if_neg (by omega), hwalk]
    simp only [le_refl, decide_true, Bool.and_self, if_true]
    rfl
  rw [hone]
  let x := if entX e && w then s.dropProofs c va 0x10000 else s
  have hx : s.remaps x ∧ x.ctxs = s.ctxs := by
    dsimp only [x]
    split
    · exact ⟨⟨rfl, rfl, rfl, rfl, rfl, fun _ => rfl⟩, rfl⟩
    · exact ⟨.refl s, rfl⟩
  have htab := x.tables_setPage c va 0x10000 (mkLeaf (entAddr (e + (va - va))) (entKind e) (entPeer e) w (entX e && !w) ro)
  have hz := hx.1.trans htab.remaps
  have hzc := htab.ctxs.trans hx.2
  show s.remaps (State.modPages (State.dropTlb (x.setPage _ _ _ _) _ _ _) _ _ _ _) ∧ _
  generalize x.setPage c va 0x10000 (mkLeaf (entAddr (e + (va - va))) (entKind e) (entPeer e) w (entX e && !w) ro) = z at *
  obtain ⟨hm, hp⟩ := State.modPages_acts (s := z.dropTlb c va 0x10000) ((hz.2.2.2.2.2 c).trans hc) va 0x10000
    (fun r => { r with st := if ro then .replica else kindState (entKind e), wrev := wrev })
  refine ⟨hz.trans (State.remaps.trans ⟨rfl, rfl, rfl, rfl, rfl, fun _ => rfl⟩ hm), ?_⟩
  have hin : pageIn va 0x10000 (va / 65536) = true := by
    rw [show (0x10000 : Nat) = 65536 * 1 from rfl, pageIn_units, decide_eq_true_eq]
    omega
  rw [hp, if_pos hin, State.page?_of_ctxs (show (z.dropTlb c va 0x10000).ctxs = s.ctxs from hzc)]

end

end Sys2Proof.Machine
end

section
/-! The map commands: the obligation (R283, R333, R340, R341). -/

namespace Sys2Proof.Machine

theorem State.status_waiting (s : State) (fn : Nat) (cmd : List Dword) (r st detail v : Nat) :
    (s.waiting fn cmd).status r st detail v = (s.status r st detail v).waiting fn cmd := by
  simp only [State.status]
  split <;> rfl

/-- The command leaves the window. -/
theorem State.waiting_over {s : State} (h : s.mapWait = []) (fn : Nat) (cmd : List Dword) : ({ s.waiting fn cmd with mapWait := [] } : State) = s := by
  show ({ s with mapWait := [] } : State) = s
  rw [← h]

theorem mapCommandsRefused : Claims.MapCommandsRefused := by
  intro s fn cmd d c name ends hlen hstage hwait hfin hproof
  have hctx : c = cmdCtx cmd := by
    show fld (dw (cmd.map _) 0) 16 6 = _
    rw [cdw_eq]
    rfl
  have hk : dw d 0 = cdw cmd 0 := cdw_eq cmd 0
  have run : ∀ st detail, (s.waiting fn cmd).runMap fn cmd = (some ((s.waiting fn cmd).status (dw d 6) st detail 0), s.waiting fn cmd) → ends st detail := by
    intro st detail hrun
    obtain ⟨m, hm⟩ := s.status_eq (dw d 6) st detail 0
    have hstore : ∀ op, (decide (cdw cmd 0 % 256 = op) || (decide (op = 1) && (decide (cdw cmd 0 % 256 = 0) || decide (8 ≤ cdw cmd 0 % 256)))) = true →
        s.mapStore op fn cmd = s.status (dw d 6) st detail 0 := by
      intro op hop
      have herase : ((s.status (dw d 6) st detail 0).waiting fn cmd).mapWait.erase (fn, cmd) = [] := by simp [State.waiting]
      rw [State.mapStore_runs hlen hstage hop hwait hfin (fun r hr => hctx ▸ hproof r hr) hrun, State.status_waiting, herase,
        State.waiting_over (by rw [hm]; exact hwait), State.finMaps_nil (by rw [hm]; exact hfin)]
    have hname : ∃ op, exec (name (dw d 0 % 256)) s = .next (s.mapStore op fn cmd)
        ∧ (decide (cdw cmd 0 % 256 = op) || (decide (op = 1) && (decide (cdw cmd 0 % 256 = 0) || decide (8 ≤ cdw cmd 0 % 256)))) = true := by
      rw [← hk]
      generalize dw d 0 % 256 = k
      dsimp only [name]
      split
      · exact ⟨2, rfl, rfl⟩
      · exact ⟨3, rfl, rfl⟩
      · exact ⟨4, rfl, rfl⟩
      · exact ⟨5, rfl, rfl⟩
      · exact ⟨6, rfl, rfl⟩
      · exact ⟨7, rfl, rfl⟩
      · next h2 h3 h4 h5 h6 h7 =>
        have hother : k ≠ 2 ∧ k ≠ 3 ∧ k ≠ 4 ∧ k ≠ 5 ∧ k ≠ 6 ∧ k ≠ 7 := ⟨h2, h3, h4, h5, h6, h7⟩
        refine ⟨1, rfl, ?_⟩
        simp only [decide_true, Bool.true_and, Bool.or_eq_true, decide_eq_true_eq]
        omega
    obtain ⟨op, hexec, hop⟩ := hname
    exact hexec.trans (congrArg _ (hstore op hop))
  have hforeign : (s.waiting fn cmd).foreign fn c = s.foreign fn c := rfl
  have hst : ((s.waiting fn cmd).ctx c).st = (s.ctx c).st := rfl
  refine ⟨fun h => run 11 0 ?_, fun off h hbad => run 2 off ?_, fun h hbad hlive => run 1 0 ?_⟩
  · exact if_pos (hforeign.trans h)
  · refine (if_neg (by rw [hforeign, h]; decide)).trans ?_
    rw [hbad]
  · refine (if_neg (by rw [hforeign, h]; decide)).trans ?_
    rw [hbad]
    exact if_pos (by rw [hst]; exact hlive)

/-- MAP answers with status 3 where the pacer has no space, and only then (R341). -/
theorem State.mapRange_isSome (s : State) (c : Nat) (d : List Nat) : (s.mapRange c d).isSome
    = if mapKind d = 0 && dw d 3 = 0 then (allocAll (mapSize d) (dw d 2 / 2 ^ 32) s).isSome else true := by
  unfold State.mapRange
  extract_lets size n kind own bit got
  refine Eq.trans (b := got.isSome) (by cases got <;> rfl) ?_
  dsimp only [got, own, kind]
  split <;> rfl

/-- The command in the window does not change whether the pacer has the space. -/
theorem State.mapRange_waiting {s s1 : State} {c : Nat} {d : List Nat} (h : s.mapRange c d = some s1) (fn : Nat) (cmd : List Dword) :
    ∃ t, (s.waiting fn cmd).mapRange c d = some t := by
  have hs := s.mapRange_isSome c d
  have hw := (s.waiting fn cmd).mapRange_isSome c d
  rw [State.waiting, allocAll_waiting, Option.isSome_map, ← hs, h] at hw
  exact Option.isSome_iff_exists.mp hw

/-- Settles O55: each command is judged once (`mapCommandsRefused`), acts by its own equation, and its status follows when nothing uses
the old translation any more. -/
theorem mapCommandsAct : Obligations.MapCommandsAct := by
  refine ⟨mapCommandsRefused, ?_⟩
  intro s op fn cmd hcmd d c va n len bit supported inside answers count bad
  obtain ⟨hlen, hstage, hop, hforeign, hbad, hlive, hwait, hfin, hproof, hreqs, hgangs⟩ := hcmd
  have hctx : c = cmdCtx cmd := by
    show fld (dw (cmd.map _) 0) 16 6 = _
    rw [cdw_eq]
    rfl
  have hop : dw d 0 % 256 = op := hop
  have hc : (smFind s.ctxs c).isSome = true := State.hasCtx_of_ne fun e => by
    have hlive : (s.ctx c).st = .live := hlive
    rw [e] at hlive
    cases hlive
  have hg : s.everyGangOfCtx c = [] := by
    rw [State.everyGangOfCtx, List.filter_eq_nil_iff.mpr (fun e he => by simpa using hgangs e he)]
    rfl
  let w := s.waiting fn cmd
  have store : ∀ t, w.mapAct c d = some t → s.mapStore op fn cmd = ({ t with mapWait := t.mapWait.erase (fn, cmd) } : State).finMaps := fun t ht =>
    State.mapStore_runs hlen hstage (by rw [← cdw_eq, show dw (cmd.map _) 0 % 256 = op from hop]; simp) hwait hfin (fun r hr => hctx ▸ hproof r hr)
      (State.runMap_acts (s := w) rfl rfl hforeign hbad hlive ht)
  have hsup : supported → w.supports d := id
  have status : ∀ {y : State} {st v : Nat}, w.mapAct c d = some (y.status (dw d 6) st 0 v) → w.remaps y →
      answers (s.mapStore op fn cmd) st v ∧ (s.mapStore op fn cmd).gangs = s.gangs ∧ (s.mapStore op fn cmd).ctxs = y.ctxs := by
    intro y st v hact hy
    rw [store _ hact]
    obtain ⟨ha, hgangs', hctxs⟩ := State.finish_status hy hfin (dw d 6) st 0 v
    rw [Nat.zero_mul, Nat.zero_add] at ha
    exact ⟨ha, hgangs', hctxs⟩
  have done : ∀ {y : State} {v : Nat}, w.mapAct c d = some (y.mapDone c va len (dw d 6) v) → w.remaps y →
      answers (s.mapStore op fn cmd) 0 v ∧ (s.mapStore op fn cmd).gangs = s.gangs ∧ (s.mapStore op fn cmd).ctxs = y.ctxs := by
    intro y v hact hy
    rw [store _ hact]
    exact State.finish_done hy hfin hg hreqs va len (dw d 6) v
  refine ⟨?_, ?_, ?_, ?_, ?_, ?_, ?_, ?_, ?_⟩
  · rintro rfl hs hb hbusy s1 hs1 -
    obtain ⟨y, hy⟩ := State.mapRange_waiting hs1 fn cmd
    obtain ⟨hmaps, hpages⟩ := State.mapRange_acts (s := w) hc hg hy
    obtain ⟨hans, hgangs', hctxs⟩ := done (State.mapAct_map hop (hsup hs) hb hbusy hy) hmaps
    refine ⟨_, rfl, hans, fun p hp => ?_, hgangs'⟩
    obtain ⟨r, hr, hst, hwrev, hpin⟩ := hpages p (decide_eq_true hp)
    have hrec : (s.mapStore 1 fn cmd).pageRec c (p * 65536) = r := by
      rw [State.pageRec_eq, State.page?_of_ctxs hctxs, hr]
      rfl
    have hfeat : ∀ k, k = 8 ∨ k = 9 → ((dw d 4).testBit k && w.feature 11) = bit k := by
      intro k hk
      rcases hs with ⟨h8, h9⟩ | h
      · rcases hk with rfl | rfl
        · rw [show bit 8 = false from h8, show (dw d 4).testBit 8 = false from h8]; rfl
        · rw [show bit 9 = false from h9, show (dw d 4).testBit 9 = false from h9]; rfl
      · rw [show w.feature 11 = true from h, Bool.and_true]
    rw [hrec, hst, hwrev, hfeat 8 (Or.inl rfl), hfeat 9 (Or.inr rfl)]
    exact ⟨rfl, rfl, hpin⟩
  · rintro rfl hbusy -
    obtain ⟨m, hm⟩ := mapSize_units d
    obtain ⟨hclear, hcleared⟩ := State.clearPages_acts (va := va) (m := m) n (s := w) hc
    have hact := State.mapAct_unmap (s := w) (c := c) hop hbusy
    rw [hm] at hact
    have hnone : ((List.range n).foldl (fun s i => s.clearPage c (va + i * (65536 * m)) (65536 * m)) w).everyGangOfCtx c = [] := by
      rw [State.everyGangOfCtx, hclear.1]
      exact hg
    obtain ⟨hack, hackc⟩ := State.ackRange_acts hnone va (n * (65536 * m))
    have hlen' : len = n * (65536 * m) := by rw [← hm]
    obtain ⟨hans, hgangs', hctxs⟩ := done (by rw [hlen']; exact hact) (hclear.trans hack)
    refine ⟨_, rfl, ?_, fun p hp => ?_, hgangs'⟩
    · have hcount : count = w.mappedIn c (dw d 1) (65536 * m) (dw d 2 / 2 ^ 32) := by rw [← hm]; rfl
      rw [hcount]
      exact hans
    · have hp' : pageIn va (n * (65536 * m)) p = true := by rw [← hlen']; exact decide_eq_true hp
      obtain ⟨i, hi, hin⟩ := pageIn_covers hp'
      rw [State.pageRec_eq, State.page?_of_ctxs hctxs, State.page?_of_ctxs hackc, hcleared,
        if_pos (List.any_eq_true.mpr ⟨i, List.mem_range.mpr hi, hin⟩)]
      rfl
  · rintro rfl hs hb hbusy hn hsize hreps hpage e hwalk
    have hlen' : dw d 2 / 2 ^ 32 * mapSize d = 65536 := by rw [show dw d 2 / 2 ^ 32 = 1 from hn, hsize]
    have hact := State.mapAct_attributes (s := w) (c := c) hop (hsup hs) hb hbusy hreps
    rw [hlen'] at hact
    have hwalk' : w.walk c va = .leaf e va 0x10000 := (State.walk_of_same rfl rfl rfl rfl c va).trans hwalk
    obtain ⟨hset, hrec⟩ := setAttrs_one (s := w) (w := mapBit d 7) (ro := mapBit d 8) (wrev := mapBit d 9) hc hwalk'
    have hnone : (setAttrs c (va + 0x10000) (mapBit d 7) (mapBit d 8) (mapBit d 9) 1 va w).everyGangOfCtx c = [] := by
      rw [State.everyGangOfCtx, hset.1]
      exact hg
    obtain ⟨hack, hackc⟩ := State.ackRange_acts hnone va 65536
    obtain ⟨hans, hgangs', hctxs⟩ := done (by rw [show len = 65536 from hlen']; exact hact) (hset.trans hack)
    obtain ⟨r, hr⟩ := Option.isSome_iff_exists.mp hpage
    have hat : (s.mapStore 3 fn cmd).page? c (va / 65536) = some { r with st := if mapBit d 8 then .replica else kindState (entKind e), wrev := mapBit d 9 } := by
      rw [State.page?_of_ctxs hctxs, State.page?_of_ctxs hackc, hrec, show w.page? c (va / 65536) = some r from hr]
      rfl
    have hpr : (s.mapStore 3 fn cmd).pageRec c va = { r with st := if mapBit d 8 then .replica else kindState (entKind e), wrev := mapBit d 9 } := by
      rw [State.page?] at hat
      rw [State.pageRec, hat]
      rfl
    refine ⟨_, rfl, hans, ?_, ?_, hgangs'⟩
    · rw [hpr]
      rfl
    · rw [hpr]
      rfl
  · intro hs
    have hfeat : w.feature 11 = false := by
      cases h : s.feature 11 with
      | false => exact h
      | true => exact absurd (Or.inr h) hs
    have hbits : mapBit d 8 = true ∨ mapBit d 9 = true := by
      cases h8 : bit 8 with
      | true => exact Or.inl h8
      | false =>
        cases h9 : bit 9 with
        | true => exact Or.inr h9
        | false => exact absurd (Or.inl ⟨h8, h9⟩) hs
    have hmod := Nat.mod_lt Config.notSupported.toNat (show 0 < 243 by decide)
    refine ⟨13 + Config.notSupported.toNat % 243, by omega, by omega, ?_, ?_⟩
    · rintro rfl
      obtain ⟨hans, -, hctxs⟩ := status (State.mapAct_unsupported (s := w) (c := c) (Or.inl hop) hbits hfeat) (.refl w)
      exact ⟨_, rfl, hans, hctxs⟩
    · rintro rfl
      obtain ⟨hans, -, hctxs⟩ := status (State.mapAct_unsupported (s := w) (c := c) (Or.inr hop) hbits hfeat) (.refl w)
      exact ⟨_, rfl, hans, hctxs⟩
  · intro hs hb hbusy
    refine ⟨?_, ?_⟩
    · rintro rfl
      obtain ⟨hans, -, hctxs⟩ := status (State.mapAct_clash (s := w) (c := c) (Or.inl hop) (hsup hs) hbusy hb) (.refl w)
      exact ⟨_, rfl, hans, hctxs⟩
    · rintro rfl
      obtain ⟨hans, -, hctxs⟩ := status (State.mapAct_clash (s := w) (c := c) (Or.inr hop) (hsup hs) hbusy hb) (.refl w)
      exact ⟨_, rfl, hans, hctxs⟩
  · intro on hon hbusy
    obtain ⟨hmaps, hpages⟩ := State.modPages_acts (s := w) hc va len (fun r => { r with pinned := on })
    obtain ⟨hans, hgangs', hctxs⟩ := status (State.mapAct_pin (s := w) (c := c) (hop.trans hon) hbusy) hmaps
    refine ⟨s.mapStore op fn cmd, ?_, hans, fun p hp hpage => ?_, hgangs'⟩
    · subst hon
      cases on <;> rfl
    · obtain ⟨r, hr⟩ := Option.isSome_iff_exists.mp hpage
      have hat : (s.mapStore op fn cmd).page? c p = some { r with pinned := on } :=
        (State.page?_of_ctxs hctxs c p).trans ((hpages p).trans (by
          rw [if_pos (show pageIn va len p = true from decide_eq_true hp), show w.page? c p = some r from hr]
          rfl))
      rw [State.pageRec_eq, hat]
      rfl
  · rintro rfl
    have hrun := store _ (State.mapAct_proof (s := w) (c := c) hop)
    have hempty : ([(fn, cmd)] : List (Nat × List Dword)).erase (fn, cmd) = [] := by simp
    let y : State := { s with proofq := s.proofq ++ [⟨c, va, dw d 5, dw d 6, false⟩], mapWait := [] }
    have hstore : s.mapStore 4 fn cmd = y := by
      refine hrun.trans ((congrArg State.finMaps ?_).trans (State.finMaps_nil (s := y) hfin))
      show ({ y with mapWait := [(fn, cmd)].erase (fn, cmd) } : State) = y
      rw [hempty]
    exact ⟨y, congrArg Host.Outcome.next hstore, rfl, rfl, rfl, rfl⟩
  · rintro rfl hspill
    have hact := State.mapAct_spill (s := w) (c := c) hop
    rw [if_pos (show (w.ctx c).spillUsed = [] from hspill)] at hact
    obtain ⟨hans, hgangs', hctxs⟩ := status hact (w.remaps_modCtx c _)
    refine ⟨_, rfl, hans, ?_, hgangs'⟩
    rw [State.ctx, hctxs]
    exact congrArg Ctx.spill (State.ctx_modCtx_same (s := w) (fun x => { x with spill := some (dw d 3, dw d 2 / 2 ^ 32) }) hc)
  · rintro rfl hspill
    have hact := State.mapAct_spill (s := w) (c := c) hop
    rw [if_neg (show ¬ (w.ctx c).spillUsed = [] from hspill)] at hact
    obtain ⟨hans, -, hctxs⟩ := status hact (.refl w)
    exact ⟨_, rfl, hans, hctxs⟩

end Sys2Proof.Machine
end

section
/-! Memory that is read and copied over ranges, and the proofer's findings (R109 to R111, R343, R421, R423). -/

namespace Sys2Proof.Machine

/-! Ranges of memory. -/

theorem length_bytesOf (n x : Nat) : (bytesOf n x).length = n := by
  induction n generalizing x with
  | zero => rfl
  | succ n ih => exact congrArg (· + 1) (ih _)

theorem Memory.readN_eq (m : Memory) (a n : Nat) : Memory.readN m a n = (List.range n).map (fun i => m.read (a + i)) := by
  induction n generalizing a with
  | zero => rfl
  | succ n ih =>
    rw [Memory.readN, ih, List.range_succ_eq_map, List.map_cons, List.map_map]
    refine congrArg (List.cons _) (List.map_congr_left fun i _ => ?_)
    simp only [Function.comp, Nat.succ_eq_add_one]
    congr 1
    omega

/-- Two memories that read alike over a range give the same bytes of it. -/
theorem Memory.readN_congr {m m' : Memory} {a b n : Nat} (h : ∀ i < n, m.read (a + i) = m'.read (b + i)) :
    Memory.readN m a n = Memory.readN m' b n := by
  rw [Memory.readN_eq, Memory.readN_eq]
  exact List.map_congr_left fun i hi => h i (List.mem_range.mp hi)

/-- Bytes outside the written range read as before. -/
theorem Memory.readN_writeN_other {m : Memory} {a b n : Nat} (bs : List Byte) (h : Memory.wf m = true) (hx : b + n ≤ a ∨ a + bs.length ≤ b) :
    Memory.readN (Memory.writeN m a bs) b n = Memory.readN m b n :=
  Memory.readN_congr fun i hi => Memory.read_writeN_other a (b + i) bs h (by omega)

/-- A key below every listed one is not there. -/
theorem smFind_below {α : Type} [DecidableEq α] (d : α) {m : List (Nat × α)} {l i : Nat} (h : smWfFrom d (some l) m = true) (hi : i ≤ l) :
    smFind m i = none := by
  induction m generalizing l with
  | nil => rfl
  | cons e m ih =>
    obtain ⟨k, v⟩ := e
    simp only [smWfFrom, Bool.and_eq_true, decide_eq_true_eq] at h
    obtain ⟨⟨hlt, -⟩, hm⟩ := h
    rw [smFind, if_neg (by omega)]
    exact ih hm (by omega)

theorem smGet_eq_smFind {α : Type} (d : α) (m : List (Nat × α)) (i : Nat) : smGet d m i = (smFind m i).getD d := by
  induction m with
  | nil => rfl
  | cons e m ih =>
    obtain ⟨k, v⟩ := e
    rw [smGet, smFind]
    split <;> simp [ih]

/-- A byte of a memory into which a range of another was written (R343). -/
theorem Memory.read_writeAll_shift {src dst : Memory} {lo : Option Nat} (hsrc : smWfFrom Memory.unlisted lo src = true) (hdst : Memory.wf dst = true)
    (from_ to_ n x : Nat) : Memory.read (Memory.writeAll dst ((src.filter (fun e => from_ ≤ e.1 && e.1 < from_ + n)).map (fun e => (to_ + (e.1 - from_), e.2)))) x
      = if to_ ≤ x ∧ x < to_ + n then (smFind src (from_ + (x - to_))).getD (Memory.read dst x) else Memory.read dst x := by
  induction src generalizing dst lo with
  | nil => simp [Memory.writeAll, smFind]
  | cons e src ih =>
    obtain ⟨k, v⟩ := e
    simp only [smWfFrom, Bool.and_eq_true] at hsrc
    obtain ⟨-, hrest⟩ := hsrc
    by_cases hk : from_ ≤ k ∧ k < from_ + n
    · rw [List.filter_cons_of_pos (by simpa using hk), List.map_cons]
      show Memory.read (Memory.writeAll (Memory.write dst (to_ + (k - from_)) v) _) x = _
      rw [ih hrest (Memory.write_wf _ _ hdst), smFind]
      by_cases hx : x = to_ + (k - from_)
      · subst hx
        have hkey : from_ + (to_ + (k - from_) - to_) = k := by omega
        rw [if_pos (by omega), if_pos (by omega), hkey, if_pos rfl, smFind_below _ hrest (le_refl k), Memory.read_write_same _ _ hdst]
        rfl
      · rw [Memory.read_write_other _ _ _ hdst hx]
        by_cases hin : to_ ≤ x ∧ x < to_ + n
        · rw [if_pos hin, if_pos hin, if_neg (by omega)]
        · rw [if_neg hin, if_neg hin]
    · rw [List.filter_cons_of_neg (by simpa using hk), ih hrest hdst, smFind]
      by_cases hin : to_ ≤ x ∧ x < to_ + n
      · rw [if_pos hin, if_pos hin, if_neg (by omega)]
      · rw [if_neg hin, if_neg hin]

/-- A cleared byte reads as unlisted, and any other as before. -/
theorem Memory.read_clear (m : Memory) (a n x : Nat) : Memory.read (Memory.clear m a n) x = if a ≤ x ∧ x < a + n then Memory.unlisted else Memory.read m x := by
  rw [Memory.read, Memory.read, smGet_eq_smFind, smGet_eq_smFind]
  show (smFind (m.filter (fun e => (fun k => !(decide (a ≤ k) && decide (k < a + n))) e.1)) x).getD _ = _
  rw [smFind_filter_key m (fun k => !(decide (a ≤ k) && decide (k < a + n)))]
  by_cases hx : a ≤ x ∧ x < a + n
  · rw [if_pos hx, if_neg (by simp [hx.1, hx.2])]
    rfl
  · rw [if_neg hx, if_pos (by simp only [Bool.not_eq_true', Bool.and_eq_false_iff, decide_eq_false_iff_not]; omega)]

/-- A copied byte reads as its source did, and any other as before. -/
theorem read_copyCells {src dst : Memory} (hsrc : Memory.wf src = true) (hdst : Memory.wf dst = true) (from_ to_ n x : Nat) :
    Memory.read (copyCells src dst from_ to_ n) x = if to_ ≤ x ∧ x < to_ + n then Memory.read src (from_ + (x - to_)) else Memory.read dst x := by
  rw [copyCells, Memory.read_writeAll_shift hsrc (Memory.clear_wf _ _ hdst), Memory.read_clear]
  by_cases hx : to_ ≤ x ∧ x < to_ + n
  · rw [if_pos hx, if_pos hx, if_pos hx]
    exact (smGet_eq_smFind Memory.unlisted src _).symm
  · rw [if_neg hx, if_neg hx, if_neg hx]

/-- A copied range reads as its source did. -/
theorem readN_copyCells {src dst : Memory} (hsrc : Memory.wf src = true) (hdst : Memory.wf dst = true) (from_ to_ n : Nat) :
    Memory.readN (copyCells src dst from_ to_ n) to_ n = Memory.readN src from_ n :=
  Memory.readN_congr fun i hi => by rw [read_copyCells hsrc hdst, if_pos (by omega), Nat.add_sub_cancel_left]

/-! Findings (R109 to R111, R421, R423). -/

theorem Finding.length_bytes (f : Finding) : f.bytes.length = 32 := by
  simp only [Finding.bytes, List.length_append, length_bytesOf]

/-- A status record leaves what does not overlap it. -/
theorem State.rd_status {s : State} (rec_ st detail v : Nat) {pa n : Nat} (hwf : Memory.wf s.mem = true) (h : rec_ + 16 ≤ pa ∨ pa + n ≤ rec_) :
    (s.status rec_ st detail v).rd pa n = s.rd pa n := by
  unfold State.status
  extract_lets t
  split
  · exact Memory.readN_writeN_other _ hwf (by rw [List.length_append, length_bytesOf, length_bytesOf]; omega)
  · rfl

/-- The requests after a finding: the oldest has gone. -/
def State.proofOver (s : State) (r : ProofReq) (rest : List ProofReq) : State :=
  { s with proofq := rest, far := s.far.filter (fun x => x.use ≠ .proof r.ctx), asks := s.asks.filter (fun x => x.1 ≠ .proof r.ctx) }

theorem judgeCode_clash {s : State} {c : Nat} {d : List Nat} {code : List Byte} {va : Nat}
    (h : s.classClash c (dw d 1) code.length ⟨c, dw d 1, code.length, fld (dw d 3) 39 9, fld (dw d 3) 34 5, fld (dw d 3) 29 5, (dw d 3).testBit 19,
      s.dev.feat, [], [], []⟩ = some va) :
    s.judgeCode c d code = (⟨1, 0, 0x41, 0, 0, 0, wrap 32 ((va : Int) - dw d 1), 0, 0⟩, s) := by
  rw [State.judgeCode, h]

theorem judgeCode_scans {s : State} {c : Nat} {d : List Nat} {code : List Byte} {p : Proof}
    (hp : p = ⟨c, dw d 1, code.length, fld (dw d 3) 39 9, fld (dw d 3) 34 5, fld (dw d 3) 29 5, (dw d 3).testBit 19, s.dev.feat, [], [], []⟩)
    {scan : Finding × List Nat} (hscan : scan = scanCode p.vregs p.ztiles p.barriers p.pen s.dev.feat code)
    (h : s.classClash c (dw d 1) code.length p = none) :
    ∃ (units : List Nat) (far : Memory) (t : State), t.proofs = s.proofs ∧ s.judgeCode c d code = if scan.1.status ≠ 0 then (scan.1, s) else
      ({ scan.1 with pages := (s.codePages c (dw d 1) code.length).length },
        { t with proofs := ({ p with heads := scan.2, pages := units, far := far } : Proof) :: t.proofs.filter (fun q => !(q.ctx = c && q.base = dw d 1 && q.len = code.length)) }) := by
  have hsets : ∀ (l : List (Nat × Nat)) (x : State), (l.foldl (fun s g => s.setX c g.1) x).proofs = x.proofs := by
    intro l
    induction l with
    | nil => exact fun _ => rfl
    | cons g l ih =>
      intro x
      rw [List.foldl_cons, ih]
      unfold State.setX
      split
      · next e base size _ =>
        obtain ⟨_, _, ht⟩ := x.tables_setPage c base size (mkLeaf (entAddr e) (entKind e) (entPeer e) false true (entRo e))
        show (x.setPage c base size _).proofs = _
        rw [ht]
      · rfl
  subst hp hscan
  rw [State.judgeCode, h]
  exact ⟨_, _, _, hsets (s.codePages c (dw d 1) code.length) s, rfl⟩

theorem proofsAreJudged : Claims.ProofsAreJudged := by
  refine ⟨?_, ?_⟩
  · intro s s1 r rest f hq hstep hsafe hroom
    have hlen := f.length_bytes
    generalize hbs : f.bytes = bs at hlen ⊢
    let x := (s1.proofOver r rest).wr r.recordPa bs
    have hrun : exec .prooferScan s = .next (if f.status = 0 then x.status r.statrec 0 0 f.pages else x.status r.statrec 5 0 0) := by
      show execProoferScan s = _
      rw [execProoferScan, hq]
      simp only [hstep, hsafe, hbs]
      rw [if_neg (by decide), if_pos hroom]
      exact (apply_ite Host.Outcome.next _ _ _).symm
    have hread : (r.statrec + 16 ≤ r.recordPa ∨ r.recordPa + 32 ≤ r.statrec) → Memory.wf s1.mem = true → ∀ st v,
        (x.status r.statrec st 0 v).rd r.recordPa 32 = bs := by
      intro hapart hwf st v
      have hrec := Memory.readN_writeN_same r.recordPa bs hwf
      rw [hlen] at hrec
      exact (State.rd_status (s := x) r.statrec st 0 v (Memory.writeN_wf r.recordPa bs hwf) hapart).trans hrec
    have hstats : ∀ st v, (x.status r.statrec st 0 v).stats = (r.statrec, st, v) :: s1.stats ∧ (x.status r.statrec st 0 v).proofq = rest := by
      intro st v
      obtain ⟨m, hm⟩ := x.status_eq r.statrec st 0 v
      rw [hm, Nat.zero_mul, Nat.zero_add]
      exact ⟨rfl, rfl⟩
    refine ⟨_, hrun, ?_⟩
    by_cases hf : f.status = 0
    · rw [if_pos hf, if_pos hf]
      exact ⟨(hstats 0 f.pages).2, (hstats 0 f.pages).1, hlen, fun ha hw => hread ha hw 0 f.pages⟩
    · rw [if_neg hf, if_neg hf]
      exact ⟨(hstats 5 0).2, (hstats 5 0).1, hlen, fun ha hw => hread ha hw 5 0⟩
  · intro s c d code v z b pen p r
    refine ⟨fun va h => ?_, fun h hbad => ?_, fun h hgood => ?_⟩
    · have hr : r = _ := judgeCode_clash h
      rw [hr]
      exact ⟨rfl, rfl, rfl⟩
    · obtain ⟨units, far, t, -, hjudge⟩ := judgeCode_scans (p := p) rfl rfl h
      exact hjudge.trans (if_pos hbad)
    · obtain ⟨units, far, t, -, hjudge⟩ := judgeCode_scans (p := p) rfl rfl h
      have hr : r = _ := hjudge.trans (if_neg (not_not.mpr hgood))
      rw [hr]
      exact ⟨hgood, rfl, _, List.mem_cons_self, rfl, rfl, rfl, rfl, rfl, rfl, rfl, rfl⟩

end Sys2Proof.Machine
end

section
/-! What the pacer keeps: gangs, groups, the counters of placement and which launches run under a timetable (R343 to R349). -/

namespace Sys2Proof.Machine

/-- Two records of a context with the same counters and the same launches under a timetable. -/
def Ctx.paced (x y : Ctx) : Prop :=
  y.regions = x.regions ∧ ∀ q n, ((smFind ((smFind y.queues q).getD Queue.reset).launches n).getD default).ttOn
    = ((smFind ((smFind x.queues q).getD Queue.reset).launches n).getD default).ttOn

/-- `t` is `s` but for what the pacer changes. -/
def State.paced (s t : State) : Prop := t.gangs = s.gangs ∧ t.groups = s.groups ∧ ∀ c, (s.ctx c).paced (t.ctx c)

theorem Ctx.paced.refl (x : Ctx) : x.paced x := ⟨rfl, fun _ _ => rfl⟩

theorem State.paced.refl (s : State) : s.paced s := ⟨rfl, rfl, fun _ => .refl _⟩

theorem State.paced.trans {s t u : State} (h : s.paced t) (h' : t.paced u) : s.paced u := by
  obtain ⟨a1, a2, a3⟩ := h
  obtain ⟨b1, b2, b3⟩ := h'
  exact ⟨b1.trans a1, b2.trans a2, fun c => ⟨(b3 c).1.trans (a3 c).1, fun q n => ((b3 c).2 q n).trans ((a3 c).2 q n)⟩⟩

theorem State.paced.foldl {α : Type} {f : State → α → State} (hf : ∀ (s : State) x, s.paced (f s x)) (l : List α) (s : State) :
    s.paced (l.foldl f s) := by
  induction l generalizing s with
  | nil => exact .refl s
  | cons x l ih => exact (hf s x).trans (ih _)

theorem State.paced_of {s t : State} (hgangs : t.gangs = s.gangs) (hgroups : t.groups = s.groups) (hctxs : t.ctxs = s.ctxs) : s.paced t :=
  ⟨hgangs, hgroups, fun c => by rw [State.ctx, State.ctx, hctxs]; exact .refl _⟩

theorem State.paced_modCtx (s : State) (c : Nat) {f : Ctx → Ctx} (hf : ∀ x : Ctx, x.paced (f x)) : s.paced (s.modCtx c f) := by
  refine ⟨rfl, rfl, fun d => ?_⟩
  by_cases hd : d = c
  · subst hd
    cases hs : smFind s.ctxs d with
    | none =>
      have : (s.modCtx d f).ctx d = s.ctx d := by rw [State.ctx, State.ctx, State.modCtx, smFind_smMod, if_pos rfl, hs]; rfl
      rw [this]
      exact .refl _
    | some x =>
      rw [State.ctx_modCtx_same _ (by rw [hs]; rfl)]
      exact hf _
  · rw [State.ctx_modCtx_other _ _ hd]
    exact .refl _

/-- A change of a launch that keeps whether it runs under a timetable. -/
theorem State.paced_modLaunch (s : State) (c q n : Nat) {f : Launch → Launch} (hf : ∀ l, (f l).ttOn = l.ttOn) : s.paced (s.modLaunch c q n f) := by
  refine s.paced_modCtx c fun x => ⟨rfl, fun p k => ?_⟩
  by_cases hp : p = q
  · subst hp
    rw [smFind_smPut_same]
    show ((smFind (smMod ((smFind x.queues p).getD Queue.reset).launches n f) k).getD default).ttOn = _
    rw [smFind_smMod]
    split
    · cases smFind ((smFind x.queues p).getD Queue.reset).launches k with
      | none => rfl
      | some l => exact hf l
    · rfl
  · rw [smFind_smPut_other _ _ _ _ hp]

theorem State.paced_modPages (s : State) (c va size : Nat) (f : PageRec → PageRec) : s.paced (s.modPages c va size f) :=
  s.paced_modCtx c fun _ => ⟨rfl, fun _ _ => rfl⟩

theorem State.tables.paced {s t : State} (h : s.tables t) : s.paced t := by
  obtain ⟨_, _, rfl⟩ := h
  exact .refl s

theorem State.paced_setPage (s : State) (c va size e : Nat) : s.paced (s.setPage c va size e) := (s.tables_setPage c va size e).paced

theorem State.paced_dropCopy (s : State) (c p : Nat) : s.paced (s.dropCopy c p) := by
  unfold State.dropCopy
  extract_lets va r
  split
  · next e base size _ =>
    extract_lets pa
    split
    · exact (s.paced_setPage c va 0x10000 r.entry).trans (State.paced.trans (State.paced_of rfl rfl rfl) (State.paced_modPages _ c va 0x10000 _))
    · exact .refl s
  · exact .refl s

theorem State.paced_modEntry (s : State) (m : Move) (f : TtEntry → TtEntry) : s.paced (s.modEntry m f) := s.paced_modLaunch _ _ _ fun _ => rfl

theorem State.paced_settleEntry (s : State) (m : Move) : s.paced (s.settleEntry m) := by
  unfold State.settleEntry
  split
  · exact .refl s
  · split
    · exact (s.paced_modEntry m _).trans (State.paced_modLaunch _ _ _ _ fun _ => rfl)
    · exact .refl s

theorem State.paced_moveOver (s : State) (m : Move) (ok : Bool) (n : Nat) : s.paced (s.moveOver m ok n) := by
  unfold State.moveOver
  extract_lets t u
  have hu : s.paced u := by
    dsimp only [u]
    split <;> exact State.paced_of rfl rfl rfl
  refine hu.trans ?_
  split
  · refine .foldl (fun s l => s.paced_modLaunch _ _ _ fun x => ?_) _ u
    split <;> rfl
  · split
    · refine (u.paced_modLaunch _ _ _ fun x => ?_).trans (State.paced_settleEntry _ m)
      split <;> rfl
    · exact (u.paced_modEntry m _).trans (State.paced_modLaunch _ _ _ _ fun _ => rfl)

theorem State.paced_startMove (s : State) (m : Move) (e dst : Nat) : s.paced (s.startMove m e dst) := by
  unfold State.startMove
  extract_lets va t u v
  have hu : s.paced u := by
    refine (s.paced_setPage m.ctx va 0x10000 heldEntry).trans ?_
    dsimp only [u]
    split <;> exact State.paced_of rfl rfl rfl
  have hv : u.paced v := u.paced_modPages m.ctx va 0x10000 _
  exact (hu.trans hv).trans (State.paced_of rfl rfl rfl)

theorem State.allocPage_paced {s : State} {size : Nat} {die : Option Nat} {r : Nat × State} (h : s.allocPage size die = some r) : s.paced r.2 := by
  rw [State.allocPage_eq] at h
  obtain ⟨k, -, rfl⟩ := Option.map_eq_some_iff.mp h
  exact State.paced_of rfl rfl rfl

theorem State.paced_tryMove (s : State) (m : Move) : s.paced (s.tryMove m) := by
  unfold State.tryMove
  split
  · exact State.paced_of rfl rfl rfl
  split
  · exact .refl s
  split
  · exact .refl s
  · refine State.paced.trans ?_ (State.paced_moveOver _ m true 0)
    split
    · exact s.paced_dropCopy _ _
    · exact .refl s
  · exact s.paced_moveOver m false 0
  · next e _ =>
    extract_lets pa
    split
    · split
      · exact s.paced_moveOver m false 0
      · split
        · exact s.paced_moveOver m false 0
        · exact (s.paced_startMove m e _).trans (State.paced_modCtx _ _ fun _ => ⟨rfl, fun _ _ => rfl⟩)
    · split
      · exact s.paced_moveOver m false 0
      · split
        · unfold State.askHost
          split <;> exact State.paced_of rfl rfl rfl
        · split
          · exact .refl s
          · next dst t h => exact (State.allocPage_paced h).trans (t.paced_startMove m e dst)

theorem State.paced_pumpMoves (s : State) : s.paced s.pumpMoves := .foldl State.paced_tryMove _ s

theorem State.paced_beginEntry (c q n : Nat) (s : State) (i : Nat) : s.paced (State.beginEntry c q n s i) := by
  unfold State.beginEntry
  split
  · exact .refl s
  · next e _ =>
    extract_lets m t u v
    have ht : s.paced t := s.paced_modEntry m _
    have hu : s.paced u := by
      refine ht.trans ?_
      dsimp only [u]
      split
      · exact State.paced_modPages _ _ _ _ _
      · split
        · exact State.paced_modPages _ _ _ _ _
        · exact .refl _
    refine (hu.trans (.foldl (fun s p => ?_) _ u)).trans (State.paced_settleEntry _ m)
    split
    · exact s.paced_modEntry m _
    · split
      · exact s.paced_dropCopy c p
      · exact .refl s
    · split <;> exact State.paced_of rfl rfl rfl

theorem State.paced_pace (s : State) (c q n : Nat) : s.paced (s.pace c q n) := by
  unfold State.pace
  extract_lets l t due
  split
  · exact .refl s
  · exact (State.paced.foldl (State.paced_beginEntry c q n) _ s).trans (State.paced_pumpMoves _)

end Sys2Proof.Machine
end

section
/-! Page moves, MARK answers and the counters of placement (R245, R283, R343, R346 to R348). -/

namespace Sys2Proof.Machine

/-! MARK answers (R245, R346, R347). -/

/-- A launch runs under its timetable as before. -/
theorem State.paced.ttOn {s t : State} (h : s.paced t) (c q n : Nat) : (t.launch c q n).ttOn = (s.launch c q n).ttOn := (h.2.2 c).2 q n

/-- A lane set that waits for a lap which misses nothing any more. -/
def State.lapWaits (s : State) (x : Group) (_ : Nat) (y : LaneSet) : Bool :=
  match y.st with
  | .mark n => (s.lapAnswer x.ctx x.q x.seq n).isNone
  | _ => false

/-- What the pacer does with its answer for a lap that a part asks about: `t` is the state in which it has followed the lap. -/
def State.answerMark (t : State) (u k lap : Nat) (w : Bool) (m pc : Nat) (x : Group) : Option (Nat × Nat × Nat × Nat) → Host.Outcome State Fault Refusal
  | none => .next (t.modGang u (fun g => g.setMark k [.marked lap]))
  | some miss =>
    if w then .next (t.modGang u (fun g => (g.setMark k []).block m (.mark lap) pc pc))
    else match t.missRecord x lap miss with
      | (ok, s3) => if !ok then .next s3 else
        .next ((s3.modGang u (fun g => g.setMark k [])).trap u m 2 lap pc pc ((s3.modGang u (fun g => g.setMark k [])).cycOf u + 1))

/-- A change to a gang that leaves its core leaves its cycle. -/
theorem State.cycOf_modGang (s : State) (u : Nat) {f : Gang → Gang} (hf : ∀ g, (f g).core = g.core) : (s.modGang u f).cycOf u = s.cycOf u := by
  have hcore : ((s.modGang u f).gang u).core = (s.gang u).core := by
    cases hu : smFind s.gangs u with
    | none =>
      rw [State.gang, State.gang, State.modGang, smFind_smMod, if_pos rfl, hu]
      rfl
    | some g => rw [State.gang_modGang_same _ _ _ (by rw [hu]; rfl), hf]
  rw [State.cycOf, State.cycOf, hcore]
  rfl

theorem exec_markPacerAnswer {s W t : State} {u k lap : Nat} {w : Bool} {p : Part} {x : Group} (hx : x = s.groupOf u)
    (hgo : (!((s.gang u).live && (s.gang u).stopped.isNone && (decide (x.st = .resident) || decide (x.st = .draining)))) = false)
    (hW : W = s.wakeSets u (s.cycOf u + 1) (s.lapWaits x)) (hpart : (W.gang u).part k = some p) (hasks : p.asks = some (lap, w))
    (ht : t = (W.modLaunch x.ctx x.q x.seq (fun l => { l with lead := max l.lead lap })).pace x.ctx x.q x.seq) :
    exec (.markPacerAnswer u k) s = t.answerMark u k lap w p.slices ((s.gang u).pcOf p.slices) x (t.lapAnswer x.ctx x.q x.seq lap) := by
  subst hx
  show execMarkPacerAnswer u k s = _
  unfold execMarkPacerAnswer
  refine (if_neg (by rw [hgo]; decide)).trans ?_
  dsimp only
  generalize hZ : s.wakeSets u (s.cycOf u + 1) _ = Z
  obtain rfl : W = Z := by
    rw [hW, ← hZ]
    refine congrArg (s.wakeSets u (s.cycOf u + 1)) (funext fun _ => funext fun y => ?_)
    unfold State.lapWaits
    cases y.st <;> rfl
  rw [hpart]
  dsimp only
  rw [hasks]
  dsimp only
  rw [← ht]
  unfold State.answerMark
  cases t.lapAnswer (s.groupOf u).ctx (s.groupOf u).q (s.groupOf u).seq lap with
  | none => rfl
  | some miss => rfl

theorem marksAreAnswered : Claims.MarksAreAnswered := by
  intro s u k lap w p hlive hstop hst x s1 hpart hasks s2 pc
  have hgo : (!((s.gang u).live && (s.gang u).stopped.isNone && (decide (x.st = .resident) || decide (x.st = .draining)))) = false := by
    rcases hst with h | h
    · rw [hlive, hstop, show x.st = .resident from h]; rfl
    · rw [hlive, hstop, show x.st = .draining from h]; rfl
  have hrun : exec (.markPacerAnswer u k) s = s2.answerMark u k lap w p.slices pc x (s2.lapAnswer x.ctx x.q x.seq lap) :=
    exec_markPacerAnswer (W := s1) rfl hgo rfl hpart hasks rfl
  refine ⟨fun h => ?_, fun miss h => ⟨fun hw => ?_, fun hw s3 hrec => ?_⟩, fun htt => ?_⟩
  · rw [hrun, h]
    rfl
  · rw [hrun, h]
    exact if_pos hw
  · rw [hrun, h, hw]
    rw [← State.cycOf_modGang s3 u (f := fun g => g.setMark k []) fun _ => rfl]
    simp only [State.answerMark, hrec]
    rfl
  · have h1 : s.launch x.ctx x.q x.seq = s1.launch x.ctx x.q x.seq := rfl
    have h2 := ((s1.paced_modLaunch x.ctx x.q x.seq (f := fun l => { l with lead := max l.lead lap }) fun _ => rfl).trans
      (State.paced_pace _ x.ctx x.q x.seq)).ttOn x.ctx x.q x.seq
    rw [State.lapAnswer, if_neg]
    rw [h2, ← h1, htt]
    decide

/-! The counters of placement (R348). -/

/-- A table of counts halved, without those that are 0 then. -/
theorem smGet_halved {m : List (Nat × Nat)} {lo : Option Nat} (h : smWfFrom 0 lo m = true) (i : Nat) :
    smGet 0 ((m.map (fun e => (e.1, e.2 / 2))).filter (fun e => e.2 ≠ 0)) i = smGet 0 m i / 2 := by
  induction m generalizing lo with
  | nil => simp [smGet]
  | cons e m ih =>
    obtain ⟨k, v⟩ := e
    simp only [smWfFrom, Bool.and_eq_true] at h
    obtain ⟨-, hm⟩ := h
    rw [List.map_cons, smGet]
    by_cases hv : v / 2 = 0
    · rw [List.filter_cons_of_neg (by simpa using hv), ih hm]
      split
      · next hk => rw [smGet_below 0 hm (by omega), hv]
      · rfl
    · rw [List.filter_cons_of_pos (by simpa using hv), smGet, ih hm]
      split <;> rfl

/-- A context's counters halved (R348). -/
def Ctx.halved (x : Ctx) : Ctx := { x with regions := (x.regions.map (fun e => (e.1, e.2 / 2))).filter (fun e => e.2 ≠ 0) }

/-- What makes room on a die changes the moves alone. -/
theorem State.makeRooms_eq (l : List Nat) (s : State) : ∃ ms, l.foldl State.makeRoom s = { s with moves := ms } := by
  induction l generalizing s with
  | nil => exact ⟨_, rfl⟩
  | cons d l ih =>
    have hone : ∃ ms, s.makeRoom d = { s with moves := ms } := by
      unfold State.makeRoom
      extract_lets free leaving
      split <;> exact ⟨_, rfl⟩
    obtain ⟨_, h⟩ := hone
    obtain ⟨ms, h'⟩ := ih (s.makeRoom d)
    exact ⟨ms, by rw [List.foldl_cons, h', h]⟩

theorem countersAreHalved : Claims.CountersAreHalved := by
  intro s hwf
  obtain ⟨ms, hms⟩ := State.makeRooms_eq [0, 1, 2, 3] { s with moves := s.moves ++ s.ctxs.flatMap (fun c => s.autoMoves c.1 c.2) }
  let x : State := { s with moves := ms, ctxs := s.ctxs.map (fun c => (c.1, c.2.halved)) }
  have hrun : exec .placementCounterHalving s = .next x.pumpMoves := by
    show execPlacementCounterHalving s = _
    rw [execPlacementCounterHalving]
    dsimp only
    rw [hms]
    rfl
  obtain ⟨hgangs, hgroups, hctx⟩ := x.paced_pumpMoves
  refine ⟨_, hrun, fun c r d => ?_, hgangs, hgroups⟩
  have hx : x.ctx c = if (smFind s.ctxs c).isSome then (s.ctx c).halved else s.ctx c := by
    have hfind : smFind x.ctxs c = (smFind s.ctxs c).map Ctx.halved := smFind_map_snd s.ctxs Ctx.halved c
    rw [State.ctx, hfind, State.ctx]
    cases smFind s.ctxs c <;> rfl
  rw [Ctx.count, Ctx.count, (hctx c).1, hx]
  cases hc : smFind s.ctxs c with
  | none =>
    have hnone : s.ctx c = default := by rw [State.ctx, hc]; rfl
    rw [if_neg (by decide), hnone]
    show smGet 0 [] _ = smGet 0 [] _ / 2
    simp [smGet]
  | some y =>
    have hy : s.ctx c = y := by rw [State.ctx, hc]; rfl
    rw [if_pos (by rfl), hy]
    exact smGet_halved (hwf _ (mem_of_smFind hc)) _

/-! Page moves (R283, R343). -/

/-- The move under way of a page. -/
theorem exec_pageMove {s : State} {m : Move} (hm : s.moves = [m]) (hbegan : m.began = true) : ∀ t, execPageMoveComplete m.ctx m.vpage s = t →
    exec (.pageMoveComplete m.ctx m.vpage) s = t ∧ s.moves.find? (fun x => x.ctx = m.ctx && x.vpage = m.vpage && x.began) = some m :=
  fun t h => ⟨h, by rw [hm]; simp [hbegan]⟩

/-- Code bytes that stay with the proofs change nothing else. -/
theorem State.keepCode_eq (s : State) (m : Move) : ∃ ps, s.keepCode m = { s with proofs := ps } := by
  unfold State.keepCode
  extract_lets va bs keep
  split <;> exact ⟨_, rfl⟩

/-- Marks change the marks alone. -/
theorem State.marks_eq (pa site : Nat) (l : List Nat) (s : State) : ∃ ps, l.foldl (fun s k => s.mark (pa + 32 * k) site) s = { s with poison := ps } := by
  induction l generalizing s with
  | nil => exact ⟨_, rfl⟩
  | cons k l ih =>
    have hone : ∃ ps, s.mark (pa + 32 * k) site = { s with poison := ps } := by
      unfold State.mark
      split <;> exact ⟨_, rfl⟩
    obtain ⟨_, h⟩ := hone
    obtain ⟨ps, h'⟩ := ih (s.mark (pa + 32 * k) site)
    exact ⟨ps, by rw [List.foldl_cons, h', h]⟩

/-- A page's data leave for the spill area. -/
theorem State.moveLocal_out {s : State} {m : Move} (h : m.out = true) : ∃ ps here, s.moveLocal m = { s with
    proofs := ps, hostHere := here, host := copyCells s.mem s.host (entAddr m.old) (hostKey m.ctx m.dst) 0x10000 }
      ∧ here.contains (m.ctx, m.dst / 0x10000) = true := by
  obtain ⟨ps, hps⟩ := s.keepCode_eq m
  rw [State.moveLocal, if_pos h, hps]
  refine ⟨_, _, rfl, ?_⟩
  split
  · next hin => exact hin
  · simp

/-- A page's data go to another die. -/
theorem State.moveLocal_in {s : State} {m : Move} (h : m.out = false) : ∃ futs ps fails, s.moveLocal m = { s with
    mem := copyCells s.mem s.mem (entAddr m.old) m.dst 0x10000, futs := futs, poison := ps, dieFails := fails } := by
  rw [State.moveLocal, if_neg (by rw [h]; decide)]
  extract_lets to_ here lost x
  split
  · obtain ⟨ps, hps⟩ := State.marks_eq m.dst 4 (List.range 8) (x.crossed (homeDie (entAddr m.old)))
    rw [hps]
    exact ⟨_, _, _, rfl⟩
  · exact ⟨_, _, _, rfl⟩

/-- What a move's data change: neither gangs nor contexts, nor the queues of moves and map commands. -/
theorem State.moveLocal_frame (s : State) (m : Move) : (s.moveLocal m).gangs = s.gangs ∧ (s.moveLocal m).ctxs = s.ctxs ∧ (s.moveLocal m).moves = s.moves
    ∧ (s.moveLocal m).mapWait = s.mapWait ∧ (s.moveLocal m).mapFin = s.mapFin := by
  cases h : m.out with
  | true => obtain ⟨_, _, heq, -⟩ := s.moveLocal_out h; rw [heq]; exact ⟨rfl, rfl, rfl, rfl, rfl⟩
  | false => obtain ⟨_, _, _, heq⟩ := s.moveLocal_in h; rw [heq]; exact ⟨rfl, rfl, rfl, rfl, rfl⟩

/-- Parks that are presented again: with no access under way, none. -/
theorem State.unparkPage_acts {s : State} (h : s.still) (pa : Nat) : (s.unparkPage pa).still ∧ (s.unparkPage pa).ctxs = s.ctxs
    ∧ (s.unparkPage pa).moves = s.moves ∧ (s.unparkPage pa).mapWait = s.mapWait ∧ (s.unparkPage pa).mapFin = s.mapFin := by
  have unparks : ∀ (us : List Nat) (s : State), s.still → let t := us.foldl (fun s u => s.modGang u (fun g => g.unpark (s.cyc g.core))) s
      t.still ∧ t.ctxs = s.ctxs ∧ t.moves = s.moves ∧ t.mapWait = s.mapWait ∧ t.mapFin = s.mapFin := by
    intro us
    induction us with
    | nil => exact fun s hs => ⟨hs, rfl, rfl, rfl, rfl⟩
    | cons u us ih =>
      intro s hs
      exact ih _ (State.still_modGang hs u fun g hg => by simp [Gang.unpark, hg])
  unfold State.unparkPage
  extract_lets hit us
  exact unparks us { s with fwait := _ } h

/-- A move's launches count it. -/
theorem State.countMoves_acts (c : Nat) (f : Launch → Launch) (l : List (Nat × Nat)) (s : State) :
    let t := l.foldl (fun s e => s.modLaunch c e.1 e.2 f) s
    t.gangs = s.gangs ∧ t.moves = s.moves ∧ t.mapWait = s.mapWait ∧ t.mapFin = s.mapFin ∧ ∀ d p, t.page? d p = s.page? d p := by
  induction l generalizing s with
  | nil => exact ⟨rfl, rfl, rfl, rfl, fun _ _ => rfl⟩
  | cons e l ih =>
    obtain ⟨h1, h2, h3, h4, h5⟩ := ih (s.modLaunch c e.1 e.2 f)
    refine ⟨h1, h2, h3, h4, fun d p => (h5 d p).trans ?_⟩
    by_cases hd : d = c
    · subst hd
      have hp : ((s.modLaunch d e.1 e.2 f).ctx d).pages = (s.ctx d).pages := by
        cases hs : smFind s.ctxs d with
        | none =>
          have : (s.modLaunch d e.1 e.2 f).ctx d = s.ctx d := by
            rw [State.ctx, State.ctx, State.modLaunch, State.modQueue, State.modCtx, smFind_smMod, if_pos rfl, hs]
            rfl
          rw [this]
        | some x =>
          rw [State.modLaunch, State.modQueue, State.ctx_modCtx_same _ (by rw [hs]; rfl)]
      rw [State.page?, State.page?, hp]
    · rw [State.page?, State.page?, State.modLaunch, State.modQueue, State.ctx_modCtx_other _ _ hd]

/-- The place of a local page that an automatic move takes: its record, and the end of the move (R343). -/
theorem State.placeMoved_acts {s : State} {m : Move} (hmoves : s.moves = [m]) (hkind : entKind m.old = 0) (hauto : m.auto = true)
    (hro : entRo m.old = false) (hc : (smFind s.ctxs m.ctx).isSome = true) {r : PageRec} (hr : s.page? m.ctx m.vpage = some r) :
    (s.placeMoved m).gangs = s.gangs ∧ (s.placeMoved m).moves = [] ∧ (s.placeMoved m).mapWait = s.mapWait ∧ (s.placeMoved m).mapFin = s.mapFin
      ∧ ∃ r', (s.placeMoved m).page? m.ctx m.vpage = some r' ∧ r'.st = (if m.out then .host else .resident) ∧ r'.owned = !m.out := by
  unfold State.placeMoved
  extract_lets va r0 kind copy t u v w
  obtain ⟨_, _, ht⟩ := s.tables_setPage m.ctx va 0x10000 (mkLeaf m.dst kind 0 (entW m.old) (entX m.old) (entRo m.old))
  have htf : t.gangs = s.gangs ∧ t.ctxs = s.ctxs ∧ t.moves = s.moves ∧ t.mapWait = s.mapWait ∧ t.mapFin = s.mapFin := by
    show (s.setPage _ _ _ _).gangs = _ ∧ _
    dsimp only [t]
    rw [ht]
    exact ⟨rfl, rfl, rfl, rfl, rfl⟩
  obtain ⟨tg, tc, tm, tw, tf⟩ := htf
  obtain ⟨hu, hup⟩ := State.modPages_acts (s := t) (by rw [tc]; exact hc) va 0x10000 (fun r => { r with
    st := if entRo m.old && !m.out then .replica else kindState kind, owned := !m.out, entry := if copy then m.old else 0 })
  have hv : v.gangs = u.gangs ∧ v.ctxs = u.ctxs ∧ v.moves = u.moves ∧ v.mapWait = u.mapWait ∧ v.mapFin = u.mapFin := by
    dsimp only [v]
    split <;> exact ⟨rfl, rfl, rfl, rfl, rfl⟩
  obtain ⟨vg, vc, vm, vw, vf⟩ := hv
  have hw : w = v := if_neg (by rw [hkind]; decide)
  have hover : w.moveOver m true 0x10000 = (({ w with moves := w.moves.filter (fun x => x ≠ m) } : State).timed m.ctx).foldl
      (fun s l => s.modLaunch m.ctx l.1 l.2 (fun l => { l with autoMoves := l.autoMoves + 1 })) { w with moves := w.moves.filter (fun x => x ≠ m) } := by
    unfold State.moveOver
    exact if_pos hauto
  obtain ⟨hg, hm, hmw, hmf, hp⟩ := State.countMoves_acts m.ctx (fun l => { l with autoMoves := l.autoMoves + 1 })
    (({ w with moves := w.moves.filter (fun x => x ≠ m) } : State).timed m.ctx) { w with moves := w.moves.filter (fun x => x ≠ m) }
  have hgone : w.moves.filter (fun x => x ≠ m) = [] := by
    rw [hw, vm, show u.moves = t.moves from rfl, tm, hmoves]
    simp
  have hin : pageIn va 0x10000 m.vpage = true := by
    rw [show (0x10000 : Nat) = 65536 * 1 from rfl, pageIn_units, decide_eq_true_eq]
    show m.vpage * 65536 / 65536 ≤ _ ∧ _ < m.vpage * 65536 / 65536 + 1
    omega
  rw [hover]
  refine ⟨hg.trans ?_, hm.trans hgone, hmw.trans ?_, hmf.trans ?_,
    { r with st := if entRo m.old && !m.out then .replica else kindState kind, owned := !m.out, entry := if copy then m.old else 0 }, ?_, ?_, rfl⟩
  · show w.gangs = _
    rw [hw, vg]
    exact tg
  · show w.mapWait = _
    rw [hw, vw]
    exact tw
  · show w.mapFin = _
    rw [hw, vf]
    exact tf
  · refine (hp _ _).trans ?_
    have hwc : ({ w with moves := w.moves.filter (fun x => x ≠ m) } : State).ctxs = u.ctxs := by
      show w.ctxs = _
      rw [hw, vc]
    rw [State.page?_of_ctxs hwc]
    refine (hup _).trans ?_
    rw [if_pos hin, State.page?_of_ctxs tc, hr]
    rfl
  · dsimp only [kind]
    rw [hro]
    cases m.out <;> rfl

/-- With no access under way, an acknowledged page changes no page and no move. -/
theorem State.still.ackPage_keeps {s : State} (hs : s.still) (c p : Nat) : (s.ackPage c p).moves = s.moves ∧ (s.ackPage c p).ctxs = s.ctxs
    ∧ (s.ackPage c p).failed = s.failed ∧ (s.ackPage c p).still := by
  unfold State.ackPage
  extract_lets clr t u gs v free w
  have hu : t.still → u.still ∧ u.moves = t.moves ∧ u.ctxs = t.ctxs ∧ u.failed = t.failed := by
    have : ∀ (l : List Nat) (x : State), x.still → (l.foldl State.refillMerge x).still ∧ (l.foldl State.refillMerge x).moves = x.moves
        ∧ (l.foldl State.refillMerge x).ctxs = x.ctxs ∧ (l.foldl State.refillMerge x).failed = x.failed := by
      intro l
      induction l with
      | nil => exact fun x hx => ⟨hx, rfl, rfl, rfl⟩
      | cons d l ih => exact fun x hx => ih (x.refillMerge d) hx
    exact this _ _
  have hv : u.still → v.still ∧ v.moves = u.moves ∧ v.ctxs = u.ctxs ∧ v.failed = u.failed := by
    have : ∀ (l : List Nat) (x : State), x.still → let y := l.foldl (fun s u => s.modGang u (fun g => g.replayPage p)) x
        y.still ∧ y.moves = x.moves ∧ y.ctxs = x.ctxs ∧ y.failed = x.failed := by
      intro l
      induction l with
      | nil => exact fun x hx => ⟨hx, rfl, rfl, rfl⟩
      | cons a l ih => exact fun x hx => ih _ (State.still_modGang hx a fun g hg => by simp [Gang.replayPage, hg])
    exact this _ _
  obtain ⟨hus, hum, huc, huf⟩ := hu hs
  obtain ⟨hvs, hvm, hvc, hvf⟩ := hv hus
  rw [State.pump_still (s := w) fun x _ => hvs x]
  exact ⟨hvm.trans hum, hvc.trans huc, hvf.trans huf, hvs⟩

/-- With no command and no access waiting, and no other move, nothing more comes of a move's end. -/
theorem State.afterMove_acts {s : State} (hs : s.still) (hmoves : s.moves = []) (hwait : s.mapWait = []) (hfin : s.mapFin = []) (c p : Nat) :
    (s.afterMove c p).moves = [] ∧ (s.afterMove c p).ctxs = s.ctxs := by
  have hsettle : s.settleMaps = s := by
    rw [State.settleMaps, State.finMaps_nil hfin, hwait]
    rfl
  have hack := hs.ackPage_keeps c p
  have hpump : (s.ackPage c p).pumpMoves = s.ackPage c p := by
    rw [State.pumpMoves, hack.1, hmoves]
    rfl
  rw [State.afterMove, hsettle, hpump]
  exact ⟨hack.1.trans hmoves, hack.2.1⟩

theorem pageMovesComplete : Claims.PageMovesComplete := by
  refine ⟨?_, ?_, ?_, ?_⟩
  · intro s m hmoves hbegan hkind hauto hro hwait hfin haccs hreqs hpage
    have hstill : s.still := State.still_of haccs
    have hc : (smFind s.ctxs m.ctx).isSome = true := State.hasCtx_of_ne fun e => by
      rw [e] at hpage
      cases hpage
    have hold : s.oldUse m.ctx (m.vpage * 0x10000) 0x10000 m.upTo = false := by
      rw [State.oldUse, hreqs]
      simp [hstill _]
    obtain ⟨r, hr⟩ := Option.isSome_iff_exists.mp hpage
    obtain ⟨lg, lc, lm, lw, lf⟩ := s.moveLocal_frame m
    have hlstill : (s.moveLocal m).still := fun u => by
      rw [State.gang, lg]
      exact hstill u
    obtain ⟨ustill, uc, um, uw, uf⟩ := State.unparkPage_acts hlstill (entAddr m.old)
    obtain ⟨pg, pm, pw, pf, r', hr', hst, howned⟩ := State.placeMoved_acts (s := (s.moveLocal m).unparkPage (entAddr m.old))
      ((um.trans lm).trans hmoves) hkind hauto hro (by rw [uc, lc]; exact hc) (by rw [State.page?_of_ctxs (uc.trans lc)]; exact hr)
    have pstill : (((s.moveLocal m).unparkPage (entAddr m.old)).placeMoved m).still := fun u => by
      rw [State.gang, pg]
      exact ustill u
    obtain ⟨am, ac⟩ := State.afterMove_acts pstill pm ((pw.trans (uw.trans lw)).trans hwait) ((pf.trans (uf.trans lf)).trans hfin) m.ctx m.vpage
    have hrun : exec (.pageMoveComplete m.ctx m.vpage) s
        = .next ((((s.moveLocal m).unparkPage (entAddr m.old)).placeMoved m).afterMove m.ctx m.vpage) := by
      show execPageMoveComplete m.ctx m.vpage s = _
      rw [execPageMoveComplete, hmoves]
      simp only [List.find?_cons, hbegan, decide_true, Bool.and_self, hold, hkind]
      rfl
    refine ⟨_, hrun, am, ?_, ?_⟩
    · rw [State.pageRec_eq, State.page?_of_ctxs ac, hr']
      exact hst
    · rw [State.pageRec_eq, State.page?_of_ctxs ac, hr']
      exact howned
  · intro s m hmem hhost t
    refine ⟨fun h => ?_, fun h => ?_⟩
    · obtain ⟨_, _, _, ht⟩ := s.moveLocal_in h
      have hm : t.mem = copyCells s.mem s.mem (entAddr m.old) m.dst 65536 := congrArg State.mem ht
      refine ⟨?_, show (s.moveLocal m).host = _ by rw [ht], fun a ha => ?_⟩
      · rw [State.rd, hm]
        exact readN_copyCells hmem hmem _ _ _
      · rw [hm, read_copyCells hmem hmem, if_neg (by omega)]
    · obtain ⟨_, here, ht, hhere⟩ := s.moveLocal_out h
      have hm : t.host = copyCells s.mem s.host (entAddr m.old) (hostKey m.ctx m.dst) 65536 := congrArg State.host ht
      refine ⟨?_, show (s.moveLocal m).mem = _ by rw [ht], ?_⟩
      · rw [State.hostRd, hm]
        exact readN_copyCells hmem hhost _ _ _
      · rw [State.hostPresent, show t.hostHere = here from congrArg State.hostHere ht]
        exact hhere
  · intro s m hmoves hbegan hkind habsent hold
    show execPageMoveComplete m.ctx m.vpage s = _
    have hold : s.oldUse m.ctx (m.vpage * 0x10000) 0x10000 m.upTo = false := hold
    rw [execPageMoveComplete, hmoves]
    simp only [List.find?_cons, hbegan, decide_true, Bool.and_self, hold, hkind, habsent]
    rfl
  · intro s m hmoves hbegan hold
    show execPageMoveComplete m.ctx m.vpage s = _
    have hold : s.oldUse m.ctx (m.vpage * 0x10000) 0x10000 m.upTo = true := hold
    rw [execPageMoveComplete, hmoves]
    simp only [List.find?_cons, hbegan, decide_true, Bool.and_self, hold]
    rfl

/-- Settles O56: findings are judged and recorded, moves end with their data copied, the pacer answers MARKs and halves its counters. -/
theorem prooferAndPacer : Obligations.ProoferAndPacer := ⟨proofsAreJudged, pageMovesComplete, marksAreAnswered, countersAreHalved⟩

end Sys2Proof.Machine
end

section
/-! One access of a gang that has nothing else under way: how its lanes are performed in order, and what the pump leaves (R181, R185). -/

namespace Sys2Proof.Machine

/-! The lanes of a part ascend. -/

theorem pairwise_bitsOf (n m : Nat) : (bitsOf n m).Pairwise (· < ·) := List.pairwise_lt_range.filter _

theorem Gang.pairwise_lanesOf (g : Gang) (m : Nat) : (g.lanesOf m).Pairwise (· < ·) := by
  refine List.pairwise_flatMap.mpr ⟨fun k _ => ?_, ?_⟩
  · split
    · exact List.Pairwise.nil
    · exact (pairwise_bitsOf _ _).map _ fun i j h => by omega
  · refine (pairwise_bitsOf 8 m).imp fun {i j} hij x hx y hy => ?_
    have hdiv : ∀ k l, l ∈ (match (g.slice k).curSet with
        | none => []
        | some x => (bitsOf 8 x.mask).map (fun j => 8 * k + j)) → l / 8 = k := fun k l h => by
      split at h
      · exact absurd h List.not_mem_nil
      · obtain ⟨q, hq, rfl⟩ := List.mem_map.mp h
        have := (mem_bitsOf.mp hq).1
        omega
    have := hdiv _ _ hx
    have := hdiv _ _ hy
    omega

theorem State.pairwise_active (s : State) (c : Cursor) (g : Guard) : (s.active c g).Pairwise (· < ·) :=
  (Gang.pairwise_lanesOf _ _).filter _

/-- A lane of a part lies on one of its slices, which has a current lane set. -/
theorem Gang.slice_of_lanesOf {g : Gang} {m l : Nat} (h : l ∈ g.lanesOf m) : m.testBit (l / 8) = true ∧ ∃ x, (g.slice (l / 8)).curSet = some x := by
  obtain ⟨k, hk, hl⟩ := List.mem_flatMap.mp h
  split at hl
  · exact absurd hl List.not_mem_nil
  · next x hx =>
    obtain ⟨j, hj, rfl⟩ := List.mem_map.mp hl
    have := (mem_bitsOf.mp hj).1
    rw [show (8 * k + j) / 8 = k by omega]
    exact ⟨(mem_bitsOf.mp hk).2, x, hx⟩

/-! What performing lanes changes. -/

/-- A change to a gang's accesses and the moment of its acquire alone. -/
def Gang.keepsRest (f : Gang → Gang) : Prop := ∀ g, ∃ accs acq, f g = { g with accs := accs, acq := acq }

/-- A change to a context's counts of accesses alone. -/
def Ctx.counts (f : Ctx → Ctx) : Prop := ∀ x, ∃ r, f x = { x with regions := r }

/-- What performing the lanes of one access of gang `u` in context `c` may change: that gang's accesses, the counts of the context, groups,
memory, the idle times of HBM and the links. -/
def State.performs (u c : Nat) (s t : State) : Prop := ∃ (f : Gang → Gang) (h : Ctx → Ctx) (serial : Nat) (groups : List (Nat × Group)) (mem : List (Nat × Byte))
  (hbm : List (Nat × (Nat × Bool))) (link : Link), Gang.keepsRest f ∧ Ctx.counts h ∧
  t = { s with gangs := smMod s.gangs u f, ctxs := smMod s.ctxs c h, serial := serial, groups := groups, mem := mem, hbm := hbm, link := link }

theorem smMod_self {α : Type} (m : List (Nat × α)) (i : Nat) : smMod m i (fun x => x) = m := by
  unfold smMod
  exact (List.map_congr_left fun e _ => by split <;> rfl).trans (List.map_id m)

theorem State.performs_of (u c : Nat) (s : State) {f : Gang → Gang} (hf : Gang.keepsRest f) (serial : Nat) (groups : List (Nat × Group))
    (mem : List (Nat × Byte)) (hbm : List (Nat × (Nat × Bool))) (link : Link) :
    State.performs u c s { s with gangs := smMod s.gangs u f, serial := serial, groups := groups, mem := mem, hbm := hbm, link := link } :=
  ⟨f, fun x => x, serial, groups, mem, hbm, link, hf, fun _ => ⟨_, rfl⟩, by rw [smMod_self]⟩

theorem State.performs_refl (u c : Nat) (s : State) : State.performs u c s s :=
  ⟨fun x => x, fun x => x, s.serial, s.groups, s.mem, s.hbm, s.link, fun _ => ⟨_, _, rfl⟩, fun _ => ⟨_, rfl⟩, by rw [smMod_self, smMod_self]⟩

theorem State.performs.trans {u c : Nat} {s t w : State} (h : State.performs u c s t) (h' : State.performs u c t w) : State.performs u c s w := by
  obtain ⟨f, g, _, _, _, _, _, hf, hg, rfl⟩ := h
  obtain ⟨f', g', a, b, m, d, e, hf', hg', rfl⟩ := h'
  refine ⟨fun x => f' (f x), fun x => g' (g x), a, b, m, d, e, fun x => ?_, fun x => ?_, ?_⟩
  · obtain ⟨_, _, h1⟩ := hf x
    obtain ⟨_, _, h2⟩ := hf' (f x)
    exact ⟨_, _, h2.trans (by rw [h1])⟩
  · obtain ⟨_, h1⟩ := hg x
    obtain ⟨_, h2⟩ := hg' (g x)
    exact ⟨_, h2.trans (by rw [h1])⟩
  · rw [smMod_smMod, smMod_smMod]

theorem State.performs.gang {u c : Nat} {s t : State} (h : State.performs u c s t) : ∃ accs acq, t.gang u = { s.gang u with accs := accs, acq := acq } := by
  obtain ⟨f, g, _, _, _, _, _, hf, -, rfl⟩ := h
  show ∃ accs acq, (s.modGang u f).gang u = _
  cases hu : smFind s.gangs u with
  | some x =>
    rw [State.gang_modGang_same _ _ _ (by rw [hu]; rfl)]
    exact hf _
  | none =>
    rw [State.gang, State.gang, State.modGang, smFind_smMod, if_pos rfl, hu]
    exact ⟨_, _, rfl⟩

theorem State.performs.has {u c : Nat} {s t : State} (h : State.performs u c s t) (v : Nat) : (smFind t.gangs v).isSome = (smFind s.gangs v).isSome := by
  obtain ⟨f, g, _, _, _, _, _, -, -, rfl⟩ := h
  show (smFind (smMod s.gangs u f) v).isSome = _
  rw [smFind_smMod]
  split
  · next hv => rw [hv]; cases smFind s.gangs u <;> rfl
  · rfl

/-- A gang's registers do not depend on its accesses. -/
theorem Gang.keepsRest.regs {f : Gang → Gang} (hf : Gang.keepsRest f) (g : Gang) : Gang.keepsRegs g (f g) := by
  obtain ⟨_, _, h⟩ := hf g
  rw [h]
  exact ⟨rfl, rfl, rfl, rfl, rfl, rfl, rfl, rfl, rfl, rfl, rfl, rfl, rfl, rfl, rfl, rfl⟩

theorem State.performs.sameRegs {u c : Nat} {s t : State} (h : State.performs u c s t) : s.sameRegs t := by
  obtain ⟨f, g, _, _, _, _, _, hf, -, rfl⟩ := h
  exact State.sameRegs_trans (s.sameRegs_modGang u (hf.regs _)) (State.sameRegs_of_gangs rfl rfl)

/-- What performing lanes leaves of the state outside gangs, groups and memory. -/
theorem State.performs.rest {u c : Nat} {s t : State} (h : State.performs u c s t) :
    t.host = s.host ∧ t.futs = s.futs ∧ t.dev = s.dev ∧ t.cores = s.cores ∧ t.clusters = s.clusters ∧ t.dieFails = s.dieFails ∧ t.poison = s.poison
      ∧ t.fwait = s.fwait := by
  obtain ⟨f, g, _, _, _, _, _, -, -, rfl⟩ := h
  exact ⟨rfl, rfl, rfl, rfl, rfl, rfl, rfl, rfl⟩

theorem smFind_any {α : Type} (m : List (Nat × α)) (P : Nat × α → Bool) (f : α → α) (i : Nat) (h : ∀ k x, P (k, f x) = P (k, x)) :
    (smMod m i f).any P = m.any P := by
  unfold smMod
  rw [List.any_map]
  refine congrArg (List.any m) (funext fun e => ?_)
  show P (if e.1 = i then (e.1, f e.2) else e) = P e
  split
  · exact h _ _
  · rfl

theorem State.placeLeaf_congr {s t : State} {c va : Nat} (hrec : t.pageRec c va = s.pageRec c va) (htab : ∀ pa, t.inTables pa = s.inTables pa)
    (hhost : t.hostHere = s.hostHere) (e base : Nat) (use : Use) : t.placeLeaf c va e base use = s.placeLeaf c va e base use := by
  unfold State.placeLeaf State.hostPresent
  rw [hrec, hhost]
  simp only [htab]

theorem State.performs.pages {u c : Nat} {s t : State} (h : State.performs u c s t) (d : Nat) : (t.ctx d).pages = (s.ctx d).pages := by
  obtain ⟨f, g, serial, groups, mem, hbm, link, -, hg, rfl⟩ := h
  show ((s.modCtx c g).ctx d).pages = _
  by_cases hd : d = c
  · subst hd
    cases hs : smFind s.ctxs d with
    | some x =>
      rw [State.ctx_modCtx_same _ (by rw [hs]; rfl)]
      obtain ⟨r, hr⟩ := hg (s.ctx d)
      rw [hr]
    | none =>
      rw [State.ctx, State.ctx, State.modCtx, smFind_smMod, if_pos rfl, hs]
      rfl
  · rw [State.ctx_modCtx_other _ _ hd]

theorem State.performs.inTables {u c : Nat} {s t : State} (h : State.performs u c s t) (pa : Nat) : t.inTables pa = s.inTables pa := by
  obtain ⟨f, g, serial, groups, mem, hbm, link, -, hg, rfl⟩ := h
  unfold State.inTables
  refine congrArg (fun b => _ || b) (smFind_any _ _ g c fun k x => ?_)
  obtain ⟨r, hr⟩ := hg x
  rw [hr]

/-- An address that a core's TLB translates to a local page does so after lanes have been performed. -/
theorem State.performs.hits {u c : Nat} {s t : State} (h : State.performs u c s t) {core ctx va pa : Nat} {use : Use} (hh : s.hits core ctx va use pa) :
    t.hits core ctx va use pa := by
  obtain ⟨hf, e, he, hp⟩ := hh
  have hrec : t.pageRec ctx va = s.pageRec ctx va := by rw [State.pageRec, State.pageRec, h.pages]
  refine ⟨?_, e, ?_, (State.placeLeaf_congr hrec h.inTables ?_ e.e e.va use).trans hp⟩
  · obtain ⟨_, _, _, _, _, _, _, _, _, rfl⟩ := h
    exact hf
  · obtain ⟨_, _, _, _, _, _, _, _, _, rfl⟩ := h
    exact he
  · obtain ⟨_, _, _, _, _, _, _, _, _, rfl⟩ := h
    rfl

/-! One access. -/

/-- Gang `u` has one access, whose lanes `d` have been performed and whose lanes `r` are still queued, in ascending order. -/
structure State.performing (s : State) (u id : Nat) (a : Acc) (d r : List AccLane) : Prop where
  accs : (s.gang u).accs = [(id, { a with lanes := d ++ r })]
  free : (s.gang u).fenced id a = false
  late : a.parks = false ∨ a.cyc < s.cycOf u
  done : ∀ x ∈ d, x.st.pending = false
  queued : ∀ x ∈ r, x.st = .queued
  ascend : ((d ++ r).map (·.lane)).Pairwise (· < ·)

theorem State.performing.has {s : State} {u id : Nat} {a : Acc} {d r : List AccLane} (h : s.performing u id a d r) : (smFind s.gangs u).isSome = true := by
  cases hu : smFind s.gangs u with
  | some g => rfl
  | none =>
    have := h.accs
    rw [State.gang, hu] at this
    cases this

theorem State.performing.acc {s : State} {u id : Nat} {a : Acc} {d r : List AccLane} (h : s.performing u id a d r) :
    (s.gang u).acc id = { a with lanes := d ++ r } := by
  rw [Gang.acc, h.accs, smFind, if_pos rfl]
  rfl

/-- The lane that is next lies behind those performed and before the others. -/
theorem State.performing.next {s : State} {u id : Nat} {a : Acc} {d r : List AccLane} {l : AccLane} (h : s.performing u id a d (l :: r)) :
    (∀ x ∈ d, x.lane < l.lane) ∧ ∀ x ∈ r, l.lane < x.lane := by
  have := h.ascend
  rw [List.map_append, List.pairwise_append, List.map_cons, List.pairwise_cons] at this
  obtain ⟨-, ⟨hr, -⟩, hd⟩ := this
  exact ⟨fun x hx => hd _ (List.mem_map_of_mem hx) _ List.mem_cons_self, fun x hx => hr _ (List.mem_map_of_mem hx)⟩

theorem State.performing.find {s : State} {u id : Nat} {a : Acc} {d r : List AccLane} {l : AccLane} (h : s.performing u id a d (l :: r)) :
    (d ++ l :: r).find? (fun x => x.lane = l.lane) = some l := by
  rw [List.find?_append, List.find?_eq_none.mpr fun x hx => by
    have := h.next.1 x hx
    simp only [decide_eq_true_eq]
    omega]
  simp

/-- With no other access of its gang, a queued lane may be performed once those before it are. -/
theorem State.performing.may {s : State} {u id : Nat} {a : Acc} {d r : List AccLane} {l : AccLane} (h : s.performing u id a d (l :: r)) :
    s.mayPerform u id { a with lanes := d ++ l :: r } [] l = true := by
  have hfree : ∀ x, s.laneFree u id { a with lanes := d ++ l :: r } x = true := fun x => by
    rw [State.laneFree, h.accs]
    simp
  have hfen : (s.gang u).fenced id { a with lanes := d ++ l :: r } = false := h.free
  have hlate : (!({ a with lanes := d ++ l :: r } : Acc).parks || decide (a.cyc < s.cyc (s.gang u).core)) = true := by
    rcases h.late with hp | hp
    · rw [show ({ a with lanes := d ++ l :: r } : Acc).parks = false from hp]
      rfl
    · rw [show decide (a.cyc < s.cyc (s.gang u).core) = true from decide_eq_true hp, Bool.or_true]
  unfold State.mayPerform
  dsimp only
  rw [hfen, hlate, hfree]
  refine Bool.or_eq_true_iff.mpr (.inr (List.all_eq_true.mpr fun x hx => ?_))
  rcases List.mem_append.mp hx with hx | hx
  · rw [h.done x hx]
    simp
  · rcases List.mem_cons.mp hx with rfl | hx
    · simp
    · rw [decide_eq_true (h.next.2 x hx), hfree]
      simp

/-- Setting one lane of a gang's one access. -/
theorem State.setLanes_one {s : State} {u id : Nat} {a : Acc} {d r : List AccLane} {l : AccLane} (haccs : (s.gang u).accs = [(id, { a with lanes := d ++ l :: r })])
    (hd : ∀ x ∈ d, x.lane ≠ l.lane) (hr : ∀ x ∈ r, x.lane ≠ l.lane) (f : AccLane → AccLane) :
    ∃ g, s.setLanes u id [l.lane] f = s.modGang u g ∧ Gang.keepsRest g ∧ (g (s.gang u)).accs = [(id, { a with lanes := d ++ f l :: r })] := by
  refine ⟨_, rfl, fun g => ⟨_, g.acq, rfl⟩, ?_⟩
  unfold Gang.modAcc
  dsimp only
  rw [haccs, smMod, List.map_cons, if_pos rfl, List.map_nil]
  have hkeep : ∀ m : List AccLane, (∀ x ∈ m, x.lane ≠ l.lane) → m.map (fun x => if [l.lane].contains x.lane then f x else x) = m := fun m hm =>
    (List.map_congr_left fun x hx => if_neg (by simpa using hm x hx)).trans (List.map_id m)
  have hl : (if [l.lane].contains l.lane then f l else l) = f l := if_pos (by simp)
  dsimp only
  rw [List.map_append, List.map_cons, hl, hkeep d hd, hkeep r hr]

/-- Setting the lane that is next. -/
theorem State.performing.setLanes {s : State} {u id : Nat} {a : Acc} {d r : List AccLane} {l : AccLane} (h : s.performing u id a d (l :: r)) (f : AccLane → AccLane) :
    ∃ g, s.setLanes u id [l.lane] f = s.modGang u g ∧ Gang.keepsRest g ∧ (g (s.gang u)).accs = [(id, { a with lanes := d ++ f l :: r })] :=
  State.setLanes_one h.accs (fun x hx => Nat.ne_of_lt (h.next.1 x hx)) (fun x hx => Nat.ne_of_gt (h.next.2 x hx)) f

/-- A lane of an acquire that has been performed moves its gang's acquire alone. -/
theorem State.noteAcquire_eq (s : State) (u : Nat) (a : Acc) : ∃ g n, Gang.keepsRest g ∧ (∀ x, (g x).accs = x.accs)
    ∧ s.noteAcquire u a = { s with gangs := smMod s.gangs u g, serial := n } := by
  unfold State.noteAcquire
  split
  · exact ⟨fun g => { g with acq := s.serial + 1 }, s.serial + 1, fun g => ⟨g.accs, _, rfl⟩, fun _ => rfl, rfl⟩
  · exact ⟨fun g => g, s.serial, fun g => ⟨g.accs, g.acq, rfl⟩, fun _ => rfl, by rw [smMod_self]⟩

theorem Gang.keepsRest.comp {f g : Gang → Gang} (hf : Gang.keepsRest f) (hg : Gang.keepsRest g) : Gang.keepsRest (fun x => g (f x)) := fun x => by
  obtain ⟨_, _, h1⟩ := hf x
  obtain ⟨_, _, h2⟩ := hg (f x)
  exact ⟨_, _, h2.trans (by rw [h1])⟩

/-- The next lane has been performed. -/
theorem State.performing.step {s t : State} {u id c : Nat} {a : Acc} {d r : List AccLane} {l l' : AccLane} (h : s.performing u id a d (l :: r))
    (hp : State.performs u c s t) (haccs : (t.gang u).accs = [(id, { a with lanes := d ++ l' :: r })]) (hlane : l'.lane = l.lane) (hst : l'.st.pending = false) :
    t.performing u id a (d ++ [l']) r := by
  obtain ⟨accs, acq, hg⟩ := hp.gang
  obtain ⟨-, -, -, hco, hcl, -⟩ := hp.rest
  refine ⟨by rw [List.append_assoc]; exact haccs, ?_, ?_, fun x hx => ?_, fun x hx => h.queued x (List.mem_cons_of_mem _ hx), ?_⟩
  · rw [hg]
    exact h.free
  · rcases h.late with hl | hl
    · exact .inl hl
    · refine .inr (hl.trans_eq ?_)
      rw [State.cycOf, State.cycOf, hg, State.cyc, State.cyc, State.core, State.core, State.cluster, State.cluster, hco, hcl]
  · rcases List.mem_append.mp hx with hx | hx
    · exact h.done x hx
    · obtain rfl : x = l' := by simpa using hx
      exact hst
  · have := h.ascend
    simpa [hlane] using this

/-- A lane of scratchpad that is next is performed there. -/
theorem State.performing.pumpLane_sp {s : State} {u id : Nat} {a : Acc} {d r : List AccLane} {l : AccLane} (h : s.performing u id a d (l :: r)) (hsp : a.sp = true)
    (ws : List Nat) : State.pumpLane u id (ws, [], s) l.lane
      = (ws ++ (s.performSp u id { a with lanes := d ++ l :: r } l).1, [], (s.performSp u id { a with lanes := d ++ l :: r } l).2) := by
  have hgo : (l.st ≠ .queued || !(s.mayPerform u id { a with lanes := d ++ l :: r } [] l)) = false := by
    rw [h.may, h.queued l List.mem_cons_self]
    rfl
  unfold State.pumpLane
  dsimp only
  rw [h.acc, h.find]
  dsimp only
  rw [List.map_nil, hgo]
  exact if_pos hsp

/-- A lane of a local page that is next, whose address the TLB of its core translates, is performed there. -/
theorem State.performing.pumpLane_hbm {s : State} {u id pa : Nat} {a : Acc} {d r : List AccLane} {l : AccLane} (h : s.performing u id a d (l :: r)) (hsp : a.sp = false)
    (hcar : a.carries = []) (hh : s.hits (s.gang u).core (s.gang u).ctx l.addr a.pageUse pa) (ws : List Nat) : State.pumpLane u id (ws, [], s) l.lane
      = (ws ++ ((s.touch pa).performHbm u id { a with lanes := d ++ l :: r } l pa).1, [],
        ((s.touch pa).performHbm u id { a with lanes := d ++ l :: r } l pa).2) := by
  have hgo : (l.st ≠ .queued || !(s.mayPerform u id { a with lanes := d ++ l :: r } [] l)) = false := by
    rw [h.may, h.queued l List.mem_cons_self]
    rfl
  obtain ⟨hfault, e, he, hplace⟩ := hh
  have htr : s.translate (s.gang u).core (s.gang u).ctx l.addr ({ a with lanes := d ++ l :: r } : Acc).pageUse = (some (.hbm pa), s) := by
    unfold State.translate State.tlbLookup
    rw [hfault, he, if_neg Bool.false_ne_true]
    exact Prod.ext (congrArg some hplace) rfl
  have hhold : s.mustHold u id { a with lanes := d ++ l :: r } = false := by
    unfold State.mustHold State.liveCarries
    rw [hcar]
    rfl
  unfold State.pumpLane
  dsimp only
  rw [h.acc, h.find]
  dsimp only
  rw [List.map_nil, hgo, if_neg Bool.false_ne_true, if_neg (by rw [show ({ a with lanes := d ++ l :: r } : Acc).sp = false from hsp]; decide), htr]
  dsimp only
  rw [hhold]
  rfl

/-- The lanes of an access are performed one after the other, when each step performs the next. -/
theorem State.foldl_pumpLane {u id : Nat} {P : List AccLane → List AccLane → State → Prop}
    (hstep : ∀ d l r s, P d (l :: r) s → ∃ t, State.pumpLane u id ([], [], s) l.lane = ([], [], t) ∧ P (d ++ [l]) r t) :
    ∀ (r d : List AccLane) (s : State), P d r s → ∃ t, (r.map (·.lane)).foldl (State.pumpLane u id) ([], [], s) = ([], [], t) ∧ P (d ++ r) [] t
  | [], d, s, h => ⟨s, rfl, by rwa [List.append_nil]⟩
  | l :: r, d, s, h => by
    obtain ⟨t, hrun, ht⟩ := hstep d l r s h
    obtain ⟨w, hw, hp⟩ := State.foldl_pumpLane hstep r (d ++ [l]) t ht
    refine ⟨w, ?_, by rwa [List.append_assoc] at hp⟩
    rw [List.map_cons, List.foldl_cons, hrun]
    exact hw

/-- The pump performs the lanes of a gang's one access, and lets it go if it is over. -/
theorem State.pump_one {s t : State} {u id : Nat} {a : Acc} (haccs : (s.gang u).accs = [(id, a)]) (hq : ∀ l ∈ a.lanes, l.st = .queued)
    (hrun : (a.lanes.map (·.lane)).foldl (State.pumpLane u id) ([], [], s) = ([], [], t)) : s.pump [u] = t.sweepAccs u := by
  have hacc : (s.gang u).acc id = a := by
    rw [Gang.acc, haccs, smFind, if_pos rfl]
    rfl
  have hlanes : (a.lanes.filter (fun l => l.st = .queued)).map (fun l => l.lane) = a.lanes.map (·.lane) := by
    rw [List.filter_eq_self.mpr fun l hl => decide_eq_true (hq l hl)]
  have hpacc : State.pumpAcc u ([], s) id = ([], t) := by
    unfold State.pumpAcc
    dsimp only
    rw [hacc, hlanes, hrun]
    rfl
  have hgang : s.pumpGang u = ([], t.sweepAccs u) := by
    rw [State.pumpGang, haccs, List.map_cons, List.map_nil, List.foldl_cons, List.foldl_nil, hpacc]
  rw [State.pump, show [u].length + s.gangs.length * 64 + 64 = (s.gangs.length * 64 + 64) + 1 by rw [List.length_singleton]; omega, State.pumpAll, hgang]
  rfl

end Sys2Proof.Machine
end

section
/-! An access enters a gang that has nothing else under way, and leaves it when all its lanes are done (R173, R174, R181). -/

namespace Sys2Proof.Machine

/-- An access joins its gang, with the queue entries that it reserves. -/
def Gang.takeAcc (g : Gang) (id : Nat) (a : Acc) : Gang :=
  let g := { g with accs := smPut g.accs id a }
  if delivers a.op then
    { g with slices := g.slices.mapIdx (fun k x => if a.slices.testBit k then { x with ldq := x.ldq ++ ldqFor id a k } else x) }
  else g

/-- The state in which an access has joined its gang and nothing of it has been performed yet. -/
def State.entered (s : State) (u : Nat) (a : Acc) : State := ({ s with nextId := s.nextId + 1 } : State).modGang u (fun g => g.takeAcc s.nextId a)

theorem State.noteRemote_none {s : State} {u : Nat} {vas : List Nat} (h : ∀ x ∈ vas, s.remotePage (s.gang u).ctx x = false) : s.noteRemote u vas = s := by
  have hany : vas.any (s.remotePage (s.gang u).ctx) = false := List.any_eq_false.mpr fun x hx => by rw [h x hx]; decide
  unfold State.noteRemote
  dsimp only
  rw [hany, Bool.and_false]
  rfl

/-- An access to no remote page enters its gang, and what can be performed is performed. -/
theorem State.enter_eq {s : State} {u : Nat} {a : Acc} (hop : a.op ≠ opJoin)
    (h : a.global = false ∨ ∀ l ∈ a.lanes, s.remotePage (s.gang u).ctx l.addr = false) : s.enter u a = (s.entered u a).pump [u] := by
  have hnote : (if a.global || a.op = opJoin then s.noteRemote u (a.lanes.map (·.addr)) else s) = s := by
    split
    · next hg =>
      rcases h with h | h
      · rw [h, Bool.false_or, decide_eq_true_eq] at hg
        exact absurd hg hop
      · refine State.noteRemote_none fun x hx => ?_
        obtain ⟨l, hl, rfl⟩ := List.mem_map.mp hx
        exact h l hl
    · rfl
  unfold State.enter
  dsimp only
  rw [hnote]
  rfl

theorem Gang.takeAcc_eq (g : Gang) (id : Nat) (a : Acc) : ∃ accs slices, g.takeAcc id a = { g with accs := accs, slices := slices } := by
  unfold Gang.takeAcc
  dsimp only
  split <;> exact ⟨_, _, rfl⟩

theorem Gang.takeAcc_accs {g : Gang} (h : g.accs = []) (id : Nat) (a : Acc) : (g.takeAcc id a).accs = [(id, a)] := by
  unfold Gang.takeAcc
  dsimp only
  rw [h]
  split <;> rfl

/-- The queue entries of a gang that an access has joined. -/
theorem Gang.takeAcc_ldq (g : Gang) (id : Nat) (a : Acc) {k : Nat} (hk : k < g.slices.length) : ((g.takeAcc id a).slice k).ldq
    = (g.slice k).ldq ++ (if delivers a.op && a.slices.testBit k then ldqFor id a k else []) := by
  unfold Gang.takeAcc
  dsimp only
  cases hd : delivers a.op with
  | false => exact (List.append_nil _).symm
  | true =>
    show Slice.ldq ((g.slices.mapIdx _).getD k default) = _
    rw [List.getD_eq_getElem?_getD, List.getElem?_mapIdx, Gang.slice, List.getD_eq_getElem?_getD, List.getElem?_eq_getElem hk, Option.map_some,
      Option.getD_some, Option.getD_some]
    cases hb : a.slices.testBit k with
    | true => rfl
    | false => exact (List.append_nil _).symm

theorem State.gang_entered {s : State} {u : Nat} (h : (smFind s.gangs u).isSome = true) (a : Acc) : (s.entered u a).gang u = (s.gang u).takeAcc s.nextId a :=
  State.gang_modGang_same _ _ _ h

theorem State.sameRegs_entered (s : State) (u : Nat) (a : Acc) : s.sameRegs (s.entered u a) :=
  State.sameRegs_trans (State.sameRegs_of_gangs rfl rfl : s.sameRegs { s with nextId := s.nextId + 1 })
    (State.sameRegs_modGang _ u (by
      obtain ⟨_, _, h⟩ := Gang.takeAcc_eq (s.gang u) s.nextId a
      rw [show ({ s with nextId := s.nextId + 1 } : State).gang u = s.gang u from rfl, h]
      exact ⟨rfl, rfl, rfl, rfl, rfl, rfl, rfl, rfl, rfl, rfl, rfl, rfl, rfl, rfl, rfl, rfl⟩))

/-- An access that has entered an idle gang waits with all its lanes. -/
theorem State.performing_entered {s : State} {u : Nat} {a : Acc} (hu : (smFind s.gangs u).isSome = true) (haccs : (s.gang u).accs = [])
    (hfree : (s.gang u).fenced s.nextId a = false) (hparks : a.parks = false) (hq : ∀ l ∈ a.lanes, l.st = .queued)
    (hasc : (a.lanes.map (·.lane)).Pairwise (· < ·)) : (s.entered u a).performing u s.nextId a [] a.lanes := by
  refine ⟨?_, ?_, .inl hparks, fun _ h => absurd h List.not_mem_nil, hq, hasc⟩
  · rw [State.gang_entered hu, Gang.takeAcc_accs haccs]
    rfl
  · rw [State.gang_entered hu]
    obtain ⟨_, _, h⟩ := Gang.takeAcc_eq (s.gang u) s.nextId a
    rw [h]
    exact hfree

/-- An access of a gang is over: its lanes are done, or have arrived in no queue any more. -/
def Gang.over (g : Gang) (e : Nat × Acc) : Bool :=
  e.2.lanes.all (fun l => l.st = .done || (l.st = .arriving && (g.slice (l.lane / 8)).ldq.all (fun x => x.acc ≠ e.1)))

/-- A lane set that waits for one of some accesses. -/
def awaits (ids : List Nat) (_ : Nat) (y : LaneSet) : Bool :=
  match y.st with
  | .future _ (some id) _ => ids.contains id
  | _ => false

theorem State.sweepAccs_eq (s : State) (u : Nat) : s.sweepAccs u =
    let ids := ((s.gang u).accs.filter (s.gang u).over).map (·.1)
    if ids.isEmpty then s
    else
      let t := s.modGang u (fun g => { g with accs := g.accs.filter (fun e => !(ids.contains e.1)) })
      t.wakeSets u (t.cycOf u + 1) (awaits ids) := rfl

/-- An access whose lanes are all done leaves its gang. -/
theorem State.sweepAccs_done {s : State} {u id : Nat} {a : Acc} (hu : (smFind s.gangs u).isSome = true) (haccs : (s.gang u).accs = [(id, a)])
    (hd : ∀ l ∈ a.lanes, l.st = .done) : ∃ f, s.sweepAccs u = s.modGang u f ∧ (∀ g : Gang, g.keepsRegs (f g)) ∧ ((s.sweepAccs u).gang u).accs = [] := by
  have hover : (s.gang u).over (id, a) = true := List.all_eq_true.mpr fun l hl => by rw [hd l hl]; rfl
  have hids : ((s.gang u).accs.filter (s.gang u).over).map (·.1) = [id] := by rw [haccs, List.filter_cons_of_pos hover]; rfl
  rw [State.sweepAccs_eq, hids]
  dsimp only
  rw [if_neg (by simp)]
  obtain ⟨f, hf, hg⟩ := State.wakeSets_eq (s.modGang u (fun g => { g with accs := g.accs.filter (fun e => !([id].contains e.1)) })) u
    ((s.modGang u (fun g => { g with accs := g.accs.filter (fun e => !([id].contains e.1)) })).cycOf u + 1) (awaits [id])
  rw [hf, State.modGang_modGang]
  refine ⟨_, rfl, fun g => ?_, ?_⟩
  · obtain ⟨⟨_, _, h⟩, -⟩ := hg { g with accs := g.accs.filter (fun e => !([id].contains e.1)) }
    rw [h]
    exact ⟨rfl, rfl, rfl, rfl, rfl, rfl, rfl, rfl, rfl, rfl, rfl, rfl, rfl, rfl, rfl, rfl⟩
  · rw [State.gang_modGang_same _ _ _ hu]
    obtain ⟨⟨_, _, h⟩, -⟩ := hg { s.gang u with accs := (s.gang u).accs.filter (fun e => !([id].contains e.1)) }
    rw [h]
    dsimp only
    rw [haccs]
    simp

/-- An access with a lane that has not arrived in its queue yet stays. -/
theorem State.sweepAccs_waits {s : State} {u id : Nat} {a : Acc} (haccs : (s.gang u).accs = [(id, a)]) {l : AccLane} (hl : l ∈ a.lanes) (hst : l.st = .arriving)
    (hldq : ∃ e ∈ ((s.gang u).slice (l.lane / 8)).ldq, e.acc = id) : s.sweepAccs u = s := by
  obtain ⟨e, he, hid⟩ := hldq
  have hover : ¬ (s.gang u).over (id, a) = true := by
    rw [Bool.not_eq_true]
    refine List.all_eq_false.mpr ⟨l, hl, ?_⟩
    rw [hst, List.all_eq_false.mpr ⟨e, he, by rw [hid]; simp⟩]
    decide
  rw [State.sweepAccs_eq, haccs, List.filter_cons_of_neg hover]
  rfl

end Sys2Proof.Machine
end

section
/-! Stores, loads and atomics of scratchpad, followed to the bytes (R173, R174, R181, R183, R185). -/

namespace Sys2Proof.Machine

/-- A store or an atomic of a bank changes the scratchpad of its group, and an atomic the value of its lane (R181, R183). -/
theorem State.bankStore_eq (s : State) (grp : Nat) (o : BankOp) : ∃ f : Group → Group, (∀ x, (f x).spad = o.on x.spad ∧ (f x).futs = x.futs ∧ (f x).core = x.core) ∧
    s.bankStore grp o = if o.atomic.isSome then (s.modGroup grp f).setLanes o.gang o.acc [o.lane]
      (fun l => if l.st = .arriving then { l with val := ofBytes (s.spRd grp o.addr o.size) } else l) else s.modGroup grp f := by
  refine ⟨_, fun x => ?_, rfl⟩
  exact ⟨rfl, rfl, rfl⟩

/-- What the lanes of a scratchpad access leave of memory: that of other groups too. -/
def State.sameBut (s t : State) (g : Nat) : Prop := t.mem = s.mem ∧ (∀ h, h ≠ g → t.group h = s.group h) ∧ (smFind t.groups g).isSome = (smFind s.groups g).isSome

theorem State.sameBut.trans {s t w : State} {g : Nat} (h : s.sameBut t g) (h' : t.sameBut w g) : s.sameBut w g := by
  obtain ⟨h1, h2, h3⟩ := h
  obtain ⟨k1, k2, k3⟩ := h'
  exact ⟨k1.trans h1, fun x hx => (k2 x hx).trans (h2 x hx), k3.trans h3⟩

theorem State.sameBut_modGroup (s : State) (g : Nat) (f : Group → Group) : s.sameBut (s.modGroup g f) g := by
  refine ⟨rfl, fun h hh => State.group_modGroup_other _ _ hh, ?_⟩
  show (smFind (smMod s.groups g f) g).isSome = _
  rw [smFind_smMod, if_pos rfl]
  cases smFind s.groups g <;> rfl

/-- The lane that is next has been performed by a change to the gang's accesses, and to groups, memory, counts or links. -/
theorem State.performing.after {s : State} {u id c : Nat} {a : Acc} {d r : List AccLane} {l l' : AccLane} (h : s.performing u id a d (l :: r))
    {g : Gang → Gang} (hg : Gang.keepsRest g) (haccs : (g (s.gang u)).accs = [(id, { a with lanes := d ++ l' :: r })]) (hlane : l'.lane = l.lane)
    (hst : l'.st.pending = false) {k : Ctx → Ctx} (hk : Ctx.counts k) (serial : Nat) (groups : List (Nat × Group)) (mem : List (Nat × Byte))
    (hbm : List (Nat × (Nat × Bool))) (link : Link) {t : State} (ht : t = { s with gangs := smMod s.gangs u g, ctxs := smMod s.ctxs c k, serial := serial, groups := groups, mem := mem, hbm := hbm, link := link }) :
    t.performing u id a (d ++ [l']) r ∧ State.performs u c s t := by
  have hp : State.performs u c s t := ⟨g, k, serial, groups, mem, hbm, link, hg, hk, ht⟩
  refine ⟨h.step hp ?_ hlane hst, hp⟩
  subst ht
  show ((s.modGang u g).gang u).accs = _
  rw [State.gang_modGang_same _ _ _ h.has]
  exact haccs

theorem performed_pending (op v : Nat) (bad : Bool) (l : AccLane) : (performed op v bad l).st.pending = false := by
  unfold performed
  dsimp only
  split <;> rfl

/-- A lane of a store to scratchpad is performed at its bank (R181). -/
theorem State.performing.store {s : State} {u id : Nat} {a : Acc} {d r : List AccLane} {l : AccLane} (h : s.performing u id a d (l :: r)) (huse : a.use = .write)
    (hgrp : (smFind s.groups (s.gang u).group).isSome = true) :
    ∃ t, s.performSp u id { a with lanes := d ++ l :: r } l = ([], t) ∧ t.performing u id a (d ++ [performed a.op 0 false l]) r ∧ State.performs u 0 s t
      ∧ s.sameBut t (s.gang u).group ∧ (t.group (s.gang u).group).spad = (a.bankOp u id l).on (s.group (s.gang u).group).spad := by
  obtain ⟨f, hf, hbank⟩ := s.bankStore_eq (s.gang u).group (a.bankOp u id l)
  rw [if_neg (by rw [Acc.bankOp, huse]; simp)] at hbank
  obtain ⟨g, hset, hg, haccs⟩ := State.setLanes_one (s := s.modGroup (s.gang u).group f) h.accs (fun x hx => Nat.ne_of_lt (h.next.1 x hx))
    (fun x hx => Nat.ne_of_gt (h.next.2 x hx)) (performed a.op 0 false)
  have hrun : s.performSp u id { a with lanes := d ++ l :: r } l = ([], (s.modGroup (s.gang u).group f).modGang u g) := by
    unfold State.performSp
    dsimp only
    rw [show ({ a with lanes := d ++ l :: r } : Acc).use = .write from huse]
    dsimp only
    rw [show ({ a with lanes := d ++ l :: r } : Acc).bankOp u id l = a.bankOp u id l from rfl, hbank, hset]
  obtain ⟨hper, hps⟩ := h.after (c := 0) hg haccs rfl (performed_pending ..) (k := fun x => x) (fun _ => ⟨_, rfl⟩) s.serial (smMod s.groups (s.gang u).group f) s.mem s.hbm s.link
    (t := (s.modGroup (s.gang u).group f).modGang u g) (by rw [smMod_self]; rfl)
  refine ⟨_, hrun, hper, hps, s.sameBut_modGroup _ f, ?_⟩
  show ((s.modGroup _ f).group _).spad = _
  rw [State.group_modGroup_same f hgrp]
  exact (hf _).1

/-- The lanes of a store to scratchpad are performed in order (R181). -/
theorem State.performing.stores {s : State} {u id : Nat} {a : Acc} (h : s.performing u id a [] a.lanes) (hsp : a.sp = true) (huse : a.use = .write)
    (hgrp : (smFind s.groups (s.gang u).group).isSome = true) :
    ∃ t, (a.lanes.map (·.lane)).foldl (State.pumpLane u id) ([], [], s) = ([], [], t) ∧ (t.gang u).accs = [(id, { a with lanes := a.lanes.map (performed a.op 0 false) })]
      ∧ State.performs u 0 s t ∧ s.sameBut t (s.gang u).group
      ∧ (t.group (s.gang u).group).spad = a.lanes.foldl (fun m l => (a.bankOp u id l).on m) (s.group (s.gang u).group).spad := by
  obtain ⟨t, hrun, hper, hps, hsame, hmem⟩ := State.foldl_pumpLane (u := u) (id := id)
    (P := fun d r t => t.performing u id a (d.map (performed a.op 0 false)) r ∧ State.performs u 0 s t ∧ s.sameBut t (s.gang u).group
      ∧ (t.group (s.gang u).group).spad = d.foldl (fun m l => (a.bankOp u id l).on m) (s.group (s.gang u).group).spad)
    (fun d l r t ⟨hper, hps, hsame, hmem⟩ => by
      obtain ⟨_, _, hgang⟩ := hps.gang
      have hgrp' : (t.gang u).group = (s.gang u).group := by rw [hgang]
      obtain ⟨w, hrun, hw, hwp, hws, hwm⟩ := hper.store huse (by rw [hgrp', hsame.2.2]; exact hgrp)
      refine ⟨w, ?_, ?_, hps.trans hwp, hsame.trans (hgrp' ▸ hws), ?_⟩
      · rw [hper.pumpLane_sp hsp, hrun]
        rfl
      · rwa [List.map_append]
      · rw [← hgrp', hwm, hgrp', hmem, List.foldl_append]
        rfl) a.lanes [] s ⟨h, State.performs_refl _ _ _, ⟨rfl, fun _ _ => rfl, rfl⟩, rfl⟩
  refine ⟨t, hrun, ?_, hps, hsame, hmem⟩
  rw [hper.accs, List.append_nil]
  rfl

/-- A lane of a load from scratchpad reads it (R181). -/
theorem State.performing.load {s : State} {u id : Nat} {a : Acc} {d r : List AccLane} {l : AccLane} (h : s.performing u id a d (l :: r)) (huse : a.use = .read) :
    ∃ t, s.performSp u id { a with lanes := d ++ l :: r } l = ([], t)
      ∧ t.performing u id a (d ++ [performed a.op (extendTo a.ty (ofBytes (s.spRd (s.gang u).group l.addr (sizeOf a.ty)))) false l]) r
      ∧ State.performs u 0 s t ∧ t.groups = s.groups ∧ t.mem = s.mem := by
  obtain ⟨g, hset, hg, haccs⟩ := h.setLanes (performed a.op (extendTo a.ty (ofBytes (s.spRd (s.gang u).group l.addr (sizeOf a.ty)))) false)
  obtain ⟨n, k, hn, hna, hnote⟩ := (s.modGang u g).noteAcquire_eq u { a with lanes := d ++ l :: r }
  have hrun : s.performSp u id { a with lanes := d ++ l :: r } l = ([], (s.modGang u g).noteAcquire u { a with lanes := d ++ l :: r }) := by
    unfold State.performSp
    dsimp only
    rw [show ({ a with lanes := d ++ l :: r } : Acc).use = .read from huse]
    dsimp only
    rw [hset]
  have ht : (s.modGang u g).noteAcquire u { a with lanes := d ++ l :: r } = { s with gangs := smMod s.gangs u (fun x => n (g x)), serial := k } := by
    rw [hnote, State.modGang, smMod_smMod]
  obtain ⟨hper, hps⟩ := h.after (c := 0) (hg.comp hn) ((hna _).trans haccs) rfl (performed_pending ..) (k := fun x => x) (fun _ => ⟨_, rfl⟩) k s.groups s.mem s.hbm s.link
    (t := (s.modGang u g).noteAcquire u { a with lanes := d ++ l :: r }) (by rw [smMod_self]; exact ht)
  exact ⟨_, hrun, hper, hps, by rw [ht], by rw [ht]⟩

/-- The lanes of a load from scratchpad read it (R181). -/
theorem State.performing.loads {s : State} {u id : Nat} {a : Acc} (h : s.performing u id a [] a.lanes) (hsp : a.sp = true) (huse : a.use = .read) :
    ∃ t, (a.lanes.map (·.lane)).foldl (State.pumpLane u id) ([], [], s) = ([], [], t)
      ∧ (t.gang u).accs = [(id, { a with lanes := a.lanes.map (fun l =>
          performed a.op (extendTo a.ty (ofBytes (s.spRd (s.gang u).group l.addr (sizeOf a.ty)))) false l) })]
      ∧ State.performs u 0 s t ∧ t.groups = s.groups ∧ t.mem = s.mem := by
  obtain ⟨t, hrun, hper, hps, hgroups, hmem⟩ := State.foldl_pumpLane (u := u) (id := id)
    (P := fun d r t => t.performing u id a (d.map (fun l => performed a.op (extendTo a.ty (ofBytes (s.spRd (s.gang u).group l.addr (sizeOf a.ty)))) false l)) r
      ∧ State.performs u 0 s t ∧ t.groups = s.groups ∧ t.mem = s.mem)
    (fun d l r t ⟨hper, hps, hgroups, hmem⟩ => by
      obtain ⟨_, _, hgang⟩ := hps.gang
      have hrd : ∀ x n, t.spRd (t.gang u).group x n = s.spRd (s.gang u).group x n := fun x n => by
        rw [State.spRd, State.spRd, State.group, State.group, hgroups, hgang]
      obtain ⟨w, hrun, hw, hwp, hwg, hwm⟩ := hper.load huse
      rw [hrd] at hw
      refine ⟨w, ?_, ?_, hps.trans hwp, hwg.trans hgroups, hwm.trans hmem⟩
      · rw [hper.pumpLane_sp hsp, hrun]
        rfl
      · rwa [List.map_append]) a.lanes [] s ⟨h, State.performs_refl _ _ _, rfl, rfl⟩
  refine ⟨t, hrun, ?_, hps, hgroups, hmem⟩
  rw [hper.accs, List.append_nil]
  rfl

/-- A lane of an atomic of scratchpad reads its bank and changes it (R183). -/
theorem State.performing.atomic {s : State} {u id : Nat} {a : Acc} {d r : List AccLane} {l : AccLane} (h : s.performing u id a d (l :: r)) (huse : a.use = .atomic)
    (hdel : delivers a.op = true) (hgrp : (smFind s.groups (s.gang u).group).isSome = true) :
    ∃ t, s.performSp u id { a with lanes := d ++ l :: r } l = ([], t)
      ∧ t.performing u id a (d ++ [performed a.op (ofBytes (s.spRd (s.gang u).group l.addr a.size)) false l]) r ∧ State.performs u 0 s t
      ∧ s.sameBut t (s.gang u).group ∧ (t.group (s.gang u).group).spad = (a.bankOp u id l).on (s.group (s.gang u).group).spad := by
  have hd := fun x hx => Nat.ne_of_lt (h.next.1 x hx)
  have hr := fun x hx => Nat.ne_of_gt (h.next.2 x hx)
  obtain ⟨g, hset, hg, haccs⟩ := h.setLanes (performed a.op 0 false)
  obtain ⟨f, hf, hbank⟩ := (s.modGang u g).bankStore_eq (s.gang u).group (a.bankOp u id l)
  rw [if_pos (by rw [Acc.bankOp, huse]; rfl)] at hbank
  have hgang : ((s.modGang u g).modGroup (s.gang u).group f).gang u = g (s.gang u) := State.gang_modGang_same s u g h.has
  obtain ⟨g', hset', hg', haccs'⟩ := State.setLanes_one (s := (s.modGang u g).modGroup (s.gang u).group f) (l := performed a.op 0 false l) (by rw [hgang]; exact haccs) hd hr
    (fun x => if x.st = .arriving then { x with val := ofBytes ((s.modGang u g).spRd (s.gang u).group (a.bankOp u id l).addr (a.bankOp u id l).size) } else x)
  obtain ⟨n, k, hn, hna, hnote⟩ := (((s.modGang u g).modGroup (s.gang u).group f).modGang u g').noteAcquire_eq u { a with lanes := d ++ l :: r }
  have hrun : s.performSp u id { a with lanes := d ++ l :: r } l
      = ([], (((s.modGang u g).modGroup (s.gang u).group f).modGang u g').noteAcquire u { a with lanes := d ++ l :: r }) := by
    unfold State.performSp
    dsimp only
    rw [show ({ a with lanes := d ++ l :: r } : Acc).use = .atomic from huse]
    dsimp only
    rw [show ({ a with lanes := d ++ l :: r } : Acc).bankOp u id l = a.bankOp u id l from rfl, hset, hbank]
    exact congrArg (fun t => ([], State.noteAcquire t u { a with lanes := d ++ l :: r })) hset'
  have ht : (((s.modGang u g).modGroup (s.gang u).group f).modGang u g').noteAcquire u { a with lanes := d ++ l :: r }
      = { s with gangs := smMod s.gangs u (fun x => n (g' (g x))), groups := smMod s.groups (s.gang u).group f, serial := k } := by
    rw [hnote]
    simp only [State.modGang, State.modGroup, smMod_smMod]
  have hval : (if (performed a.op 0 false l).st = .arriving then { performed a.op 0 false l with
      val := ofBytes ((s.modGang u g).spRd (s.gang u).group (a.bankOp u id l).addr (a.bankOp u id l).size) } else performed a.op 0 false l)
      = performed a.op (ofBytes (s.spRd (s.gang u).group l.addr a.size)) false l := by
    unfold performed
    rw [hdel]
    rfl
  rw [hval, hgang] at haccs'
  obtain ⟨hper, hps⟩ := h.after (c := 0) ((hg.comp hg').comp hn) ((hna _).trans haccs') rfl (performed_pending ..) (k := fun x => x) (fun _ => ⟨_, rfl⟩) k
    (smMod s.groups (s.gang u).group f) s.mem s.hbm s.link
    (t := (((s.modGang u g).modGroup (s.gang u).group f).modGang u g').noteAcquire u { a with lanes := d ++ l :: r }) (by rw [smMod_self]; exact ht)
  refine ⟨_, hrun, hper, hps, ?_, ?_⟩
  · obtain ⟨h1, h2, h3⟩ := s.sameBut_modGroup (s.gang u).group f
    rw [ht]
    exact ⟨h1, h2, h3⟩
  · rw [ht]
    show ((s.modGroup _ f).group _).spad = _
    rw [State.group_modGroup_same f hgrp]
    exact (hf _).1

/-- Atomics on one memory in order, with the values that they find (R185). -/
def atomicsRun (a : Acc) (u id : Nat) (m : Memory) (ls : List AccLane) : Memory × List Nat :=
  ls.foldl (fun r l => ((a.bankOp u id l).on r.1, r.2 ++ [ofBytes (Memory.readN r.1 l.addr a.size)])) (m, [])

theorem atomicsRun_append (a : Acc) (u id : Nat) (m : Memory) (ls : List AccLane) (l : AccLane) : atomicsRun a u id m (ls ++ [l])
    = ((a.bankOp u id l).on (atomicsRun a u id m ls).1, (atomicsRun a u id m ls).2 ++ [ofBytes (Memory.readN (atomicsRun a u id m ls).1 l.addr a.size)]) := by
  unfold atomicsRun
  rw [List.foldl_append]
  rfl

theorem length_atomicsRun (a : Acc) (u id : Nat) (m : Memory) (ls : List AccLane) : (atomicsRun a u id m ls).2.length = ls.length := by
  induction ls using List.reverseRecOn with
  | nil => rfl
  | append_singleton ls l ih => rw [atomicsRun_append, List.length_append, List.length_append, ih]; rfl

/-- The lanes of an atomic of scratchpad are performed in order, each on what the lane before it left (R185). -/
theorem State.performing.atomics {s : State} {u id : Nat} {a : Acc} (h : s.performing u id a [] a.lanes) (hsp : a.sp = true) (huse : a.use = .atomic)
    (hdel : delivers a.op = true) (hgrp : (smFind s.groups (s.gang u).group).isSome = true) :
    ∃ t, (a.lanes.map (·.lane)).foldl (State.pumpLane u id) ([], [], s) = ([], [], t)
      ∧ (t.gang u).accs = [(id, { a with lanes := List.zipWith (fun l v => performed a.op v false l) a.lanes (atomicsRun a u id (s.group (s.gang u).group).spad a.lanes).2 })]
      ∧ State.performs u 0 s t ∧ s.sameBut t (s.gang u).group
      ∧ (t.group (s.gang u).group).spad = (atomicsRun a u id (s.group (s.gang u).group).spad a.lanes).1 := by
  obtain ⟨t, hrun, hper, hps, hsame, hmem⟩ := State.foldl_pumpLane (u := u) (id := id)
    (P := fun d r t => t.performing u id a (List.zipWith (fun l v => performed a.op v false l) d (atomicsRun a u id (s.group (s.gang u).group).spad d).2) r
      ∧ State.performs u 0 s t ∧ s.sameBut t (s.gang u).group
      ∧ (t.group (s.gang u).group).spad = (atomicsRun a u id (s.group (s.gang u).group).spad d).1)
    (fun d l r t ⟨hper, hps, hsame, hmem⟩ => by
      obtain ⟨_, _, hgang⟩ := hps.gang
      have hgrp' : (t.gang u).group = (s.gang u).group := by rw [hgang]
      obtain ⟨w, hrun, hw, hwp, hws, hwm⟩ := hper.atomic huse hdel (by rw [hgrp', hsame.2.2]; exact hgrp)
      refine ⟨w, ?_, ?_, hps.trans hwp, hsame.trans (hgrp' ▸ hws), ?_⟩
      · rw [hper.pumpLane_sp hsp, hrun]
        rfl
      · rw [hgrp', State.spRd, hmem] at hw
        rw [atomicsRun_append, List.zipWith_append (length_atomicsRun ..).symm]
        exact hw
      · rw [← hgrp', hwm, hgrp', hmem, atomicsRun_append]) a.lanes [] s ⟨h, State.performs_refl _ _ _, ⟨rfl, fun _ _ => rfl, rfl⟩, rfl⟩
  refine ⟨t, hrun, ?_, hps, hsame, hmem⟩
  rw [hper.accs, List.append_nil]
  rfl

end Sys2Proof.Machine
end

section
/-! The memory slot's accesses to scratchpad: STSP and LDSP (R173, R174, R181). -/

namespace Sys2Proof.Machine

theorem bytesOf_mod (n x : Nat) : bytesOf n (x % 2 ^ (8 * n)) = bytesOf n x := by
  induction n generalizing x with
  | zero => rfl
  | succ n ih =>
    have h1 : BitVec.ofNat 8 (x % 2 ^ (8 * (n + 1))) = BitVec.ofNat 8 x := by
      apply BitVec.eq_of_toNat_eq
      rw [BitVec.toNat_ofNat, BitVec.toNat_ofNat, Nat.mod_mod_of_dvd _ (Nat.pow_dvd_pow 2 (by omega))]
    have h2 : x % 2 ^ (8 * (n + 1)) / 256 = x / 256 % 2 ^ (8 * n) := by
      rw [show 8 * (n + 1) = 8 + 8 * n by omega, Nat.pow_add]
      exact Nat.mod_mul_right_div_self ..
    rw [bytesOf, bytesOf, h1, h2, ih]

/-- The active lanes of an access ascend, all of them queued. -/
theorem State.lanes_ascend (s : State) (c : Cursor) (g : Guard) (f : Nat → AccLane) (hf : ∀ i, (f i).lane = i) :
    (((s.active c g).map f).map (·.lane)).Pairwise (· < ·) := by
  rw [List.map_map, (List.map_congr_left fun i _ => hf i : (s.active c g).map ((·.lane) ∘ f) = (s.active c g).map id), List.map_id]
  exact s.pairwise_active c g

theorem State.lanesData_eq (s : State) (c : Cursor) (g : Guard) (a : Addr) (off : Int) (t : Ty) (d : Opd) : s.lanesData c g a off t d
    = (s.active c g).map (fun i => mkLane i (s.ea c a off i) (s.operand c d i t % 2 ^ widthOf t) 0) := by
  rw [State.lanesData, State.addrs, List.map_map]
  rfl

theorem State.lanesAt_eq (s : State) (c : Cursor) (g : Guard) (a : Addr) (off : Int) : s.lanesAt c g a off
    = (s.active c g).map (fun i => mkLane i (s.ea c a off i) 0 0) := by
  rw [State.lanesAt, State.addrs, List.map_map]
  rfl

/-- The access of an idle gang, entered and with its lanes queued. -/
theorem State.idleOf.performing {s : State} {c : Cursor} (h : s.idleOf c) {a : Acc} (hparks : a.parks = false) {g : Guard} {f : Nat → AccLane}
    (hl : a.lanes = (s.active c g).map f) (hf : ∀ i, (f i).lane = i ∧ (f i).st = .queued) : (s.entered c.gang a).performing c.gang s.nextId a [] a.lanes := by
  obtain ⟨hu, haccs, hfree⟩ := h
  refine State.performing_entered hu haccs (hfree a) hparks (fun l hm => ?_) ?_
  · rw [hl] at hm
    obtain ⟨i, -, rfl⟩ := List.mem_map.mp hm
    exact (hf i).2
  · rw [hl]
    exact s.lanes_ascend c g f fun i => (hf i).1

/-- An access whose lanes are performed as it enters. -/
theorem State.performing.enter {s t : State} {u : Nat} {a : Acc} (h : (s.entered u a).performing u s.nextId a [] a.lanes) (hop : a.op ≠ opJoin)
    (hremote : a.global = false ∨ ∀ l ∈ a.lanes, s.remotePage (s.gang u).ctx l.addr = false)
    (hrun : (a.lanes.map (·.lane)).foldl (State.pumpLane u s.nextId) ([], [], s.entered u a) = ([], [], t)) : s.enter u a = t.sweepAccs u := by
  rw [State.enter_eq hop hremote]
  exact State.pump_one (a := a) h.accs (fun l hl => h.queued l hl) hrun

theorem State.group_entered {s : State} {u : Nat} (h : (smFind s.gangs u).isSome = true) (a : Acc) : ((s.entered u a).gang u).group = (s.gang u).group := by
  obtain ⟨_, _, htake⟩ := Gang.takeAcc_eq (s.gang u) s.nextId a
  rw [State.gang_entered h, htake]

/-- A store to scratchpad that enters an idle gang is performed at once, in the order of its lanes (R181). -/
theorem State.performing.enter_store {s : State} {u : Nat} {a : Acc} (h : (s.entered u a).performing u s.nextId a [] a.lanes) (hu : (smFind s.gangs u).isSome = true)
    (hop : a.op ≠ opJoin) (hglobal : a.global = false) (hsp : a.sp = true) (huse : a.use = .write) (hdel : delivers a.op = false)
    (hgrp : (smFind s.groups (s.gang u).group).isSome = true) :
    ((s.enter u a).group (s.gang u).group).spad = a.lanes.foldl (fun m l => (a.bankOp u s.nextId l).on m) (s.group (s.gang u).group).spad
      ∧ s.sameMemBut (s.enter u a) (s.gang u).group ∧ s.sameRegs (s.enter u a) ∧ ((s.enter u a).gang u).accs = [] := by
  have hgroup := State.group_entered hu a
  obtain ⟨t, hrun, haccs, hps, ⟨hmem, hother, -⟩, hspad⟩ := h.stores hsp huse (by rw [hgroup]; exact hgrp)
  obtain ⟨f, hf, hregs, hgone⟩ := State.sweepAccs_done (s := t) (by rw [hps.has]; exact h.has) haccs fun l hl => by
    obtain ⟨x, -, rfl⟩ := List.mem_map.mp hl
    unfold performed
    rw [hdel]
    rfl
  obtain ⟨hhost, hfuts, -⟩ := hps.rest
  rw [hgroup] at hspad hother
  rw [h.enter hop (.inl hglobal) hrun]
  refine ⟨?_, ?_, ?_, hgone⟩
  · rw [hf]
    exact hspad
  · rw [hf]
    exact ⟨hmem, hhost, hfuts, hother⟩
  · rw [hf]
    exact State.sameRegs_trans (State.sameRegs_trans (s.sameRegs_entered _ _) hps.sameRegs) (t.sameRegs_modGang _ (hregs _))

theorem scratchpadStore : Claims.ScratchpadStore := by
  intro s c o hi hidle hgrp
  have hlanes := s.lanesData_eq c o.g o.at_ o.off.toInt o.ty o.data
  have hper := hidle.performing (a := s.access c 0x03 o.ty o.scope o.ord (s.lanesData c o.g o.at_ o.off.toInt o.ty o.data)) rfl hlanes fun i => ⟨rfl, rfl⟩
  have hexec : exec (.stsp o) s = .next (s.enter c.gang (s.access c 0x03 o.ty o.scope o.ord (s.lanesData c o.g o.at_ o.off.toInt o.ty o.data))) := by
    rw [show exec (.stsp o) s = execStsp o s from rfl, execStsp, slot_issues _ hi]
  obtain ⟨hspad, hmem, hregs, hgone⟩ := hper.enter_store hidle.1 (show (0x03 : Nat) ≠ opJoin by decide) rfl rfl rfl rfl hgrp
  refine ⟨_, hexec, ?_, hmem, hregs, hgone⟩
  rw [hspad, show (s.access c 0x03 o.ty o.scope o.ord (s.lanesData c o.g o.at_ o.off.toInt o.ty o.data)).lanes = _ from hlanes, List.foldl_map]
  refine congrArg (fun f => List.foldl f _ _) (funext fun m => funext fun i => ?_)
  show Memory.writeN m _ (bytesOf (sizeOf o.ty) (s.operand c o.data i o.ty % 2 ^ (8 * sizeOf o.ty))) = _
  rw [bytesOf_mod]
  rfl

theorem length_ldqFor (id : Nat) (a : Acc) (k : Nat) : (ldqFor id a k).length = if is64 a.ty then 2 else 1 := by
  unfold ldqFor
  dsimp only
  split <;> rfl

/-- An access that has delivered a lane's value, which waits to arrive in its queue entry (R174). -/
theorem State.performing.enter_waits {s t : State} {u c : Nat} {a : Acc} (h : (s.entered u a).performing u s.nextId a [] a.lanes) (hu : (smFind s.gangs u).isSome = true)
    (hop : a.op ≠ opJoin) (hremote : a.global = false ∨ ∀ l ∈ a.lanes, s.remotePage (s.gang u).ctx l.addr = false) (hdel : delivers a.op = true)
    (hrun : (a.lanes.map (·.lane)).foldl (State.pumpLane u s.nextId) ([], [], s.entered u a) = ([], [], t)) (hps : State.performs u c (s.entered u a) t)
    {ls : List AccLane} (haccs : (t.gang u).accs = [(s.nextId, { a with lanes := ls })]) {l : AccLane} (hl : l ∈ ls) (hst : l.st = .arriving)
    (hbit : a.slices.testBit (l.lane / 8) = true) (hlt : l.lane / 8 < (s.gang u).slices.length) :
    s.enter u a = t ∧ s.sameRegs t ∧ ∀ k, k < (s.gang u).slices.length → ((t.gang u).slice k).ldq.length
      = ((s.gang u).slice k).ldq.length + (if a.slices.testBit k then (if is64 a.ty then 2 else 1) else 0) := by
  have hslice : ∀ k, (t.gang u).slice k = ((s.gang u).takeAcc s.nextId a).slice k := fun k => by
    obtain ⟨_, _, hg⟩ := hps.gang
    rw [hg, ← State.gang_entered hu]
    rfl
  have hldq : ∀ k, k < (s.gang u).slices.length → ((t.gang u).slice k).ldq
      = ((s.gang u).slice k).ldq ++ (if a.slices.testBit k then ldqFor s.nextId a k else []) := fun k hk => by
    rw [hslice, Gang.takeAcc_ldq _ _ _ hk, hdel, Bool.true_and]
  have hentry : ∃ e ∈ ((t.gang u).slice (l.lane / 8)).ldq, e.acc = s.nextId := by
    rw [hldq _ hlt, hbit, if_pos rfl]
    unfold ldqFor
    dsimp only
    split <;> exact ⟨_, List.mem_append_right _ List.mem_cons_self, rfl⟩
  refine ⟨?_, State.sameRegs_trans (s.sameRegs_entered u a) hps.sameRegs, fun k hk => ?_⟩
  · rw [h.enter hop hremote hrun]
    exact State.sweepAccs_waits haccs hl hst hentry
  · rw [hldq k hk, List.length_append]
    split
    · rw [length_ldqFor]
    · rfl

/-- An active lane lies on a slice of the part, which the gang has. -/
theorem State.slice_of_active {s : State} {c : Cursor} {g : Guard} {i : Nat} (h : i ∈ s.active c g) :
    c.slices.testBit (i / 8) = true ∧ i / 8 < (s.gang c.gang).slices.length := by
  obtain ⟨hbit, x, hx⟩ := Gang.slice_of_lanesOf (List.mem_filter.mp h).1
  exact ⟨hbit, Gang.slice_lt_of_curSet hx⟩

theorem scratchpadLoad : Claims.ScratchpadLoad := by
  intro s c o hi hidle hne
  have hlanes := s.lanesAt_eq c o.g o.at_ o.off.toInt
  obtain ⟨i, hact⟩ := List.exists_mem_of_ne_nil _ hne
  obtain ⟨hbit, hlt⟩ := State.slice_of_active hact
  have hper := hidle.performing (a := s.access c 0x02 o.ty o.scope o.ord (s.lanesAt c o.g o.at_ o.off.toInt)) rfl hlanes fun i => ⟨rfl, rfl⟩
  have hexec : exec (.ldsp o) s = .next (s.enter c.gang (s.access c 0x02 o.ty o.scope o.ord (s.lanesAt c o.g o.at_ o.off.toInt))) := by
    rw [show exec (.ldsp o) s = execLdsp o s from rfl, execLdsp, slot_issues _ hi]
  obtain ⟨t, hrun, haccs, hps, hgroups, hmem⟩ := hper.loads rfl rfl
  have hl : (s.access c 0x02 o.ty o.scope o.ord (s.lanesAt c o.g o.at_ o.off.toInt)).lanes = _ := hlanes
  have hlane : mkLane i (s.ea c o.at_ o.off.toInt i) 0 0 ∈ (s.access c 0x02 o.ty o.scope o.ord (s.lanesAt c o.g o.at_ o.off.toInt)).lanes :=
    hl ▸ List.mem_map_of_mem hact
  obtain ⟨hin, hregs, hldq⟩ := hper.enter_waits hidle.1 (show (0x02 : Nat) ≠ opJoin by decide) (.inl rfl) rfl hrun hps haccs
    (List.mem_map_of_mem hlane) rfl hbit hlt
  obtain ⟨hhost, hfuts, -⟩ := hps.rest
  have hspad : ∀ h, t.group h = s.group h := fun h => congrArg (fun m => (smFind m h).getD default) hgroups
  refine ⟨t, _, by rw [hexec, hin], haccs, ?_, hldq, ⟨hmem, hhost, hfuts, fun h _ => hspad h⟩, fun h => by rw [hspad], hregs⟩
  rw [State.group_entered hidle.1, hl, List.map_map, List.map_map]
  refine List.map_congr_left fun i _ => ?_
  rw [← extendTo_ofNat]
  rfl

/-- Settles O27: the lanes of an access to an idle gang's scratchpad are performed as it enters, in ascending order. -/
theorem scratchpadAccesses : Obligations.ScratchpadAccesses := ⟨scratchpadStore, scratchpadLoad⟩

end Sys2Proof.Machine
end

section
/-! Stores and loads of a local page, followed to the bytes (R20, R173, R174, R181). -/

namespace Sys2Proof.Machine

theorem State.crossFails_none {s : State} (h : s.dieFails = []) (core pa : Nat) : s.crossFails core pa = false := by
  rw [State.crossFails, State.crossDie, h, Bool.and_eq_false_iff]
  exact .inr rfl

/-- The state in which an access to local memory has been counted, and its stack of HBM has been used. -/
def State.reaches (s : State) (u pa va : Nat) : State :=
  (s.touch pa).countRegion (s.gang u).ctx va (dieOf (s.gang u).core) (Config.l2Miss s.serial).toNat

theorem State.reaches_eq (s : State) (u pa va : Nat) : ∃ k hbm, Ctx.counts k ∧ s.reaches u pa va = { s with ctxs := smMod s.ctxs (s.gang u).ctx k, hbm := hbm } :=
  ⟨_, _, fun _ => ⟨_, rfl⟩, rfl⟩

/-- A lane of a store to a local page writes its bytes (R181). -/
theorem State.performing.write {s : State} {u id pa : Nat} {a : Acc} {d r : List AccLane} {l : AccLane} (h : s.performing u id a d (l :: r)) (huse : a.use = .write)
    (hcar : a.carries = []) (hown : a.own = none) (hheld : s.link.held = []) (hdie : s.dieFails = []) :
    ∃ t bad, (s.touch pa).performHbm u id { a with lanes := d ++ l :: r } l pa = ([], t) ∧ t.performing u id a (d ++ [performed a.op 0 bad l]) r
      ∧ State.performs u (s.gang u).ctx s t ∧ t.groups = s.groups ∧ t.mem = Memory.writeN s.mem pa (bytesOf (sizeOf a.ty) l.data) ∧ t.link.held = [] := by
  obtain ⟨k, hbm, hk, hreach⟩ := s.reaches_eq u pa l.addr
  obtain ⟨g, hset, hg, haccs⟩ := State.setLanes_one (s := (s.reaches u pa l.addr).wr pa (bytesOf (sizeOf a.ty) l.data)) (by rw [hreach]; exact h.accs)
    (fun x hx => Nat.ne_of_lt (h.next.1 x hx)) (fun x hx => Nat.ne_of_gt (h.next.2 x hx)) (performed a.op 0 (s.poisoned pa (sizeOf a.ty)))
  rw [show ((s.reaches u pa l.addr).wr pa (bytesOf (sizeOf a.ty) l.data)).gang u = s.gang u from rfl] at haccs
  have hrun : (s.touch pa).performHbm u id { a with lanes := d ++ l :: r } l pa
      = ([], ((((s.reaches u pa l.addr).wr pa (bytesOf (sizeOf a.ty) l.data)).modGang u g).tickSerial).sweepBatons) := by
    unfold State.performHbm
    extract_lets n G bad done w
    rw [State.crossFails_none (s := w) hdie, Bool.false_and, Bool.false_and, if_neg Bool.false_ne_true,
      show ({ a with lanes := d ++ l :: r } : Acc).use = .write from huse]
    dsimp only
    rw [show ({ a with lanes := d ++ l :: r } : Acc).carries = [] from hcar, List.any_nil, if_neg Bool.false_ne_true]
    refine congrArg (Prod.mk []) ?_
    dsimp only [done]
    rw [show w = s.reaches u pa l.addr from rfl]
    refine Eq.trans (congrArg (fun x => ((State.tickSerial x).ackOwn { a with lanes := d ++ l :: r } 1).settleHeld) hset) ?_
    rw [State.ackOwn, show ({ a with lanes := d ++ l :: r } : Acc).own = none from hown]
    exact State.settleHeld_nil (by rw [hreach]; exact hheld)
  obtain ⟨hper, hps⟩ := h.after (c := (s.gang u).ctx) hg haccs rfl (performed_pending ..) hk (s.serial + 1) s.groups
    (Memory.writeN s.mem pa (bytesOf (sizeOf a.ty) l.data)) hbm
    { s.link with batons := s.link.batons.filter (fun e => !(e.2.st = .released && ((((s.reaches u pa l.addr).wr pa (bytesOf (sizeOf a.ty) l.data)).modGang u g).tickSerial).batonSettled e.1 e.2)) }
    (t := ((((s.reaches u pa l.addr).wr pa (bytesOf (sizeOf a.ty) l.data)).modGang u g).tickSerial).sweepBatons) (by rw [hreach]; rfl)
  refine ⟨_, _, hrun, hper, hps, ?_, ?_, ?_⟩
  · rw [hreach]; rfl
  · rw [hreach]; rfl
  · rw [hreach]; exact hheld

/-- A lane of a load from a local page reads its bytes (R181). -/
theorem State.performing.read {s : State} {u id pa : Nat} {a : Acc} {d r : List AccLane} {l : AccLane} (h : s.performing u id a d (l :: r)) (huse : a.use = .read)
    (hro : a.ro = false) (hdie : s.dieFails = []) :
    ∃ t bad, (s.touch pa).performHbm u id { a with lanes := d ++ l :: r } l pa = ([], t)
      ∧ t.performing u id a (d ++ [performed a.op (extendTo a.ty (ofBytes (s.rd pa (sizeOf a.ty)))) bad l]) r
      ∧ State.performs u (s.gang u).ctx s t ∧ t.groups = s.groups ∧ t.mem = s.mem := by
  obtain ⟨k, hbm, hk, hreach⟩ := s.reaches_eq u pa l.addr
  obtain ⟨g, hset, hg, haccs⟩ := State.setLanes_one (s := s.reaches u pa l.addr) (by rw [hreach]; exact h.accs)
    (fun x hx => Nat.ne_of_lt (h.next.1 x hx)) (fun x hx => Nat.ne_of_gt (h.next.2 x hx))
    (performed a.op (extendTo a.ty (ofBytes (s.rd pa (sizeOf a.ty)))) (s.poisoned pa (sizeOf a.ty)))
  rw [show (s.reaches u pa l.addr).gang u = s.gang u from rfl] at haccs
  obtain ⟨n, m, hn, hna, hnote⟩ := (((s.reaches u pa l.addr).modGang u g).tickSerial).noteAcquire_eq u { a with lanes := d ++ l :: r }
  have hrun : (s.touch pa).performHbm u id { a with lanes := d ++ l :: r } l pa
      = ([], (((s.reaches u pa l.addr).modGang u g).tickSerial).noteAcquire u { a with lanes := d ++ l :: r }) := by
    unfold State.performHbm
    extract_lets n G bad done w
    rw [State.crossFails_none (s := w) hdie, Bool.false_and, Bool.false_and, if_neg Bool.false_ne_true,
      show ({ a with lanes := d ++ l :: r } : Acc).use = .read from huse]
    dsimp only
    rw [show ({ a with lanes := d ++ l :: r } : Acc).ro = false from hro, if_neg Bool.false_ne_true]
    refine congrArg (Prod.mk []) ?_
    dsimp only [done]
    rw [show w = s.reaches u pa l.addr from rfl]
    exact congrArg (fun x => (State.tickSerial x).noteAcquire u { a with lanes := d ++ l :: r }) hset
  have ht : (((s.reaches u pa l.addr).modGang u g).tickSerial).noteAcquire u { a with lanes := d ++ l :: r }
      = { s with gangs := smMod s.gangs u (fun x => n (g x)), ctxs := smMod s.ctxs (s.gang u).ctx k, serial := m, hbm := hbm } := by
    rw [hnote, hreach]
    simp only [State.modGang, State.tickSerial, smMod_smMod]
  obtain ⟨hper, hps⟩ := h.after (c := (s.gang u).ctx) (hg.comp hn) ((hna _).trans haccs) rfl (performed_pending ..) hk m s.groups s.mem hbm s.link
    (t := (((s.reaches u pa l.addr).modGang u g).tickSerial).noteAcquire u { a with lanes := d ++ l :: r }) ht
  exact ⟨_, _, hrun, hper, hps, by rw [ht], by rw [ht]⟩

end Sys2Proof.Machine
end

section
/-! The memory slot's accesses to local pages: ST and LD (R20, R173, R174, R181). -/

namespace Sys2Proof.Machine

/-- The lanes of a store to local pages are performed in order (R181). -/
theorem State.performing.writes {s : State} {u id : Nat} {a : Acc} (h : s.performing u id a [] a.lanes) (hsp : a.sp = false) (huse : a.use = .write)
    (hcar : a.carries = []) (hown : a.own = none) (hdel : delivers a.op = false) (hheld : s.link.held = []) (hdie : s.dieFails = []) {pa : Nat → Nat}
    (hpa : ∀ l ∈ a.lanes, s.hits (s.gang u).core (s.gang u).ctx l.addr a.pageUse (pa l.lane)) :
    ∃ t ls, (a.lanes.map (·.lane)).foldl (State.pumpLane u id) ([], [], s) = ([], [], t) ∧ (t.gang u).accs = [(id, { a with lanes := ls })]
      ∧ (∀ l ∈ ls, l.st = .done) ∧ State.performs u (s.gang u).ctx s t ∧ t.groups = s.groups
      ∧ t.mem = a.lanes.foldl (fun m l => Memory.writeN m (pa l.lane) (bytesOf (sizeOf a.ty) l.data)) s.mem := by
  obtain ⟨t, hrun, -, ls, hper, hdone, hps, hgroups, hmem, -⟩ := State.foldl_pumpLane (u := u) (id := id)
    (P := fun d r t => d ++ r = a.lanes ∧ ∃ ls, t.performing u id a ls r ∧ (∀ l ∈ ls, l.st = .done) ∧ State.performs u (s.gang u).ctx s t ∧ t.groups = s.groups
      ∧ t.mem = d.foldl (fun m l => Memory.writeN m (pa l.lane) (bytesOf (sizeOf a.ty) l.data)) s.mem ∧ t.link.held = [])
    (fun d l r t ⟨hdr, ls, hper, hdone, hps, hgroups, hmem, hth⟩ => by
      obtain ⟨_, _, hgang⟩ := hps.gang
      have hhit : t.hits (t.gang u).core (t.gang u).ctx l.addr a.pageUse (pa l.lane) := by
        rw [hgang]
        exact hps.hits (hpa l (hdr ▸ List.mem_append_right _ List.mem_cons_self))
      obtain ⟨w, bad, hrun, hw, hwp, hwg, hwm, hwh⟩ := hper.write (pa := pa l.lane) huse hcar hown hth (hps.rest.2.2.2.2.2.1.trans hdie)
      rw [show (t.gang u).ctx = (s.gang u).ctx by rw [hgang]] at hwp
      refine ⟨w, ?_, by rw [List.append_assoc]; exact hdr, _, hw, fun x hx => ?_, hps.trans hwp, hwg.trans hgroups, ?_, hwh⟩
      · rw [hper.pumpLane_hbm hsp hcar hhit, hrun]
        rfl
      · rcases List.mem_append.mp hx with hx | hx
        · exact hdone x hx
        · rw [List.mem_singleton.mp hx, performed, hdel]
          rfl
      · rw [hwm, hmem, List.foldl_append]
        rfl) a.lanes [] s ⟨rfl, [], h, fun _ h => absurd h List.not_mem_nil, State.performs_refl _ _ _, rfl, rfl, hheld⟩
  refine ⟨t, ls, hrun, ?_, hdone, hps, hgroups, hmem⟩
  rw [hper.accs, List.append_nil]

/-- The lanes of a load from local pages read them (R181). -/
theorem State.performing.reads {s : State} {u id : Nat} {a : Acc} (h : s.performing u id a [] a.lanes) (hsp : a.sp = false) (huse : a.use = .read)
    (hcar : a.carries = []) (hro : a.ro = false) (hdel : delivers a.op = true) (hdie : s.dieFails = []) {pa : Nat → Nat}
    (hpa : ∀ l ∈ a.lanes, s.hits (s.gang u).core (s.gang u).ctx l.addr a.pageUse (pa l.lane)) :
    ∃ (t : State) (ls : List AccLane), (a.lanes.map (·.lane)).foldl (State.pumpLane u id) ([], [], s) = ([], [], t) ∧ (t.gang u).accs = [(id, { a with lanes := ls })]
      ∧ ls.map (fun l => (l.lane, l.st, l.val))
        = a.lanes.map (fun l => (l.lane, LaneSt.arriving, extendTo a.ty (ofBytes (s.rd (pa l.lane) (sizeOf a.ty)))))
      ∧ State.performs u (s.gang u).ctx s t ∧ t.groups = s.groups ∧ t.mem = s.mem := by
  obtain ⟨t, hrun, -, ls, hper, hdone, hps, hgroups, hmem⟩ := State.foldl_pumpLane (u := u) (id := id)
    (P := fun d r t => d ++ r = a.lanes ∧ ∃ ls : List AccLane, t.performing u id a ls r ∧ ls.map (fun l => (l.lane, l.st, l.val))
        = d.map (fun l => (l.lane, LaneSt.arriving, extendTo a.ty (ofBytes (s.rd (pa l.lane) (sizeOf a.ty)))))
      ∧ State.performs u (s.gang u).ctx s t ∧ t.groups = s.groups ∧ t.mem = s.mem)
    (fun d l r t ⟨hdr, ls, hper, hdone, hps, hgroups, hmem⟩ => by
      obtain ⟨_, _, hgang⟩ := hps.gang
      have hhit : t.hits (t.gang u).core (t.gang u).ctx l.addr a.pageUse (pa l.lane) := by
        rw [hgang]
        exact hps.hits (hpa l (hdr ▸ List.mem_append_right _ List.mem_cons_self))
      obtain ⟨w, bad, hrun, hw, hwp, hwg, hwm⟩ := hper.read (pa := pa l.lane) huse hro (hps.rest.2.2.2.2.2.1.trans hdie)
      rw [show (t.gang u).ctx = (s.gang u).ctx by rw [hgang]] at hwp
      refine ⟨w, ?_, by rw [List.append_assoc]; exact hdr, _, hw, ?_, hps.trans hwp, hwg.trans hgroups, hwm.trans hmem⟩
      · rw [hper.pumpLane_hbm hsp hcar hhit, hrun]
        rfl
      · have hrd : t.rd (pa l.lane) (sizeOf a.ty) = s.rd (pa l.lane) (sizeOf a.ty) := by
          unfold State.rd
          rw [hmem]
        rw [List.map_append, List.map_append, hdone, hrd, performed, hdel]
        rfl) a.lanes [] s ⟨rfl, [], h, rfl, State.performs_refl _ _ _, rfl, rfl⟩
  refine ⟨t, ls, hrun, ?_, hdone, hps, hgroups, hmem⟩
  rw [hper.accs, List.append_nil]

/-- Bytes outside those that are written stay (R181). -/
theorem read_writeAll_other {α : Type} (ls : List α) (pa : α → Nat) (bs : α → List Byte) {m : Memory} (hm : Memory.wf m = true) {x : Nat}
    (h : ∀ l ∈ ls, x < pa l ∨ pa l + (bs l).length ≤ x) :
    Memory.read (ls.foldl (fun m l => Memory.writeN m (pa l) (bs l)) m) x = Memory.read m x := by
  induction ls generalizing m with
  | nil => rfl
  | cons l ls ih =>
    rw [List.foldl_cons, ih (Memory.writeN_wf _ _ hm) fun k hk => h k (List.mem_cons_of_mem _ hk)]
    exact Memory.read_writeN_other _ _ _ hm (h l List.mem_cons_self)

/-- An address that a core's TLB translates does so once an access has entered. -/
theorem State.hits_entered {s : State} (u : Nat) (a : Acc) {core ctx va pa : Nat} {use : Use} (h : s.hits core ctx va use pa) : (s.entered u a).hits core ctx va use pa := h

theorem State.core_ctx_entered {s : State} {u : Nat} (h : (smFind s.gangs u).isSome = true) (a : Acc) :
    ((s.entered u a).gang u).core = (s.gang u).core ∧ ((s.entered u a).gang u).ctx = (s.gang u).ctx := by
  obtain ⟨_, _, htake⟩ := Gang.takeAcc_eq (s.gang u) s.nextId a
  rw [State.gang_entered h, htake]
  exact ⟨rfl, rfl⟩

theorem localStore : Claims.LocalStore := by
  intro s c o pa hi hidle hheld hdie hremote hpa
  have hlanes : (s.access c 0x01 o.ty o.scope o.ord (s.lanesData c o.g o.at_ o.off.toInt o.ty o.data)).lanes = _ := s.lanesData_eq c o.g o.at_ o.off.toInt o.ty o.data
  have hper := hidle.performing rfl hlanes fun i => ⟨rfl, rfl⟩
  obtain ⟨hcore, hctx⟩ := State.core_ctx_entered hidle.1 (s.access c 0x01 o.ty o.scope o.ord (s.lanesData c o.g o.at_ o.off.toInt o.ty o.data))
  have hexec : exec (.st o) s = .next (s.enter c.gang (s.access c 0x01 o.ty o.scope o.ord (s.lanesData c o.g o.at_ o.off.toInt o.ty o.data))) := by
    rw [show exec (.st o) s = execSt o s from rfl, execSt, slot_issues _ hi]
  have hall : ∀ {P : AccLane → Prop}, (∀ i ∈ s.active c o.g, P (mkLane i (s.ea c o.at_ o.off.toInt i) (s.operand c o.data i o.ty % 2 ^ widthOf o.ty) 0)) →
      ∀ l ∈ (s.access c 0x01 o.ty o.scope o.ord (s.lanesData c o.g o.at_ o.off.toInt o.ty o.data)).lanes, P l := fun h l hl => by
    rw [hlanes] at hl
    obtain ⟨i, hi, rfl⟩ := List.mem_map.mp hl
    exact h i hi
  obtain ⟨t, ls, hrun, haccs, hdone, hps, hgroups, hmem⟩ := hper.writes rfl rfl rfl rfl rfl hheld hdie (pa := pa)
    (by rw [hcore, hctx]; exact hall fun i hi => hpa i hi)
  obtain ⟨f, hf, hregs, hgone⟩ := State.sweepAccs_done (s := t) (by rw [hps.has]; exact hper.has) haccs hdone
  have hrest := hper.enter (show (0x01 : Nat) ≠ opJoin by decide) (.inr (hall fun i hi => hremote i hi)) hrun
  obtain ⟨hhost, hfuts, -⟩ := hps.rest
  have hm : t.mem = (s.active c o.g).foldl (fun m l => Memory.writeN m (pa l) (bytesOf (sizeOf o.ty) (s.operand c o.data l o.ty))) s.mem := by
    rw [hmem, hlanes, List.foldl_map]
    refine congrArg (fun f => List.foldl f _ _) (funext fun m => funext fun i => ?_)
    show Memory.writeN m (pa i) (bytesOf (sizeOf o.ty) (s.operand c o.data i o.ty % 2 ^ (8 * sizeOf o.ty))) = _
    rw [bytesOf_mod]
  rw [hf] at hrest hgone
  refine ⟨t.modGang c.gang f, by rw [hexec, hrest], hm, fun x hwf hx => ?_, hhost, hgroups, hfuts, ?_, hgone⟩
  · show Memory.read t.mem x = _
    rw [hm]
    exact read_writeAll_other _ pa (fun l => bytesOf (sizeOf o.ty) (s.operand c o.data l o.ty)) hwf fun l hl => by rw [length_bytesOf]; exact hx l hl
  · exact State.sameRegs_trans (State.sameRegs_trans (s.sameRegs_entered _ _) hps.sameRegs) (t.sameRegs_modGang _ (hregs _))

theorem localLoad : Claims.LocalLoad := by
  intro s c o pa hi hidle hro hne hdie hremote hpa
  have hlanes : ({ s.access c 0x00 o.ty o.scope o.ord (s.lanesAt c o.g o.at_ o.off.toInt) with ro := o.ro } : Acc).lanes = _ := s.lanesAt_eq c o.g o.at_ o.off.toInt
  obtain ⟨i, hact⟩ := List.exists_mem_of_ne_nil _ hne
  obtain ⟨hbit, hlt⟩ := State.slice_of_active hact
  have hper := hidle.performing rfl hlanes fun i => ⟨rfl, rfl⟩
  obtain ⟨hcore, hctx⟩ := State.core_ctx_entered hidle.1 { s.access c 0x00 o.ty o.scope o.ord (s.lanesAt c o.g o.at_ o.off.toInt) with ro := o.ro }
  have hexec : exec (.ld o) s = .next (s.enter c.gang { s.access c 0x00 o.ty o.scope o.ord (s.lanesAt c o.g o.at_ o.off.toInt) with ro := o.ro }) := by
    rw [show exec (.ld o) s = execLd o s from rfl, execLd, slot_issues _ hi]
  have hall : ∀ {P : AccLane → Prop}, (∀ i ∈ s.active c o.g, P (mkLane i (s.ea c o.at_ o.off.toInt i) 0 0)) →
      ∀ l ∈ ({ s.access c 0x00 o.ty o.scope o.ord (s.lanesAt c o.g o.at_ o.off.toInt) with ro := o.ro } : Acc).lanes, P l := fun h l hl => by
    rw [hlanes] at hl
    obtain ⟨i, hi, rfl⟩ := List.mem_map.mp hl
    exact h i hi
  obtain ⟨t, ls, hrun, haccs, hls, hps, hgroups, hmem⟩ := hper.reads rfl rfl rfl hro rfl hdie (pa := pa)
    (by rw [hcore, hctx]; exact hall fun i hi => hpa i hi)
  have hval : ls.map (fun l => (l.lane, l.st, l.val)) = (s.active c o.g).map (fun l => (l, LaneSt.arriving,
      regBits o.ty (BitVec.ofNat (widthOf o.ty) (ofBytes (s.rd (pa l) (sizeOf o.ty)))))) := by
    rw [hls, hlanes, List.map_map]
    refine List.map_congr_left fun i _ => ?_
    rw [← extendTo_ofNat]
    rfl
  obtain ⟨l, hl, hlane⟩ : ∃ l ∈ ls, (l.lane, l.st, l.val) = _ := List.mem_map.mp (hval ▸ List.mem_map_of_mem hact)
  simp only [Prod.mk.injEq] at hlane
  obtain ⟨hlane, hst, -⟩ := hlane
  obtain ⟨hin, hregs, -⟩ := hper.enter_waits hidle.1 (show (0x00 : Nat) ≠ opJoin by decide) (.inr (hall fun i hi => hremote i hi)) rfl hrun hps haccs hl hst
    (by rw [hlane]; exact hbit) (by rw [hlane]; exact hlt)
  exact ⟨t, _, by rw [hexec, hin], haccs, hval, hmem, hps.rest.1, hgroups, hregs⟩

/-- Settles O28: the lanes of an access to local pages that the TLB translates are performed as it enters, in ascending order. -/
theorem localAccesses : Obligations.LocalAccesses := ⟨localStore, localLoad⟩

end Sys2Proof.Machine
end

section
/-! Atomics: their values, and those of scratchpad in the order of lanes (R183, R185). -/

namespace Sys2Proof.Machine

theorem intVal_toNat (t : Ty) (x : BitVec (widthOf t)) : intVal t (widthOf t) x.toNat = if isSigned t then x.toInt else (x.toNat : Int) := by
  rw [intVal_eq_intOf, BitVec.ofNat_toNat, BitVec.setWidth_eq]
  rfl

/-- One value is less than another by the signedness of the type. -/
theorem intVal_lt_iff (t : Ty) (x y : BitVec (widthOf t)) :
    intVal t (widthOf t) x.toNat < intVal t (widthOf t) y.toNat ↔ (if isSigned t then x.slt y else x.ult y) = true := by
  rw [intVal_toNat, intVal_toNat]
  split
  · rw [BitVec.slt_iff_toInt_lt]
  · rw [BitVec.ult_iff_toNat_lt, Nat.cast_lt]

theorem atomNew_ints (t : Ty) (x y z : BitVec (widthOf t)) :
    let new := fun (op : AtomOp) => atomNew op t x.toNat y.toNat z.toNat
    let less := fun (a b : BitVec (widthOf t)) => if isSigned t then a.slt b else a.ult b
    new .add = (x + y).toNat ∧ new .and = (x &&& y).toNat ∧ new .or = (x ||| y).toNat ∧ new .xor = (x ^^^ y).toNat
      ∧ new .exch = y.toNat ∧ new .cas = (if x = y then z else x).toNat
      ∧ new .min = (if less y x then y else x).toNat ∧ new .max = (if less x y then y else x).toNat := by
  intro new less
  have hmod : ∀ b : BitVec (widthOf t), b.toNat % 2 ^ widthOf t = b.toNat := fun b => Nat.mod_eq_of_lt b.isLt
  have hlow : ∀ {b : BitVec (widthOf t)} {n : Nat}, b.toNat = n → n % 2 ^ widthOf t = b.toNat := fun {b n} h => by rw [← h, hmod]
  refine ⟨(BitVec.toNat_add ..).symm, hlow (BitVec.toNat_and ..), hlow (BitVec.toNat_or ..), hlow (BitVec.toNat_xor ..), hmod y, ?_, ?_, ?_⟩
  · show (if x.toNat = y.toNat % 2 ^ widthOf t then z.toNat % 2 ^ widthOf t else x.toNat) = _
    rw [hmod, hmod, ← apply_ite BitVec.toNat]
    simp only [BitVec.toNat_inj]
  · show (if intVal t (widthOf t) x.toNat ≤ intVal t (widthOf t) y.toNat then x.toNat else y.toNat % 2 ^ widthOf t) = _
    rw [hmod]
    by_cases h : less y x = true
    · rw [if_pos h, if_neg (by have := (intVal_lt_iff t y x).mpr h; omega)]
    · rw [if_neg h, if_pos (by have := mt (intVal_lt_iff t y x).mp h; omega)]
  · show (if intVal t (widthOf t) x.toNat ≥ intVal t (widthOf t) y.toNat then x.toNat else y.toNat % 2 ^ widthOf t) = _
    rw [hmod]
    by_cases h : less x y = true
    · rw [if_pos h, if_neg (by have := (intVal_lt_iff t x y).mpr h; omega)]
    · rw [if_neg h, if_pos (by have := mt (intVal_lt_iff t x y).mp h; omega)]

/-- The lane of an atomic, with its data. -/
def State.atomLane (s : State) (c : Cursor) (o : MAtom) (i : Nat) : AccLane :=
  if o.op = .cas then mkLane i (s.ea c o.at_ o.off.toInt i) (s.casData c o.ty o.data i).1 (s.casData c o.ty o.data i).2
  else mkLane i (s.ea c o.at_ o.off.toInt i) (s.operand c o.data i o.ty % 2 ^ widthOf o.ty) 0

theorem State.lanesAtom_eq (s : State) (c : Cursor) (o : MAtom) : s.lanesAtom c o = (s.active c o.g).map (s.atomLane c o) := by
  rw [State.lanesAtom, State.addrs, List.map_map]
  rfl

theorem State.atomLane_fields (s : State) (c : Cursor) (o : MAtom) (i : Nat) : (s.atomLane c o i).lane = i ∧ (s.atomLane c o i).st = .queued
    ∧ (s.atomLane c o i).addr = s.ea c o.at_ o.off.toInt i ∧ ((s.atomLane c o i).data, (s.atomLane c o i).data2)
      = if o.op = .cas then s.casData c o.ty o.data i else (s.operand c o.data i o.ty % 2 ^ widthOf o.ty, 0) := by
  unfold State.atomLane
  split <;> exact ⟨rfl, rfl, rfl, rfl⟩

/-- Atomics of scratchpad on an idle gang (R183, R185). -/
theorem atomicsOfScratchpad {s : State} {c : Cursor} {o : MAtom} (hi : s.issues c (.atomsp o)) (hidle : s.idleOf c) (hne : s.active c o.g ≠ [])
    (hgrp : (smFind s.groups (s.gang c.gang).group).isSome = true) :
    let n := sizeOf o.ty
    let data := fun (l : Nat) => if o.op = .cas then s.casData c o.ty o.data l else (s.operand c o.data l o.ty % 2 ^ widthOf o.ty, 0)
    let old := fun (m : Memory) (l : Nat) => ofBytes (Memory.readN m (s.ea c o.at_ o.off.toInt l) n)
    let run := (s.active c o.g).foldl (fun (r : Memory × List Nat) l =>
      (Memory.writeN r.1 (s.ea c o.at_ o.off.toInt l) (bytesOf n (atomNew o.op o.ty (old r.1 l) (data l).1 (data l).2)), r.2 ++ [old r.1 l]))
      ((s.group (s.gang c.gang).group).spad, [])
    ∃ t a, exec (.atomsp o) s = .next t ∧ (t.group (s.gang c.gang).group).spad = run.1 ∧ (t.gang c.gang).accs = [(s.nextId, a)]
      ∧ a.lanes.map (fun l => (l.lane, l.st, l.val)) = ((s.active c o.g).zip run.2).map (fun p => (p.1, LaneSt.arriving, p.2))
      ∧ s.sameMemBut t (s.gang c.gang).group ∧ s.sameRegs t := by
  intro n data old run
  have hl : ({ s.access c 0x0A o.ty o.scope o.ord (s.lanesAtom c o) with atop := o.op } : Acc).lanes = _ := s.lanesAtom_eq c o
  obtain ⟨i, hact⟩ := List.exists_mem_of_ne_nil _ hne
  obtain ⟨hbit, hlt⟩ := State.slice_of_active hact
  have hper := hidle.performing rfl hl fun i => ⟨(s.atomLane_fields c o i).1, (s.atomLane_fields c o i).2.1⟩
  have hexec : exec (.atomsp o) s = .next (s.enter c.gang { s.access c 0x0A o.ty o.scope o.ord (s.lanesAtom c o) with atop := o.op }) := by
    rw [show exec (.atomsp o) s = execAtomsp o s from rfl, execAtomsp, slot_issues _ hi]
  have hgroup := State.group_entered hidle.1 { s.access c 0x0A o.ty o.scope o.ord (s.lanesAtom c o) with atop := o.op }
  obtain ⟨t, hrun, haccs, hps, ⟨hmem, hother, -⟩, hspad⟩ := hper.atomics rfl rfl rfl (by rw [hgroup]; exact hgrp)
  rw [hgroup] at haccs hspad hother
  have hatom : atomicsRun { s.access c 0x0A o.ty o.scope o.ord (s.lanesAtom c o) with atop := o.op } c.gang s.nextId (s.group (s.gang c.gang).group).spad
      ({ s.access c 0x0A o.ty o.scope o.ord (s.lanesAtom c o) with atop := o.op } : Acc).lanes = run := by
    rw [hl, atomicsRun, List.foldl_map]
    refine congrArg (fun f => List.foldl f _ _) (funext fun r => funext fun i => ?_)
    obtain ⟨-, -, haddr, hdata⟩ := s.atomLane_fields c o i
    rw [haddr]
    refine Prod.ext ?_ rfl
    show Memory.writeN r.1 (s.atomLane c o i).addr (bytesOf n (atomNew o.op o.ty (ofBytes (Memory.readN r.1 (s.atomLane c o i).addr n))
      ((s.atomLane c o i).data, (s.atomLane c o i).data2).1 ((s.atomLane c o i).data, (s.atomLane c o i).data2).2)) = _
    rw [haddr, hdata]
  have hent : (s.entered c.gang { s.access c 0x0A o.ty o.scope o.ord (s.lanesAtom c o) with atop := o.op }).group (s.gang c.gang).group
      = s.group (s.gang c.gang).group := rfl
  rw [hent, hatom] at haccs hspad
  have hlen : run.2.length = (s.active c o.g).length := by
    rw [← hatom, length_atomicsRun, hl, List.length_map]
  have hval : (List.zipWith (fun l v => performed 0x0A v false l) ((s.active c o.g).map (s.atomLane c o)) run.2).map (fun l => (l.lane, l.st, l.val))
      = ((s.active c o.g).zip run.2).map (fun p => (p.1, LaneSt.arriving, p.2)) := by
    rw [List.zipWith_map_left, List.map_zipWith, List.zip, List.map_zipWith]
    refine congrArg (fun f => List.zipWith f _ _) (funext fun i => funext fun v => ?_)
    show ((s.atomLane c o i).lane, LaneSt.arriving, v) = _
    rw [(s.atomLane_fields c o i).1]
  rw [hl] at haccs
  obtain ⟨l, hlm, hlane⟩ : ∃ l ∈ List.zipWith (fun l v => performed 0x0A v false l) ((s.active c o.g).map (s.atomLane c o)) run.2, l.lane = i ∧ l.st = .arriving := by
    obtain ⟨k, hk, rfl⟩ := List.mem_iff_getElem.mp hact
    refine ⟨performed 0x0A (run.2[k]'(by omega)) false (s.atomLane c o ((s.active c o.g)[k])), ?_, (s.atomLane_fields c o _).1, rfl⟩
    exact List.mem_iff_getElem.mpr ⟨k, by simp; omega, by simp⟩
  obtain ⟨hlane, hst⟩ := hlane
  obtain ⟨hin, hregs, -⟩ := hper.enter_waits hidle.1 (show (0x0A : Nat) ≠ opJoin by decide) (.inl rfl) rfl hrun hps haccs hlm hst
    (by rw [hlane]; exact hbit) (by rw [hlane]; exact hlt)
  obtain ⟨hhost, hfuts, -⟩ := hps.rest
  exact ⟨t, _, by rw [hexec, hin], hspad, haccs, hval, ⟨hmem, hhost, hfuts, hother⟩, hregs⟩

theorem atomicsInLaneOrder : Claims.AtomicsInLaneOrder :=
  ⟨fun t x y z _ => atomNew_ints t x y z, fun _ _ _ hi hidle hne hgrp => atomicsOfScratchpad hi hidle hne hgrp⟩

end Sys2Proof.Machine
end

section
/-! Futures: a fill, a park on a full cell, and FPUT (R200 to R202, R334). -/

namespace Sys2Proof.Machine

/-- Gangs woken by a fill change in their accesses alone. -/
theorem State.foldl_unpark (ws : List Nat) (s : State) :
    ∃ gangs, ws.foldl (fun s u => s.modGang u (fun g => g.unpark (s.cyc g.core))) s = { s with gangs := gangs } := by
  induction ws generalizing s with
  | nil => exact ⟨s.gangs, rfl⟩
  | cons u ws ih =>
    obtain ⟨gangs, h⟩ := ih (s.modGang u (fun g => g.unpark (s.cyc g.core)))
    exact ⟨gangs, by rw [List.foldl_cons, h]; rfl⟩

/-- The bit of a cell among those that are full. -/
def putFull (full : Bool) (l : List Nat) (x : Nat) : List Nat := if full then (if l.contains x then l else x :: l) else l.filter (fun y => y ≠ x)

theorem contains_putFull (full : Bool) (l : List Nat) (x y : Nat) : (putFull full l x).contains y = if y = x then full else l.contains y := by
  cases full with
  | true =>
    unfold putFull
    rw [if_pos rfl]
    split
    · next h =>
      split
      · next he => rw [he]; exact h
      · rfl
    · split
      · next he => rw [he, List.contains_cons, beq_self_eq_true]; rfl
      · next he => rw [List.contains_cons, beq_eq_false_iff_ne.mpr he, Bool.false_or]
  | false =>
    rw [Bool.eq_iff_iff]
    simp only [putFull, Bool.false_eq_true, if_false, List.contains_iff_mem, List.mem_filter, decide_eq_true_eq]
    split
    · next he => simp [he]
    · next he => simp [he]

/-- A group's cell is marked full, or empty. -/
def Group.markFut (cell : Nat) (full : Bool) (x : Group) : Group := { x with futs := putFull full x.futs (cell / 8) }

theorem State.setFut_group (s : State) (g cell : Nat) (full : Bool) : s.setFut (some g) cell full = s.modGroup g (Group.markFut cell full) := rfl

theorem State.setFut_global (s : State) (cell : Nat) (full : Bool) : s.setFut none cell full = { s with futs := putFull full s.futs cell } := rfl

/-- A fill of a cell of scratchpad marks it in its group, takes its waiters, and wakes their gangs (R201, R334). -/
theorem State.fill_group (s : State) (ctx g cell : Nat) : ∃ cores gangs, (s.fill ctx (some g) cell).2
    = { s.modGroup g (Group.markFut cell true) with serial := s.serial + 1, cores := cores, gangs := gangs } := by
  unfold State.fill
  extract_lets a hit ws b gs
  obtain ⟨gangs, h⟩ := State.foldl_unpark gs b
  exact ⟨b.cores, gangs, h⟩

/-- A fill of a cell of global memory. -/
theorem State.fill_global (s : State) (ctx cell : Nat) : ∃ fwait gangs, (s.fill ctx none cell).2
    = { s with futs := putFull true s.futs cell, serial := s.serial + 1, fwait := fwait, gangs := gangs } := by
  unfold State.fill
  extract_lets a hit ws b gs
  obtain ⟨gangs, h⟩ := State.foldl_unpark gs b
  exact ⟨b.fwait, gangs, h⟩

theorem fillsOfScratchpad (s : State) (ctx g cell : Nat) (hg : (smFind s.groups g).isSome = true) :
    let t := (s.fill ctx (some g) cell).2
    t.futFull (some g) cell = true ∧ t.mem = s.mem ∧ (∀ h, (t.group h).spad = (s.group h).spad)
      ∧ ∀ x, x / 8 ≠ cell / 8 → t.futFull (some g) x = s.futFull (some g) x := by
  obtain ⟨cores, gangs, h⟩ := s.fill_group ctx g cell
  have hgrp := State.group_modGroup_same (Group.markFut cell true) hg
  have hfull : ∀ x, ((s.fill ctx (some g) cell).2).futFull (some g) x = (putFull true (s.group g).futs (cell / 8)).contains (x / 8) := fun x => by
    rw [h]
    exact congrArg (fun y : Group => y.futs.contains (x / 8)) hgrp
  refine ⟨?_, by rw [h]; rfl, fun k => ?_, fun x hx => ?_⟩
  · rw [hfull, contains_putFull, if_pos rfl]
  · rw [h]
    show ((s.modGroup g (Group.markFut cell true)).group k).spad = _
    by_cases hk : k = g
    · rw [hk, hgrp]
      rfl
    · rw [State.group_modGroup_other _ _ hk]
  · rw [hfull, contains_putFull, if_neg hx]
    rfl

theorem fillsOfMemory (s : State) (ctx cell : Nat) :
    let t := (s.fill ctx none cell).2
    t.futFull none cell = true ∧ t.mem = s.mem ∧ t.groups = s.groups ∧ ∀ x, x ≠ cell → t.futFull none x = s.futFull none x := by
  obtain ⟨fwait, gangs, h⟩ := s.fill_global ctx cell
  have hfull : ∀ x, ((s.fill ctx none cell).2).futFull none x = (putFull true s.futs cell).contains x := fun x => by rw [h]; rfl
  refine ⟨?_, by rw [h], by rw [h], fun x hx => ?_⟩
  · rw [hfull, contains_putFull, if_pos rfl]
  · rw [hfull, contains_putFull, if_neg hx]
    rfl

/-- A cell that is given to a park is full still, or is emptied, and keeps its value (R202). -/
theorem State.take_facts {s : State} {grp : Option Nat} {cell : Nat} (h : s.futFull grp cell = true) (take : Bool) :
    let t := if take then s.setFut grp cell false else s
    t.futFull grp cell = !take ∧ t.futVal grp cell = s.futVal grp cell ∧ t.gangs = s.gangs := by
  cases take with
  | false => exact ⟨h, rfl, rfl⟩
  | true =>
    show (s.setFut grp cell false).futFull grp cell = false ∧ (s.setFut grp cell false).futVal grp cell = _ ∧ (s.setFut grp cell false).gangs = _
    cases grp with
    | none =>
      refine ⟨?_, rfl, rfl⟩
      rw [State.setFut_global]
      show (putFull false s.futs cell).contains cell = false
      rw [contains_putFull, if_pos rfl]
    | some g =>
      have hg : (smFind s.groups g).isSome = true := by
        cases hs : smFind s.groups g with
        | some x => rfl
        | none =>
          rw [State.futFull, State.group, hs] at h
          cases h
      have hgrp := State.group_modGroup_same (Group.markFut cell false) hg
      rw [State.setFut_group]
      refine ⟨?_, ?_, rfl⟩
      · show ((s.modGroup g (Group.markFut cell false)).group g).futs.contains (cell / 8) = false
        rw [hgrp, Group.markFut, contains_putFull, if_pos rfl]
      · show ofBytes (Memory.readN ((s.modGroup g (Group.markFut cell false)).group g).spad cell 8) = ofBytes (Memory.readN (s.group g).spad cell 8)
        rw [hgrp]
        rfl

theorem State.futFull_of_groups {s t : State} (hg : t.groups = s.groups) (hf : t.futs = s.futs) (grp : Option Nat) (cell : Nat) :
    t.futFull grp cell = s.futFull grp cell := by
  cases grp with
  | none => exact congrArg (fun l => l.contains cell) hf
  | some g => exact congrArg (fun m => ((smFind m g).getD default).futs.contains (cell / 8)) hg

theorem State.futVal_of_groups {s t : State} (hg : t.groups = s.groups) (hm : t.mem = s.mem) (grp : Option Nat) (cell : Nat) :
    t.futVal grp cell = s.futVal grp cell := by
  unfold State.futVal State.rdN State.rd State.spRd State.group
  rw [hm, hg]

/-- A lane of an access is given a value. -/
def Acc.giveLane (i v : Nat) (bad : Bool) (x : Acc) : Acc :=
  { x with lanes := x.lanes.map (fun y => if [i].contains y.lane then performed 0x29 v bad y else y) }

/-- A lane that presents a park on a full cell is given its value (R202, R334). -/
theorem State.present_full {s : State} {u id : Nat} {a : Acc} {l : AccLane} {grp : Option Nat} {cell : Nat} (hop : a.op = 0x29) (h : s.futFull grp cell = true) :
    ∃ f n, Gang.keepsRest f ∧ (∀ g, (f g).accs = smMod g.accs id (Acc.giveLane l.lane (s.futVal grp cell) (grp.isNone && s.poisoned cell 8)))
      ∧ s.present u id a l grp cell = { (if a.take then s.setFut grp cell false else s) with gangs := smMod s.gangs u f, serial := n } := by
  obtain ⟨-, -, hgangs⟩ := State.take_facts h a.take
  have hpoison : (if a.take then s.setFut grp cell false else s).poisoned cell 8 = s.poisoned cell 8 := by
    split
    · cases grp <;> rfl
    · rfl
  obtain ⟨f, n, hf, hfa, hnote⟩ := ((if a.take then s.setFut grp cell false else s).setLanes u id [l.lane]
    (performed 0x29 (s.futVal grp cell) (grp.isNone && s.poisoned cell 8))).noteAcquire_eq u a
  have hmod : Gang.keepsRest (fun g => g.modAcc id (Acc.giveLane l.lane (s.futVal grp cell) (grp.isNone && s.poisoned cell 8))) := fun g => ⟨_, g.acq, rfl⟩
  refine ⟨_, n, hmod.comp hf, fun g => hfa _, ?_⟩
  unfold State.present
  rw [if_pos h]
  dsimp only
  rw [State.answerPark, hop, hpoison]
  dsimp only
  rw [if_neg (by decide), hnote, State.setLanes, State.modGang]
  dsimp only
  rw [smMod_smMod, hgangs]
  rfl

theorem parksOnFullCells (s : State) (u id : Nat) (a : Acc) (l : AccLane) (grp : Option Nat) (cell : Nat) (hop : a.op = 0x29) (h : s.futFull grp cell = true)
    (hu : (smFind s.gangs u).isSome = true) (hid : (smFind (s.gang u).accs id).isSome = true) :
    let t := s.present u id a l grp cell
    t.futFull grp cell = !a.take ∧ t.futVal grp cell = s.futVal grp cell
      ∧ ((t.gang u).acc id).lanes = ((s.gang u).acc id).lanes.map (fun x =>
          if x.lane = l.lane then { x with st := .arriving, val := s.futVal grp cell, bad := grp.isNone && s.poisoned cell 8 } else x) := by
  intro t
  obtain ⟨f, n, -, hfa, ht⟩ := State.present_full (u := u) (id := id) (l := l) hop h
  obtain ⟨hfull, hval, -⟩ := State.take_facts h a.take
  refine ⟨?_, ?_, ?_⟩
  · rw [show t = _ from ht]
    exact (State.futFull_of_groups rfl rfl grp cell).trans hfull
  · rw [show t = _ from ht]
    exact (State.futVal_of_groups rfl rfl grp cell).trans hval
  · have hgang : t.gang u = f (s.gang u) := by
      rw [show t = _ from ht]
      exact State.gang_modGang_same s u f hu
    obtain ⟨x, hx⟩ := Option.isSome_iff_exists.mp hid
    rw [hgang, Gang.acc, Gang.acc, hfa, smFind_smMod, if_pos rfl, hx]
    refine List.map_congr_left fun y _ => ?_
    by_cases hy : y.lane = l.lane
    · rw [if_pos hy, if_pos (by simp [hy])]
      rfl
    · rw [if_neg hy, if_neg (by simpa using hy)]

end Sys2Proof.Machine
end

section
/-! FPUT to scratchpad and to a local page (R201). -/

namespace Sys2Proof.Machine

/-- With nobody waiting, a fill of scratchpad wakes nobody. -/
theorem State.fill_group_quiet {s : State} (hw : ∀ k, (s.core k).waiters = []) (ctx g cell : Nat) : ∃ cores, s.fill ctx (some g) cell
    = ([], { s.modGroup g (Group.markFut cell true) with serial := s.serial + 1, cores := cores }) := by
  unfold State.fill
  extract_lets a hit ws b gs
  have hws : ws = [] := by
    show List.filter hit (a.core (a.group g).core).waiters = []
    rw [show (a.core (a.group g).core).waiters = [] from hw _]
    rfl
  have hgs : gs = [] := by
    show (ws.flatMap _).eraseDups = []
    rw [hws]
    rfl
  rw [hgs]
  exact ⟨b.cores, rfl⟩

/-- With nobody waiting, a fill of global memory wakes nobody. -/
theorem State.fill_global_quiet {s : State} (hw : s.fwait = []) (ctx cell : Nat) : s.fill ctx none cell
    = ([], { s with futs := putFull true s.futs cell, serial := s.serial + 1 }) := by
  unfold State.fill
  extract_lets a hit ws b gs
  have hws : ws = [] := by
    show List.filter hit s.fwait = []
    rw [hw]
    rfl
  have hgs : gs = [] := by
    show (ws.flatMap _).eraseDups = []
    rw [hws]
    rfl
  have hb : b = { s with futs := putFull true s.futs cell, serial := s.serial + 1 } := by
    have : List.filter (fun w => !(hit w)) s.fwait = s.fwait := by rw [hw]; rfl
    show ({ s with futs := putFull true s.futs cell, serial := s.serial + 1, fwait := List.filter (fun w => !(hit w)) s.fwait } : State) = _
    rw [this]
  rw [hgs, hb]
  rfl

/-- The lane of an FPUT. -/
def State.fputLane (s : State) (c : Cursor) (o : MFput) (i : Nat) : AccLane := mkLane i (s.ea c o.at_ o.off.toInt i) (s.operand c o.data i o.ty) 0

/-- The access of an FPUT (R201). -/
def State.fputAcc (s : State) (c : Cursor) (o : MFput) : Acc := s.access c 0x28 o.ty o.scope .rel ((s.active c o.g).map (s.fputLane c o))

theorem exec_fput {s : State} {c : Cursor} {o : MFput} (hi : s.issues c (.fput o)) : exec (.fput o) s = .next (s.enter c.gang (s.fputAcc c o)) := by
  rw [show exec (.fput o) s = execFput o s from rfl, execFput, slot_issues _ hi]
  unfold State.fputAcc State.addrs
  rw [List.map_map]
  rfl

/-- A lane of a fill that is next stores in scratchpad, marks its cell and is done (R201). -/
theorem State.performing.fill_sp {s : State} {u id : Nat} {a : Acc} {l : AccLane} (h : s.performing u id a [] [l]) (hsp : a.sp = true) (huse : a.use = .fill)
    (hdel : delivers a.op = false) (hw : ∀ k, (s.core k).waiters = []) :
    ∃ (f : Group → Group) (g : Gang → Gang) (cores : List (Nat × Core)) (t : State), State.pumpLane u id ([], [], s) l.lane = ([], [], t)
      ∧ (∀ x, (f x).spad = (a.bankOp u id l).on x.spad) ∧ Gang.keepsRest g
      ∧ (g (s.gang u)).accs = [(id, { a with lanes := [{ l with st := .done, val := 0, bad := false }] })]
      ∧ t = { s with gangs := smMod s.gangs u g, groups := smMod s.groups (s.gang u).group (fun x => Group.markFut l.addr true (f x)), serial := s.serial + 1, cores := cores } := by
  obtain ⟨f, hf, hbank⟩ := s.bankStore_eq (s.gang u).group (a.bankOp u id l)
  rw [if_neg (by rw [Acc.bankOp, huse]; simp)] at hbank
  obtain ⟨cores, hfill⟩ := State.fill_group_quiet (s := s.modGroup (s.gang u).group f) hw (s.gang u).ctx (s.gang u).group l.addr
  obtain ⟨g, hset, hg, haccs⟩ := State.setLanes_one (d := []) (r := [])
    (s := { (s.modGroup (s.gang u).group f).modGroup (s.gang u).group (Group.markFut l.addr true) with serial := s.serial + 1, cores := cores })
    h.accs (fun _ h => absurd h List.not_mem_nil) (fun _ h => absurd h List.not_mem_nil) (performed a.op 0 false)
  rw [performed, hdel] at haccs
  refine ⟨f, g, cores, _, ?_, fun x => (hf x).1, hg, haccs, rfl⟩
  rw [h.pumpLane_sp hsp]
  have hrun : s.performSp u id { a with lanes := [] ++ l :: [] } l
      = ([], { s with gangs := smMod s.gangs u g, groups := smMod s.groups (s.gang u).group (fun x => Group.markFut l.addr true (f x)), serial := s.serial + 1, cores := cores }) := by
    unfold State.performSp
    dsimp only
    rw [show ({ a with lanes := [] ++ l :: [] } : Acc).use = .fill from huse]
    dsimp only
    rw [show ({ a with lanes := [] ++ l :: [] } : Acc).bankOp u id l = a.bankOp u id l from rfl, hbank, hfill]
    refine congrArg (Prod.mk []) (hset.trans ?_)
    simp only [State.modGang, State.modGroup, smMod_smMod]
  rw [hrun]
  rfl

/-- An access all of whose lanes are done as it enters leaves no more than its effects. -/
theorem State.performing.enter_done {s t : State} {u : Nat} {a : Acc} (h : (s.entered u a).performing u s.nextId a [] a.lanes) (hop : a.op ≠ opJoin)
    (hremote : a.global = false ∨ ∀ l ∈ a.lanes, s.remotePage (s.gang u).ctx l.addr = false)
    (hrun : (a.lanes.map (·.lane)).foldl (State.pumpLane u s.nextId) ([], [], s.entered u a) = ([], [], t)) (hu : (smFind t.gangs u).isSome = true)
    {b : Acc} (haccs : (t.gang u).accs = [(s.nextId, b)]) (hd : ∀ l ∈ b.lanes, l.st = .done) :
    ∃ k, s.enter u a = t.modGang u k ∧ ∀ g : Gang, g.keepsRegs (k g) := by
  obtain ⟨k, hk, hregs, -⟩ := State.sweepAccs_done hu haccs hd
  exact ⟨k, (h.enter hop hremote hrun).trans hk, hregs⟩

theorem fputOfScratchpad {s : State} {c : Cursor} {o : MFput} {l : Nat} (hi : s.issues c (.fput o)) (hidle : s.idleOf c)
    (hgrp : (smFind s.groups (s.gang c.gang).group).isSome = true) (hscope : o.scope = .gang ∨ o.scope = .grp) (hact : s.active c o.g = [l])
    (hw : ∀ k, (s.core k).waiters = []) :
    ∃ t, exec (.fput o) s = .next t ∧ t.futFull (some (s.gang c.gang).group) (s.ea c o.at_ o.off.toInt l) = true
      ∧ (t.group (s.gang c.gang).group).spad = Memory.writeN (s.group (s.gang c.gang).group).spad (s.ea c o.at_ o.off.toInt l)
          (bytesOf 8 (s.operand c o.data l o.ty)) ∧ s.sameMemBut t (s.gang c.gang).group ∧ s.sameRegs t := by
  have hsp : (s.fputAcc c o).sp = true := by rcases hscope with h | h <;> (unfold State.fputAcc State.access Acc.sp; rw [h]; rfl)
  have hglobal : (s.fputAcc c o).global = false := by rcases hscope with h | h <;> (unfold State.fputAcc State.access Acc.global; rw [h]; rfl)
  have hlanes : (s.fputAcc c o).lanes = [s.fputLane c o l] := by
    show (s.active c o.g).map (s.fputLane c o) = _
    rw [hact]
    rfl
  have hgroup := State.group_entered hidle.1 (s.fputAcc c o)
  have hper := hidle.performing (a := s.fputAcc c o) (g := o.g) (f := s.fputLane c o) rfl rfl fun i => ⟨rfl, rfl⟩
  have hper0 := hper
  rw [hlanes] at hper
  obtain ⟨f, g, cores, t, hrun, hf, hg, haccs, ht⟩ := hper.fill_sp hsp rfl rfl hw
  rw [hgroup] at ht
  have hgang : t.gang c.gang = g ((s.entered c.gang (s.fputAcc c o)).gang c.gang) := by
    rw [ht]
    exact State.gang_modGang_same _ _ _ hper.has
  have hsome : (smFind t.gangs c.gang).isSome = true := by
    rw [ht]
    exact isSome_smMod _ _ hper.has
  obtain ⟨k, henter, hregs⟩ := hper0.enter_done (show (0x28 : Nat) ≠ opJoin by decide) (.inl hglobal) (hlanes ▸ hrun) hsome (hgang ▸ haccs) fun x hx => by
    obtain rfl := List.mem_singleton.mp hx
    rfl
  have hspad := State.group_modGroup_same (fun x => Group.markFut (s.fputLane c o l).addr true (f x)) hgrp
  have hgroups : ∀ h, (t.modGang c.gang k).group h = (s.modGroup (s.gang c.gang).group (fun x => Group.markFut (s.fputLane c o l).addr true (f x))).group h := fun h => by
    rw [ht]
    rfl
  refine ⟨_, by rw [exec_fput hi, henter], ?_, ?_, ⟨by rw [ht]; rfl, by rw [ht]; rfl, by rw [ht]; rfl, fun h hh => ?_⟩, ?_⟩
  · rw [State.futFull, hgroups, hspad]
    show (putFull true _ _).contains _ = true
    rw [contains_putFull]
    exact if_pos rfl
  · rw [hgroups, hspad]
    exact hf _
  · rw [hgroups, State.group_modGroup_other _ _ hh]
  · refine State.sameRegs_trans (s.sameRegs_entered c.gang (s.fputAcc c o)) (State.sameRegs_trans ?_ (t.sameRegs_modGang _ (hregs _)))
    rw [ht]
    exact State.sameRegs_trans (State.sameRegs_modGang _ _ (hg.regs _)) (State.sameRegs_of_gangs rfl rfl)

/-- A lane of a fill that is next writes a local page, marks its cell and is done (R201). -/
theorem State.performing.fill_hbm {s : State} {u id pa : Nat} {a : Acc} {l : AccLane} (h : s.performing u id a [] [l]) (hsp : a.sp = false) (huse : a.use = .fill)
    (hcar : a.carries = []) (hdel : delivers a.op = false) (hw : s.fwait = []) (hdie : s.dieFails = [])
    (hpa : s.hits (s.gang u).core (s.gang u).ctx l.addr a.pageUse pa) :
    ∃ (bad : Bool) (g : Gang → Gang) (k : Ctx → Ctx) (hbm : List (Nat × (Nat × Bool))) (t : State), State.pumpLane u id ([], [], s) l.lane = ([], [], t)
      ∧ Gang.keepsRest g ∧ (g (s.gang u)).accs = [(id, { a with lanes := [{ l with st := .done, val := 0, bad := bad }] })]
      ∧ t = { s with gangs := smMod s.gangs u g, ctxs := smMod s.ctxs (s.gang u).ctx k, hbm := hbm, mem := Memory.writeN s.mem pa (bytesOf 8 l.data), futs := putFull true s.futs pa, serial := s.serial + 1 } := by
  obtain ⟨k, hbm, -, hreach⟩ := s.reaches_eq u pa l.addr
  have hfill := State.fill_global_quiet (s := (s.reaches u pa l.addr).wr pa (bytesOf 8 l.data)) hw (s.gang u).ctx pa
  obtain ⟨g, hset, hg, haccs⟩ := State.setLanes_one (d := []) (r := [])
    (s := { (s.reaches u pa l.addr).wr pa (bytesOf 8 l.data) with futs := putFull true s.futs pa, serial := s.serial + 1 })
    h.accs (fun _ h => absurd h List.not_mem_nil) (fun _ h => absurd h List.not_mem_nil) (performed a.op 0 (s.poisoned pa (sizeOf a.ty)))
  rw [performed, hdel] at haccs
  refine ⟨_, g, k, hbm, _, ?_, hg, haccs, rfl⟩
  rw [h.pumpLane_hbm hsp hcar hpa]
  have hrun : (s.touch pa).performHbm u id { a with lanes := [] ++ l :: [] } l pa
      = ([], { s with gangs := smMod s.gangs u g, ctxs := smMod s.ctxs (s.gang u).ctx k, hbm := hbm, mem := Memory.writeN s.mem pa (bytesOf 8 l.data), futs := putFull true s.futs pa, serial := s.serial + 1 }) := by
    unfold State.performHbm
    extract_lets n G bad done w
    rw [State.crossFails_none (s := w) hdie, Bool.false_and, Bool.false_and, if_neg Bool.false_ne_true,
      show ({ a with lanes := [] ++ l :: [] } : Acc).use = .fill from huse]
    dsimp only [done]
    rw [show w = s.reaches u pa l.addr from rfl, show G.ctx = (s.gang u).ctx from rfl, hfill]
    refine congrArg (Prod.mk []) (hset.trans ?_)
    rw [hreach]
    rfl
  rw [hrun]
  rfl

theorem fputOfMemory {s : State} {c : Cursor} {o : MFput} {l pa : Nat} (hi : s.issues c (.fput o)) (hidle : s.idleOf c)
    (hscope : o.scope = .clu ∨ o.scope = .dev ∨ o.scope = .sys) (hact : s.active c o.g = [l]) (hdie : s.dieFails = []) (hw : s.fwait = [])
    (hremote : s.remotePage (s.gang c.gang).ctx (s.ea c o.at_ o.off.toInt l) = false)
    (hpa : s.hits (s.gang c.gang).core (s.gang c.gang).ctx (s.ea c o.at_ o.off.toInt l) .fill pa) :
    ∃ t, exec (.fput o) s = .next t ∧ t.futFull none pa = true ∧ t.mem = Memory.writeN s.mem pa (bytesOf 8 (s.operand c o.data l o.ty))
      ∧ t.host = s.host ∧ t.groups = s.groups ∧ s.sameRegs t := by
  have hsp : (s.fputAcc c o).sp = false := by rcases hscope with h | h | h <;> (unfold State.fputAcc State.access Acc.sp; rw [h]; rfl)
  have hlanes : (s.fputAcc c o).lanes = [s.fputLane c o l] := by
    show (s.active c o.g).map (s.fputLane c o) = _
    rw [hact]
    rfl
  obtain ⟨hcore, hctx⟩ := State.core_ctx_entered hidle.1 (s.fputAcc c o)
  have hper := hidle.performing (a := s.fputAcc c o) (g := o.g) (f := s.fputLane c o) rfl rfl fun i => ⟨rfl, rfl⟩
  have hper0 := hper
  rw [hlanes] at hper
  obtain ⟨bad, g, k, hbm, t, hrun, hg, haccs, ht⟩ := hper.fill_hbm hsp rfl rfl rfl hw hdie (by rw [hcore, hctx]; exact hpa)
  have hgang : t.gang c.gang = g ((s.entered c.gang (s.fputAcc c o)).gang c.gang) := by
    rw [ht]
    exact State.gang_modGang_same _ _ _ hper.has
  have hsome : (smFind t.gangs c.gang).isSome = true := by
    rw [ht]
    exact isSome_smMod _ _ hper.has
  obtain ⟨f, henter, hregs⟩ := hper0.enter_done (show (0x28 : Nat) ≠ opJoin by decide) (.inr fun x hx => by rw [hlanes] at hx; rw [List.mem_singleton.mp hx]; exact hremote)
    (hlanes ▸ hrun) hsome (hgang ▸ haccs) fun x hx => by
    obtain rfl := List.mem_singleton.mp hx
    rfl
  refine ⟨_, by rw [exec_fput hi, henter], ?_, by rw [ht]; rfl, by rw [ht]; rfl, by rw [ht]; rfl, ?_⟩
  · rw [ht]
    show (putFull true _ _).contains _ = true
    rw [contains_putFull]
    exact if_pos rfl
  · refine State.sameRegs_trans (s.sameRegs_entered c.gang (s.fputAcc c o)) (State.sameRegs_trans ?_ (t.sameRegs_modGang _ (hregs _)))
    rw [ht]
    exact State.sameRegs_trans (State.sameRegs_modGang _ _ (hg.regs _)) (State.sameRegs_of_gangs rfl rfl)

theorem futuresFillAndGive : Claims.FuturesFillAndGive :=
  ⟨fun s ctx g cell hg => fillsOfScratchpad s ctx g cell hg, fillsOfMemory,
    fun s u id a l grp cell hop h hu hid => parksOnFullCells s u id a l grp cell hop h hu hid,
    fun _ _ _ _ hi hidle hgrp hscope hact _ hw => fputOfScratchpad hi hidle hgrp hscope hact hw,
    fun _ _ _ _ _ hi hidle hscope hact hdie hw hremote hpa => fputOfMemory hi hidle hscope hact hdie hw hremote hpa⟩

/-- Settles O29: the values of atomics by type, their order by lane, and what a fill, a full cell and an FPUT do. -/
theorem atomicsAndFutures : Obligations.AtomicsAndFutures := ⟨atomicsInLaneOrder, futuresFillAndGive⟩

end Sys2Proof.Machine
end

section
/-! What waking, settling and stopping leave of the queues of a gang's slices, and of the set of groups. -/

namespace Sys2Proof.Machine

/-- Two gangs with the same load queues and streams. -/
def Gang.sameQueues (g g' : Gang) : Prop := ∀ k, (g'.slice k).ldq = (g.slice k).ldq ∧ (g'.slice k).strm = (g.slice k).strm

theorem Gang.sameQueues_refl (g : Gang) : g.sameQueues g := fun _ => ⟨rfl, rfl⟩

theorem Gang.sameQueues.trans {a b c : Gang} (h : a.sameQueues b) (h' : b.sameQueues c) : a.sameQueues c := fun k =>
  ⟨(h' k).1.trans (h k).1, (h' k).2.trans (h k).2⟩

theorem Gang.sameQueues_of {g g' : Gang} (h : g'.slices = g.slices) : g.sameQueues g' := fun k => by
  rw [Gang.slice, Gang.slice, h]
  exact ⟨rfl, rfl⟩

theorem Gang.sameQueues_modSlice (g : Gang) (i : Nat) {f : Slice → Slice} (hf : ∀ x, (f x).ldq = x.ldq ∧ (f x).strm = x.strm) :
    g.sameQueues (g.modSlice i f) := fun k => by
  have h : (g.modSlice i f).slice k = if i = k ∧ k < g.slices.length then f (g.slice k) else g.slice k := by
    show (setNth g.slices i f).getD k default = _
    rw [setNth_getD]
    split
    · next hk => obtain ⟨rfl, hlt⟩ := hk; rw [if_pos ⟨rfl, hlt⟩]; rfl
    · next hk => rw [if_neg fun (h : i = k ∧ k < g.slices.length) => hk ⟨h.1.symm, h.1 ▸ h.2⟩]; rfl
  rw [h]
  split
  · exact hf _
  · exact ⟨rfl, rfl⟩

/-- Slices changed one by one by their number. -/
theorem Gang.sameQueues_mapIdx (g : Gang) {f : Nat → Slice → Slice} (hf : ∀ k x, (f k x).ldq = x.ldq ∧ (f k x).strm = x.strm) :
    g.sameQueues { g with slices := g.slices.mapIdx f } := fun k => by
  simp only [Gang.slice, List.getD_eq_getElem?_getD, List.getElem?_mapIdx]
  cases g.slices[k]? with
  | none => exact ⟨rfl, rfl⟩
  | some x => exact hf k x

theorem Gang.sameQueues_bringIn (g : Gang) (i e ready : Nat) : g.sameQueues (g.bringIn i e ready) :=
  (g.sameQueues_modSlice i (f := fun x => { x with cur := some e, sets := smMod x.sets e (fun y => { y with ready := max y.ready ready, idle := 0 }) })
    fun _ => ⟨rfl, rfl⟩).trans (Gang.sameQueues_of rfl)

theorem Gang.sameQueues_settleSlice (g : Gang) (i : Nat) : g.sameQueues (g.settleSlice i) := by
  unfold Gang.settleSlice
  extract_lets x
  split
  · split
    · exact (g.sameQueues_modSlice i (f := fun x => { x with cur := none }) fun _ => ⟨rfl, rfl⟩).trans (Gang.sameQueues_of rfl)
    · exact g.sameQueues_bringIn _ _ _
  · split
    · exact g.sameQueues_refl
    · split
      · exact g.sameQueues_refl
      · exact g.sameQueues_bringIn _ _ _

theorem Gang.sameQueues_settle (g : Gang) (m : Nat) : g.sameQueues (g.settle m) := by
  unfold Gang.settle
  induction bitsOf 8 m generalizing g with
  | nil => exact g.sameQueues_refl
  | cons i l ih => exact (g.sameQueues_settleSlice i).trans (ih _)

theorem Gang.sameQueues_wake (g : Gang) (ready : Nat) (p : Nat → LaneSet → Bool) : g.sameQueues (g.wake ready p) := by
  unfold Gang.wake
  induction List.range g.slices.length generalizing g with
  | nil => exact g.sameQueues_refl
  | cons k l ih =>
    refine Gang.sameQueues.trans ?_ (ih _)
    beta_reduce
    extract_lets x stuck left g' x'
    have hg : g.sameQueues g' := g.sameQueues_modSlice k fun _ => ⟨rfl, rfl⟩
    refine iteInduction (fun _ => iteInduction (fun _ => ?_) fun _ => hg) fun _ => g.sameQueues_refl
    split
    · exact hg
    · exact iteInduction (fun _ => hg) fun _ => hg.trans (g'.sameQueues_bringIn _ _ _)

theorem Gang.sameQueues_landReg (g : Gang) (t : Nat) (w : Write) : g.sameQueues (g.landReg t w) := by
  unfold Gang.landReg
  split
  · split <;> exact Gang.sameQueues_of rfl
  · unfold Gang.setP
    split <;> exact Gang.sameQueues_of rfl
  · exact Gang.sameQueues_of rfl
  · exact Gang.sameQueues_of rfl
  · split
    · exact g.sameQueues_mapIdx fun _ _ => by split <;> exact ⟨rfl, rfl⟩
    · split <;> exact Gang.sameQueues_of rfl

theorem Gang.sameQueues_landNow (g : Gang) (now : Nat) (ws : List InFlight) : g.sameQueues (g.landNow now ws) := by
  have hregs : ∀ (ws : List InFlight) (g : Gang), g.sameQueues (ws.foldl (fun g w => g.landReg (now + 1) w.w) g) := by
    intro ws
    induction ws with
    | nil => exact Gang.sameQueues_refl
    | cons w ws ih => exact fun g => (g.sameQueues_landReg _ _).trans (ih _)
  have hlatches : ∀ (ws : List InFlight) (g : Gang), g.sameQueues (ws.foldl (fun g w => g.landLatch now w.w) g) := by
    intro ws
    induction ws with
    | nil => exact Gang.sameQueues_refl
    | cons w ws ih => exact fun g => (Gang.sameQueues_of (g.landLatch_slices now w.w)).trans (ih _)
  exact (hregs ws g).trans (hlatches _ _)

theorem Gang.sameQueues_stopIn (issuing : Bool) (now : Nat) (g : Gang) : g.sameQueues (g.stopIn issuing now) := by
  cases issuing with
  | true => exact Gang.sameQueues_of rfl
  | false => exact (Gang.sameQueues_landNow { g with flight := [] } now g.flight).trans (Gang.sameQueues_of rfl)

theorem State.wakeSets_queues (s : State) (u ready : Nat) (p : Nat → LaneSet → Bool) :
    ∃ f, s.wakeSets u ready p = s.modGang u f ∧ ∀ g : Gang, g.sameQueues (f g) := by
  unfold State.wakeSets
  refine ⟨_, rfl, fun g => ?_⟩
  extract_lets waits g₁ g₂
  have h : g₁.sameQueues g₂ := g₁.sameQueues_mapIdx fun _ _ => ⟨rfl, rfl⟩
  exact ((g.sameQueues_wake _ _).trans h).trans (Gang.sameQueues_settle _ _)

/-- What performing accesses, and the failures that come of it, keep of state `orig`: the groups that there are, and with `full` the queues and
streams of every gang. -/
def State.keeps (full : Bool) (orig s : State) : Prop :=
  (∀ g, (smFind s.groups g).isSome = (smFind orig.groups g).isSome) ∧ (full = true → ∀ u, (orig.gang u).sameQueues (s.gang u))

theorem State.keeps.groups {full : Bool} {orig s : State} (h : State.keeps full orig s) (g : Nat) : (smFind s.groups g).isSome = (smFind orig.groups g).isSome := h.1 g

theorem State.keeps.queues {full : Bool} {orig s : State} (h : State.keeps full orig s) (hq : full = true) (u : Nat) : (orig.gang u).sameQueues (s.gang u) := h.2 hq u

theorem State.keeps_refl (full : Bool) (s : State) : State.keeps full s s := ⟨fun _ => rfl, fun _ _ => Gang.sameQueues_refl _⟩

section
variable {full : Bool} {orig : State}

theorem State.keeps.of_eq {s t : State} (hs : State.keeps full orig s) (hg : t.gangs = s.gangs) (hp : t.groups = s.groups) : State.keeps full orig t :=
  ⟨fun g => by rw [hp]; exact hs.groups g, fun h u => by rw [show t.gang u = s.gang u by rw [State.gang, State.gang, hg]]; exact hs.queues h u⟩

theorem State.keeps.modGang {s : State} {u : Nat} {f : Gang → Gang} (hs : State.keeps full orig s) (hf : full = true → ∀ g : Gang, g.sameQueues (f g)) :
    State.keeps full orig (State.modGang s u f) := by
  refine ⟨hs.groups, fun hq v => (hs.queues hq v).trans ?_⟩
  by_cases hv : v = u
  · subst hv
    cases hu : smFind s.gangs v with
    | some g =>
      rw [State.gang_modGang_same _ _ _ (by rw [hu]; rfl)]
      exact hf hq _
    | none =>
      rw [State.gang, State.gang, State.modGang, smFind_smMod, if_pos rfl, hu]
      exact Gang.sameQueues_refl _
  · rw [State.gang_modGang_other _ _ _ _ hv]
    exact Gang.sameQueues_refl _

/-- A change of a gang outside its slices. -/
theorem State.keeps.modRest {s : State} {u : Nat} {f : Gang → Gang} (hs : State.keeps full orig s) (hf : ∀ g, (f g).slices = g.slices) :
    State.keeps full orig (State.modGang s u f) := hs.modGang fun _ g => Gang.sameQueues_of (hf g)

theorem State.keeps.modGroup {s : State} {g : Nat} {f : Group → Group} (hs : State.keeps full orig s) : State.keeps full orig (State.modGroup s g f) := by
  refine ⟨fun h => ?_, hs.queues⟩
  rw [← hs.groups h]
  show (smFind (smMod s.groups g f) h).isSome = _
  rw [smFind_smMod]
  split
  · next hh => rw [hh]; cases smFind s.groups g <;> rfl
  · rfl

theorem State.keeps.foldl {α : Type} {f : State → α → State} (hf : ∀ s x, State.keeps full orig s → State.keeps full orig (f s x)) {l : List α} {s : State}
    (hs : State.keeps full orig s) : State.keeps full orig (l.foldl f s) := by
  induction l generalizing s with
  | nil => exact hs
  | cons x l ih => exact ih (hf s x hs)

theorem foldl_snd_keeps {α β : Type} {f : β × State → α → β × State} (hf : ∀ p x, State.keeps full orig p.2 → State.keeps full orig (f p x).2) {l : List α} {p : β × State}
    (hp : State.keeps full orig p.2) : State.keeps full orig (l.foldl f p).2 := by
  induction l generalizing p with
  | nil => exact hp
  | cons x l ih => exact ih (hf p x hp)

theorem foldl_last_keeps {α β γ : Type} {f : β × γ × State → α → β × γ × State} (hf : ∀ p x, State.keeps full orig p.2.2 → State.keeps full orig (f p x).2.2) {l : List α}
    {p : β × γ × State} (hp : State.keeps full orig p.2.2) : State.keeps full orig (l.foldl f p).2.2 := by
  induction l generalizing p with
  | nil => exact hp
  | cons x l ih => exact ih (hf p x hp)

theorem snd_keeps_of_eq {α : Type} {p : α × State} {a : α} {t : State} (hp : State.keeps full orig p.2) (h : p = (a, t)) : State.keeps full orig t := by
  rw [h] at hp
  exact hp

theorem last_keeps_of_eq {α β : Type} {p : α × β × State} {a : α} {b : β} {t : State} (hp : State.keeps full orig p.2.2) (h : p = (a, b, t)) :
    State.keeps full orig t := by
  rw [h] at hp
  exact hp

end

end Sys2Proof.Machine
end

section
/-! What performing accesses keeps, one lemma for each operation in the order of the model: the groups that there are, and the queues and
streams of every gang. -/

namespace Sys2Proof.Machine

section
variable {full : Bool} {orig : State}

theorem State.keeps.modCore {s : State} {c : Nat} {f : Core → Core} (hs : State.keeps full orig s) : State.keeps full orig (State.modCore s c f) :=
  hs

theorem State.keeps.modQueue {s : State} {c q : Nat} {f : Queue → Queue} (hs : State.keeps full orig s) : State.keeps full orig (State.modQueue s c q f) :=
  hs

theorem State.keeps.modLink {s : State} {f : Link → Link} (hs : State.keeps full orig s) : State.keeps full orig (State.modLink s f) :=
  hs

theorem State.keeps.modPeer {s : State} {p : Nat} {f : Peer → Peer} (hs : State.keeps full orig s) : State.keeps full orig (State.modPeer s p f) :=
  hs

theorem State.keeps.modReq {s : State} {r : Nat} {f : Req → Req} (hs : State.keeps full orig s) : State.keeps full orig (State.modReq s r f) :=
  hs

theorem State.keeps.delReq {s : State} {r : Nat} (hs : State.keeps full orig s) : State.keeps full orig (State.delReq s r) :=
  hs

theorem State.keeps.modDev {s : State} {f : Dev → Dev} (hs : State.keeps full orig s) : State.keeps full orig (State.modDev s f) :=
  hs

theorem State.keeps.later {s : State} {i : Instr} (hs : State.keeps full orig s) : State.keeps full orig (State.later s i) :=
  hs

theorem State.keeps.fresh {s : State} (hs : State.keeps full orig s) : State.keeps full orig (State.fresh s).2 :=
  hs

theorem State.keeps.tickSerial {s : State} (hs : State.keeps full orig s) : State.keeps full orig (State.tickSerial s) :=
  hs

theorem State.keeps.wr {s : State} {pa : Nat} {bs : List Byte} (hs : State.keeps full orig s) : State.keeps full orig (State.wr s pa bs) :=
  hs

theorem State.keeps.wr64 {s : State} {pa x : Nat} (hs : State.keeps full orig s) : State.keeps full orig (State.wr64 s pa x) := by
  unfold State.wr64
  grind only [State.keeps.wr]

theorem State.keeps.wrAll {s : State} {ws : List (Nat × Byte)} (hs : State.keeps full orig s) : State.keeps full orig (State.wrAll s ws) :=
  hs

theorem State.keeps.touch {s : State} {pa : Nat} (hs : State.keeps full orig s) : State.keeps full orig (State.touch s pa) :=
  hs

theorem State.keeps.crossed {s : State} {d : Nat} (hs : State.keeps full orig s) : State.keeps full orig (State.crossed s d) :=
  hs

theorem State.keeps.clear {s : State} {t : Nat}
    (hs : State.keeps full orig s) : State.keeps full orig ({ s with mem := Memory.clear s.mem t 4096, tblNext := t + 4096 } : State) :=
  hs

theorem State.keeps.setEntry {va e lvl tbl l : Nat} {s : State} (hs : State.keeps full orig s) : State.keeps full orig (setEntry va e lvl tbl l s) := by
  induction l generalizing tbl s with
  | zero =>
    unfold Machine.setEntry
    grind only [State.keeps.wr64]
  | succ k ih =>
    unfold Machine.setEntry
    grind only [State.keeps.wr64, State.keeps.clear, State.keeps.foldl]

theorem State.keeps.setPage {s : State} {c va size e : Nat} (hs : State.keeps full orig s) : State.keeps full orig (State.setPage s c va size e) := by
  unfold State.setPage
  grind only [State.keeps.setEntry]

theorem State.keeps.modPages {s : State} {c va size : Nat} {f : PageRec → PageRec} (hs : State.keeps full orig s) : State.keeps full orig (State.modPages s c va size f) :=
  hs

theorem State.keeps.dropTlb {s : State} {c va size : Nat} (hs : State.keeps full orig s) : State.keeps full orig (State.dropTlb s c va size) :=
  hs

theorem State.keeps.tlbLookup {s : State} {core c va : Nat} (hs : State.keeps full orig s) : State.keeps full orig (State.tlbLookup s core c va).2 := by
  unfold State.tlbLookup
  grind only [State.keeps.modCore]

theorem State.keeps.hostWr {s : State} {c iova : Nat} {bs : List Byte} (hs : State.keeps full orig s) : State.keeps full orig (State.hostWr s c iova bs) :=
  hs

theorem State.keeps.askHost {s : State} {c va : Nat} (hs : State.keeps full orig s) : State.keeps full orig (State.askHost s c va) := by
  unfold State.askHost
  split <;> exact hs

theorem State.keeps.modPort {s : State} {k : Nat} {f : Port → Port} (hs : State.keeps full orig s) : State.keeps full orig (State.modPort s k f) :=
  hs

theorem State.keeps.recover {s : State} {p : Nat} (hs : State.keeps full orig s) : State.keeps full orig (State.recover s p) := by
  unfold State.recover
  grind only [State.keeps.modPeer]

theorem State.keeps.transmit {s : State} {id : Nat} (hs : State.keeps full orig s) : State.keeps full orig (State.transmit s id) := by
  unfold State.transmit
  grind only [State.keeps.modLink, State.keeps.modReq, State.keeps.modPort, State.keeps.recover]

theorem State.keeps.flushLink {s : State} (hs : State.keeps full orig s) : State.keeps full orig (State.flushLink s) := by
  unfold State.flushLink
  grind only [State.keeps.transmit, State.keeps.foldl]

theorem State.keeps.request {s
    : State} {peer : Nat} {op : RemoteOp} {msg : Option (MsgKind × Msg)} {origin : Origin} {carries : List Nat} {hold gang : Nat} (hs : State.keeps full orig s) : State.keeps full orig (State.request s peer op msg origin carries hold gang).2 := by
  unfold State.request
  grind only [State.keeps.modLink, State.keeps.fresh, State.keeps.transmit]

theorem State.keeps.sendMsg {s : State} {peer : Nat} {k : MsgKind} {seq addr : Nat}
    (hs : State.keeps full orig s) : State.keeps full orig (State.sendMsg s peer k seq addr) := by
  unfold State.sendMsg
  grind only [State.keeps.request]

theorem State.keeps.wakeSets {s : State} {u ready : Nat} {p : Nat → LaneSet → Bool} (hs : State.keeps full orig s) :
    State.keeps full orig (State.wakeSets s u ready p) := by
  obtain ⟨f, h, hf⟩ := s.wakeSets_queues u ready p
  rw [h]
  exact hs.modGang fun _ => hf

theorem State.keeps.stopNow {s : State} {u : Nat} (hs : State.keeps full orig s) : State.keeps full orig (State.stopNow s u) :=
  hs.modGang (f := Gang.stopIn (s.issuing u) (s.cyc (s.gang u).core)) fun _ => Gang.sameQueues_stopIn _ _

theorem State.keeps.park {s : State} {g : Nat} {f : FaultRec} (hs : State.keeps full orig s) : State.keeps full orig (State.park s g f) := by
  unfold State.park
  grind only [State.keeps.modGroup, State.keeps.modQueue, State.keeps.stopNow, State.keeps.foldl]

theorem State.keeps.sysFault {s : State} {u cause pc addr detail : Nat} (hs : State.keeps full orig s) : State.keeps full orig (State.sysFault s u cause pc addr detail) := by
  unfold State.sysFault
  grind only [State.keeps.park]

theorem State.keeps.setLanes {s : State} {u id : Nat} {lanes : List Nat} {f : AccLane → AccLane}
    (hs : State.keeps full orig s) : State.keeps full orig (State.setLanes s u id lanes f) :=
  hs.modRest fun _ => rfl

theorem State.keeps.modBaton {s : State} {q : Nat} {f : Baton → Baton} (hs : State.keeps full orig s) : State.keeps full orig (State.modBaton s q f) :=
  hs

theorem State.keeps.sweepBatons {s : State} (hs : State.keeps full orig s) : State.keeps full orig (State.sweepBatons s) :=
  hs

theorem State.keeps.tellDests {s : State} {q : Nat} (hs : State.keeps full orig s) : State.keeps full orig (State.tellDests s q) := by
  unfold State.tellDests
  grind only [State.keeps.sendMsg, State.keeps.modBaton, State.keeps.foldl]

theorem State.keeps.expiry {s : State} {srcInc srcPkg reason seq pa : Nat} (hs : State.keeps full orig s) :
    State.keeps full orig (State.expiry s srcInc srcPkg reason seq pa) := by
  unfold State.expiry
  extract_lets n t u
  split <;> exact hs

theorem State.keeps.failAcc {s : State} {u id bit : Nat} (hs : State.keeps full orig s) : State.keeps full orig (State.failAcc s u id bit) := by
  have hfail : State.keeps full orig (s.fail u bit (if ((s.gang u).acc id).failed then 0 else 1)) := hs.modRest fun _ => rfl
  exact hfail.modRest fun _ => rfl

theorem State.keeps.killFault {s : State} {u id seq : Nat} (hs : State.keeps full orig s) : State.keeps full orig (State.killFault s u id seq) := by
  unfold State.killFault
  grind only [State.keeps.sysFault]

theorem State.keeps.failLanes {s : State} {u id : Nat} {lanes : List Nat} {bit : Nat}
    (hs : State.keeps full orig s) : State.keeps full orig (State.failLanes s u id lanes bit) := by
  unfold State.failLanes
  grind only [State.keeps.setLanes, State.keeps.failAcc, State.keeps.killFault]

theorem State.keeps.expireLanes {s : State} {u id : Nat} {lanes : List Nat} {seq : Nat}
    (hs : State.keeps full orig s) : State.keeps full orig (State.expireLanes s u id lanes seq) := by
  unfold State.expireLanes
  grind only [State.keeps.setLanes, State.keeps.failAcc, State.keeps.killFault]

theorem State.keeps.expireOrigin {s : State} {o : Origin} {seq : Nat} (hs : State.keeps full orig s) : State.keeps full orig (State.expireOrigin s o seq) := by
  unfold State.expireOrigin
  grind only [State.keeps.expireLanes]

theorem State.keeps.failBatons {n : Nat} {qs : List Nat} {s : State} (hs : State.keeps full orig s) : State.keeps full orig (State.failBatons n qs s) := by
  induction n generalizing s qs with
  | zero => exact hs
  | succ n ih =>
    unfold State.failBatons
    split
    · exact hs
    · refine ih (.foldl (fun _ _ h => ?_) (.foldl (fun _ _ h => ?_) hs.modBaton.tellDests))
      · exact State.keeps.expireOrigin (State.keeps.delReq h)
      · exact State.keeps.expireOrigin (State.keeps.expiry (State.keeps.modLink h))

theorem State.keeps.failBaton {s : State} {q : Nat} (hs : State.keeps full orig s) : State.keeps full orig (State.failBaton s q) := hs.failBatons.flushLink

theorem State.keeps.lostStore {s : State} {u id : Nat} (hs : State.keeps full orig s) : State.keeps full orig (State.lostStore s u id) := by
  unfold State.lostStore
  grind only [State.keeps.later, State.keeps.failBaton]

theorem State.keeps.ackBaton {s : State} {q n : Nat} (hs : State.keeps full orig s) : State.keeps full orig (State.ackBaton s q n) := by
  unfold State.ackBaton
  grind only [State.keeps.modBaton, State.keeps.tellDests]

theorem State.keeps.answer {s : State} {src inc tag number : Nat} {a : AnsKind} {poison : Nat}
    (hs : State.keeps full orig s) : State.keeps full orig (State.answer s src inc tag number a poison) :=
  hs

theorem State.keeps.applyHeld {n : Nat} {s : State} (hs : State.keeps full orig s) : State.keeps full orig (State.applyHeld n s) := by
  induction n generalizing s with
  | zero => exact hs
  | succ n ih =>
    unfold State.applyHeld
    split
    · exact hs
    · next e he =>
      extract_lets lost t w
      have ht : State.keeps full orig t := hs
      refine ih ?_
      dsimp only [w]
      split
      · next u id lanes ho =>
        have hv := ht.setLanes (u := u) (id := id) (lanes := lanes) (f := fun l => { l with st := .done })
        split
        · exact hv.lostStore
        · split
          · exact hv.ackBaton
          · exact hv
      · exact ht.answer

theorem State.keeps.settleHeld {s : State} (hs : State.keeps full orig s) : State.keeps full orig (State.settleHeld s) := hs.applyHeld.sweepBatons

theorem State.keeps.miss {s : State} {die c va : Nat} (hs : State.keeps full orig s) : State.keeps full orig (State.miss s die c va) :=
  hs

theorem State.keeps.faultPage {s : State} {die c va : Nat} (hs : State.keeps full orig s) : State.keeps full orig (State.faultPage s die c va) :=
  hs

theorem State.keeps.translate {s : State} {core c va : Nat} {u : Use} (hs : State.keeps full orig s) : State.keeps full orig (State.translate s core c va u).2 := by
  unfold State.translate
  grind only [State.keeps.tlbLookup, State.keeps.miss]

theorem State.keeps.countRegion {s : State} {c va die n : Nat} (hs : State.keeps full orig s) : State.keeps full orig (State.countRegion s c va die n) :=
  hs

theorem State.keeps.acquired {s : State} {u : Nat} (hs : State.keeps full orig s) : State.keeps full orig (State.acquired s u) :=
  hs.modRest fun _ => rfl

theorem State.keeps.noteAcquire {s : State} {u : Nat} {a : Acc} (hs : State.keeps full orig s) : State.keeps full orig (State.noteAcquire s u a) := by
  unfold State.noteAcquire
  grind only [State.keeps.acquired]

theorem State.keeps.readOnly {s : State} {core acq pa n : Nat} (hs : State.keeps full orig s) : State.keeps full orig (State.readOnly s core acq pa n).2 := by
  unfold State.readOnly
  grind only [State.keeps.modCore]

theorem State.keeps.parkOn {s : State} {u id : Nat} {a : Acc} {l : Nat} {grp : Option Nat} {cell : Nat}
    (hs : State.keeps full orig s) : State.keeps full orig (State.parkOn s u id a l grp cell) := by
  unfold State.parkOn
  extract_lets g w room known t v
  have hv : State.keeps full orig v := hs.setLanes
  split <;> exact hv

theorem State.keeps.setFut {s : State} {grp : Option Nat} {cell : Nat} {b : Bool} (hs : State.keeps full orig s) :
    State.keeps full orig (State.setFut s grp cell b) := by
  cases grp with
  | none => exact hs
  | some g => exact hs.modGroup

theorem State.keeps.answerPark {s : State} {u id : Nat} {a : Acc} {l : AccLane} {v : Nat} {bad : Bool}
    (hs : State.keeps full orig s) : State.keeps full orig (State.answerPark s u id a l v bad) := by
  unfold State.answerPark
  extract_lets t w
  have ht : State.keeps full orig t := hs.setLanes
  have hw : State.keeps full orig w := (ht.modRest (f := fun g => g.setS l.data v) fun _ => rfl).acquired
  split
  · split
    · exact hw.later
    · exact hw
  · exact ht.noteAcquire

theorem State.keeps.present {s : State} {u id : Nat} {a : Acc} {l : AccLane} {grp : Option Nat} {cell : Nat}
    (hs : State.keeps full orig s) : State.keeps full orig (State.present s u id a l grp cell) := by
  unfold State.present
  grind only [State.keeps.parkOn, State.keeps.setFut, State.keeps.answerPark]

theorem State.keeps.unpark {s : State} {us : List Nat} (hs : State.keeps full orig s) :
    State.keeps full orig (us.foldl (fun s u => s.modGang u (fun g => g.unpark (s.cyc g.core))) s) :=
  .foldl (f := fun s u => s.modGang u (fun g => g.unpark (s.cyc g.core))) (fun _ _ h => h.modRest fun _ => rfl) hs

theorem State.keeps.fill {s : State} {c : Nat} {grp : Option Nat} {cell : Nat} (hs : State.keeps full orig s) :
    State.keeps full orig (State.fill s c grp cell).2 := by
  unfold State.fill
  extract_lets a hit ws b gs
  have hb : State.keeps full orig b := by
    dsimp only [b]
    split <;> exact hs.setFut.tickSerial
  exact hb.unpark

theorem State.keeps.ackOwn {s : State} {a : Acc} {n : Nat} (hs : State.keeps full orig s) : State.keeps full orig (State.ackOwn s a n) := by
  unfold State.ackOwn
  grind only [State.keeps.ackBaton]

theorem State.keeps.dropCarrier {s : State} {u id : Nat} {a : Acc} {lanes : List Nat}
    (hs : State.keeps full orig s) : State.keeps full orig (State.dropCarrier s u id a lanes) := by
  unfold State.dropCarrier
  grind only [State.keeps.expireLanes, State.keeps.failBaton]

theorem State.keeps.crossLost {s : State} {u id : Nat} {a : Acc} {l : AccLane} {v : Nat}
    (hs : State.keeps full orig s) : State.keeps full orig (State.crossLost s u id a l v) := by
  unfold State.crossLost
  grind only [State.keeps.crossed, State.keeps.setLanes, State.keeps.lostStore, State.keeps.noteAcquire, State.keeps.answerPark]

theorem State.keeps.written {s : State} {u id pa n : Nat} {a : Acc} {bs : List Byte} {ls : List Nat} {f : AccLane → AccLane} (hs : State.keeps full orig s) :
    State.keeps full orig ((((s.wr pa bs).setLanes u id ls f).tickSerial).ackOwn a n).settleHeld :=
  hs.wr.setLanes.tickSerial.ackOwn.settleHeld

theorem State.keeps.performHbm {s : State} {u id : Nat} {a : Acc} {l : AccLane} {pa : Nat} (hs : State.keeps full orig s) :
    State.keeps full orig (State.performHbm s u id a l pa).2 := by
  unfold State.performHbm
  extract_lets n g bad done w old
  have hw : State.keeps full orig w := hs.countRegion
  have hread : State.keeps full orig (if a.ro then w.readOnly g.core g.acq pa n else (w.rd pa n, w)).2 := by
    split
    · exact hw.readOnly
    · exact hw
  split
  · exact hw.crossLost
  · split
    · split
      next heq => exact (snd_keeps_of_eq hread heq).setLanes.tickSerial.noteAcquire
    · split
      · exact hw.dropCarrier
      · exact hw.written
    · split
      · exact hw.dropCarrier
      · exact hw.written
    · exact hw.wr.setLanes.tickSerial.noteAcquire
    · exact hw.wr.fill.setLanes
    · exact hw.present

theorem State.keeps.performHost {s : State} {u id : Nat} {a : Acc} {l : AccLane} {io : Nat}
    (hs : State.keeps full orig s) : State.keeps full orig (State.performHost s u id a l io) := by
  unfold State.performHost
  grind only [State.keeps.tickSerial, State.keeps.hostWr, State.keeps.setLanes, State.keeps.countRegion, State.keeps.noteAcquire]

theorem State.keeps.dropL1 {s : State} {pa n : Nat} (hs : State.keeps full orig s) : State.keeps full orig (State.dropL1 s pa n) :=
  hs

theorem State.keeps.freeHbm {s : State} {pa size : Nat} (hs : State.keeps full orig s) : State.keeps full orig (State.freeHbm s pa size) :=
  hs

theorem State.keeps.dropCopy {s : State} {c vpage : Nat} (hs : State.keeps full orig s) : State.keeps full orig (State.dropCopy s c vpage) := by
  unfold State.dropCopy
  grind only [State.keeps.setPage, State.keeps.modPages, State.keeps.dropTlb, State.keeps.dropL1, State.keeps.freeHbm]

theorem State.keeps.freeSpill {s : State} {c io : Nat} (hs : State.keeps full orig s) : State.keeps full orig (State.freeSpill s c io) :=
  hs

theorem State.keeps.freeMoveSpace {s : State} {m : Move} (hs : State.keeps full orig s) : State.keeps full orig (State.freeMoveSpace s m) := by
  unfold State.freeMoveSpace
  grind only [State.keeps.freeHbm, State.keeps.freeSpill]

theorem State.keeps.restartMove {s : State} {m : Move} (hs : State.keeps full orig s) : State.keeps full orig (State.restartMove s m) := by
  unfold State.restartMove
  exact ((hs.setPage).modPages).freeMoveSpace.of_eq rfl rfl

theorem State.keeps.shootHere {s : State} {home addr serial : Nat} {waiting : List Nat}
    (hs : State.keeps full orig s) : State.keeps full orig (State.shootHere s home addr serial waiting) := by
  unfold State.shootHere
  grind only [State.keeps.modLink, State.keeps.setPage, State.keeps.modPages, State.keeps.dropTlb, State.keeps.dropL1, State.keeps.dropCopy,
      State.keeps.restartMove, State.keeps.foldl]

theorem State.keeps.shootDown {s : State} {c va : Nat} (hs : State.keeps full orig s) : State.keeps full orig (State.shootDown s c va) := by
  unfold State.shootDown
  grind only [State.keeps.modLink, State.keeps.later, State.keeps.modPages, State.keeps.sendMsg, State.keeps.shootHere, State.keeps.foldl]

theorem State.keeps.replayLane {s : State} {u id : Nat} {a : Acc} {l : AccLane} {ask : Bool}
    (hs : State.keeps full orig s) : State.keeps full orig (State.replayLane s u id a l ask) := by
  unfold State.replayLane
  grind only [State.keeps.askHost, State.keeps.setLanes, State.keeps.miss, State.keeps.faultPage, State.keeps.shootDown]

theorem State.keeps.stickLane {s : State} {u id : Nat} {a : Acc} {l : AccLane} {cause detail : Nat}
    (hs : State.keeps full orig s) : State.keeps full orig (State.stickLane s u id a l cause detail) := by
  unfold State.stickLane
  grind only [State.keeps.sysFault, State.keeps.setLanes]

theorem State.keeps.poisonLane {s : State} {u id : Nat} {a : Acc} {l : AccLane} (hs : State.keeps full orig s) : State.keeps full orig (State.poisonLane s u id a l) := by
  unfold State.poisonLane
  grind only [State.keeps.setLanes, State.keeps.lostStore]

theorem State.keeps.holdLanes {s : State} {u id : Nat} {a : Acc} {ls : List (AccLane × Nat)}
    (hs : State.keeps full orig s) : State.keeps full orig (State.holdLanes s u id a ls) := by
  unfold State.holdLanes
  grind only [State.keeps.modLink, State.keeps.fresh, State.keeps.setLanes, State.keeps.settleHeld, State.keeps.dropCarrier]

theorem State.keeps.sendLanes {s : State} {u id : Nat} {a : Acc} {peer : Nat} {ls : List (AccLane × Nat)}
    (hs : State.keeps full orig s) : State.keeps full orig (State.sendLanes s u id a peer ls) := by
  unfold State.sendLanes
  grind only [State.keeps.modGroup, State.keeps.request, State.keeps.setLanes, State.keeps.modBaton, State.keeps.failLanes,
      State.keeps.failBaton, State.keeps.countRegion, State.keeps.dropCarrier, State.keeps.foldl]

theorem State.keeps.bankStore {s : State} {grp : Nat} {o : BankOp} (hs : State.keeps full orig s) : State.keeps full orig (State.bankStore s grp o) := by
  unfold State.bankStore
  grind only [State.keeps.modGroup, State.keeps.setLanes]

theorem State.keeps.performSp {s : State} {u id : Nat} {a : Acc} {l : AccLane} (hs : State.keeps full orig s) : State.keeps full orig (State.performSp s u id a l).2 := by
  unfold State.performSp
  grind only [State.keeps.setLanes, State.keeps.noteAcquire, State.keeps.present, State.keeps.fill, State.keeps.bankStore]

theorem State.keeps.pumpLane {u id i : Nat} {acc : List Nat × List (AccLane × Nat × Nat) × State} (hs : State.keeps full orig acc.2.2) :
    State.keeps full orig (State.pumpLane u id acc i).2.2 := by
  unfold State.pumpLane
  grind only [State.keeps.performSp, State.keeps.translate, State.keeps.touch, State.keeps.performHbm, State.keeps.performHost,
      State.keeps.replayLane,
    State.keeps.stickLane, State.keeps.poisonLane]

theorem State.keeps.pumpAcc {u id : Nat} {acc : List Nat × State} (hs : State.keeps full orig acc.2) : State.keeps full orig (State.pumpAcc u acc id).2 := by
  unfold State.pumpAcc
  extract_lets lanes
  split
  next ws rem t heq =>
    have ht : State.keeps full orig t := last_keeps_of_eq (foldl_last_keeps (fun _ _ hp => State.keeps.pumpLane hp) hs) heq
    exact .foldl (fun _ _ h => by grind only [State.keeps.touch, State.keeps.holdLanes, State.keeps.sendLanes]) ht

theorem State.keeps.dropAccs {s : State} {u : Nat} {p : Nat × Acc → Bool} (hs : State.keeps full orig s) :
    State.keeps full orig (State.modGang s u (fun g => { g with accs := g.accs.filter p })) :=
  hs.modRest fun _ => rfl

theorem State.keeps.sweepAccs {s : State} {u : Nat} (hs : State.keeps full orig s) : State.keeps full orig (State.sweepAccs s u) := by
  rw [State.sweepAccs_eq]
  dsimp only
  split
  · exact hs
  · exact hs.dropAccs.wakeSets

theorem State.keeps.pumpGang {s : State} {u : Nat} (hs : State.keeps full orig s) : State.keeps full orig (State.pumpGang s u).2 := by
  unfold State.pumpGang
  split
  next ws t heq => exact (snd_keeps_of_eq (foldl_snd_keeps (fun _ _ hp => State.keeps.pumpAcc hp) hs) heq).sweepAccs

theorem State.keeps.pumpAll {n : Nat} {us : List Nat} {s : State} (hs : State.keeps full orig s) : State.keeps full orig (State.pumpAll n us s) := by
  induction n generalizing us s with
  | zero => exact hs
  | succ n ih =>
    cases us with
    | nil => exact hs
    | cons u us => exact ih hs.pumpGang

theorem State.keeps.pump {s : State} {us : List Nat} (hs : State.keeps full orig s) : State.keeps full orig (State.pump s us) := hs.pumpAll

end

end Sys2Proof.Machine
end

section
/-! Load data arrives in the queues, and streams place their elements (R31, R174, R197). -/

namespace Sys2Proof.Machine

/-- Letting accesses go that are over changes a gang alone, and none of its registers. -/
theorem State.sweepAccs_modGang (s : State) (u : Nat) : ∃ f, s.sweepAccs u = s.modGang u f ∧ ∀ g : Gang, g.keepsRegs (f g) := by
  rw [State.sweepAccs_eq]
  dsimp only
  generalize ((s.gang u).accs.filter (s.gang u).over).map (·.1) = ids
  split
  · exact ⟨fun g => g, by rw [State.modGang, smMod_self], fun g => g.keepsRegs_refl⟩
  · obtain ⟨f, hf, hg⟩ := State.wakeSets_eq (s.modGang u (fun g => { g with accs := g.accs.filter (fun e => !(ids.contains e.1)) })) u
      ((s.modGang u (fun g => { g with accs := g.accs.filter (fun e => !(ids.contains e.1)) })).cycOf u + 1) (awaits ids)
    rw [hf, State.modGang_modGang]
    refine ⟨_, rfl, fun g => ?_⟩
    obtain ⟨⟨_, _, h⟩, -⟩ := hg { g with accs := g.accs.filter (fun e => !(ids.contains e.1)) }
    rw [h]
    exact ⟨rfl, rfl, rfl, rfl, rfl, rfl, rfl, rfl, rfl, rfl, rfl, rfl, rfl, rfl, rfl, rfl⟩

/-- An entry of a queue takes its lanes' data. -/
def Gang.fillEntry (g : Gang) (slice id : Nat) (a : Acc) : Gang :=
  (g.modSlice slice (fun x => { x with ldq := x.ldq.map (fun y => if y.acc = id then y.fill a slice else y) })).modAcc id (fun a => { a with
    lanes := a.lanes.map (fun l => if l.lane / 8 = slice then { l with st := .done } else l) })

theorem Gang.ldq_fillEntry {g : Gang} {k : Nat} (hk : k < g.slices.length) (id : Nat) (a : Acc) :
    ((g.fillEntry k id a).slice k).ldq = (g.slice k).ldq.map (fun y => if y.acc = id then y.fill a k else y) := by
  unfold Gang.fillEntry Gang.modAcc Gang.slice
  dsimp only
  rw [← Gang.slice, Gang.slice_modSlice_same _ _ hk]
  rfl

theorem Gang.keepsRegs_fillEntry (g : Gang) (k id : Nat) (a : Acc) : g.keepsRegs (g.fillEntry k id a) :=
  ⟨rfl, rfl, rfl, rfl, rfl, rfl, rfl, rfl, rfl, rfl, rfl, rfl, rfl, rfl, rfl, rfl⟩

/-- The error that marked data brings with it. -/
def State.noteMarked (s : State) (u slice : Nat) (g : Gang) (a : Acc) : State :=
  match (a.lanes.filter (fun l => l.lane / 8 = slice)).find? (fun l => l.bad) with
  | some l => s.later (.uncorrectableErrorConsumed g.group u (s.badSite g.ctx l (sizeOf a.ty)))
  | none => s

theorem State.noteMarked_eq (s : State) (u slice : Nat) (g : Gang) (a : Acc) : ∃ agenda, s.noteMarked u slice g a = { s with agenda := agenda } := by
  unfold State.noteMarked
  split <;> exact ⟨_, rfl⟩

theorem exec_loadDataArrival {s : State} {u k pos : Nat} {e : LdqEntry} (hpos : ((s.gang u).slice k).ldq[pos]? = some e) (hready : e.ready = false)
    (hsecond : e.second = false) (hsets : ((s.gang u).slice k).sets ≠ []) (hahead : ∀ x ∈ ((s.gang u).slice k).ldq.take pos, x.ready = true)
    (hread : ∀ l ∈ ((s.gang u).acc e.acc).lanes, l.lane / 8 = k → l.st = .arriving) (hbank : s.atBank u e.acc = false) :
    exec (.loadDataArrival u k pos) s = .next (((s.modGang u (fun g => g.fillEntry k e.acc ((s.gang u).acc e.acc))).noteMarked u k (s.gang u)
      ((s.gang u).acc e.acc)).sweepAccs u) := by
  have hlive : ((s.gang u).slice k).sets.isEmpty = false := by
    cases h : ((s.gang u).slice k).sets with
    | nil => exact absurd h hsets
    | cons => rfl
  have hmine : (((s.gang u).acc e.acc).lanes.filter (fun l => l.lane / 8 = k)).all (fun l => l.st = .arriving) = true :=
    List.all_eq_true.mpr fun l hl => by
      obtain ⟨hl, hk⟩ := List.mem_filter.mp hl
      exact decide_eq_true (hread l hl (of_decide_eq_true hk))
  have htake : (((s.gang u).slice k).ldq.take pos).all LdqEntry.ready = true := List.all_eq_true.mpr hahead
  show execLoadDataArrival u k pos s = _
  unfold execLoadDataArrival
  dsimp only
  rw [hpos]
  dsimp only
  rw [hlive, hready, hsecond, htake, hmine, hbank]
  rfl

theorem loadDataArrives : Claims.LoadDataArrives := by
  intro s u k pos e hpos hready hsecond hsets hahead _ hread hbank lanes
  have hrun := exec_loadDataArrival hpos hready hsecond hsets hahead hread hbank
  have hk : k < (s.gang u).slices.length := by
    by_contra h
    rw [(s.gang u).slice_outside (by omega)] at hsets
    exact hsets rfl
  have hu := State.isSome_of_slice hk
  obtain ⟨agenda, hmark⟩ := (s.modGang u (fun g => g.fillEntry k e.acc ((s.gang u).acc e.acc))).noteMarked_eq u k (s.gang u) ((s.gang u).acc e.acc)
  generalize hv : (s.modGang u (fun g => g.fillEntry k e.acc ((s.gang u).acc e.acc))).noteMarked u k (s.gang u) ((s.gang u).acc e.acc) = v at hrun
  have hgangs : v.gangs = (s.modGang u (fun g => g.fillEntry k e.acc ((s.gang u).acc e.acc))).gangs := by rw [← hv, hmark]
  have hrest : v.mem = s.mem ∧ v.groups = s.groups ∧ v.dev = s.dev := by
    rw [← hv, hmark]
    exact ⟨rfl, rfl, rfl⟩
  obtain ⟨hmem, hgroups, hdev⟩ := hrest
  obtain ⟨f, hf, hregs⟩ := v.sweepAccs_modGang u
  have hkeep : State.keeps true v (v.sweepAccs u) := (State.keeps_refl true v).sweepAccs
  have hldq : ((v.gang u).slice k).ldq = ((s.gang u).slice k).ldq.map (fun y => if y.acc = e.acc then y.fill ((s.gang u).acc e.acc) k else y) := by
    rw [State.gang, hgangs]
    show (((s.modGang u (fun g => g.fillEntry k e.acc ((s.gang u).acc e.acc))).gang u).slice k).ldq = _
    rw [State.gang_modGang_same _ _ _ hu]
    exact Gang.ldq_fillEntry hk _ _
  refine ⟨_, e.fill ((s.gang u).acc e.acc) k, hrun, ?_, rfl, rfl, by simp [LdqEntry.fill], fun j hj => ?_, ?_, ?_, ?_⟩
  · rw [(hkeep.queues rfl u k).1, hldq, List.getElem?_map, hpos]
    exact congrArg some (if_pos rfl)
  · unfold LdqEntry.fill
    dsimp only
    rw [List.getElem?_map, List.getElem?_range hj, Option.map_some, Acc.lane, hsecond]
    refine congrArg some ?_
    cases lanes.find? (fun l => l.lane = 8 * k + j) <;> rfl
  · rw [hf]
    exact hmem
  · rw [hf]
    exact hgroups
  · rw [hf]
    exact State.sameRegs_trans (State.sameRegs_trans (s.sameRegs_modGang u (Gang.keepsRegs_fillEntry _ k e.acc ((s.gang u).acc e.acc)))
      (State.sameRegs_of_gangs hdev hgangs)) (v.sameRegs_modGang _ (hregs _))

end Sys2Proof.Machine
end

section
/-! Streams place their elements (R197). -/

namespace Sys2Proof.Machine

/-- The access of a stream's next element (R197). -/
def State.elemAcc (s : State) (u k : Nat) (x : Strm) : Acc :=
  { op := if sdSpace x.desc = 2 then 0x02 else 0x00, ty := x.ty, scope := .none, ord := .plain, atop := .add, ro := sdSpace x.desc = 1,
    strm := true, take := false, inh := false, slices := 2 ^ k, pc := none,
    owner := (((s.gang u).slice k).cur.map (fun e => (k, e))).toList, own := none, carries := [],
    lanes := (bitsOf 8 x.lanes).map (fun j => mkLane (8 * k + j) (sdAddr x.desc x.next (8 * k + j)) 0 0), cyc := s.cycOf u,
    hold := (s.ctx (s.gang u).ctx).bound, failed := false }

/-- The slice's stream has placed an element, its last or another. -/
def Slice.streamOn (x : Strm) (y : Slice) : Slice := { y with strm := if x.total ≤ x.next + 1 then none else some { x with next := x.next + 1 } }

/-- The state in which a stream has moved on to its next element, or has ended. -/
def State.streamOn (s : State) (u k : Nat) (x : Strm) : State :=
  if x.total ≤ x.next + 1 then (s.modGang u (fun g => g.modSlice k (Slice.streamOn x))).dropStrmLock (s.gang u).core x.lock
  else s.modGang u (fun g => g.modSlice k (Slice.streamOn x))

theorem exec_streamElement {s : State} {u k : Nat} {x : Strm} (hready : s.streamReady u k = true) (hstrm : ((s.gang u).slice k).strm = some x)
    (haddr : ∀ j ∈ bitsOf 8 x.lanes, (sdSpace x.desc = 2 ∨ canonical (sdAddr x.desc x.next (8 * k + j)) = true)
      ∧ sdAddr x.desc x.next (8 * k + j) % sizeOf x.ty = 0) :
    exec (.streamElement u k) s = .next ((s.streamOn u k x).enter u (s.elemAcc u k x)) := by
  have hgood : (s.elemAcc u k x).lanes.find? (fun l => (!decide (sdSpace x.desc = 2) && !(canonical l.addr)) || l.addr % sizeOf x.ty ≠ 0) = none :=
    List.find?_eq_none.mpr fun l hl => by
      obtain ⟨j, hj, rfl⟩ := List.mem_map.mp hl
      obtain ⟨hspace, hsize⟩ := haddr j hj
      rcases hspace with h | h <;> simp [mkLane, hsize, h]
  show execStreamElement u k s = _
  unfold execStreamElement
  rw [hready]
  dsimp only
  rw [hstrm]
  dsimp only
  rw [Bool.not_true, if_neg Bool.false_ne_true]
  refine Eq.trans (b := match (s.elemAcc u k x).lanes.find? (fun l => (!decide (sdSpace x.desc = 2) && !(canonical l.addr)) || l.addr % sizeOf x.ty ≠ 0) with
    | some l => _
    | none => _) rfl ?_
  rw [hgood]
  dsimp only
  unfold State.streamOn
  by_cases hlast : x.total ≤ x.next + 1
  · unfold Slice.streamOn
    simp only [if_pos hlast]
    rfl
  · unfold Slice.streamOn
    simp only [if_neg hlast]
    rfl

/-- A stream that moves on changes its slice, and its last element the locks of the core. -/
theorem State.streamOn_acts (s : State) (u k : Nat) (x : Strm) :
    (s.streamOn u k x).gangs = (s.modGang u (fun g => g.modSlice k (Slice.streamOn x))).gangs ∧ (s.streamOn u k x).groups = s.groups
      ∧ (s.streamOn u k x).mem = s.mem ∧ (s.streamOn u k x).dev = s.dev ∧ (s.streamOn u k x).nextId = s.nextId := by
  unfold State.streamOn State.dropStrmLock
  split
  · split <;> exact ⟨rfl, rfl, rfl, rfl, rfl⟩
  · exact ⟨rfl, rfl, rfl, rfl, rfl⟩

/-- An access enters a gang before anything of it is performed: its state then, up to a note that a group has committed (R321). -/
theorem State.enter_entered (s : State) (u : Nat) (a : Acc) : ∃ v : State, v.gangs = s.gangs ∧ v.nextId = s.nextId ∧ s.enter u a = (v.entered u a).pump [u] := by
  have hnote : ∀ vas, (s.noteRemote u vas).gangs = s.gangs ∧ (s.noteRemote u vas).nextId = s.nextId := fun vas => by
    unfold State.noteRemote
    dsimp only
    split <;> exact ⟨rfl, rfl⟩
  refine ⟨if a.global || a.op = opJoin then s.noteRemote u (a.lanes.map (·.addr)) else s, ?_, ?_, by unfold State.enter State.entered Gang.takeAcc; rfl⟩
  · split
    · exact (hnote _).1
    · rfl
  · split
    · exact (hnote _).2
    · rfl

/-- A slice on which an access does not act is as it was. -/
theorem Gang.slice_takeAcc_other (g : Gang) (id : Nat) {a : Acc} {k : Nat} (h : a.slices.testBit k = false) : (g.takeAcc id a).slice k = g.slice k := by
  unfold Gang.takeAcc
  dsimp only
  split
  · simp only [Gang.slice, List.getD_eq_getElem?_getD, List.getElem?_mapIdx, h, Bool.false_eq_true, if_false]
    cases g.slices[k]? <;> rfl
  · rfl

theorem Gang.sets_takeAcc (g : Gang) (id : Nat) (a : Acc) (k : Nat) : ((g.takeAcc id a).slice k).sets = (g.slice k).sets := by
  unfold Gang.takeAcc
  dsimp only
  split
  · simp only [Gang.slice, List.getD_eq_getElem?_getD, List.getElem?_mapIdx]
    cases g.slices[k]? with
    | none => rfl
    | some x =>
      show (if a.slices.testBit k then { x with ldq := x.ldq ++ ldqFor id a k } else x).sets = x.sets
      split <;> rfl
  · rfl

/-- The queue and the stream of a slice of an access that has entered. -/
theorem State.enter_queues {s : State} {u : Nat} {a : Acc} (hu : (smFind s.gangs u).isSome = true) {k : Nat} (hk : k < (s.gang u).slices.length) :
    (((s.enter u a).gang u).slice k).ldq = ((s.gang u).slice k).ldq ++ (if delivers a.op && a.slices.testBit k then ldqFor s.nextId a k else [])
      ∧ (((s.enter u a).gang u).slice k).strm = ((s.gang u).slice k).strm := by
  obtain ⟨v, hg, hid, henter⟩ := s.enter_entered u a
  have hgang : (v.entered u a).gang u = (s.gang u).takeAcc s.nextId a := by
    rw [State.gang_entered (by rw [hg]; exact hu), hid, State.gang, hg]
    rfl
  have hkeep := ((State.keeps_refl true (v.entered u a)).pump (us := [u])).queues rfl u k
  rw [henter, hkeep.1, hkeep.2, hgang]
  refine ⟨Gang.takeAcc_ldq _ _ _ hk, ?_⟩
  unfold Gang.takeAcc
  dsimp only
  split
  · simp only [Gang.slice, List.getD_eq_getElem?_getD, List.getElem?_mapIdx, List.getElem?_eq_getElem hk, Option.map_some, Option.getD_some]
    split <;> rfl
  · rfl

theorem streamPlacesItsElement : Claims.StreamPlacesItsElement := by
  intro s u k x hready hstrm hk haddr
  have hu := State.isSome_of_slice hk
  have hrun := exec_streamElement hready hstrm haddr
  obtain ⟨hgangs, hgroups', hmem', hdev, hid⟩ := s.streamOn_acts u k x
  have hgang : (s.streamOn u k x).gang u = (s.gang u).modSlice k (Slice.streamOn x) := by
    rw [State.gang, hgangs]
    exact State.gang_modGang_same _ _ _ hu
  have hu' : (smFind (s.streamOn u k x).gangs u).isSome = true := by
    rw [hgangs]
    exact isSome_smMod u (fun g : Gang => g.modSlice k (Slice.streamOn x)) hu
  have hlen : k < ((s.streamOn u k x).gang u).slices.length := by
    rw [hgang, Gang.length_modSlice]
    exact hk
  have hslice : ((s.streamOn u k x).gang u).slice k = Slice.streamOn x ((s.gang u).slice k) := by rw [hgang, Gang.slice_modSlice_same _ _ hk]
  have hbit : (2 ^ k).testBit k = true := by simp
  have hdel : delivers (s.elemAcc u k x).op = true := by
    unfold State.elemAcc
    dsimp only
    split <;> rfl
  obtain ⟨hldq, hst⟩ := State.enter_queues (a := s.elemAcc u k x) hu' hlen
  refine ⟨_, hrun, ?_, ?_, ⟨s.streamOn u k x, s.elemAcc u k x, rfl, hid, by rw [hgang]; rfl, rfl, rfl, rfl, rfl, rfl, rfl⟩, fun haccs hfree hsp hne => ?_⟩
  · rw [hst, hslice]
    show (if x.total ≤ x.next + 1 then none else some _) = _
    by_cases h : x.next + 1 < x.total
    · rw [if_neg (by omega), if_pos h]
    · rw [if_pos (by omega), if_neg h]
  · rw [hldq, hslice, hdel, Bool.true_and, if_pos (show (s.elemAcc u k x).slices.testBit k = true from hbit), List.length_append, length_ldqFor]
    rfl
  · have hop : (s.elemAcc u k x).op = 0x02 := if_pos hsp
    have hsp' : (s.elemAcc u k x).sp = true := by rw [Acc.sp, hop]; rfl
    have huse : (s.elemAcc u k x).use = .read := by rw [Acc.use, hop]; rfl
    have hparks : (s.elemAcc u k x).parks = false := by rw [Acc.parks, hop]; rfl
    have hglobal : (s.elemAcc u k x).global = false := by rw [Acc.global, hop]; rfl
    obtain ⟨j, hj⟩ := List.exists_mem_of_ne_nil _ hne
    have hj8 := (mem_bitsOf.mp hj).1
    have hper : ((s.streamOn u k x).entered u (s.elemAcc u k x)).performing u (s.streamOn u k x).nextId (s.elemAcc u k x) [] (s.elemAcc u k x).lanes := by
      refine State.performing_entered hu' (by rw [hgang]; exact haccs) (by rw [hgang, hid]; exact hfree _) hparks (fun l hl => ?_) ?_
      · obtain ⟨i, -, rfl⟩ := List.mem_map.mp hl
        rfl
      · show (((bitsOf 8 x.lanes).map _).map _).Pairwise (· < ·)
        rw [List.map_map]
        exact (pairwise_bitsOf 8 x.lanes).map _ fun a b hab => by show 8 * k + a < 8 * k + b; omega
    obtain ⟨t, hfold, hacc, hps, hgroups, hmem⟩ := hper.loads hsp' huse
    have hlane : mkLane (8 * k + j) (sdAddr x.desc x.next (8 * k + j)) 0 0 ∈ (s.elemAcc u k x).lanes :=
      List.mem_map_of_mem (f := fun j => mkLane (8 * k + j) (sdAddr x.desc x.next (8 * k + j)) 0 0) hj
    have hdiv : (8 * k + j) / 8 = k := by omega
    obtain ⟨hin, hregs, -⟩ := hper.enter_waits hu' (by rw [hop]; decide) (.inl hglobal) hdel hfold hps hacc (List.mem_map_of_mem hlane)
      (by unfold performed; rw [hdel]; rfl) (by show (2 ^ k).testBit ((8 * k + j) / 8) = true; rw [hdiv]; exact hbit)
      (by show (8 * k + j) / 8 < _; rw [hdiv]; exact hlen)
    obtain ⟨acs, acq, hslices⟩ := hps.gang
    rw [State.gang_entered hu', hgang] at hslices
    have hslice' : ∀ j, (t.gang u).slice j = (((s.gang u).modSlice k (Slice.streamOn x)).takeAcc (s.streamOn u k x).nextId (s.elemAcc u k x)).slice j := fun j => by
      rw [hslices]
      rfl
    have hrd : ∀ a n, ((s.streamOn u k x).entered u (s.elemAcc u k x)).spRd (((s.streamOn u k x).entered u (s.elemAcc u k x)).gang u).group a n
        = s.spRd (s.gang u).group a n := fun a n => by
      rw [State.group_entered hu', hgang]
      show Memory.readN ((smFind (s.streamOn u k x).groups (s.gang u).group).getD default).spad a n = _
      rw [hgroups']
      rfl
    rw [hin]
    refine ⟨⟨_, hid ▸ hacc, ?_⟩, fun i hi => ?_, ?_, ?_, hmem.trans hmem', hgroups.trans hgroups', State.sameRegs_trans ?_ hregs⟩
    · show (((bitsOf 8 x.lanes).map _).map _).map _ = _
      rw [List.map_map, List.map_map]
      refine List.map_congr_left fun i _ => ?_
      have hread : extendTo x.ty (ofBytes (s.spRd (s.gang u).group (sdAddr x.desc x.next (8 * k + i)) (sizeOf x.ty)))
          = regBits x.ty (BitVec.ofNat (widthOf x.ty) (ofBytes (s.spRd (s.gang u).group (sdAddr x.desc x.next (8 * k + i)) (sizeOf x.ty)))) :=
        extendTo_ofNat _ _
      show ((8 * k + i), sdAddr x.desc x.next (8 * k + i), (if delivers (s.elemAcc u k x).op then LaneSt.arriving else LaneSt.done),
        extendTo x.ty (ofBytes (((s.streamOn u k x).entered u (s.elemAcc u k x)).spRd _ (sdAddr x.desc x.next (8 * k + i)) (sizeOf x.ty)))) = _
      rw [hrd, if_pos hdel, hread]
    · rw [hslice', Gang.slice_takeAcc_other _ _ (show (2 ^ k).testBit i = false by rw [Nat.testBit_two_pow]; exact decide_eq_false (Ne.symm hi)), Gang.slice_modSlice_ne _ _ hi]
    · rw [hslice', Gang.sets_takeAcc, Gang.slice_modSlice_same _ _ hk]
      rfl
    · obtain ⟨_, _, htake⟩ := Gang.takeAcc_eq ((s.gang u).modSlice k (Slice.streamOn x)) (s.streamOn u k x).nextId (s.elemAcc u k x)
      rw [hslices, htake]
      rfl
    · exact State.sameRegs_trans (s.sameRegs_modGang u (f := fun g => g.modSlice k (Slice.streamOn x)) (Gang.keepsRegs_lanes _ _ _))
        (State.sameRegs_of_gangs hdev hgangs)

/-- Settles O42: arriving data fills its entry, and a stream's element enters as an access. -/
theorem loadsAndStreamsArrive : Obligations.LoadsAndStreamsArrive := ⟨loadDataArrives, streamPlacesItsElement⟩

end Sys2Proof.Machine
end

section
/-! What the death of a group keeps: the groups that there are. -/

namespace Sys2Proof.Machine

section
variable {orig : State}

theorem State.keeps.of_groups {s t : State} (hs : State.keeps false orig s) (h : t.groups = s.groups) : State.keeps false orig t :=
  ⟨fun g => by rw [h]; exact hs.groups g, nofun⟩

/-- A change of a gang changes no group. -/
theorem State.keeps.modAny {s : State} {u : Nat} {f : Gang → Gang} (hs : State.keeps false orig s) : State.keeps false orig (State.modGang s u f) :=
  hs.modGang nofun

theorem State.keeps.dropStrmLock {s : State} {core lock : Nat} (hs : State.keeps false orig s) : State.keeps false orig (State.dropStrmLock s core lock) := by
  unfold State.dropStrmLock
  grind only [State.keeps.modCore]

theorem State.keeps.endStreams {s : State} {u m : Nat} (hs : State.keeps false orig s) : State.keeps false orig (State.endStreams s u m) := by
  unfold State.endStreams
  grind only [State.keeps.modAny, State.keeps.dropStrmLock, State.keeps.foldl]

theorem State.keeps.leaveBarriers {s : State} {u : Nat} (hs : State.keeps false orig s) : State.keeps false orig (State.leaveBarriers s u) :=
  (hs.modGroup (f := fun x => { x with bars := leaveBars u x.bars })).of_groups rfl

theorem State.keeps.leaveWaiters {s : State} {u : Nat} (hs : State.keeps false orig s) : State.keeps false orig (State.leaveWaiters s u) :=
  hs

theorem State.keeps.leavePower {s : State} {u : Nat} (hs : State.keeps false orig s) : State.keeps false orig (State.leavePower s u) :=
  hs.of_groups rfl

theorem State.keeps.leaveAl {s : State} {u : Nat} (hs : State.keeps false orig s) : State.keeps false orig (State.leaveAl s u) :=
  hs

theorem State.keeps.drainCheck {s : State} {g : Nat} (hs : State.keeps false orig s) : State.keeps false orig (State.drainCheck s g) := by
  unfold State.drainCheck
  grind only [State.keeps.modGroup]

theorem State.keeps.gangDied {s : State} {u : Nat} (hs : State.keeps false orig s) : State.keeps false orig (State.gangDied s u) := by
  unfold State.gangDied
  grind only [State.keeps.modAny, State.keeps.endStreams, State.keeps.leaveBarriers, State.keeps.leaveWaiters, State.keeps.leavePower,
      State.keeps.leaveAl, State.keeps.drainCheck]

theorem State.keeps.modMat {s : State} {core id : Nat} {f : MatCmd → MatCmd} (hs : State.keeps false orig s) : State.keeps false orig (State.modMat s core id f) :=
  hs

theorem State.keeps.failCopy {s : State} {core id bit : Nat} (hs : State.keeps false orig s) : State.keeps false orig (State.failCopy s core id bit) :=
  hs.of_groups rfl

theorem State.keeps.modDeque {s : State} {core c : Nat} {f : Deque → Deque} (hs : State.keeps false orig s) : State.keeps false orig (State.modDeque s core c f) :=
  hs

theorem State.keeps.raise {s : State} {core c : Nat} {up : Bool} (hs : State.keeps false orig s) : State.keeps false orig (State.raise s core c up) :=
  hs.of_groups rfl

theorem State.keeps.leaveForks {s : State} {u : Nat} (hs : State.keeps false orig s) : State.keeps false orig (State.leaveForks s u) := by
  unfold State.leaveForks
  grind only [State.keeps.modDeque, State.keeps.raise]

theorem State.keeps.killGang {s : State} {u : Nat} (hs : State.keeps false orig s) : State.keeps false orig (State.killGang s u) := by
  unfold State.killGang
  grind only [State.keeps.modAny, State.keeps.sweepAccs, State.keeps.gangDied, State.keeps.leaveForks]

theorem State.keeps.failCmds {s : State} {g : Nat} (hs : State.keeps false orig s) : State.keeps false orig (State.failCmds s g) := by
  unfold State.failCmds
  grind only [State.keeps.modMat, State.keeps.failCopy, State.keeps.foldl]

theorem State.keeps.dropWaits {s : State} {us : List Nat} (hs : State.keeps false orig s) : State.keeps false orig (State.dropWaits s us) := by
  unfold State.dropWaits
  grind only [State.keeps.modAny, State.keeps.pump, State.keeps.foldl]

theorem State.keeps.killGroup {s : State} {g cause : Nat} (hs : State.keeps false orig s) : State.keeps false orig (State.killGroup s g cause) := by
  unfold State.killGroup
  grind only [State.keeps.modGroup, State.keeps.modCore, State.keeps.killGang, State.keeps.failCmds, State.keeps.dropWaits, State.keeps.foldl]

end

end Sys2Proof.Machine
end

section
/-! Uncorrectable errors, repair failures and the watchdog (R322, R352, R354, R370, R383, R384). -/

namespace Sys2Proof.Machine

theorem State.hasGroup_of_st {s : State} {g : Nat} (h : (s.group g).st = .resident ∨ (s.group g).st = .draining) :
    (smFind s.groups g).isSome = true := by
  rw [State.group] at h
  cases hg : smFind s.groups g with
  | some x => rfl
  | none =>
    rw [hg] at h
    exact absurd h (by decide)

/-- A system fault of a gang whose group runs. -/
theorem State.sysFault_acts {s : State} {u cause pc addr detail : Nat} (h : (s.groupOf u).st = .resident ∨ (s.groupOf u).st = .draining) :
    ∃ f, f.cause = cause ∧ f.pc = pc ∧ f.detail = detail ∧ (s.sysFault u cause pc addr detail).group (s.gang u).group = (s.groupOf u).parks f
      ∧ (∀ v, (s.sysFault u cause pc addr detail).gang v
        = if v ∈ s.gangsOf (s.gang u).group then (s.gang v).stopIn (s.issuing v) (s.cyc (s.gang v).core) else s.gang v)
      ∧ (s.sysFault u cause pc addr detail).mem = s.mem := by
  obtain ⟨hgroup, hgang, -, -, hmem, -⟩ := State.park_acts
    (f := ⟨(s.groupOf u).seq, cause, (s.groupOf u).index, (s.groupOf u).core, (s.gang u).idx, pc, addr, detail, s.timens⟩) (State.hasGroup_of_st h) h
  exact ⟨_, rfl, rfl, rfl, hgroup, hgang, hmem⟩

theorem State.killGroup_acts {s : State} {g cause : Nat} (hg : (smFind s.groups g).isSome = true) (hkilled : (s.group g).killed = none) :
    ((s.killGroup g cause).group g).st = .draining ∧ ((s.killGroup g cause).group g).killed = some cause := by
  have hkeep := (State.keeps_refl false s).killGroup (g := g) (cause := cause)
  unfold State.killGroup at hkeep ⊢
  extract_lets x us t u v
  have hv : (smFind v.groups g).isSome = true := by
    have ht : State.keeps false s t := (State.keeps_refl false s).modGroup.dropWaits
    have hu : State.keeps false s u := (State.keeps.foldl (fun _ _ h => h.killGang) ht).failCmds
    exact (State.keeps.modCore (s := u) hu).groups g ▸ hg
  have hx : x.killed.getD cause = cause := by
    show (s.group g).killed.getD cause = cause
    rw [hkilled]
    rfl
  have hgroup := State.group_modGroup_same (s := v) (g := g) (fun y => { y with st := .draining, from_ := .draining, killed := some (x.killed.getD cause), fault := none, snapDue := none, rolling := false, owed := [] }) hv
  rw [hgroup]
  exact ⟨rfl, congrArg some hx⟩

theorem errorsParkOrRollBack : Claims.ErrorsParkOrRollBack := by
  have hne : ∀ (s : State) (g : Nat), ((s.group g).st = .resident ∨ (s.group g).st = .draining) → (s.group g).st ≠ .parked := by
    rintro s g (h | h) <;> rw [h] <;> decide
  have hruns : ∀ (s : State) (g : Nat), ((s.group g).st = .resident ∨ (s.group g).st = .draining) →
      (!(decide ((s.group g).st = .resident) || decide ((s.group g).st = .draining))) = false := by
    rintro s g (h | h) <;> rw [h] <;> rfl
  refine ⟨fun s g u site hst => ⟨fun hroll hg => ?_, fun hroll hcommit hcount htasks => ?_, fun hroll hover hkilled => ?_⟩, fun s g u site hst => ?_⟩
  · subst hg
    obtain ⟨f, hcause, -, hdetail, hgroup, -, hmem⟩ := State.sysFault_acts (cause := 3) (pc := ((s.gang u).parts.head?.map fun p => (s.gang u).pcOf p.slices).getD 0)
      (addr := 0) (detail := site) hst
    refine ⟨_, f, ?_, congrArg (·.st) hgroup, congrArg (·.fault) hgroup, hcause, hdetail, hmem⟩
    show execUncorrectableErrorConsumed _ u site s = _
    unfold execUncorrectableErrorConsumed
    dsimp only
    rw [if_neg (hne _ _ hst), hruns _ _ hst, hroll]
    rfl
  · have hnone : s.gangs.any (fun e => decide (e.2.group = g) && e.2.live && e.2.task) = false := by
      rw [List.any_eq_false]
      intro e he h
      simp only [Bool.and_eq_true, decide_eq_true_eq] at h
      exact absurd (htasks e he h.1.1 h.1.2) (by simp [h.2])
    show execUncorrectableErrorConsumed g u site s = _
    unfold execUncorrectableErrorConsumed
    dsimp only
    rw [if_neg (hne _ _ hst), hruns _ _ hst, hroll, hcommit, hnone, decide_eq_false (Nat.not_le.mpr hcount)]
    rfl
  · obtain ⟨hdrain, hkill⟩ := State.killGroup_acts (cause := 3) (State.hasGroup_of_st hst) hkilled
    refine ⟨(s.killGroup g 3).note (.killedGroup g 3), ?_, hdrain, hkill⟩
    show execUncorrectableErrorConsumed g u site s = _
    unfold execUncorrectableErrorConsumed
    dsimp only
    rw [if_neg (hne _ _ hst), hruns _ _ hst, hroll, if_neg (by decide), if_neg (by decide), if_pos ?_]
    rcases hover with h | h
    · rw [h]; rfl
    · rw [decide_eq_true h]; exact Bool.or_true _
  · show execUncorrectableErrorConsumed g u site s = _
    unfold execUncorrectableErrorConsumed
    exact if_pos hst

/-! Marked and lost storage. -/

theorem State.poisoned_mark (s : State) (pa site : Nat) :
    (s.mark pa site).poisoned pa 1 = true ∧ (∀ a n, s.poisoned a n = true → (s.mark pa site).poisoned a n = true)
      ∧ (s.mark pa site).mem = s.mem ∧ (s.mark pa site).gangs = s.gangs := by
  have hover : overlaps (32 * (pa / 32)) 32 pa 1 = true := by
    simp only [overlaps, Bool.and_eq_true, decide_eq_true_eq]
    omega
  unfold State.mark
  split
  · next h =>
    obtain ⟨x, hx, hpa⟩ := List.any_eq_true.mp h
    refine ⟨List.any_eq_true.mpr ⟨x, hx, ?_⟩, fun _ _ h => h, rfl, rfl⟩
    rw [of_decide_eq_true hpa]
    exact hover
  · refine ⟨by simp [State.poisoned, hover], fun a n h => ?_, rfl, rfl⟩
    simp only [State.poisoned, List.any_cons, Bool.or_eq_true]
    exact .inr h

/-- A word of a V register that an active lane of the bundle reads. -/
theorem State.readsBad_of_opd {s : State} {c : Cursor} {desc : List Nat} {i : Instr} {o : Ty × Opd} {gd : Guard} {l r : Nat} (ho : o ∈ instrOpds i)
    (hr : r ∈ opdV o.1 o.2) (hgd : instrGuard i = some gd) (hl : l ∈ s.active c gd) (h256 : r < 256)
    (hbad : l * 256 + r ∈ (s.gang c.gang).badV) : s.readsBad c desc i = true := by
  have hany : ∀ p : Nat → Bool, p (l * 256 + r) = true → (s.gang c.gang).badV.any p = true := fun p hp => List.any_eq_true.mpr ⟨_, hbad, hp⟩
  unfold State.readsBad
  dsimp only
  rw [hgd, hany _ ?_]
  · rfl
  · rw [show (l * 256 + r) / 256 = l by omega, show (l * 256 + r) % 256 = r by omega]
    simp only [Bool.or_eq_true, Bool.and_eq_true, List.contains_iff_mem]
    exact .inl ⟨hl, List.mem_flatMap.mpr ⟨o, ho, hr⟩⟩

/-- A bundle that would read a bad word of the pool stops before it issues. -/
theorem begin_bad {s : State} {u k : Nat} {c : Cursor} {h : Header} {i : Instr} (he : s.eligible u k = true)
    (ht : (s.gang u).tainted = false) (hn : s.nextBundle u k = .bundle c h [i]) (hi : isCopy i = false)
    (hp : s.preAll { c with desc := [] } [i] (s.currentCheck { c with desc := [] } [i]) none = none)
    (hb : s.readsBad { c with desc := [] } [] i = true) :
    s.begin u k = .stop (s.later (.uncorrectableErrorConsumed (s.gang u).group u 1)) := by
  have hd : s.descOf c [i] = [] := by
    unfold State.descOf
    cases i with
    | cpy _ | cpyr _ => cases hi
    | _ => rfl
  unfold State.descOf at hd
  unfold State.begin
  simp only [he, ht, hn, Bool.not_true, Bool.false_eq_true, if_false]
  erw [hd]
  rw [hp]
  simp only [List.any_cons, List.any_nil, Bool.or_false, hb, if_true]

/-- A leaf lies around the address that was looked up. -/
theorem State.walk_leaf {s : State} {c va e base size : Nat} (h : s.walk c va = .leaf e base size) :
    ∃ l, base = va / pageSize l * pageSize l ∧ size = pageSize l := by
  have hstep : ∀ {pa l : Nat} {next : Walk}, s.walkStep va pa l next = .leaf e base size →
      (∃ l, base = va / pageSize l * pageSize l ∧ size = pageSize l) ∨ next = .leaf e base size := by
    intro pa l next h
    unfold State.walkStep at h
    split at h
    · cases h
    · split at h
      · split at h <;> cases h
      · split at h
        · cases h
        · split at h
          · obtain ⟨-, hb, hs⟩ := Walk.leaf.inj h
            exact .inl ⟨l, hb.symm, hs.symm⟩
          · exact .inr h
  have hwalk : ∀ l tbl, walkFrom s va tbl l = .leaf e base size → ∃ l, base = va / pageSize l * pageSize l ∧ size = pageSize l := by
    intro l
    induction l with
    | zero =>
      intro tbl h
      rw [walkFrom_zero] at h
      exact (hstep h).elim id nofun
    | succ k ih =>
      intro tbl h
      rw [walkFrom_succ] at h
      exact (hstep h).elim id (ih _)
  unfold State.walk at h
  split at h
  · unfold State.safeWalk at h
    dsimp only at h
    split at h
    · obtain ⟨-, hb, hs⟩ := Walk.leaf.inj h
      exact ⟨0, hb.symm, hs.symm⟩
    · cases h
  · exact hwalk _ _ h

theorem pageIn_of_leaf {p l : Nat} : pageIn (p * 65536 / pageSize l * pageSize l) (pageSize l) p = true := by
  unfold pageIn
  rw [decide_eq_true_eq]
  rcases l with - | - | l <;> simp only [pageSize] <;> omega

/-- A page's record as the page becomes POISONED. -/
def PageRec.poisons (r : PageRec) : PageRec := { r with st := .poisoned, owned := false, entry := 0 }

/-- A page's translation goes (R352): a held entry takes its place, and HBM that the pacer gave it is free. -/
def State.loses (s : State) (c p e base size : Nat) : State :=
  (((if entKind e = 0 then (if (s.pageRec c (p * 65536)).owned then s.freeHbm (entAddr e) size else s).dropL1 (entAddr e) size else s).setPage c base size
    heldEntry).dropTlb c base size).dropProofs c base size

theorem State.loses_acts (s : State) (c p e base size : Nat) : s.remaps (s.loses c p e base size) ∧ (s.loses c p e base size).ctxs = s.ctxs := by
  unfold State.loses
  generalize hx : (if entKind e = 0 then (if (s.pageRec c (p * 65536)).owned then s.freeHbm (entAddr e) size else s).dropL1 (entAddr e) size else s) = x
  have hs : s.remaps x ∧ x.ctxs = s.ctxs := by
    rw [← hx]
    split
    · split <;> exact ⟨.refl s, rfl⟩
    · exact ⟨.refl s, rfl⟩
  have ht := x.tables_setPage c base size heldEntry
  exact ⟨hs.1.trans (State.remaps.trans ht.remaps (.refl _)), ht.ctxs.trans hs.2⟩

/-- The record of a page that becomes POISONED changes, with those of its large page. -/
theorem State.poisonPage_eq (s : State) (c p : Nat) : ∃ e base size : Nat, pageIn base size p = true
    ∧ s.poisonPage c p = (s.loses c p e base size).modPages c base size PageRec.poisons := by
  unfold State.poisonPage
  dsimp only
  split
  · next e base size h =>
    obtain ⟨l, hb, hs⟩ := State.walk_leaf h
    exact ⟨e, base, size, by rw [hb, hs]; exact pageIn_of_leaf, rfl⟩
  · exact ⟨0, p * 65536, 65536, by unfold pageIn; rw [decide_eq_true_eq]; omega, rfl⟩

/-- A page becomes POISONED; one that is stays so. -/
theorem State.poisonPage_acts {s : State} {c : Nat} (hc : (smFind s.ctxs c).isSome = true) (p : Nat) :
    s.remaps (s.poisonPage c p) ∧ (∀ d x, ((s.poisonPage c p).page? d x).isSome = (s.page? d x).isSome)
      ∧ (∀ d x, ((s.page? d x).map (·.st) = some .poisoned → ((s.poisonPage c p).page? d x).map (·.st) = some .poisoned))
      ∧ ((s.page? c p).isSome = true → ((s.poisonPage c p).page? c p).map (·.st) = some .poisoned) := by
  obtain ⟨e, base, size, hin, heq⟩ := s.poisonPage_eq c p
  obtain ⟨hr, hctxs⟩ := s.loses_acts c p e base size
  generalize s.loses c p e base size = r at *
  have hrc : (smFind r.ctxs c).isSome = true := hctxs ▸ hc
  obtain ⟨hmod, hpages⟩ := State.modPages_acts hrc base size PageRec.poisons
  have hpage : ∀ d x, (s.poisonPage c p).page? d x = if d = c ∧ pageIn base size x = true then (s.page? d x).map PageRec.poisons else s.page? d x := by
    intro d x
    rw [heq, ← State.page?_of_ctxs hctxs]
    by_cases hd : d = c
    · subst hd
      rw [hpages]
      simp
    · rw [if_neg fun h => hd h.1, State.page?, State.page?, State.modPages, State.ctx_modCtx_other _ _ hd]
  refine ⟨heq ▸ hr.trans hmod, fun d x => ?_, fun d x h => ?_, fun h => ?_⟩
  · rw [hpage]
    split
    · exact Option.isSome_map
    · rfl
  · rw [hpage]
    split
    · obtain ⟨y, hy, -⟩ := Option.map_eq_some_iff.mp h
      rw [hy]
      rfl
    · exact h
  · rw [hpage, if_pos ⟨rfl, hin⟩]
    obtain ⟨y, hy⟩ := Option.isSome_iff_exists.mp h
    rw [hy]
    rfl

theorem State.poisonPages_acts (l : List (Nat × Nat)) {s : State} (hc : ∀ x ∈ l, (smFind s.ctxs x.1).isSome = true)
    (hp : ∀ x ∈ l, (s.page? x.1 x.2).isSome = true) :
    s.remaps (l.foldl (fun s x => s.poisonPage x.1 x.2) s)
      ∧ (∀ d x, (s.page? d x).map (·.st) = some .poisoned → ((l.foldl (fun s x => s.poisonPage x.1 x.2) s).page? d x).map (·.st) = some .poisoned)
      ∧ ∀ x ∈ l, ((l.foldl (fun s x => s.poisonPage x.1 x.2) s).page? x.1 x.2).map (·.st) = some .poisoned := by
  induction l generalizing s with
  | nil => exact ⟨.refl s, fun _ _ h => h, nofun⟩
  | cons y l ih =>
    obtain ⟨hm, hsome, hstay, hnow⟩ := State.poisonPage_acts (hc y List.mem_cons_self) y.2
    obtain ⟨im, istay, inow⟩ := ih (s := s.poisonPage y.1 y.2) (fun x hx => by
        obtain ⟨-, -, -, -, -, h⟩ := hm
        rw [h]
        exact hc x (List.mem_cons_of_mem _ hx))
      (fun x hx => (hsome _ _).trans (hp x (List.mem_cons_of_mem _ hx)))
    refine ⟨hm.trans im, fun d x h => istay d x (hstay d x h), fun x hx => ?_⟩
    rcases List.mem_cons.mp hx with rfl | hx
    · exact istay _ _ (hnow (hp _ List.mem_cons_self))
    · exact inow x hx

/-- Acknowledged pages change no page, with no access under way. -/
theorem State.still.ackPages (l : List (Nat × Nat)) {s : State} (hs : s.still) :
    (l.foldl (fun s x => s.ackPage x.1 x.2) s).ctxs = s.ctxs ∧ (l.foldl (fun s x => s.ackPage x.1 x.2) s).failed = s.failed := by
  induction l generalizing s with
  | nil => exact ⟨rfl, rfl⟩
  | cons x l ih =>
    obtain ⟨-, hc, hf, hstill⟩ := hs.ackPage_keeps x.1 x.2
    obtain ⟨ic, if_⟩ := ih hstill
    exact ⟨ic.trans hc, if_.trans hf⟩

/-- The pages that map a unit of HBM are pages of contexts that there are. -/
theorem State.mapsUnit_page {s : State} (hkeys : (s.ctxs.map (·.1)).Nodup) {k : Nat} {x : Nat × Nat} (hx : x ∈ s.mapsUnit k) :
    (smFind s.ctxs x.1).isSome = true ∧ (s.page? x.1 x.2).isSome = true := by
  obtain ⟨e, he, hx⟩ := List.mem_flatMap.mp hx
  obtain ⟨p, hp, hx⟩ := List.mem_filterMap.mp hx
  have hxp : x = (e.1, p.1) := by
    split at hx
    · split at hx
      · exact (Option.some.inj hx).symm
      · cases hx
    · cases hx
  subst hxp
  refine ⟨isSome_smFind_of_mem he, ?_⟩
  rw [State.page?, State.ctx, smFind_of_mem hkeys (show (e.1, e.2) ∈ s.ctxs from he)]
  exact isSome_smFind_of_mem hp

/-- What a repair failure does while no page moves. -/
theorem exec_hbmRepairFailure {s : State} (hmoves : s.moves = []) (pa : Nat) :
    ∃ t : State, t.gangs = ((s.mapsUnit (pa / 65536)).foldl (fun s x => s.poisonPage x.1 x.2) s).gangs
      ∧ t.ctxs = ((s.mapsUnit (pa / 65536)).foldl (fun s x => s.poisonPage x.1 x.2) s).ctxs ∧ pa / 65536 ∈ t.failed
      ∧ exec (.hbmRepairFailure pa) s = .next ((s.mapsUnit (pa / 65536)).foldl (fun s x => s.ackPage x.1 x.2) t) := by
  have hrun : exec (.hbmRepairFailure pa) s = execHbmRepairFailure pa s := rfl
  rw [hrun]
  unfold execHbmRepairFailure
  extract_lets k ms hit t u v w
  have hms : ms = [] := by
    dsimp only [ms]
    rw [hmoves]
    rfl
  have hu : u = t := by
    show ms.foldl State.poisonMove t = t
    rw [hms]
    rfl
  have hhit : hit = s.mapsUnit (pa / 65536) := by
    show s.mapsUnit k ++ ms.map _ = _
    rw [hms]
    exact List.append_nil _
  refine ⟨w.note (.poisonedPage pa), ?_, ?_, ?_, by rw [hhit]⟩
  · show u.gangs = t.gangs
    rw [hu]
  · show u.ctxs = t.ctxs
    rw [hu]
  · show k ∈ (if v.failed.contains k then v.failed else k :: v.failed)
    split
    · next h => exact List.contains_iff_mem.mp h
    · exact List.mem_cons_self

theorem storageErrorsMark : Claims.StorageErrorsMark := by
  refine ⟨fun s site => rfl, fun s pa i hi => ?_, fun s core pa => ?_, fun s u i r g off z n => ⟨rfl, rfl, rfl⟩, ?_, ?_, ?_⟩
  · rcases List.mem_cons.mp hi with rfl | hi
    · exact ⟨_, rfl, s.poisoned_mark pa 3⟩
    · rw [List.mem_singleton.mp hi]
      exact ⟨_, rfl, s.poisoned_mark pa 4⟩
  · refine ⟨_, rfl, fun x hx => ?_, rfl, rfl⟩
    rw [State.core_modCore_same s core fun k => { k with l1 := k.l1.filter (fun l => l.pa ≠ pa / 128 * 128) }] at hx
    exact of_decide_eq_true (List.mem_filter.mp hx).2
  · intro s u k rest c h i s0 hpick he ht hn hcopy hp hb
    rw [step_of_picked hpick, issue, begin_bad (s := s0) he ht hn hcopy hp hb]
    rfl
  · intro s c desc i o gd l r ho hr hgd hl h256 hbad
    exact State.readsBad_of_opd ho hr hgd hl h256 hbad
  · intro s pa hkeys haccs hmoves
    obtain ⟨hmaps, -, hpoison⟩ := State.poisonPages_acts (s.mapsUnit (pa / 65536)) (fun x hx => (State.mapsUnit_page hkeys hx).1)
      (fun x hx => (State.mapsUnit_page hkeys hx).2)
    obtain ⟨t, hgangs, hctxs, hfailed, hrun⟩ := exec_hbmRepairFailure hmoves pa
    have hstill : t.still := State.still_of fun e he => haccs e (by rw [hgangs, hmaps.1] at he; exact he)
    obtain ⟨hackc, hackf⟩ := hstill.ackPages (s.mapsUnit (pa / 65536))
    refine ⟨_, hrun, hackf ▸ hfailed, fun x hx => ?_⟩
    obtain ⟨r, hr, hst⟩ := Option.map_eq_some_iff.mp (hpoison x hx)
    rw [State.pageRec_eq, State.page?_of_ctxs (hackc.trans hctxs), hr]
    exact hst

theorem Gang.stopIn_group (issuing : Bool) (now : Nat) (g : Gang) : (g.stopIn issuing now).group = g.group := by
  obtain ⟨_, _, _, _, _, _, _, _, _, _, _, h⟩ := Gang.landNow_eq { g with flight := [] } now g.flight
  have hland : (g.landEvery now).group = g.group := by
    show (({ g with flight := [] } : Gang).landNow now g.flight).group = g.group
    rw [h]
  rw [Gang.stopIn_eq]
  cases issuing
  · exact hland
  · rfl

theorem watchdogParksTheGroup : Claims.WatchdogParksTheGroup := by
  intro s u k e y hy hlive hst hcount
  obtain ⟨f, hcause, hpc, hdetail, hgroup, hgang, hmem⟩ := State.sysFault_acts (cause := 7) (pc := y.pc) (addr := 0)
    (detail := waitArg y.st % 2 ^ 56 * 256 + waitCode y.st) hst
  have hcode : waitCode y.st < 256 := by cases y.st <;> simp [waitCode]
  have hrun : exec (.watchdogExpiry u k e) s = .next (s.sysFault u 7 y.pc 0 (waitArg y.st % 2 ^ 56 * 256 + waitCode y.st)) := by
    show execWatchdogExpiry u k e s = _
    unfold execWatchdogExpiry
    simp only [hy, hlive]
    rw [if_neg]
    simpa using hcount
  generalize hX : s.sysFault u 7 y.pc 0 (waitArg y.st % 2 ^ 56 * 256 + waitCode y.st) = X at *
  have hgr : (X.gang u).group = (s.gang u).group := by
    rw [hgang]
    split
    · exact Gang.stopIn_group _ _ _
    · rfl
  refine ⟨X, f, hrun, ?_, ?_, hcause, hpc, ?_, ?_, hmem⟩
  · rw [State.groupOf, hgr, hgroup]; rfl
  · rw [State.groupOf, hgr, hgroup]; rfl
  · rw [hdetail]; omega
  · rw [hdetail]; omega

/-- Settles O53: errors park or roll back, marked storage, and the watchdog. -/
theorem errorsAndTheWatchdog : Obligations.ErrorsAndTheWatchdog := ⟨errorsParkOrRollBack, storageErrorsMark, watchdogParksTheGroup⟩

end Sys2Proof.Machine
end

section
/-! Holds end, and blocked FORKs are retried (R53, R54, R187, R190, R195, R232, R242, R249). -/

namespace Sys2Proof.Machine

theorem Gang.sameRest.keepsRegs {g g' : Gang} (h : g.sameRest g') : g.keepsRegs g' := by
  obtain ⟨_, _, rfl⟩ := h
  exact g.keepsRegs_lanes _ _

/-- A hold that ends is in no part of its gang any more; only slices and parts change. -/
theorem State.unhold_acts (s : State) (u : Nat) (h : Hold) :
    ∃ f, s.unhold u h = s.modGang u f ∧ ∀ g : Gang, g.sameRest (f g) ∧ (f g).noHold h := by
  obtain ⟨f, hf, hg⟩ := s.unholdAt_eq u h (s.cycOf u + 1)
  exact ⟨f, hf, fun g => ⟨(hg g).1, (hg g).2.1⟩⟩

theorem State.noHold_unhold (s : State) (u : Nat) (h : Hold) : ((s.unhold u h).gang u).noHold h := by
  obtain ⟨f, hf, hg⟩ := s.unhold_acts u h
  rw [hf]
  exact State.gang_modGang_of (P := fun g => g.noHold h) (fun p hp => absurd hp List.not_mem_nil) (hg _).2

theorem State.sameRegs_unhold (s : State) (u : Nat) (h : Hold) : s.sameRegs (s.unhold u h) := by
  obtain ⟨f, hf, hg⟩ := s.unhold_acts u h
  rw [hf]
  exact s.sameRegs_modGang u (hg _).1.keepsRegs

theorem State.unhold_frame (s : State) (u : Nat) (h : Hold) :
    (s.unhold u h).mem = s.mem ∧ (s.unhold u h).groups = s.groups ∧ (s.unhold u h).cores = s.cores := by
  obtain ⟨f, hf, -⟩ := s.unhold_acts u h
  rw [hf]
  exact ⟨rfl, rfl, rfl⟩

theorem State.gang_acquired {s : State} {u : Nat} (hu : (smFind s.gangs u).isSome = true) :
    (s.acquired u).gang u = { s.gang u with acq := s.serial + 1 } :=
  State.gang_modGang_same s.tickSerial u (fun g => { g with acq := s.serial + 1 }) hu

theorem State.sameRegs_acquired (s : State) (u : Nat) : s.sameRegs (s.acquired u) :=
  s.sameRegs_modGang u (f := fun g => { g with acq := s.serial + 1 }) ⟨rfl, rfl, rfl, rfl, rfl, rfl, rfl, rfl, rfl, rfl, rfl, rfl, rfl, rfl, rfl, rfl⟩

/-! The deques of the cores (R50, R53). -/

/-- The deque of a core for a context, after a change of it. -/
theorem State.deque_modDeque_same (s : State) (core c : Nat) {f : Deque → Deque} (hf : ∀ d : Deque, (f d).ctx = d.ctx) :
    ((s.modDeque core c f).core core).deque c = f ((s.core core).deque c) := by
  rw [State.modDeque, State.core_modCore_same]
  generalize s.core core = k
  have hctx : (k.deque c).ctx = c := by
    unfold Core.deque
    cases h : k.deques.find? (fun d => decide (d.ctx = c)) with
    | none => rfl
    | some d => exact of_decide_eq_true (List.find?_some (p := fun d : Deque => decide (d.ctx = c)) h)
  split
  · next hany =>
    have hfind : (k.deques.map (fun d => if d.ctx = c then f d else d)).find? (fun d => decide (d.ctx = c))
        = (k.deques.find? (fun d => decide (d.ctx = c))).map f := by
      induction k.deques with
      | nil => rfl
      | cons d l ih =>
        rw [List.map_cons, List.find?_cons, List.find?_cons]
        by_cases hd : d.ctx = c
        · simp [hd, hf]
        · simp only [hd, if_false, decide_false]
          exact ih
    obtain ⟨d, hd, hdc⟩ := List.any_eq_true.mp hany
    unfold Core.deque
    dsimp only
    rw [hfind]
    cases h : k.deques.find? (fun d => decide (d.ctx = c)) with
    | none => exact absurd hdc (by simpa using List.find?_eq_none.mp h d hd)
    | some d => rfl
  · next hany =>
    have hnone : k.deques.find? (fun d => decide (d.ctx = c)) = none := by
      rw [List.find?_eq_none]
      intro d hd hdc
      exact hany (List.any_eq_true.mpr ⟨d, hd, hdc⟩)
    show ((k.deques ++ [f (k.deque c)]).find? (fun d => decide (d.ctx = c))).getD _ = _
    rw [List.find?_append, hnone]
    simp [hf, hctx]

/-- The deques of a core do not set its clock. -/
theorem State.cyc_modDeque (s : State) (core c : Nat) (f : Deque → Deque) (j : Nat) : (s.modDeque core c f).cyc j = s.cyc j := by
  have hlag : ((s.modDeque core c f).core j).lag = (s.core j).lag := by
    by_cases hj : j = core
    · subst hj
      rw [State.modDeque, State.core_modCore_same]
      split <;> rfl
    · rw [State.modDeque, State.core_modCore_other _ _ hj]
  show ((s.modDeque core c f).cluster (clusterOf j)).cyc - _ = _
  rw [hlag]
  rfl

theorem State.raise_cyc (s : State) (core c : Nat) (up : Bool) (j : Nat) : (s.raise core c up).cyc j = s.cyc j := rfl

theorem State.deque_dequeOp (s : State) (core c : Nat) {f : Deque → Deque} (hf : ∀ d : Deque, (f d).ctx = d.ctx) :
    ((s.dequeOp core c f).core core).deque c = { f ((s.core core).deque c) with busy := some (s.cyc core) } :=
  s.deque_modDeque_same core c (f := fun d => { f d with busy := some (s.cyc core) }) hf

theorem State.deque_of_cores {s t : State} (h : t.cores = s.cores) (core c : Nat) : (t.core core).deque c = (s.core core).deque c := by
  rw [State.core, State.core, h]

/-! The holds of a part that end. -/

/-- One hold of a part is tried. -/
theorem exec_fenceComplete {s : State} {u k : Nat} {p : Part} {h : Hold} (hp : (s.gang u).part k = some p) (hh : p.holds = [h]) :
    exec (.fenceComplete u k) s = .next (State.endHold u s h) := by
  show execFenceComplete u k s = _
  unfold execFenceComplete
  rw [hp]
  dsimp only
  rw [hh]
  rfl

theorem State.hasGang_of_part {s : State} {u k : Nat} {p : Part} (hp : (s.gang u).part k = some p) : (smFind s.gangs u).isSome = true :=
  State.hasGang_of_ne fun e => by
    rw [e] at hp
    exact absurd hp nofun

/-- A fence with nothing under way reports and ends (R190, R242). -/
theorem State.endHold_fence {s : State} {u : Nat} {sc : Scope} {o : Order} {sd n : Nat} (hu : (smFind s.gangs u).isSome = true) (haccs : (s.gang u).accs = []) :
    ((State.endHold u s (.fence sc o sd n)).gang u).noHold (.fence sc o sd n)
      ∧ (∃ a sl ps, (State.endHold u s (.fence sc o sd n)).gang u
        = { ((s.gang u).setS sd (s.gang u).fenceWord).report (s.cycOf u) with acq := a, slices := sl, parts := ps })
      ∧ (State.endHold u s (.fence sc o sd n)).mem = s.mem ∧ (State.endHold u s (.fence sc o sd n)).groups = s.groups := by
  have hover : s.holdOver u (.fence sc o sd n) = true := by
    show (s.gang u).accs.all _ = true
    rw [haccs]
    rfl
  unfold State.endHold
  rw [hover]
  dsimp only
  rw [if_neg (by decide), haccs, show (if ([] : List (Nat × Acc)).isEmpty = true then [] else [u]) = [] from rfl, State.pump_nil]
  generalize hx : s.modGang u (fun g => (g.setS sd g.fenceWord).report (s.cycOf u)) = x
  have hxu : (smFind x.gangs u).isSome = true := hx ▸ State.hasGang_modGang _ hu
  have hxg : x.gang u = ((s.gang u).setS sd (s.gang u).fenceWord).report (s.cycOf u) := by
    rw [← hx]
    exact State.gang_modGang_same _ _ _ hu
  have hxm : x.mem = s.mem ∧ x.groups = s.groups := by
    rw [← hx]
    exact ⟨rfl, rfl⟩
  generalize hy : (if o ≠ .rel then x.acquired u else x) = y
  have hyg : (smFind y.gangs u).isSome = true ∧ (∃ a, y.gang u = { ((s.gang u).setS sd (s.gang u).fenceWord).report (s.cycOf u) with acq := a })
      ∧ y.mem = s.mem ∧ y.groups = s.groups := by
    rw [← hy, ← hxg]
    split
    · exact ⟨State.hasGang_modGang _ hxu, ⟨_, State.gang_acquired hxu⟩, hxm⟩
    · exact ⟨hxu, ⟨_, rfl⟩, hxm⟩
  obtain ⟨hyu, ⟨a, hya⟩, hym, hyp⟩ := hyg
  obtain ⟨f, hf, hrest⟩ := y.unhold_acts u (.fence sc o sd n)
  obtain ⟨sl, ps, hfg⟩ := (hrest (y.gang u)).1
  refine ⟨y.noHold_unhold u _, ⟨a, sl, ps, ?_⟩, (y.unhold_frame u _).1.trans hym, (y.unhold_frame u _).2.1.trans hyp⟩
  rw [hf, State.gang_modGang_same _ _ _ hyu, hfg, hya]

/-- A FORK that may push does so, and its hold ends (R53, R249). -/
theorem State.endHold_fork {s : State} {u bits pc n : Nat} (hdone : (s.gang u).earlierDone .dev n = true)
    (hbusy : s.dequeBusy (s.gang u).core (s.gang u).ctx = false) (hfirst : s.forkFirst u n = true)
    (hrecs : ((s.core (s.gang u).core).deque (s.gang u).ctx).recs.length < 224) :
    State.endHold u s (.fork bits pc n)
      = (s.dequeOp (s.gang u).core (s.gang u).ctx (fun d => { d with recs := s.taskRec u bits :: d.recs })).unhold u (.fork bits pc n) := by
  have hover : s.holdOver u (.fork bits pc n) = true := hdone
  unfold State.endHold
  rw [hover]
  dsimp only
  rw [if_neg (by decide), if_pos hfirst]
  unfold State.push
  dsimp only
  rw [if_neg (by rw [hbusy]; decide), if_pos hrecs]

theorem holdsEnd : Claims.HoldsEnd := by
  intro s u k p hp g goesOn
  have hu := State.hasGang_of_part hp
  refine ⟨fun sc o sd n hh haccs hwf => ?_, fun qs hh hqs => ?_, fun n hh hn => ?_, fun bits pc n hh hdone hbusy hfirst hrecs => ?_⟩
  · obtain ⟨hgoes, ⟨a, sl, ps, hg⟩, hmem, hgroups⟩ := State.endHold_fence (sc := sc) (o := o) (sd := sd) (n := n) hu haccs
    refine ⟨_, exec_fenceComplete hp hh, hgoes, ?_, ?_, ?_, ?_, fun r hr => ?_, ?_, ?_, ?_, hmem, hgroups⟩ <;> rw [hg]
    · show (smGet (0 : Dword) (smSet 0 (s.gang u).s sd (BitVec.ofNat 64 (s.gang u).fenceWord)) sd).toNat = _
      rw [smGet_smSet_same (h := hwf), BitVec.toNat_ofNat]
      rfl
    · rfl
    · rfl
    · rfl
    · show (smGet (0 : Dword) (smSet 0 (s.gang u).s sd (BitVec.ofNat 64 (s.gang u).fenceWord)) r).toNat = _
      rw [smGet_smSet_ne _ _ _ hr]
      rfl
    · rfl
    · rfl
    · rfl
  · refine ⟨_, (exec_fenceComplete hp hh).trans (congrArg _ (?_ : _ = s.unhold u (.bwait qs))), s.noHold_unhold u _, s.sameRegs_unhold u _, (s.unhold_frame u _).1⟩
    have hover : s.holdOver u (.bwait qs) = true := List.all_eq_true.mpr fun q hq => by rw [hqs q hq]; rfl
    unfold State.endHold
    rw [hover]
    rfl
  · refine ⟨_, (exec_fenceComplete hp hh).trans (congrArg _ (?_ : _ = (s.unhold u (.cpwait n)).acquired u)), fun q hq => ?_,
      State.sameRegs_trans (s.sameRegs_unhold u _) (State.sameRegs_acquired _ u), (s.unhold_frame u _).1⟩
    · have hover : s.holdOver u (.cpwait n) = true := decide_eq_true hn
      unfold State.endHold
      rw [hover]
      rfl
    · have hux : (smFind (s.unhold u (.cpwait n)).gangs u).isSome = true := by
        obtain ⟨f, hf, -⟩ := s.unhold_acts u (.cpwait n)
        rw [hf]
        exact State.hasGang_modGang _ hu
      rw [State.gang_acquired hux] at hq
      exact s.noHold_unhold u _ q hq
  · have hpush := (exec_fenceComplete hp hh).trans (congrArg _ (State.endHold_fork hdone hbusy hfirst hrecs))
    refine ⟨_, hpush, State.noHold_unhold _ u _, ?_, State.sameRegs_unhold _ u _, (State.unhold_frame _ u _).1⟩
    rw [State.deque_of_cores (State.unhold_frame _ u _).2.2]
    exact congrArg Deque.recs (s.deque_dequeOp g.core g.ctx (f := fun d => { d with recs := s.taskRec u bits :: d.recs }) fun _ => rfl)

/-! FORKs that blocked (R53, R54). -/

/-- Raising the class of a deque's task gangs changes no other part of them. -/
theorem State.gang_raise (s : State) (core c : Nat) (up : Bool) (u : Nat) :
    ((s.raise core c up).gang u).group = (s.gang u).group ∧ ((s.raise core c up).gang u).cls = (s.gang u).cls := by
  have hmap : (s.raise core c up).gangs = s.gangs.map (fun e => (e.1, if e.2.task && e.2.deque = some (core, c) then { e.2 with raised := up } else e.2)) := by
    refine List.map_congr_left fun e _ => ?_
    split <;> rfl
  rw [State.gang, State.gang, hmap, smFind_map_snd _ (fun g : Gang => if g.task && g.deque = some (core, c) then { g with raised := up } else g)]
  cases smFind s.gangs u with
  | none => exact ⟨rfl, rfl⟩
  | some g =>
    simp only [Option.map_some, Option.getD_some]
    split <;> exact ⟨rfl, rfl⟩

/-- With the deque below the watermark and free, the FORK at the head of the blocked ones pushes. -/
theorem exec_forkRetry {s : State} {core c : Nat} {x : Nat × Nat × Nat} {rest : List (Nat × Nat × Nat)} (hrecs : ((s.core core).deque c).recs.length < 64)
    (hblocked : ((s.core core).deque c).blocked = x :: rest) (hbusy : s.dequeBusy core c = false) :
    ∃ t : State, exec (.forkRetry core c) s = .next (t.pushBlocked core c) ∧ (∀ u bits, t.taskRec u bits = s.taskRec u bits) ∧ t.mem = s.mem
      ∧ ((t.core core).deque c).recs = ((s.core core).deque c).recs ∧ ((t.core core).deque c).blocked = x :: rest := by
  have hrun : ∀ t : State, t.dequeBusy core c = false → ((t.core core).deque c).draining ≠ 0 →
      (if ((s.core core).deque c).draining = 0 && decide (((s.core core).deque c).recs.length < 64) then
        (s.modDeque core c (fun d => { d with draining := d.blocked.length })).raise core c false else s) = t →
      exec (.forkRetry core c) s = .next (t.pushBlocked core c) := by
    intro t htbusy hdrain ht
    show execForkRetry core c s = _
    unfold execForkRetry
    dsimp only
    rw [ht, hblocked, htbusy, if_neg (by simpa using hdrain), if_pos (by omega)]
  by_cases hd : ((s.core core).deque c).draining = 0
  · have hdeque : ((((s.modDeque core c (fun d => { d with draining := d.blocked.length })).raise core c false).core core).deque c)
        = { (s.core core).deque c with draining := ((s.core core).deque c).blocked.length } :=
      State.deque_modDeque_same s core c (f := fun d => { d with draining := d.blocked.length }) fun _ => rfl
    refine ⟨_, hrun _ ?_ ?_ (if_pos (by simp [hd, hrecs])), fun u bits => ?_, rfl, ?_, ?_⟩
    · rw [State.dequeBusy, hdeque, State.raise_cyc, State.cyc_modDeque]
      exact hbusy
    · rw [hdeque, hblocked]
      exact Nat.succ_ne_zero _
    · obtain ⟨hgroup, hcls⟩ := State.gang_raise (s.modDeque core c (fun d => { d with draining := d.blocked.length })) core c false u
      rw [State.taskRec, hgroup, hcls]
      rfl
    · rw [hdeque]
    · rw [hdeque]
      exact hblocked
  · exact ⟨s, hrun s hbusy hd (if_neg (by simp [hd])), fun _ _ => rfl, rfl, rfl, hblocked⟩

theorem blockedForksRetry {s : State} {core c u id bits : Nat} {rest : List (Nat × Nat × Nat)} (hrecs : ((s.core core).deque c).recs.length < 64)
    (hblocked : ((s.core core).deque c).blocked = (u, id, bits) :: rest) (hbusy : s.dequeBusy core c = false) :
    ∃ t, exec (.forkRetry core c) s = .next t ∧ ((t.core core).deque c).recs = s.taskRec u bits :: ((s.core core).deque c).recs
      ∧ ((t.core core).deque c).blocked = rest ∧ t.mem = s.mem ∧ ∀ k, ∀ e ∈ ((t.gang u).slice k).sets, e.2.st ≠ .fork id := by
  obtain ⟨t, hrun, htask, hmem, htrecs, htblocked⟩ := exec_forkRetry hrecs hblocked hbusy
  let y := t.dequeOp core c (fun d => { d with recs := t.taskRec u bits :: d.recs, blocked := rest, draining := d.draining - 1 })
  have hpush : t.pushBlocked core c = y.wakeSets u (y.cycOf u + 1) (fun _ w => w.st = .fork id) := by
    rw [State.pushBlocked, htblocked]
  have hdeque : (y.core core).deque c = { (t.core core).deque c with
      recs := t.taskRec u bits :: ((t.core core).deque c).recs, blocked := rest, draining := ((t.core core).deque c).draining - 1, busy := some (t.cyc core) } :=
    t.deque_dequeOp core c (f := fun d => { d with recs := t.taskRec u bits :: d.recs, blocked := rest, draining := d.draining - 1 }) fun _ => rfl
  obtain ⟨f, hwake, hf⟩ := y.wakeSets_eq u (y.cycOf u + 1) (fun _ w => w.st = .fork id)
  refine ⟨_, hrun, ?_, ?_, ?_, fun k e he hst => ?_⟩
  · rw [hpush, hwake, State.deque_of_cores (s := y) (t := y.modGang u f) rfl, hdeque, ← htask, ← htrecs]
  · rw [hpush, hwake, State.deque_of_cores (s := y) (t := y.modGang u f) rfl, hdeque]
  · rw [hpush, hwake]
    exact hmem
  · rw [hpush, hwake] at he
    have hgone : ∀ w ∈ ((y.modGang u f).gang u).sts k, w ≠ .fork id :=
      State.gang_modGang_of (P := fun g => ∀ w ∈ g.sts k, w ≠ .fork id) (fun w hw => absurd hw List.not_mem_nil) fun w hw h => by
        rcases (hf (y.gang u)).2 k w hw with h' | ⟨a, i, h'⟩ | ⟨z, hz, h'⟩
        · rw [h] at h'; cases h'
        · rw [h] at h'; cases h'
        · exact of_decide_eq_false hz (h'.trans h)
    exact hgone _ (List.mem_map_of_mem (f := fun e : Nat × LaneSet => e.2.st) he) hst

end Sys2Proof.Machine
end

section
/-! A park that found no waiter entry presents itself again (R334). -/

namespace Sys2Proof.Machine

/-- A park of an access that is the only one of its gang presents itself again on a full cell of its group, and its value is on its way. -/
theorem parksRetry {s : State} {u k id : Nat} {a : Acc} {l : AccLane} (haccs : (s.gang u).accs = [(id, a)]) (hu : (smFind s.gangs u).isSome = true)
    (hop : a.op = 0x29) (hscope : a.scope = .gang ∨ a.scope = .grp) (hk : a.slices.testBit k = true) (hlanes : a.lanes = [l])
    (hst : ∃ n, l.st = .retry n ∧ n + 64 ≤ s.cycOf u) (hcyc : a.cyc < s.cycOf u) (hfree : (s.gang u).fenced id a = false)
    (hldq : ∃ e ∈ ((s.gang u).slice (l.lane / 8)).ldq, e.acc = id) (hfull : s.futFull (some (s.gang u).group) l.addr = true) :
    ∃ t a', exec (.futureParkRetry u k) s = .next t ∧ (t.gang u).accs = [(id, a')]
      ∧ a'.lanes.map (fun x => (x.st, x.val)) = [(LaneSt.arriving, s.futVal (some (s.gang u).group) l.addr)]
      ∧ t.futFull (some (s.gang u).group) l.addr = !a.take := by
  let again : Gang → Gang := fun g => { g with accs := g.accs.map (fun e => if e.2.parks && e.2.slices.testBit k then
      (e.1, { e.2 with lanes := e.2.lanes.map (fun l => if l.st.retries (s.cycOf u) then { l with st := .queued } else l) }) else e) }
  let q : AccLane := { l with st := .queued }
  have hsp : a.sp = true := by
    rw [Acc.sp, hop]
    rcases hscope with h | h <;> rw [h] <;> rfl
  have hretry : l.st.retries (s.cycOf u) = true := by
    obtain ⟨n, hn, hle⟩ := hst
    rw [hn]
    exact decide_eq_true hle
  have hparks : a.parks = true := by rw [Acc.parks, hop]; rfl
  have hgang : (s.modGang u again).gang u = { s.gang u with accs := [(id, { a with lanes := [q] })] } := by
    rw [State.gang_modGang_same _ _ _ hu]
    dsimp only [again]
    rw [haccs, List.map_cons, hparks, hk, hlanes, List.map_cons, hretry]
    rfl
  have hper : (s.modGang u again).performing u id a [] [q] := by
    refine ⟨by rw [hgang]; rfl, by rw [hgang]; exact hfree, .inr ?_, nofun, fun x hx => by rw [List.mem_singleton.mp hx], List.pairwise_singleton _ _⟩
    rw [State.cycOf, hgang]
    exact hcyc
  have hgrp : ((s.modGang u again).gang u).group = (s.gang u).group := by rw [hgang]
  obtain ⟨f, n, hf, hfa, hpresent⟩ := State.present_full (s := s.modGang u again) (u := u) (id := id) (a := { a with lanes := [q] }) (l := q)
    (grp := some (s.gang u).group) (cell := l.addr) hop hfull
  have hperform : (s.modGang u again).performSp u id { a with lanes := [q] } q
      = ([], (s.modGang u again).present u id { a with lanes := [q] } q (some (s.gang u).group) l.addr) := by
    have huse : ({ a with lanes := [q] } : Acc).use = .await := by rw [Acc.use, hop]; rfl
    unfold State.performSp
    dsimp only
    rw [huse, hgrp]
  generalize hy : (s.modGang u again).present u id { a with lanes := [q] } q (some (s.gang u).group) l.addr = y at *
  have hfold : (({ a with lanes := [q] } : Acc).lanes.map (·.lane)).foldl (State.pumpLane u id) ([], [], s.modGang u again) = ([], [], y) := by
    show State.pumpLane u id ([], [], s.modGang u again) q.lane = _
    rw [hper.pumpLane_sp hsp [], show ({ a with lanes := [] ++ [q] } : Acc) = { a with lanes := [q] } from rfl, hperform]
    rfl
  have hygang : y.gang u = f { s.gang u with accs := [(id, { a with lanes := [q] })] } := by
    rw [hpresent, ← hgang]
    exact State.gang_modGang_same (s.modGang u again) u f (State.hasGang_modGang _ hu)
  obtain ⟨_, _, hrest⟩ := hf { s.gang u with accs := [(id, { a with lanes := [q] })] }
  let l' : AccLane := performed 0x29 (s.futVal (some (s.gang u).group) l.addr) false q
  have hyaccs : (y.gang u).accs = [(id, { a with lanes := [l'] })] := by
    rw [hygang, hfa, smMod, List.map_cons, if_pos rfl, Acc.giveLane, List.map_nil]
    dsimp only
    rw [List.map_cons, if_pos (by simp [q])]
    rfl
  have hsweep : y.sweepAccs u = y := State.sweepAccs_waits hyaccs (l := l') List.mem_cons_self rfl (by
    rw [hygang, hrest]
    exact hldq)
  refine ⟨y, { a with lanes := [l'] }, ?_, hyaccs, rfl, ?_⟩
  · show Host.Outcome.next ((s.modGang u again).pump [u]) = _
    rw [State.pump_one (by rw [hgang]) (fun x hx => by rw [List.mem_singleton.mp hx]) hfold, hsweep]
  · rw [hpresent]
    exact (State.futFull_of_groups rfl rfl _ _).trans (State.take_facts (s := s.modGang u again) (grp := some (s.gang u).group) hfull a.take).1

/-- Settles O44: holds end, blocked FORKs push, and parks present themselves again. -/
theorem holdsEndAndRetry : Obligations.HoldsEndAndRetry :=
  ⟨holdsEnd, fun _ _ _ _ _ _ _ => blockedForksRetry, fun _ _ _ _ _ _ => parksRetry⟩

end Sys2Proof.Machine
end

section
/-! FENCE, BWAIT, the streams and the broadcast words (R187, R195 to R199, R203, R204). -/

namespace Sys2Proof.Machine

/-! Streams that end. -/

/-- An access keeps the lanes that a peer still has to answer (R199). -/
def Acc.cut (a : Acc) : Acc := { a with lanes := a.lanes.filter (fun l => match l.st with
  | .sent _ => true
  | _ => false) }

theorem Acc.mem_cut {a : Acc} {l : AccLane} : l ∈ a.cut.lanes ↔ l ∈ a.lanes ∧ ∃ r, l.st = .sent r := by
  show l ∈ a.lanes.filter _ ↔ _
  rw [List.mem_filter]
  cases l.st <;> simp

theorem Gang.cutStreams_accs (g : Gang) (m : Nat) : (g.cutStreams m).accs
    = (g.accs.map (fun e => if (g.strmAccs m).contains e.1 then (e.1, e.2.cut) else e)).filter (fun e => !((g.strmAccs m).contains e.1 && e.2.lanes.isEmpty)) := rfl

theorem Gang.cutStreams_slice {g : Gang} {m k : Nat} (hk : k < g.slices.length) (hm : m.testBit k = true) :
    ((g.cutStreams m).slice k).strm = none
      ∧ ((g.cutStreams m).slice k).ldq = (g.slice k).ldq.filter (fun e => !(e.strm && (g.slice k).streams e.acc)) := by
  unfold Gang.cutStreams
  dsimp only
  rw [Gang.slice_modSlices (by exact hk), if_pos hm]
  exact ⟨rfl, rfl⟩

theorem Gang.keepsRegs_cutStreams (g : Gang) (m : Nat) : g.keepsRegs (g.cutStreams m) :=
  ⟨rfl, rfl, rfl, rfl, rfl, rfl, rfl, rfl, rfl, rfl, rfl, rfl, rfl, rfl, rfl, rfl⟩

/-- The range-lock entries of the streams that stand on a mask of slices. -/
theorem Gang.mem_strmLocks {g : Gang} {m n : Nat} : n ∈ g.strmLocks m ↔ ∃ k ∈ bitsOf 8 m, ∃ x, (g.slice k).strm = some x ∧ x.lock = n := by
  rw [Gang.strmLocks, List.mem_eraseDups, List.mem_filterMap]
  simp only [Option.map_eq_some_iff]

/-- The elements of the streams that stand on a mask of slices. -/
theorem Gang.mem_strmAccs {g : Gang} {m n : Nat} : n ∈ g.strmAccs m
    ↔ ∃ e ∈ g.accs, e.1 = n ∧ e.2.strm = true ∧ ∃ k ∈ bitsOf 8 m, e.2.slices.testBit k = true ∧ (g.slice k).streams n = true := by
  rw [Gang.strmAccs, List.mem_map]
  simp only [List.mem_filter, Bool.and_eq_true, List.any_eq_true]
  constructor
  · rintro ⟨e, ⟨he, hs, k, hk, hb, hst⟩, rfl⟩
    exact ⟨e, he, rfl, hs, k, hk, hb, hst⟩
  · rintro ⟨e, he, rfl, hs, k, hk, hb, hst⟩
    exact ⟨e, ⟨he, hs, k, hk, hb, hst⟩, rfl⟩

/-- With each number once, an access of the ended streams that is left has only lanes that peers answer. -/
theorem Gang.cut_left {g : Gang} {m n : Nat} (hkeys : (g.accs.map (·.1)).Nodup) (hn : n ∈ g.strmAccs m) {e : Nat × Acc} (he : e ∈ (g.cutStreams m).accs)
    (hen : e.1 = n) : e.2.strm = true ∧ ∀ l ∈ e.2.lanes, ∃ r, l.st = .sent r := by
  obtain ⟨y, hy, hyn, hstrm, -⟩ := Gang.mem_strmAccs.mp hn
  rw [Gang.cutStreams_accs] at he
  obtain ⟨x, hx, hxe⟩ := List.mem_map.mp (List.mem_of_mem_filter he)
  have hxn : x.1 = n := by
    split at hxe <;> rw [← hxe] at hen <;> exact hen
  have hxy : x = y := List.inj_on_of_nodup_map hkeys hx hy (hxn.trans hyn.symm)
  rw [if_pos (List.contains_iff_mem.mpr (hxn ▸ hn))] at hxe
  rw [← hxe]
  exact ⟨hxy ▸ hstrm, fun l hl => (Acc.mem_cut.mp hl).2⟩

/-- An access of the ended streams with a lane that a peer answers is left. -/
theorem Gang.left_of_sent {g : Gang} {m : Nat} {e : Nat × Acc} (he : e ∈ g.accs) (hn : e.1 ∈ g.strmAccs m) {l : AccLane} (hl : l ∈ e.2.lanes)
    (hst : ∃ r, l.st = .sent r) : (smFind (g.cutStreams m).accs e.1).isSome = true := by
  refine isSome_smFind_of_mem (e := (e.1, e.2.cut)) ?_
  rw [Gang.cutStreams_accs]
  refine List.mem_filter.mpr ⟨List.mem_map.mpr ⟨e, he, if_pos (List.contains_iff_mem.mpr hn)⟩, ?_⟩
  have hne : e.2.cut.lanes.isEmpty = false := by
    rw [List.isEmpty_eq_false_iff]
    exact List.ne_nil_of_mem (Acc.mem_cut.mpr ⟨hl, hst⟩)
  simp [hne]

theorem holdsOfTheMemorySlot : Claims.HoldsOfTheMemorySlot := by
  intro s c held
  refine ⟨fun o h => (exec_issues h (by rfl)).trans rfl, fun o h => (exec_issues h (by rfl)).trans rfl, fun h hu => ?_, fun k hk q hq hread => ?_⟩
  · have hgang : (s.modGang c.gang (fun g => g.cutStreams c.slices)).gang c.gang = (s.gang c.gang).cutStreams c.slices := State.gang_modGang_same _ _ _ hu
    refine ⟨s.modGang c.gang (fun g => g.cutStreams c.slices), _, _, (exec_issues h (by rfl)).trans rfl, fun k hk hm => ?_, fun n => Gang.mem_strmLocks,
      fun hkeys n hn => ?_, fun hkeys e he k hk hstrm hbit hst hsent => ?_, rfl, rfl, s.sameRegs_modGang _ (Gang.keepsRegs_cutStreams _ _)⟩
    · rw [hgang]
      exact Gang.cutStreams_slice hk hm
    · obtain ⟨hmem, hleft⟩ := List.mem_filter.mp hn
      rw [hgang] at hleft ⊢
      obtain ⟨a, ha⟩ := Option.isSome_iff_exists.mp hleft
      have hin := mem_of_smFind ha
      exact ⟨_, hin, rfl, Gang.cut_left hkeys hmem hin rfl⟩
    · obtain ⟨l, hl, hs⟩ := hsent
      have hmine : e.1 ∈ (s.gang c.gang).strmAccs c.slices := Gang.mem_strmAccs.mpr ⟨e, he, rfl, hstrm, k, hk, hbit, hst⟩
      refine List.mem_filter.mpr ⟨hmine, ?_⟩
      rw [hgang]
      exact Gang.left_of_sent he hmine hl hs
  · have hbit : (2 ^ 63 + q).testBit 63 = true := by
      rw [Nat.testBit_two_pow_add_eq, Nat.testBit_lt_two_pow (by omega)]
      rfl
    unfold State.handles
    rw [List.filter_cons_of_pos hk, List.filter_nil, List.filterMap_cons]
    dsimp only
    rw [hread, if_pos hbit, show (2 ^ 63 + q) % 2 ^ 32 = q by omega]
    rfl

/-! Streams that start. -/

/-- A base register and a signed offset, modulo 2^64. -/
theorem wrap64_add {n : Nat} (x : Nat) (i : BitVec n) : wrap64 ((x : Int) + i.toInt) = (BitVec.ofNat 64 x + i.signExtend 64).toNat := by
  rw [wrap64, wrap_eq_toNat, BitVec.ofInt_add, BitVec.ofInt_natCast]
  rfl

theorem foldl_mul_eq_prod (l : List Nat) (f : Nat → Nat) : l.foldl (fun n k => n * f k) 1 = (l.map f).prod := by
  rw [List.prod_eq_foldl, List.foldl_map]

/-- A stream of a descriptor starts on the slices of a part, under a range-lock entry of its own (R196 to R198). -/
def State.starts (s : State) (c : Cursor) (ty : Ty) (d lanes : List Nat) : State :=
  let g := s.gang c.gang
  let ext := normExt (sdExtent d ty lanes)
  let e := (s.core g.core).freeLock
  let lk : Lock := ⟨ext.1, ext.2, false, !(decide (sdSpace d = 2)), if sdSpace d = 2 then g.group else g.ctx, c.gang⟩
  let s := s.modCore g.core (fun k => { k with locks := smPut k.locks e lk })
  let total := (List.range (sdDepth d)).foldl (fun n k => n * sdCount d k) 1
  let (first, s) := s.fresh
  s.modGang c.gang (fun g => { g with slices := g.slices.mapIdx (fun k x =>
    if c.slices.testBit k then
      { x with strm := some ⟨d, ty, 0, total, maskOf ((lanes.filter (fun i => i / 8 = k)).map (· % 8)), e, first⟩ }
    else x) })

theorem exec_strm {s : State} {c : Cursor} {o : MStrm} (h : s.issues c (.strm o)) :
    exec (.strm o) s = .next ((if ((s.gang c.gang).strmLocks c.slices).isEmpty then s else s.strmx c).starts c o.ty
      (s.strmDesc c ((BitVec.ofNat 64 (s.readS c o.base) + o.off.signExtend 64).toNat)) (s.partLanes c)) := by
  rw [← wrap64_add]
  exact (exec_issues h (by rfl)).trans rfl

/-- A lane's bit in the mask of its slice. -/
theorem testBit_lanes {l : List Nat} {k j : Nat} (hj : j < 8) : (maskOf ((l.filter (fun i => i / 8 = k)).map (· % 8))).testBit j = true ↔ 8 * k + j ∈ l := by
  rw [testBit_maskOf, decide_eq_true_eq, List.mem_map]
  constructor
  · rintro ⟨i, hi, rfl⟩
    obtain ⟨hil, hk⟩ := List.mem_filter.mp hi
    rw [decide_eq_true_eq] at hk
    rwa [← hk, Nat.div_add_mod]
  · intro h
    exact ⟨8 * k + j, List.mem_filter.mpr ⟨h, decide_eq_true (by omega)⟩, by omega⟩

/-- The streams of a part's slices after they have started. -/
theorem State.starts_acts {s : State} {c : Cursor} (hu : (smFind s.gangs c.gang).isSome = true) (ty : Ty) (d lanes : List Nat) :
    (∀ k, k < (s.gang c.gang).slices.length → c.slices.testBit k = true → ∃ x, (((s.starts c ty d lanes).gang c.gang).slice k).strm = some x ∧ x.desc = d
        ∧ x.ty = ty ∧ x.next = 0 ∧ x.lock = (s.core (s.gang c.gang).core).freeLock ∧ x.total = ((List.range (sdDepth d)).map (sdCount d)).prod
        ∧ ∀ j < 8, x.lanes.testBit j = true ↔ 8 * k + j ∈ lanes)
      ∧ (s.starts c ty d lanes).mem = s.mem ∧ (s.starts c ty d lanes).groups = s.groups ∧ s.sameRegs (s.starts c ty d lanes) := by
  refine ⟨fun k hk hm => ?_, rfl, rfl, ?_⟩
  · unfold State.starts
    extract_lets g ext e lk y total
    have hy : (smFind y.fresh.2.gangs c.gang).isSome = true := hu
    rw [State.gang_modGang_same _ _ _ hy]
    have hk' : k < (y.fresh.2.gang c.gang).slices.length := hk
    simp only [Gang.slice, List.getD_eq_getElem?_getD, List.getElem?_mapIdx, List.getElem?_eq_getElem hk', Option.map_some, Option.getD_some, if_pos hm]
    exact ⟨_, rfl, rfl, rfl, rfl, rfl, foldl_mul_eq_prod _ _, fun j hj => testBit_lanes hj⟩
  · unfold State.starts
    extract_lets g ext e lk y total
    exact State.sameRegs_trans (State.sameRegs_of_gangs rfl rfl : s.sameRegs y.fresh.2) (State.sameRegs_modGang _ _ (Gang.keepsRegs_lanes _ _ _))

/-- STRMX leaves memory, groups and registers as they were, and the slices in number. -/
theorem State.strmx_frame {s : State} {c : Cursor} (hu : (smFind s.gangs c.gang).isSome = true) :
    (smFind (s.strmx c).gangs c.gang).isSome = true ∧ ((s.strmx c).gang c.gang).slices.length = (s.gang c.gang).slices.length
      ∧ (s.strmx c).mem = s.mem ∧ (s.strmx c).groups = s.groups ∧ s.sameRegs (s.strmx c) := by
  unfold State.strmx State.hold
  extract_lets g accs locks t
  have ht : (smFind t.gangs c.gang).isSome = true := State.hasGang_modGang _ hu
  refine ⟨State.hasGang_modGang _ ht, ?_, rfl, rfl, ?_⟩
  · rw [State.gang_modGang_same _ _ _ ht]
    show (t.gang c.gang).slices.length = _
    rw [State.gang_modGang_same _ _ _ hu]
    exact List.length_mapIdx
  · exact State.sameRegs_trans (s.sameRegs_modGang _ (Gang.keepsRegs_cutStreams _ _)) (t.sameRegs_modGang _ (Gang.keepsRegs_lanes _ _ _))

theorem streamsStart : Claims.StreamsStart := by
  intro s c o h hu d
  obtain ⟨hy, hlen, hmem, hgroups, hregs⟩ : (smFind (if ((s.gang c.gang).strmLocks c.slices).isEmpty then s else s.strmx c).gangs c.gang).isSome = true
      ∧ ((if ((s.gang c.gang).strmLocks c.slices).isEmpty then s else s.strmx c).gang c.gang).slices.length = (s.gang c.gang).slices.length
      ∧ (if ((s.gang c.gang).strmLocks c.slices).isEmpty then s else s.strmx c).mem = s.mem
      ∧ (if ((s.gang c.gang).strmLocks c.slices).isEmpty then s else s.strmx c).groups = s.groups
      ∧ s.sameRegs (if ((s.gang c.gang).strmLocks c.slices).isEmpty then s else s.strmx c) := by
    split
    · exact ⟨hu, rfl, rfl, rfl, s.sameRegs_refl⟩
    · exact State.strmx_frame hu
  obtain ⟨hstreams, hmem', hgroups', hregs'⟩ := State.starts_acts hy o.ty d (s.partLanes c)
  exact ⟨_, _, exec_strm h, fun k hk => hstreams k (hlen.symm ▸ hk), hmem'.trans hmem, hgroups'.trans hgroups, State.sameRegs_trans hregs hregs'⟩

/-! The broadcast words. -/

theorem foldl_min_spec (xs : List Int) (x : Int) : (∀ y ∈ x :: xs, xs.foldl min x ≤ y) ∧ xs.foldl min x ∈ x :: xs := by
  induction xs generalizing x with
  | nil => simp
  | cons z xs ih =>
    obtain ⟨hle, hmem⟩ := ih (min x z)
    rw [List.foldl_cons]
    refine ⟨fun y hy => ?_, ?_⟩
    · rcases List.mem_cons.mp hy with rfl | hy
      · exact (hle _ List.mem_cons_self).trans (min_le_left _ _)
      · rcases List.mem_cons.mp hy with rfl | hy
        · exact (hle _ List.mem_cons_self).trans (min_le_right _ _)
        · exact hle y (List.mem_cons_of_mem _ hy)
    · rcases List.mem_cons.mp hmem with hm | hm
      · rw [hm]
        rcases min_choice x z with h | h <;> rw [h] <;> simp
      · exact List.mem_cons_of_mem _ (List.mem_cons_of_mem _ hm)

/-- A number between those of 64-bit words is written as it is. -/
theorem toInt_wrap64 {z : Int} {b : BitVec 64} (h : z = b.toInt) : (BitVec.ofNat 64 (wrap 64 z)).toInt = z := by
  rw [wrap_eq_toNat, BitVec.ofNat_toNat, BitVec.setWidth_eq, h, BitVec.ofInt_toInt]

/-- The values that a BCMIN brings, as signed numbers. -/
theorem bcmin_data (s : State) (c : Cursor) (o : MBcmin) : (s.active c o.g).map (fun i => sx 64 (s.operand c o.data i .i64))
    = (s.active c o.g).map (fun l => (BitVec.ofNat 64 (s.operand c o.data l .i64)).toInt) :=
  List.map_congr_left fun _ _ => sx_eq_toInt _ _

/-- A broadcast word takes the minimum of itself and the values that a BCMIN brings. -/
theorem State.lower_word {s : State} {c k : Nat} {x : Int} {xs : List Int}
    (hc : (smFind s.ctxs c).isSome = true) (hwf : smWf bcInit (s.ctx c).bcast = true) (hx : ∀ y ∈ x :: xs, ∃ b : BitVec 64, y = b.toInt)
    {f : Ctx → Ctx} (hf : (f (s.ctx c)).bcast = smSet bcInit (s.ctx c).bcast k (wrap 64 (min (sx 64 ((s.ctx c).word k)) (xs.foldl min x)))) :
    (BitVec.ofNat 64 (((s.modCtx c f).ctx c).word k)).toInt = min (BitVec.ofNat 64 ((s.ctx c).word k)).toInt (xs.foldl min x) := by
  rw [State.ctx_modCtx_same _ hc, Ctx.word, hf, smGet_smSet_same (h := hwf), sx_eq_toInt]
  rcases min_choice (BitVec.ofNat 64 ((s.ctx c).word k)).toInt (xs.foldl min x) with h | h
  · exact toInt_wrap64 h
  · obtain ⟨b, hb⟩ := hx _ (foldl_min_spec xs x).2
    exact toInt_wrap64 (h.trans hb)

theorem broadcastWordsFall {s : State} {c : Cursor} {o : MBcmin} (h : s.issues c (.bcmin o)) (hctx : (smFind s.ctxs (s.gang c.gang).ctx).isSome = true)
    (hwf : smWf bcInit (s.ctx (s.gang c.gang).ctx).bcast = true) :
    let word := fun (t : State) => (BitVec.ofNat 64 ((t.ctx (s.gang c.gang).ctx).word (bcKey (clusterOf (s.gang c.gang).core) o.w))).toInt
    let data := fun (l : Nat) => (BitVec.ofNat 64 (s.operand c o.data l .i64)).toInt
    (s.active c o.g = [] → exec (.bcmin o) s = .next s)
      ∧ ∃ t, exec (.bcmin o) s = .next t ∧ word t ≤ word s ∧ (∀ l ∈ s.active c o.g, word t ≤ data l)
        ∧ (word t = word s ∨ ∃ l ∈ s.active c o.g, word t = data l) ∧ t.mem = s.mem ∧ t.gangs = s.gangs ∧ t.groups = s.groups := by
  intro word data
  have hrun : exec (.bcmin o) s = execBcmin o s := rfl
  rw [hrun, execBcmin, slot_issues _ h, bcmin_data]
  refine ⟨fun hnone => by rw [hnone]; rfl, ?_⟩
  cases hl : s.active c o.g with
  | nil => exact ⟨s, rfl, le_refl _, nofun, .inl rfl, rfl, rfl, rfl⟩
  | cons l ls =>
    have hword := State.lower_word (k := bcKey (clusterOf (s.gang c.gang).core) o.w) (x := data l) (xs := ls.map data) hctx hwf
      (fun y hy => by
        obtain ⟨i, -, rfl⟩ := List.mem_map.mp (show y ∈ (l :: ls).map data from hy)
        exact ⟨_, rfl⟩)
      (f := fun t => { t with
        bcast := smSet bcInit t.bcast (bcKey (clusterOf (s.gang c.gang).core) o.w) (wrap 64 (min (sx 64 (t.word (bcKey (clusterOf (s.gang c.gang).core) o.w))) ((ls.map data).foldl min (data l)))),
        bcOld := (bcKey (clusterOf (s.gang c.gang).core) o.w, c.cyc, t.word (bcKey (clusterOf (s.gang c.gang).core) o.w)) ::
          t.bcOld.filter (fun e => e.1 / 16 ≠ clusterOf (s.gang c.gang).core || c.cyc < e.2.1 + 16) }) rfl
    obtain ⟨hle, hmem⟩ := foldl_min_spec (ls.map data) (data l)
    refine ⟨_, rfl, ?_, fun i hi => ?_, ?_, rfl, rfl, rfl⟩
    · exact hword.le.trans (min_le_left _ _)
    · exact hword.le.trans ((min_le_right _ _).trans (hle _ (List.mem_map_of_mem (f := data) hi)))
    · rcases min_choice (word s) ((ls.map data).foldl min (data l)) with h' | h'
      · exact .inl (hword.trans h')
      · obtain ⟨i, hi, hv⟩ := List.mem_map.mp (show (ls.map data).foldl min (data l) ∈ (l :: ls).map data from hmem)
        exact .inr ⟨i, hi, (hword.trans h').trans hv.symm⟩

theorem broadcastWords : Claims.BroadcastWords := by
  refine ⟨fun s c o => broadcastWordsFall, ?_⟩
  intro s c o h g k hold
  have hnone : (s.ctx g.ctx).bcOld.filter (fun e => e.1 = k && c.cyc < e.2.1 + 16) = [] := by
    rw [List.filter_eq_nil_iff]
    intro e he hk
    rw [Bool.and_eq_true, decide_eq_true_eq, decide_eq_true_eq] at hk
    exact absurd (hold e he hk.1) (by omega)
  have hrun : exec (.bcrd o) s = execBcrd o s := rfl
  rw [hrun, execBcrd, slot_issues _ h]
  dsimp only
  rw [hnone]
  rfl

/-- Settles O30: what holds the memory slot, the streams that start, and the broadcast words. -/
theorem holdsStreamsAndWords : Obligations.HoldsStreamsAndWords := ⟨holdsOfTheMemorySlot, streamsStart, broadcastWords⟩

end Sys2Proof.Machine
end

section
/-! Lane addresses, and the accesses that bundles enter (R172, R173, R181, R183, R184, R192, R193, R201, R202). -/

namespace Sys2Proof.Machine

/-- A base, a scaled index and a signed offset, modulo 2^64, as bit vectors. -/
theorem wrap64_ea {n : Nat} (b : Nat) {x : Int} {y : Dword} (hx : BitVec.ofInt 64 x = y) (sc : Nat) (off : BitVec n) :
    wrap64 ((b : Int) + x * (2 ^ sc : Nat) + off.toInt) = (BitVec.ofNat 64 b + y <<< sc + off.signExtend 64).toNat := by
  rw [wrap64, wrap_eq_toNat, BitVec.ofInt_add, BitVec.ofInt_add, BitVec.ofInt_mul, BitVec.ofInt_natCast, BitVec.ofInt_natCast, hx,
    BitVec.shiftLeft_eq_mul_twoPow, show BitVec.ofNat 64 (2 ^ sc) = BitVec.twoPow 64 sc from BitVec.eq_of_toNat_eq (by simp)]
  rfl

theorem ofInt_sx32 (x : Nat) : BitVec.ofInt 64 (sx 32 x) = (BitVec.ofNat 32 x).signExtend 64 := by
  rw [sx_eq_toInt]
  rfl

theorem addressOfALane : Claims.AddressOfALane := by
  intro s c b sc off l base gives
  exact ⟨fun n => wrap64_ea _ (ofInt_sx32 _) _ _, wrap64_ea _ (ofInt_sx32 _) _ _, wrap64_ea _ (ofInt_sx32 _) _ _, wrap64_ea _ (ofInt_sx32 _) _ _,
    fun n => wrap64_ea _ (BitVec.ofInt_natCast _ _) _ _, fun n => wrap64_ea _ (BitVec.ofInt_natCast _ _) _ _, fun i => wrap64_ea _ rfl _ _⟩

/-- What an access takes of its gang: the slices, and the context that bounds its hold. -/
theorem State.access_congr {s t : State} {c : Cursor} (hs : (t.gang c.gang).slices = (s.gang c.gang).slices) (hc : (t.gang c.gang).ctx = (s.gang c.gang).ctx)
    (hx : t.ctxs = s.ctxs) : t.access c = s.access c := by
  funext op ty scope ord lanes
  have hin : (t.gang c.gang).inHandler = (s.gang c.gang).inHandler := by
    funext m
    rw [Gang.inHandler, Gang.inHandler, Gang.slice, Gang.slice, hs]
  have hslice : (t.gang c.gang).slice = (s.gang c.gang).slice := by
    funext k
    rw [Gang.slice, Gang.slice, hs]
  rw [State.access, State.access, hin, hslice, hc, State.ctx, State.ctx, hx]

theorem State.send_slices {s : State} {c : Cursor} (hc : s.cur = some c) (lat : Nat) (ws : List Write) :
    ((s.send lat ws).gang c.gang).slices = (s.gang c.gang).slices ∧ ((s.send lat ws).gang c.gang).ctx = (s.gang c.gang).ctx ∧ (s.send lat ws).ctxs = s.ctxs := by
  have hmod : ∀ f : List InFlight → List InFlight, ((s.modGang c.gang (fun g => { g with flight := f g.flight })).gang c.gang).slices = (s.gang c.gang).slices
      ∧ ((s.modGang c.gang (fun g => { g with flight := f g.flight })).gang c.gang).ctx = (s.gang c.gang).ctx := fun f => by
    cases hu : smFind s.gangs c.gang with
    | some g =>
      rw [State.gang_modGang_same _ _ _ (by rw [hu]; rfl)]
      exact ⟨rfl, rfl⟩
    | none =>
      rw [State.gang, State.gang, State.modGang, smFind_smMod, if_pos rfl, hu]
      exact ⟨rfl, rfl⟩
  rw [State.send_eq hc]
  obtain ⟨hs, hx⟩ := hmod fun l => (c.flying lat s.serial ws).foldl (fun l w => insertFlight w l) l
  exact ⟨hs, hx, rfl⟩

theorem exec_stb {s : State} {c : Cursor} {o : MBaton} (h : s.issues c (.stb o)) :
    exec (.stb o) s = .next (((s.send 4 [Write.k o.kd.k (2 ^ 63 + s.link.batonNext)]).modLink (fun l => { l with
        batons := smPut l.batons s.link.batonNext ⟨if s.lanesData c o.g o.at_ 0 o.ty o.data = [] then .released else .pending, c.gang,
          (s.lanesData c o.g o.at_ 0 o.ty o.data).length, s.handles c [o.ka, o.kb], [], [], []⟩
        batonNext := if s.link.batonNext < 0xFFFFFFFF then s.link.batonNext + 1 else 1 })).enter c.gang
      { s.access c 0x18 o.ty o.scope o.ord (s.lanesData c o.g o.at_ 0 o.ty o.data) with own := some s.link.batonNext, carries := s.handles c [o.ka, o.kb] }) := by
  have hnext : nextBaton s.link.batonNext = if s.link.batonNext < 0xFFFFFFFF then s.link.batonNext + 1 else 1 := by
    unfold nextBaton
    split <;> split <;> first | rfl | omega
  have hempty : (if (s.lanesData c o.g o.at_ 0 o.ty o.data).isEmpty then BatonSt.released else .pending)
      = if s.lanesData c o.g o.at_ 0 o.ty o.data = [] then .released else .pending := by
    simp only [List.isEmpty_iff]
  obtain ⟨hs, hc, hx⟩ := State.send_slices h.1 4 [Write.k o.kd.k (2 ^ 63 + s.link.batonNext)]
  show execStb o s = _
  rw [execStb, slot_issues _ h]
  dsimp only
  rw [hnext, hempty, State.access_congr (s := s) (t := (s.send 4 [Write.k o.kd.k (2 ^ 63 + s.link.batonNext)]).modLink _) hs hc hx]

theorem exec_fwait {s : State} {c : Cursor} {o : MFwait} (h : s.issues c (.fwait o)) :
    exec (.fwait o) s = .next (match s.lanesAt c o.g o.at_ o.off.toInt with
      | [] => s.enter c.gang (s.access c 0x29 o.ty o.scope .acq [])
      | x :: _ => (s.blockPart c (.future x.addr (some s.nextId) 0)).enter c.gang
          { s.access c 0x29 o.ty o.scope (if o.take then .ar else .acq) (s.lanesAt c o.g o.at_ o.off.toInt) with take := o.take }) := by
  show execFwait o s = _
  rw [execFwait, slot_issues _ h]
  dsimp only
  cases s.lanesAt c o.g o.at_ o.off.toInt <;> rfl

theorem accessesEnter : Claims.AccessesEnter := by
  intro s c lanes low acc pair done
  have hat : ∀ (g : Guard) (a : Addr) (off : Int), s.lanesAt c g a off = lanes g a off (fun _ => (0, 0)) := fun g a off => s.lanesAt_eq c g a off
  have hdata : ∀ (g : Guard) (a : Addr) (off : Int) (t : Ty) (d : Opd), s.lanesData c g a off t d = lanes g a off (low t d) := fun g a off t d => s.lanesData_eq c g a off t d
  have hatom : ∀ o : MAtom, s.lanesAtom c o = lanes o.g o.at_ o.off.toInt (pair o) := fun o => by
    rw [State.lanesAtom, State.addrs, List.map_map]
    refine List.map_congr_left fun l _ => ?_
    dsimp only [pair, Function.comp]
    split <;> rfl
  refine ⟨fun o => ⟨fun h => ?_, fun h => ?_⟩, fun o => ⟨fun h => ?_, fun h => ?_⟩, fun o => ?_, fun o => ?_, fun o h => ?_, fun o => ?_⟩
  · rw [← hat]
    show execLd o s = _
    rw [execLd, slot_issues _ h]
  · rw [← hat]
    show execLdsp o s = _
    rw [execLdsp, slot_issues _ h]
  · rw [← hdata]
    show execSt o s = _
    rw [execSt, slot_issues _ h]
  · rw [← hdata]
    show execStsp o s = _
    rw [execStsp, slot_issues _ h]
  · dsimp only
    rw [← hatom]
    refine ⟨fun h => ?_, fun h => ?_, fun h => ?_⟩
    · show execAtom o s = _
      rw [execAtom, slot_issues _ h]
    · show execAtomq o s = _
      rw [execAtomq, slot_issues _ h]
    · show execAtomsp o s = _
      rw [execAtomsp, slot_issues _ h]
  · dsimp only
    rw [← hdata]
    refine ⟨fun h => ?_, exec_stb⟩
    show execStk o s = _
    rw [execStk, slot_issues _ h]
  · show execFput o s = _
    rw [execFput, slot_issues _ h, State.addrs, List.map_map]
    rfl
  · dsimp only
    rw [← hat]
    exact exec_fwait

/-- Settles O26: the address of a lane, and what every memory access enters. -/
theorem accessesIssue : Obligations.AccessesIssue := ⟨addressOfALane, accessesEnter⟩

end Sys2Proof.Machine
end

section
/-! Copy commands at issue (R206, R225, R228, R231 to R233, R331): what enters the queue of a core, the hurdle that is armed, and the batches
of a gang. -/

namespace Sys2Proof.Machine

/-! Bytes of a number. -/

theorem ofBytes_bytesOf (n x : Nat) : ofBytes (bytesOf n x) = x % 2 ^ (8 * n) := by
  induction n generalizing x with
  | zero => simp [bytesOf, ofBytes, Nat.mod_one]
  | succ n ih =>
    rw [bytesOf, ofBytes, ih, BitVec.toNat_ofNat, show 8 * (n + 1) = 8 + 8 * n by omega, Nat.pow_add, Nat.mod_mul]

theorem take_bytesOf (k n x : Nat) : (bytesOf (k + n) x).take k = bytesOf k x := by
  induction k generalizing x with
  | zero => simp [bytesOf]
  | succ k ih => rw [show k + 1 + n = (k + n) + 1 by omega, bytesOf, List.take_succ_cons, ih, bytesOf]

theorem drop_bytesOf (k n x : Nat) : (bytesOf (k + n) x).drop k = bytesOf n (x / 2 ^ (8 * k)) := by
  induction k generalizing x with
  | zero => simp
  | succ k ih =>
    rw [show k + 1 + n = (k + n) + 1 by omega, bytesOf, List.drop_succ_cons, ih, Nat.div_div_eq_div_mul]
    congr 2
    rw [show 8 * (k + 1) = 8 + 8 * k by omega, Nat.pow_add]

/-- Part of a range of memory. -/
theorem Memory.readN_part (m : Memory) (a : Nat) {k n N : Nat} (h : k + n ≤ N) : Memory.readN m (a + k) n = ((Memory.readN m a N).drop k).take n := by
  rw [Memory.readN_eq, Memory.readN_eq, ← List.map_drop, ← List.map_take]
  refine List.ext_getElem ?_ fun i h1 h2 => ?_
  · simp
    omega
  · simp [Nat.add_assoc]

/-! Flags. -/

theorem FlagBank.testBit_setIn (b : FlagBank) (t k : Nat) : (b.setIn t (2 ^ k)).set.testBit k = true := by
  simp [FlagBank.setIn]

/-- A change of a gang's flags alone. -/
def Gang.flagsOnly (f : Gang → Gang) : Prop :=
  ∀ g : Gang, ∃ sl, f g = { g with slices := sl } ∧ sl.length = g.slices.length ∧ ∀ j, (sl.getD j default).sets = (g.slice j).sets

/-- The flag of a completion is set in the live slices of a mask (R133, R205). -/
def Gang.flagged (g : Gang) (t m k : Nat) : Gang :=
  g.modSlices m (fun x => if x.sets.isEmpty then x else { x with flags := x.flags.setIn t (2 ^ k) })

theorem Gang.flagsOnly_flagged (t m k : Nat) : Gang.flagsOnly (fun g => g.flagged t m k) := fun g => by
  refine ⟨_, rfl, List.length_mapIdx, fun j => ?_⟩
  simp only [Gang.slice, List.getD_eq_getElem?_getD, List.getElem?_mapIdx]
  cases g.slices[j]? with
  | none => rfl
  | some x =>
    simp only [Option.map_some, Option.getD_some]
    split
    · split <;> rfl
    · rfl

theorem State.setFlag_eq (s : State) (u m k : Nat) : s.setFlag u m k = s.modGang u (fun g => g.flagged (s.cyc (s.gang u).core) m k) := rfl

/-- A live slice of the mask has the flag. -/
theorem Gang.flagged_set {g : Gang} {t m k j : Nat} (hj : j < g.slices.length) (hm : m.testBit j = true) (hs : (g.slice j).sets ≠ []) :
    ((g.flagged t m k).slice j).flags.set.testBit k = true := by
  rw [Gang.flagged, Gang.slice_modSlices hj, if_pos hm, if_neg (by simpa using hs)]
  exact FlagBank.testBit_setIn _ _ _

theorem Gang.flagsOnly.keepsRegs {f : Gang → Gang} (hf : Gang.flagsOnly f) (g : Gang) : g.keepsRegs (f g) := by
  obtain ⟨sl, h, -⟩ := hf g
  rw [h]
  exact ⟨rfl, rfl, rfl, rfl, rfl, rfl, rfl, rfl, rfl, rfl, rfl, rfl, rfl, rfl, rfl, rfl⟩

/-! Commands in the queue of a core. -/

theorem State.core_of_modGang (s : State) (u j : Nat) (f : Gang → Gang) : (s.modGang u f).core j = s.core j := rfl

theorem Core.addLocks_eq (k : Core) (ls : List Lock) : ∃ l, k.addLocks ls = { k with locks := l } := by
  unfold Core.addLocks
  induction ls generalizing k with
  | nil => exact ⟨k.locks, rfl⟩
  | cons x ls ih =>
    obtain ⟨l, h⟩ := ih { k with locks := smPut k.locks k.freeLock x }
    exact ⟨l, h⟩

/-- An interval that an access commits changes no contents of a group. -/
theorem State.noteRemote_groups (s : State) (u : Nat) (vas : List Nat) : ∃ groups, s.noteRemote u vas = { s with groups := groups }
    ∧ ∀ h, ((smFind groups h).getD default).spad = (s.group h).spad ∧ ((smFind groups h).getD default).z = (s.group h).z
      ∧ ((smFind groups h).getD default).futs = (s.group h).futs := by
  unfold State.noteRemote
  extract_lets g
  split
  · refine ⟨_, rfl, fun h => ?_⟩
    have hgrp : ((smFind (smMod s.groups g.group (fun x => { x with commit := true })) h).getD default).spad = (s.group h).spad
        ∧ ((smFind (smMod s.groups g.group (fun x => { x with commit := true })) h).getD default).z = (s.group h).z
        ∧ ((smFind (smMod s.groups g.group (fun x => { x with commit := true })) h).getD default).futs = (s.group h).futs := by
      rw [smFind_smMod]
      split
      · next hh =>
        rw [hh, State.group]
        cases smFind s.groups g.group <;> exact ⟨rfl, rfl, rfl⟩
      · exact ⟨rfl, rfl, rfl⟩
    exact hgrp
  · exact ⟨s.groups, rfl, fun h => ⟨rfl, rfl, rfl⟩⟩

/-- The copy that a bundle enters (R206, R225). -/
def State.copyCmd (s : State) (c : Cursor) (o : XCpy) (remote : Bool) : CopyCmd :=
  { gang := c.gang, group := (s.gang c.gang).group, slices := c.slices, desc := s.curDesc c (s.readS c o.sx), src := s.readS c o.sy, dst := s.readS c o.sz,
    remote := remote, scope := o.scope, f := flagOpt o.f, pc := c.pc, issued := c.cyc, done := [], sent := [], held := none, barred := false, failed := false,
    locked := 0, reqs := [] }

/-- A copy stands in the queue of its core, and in the open batch of its gang. -/
theorem State.queueCopy_eq (s : State) (c : Cursor) (i : Instr) (o : XCpy) (remote : Bool) : ∃ groups locks,
    s.queueCopy c i o remote = (({ s with nextId := s.nextId + 1, groups := groups } : State).modCore (s.gang c.gang).core (fun k => { k with
      copyq := smPut k.copyq s.nextId (s.copyCmd c o remote), locks := locks })).modGang c.gang (fun g => { g with openBatch := g.openBatch ++ [s.nextId] })
    ∧ ∀ h, ((smFind groups h).getD default).spad = (s.group h).spad ∧ ((smFind groups h).getD default).z = (s.group h).z
      ∧ ((smFind groups h).getD default).futs = (s.group h).futs := by
  let s₁ : State := { s with nextId := s.nextId + 1 }
  let d := s.curDesc c (s.readS c o.sx)
  let cmd := s.copyCmd c o remote
  have hnote : ∀ vas, ∃ groups, (if cdSrc d = 0 then s₁.noteRemote c.gang vas else s₁) = { s₁ with groups := groups }
      ∧ ∀ h, ((smFind groups h).getD default).spad = (s.group h).spad ∧ ((smFind groups h).getD default).z = (s.group h).z
        ∧ ((smFind groups h).getD default).futs = (s.group h).futs := fun vas => by
    split
    · exact State.noteRemote_groups _ _ _
    · exact ⟨s.groups, rfl, fun h => ⟨rfl, rfl, rfl⟩⟩
  obtain ⟨groups, hn, hg⟩ := hnote (((List.range (cdElems d)).filter (fun n => !(cmd.zeroed n))).map cmd.srcAt)
  obtain ⟨locks, hl⟩ := Core.addLocks_eq { s.core (s.gang c.gang).core with copyq := smPut (s.core (s.gang c.gang).core).copyq s.nextId cmd } (s₁.cmdLocks c d s.nextId i)
  refine ⟨groups, locks, ?_, hg⟩
  have hrun : s.queueCopy c i o remote = ((if cdSrc d = 0 then s₁.noteRemote c.gang (((List.range (cdElems d)).filter (fun n => !(cmd.zeroed n))).map cmd.srcAt)
      else s₁).modCore (s.gang c.gang).core (fun k => ({ k with copyq := smPut k.copyq s.nextId cmd }).addLocks (s₁.cmdLocks c d s.nextId i))).modGang c.gang
        (fun g => { g with openBatch := g.openBatch ++ [s.nextId] }) := rfl
  rw [hrun, hn]
  refine congrArg (fun t : State => t.modGang c.gang (fun g => { g with openBatch := g.openBatch ++ [s.nextId] })) ?_
  exact congrArg (fun k => { s₁ with groups := groups, cores := smPut s.cores (s.gang c.gang).core k }) hl

theorem copiesEnter {s : State} {c : Cursor} (hu : (smFind s.gangs c.gang).isSome = true) (o : XCpy) (remote : Bool)
    (h : s.issues c (if remote then Instr.cpyr o else Instr.cpy o)) :
    ∃ t m, exec (if remote then Instr.cpyr o else Instr.cpy o) s = .next t ∧ smFind (t.core (s.gang c.gang).core).copyq s.nextId = some m
      ∧ m.gang = c.gang ∧ m.group = (s.gang c.gang).group ∧ m.remote = remote ∧ m.scope = o.scope ∧ m.desc = s.curDesc c (s.readS c o.sx)
      ∧ m.src = s.readS c o.sy ∧ m.dst = s.readS c o.sz ∧ m.f = (if o.f.fe then some o.f.k.val else none) ∧ m.done = [] ∧ m.failed = false
      ∧ (t.gang c.gang).openBatch = (s.gang c.gang).openBatch ++ [s.nextId] ∧ t.mem = s.mem ∧ s.sameRegs t
      ∧ ∀ h, (t.group h).spad = (s.group h).spad ∧ (t.group h).z = (s.group h).z ∧ (t.group h).futs = (s.group h).futs := by
  have hrun : exec (if remote then Instr.cpyr o else Instr.cpy o) s = .next (s.queueCopy c (if remote then Instr.cpyr o else Instr.cpy o) o remote) := by
    cases remote
    · exact (show exec (.cpy o) s = execCpy o s from rfl).trans (slot_issues _ h)
    · exact (show exec (.cpyr o) s = execCpyr o s from rfl).trans (slot_issues _ h)
  obtain ⟨groups, locks, heq, hgroups⟩ := s.queueCopy_eq c (if remote then Instr.cpyr o else Instr.cpy o) o remote
  refine ⟨_, s.copyCmd c o remote, hrun, ?_, rfl, rfl, rfl, rfl, rfl, rfl, rfl, rfl, rfl, rfl, ?_, ?_, ?_, ?_⟩ <;> rw [heq]
  · rw [State.core_of_modGang, State.core_modCore_same]
    exact smFind_smPut_same _ _ _
  · rw [State.gang_modGang_same _ _ _ (by exact hu)]
    rfl
  · rfl
  · exact State.sameRegs_trans (State.sameRegs_of_gangs rfl rfl)
      (State.sameRegs_modGang (({ s with nextId := s.nextId + 1, groups := groups } : State).modCore (s.gang c.gang).core (fun k => { k with
        copyq := smPut k.copyq s.nextId (s.copyCmd c o remote), locks := locks })) c.gang
        (f := fun g => { g with openBatch := g.openBatch ++ [s.nextId] }) ⟨rfl, rfl, rfl, rfl, rfl, rfl, rfl, rfl, rfl, rfl, rfl, rfl, rfl, rfl, rfl, rfl⟩)
  · exact hgroups

/-- CPSEAL closes the open batch (R231). -/
def Gang.seal (ids : List Nat) (f : Option Nat) (m : Nat) (g : Gang) : Gang :=
  { g with openBatch := [], batches := if ids.isEmpty then g.batches else g.batches ++ [⟨ids, f, m⟩] }

theorem exec_cpseal {s : State} {c : Cursor} {f : Flag} (h : s.issues c (.cpseal f)) :
    exec (.cpseal f) s = .next (match flagOpt f with
      | some k => if (s.gang c.gang).openBatch.isEmpty then (s.modGang c.gang (Gang.seal (s.gang c.gang).openBatch (flagOpt f) c.slices)).setFlag c.gang c.slices k
        else s.modGang c.gang (Gang.seal (s.gang c.gang).openBatch (flagOpt f) c.slices)
      | none => s.modGang c.gang (Gang.seal (s.gang c.gang).openBatch (flagOpt f) c.slices)) := by
  show execCpseal f s = _
  rw [execCpseal, slot_issues _ h]
  dsimp only
  cases flagOpt f <;> rfl

/-- A flag set in a gang's slices changes nothing else of the gang and no other part of the state. -/
theorem State.setFlag_acts {s : State} {u : Nat} (hu : (smFind s.gangs u).isSome = true) (m k : Nat) :
    (∃ f, Gang.flagsOnly f ∧ s.setFlag u m k = s.modGang u f ∧ (s.setFlag u m k).gang u = f (s.gang u))
      ∧ ∀ j < (s.gang u).slices.length, m.testBit j = true → ((s.gang u).slice j).sets ≠ [] →
        (((s.setFlag u m k).gang u).slice j).flags.set.testBit k = true := by
  have hgang : (s.setFlag u m k).gang u = (s.gang u).flagged (s.cyc (s.gang u).core) m k := State.gang_modGang_same s u (fun g => g.flagged (s.cyc (s.gang u).core) m k) hu
  refine ⟨⟨_, Gang.flagsOnly_flagged _ _ _, s.setFlag_eq u m k, hgang⟩, fun j hj hm hs => ?_⟩
  rw [hgang]
  exact Gang.flagged_set hj hm hs

theorem batchIsSealed {s : State} {c : Cursor} (hu : (smFind s.gangs c.gang).isSome = true) (f : Flag) (h : s.issues c (.cpseal f)) :
    ∃ t, exec (.cpseal f) s = .next t ∧ (t.gang c.gang).openBatch = []
      ∧ (t.gang c.gang).batches = (if (s.gang c.gang).openBatch = [] then (s.gang c.gang).batches
          else (s.gang c.gang).batches ++ [⟨(s.gang c.gang).openBatch, if f.fe then some f.k.val else none, c.slices⟩])
      ∧ ((s.gang c.gang).openBatch = [] → f.fe = true → ∀ k < (s.gang c.gang).slices.length, c.slices.testBit k = true → ((s.gang c.gang).slice k).sets ≠ [] →
          ((t.gang c.gang).slice k).flags.set.testBit f.k = true)
      ∧ t.mem = s.mem ∧ t.groups = s.groups ∧ s.sameRegs t := by
  generalize hy : s.modGang c.gang (Gang.seal (s.gang c.gang).openBatch (flagOpt f) c.slices) = y
  have hyu : (smFind y.gangs c.gang).isSome = true := hy ▸ State.hasGang_modGang _ hu
  have hyg : y.gang c.gang = (s.gang c.gang).seal (s.gang c.gang).openBatch (flagOpt f) c.slices := by
    rw [← hy]
    exact State.gang_modGang_same _ _ _ hu
  have hregs : s.sameRegs y := hy ▸ s.sameRegs_modGang c.gang (f := Gang.seal (s.gang c.gang).openBatch (flagOpt f) c.slices)
    ⟨rfl, rfl, rfl, rfl, rfl, rfl, rfl, rfl, rfl, rfl, rfl, rfl, rfl, rfl, rfl, rfl⟩
  have hmem : y.mem = s.mem ∧ y.groups = s.groups := by rw [← hy]; exact ⟨rfl, rfl⟩
  have hb : (y.gang c.gang).batches = (if (s.gang c.gang).openBatch = [] then (s.gang c.gang).batches
      else (s.gang c.gang).batches ++ [⟨(s.gang c.gang).openBatch, if f.fe then some f.k.val else none, c.slices⟩]) := by
    rw [hyg, Gang.seal]
    simp only [List.isEmpty_iff]
    rfl
  have hrun := exec_cpseal h
  rw [hy] at hrun
  by_cases hset : f.fe = true ∧ (s.gang c.gang).openBatch = []
  · obtain ⟨⟨F, hF, heq, hgang⟩, hflag⟩ := State.setFlag_acts hyu c.slices f.k.val
    obtain ⟨sl, hsl, -⟩ := hF (y.gang c.gang)
    refine ⟨y.setFlag c.gang c.slices f.k.val, ?_, ?_, ?_, fun _ _ k hk hm hs => hflag k ?_ hm ?_, ?_⟩
    · rw [hrun, flagOpt, if_pos hset.1, hset.2]
      rfl
    · rw [hgang, hsl, hyg]
      rfl
    · rw [hgang, hsl]
      exact hb
    · rw [hyg]
      exact hk
    · rw [hyg]
      exact hs
    · rw [heq]
      exact ⟨hmem.1, hmem.2, State.sameRegs_trans hregs (y.sameRegs_modGang c.gang (hF.keepsRegs _))⟩
  · refine ⟨y, ?_, by rw [hyg]; rfl, hb, fun ho hf => absurd ⟨hf, ho⟩ hset, hmem.1, hmem.2, hregs⟩
    rw [hrun, flagOpt]
    by_cases hf : f.fe = true
    · rw [if_pos hf]
      dsimp only
      rw [if_neg (by rw [List.isEmpty_iff]; exact fun ho => hset ⟨hf, ho⟩)]
    · rw [if_neg hf]

/-! Hurdles that are armed. -/

/-- A group whose scratchpad has a cell of 16 bytes written, with nothing left at its bank. -/
def Group.rewrites (spad : Memory) (cyc a : Nat) (x : Group) : Group :=
  { x with spad := spad, bank := ⟨cyc, [], []⟩ }.clean (fun i => a ≤ i && i < a + 16)

theorem Group.rewrites_spad (spad : Memory) (cyc a : Nat) (x : Group) : (x.rewrites spad cyc a).spad = spad := rfl

/-- The cell of a hurdle changes, in a cycle in which its scratchpad's bank has no store of the memory slot (R233). -/
theorem State.bankCell_eq {s : State} {grp : Nat} (hb : (s.group grp).bank.cyc ≠ s.cyc (s.group grp).core) (a : Nat) (f : List Byte → List Byte) :
    s.bankCell grp a f = s.modGroup grp
      (Group.rewrites (Memory.writeN (s.group grp).spad a (f (Memory.readN (s.group grp).spad a 16))) (s.cyc (s.group grp).core) a) := by
  have hat : (s.group grp).bankAt (s.cyc (s.group grp).core) = ⟨s.cyc (s.group grp).core, [], []⟩ := if_neg hb
  have hbefore : (s.group grp).bankBefore (s.cyc (s.group grp).core) = (s.group grp).spad := by
    rw [Group.bankBefore, hat]
    rfl
  unfold State.bankCell
  dsimp only
  rw [hat, hbefore]
  rfl

/-- The bytes of a hurdle that HSET arms: count 0, the target, and the phase after the old one (R233, R331). -/
def armed (target : Nat) (bs : List Byte) : List Byte := bytesOf 8 0 ++ bytesOf 8 ((ofBytes (bs.drop 14) + 1) % 2 ^ 16 * 2 ^ 48 + target % 2 ^ 48)

theorem length_armed (target : Nat) (bs : List Byte) : (armed target bs).length = 16 := by
  rw [armed, List.length_append, length_bytesOf, length_bytesOf]

/-- What a hurdle that has been armed reads. -/
theorem armed_reads {m : Memory} (hwf : Memory.wf m = true) (a target : Nat) :
    ofBytes (Memory.readN (Memory.writeN m a (armed target (Memory.readN m a 16))) a 8) = 0
      ∧ ofBytes (Memory.readN (Memory.writeN m a (armed target (Memory.readN m a 16))) (a + 8) 6) = target % 2 ^ 48
      ∧ ofBytes (Memory.readN (Memory.writeN m a (armed target (Memory.readN m a 16))) (a + 14) 2) = (ofBytes (Memory.readN m (a + 14) 2) + 1) % 2 ^ 16 := by
  have hall := Memory.readN_writeN_same a (armed target (Memory.readN m a 16)) hwf
  rw [length_armed] at hall
  have hpart : ∀ k n, k + n ≤ 16 → Memory.readN (Memory.writeN m a (armed target (Memory.readN m a 16))) (a + k) n
      = ((armed target (Memory.readN m a 16)).drop k).take n := fun k n h => by
    rw [Memory.readN_part _ a h, hall]
  have hold : ofBytes ((Memory.readN m a 16).drop 14) = ofBytes (Memory.readN m (a + 14) 2) := by
    rw [Memory.readN_part m a (show 14 + 2 ≤ 16 by decide), List.take_of_length_le]
    rw [Memory.readN_eq]
    simp
  have hhigh : ∀ k, (armed target (Memory.readN m a 16)).drop (8 + k) = (bytesOf 8 ((ofBytes (Memory.readN m (a + 14) 2) + 1) % 2 ^ 16 * 2 ^ 48 + target % 2 ^ 48)).drop k :=
    fun k => by rw [armed, hold, ← List.drop_drop]; rfl
  refine ⟨?_, ?_, ?_⟩
  · have h0 := hpart 0 8 (by decide)
    rw [Nat.add_zero] at h0
    rw [h0, List.drop_zero, armed, List.take_left' (length_bytesOf 8 0), ofBytes_bytesOf, Nat.zero_mod]
  · rw [hpart 8 6 (by decide), hhigh 0, List.drop_zero, take_bytesOf 6 2, ofBytes_bytesOf]
    omega
  · rw [hpart 14 2 (by decide), hhigh 6, drop_bytesOf 6 2, List.take_of_length_le (by rw [length_bytesOf]), ofBytes_bytesOf]
    omega

/-- The command without bytes that HSET enters (R233). -/
def State.hsetCmd (s : State) (c : Cursor) (o : XHset) : CopyCmd :=
  { gang := c.gang, group := (s.gang c.gang).group, slices := c.slices, desc := [], src := 0, dst := 0, remote := false, scope := .grp, f := flagOpt o.f,
    pc := c.pc, issued := c.cyc, done := [], sent := [], held := none, barred := false, failed := false, locked := 0, reqs := [] }

theorem hurdleIsArmed {s : State} {c : Cursor} {o : XHset} (h : s.issues c (.hset o))
    (hgrp : (smFind s.groups (s.gang c.gang).group).isSome = true) (hwf : smWf (0 : Byte) (s.group (s.gang c.gang).group).spad = true)
    (hbank : (s.group (s.gang c.gang).group).bank.cyc ≠ s.cyc (s.group (s.gang c.gang).group).core) :
    let g := s.gang c.gang
    let a := s.readS c o.sx
    ∃ t, exec (.hset o) s = .next t ∧ ofBytes (t.spRd g.group a 8) = 0 ∧ ofBytes (t.spRd g.group (a + 8) 6) = s.readS c o.sy % 2 ^ 48
      ∧ ofBytes (t.spRd g.group (a + 14) 2) = (ofBytes (s.spRd g.group (a + 14) 2) + 1) % 2 ^ 16
      ∧ (∀ x, x < a ∨ a + 16 ≤ x → Memory.read (t.group g.group).spad x = Memory.read (s.group g.group).spad x)
      ∧ (smFind (t.core g.core).copyq s.nextId).isSome = true ∧ s.sameMemBut t g.group ∧ s.sameRegs t := by
  intro g a
  let F : Group → Group := Group.rewrites (Memory.writeN (s.group g.group).spad a (armed (s.readS c o.sy) (Memory.readN (s.group g.group).spad a 16)))
    (s.cyc (s.group g.group).core) a
  obtain ⟨cmd, hrun⟩ : ∃ cmd, exec (.hset o) s
      = .next (({ s.modGroup g.group F with nextId := s.nextId + 1 } : State).modCore g.core (fun k => { k with copyq := smPut k.copyq s.nextId cmd })) := by
    refine ⟨s.hsetCmd c o, ?_⟩
    have hcell : s.bankCell g.group a (armed (s.readS c o.sy)) = s.modGroup g.group F := State.bankCell_eq hbank a _
    show execHset o s = _
    rw [execHset, slot_issues _ h]
    unfold armed at hcell
    dsimp only [State.fresh]
    rw [hcell, show (s.modGroup g.group F).nextId = s.nextId from rfl, State.hsetCmd]
  have hg : ((s.modGroup g.group F).group g.group).spad = Memory.writeN (s.group g.group).spad a (armed (s.readS c o.sy) (Memory.readN (s.group g.group).spad a 16)) := by
    rw [State.group_modGroup_same F hgrp]
    exact Group.rewrites_spad _ _ _ _
  have hread : ∀ x n, (({ s.modGroup g.group F with nextId := s.nextId + 1 } : State).modCore g.core (fun k => { k with
      copyq := smPut k.copyq s.nextId cmd })).spRd g.group x n
        = Memory.readN (Memory.writeN (s.group g.group).spad a (armed (s.readS c o.sy) (Memory.readN (s.group g.group).spad a 16))) x n := fun x n => by
    show Memory.readN ((s.modGroup g.group F).group g.group).spad x n = _
    rw [hg]
  obtain ⟨h0, htarget, hphase⟩ := armed_reads hwf a (s.readS c o.sy)
  refine ⟨_, hrun, ?_, ?_, ?_, fun x hx => ?_, ?_, ⟨rfl, rfl, rfl, fun k hk => s.group_modGroup_other F hk⟩, State.sameRegs_of_gangs rfl rfl⟩
  · rw [hread]
    exact h0
  · rw [hread]
    exact htarget
  · rw [hread]
    exact hphase
  · show Memory.read ((s.modGroup g.group F).group g.group).spad x = _
    rw [hg]
    exact Memory.read_writeN_other a x _ hwf (by rw [length_armed]; exact hx)
  · rw [State.core_modCore_same]
    dsimp only
    rw [smFind_smPut_same]
    rfl

theorem copyCommandsEnterTheQueue : Claims.CopyCommandsEnterTheQueue := by
  intro s c hu
  exact ⟨copiesEnter hu, batchIsSealed hu, fun n h => (exec_issues h (by rfl)).trans rfl, fun o => hurdleIsArmed⟩

end Sys2Proof.Machine
end

section
/-! The copy engine performs the elements of a copy, and completes it (R207, R209, R226, R227, R231, R235). -/

namespace Sys2Proof.Machine

/-- No element of a copy within the scratchpad belongs to a block on the fabric. -/
theorem State.withBlocks_here {s : State} {m : CopyCmd} (hsrc : cdSrc m.desc = 1) (hdst : cdDst m.desc = 1) (elems : List Nat) : s.withBlocks m elems = elems := by
  have hnone : ∀ n, s.farBlock m n = none := fun n => by
    unfold State.farBlock
    dsimp only
    rw [hsrc, hdst]
    rfl
  have hf : elems.filterMap (s.farBlock m) = [] := List.filterMap_eq_nil_iff.mpr fun n _ => hnone n
  unfold State.withBlocks
  rw [hf]
  rfl

/-- A group with some cells of its scratchpad written. -/
def Group.writeCells (ws : List (Nat × Byte)) (x : Group) : Group := { x with spad := Memory.writeAll x.spad ws }.clean (fun i => ws.any (fun w => w.1 = i))

/-- The bytes of an element of a copy within the scratchpad: those at its source, or zeros beyond LIMIT (R226). -/
def State.elemBytes (s : State) (m : CopyCmd) (n : Nat) : List Byte :=
  if m.zeroed n then List.replicate (cdEsize m.desc) 0 else s.spRd m.group (m.srcAt n) (cdEsize m.desc)

/-- An element of a copy within the scratchpad is performed there. -/
theorem State.copyElem_here {s : State} {core id n : Nat} {m : CopyCmd} (hm : smFind (s.core core).copyq id = some m) (hf : m.failed = false) (hw : m.waits = false)
    (hsrc : cdSrc m.desc = 1) (hdst : cdDst m.desc = 1) (hhen : cdHen m.desc = false) (hn : n < m.elems) (hdone : n ∉ m.done) (hsent : n ∉ m.sent) :
    State.copyElem core id ([], s) n = ([], (s.spWrAll m.group (m.leaves n (s.elemBytes m n))).doneElems core id [n]) := by
  have hput : ∀ bs, s.putElem core id m n bs = ([], (s.spWrAll m.group (m.leaves n bs)).doneElems core id [n]) := fun bs => by
    have hh : m.hurdle = none := by rw [CopyCmd.hurdle, hhen]; rfl
    unfold State.putElem
    dsimp only
    unfold State.deliverSp
    rw [if_pos hdst, hh]
  have hgo : (m.waits || m.failed || m.done.contains n || m.sent.contains n || decide (m.elems ≤ n)) = false := by
    simp [hw, hf, hdone, hsent, hn]
  unfold State.copyElem
  dsimp only
  rw [hm]
  dsimp only
  rw [hgo, hsrc]
  unfold State.elemBytes
  by_cases hz : m.zeroed n = true
  · rw [hz, hput]
    rfl
  · rw [Bool.not_eq_true] at hz
    rw [hz]
    have hside : s.sideOf core (s.gang m.gang).ctx (m.srcAt n) (decide ((1 : Nat) = 0)) .read = (.here, s) := rfl
    rw [hside]
    dsimp only
    rw [hput (s.spRd m.group (m.srcAt n) (cdEsize m.desc))]
    rfl

theorem copyPerformsItsElements : Claims.CopyPerformsItsElements := by
  intro s core cmd n m hm hf hw hdesc hdrain hrem hsrc hdst hhen hn hdone hsent hgrp bytes
  have hbytes : bytes = s.elemBytes m n := by
    show (if _ then _ else _) = _
    unfold State.elemBytes CopyCmd.zeroed
    simp only [Bool.and_eq_true, decide_eq_true_eq]
  have hrun : exec (.copyBytesPerformed core cmd [n]) s = .next ((s.spWrAll m.group (m.leaves n (s.elemBytes m n))).doneElems core cmd [n]) := by
    have hgo : (m.failed || m.waits || m.desc.isEmpty || !(s.copyDrained m cmd)) = false := by
      simp [hf, hw, hdesc, hdrain]
    show execCopyBytesPerformed core cmd [n] s = _
    unfold execCopyBytesPerformed
    rw [hm]
    dsimp only
    rw [hgo, hrem, show [n].eraseDups = [n] from rfl, State.withBlocks_here hsrc hdst]
    have hel := State.copyElem_here hm hf hw hsrc hdst hhen hn hdone hsent
    rw [List.foldl_cons, List.foldl_nil, hel]
    rfl
  rw [hbytes]
  refine ⟨_, { m with done := m.done ++ [n], sent := m.sent.filter (fun k => !([n].contains k)) }, hrun, ?_, ?_, rfl, ⟨rfl, rfl, rfl, fun h hh => ?_⟩, ?_⟩
  · exact congrArg Group.spad (State.group_modGroup_same (Group.writeCells (m.leaves n (s.elemBytes m n))) hgrp)
  · have hq : ((s.spWrAll m.group (m.leaves n (s.elemBytes m n))).core core).copyq = (s.core core).copyq := rfl
    rw [State.doneElems, State.modCopy, State.core_modCore_same]
    dsimp only
    rw [hq, smFind_smMod, if_pos rfl, hm]
    rfl
  · exact s.group_modGroup_other (Group.writeCells (m.leaves n (s.elemBytes m n))) hh
  · exact State.sameRegs_of_gangs rfl rfl

/-! Copies that complete. -/

theorem Gang.flagsOnly.comp {f g : Gang → Gang} (hf : Gang.flagsOnly f) (hg : Gang.flagsOnly g) : Gang.flagsOnly (fun x => g (f x)) := fun x => by
  obtain ⟨sl, h1, hlen, hsets⟩ := hf x
  obtain ⟨sl', h2, hlen', hsets'⟩ := hg (f x)
  refine ⟨sl', h2.trans (by rw [h1]), by rw [hlen', h1, hlen], fun j => ?_⟩
  rw [hsets', h1]
  exact hsets j

/-- A batch that finishes sets its flag (R231). -/
def State.flagBatch (u : Nat) (s : State) (b : Batch) : State :=
  match b.flag with
  | some k => s.setFlag u b.slices k
  | none => s

theorem State.setFlags_eq (u : Nat) (l : List Batch) (s : State) : ∃ f, Gang.flagsOnly f ∧ l.foldl (State.flagBatch u) s = s.modGang u f := by
  induction l generalizing s with
  | nil => exact ⟨fun g => g, fun g => ⟨g.slices, rfl, rfl, fun _ => rfl⟩, by rw [State.modGang, smMod_self]; rfl⟩
  | cons b l ih =>
    rw [List.foldl_cons, State.flagBatch]
    cases b.flag with
    | none => exact ih s
    | some k =>
      obtain ⟨f, hf, h⟩ := ih (s.setFlag u b.slices k)
      exact ⟨_, (Gang.flagsOnly_flagged (s.cyc (s.gang u).core) b.slices k).comp hf, by rw [h, State.setFlag_eq, State.modGang_modGang]⟩

/-- A gang without a copy in its batches; those left without one are gone (R231). -/
def Gang.endCopy (id : Nat) (g : Gang) : Gang :=
  { g with
    openBatch := g.openBatch.filter (fun x => x ≠ id)
    batches := (g.batches.map (fun b => { b with copies := b.copies.filter (fun x => x ≠ id) })).filter (fun b => !b.copies.isEmpty) }

/-- A completed copy leaves the batches of its gang, and those that finish set their flags (R231). -/
theorem State.batchDone_eq (s : State) (u id : Nat) : ∃ f, Gang.flagsOnly f ∧ s.batchDone u id = s.modGang u (fun g => f (g.endCopy id)) := by
  unfold State.batchDone
  extract_lets t fin v
  obtain ⟨f, hf, h⟩ := State.setFlags_eq u fin v
  refine ⟨f, hf, h.trans ?_⟩
  show ((s.modGang u _).modGang u _).modGang u f = _
  rw [State.modGang_modGang, State.modGang_modGang]
  rfl

theorem Gang.endCopy_batches (g : Gang) (id : Nat) : (∀ b ∈ (g.endCopy id).batches, id ∉ b.copies ∧ b.copies ≠ []) ∧ id ∉ (g.endCopy id).openBatch := by
  refine ⟨fun b hb => ?_, fun h => absurd rfl (of_decide_eq_true (List.mem_filter.mp h).2)⟩
  obtain ⟨hb, hne⟩ := List.mem_filter.mp hb
  obtain ⟨x, -, rfl⟩ := List.mem_map.mp hb
  exact ⟨fun h => absurd rfl (of_decide_eq_true (List.mem_filter.mp h).2), by simpa using hne⟩

/-- A local copy that is over leaves its core's queue, its locks and its batch, and its flag is set. -/
theorem exec_copyComplete {s : State} {core cmd : Nat} {m : CopyCmd} (hm : smFind (s.core core).copyq cmd = some m) (hrem : m.remote = false) (hreqs : m.reqs = [])
    (hdone : m.elems ≤ m.done.length) (htime : m.issued + m.least ≤ s.cyc core) :
    exec (.copyComplete core cmd) s = .next (match m.f with
      | some k => ((s.modCore core (fun k => { k.dropLocks cmd with copyq := smDel k.copyq cmd })).batchDone m.gang cmd).setFlag m.gang m.slices k
      | none => (s.modCore core (fun k => { k.dropLocks cmd with copyq := smDel k.copyq cmd })).batchDone m.gang cmd) := by
  have hfin : m.finished = true := by
    rw [CopyCmd.finished, hreqs, decide_eq_true hdone, Bool.or_true]
    rfl
  show execCopyComplete core cmd s = _
  unfold execCopyComplete
  rw [hm]
  dsimp only
  rw [hfin, hrem, decide_eq_false (Nat.not_lt.mpr htime)]
  cases m.f <;> rfl

theorem copyCompletes : Claims.CopyCompletes := by
  intro s core cmd m hm hkeys hrem hreqs hdone htime hu
  have hrun := exec_copyComplete hm hrem hreqs hdone htime
  generalize hy : s.modCore core (fun k => { k.dropLocks cmd with copyq := smDel k.copyq cmd }) = y at hrun
  have hcore : y.core core = { (s.core core).dropLocks cmd with copyq := smDel (s.core core).copyq cmd } := by
    rw [← hy, State.core_modCore_same]
  have hrest : y.gangs = s.gangs ∧ y.mem = s.mem ∧ y.groups = s.groups ∧ s.sameRegs y := by
    rw [← hy]
    exact ⟨rfl, rfl, rfl, State.sameRegs_of_gangs rfl rfl⟩
  obtain ⟨hgangs, hmem, hgroups, hregs⟩ := hrest
  obtain ⟨f, hf, hbatch⟩ := y.batchDone_eq m.gang cmd
  have hyu : (smFind y.gangs m.gang).isSome = true := by rw [hgangs]; exact hu
  have hgang : y.gang m.gang = s.gang m.gang := by rw [State.gang, State.gang, hgangs]
  obtain ⟨t, H, hH, ht, ht', hflag⟩ : ∃ t H, Gang.flagsOnly H ∧ exec (.copyComplete core cmd) s = .next t
      ∧ t = y.modGang m.gang (fun g => H (g.endCopy cmd))
      ∧ ∀ k, m.f = some k → ∀ j < (s.gang m.gang).slices.length, m.slices.testBit j = true → ((s.gang m.gang).slice j).sets ≠ [] →
          ((t.gang m.gang).slice j).flags.set.testBit k = true := by
    cases hk : m.f with
    | none => exact ⟨y.batchDone m.gang cmd, f, hf, by rw [hrun, hk], hbatch, nofun⟩
    | some k =>
      have hwu : (smFind (y.batchDone m.gang cmd).gangs m.gang).isSome = true := by rw [hbatch]; exact State.hasGang_modGang _ hyu
      obtain ⟨⟨F, hF, heq, -⟩, hset⟩ := State.setFlag_acts hwu m.slices k
      obtain ⟨sl, hsl, hlen, hsets⟩ := hf ((s.gang m.gang).endCopy cmd)
      have hwg : (y.batchDone m.gang cmd).gang m.gang = f ((s.gang m.gang).endCopy cmd) := by
        rw [hbatch, State.gang_modGang_same _ _ _ hyu, hgang]
      refine ⟨(y.batchDone m.gang cmd).setFlag m.gang m.slices k, fun g => F (f g), hf.comp hF, by rw [hrun, hk], by rw [heq, hbatch, State.modGang_modGang], fun k' hk' j hj hm hs => ?_⟩
      obtain rfl := Option.some.inj hk'
      refine hset j ?_ hm ?_
      · rw [hwg, hsl]
        exact hlen ▸ hj
      · rw [hwg, hsl]
        exact fun h => hs ((hsets j).symm.trans h)
  obtain ⟨sl, hsl, -⟩ := hH ((s.gang m.gang).endCopy cmd)
  have htg : t.gang m.gang = { (s.gang m.gang).endCopy cmd with slices := sl } := by
    rw [ht', State.gang_modGang_same _ _ _ hyu, hgang, hsl]
  have htc : t.core core = y.core core := by rw [ht']; rfl
  obtain ⟨hbatches, hopen⟩ := (s.gang m.gang).endCopy_batches cmd
  refine ⟨t, ht, ?_, fun e he => ?_, hflag, ?_, ?_, ?_, ?_, ?_⟩
  · rw [htc, hcore]
    exact smFind_smDel_self hkeys
  · rw [htc, hcore] at he
    exact of_decide_eq_true (List.mem_filter.mp he).2
  · rw [htg]
    exact hbatches
  · rw [htg]
    exact hopen
  · rw [ht']
    exact hmem
  · rw [ht']
    exact hgroups
  · rw [ht']
    refine State.sameRegs_trans hregs (y.sameRegs_modGang m.gang (f := fun g => H (g.endCopy cmd)) ?_)
    exact Gang.keepsRegs_trans (b := (y.gang m.gang).endCopy cmd) ⟨rfl, rfl, rfl, rfl, rfl, rfl, rfl, rfl, rfl, rfl, rfl, rfl, rfl, rfl, rfl, rfl⟩ (hH.keepsRegs _)

/-- Settles O34: copies enter, perform their elements and complete. -/
theorem copyEngine : Obligations.CopyEngine := ⟨copyCommandsEnterTheQueue, copyPerformsItsElements, copyCompletes⟩

end Sys2Proof.Machine
end

section
/-! Matrix instructions enter commands in their core's queue; the reuse latch (R206, R214 to R221). -/

namespace Sys2Proof.Machine

/-- The command of a matrix instruction before its own fields are filled in. -/
def State.matCmd (s : State) (c : Cursor) (i : Instr) : MatCmd :=
  { i := i, gang := c.gang, group := (s.gang c.gang).group, slices := c.slices, rows := 0, fb := 0, sx := 0, sz := 0, a := [], rnd := [],
    pc := c.pc, issued := c.cyc, inst := 0, fired := none, afb := 0, ameta := [], reqs := [], wrote := false, failed := false, held := none, barred := false }

theorem State.queueMat_eq (s : State) (c : Cursor) (i : Instr) (f : MatCmd → MatCmd) : ∃ locks,
    s.queueMat c i f = ({ s with nextId := s.nextId + 1 } : State).modCore (s.gang c.gang).core (fun k => { k with
      matq := smPut k.matq s.nextId (f (s.matCmd c i)), locks := locks }) := by
  let s₁ : State := { s with nextId := s.nextId + 1 }
  obtain ⟨locks, hl⟩ := Core.addLocks_eq { s.core (s.gang c.gang).core with
    matq := smPut (s.core (s.gang c.gang).core).matq s.nextId (f (s.matCmd c i)) } (s₁.cmdLocks c [] s.nextId i)
  exact ⟨locks, congrArg (fun k => { s₁ with cores := smPut s.cores (s.gang c.gang).core k }) hl⟩

/-- What the issue of a matrix instruction leaves: its command in the queue, the depths of its tiles, and its gangs. -/
structure State.queuesMat (s : State) (c : Cursor) (m : MatCmd) (d : Nat → Nat) (gangs : List (Nat × Gang)) (t : State) : Prop where
  entered : smFind (t.core (s.gang c.gang).core).matq s.nextId = some m
  others : ∀ id, id ≠ s.nextId → smFind (t.core (s.gang c.gang).core).matq id = smFind (s.core (s.gang c.gang).core).matq id
  depth : ∀ z, smGet 0 (t.group (s.gang c.gang).group).depth z = d z
  wf : smWf 0 (t.group (s.gang c.gang).group).depth = true
  group : (smFind t.groups (s.gang c.gang).group).isSome = true
  mem : t.mem = s.mem
  tiles : ∀ h, (t.group h).spad = (s.group h).spad ∧ (t.group h).z = (s.group h).z
  dev : t.dev = s.dev
  gangs : t.gangs = gangs

namespace State.queuesMat

variable {s t : State} {c : Cursor} {m : MatCmd} {d : Nat → Nat} {gangs : List (Nat × Gang)}

theorem queueMat (hgrp : (smFind s.groups (s.gang c.gang).group).isSome = true) (hwf : smWf 0 (s.group (s.gang c.gang).group).depth = true)
    (i : Instr) (f : MatCmd → MatCmd) :
    s.queuesMat c (f (s.matCmd c i)) (fun z => smGet 0 (s.group (s.gang c.gang).group).depth z) s.gangs (s.queueMat c i f) := by
  obtain ⟨locks, h⟩ := s.queueMat_eq c i f
  rw [h]
  refine ⟨?_, fun id hid => ?_, fun _ => rfl, hwf, hgrp, rfl, fun _ => ⟨rfl, rfl⟩, rfl, rfl⟩
  · rw [State.core_modCore_same]
    exact smFind_smPut_same _ _ _
  · rw [State.core_modCore_same]
    exact smFind_smPut_other _ _ _ _ hid

/-- What changes no queue of the core keeps the command. -/
theorem modCore (ht : s.queuesMat c m d gangs t) (f : Core → Core) (hf : ∀ k, (f k).matq = k.matq) :
    s.queuesMat c m d gangs (t.modCore (s.gang c.gang).core f) := by
  refine ⟨?_, fun id hid => ?_, ht.depth, ht.wf, ht.group, ht.mem, ht.tiles, ht.dev, ht.gangs⟩
  · rw [State.core_modCore_same, hf]
    exact ht.entered
  · rw [State.core_modCore_same, hf]
    exact ht.others id hid

theorem setDepth (ht : s.queuesMat c m d gangs t) (z : Nat) (f : Nat → Nat) :
    s.queuesMat c m (fun y => if y = z then f (d y) else d y) gangs (t.setDepth (s.gang c.gang).group z f) := by
  have hg := State.group_modGroup_same (fun x => { x with depth := smSet 0 x.depth z (f (smGet 0 x.depth z)) }) ht.group
  refine ⟨ht.entered, ht.others, fun y => ?_, ?_, ?_, ht.mem, fun h => ?_, ht.dev, ht.gangs⟩
  · show smGet 0 ((t.modGroup _ _).group _).depth y = _
    rw [hg]
    show smGet 0 (smSet 0 (t.group _).depth z (f (smGet 0 (t.group _).depth z))) y = _
    by_cases hy : y = z
    · rw [if_pos hy, hy, smGet_smSet_same (h := ht.wf), ht.depth]
    · rw [if_neg hy, smGet_smSet_ne _ _ _ hy, ht.depth]
  · show smWf 0 ((t.modGroup _ _).group _).depth = true
    rw [hg]
    exact smSet_wf _ _ _ ht.wf
  · exact isSome_smMod _ (fun x => { x with depth := smSet 0 x.depth z (f (smGet 0 x.depth z)) }) ht.group
  · by_cases hh : h = (s.gang c.gang).group
    · show ((t.modGroup _ _).group h).spad = _ ∧ ((t.modGroup _ _).group h).z = _
      rw [hh, hg]
      exact ht.tiles _
    · show ((t.modGroup _ _).group h).spad = _ ∧ ((t.modGroup _ _).group h).z = _
      rw [State.group_modGroup_other _ _ hh]
      exact ht.tiles h

theorem modGang (ht : s.queuesMat c m d gangs t) (f : Gang → Gang) : s.queuesMat c m d (smMod gangs c.gang f) (t.modGang c.gang f) :=
  ⟨ht.entered, ht.others, ht.depth, ht.wf, ht.group, ht.mem, ht.tiles, ht.dev, congrArg (smMod · c.gang f) ht.gangs⟩

theorem depths (ht : s.queuesMat c m d gangs t) {d' : Nat → Nat} (h : ∀ z, d z = d' z) : s.queuesMat c m d' gangs t :=
  (funext h : d = d') ▸ ht

theorem sameRegs (ht : s.queuesMat c m d s.gangs t) : s.sameRegs t := State.sameRegs_of_gangs ht.dev ht.gangs

end State.queuesMat

/-! The states of R71 under an RS output. -/

theorem Gang.advanceG_eq (g : Gang) (lanes : List Nat) (n : Nat) : ∃ x, g.advanceG lanes n = { g with g := x } := by
  unfold Gang.advanceG
  induction lanes generalizing g with
  | nil => exact ⟨g.g, rfl⟩
  | cons i lanes ih =>
    obtain ⟨x, h⟩ := ih (g.setG i ((List.range n).foldl (fun x _ => (rsNext x).1) (g.gReg i)))
    exact ⟨x, h⟩

/-- Such an output changes a gang by at most those states. -/
def State.outGangs (s : State) (c : Cursor) (rs : Bool) (lanes : List Nat) : List (Nat × Gang) :=
  if rs then smMod s.gangs c.gang (fun g => g.advanceG lanes 64) else s.gangs

/-- A gang with its states of R71 as they were. -/
def Gang.withG (x : List (Nat × Word)) (g : Gang) : Gang := { g with g := x }

/-- Once they are put back, every gang is as it was. -/
theorem State.outGangs_withG (s : State) (c : Cursor) (rs : Bool) (lanes : List Nat) (u : Nat) :
    (smFind (smMod (s.outGangs c rs lanes) c.gang (Gang.withG (s.gang c.gang).g)) u).getD default = s.gang u := by
  have hadv : ∀ g : Gang, (g.advanceG lanes 64).withG g.g = g := fun g => by
    obtain ⟨x, hx⟩ := g.advanceG_eq lanes 64
    rw [hx]
    rfl
  by_cases hu : u = c.gang
  · rw [hu, State.gang]
    cases hs : smFind s.gangs c.gang with
    | none => cases rs <;> simp [State.outGangs, smFind_smMod, hs]
    | some g =>
      cases rs with
      | false => simp [State.outGangs, smFind_smMod, hs, Gang.withG]
      | true => simp [State.outGangs, smFind_smMod, hs, hadv]
  · cases rs <;> simp [State.outGangs, smFind_smMod, hu, State.gang]

theorem State.queuesMat.restored {s t : State} {c : Cursor} {m : MatCmd} {d : Nat → Nat} {rs : Bool} {lanes : List Nat}
    (ht : s.queuesMat c m d (s.outGangs c rs lanes) t) :
    s.sameRegs (t.modGang c.gang (Gang.withG (s.gang c.gang).g)) ∧ (rs = false → s.sameRegs t) := by
  refine ⟨⟨ht.dev, fun u => ?_⟩, fun hrs => ?_⟩
  · have hgang : (t.modGang c.gang (Gang.withG (s.gang c.gang).g)).gang u = s.gang u := by
      rw [← s.outGangs_withG c rs lanes u, ← ht.gangs]
      rfl
    rw [hgang]
    exact Gang.keepsRegs_refl _
  · subst hrs
    exact ht.sameRegs

/-- What a matrix instruction does at issue, of the claim that speaks of it. -/
def State.queued (s : State) (c : Cursor) (i : Instr) (p : MatCmd → Prop) (d : Nat → Nat) (rs : Bool) : Prop :=
  ∃ t m, exec i s = .next t ∧ smFind (t.core (s.gang c.gang).core).matq s.nextId = some m
    ∧ m.i = i ∧ m.gang = c.gang ∧ m.group = (s.gang c.gang).group ∧ m.slices = c.slices ∧ m.pc = c.pc ∧ m.issued = c.cyc ∧ m.fired = none ∧ p m
    ∧ (∀ id, id ≠ s.nextId → smFind (t.core (s.gang c.gang).core).matq id = smFind (s.core (s.gang c.gang).core).matq id)
    ∧ (∀ z, smGet 0 (t.group (s.gang c.gang).group).depth z = d z) ∧ t.mem = s.mem
    ∧ (∀ h, (t.group h).spad = (s.group h).spad ∧ (t.group h).z = (s.group h).z)
    ∧ s.sameRegs (t.modGang c.gang (fun x => { x with g := (s.gang c.gang).g })) ∧ (rs = false → s.sameRegs t)

/-- A command keeps the fields that every matrix instruction fills in alike. -/
def MatCmd.fills (f : MatCmd → MatCmd) (m : MatCmd) : Prop :=
  (f m).i = m.i ∧ (f m).gang = m.gang ∧ (f m).group = m.group ∧ (f m).slices = m.slices ∧ (f m).pc = m.pc ∧ (f m).issued = m.issued ∧ (f m).fired = m.fired

theorem State.queued_of {s t : State} {c : Cursor} {i : Instr} {f : MatCmd → MatCmd} {p : MatCmd → Prop} {d d' : Nat → Nat} {rs : Bool} {lanes : List Nat}
    (hrun : exec i s = .next t) (ht : s.queuesMat c (f (s.matCmd c i)) d (s.outGangs c rs lanes) t) (hf : MatCmd.fills f (s.matCmd c i))
    (hp : p (f (s.matCmd c i))) (hd : ∀ z, d z = d' z) : s.queued c i p d' rs := by
  obtain ⟨hi, hgang, hgroup, hslices, hpc, hissued, hfired⟩ := hf
  exact ⟨t, _, hrun, ht.entered, hi, hgang, hgroup, hslices, hpc, hissued, hfired, hp, ht.others, fun z => (ht.depth z).trans (hd z), ht.mem, ht.tiles, ht.restored⟩

/-! The A operand. -/

/-- A fold of writes reads, at each place written once or always with one value, that value. -/
theorem smGet_foldl_smSet {α β : Type} [DecidableEq β] (b : β) (key : α → Nat) (val : α → β) (xs : List α) :
    ∀ m, smWf b m = true → (∀ x ∈ xs, ∀ y ∈ xs, key x = key y → val x = val y) →
      smWf b (xs.foldl (fun m x => smSet b m (key x) (val x)) m) = true
      ∧ ∀ x ∈ xs, smGet b (xs.foldl (fun m x => smSet b m (key x) (val x)) m) (key x) = val x := by
  induction xs using List.reverseRecOn with
  | nil => exact fun m hm _ => ⟨hm, by simp⟩
  | append_singleton xs y ih =>
    intro m hm hone
    obtain ⟨hwf, hval⟩ := ih m hm fun a ha c hc => hone a (by simp [ha]) c (by simp [hc])
    rw [List.foldl_append]
    refine ⟨smSet_wf _ _ _ hwf, fun x hx => ?_⟩
    by_cases hk : key x = key y
    · show smGet b (smSet b _ (key y) (val y)) (key x) = _
      rw [hk, smGet_smSet_same (h := hwf)]
      exact (hone x hx y (by simp) hk).symm
    · show smGet b (smSet b _ (key y) (val y)) (key x) = _
      rw [smGet_smSet_ne _ _ _ hk]
      exact hval x (by
        rcases List.mem_append.mp hx with h | h
        · exact h
        · exact absurd (congrArg key (List.mem_singleton.mp h)) hk)

theorem Shape.regs_le (h : Shape) : h.regs ≤ 16 := by cases h <;> decide

/-- The captured A operand reads each register of each live lane (R215). -/
theorem State.captureA_reads (s : State) (c : Cursor) (va : Nat) {n : Nat} (hn : n ≤ 16) {l r : Nat} (hl : l ∈ (s.gang c.gang).liveLanes) (hr : r < n) :
    (smGet (0 : Word) (s.captureA c va n) (l * 16 + r)).toNat = s.readV c l (va + r) := by
  let pairs := (s.gang c.gang).liveLanes.flatMap (fun i => (List.range n).map (fun r => (i, r)))
  have hfold : s.captureA c va n = pairs.foldl (fun m x => smSet 0 m (x.1 * 16 + x.2) (BitVec.ofNat 32 (s.readV c x.1 (va + x.2)))) [] := by
    simp only [pairs, List.foldl_flatMap, List.foldl_map]
    rfl
  have hmem : ∀ x ∈ pairs, x.2 < n := fun x hx => by
    obtain ⟨i, _, hx⟩ := List.mem_flatMap.mp hx
    obtain ⟨r, hr, rfl⟩ := List.mem_map.mp hx
    exact List.mem_range.mp hr
  have hone : ∀ x ∈ pairs, ∀ y ∈ pairs, x.1 * 16 + x.2 = y.1 * 16 + y.2 →
      BitVec.ofNat 32 (s.readV c x.1 (va + x.2)) = BitVec.ofNat 32 (s.readV c y.1 (va + y.2)) := fun x hx y hy hk => by
    have h1 := hmem x hx
    have h2 := hmem y hy
    have hxy : x = y := Prod.ext (by omega) (by omega)
    rw [hxy]
  rw [hfold, (smGet_foldl_smSet (0 : Word) (fun x : Nat × Nat => x.1 * 16 + x.2) _ pairs [] rfl hone).2 (l, r)
    (List.mem_flatMap.mpr ⟨l, hl, List.mem_map.mpr ⟨r, List.mem_range.mpr hr, rfl⟩⟩), BitVec.toNat_ofNat,
    Nat.mod_eq_of_lt (s.readV_lt c l (va + r))]

/-- Every shape of a format of A takes as many registers as the latch holds of it. -/
theorem regs_le_latchRegs {fb fmt : Nat} (h : tyOf (fbA fb) = tyOf fmt) : (shapeOf fb).elim 0 Shape.regs ≤ latchRegs fmt := by
  unfold latchRegs
  split
  · next hf =>
    unfold shapeOf
    rw [h, hf]
    cases tyOf (fbB fb) <;> decide
  · cases shapeOf fb with
    | none => exact Nat.zero_le _
    | some x => exact x.regs_le

/-- In a chain of one AFMT an MMA takes the A of the latch as it is (R215, R216). -/
theorem Al.take_same (x : Al) (serial : Nat) {n : Nat} (lanes : List Nat) (h : n ≤ latchRegs x.fmt) : x.take serial n lanes = x.a := by
  have hnone : (List.range n).filter (fun r => latchRegs x.fmt ≤ r) = [] := by
    rw [List.filter_eq_nil_iff]
    intro r hr
    have := List.mem_range.mp hr
    simp
    omega
  unfold Al.take
  rw [hnone]
  induction lanes with
  | nil => rfl
  | cons l lanes ih => exact ih

/-! The matrix instructions. -/

/-- The rows of a command are the active lanes (R208). -/
theorem State.rows_iff (s : State) (c : Cursor) (gd : Guard) (l : Nat) : (s.rows c gd).testBit l = true ↔ l ∈ s.active c gd := by
  rw [State.rows, testBit_maskOf, decide_eq_true_iff]

/-- The A operand of an MMA: from the latch where its gang owns it, else from the registers (R215). -/
def State.mmaA (s : State) (c : Cursor) (o : XMma) : List (Nat × Word) :=
  let n := (shapeOf (s.readS c o.sy)).elim 0 Shape.regs
  match (s.core (s.gang c.gang).core).al with
  | some x => if decide (x.gang = c.gang) then x.take c.draw n (s.gang c.gang).liveLanes else s.captureA c o.va n
  | none => s.captureA c o.va n

/-- The reuse latch after an MMA (R215). -/
def State.mmaAl (s : State) (c : Cursor) (o : XMma) : Option Al :=
  match (s.core (s.gang c.gang).core).al with
  | none => if o.ru then some ⟨c.gang, o.va, fbA (s.readS c o.sy), s.captureA c o.va ((shapeOf (s.readS c o.sy)).elim 0 Shape.regs)⟩ else none
  | some x => if decide (x.gang = c.gang) && !o.ru then none else some x

/-- The fields that MMA, MMAC, ZLD and ZCLR fill in. -/
def State.mmaCmd (s : State) (c : Cursor) (o : XMma) (m : MatCmd) : MatCmd :=
  { m with rows := s.rows c o.g, fb := s.readS c o.sy, sx := s.readS c o.sx, a := s.mmaA c o, afb := s.readS c o.sy }

/-- The key of the instances of a set on a core (R221). -/
def State.mmacKey (s : State) (c : Cursor) (o : XMmac) : Nat := (s.gang c.gang).ctx * 32 + o.set * 2 + o.half

@[inherit_doc State.mmaCmd] def State.mmacCmd (s : State) (c : Cursor) (o : XMmac) (m : MatCmd) : MatCmd :=
  { m with
    rows := s.rows c o.g, fb := s.readS c o.sy, sx := s.readS c o.sx, a := s.captureA c o.va ((shapeOf (s.readS c o.sy)).elim 0 Shape.regs)
    inst := smGet 0 (s.core (s.gang c.gang).core).mmacs (s.mmacKey c o), afb := s.readS c o.sy }

@[inherit_doc State.mmaCmd] def State.zldCmd (s : State) (c : Cursor) (o : XZld) (m : MatCmd) : MatCmd :=
  { m with rows := s.rows c o.g, sx := s.readS c o.sx, sz := s.readS c o.sz }

@[inherit_doc State.mmaCmd] def State.zclrCmd (s : State) (c : Cursor) (o : XZclr) (m : MatCmd) : MatCmd := { m with rows := s.rows c o.g }

theorem exec_mma {s : State} {c : Cursor} {o : XMma} (h : s.issues c (.mma o)) :
    exec (.mma o) s = .next (((s.queueMat c (.mma o) (s.mmaCmd c o)).modCore (s.gang c.gang).core
        (fun k => { k with al := s.mmaAl c o })).setDepth (s.gang c.gang).group o.zt (· + 1)) := by
  show execMma o s = _
  rw [execMma, slot_issues _ h]
  dsimp only
  unfold State.mmaCmd State.mmaA State.mmaAl
  cases (s.core (s.gang c.gang).core).al <;> rfl

/-- An output command stands in the queue with its operands and its random values (R219, R220). -/
def State.outCmd (s : State) (c : Cursor) (o : XZst) (m : MatCmd) : MatCmd :=
  { m with rows := s.rows c o.g, fb := s.readS c o.sy, sx := s.readS c o.sx, sz := s.readS c o.sz, rnd := s.rowDraws c o.g (s.readS c o.sy) }

theorem outQueued {s : State} {c : Cursor} {i : Instr} {o : XZst} {t : State} {d : Nat → Nat} (hrun : exec i s = .next t)
    (ht : s.queuesMat c (s.outCmd c o (s.matCmd c i)) d (s.outGangs c (decide (fbOrm (s.readS c o.sy) = 4)) (s.active c o.g)) t) : s.queued c i
    (fun m => (∀ l, l < 64 → (m.rows.testBit l = true ↔ l ∈ s.active c o.g)) ∧ m.fb = s.readS c o.sy ∧ m.sx = s.readS c o.sx ∧ m.sz = s.readS c o.sz)
    d (decide (fbOrm (s.readS c o.sy) = 4)) :=
  State.queued_of hrun ht ⟨rfl, rfl, rfl, rfl, rfl, rfl, rfl⟩ ⟨fun l _ => s.rows_iff c o.g l, rfl, rfl, rfl⟩ fun _ => rfl

section
variable {s : State} {c : Cursor}

theorem State.mmaA_latch {o : XMma} {x : Al} (hx : (s.core (s.gang c.gang).core).al = some x) (hgang : x.gang = c.gang)
    (hty : tyOf (fbA (s.readS c o.sy)) = tyOf x.fmt) : s.mmaA c o = x.a := by
  unfold State.mmaA
  rw [hx]
  dsimp only
  rw [if_pos (by simp [hgang])]
  exact x.take_same _ _ (regs_le_latchRegs hty)

theorem State.mmaA_regs {o : XMma} (hal : (s.core (s.gang c.gang).core).al = none ∨ ∃ x, (s.core (s.gang c.gang).core).al = some x ∧ x.gang ≠ c.gang)
    {h : Shape} (hs : shapeOf (s.readS c o.sy) = some h) {l r : Nat} (hl : l ∈ (s.gang c.gang).liveLanes) (hr : r < h.regs) :
    (smGet (0 : Word) (s.mmaA c o) (l * 16 + r)).toNat = s.readV c l (o.va + r) := by
  have hA : s.mmaA c o = s.captureA c o.va h.regs := by
    unfold State.mmaA
    rw [hs]
    rcases hal with hal | ⟨x, hal, hne⟩
    · rw [hal]
      rfl
    · rw [hal]
      dsimp only
      rw [if_neg (by simp [hne])]
      rfl
  rw [hA]
  exact s.captureA_reads c o.va h.regs_le hl hr

variable (hgrp : (smFind s.groups (s.gang c.gang).group).isSome = true) (hwf : smWf 0 (s.group (s.gang c.gang).group).depth = true)
include hgrp hwf

theorem mmaQueued {o : XMma} (h : s.issues c (.mma o)) : s.queued c (.mma o)
    (fun m => (∀ l, l < 64 → (m.rows.testBit l = true ↔ l ∈ s.active c o.g)) ∧ m.fb = s.readS c o.sy ∧ m.sx = s.readS c o.sx
      ∧ (∀ x, (s.core (s.gang c.gang).core).al = some x → x.gang = c.gang → tyOf (fbA (s.readS c o.sy)) = tyOf x.fmt → m.a = x.a)
      ∧ (((s.core (s.gang c.gang).core).al = none ∨ ∃ x, (s.core (s.gang c.gang).core).al = some x ∧ x.gang ≠ c.gang) → ∀ h, shapeOf m.fb = some h →
          ∀ l ∈ (s.gang c.gang).liveLanes, ∀ r < h.regs, (smGet (0 : Word) m.a (l * 16 + r)).toNat = s.readV c l (o.va + r)))
    (fun z => if z = o.zt then smGet 0 (s.group (s.gang c.gang).group).depth z + 1 else smGet 0 (s.group (s.gang c.gang).group).depth z) false :=
  State.queued_of (rs := false) (lanes := []) (f := s.mmaCmd c o)
    (exec_mma h) (((State.queuesMat.queueMat hgrp hwf (.mma o) (s.mmaCmd c o)).modCore (fun k => { k with al := s.mmaAl c o }) fun _ => rfl).setDepth o.zt (· + 1))
    ⟨rfl, rfl, rfl, rfl, rfl, rfl, rfl⟩
    ⟨fun l _ => s.rows_iff c o.g l, rfl, rfl, fun _ hx hg hty => State.mmaA_latch hx hg hty, fun hal _ hs _ hl _ hr => State.mmaA_regs hal hs hl hr⟩
    fun _ => rfl

theorem mmacQueued {o : XMmac} (h : s.issues c (.mmac o)) : s.queued c (.mmac o)
    (fun m => (∀ l, l < 64 → (m.rows.testBit l = true ↔ l ∈ s.active c o.g)) ∧ m.fb = s.readS c o.sy ∧ m.sx = s.readS c o.sx
      ∧ m.inst = smGet 0 (s.core (s.gang c.gang).core).mmacs ((s.gang c.gang).ctx * 32 + o.set * 2 + o.half))
    (fun z => if z = o.zt ∨ z = o.zu then smGet 0 (s.group (s.gang c.gang).group).depth z + 1 else smGet 0 (s.group (s.gang c.gang).group).depth z) false := by
  have h₁ := ((State.queuesMat.queueMat hgrp hwf (.mmac o) (s.mmacCmd c o)).modCore (fun k => { k with
    mmacs := smSet 0 k.mmacs (s.mmacKey c o) (smGet 0 (s.core (s.gang c.gang).core).mmacs (s.mmacKey c o) + 1) }) fun _ => rfl).setDepth o.zt (· + 1)
  have hrun := (show exec (.mmac o) s = execMmac o s from rfl).trans (slot_issues _ h)
  dsimp only at hrun
  by_cases hz : o.zu = o.zt
  · rw [if_pos hz] at hrun
    exact State.queued_of (rs := false) (lanes := []) (f := s.mmacCmd c o) hrun h₁ ⟨rfl, rfl, rfl, rfl, rfl, rfl, rfl⟩
      ⟨fun l _ => s.rows_iff c o.g l, rfl, rfl, rfl⟩ fun z => if_congr (by simp [hz]) rfl rfl
  · rw [if_neg hz] at hrun
    refine State.queued_of (rs := false) (lanes := []) (f := s.mmacCmd c o) hrun (h₁.setDepth o.zu (· + 1)) ⟨rfl, rfl, rfl, rfl, rfl, rfl, rfl⟩
      ⟨fun l _ => s.rows_iff c o.g l, rfl, rfl, rfl⟩ fun z => ?_
    by_cases h1 : z = o.zu
    · rw [if_pos h1, if_pos (Or.inr h1), if_neg fun h2 => hz (Fin.ext (h1.symm.trans h2))]
    · rw [if_neg h1]
      exact if_congr (by simp [h1]) rfl rfl

theorem zldQueued {o : XZld} (h : s.issues c (.zld o)) : s.queued c (.zld o)
    (fun m => (∀ l, l < 64 → (m.rows.testBit l = true ↔ l ∈ s.active c o.g)) ∧ m.sx = s.readS c o.sx ∧ m.sz = s.readS c o.sz)
    (fun z => if z = o.zt then 0 else smGet 0 (s.group (s.gang c.gang).group).depth z) false :=
  State.queued_of (rs := false) (lanes := []) (f := s.zldCmd c o)
    ((show exec (.zld o) s = execZld o s from rfl).trans (slot_issues _ h))
    ((State.queuesMat.queueMat hgrp hwf (.zld o) (s.zldCmd c o)).setDepth o.zt (fun _ => 0)) ⟨rfl, rfl, rfl, rfl, rfl, rfl, rfl⟩
    ⟨fun l _ => s.rows_iff c o.g l, rfl, rfl⟩ fun _ => rfl

theorem zclrQueued {o : XZclr} (h : s.issues c (.zclr o)) : s.queued c (.zclr o)
    (fun m => ∀ l, l < 64 → (m.rows.testBit l = true ↔ l ∈ s.active c o.g))
    (fun z => if z = o.zt then 0 else smGet 0 (s.group (s.gang c.gang).group).depth z) false :=
  State.queued_of (rs := false) (lanes := []) (f := s.zclrCmd c o)
    ((show exec (.zclr o) s = execZclr o s from rfl).trans (slot_issues _ h))
    ((State.queuesMat.queueMat hgrp hwf (.zclr o) (s.zclrCmd c o)).setDepth o.zt (fun _ => 0)) ⟨rfl, rfl, rfl, rfl, rfl, rfl, rfl⟩
    (fun l _ => s.rows_iff c o.g l) fun _ => rfl

theorem zretQueued {o : XZret} (h : s.issues c (.zret o)) : s.queued c (.zret o) (fun _ => True)
    (fun z => if z = o.zt then 0 else smGet 0 (s.group (s.gang c.gang).group).depth z) false :=
  State.queued_of (rs := false) (lanes := []) (f := id) ((show exec (.zret o) s = execZret o s from rfl).trans (slot_issues _ h))
    ((State.queuesMat.queueMat hgrp hwf (.zret o) id).setDepth o.zt (fun _ => 0)) ⟨rfl, rfl, rfl, rfl, rfl, rfl, rfl⟩ trivial fun _ => rfl

theorem State.queuesMat.queueOut (i : Instr) (o : XZst) : s.queuesMat c (s.outCmd c o (s.matCmd c i))
    (fun z => smGet 0 (s.group (s.gang c.gang).group).depth z) (s.outGangs c (decide (fbOrm (s.readS c o.sy) = 4)) (s.active c o.g)) (s.queueOut c i o) := by
  have h₁ := State.queuesMat.queueMat hgrp hwf i (s.outCmd c o)
  have hrun : s.queueOut c i o = if fbOrm (s.readS c o.sy) = 4 then (s.queueMat c i (s.outCmd c o)).modGang c.gang (fun g => g.advanceG (s.active c o.g) 64)
      else s.queueMat c i (s.outCmd c o) := rfl
  rw [hrun]
  by_cases hrs : fbOrm (s.readS c o.sy) = 4
  · rw [if_pos hrs, decide_eq_true hrs]
    exact h₁.modGang (fun g => g.advanceG (s.active c o.g) 64)
  · rw [if_neg hrs, decide_eq_false hrs]
    exact h₁

end

theorem matrixCommandsEnterTheQueue : Claims.MatrixCommandsEnterTheQueue := by
  intro s c g depth queued rows
  refine ⟨fun o h hg hw => mmaQueued hg hw h, fun o h hg hw => mmacQueued hg hw h, fun o h hg hw => zldQueued hg hw h, fun o h hg hw => ?_,
    fun o h hg hw => zclrQueued hg hw h, fun o h hg hw => zretQueued hg hw h, fun o h hg hw => ?_, fun o h hg hw => ?_⟩
  · exact outQueued ((show exec (.zst o) s = execZst o s from rfl).trans (slot_issues _ h)) (State.queuesMat.queueOut hg hw (.zst o) o)
  · exact outQueued ((show exec (.zretSp o) s = execZretSp o s from rfl).trans (slot_issues _ h))
      ((State.queuesMat.queueOut hg hw (.zretSp o) o).setDepth o.zt (fun _ => 0))
  · exact outQueued ((show exec (.zretG o) s = execZretG o s from rfl).trans (slot_issues _ h))
      ((State.queuesMat.queueOut hg hw (.zretG o) o).setDepth o.zt (fun _ => 0))

theorem reuseLatchHoldsAChain : Claims.ReuseLatchHoldsAChain := by
  intro s c o h core
  have hal : ∀ f : Nat → Nat, ∀ t : State, ((((t.modCore core (fun k => { k with al := s.mmaAl c o })).setDepth (s.gang c.gang).group o.zt f).core core).al) = s.mmaAl c o :=
    fun f t => by
      exact congrArg Core.al (State.core_modCore_same t core (fun k => { k with al := s.mmaAl c o }))
  refine ⟨_, exec_mma h, fun hn hru => ?_, fun hn hru => ?_, fun x hx hg => ?_, fun x hx hg => ?_⟩ <;> rw [hal, State.mmaAl]
  · rw [hn]
    simp [hru]
  · rw [hn]
    exact ⟨⟨c.gang, o.va, fbA (s.readS c o.sy), s.captureA c o.va ((shapeOf (s.readS c o.sy)).elim 0 Shape.regs)⟩, by simp [hru], rfl, rfl, rfl⟩
  · rw [hx]
    cases o.ru <;> simp [hg]
  · rw [hx]
    simp [hg]

/-- Settles O32: each instruction enters one command with its operands, changes the depths of its tiles, and of the gangs at most the states of R71. -/
theorem matrixCommandsAndReuse : Obligations.MatrixCommandsAndReuse :=
  ⟨matrixCommandsEnterTheQueue, reuseLatchHoldsAChain⟩

end Sys2Proof.Machine
end

section
/-! Matrix commands complete, and instances of the cluster multiply fire (R75, R206, R208, R214, R219, R221, R222). -/

namespace Sys2Proof.Machine

/-! Words of a tile. -/

/-- After writes whose values follow their places, a written place reads its value and every other one reads as before. -/
theorem smGet_smSetAll {α : Type} [DecidableEq α] (d : α) (val : Nat → α) (ws : List (Nat × α)) :
    ∀ m, smWf d m = true → (∀ w ∈ ws, w.2 = val w.1) →
      ∀ i, smGet d (smSetAll d m ws) i = if ∃ w ∈ ws, w.1 = i then val i else smGet d m i := by
  induction ws with
  | nil => exact fun m _ _ i => by simp [smSetAll]
  | cons w ws ih =>
    intro m hm hval i
    have hrest := ih (smSet d m w.1 w.2) (smSet_wf _ _ _ hm) (fun x hx => hval x (by simp [hx])) i
    have hcons : smSetAll d m (w :: ws) = smSetAll d (smSet d m w.1 w.2) ws := rfl
    rw [hcons, hrest]
    by_cases hin : ∃ x ∈ ws, x.1 = i
    · rw [if_pos hin, if_pos (by obtain ⟨x, hx, h⟩ := hin; exact ⟨x, by simp [hx], h⟩)]
    · rw [if_neg hin]
      by_cases hw : w.1 = i
      · rw [if_pos ⟨w, by simp, hw⟩, ← hw, smGet_smSet_same (h := hm), hval w (by simp)]
      · rw [smGet_smSet_ne _ _ _ (Ne.symm hw), if_neg]
        rintro ⟨x, hx, h⟩
        rcases List.mem_cons.mp hx with rfl | hx
        · exact hw h
        · exact hin ⟨x, hx, h⟩

/-- A filter on keys keeps what it passes, and the rest reads the default. -/
theorem smGet_filter_key {α : Type} (d : α) (p : Nat → Bool) (m : List (Nat × α)) (i : Nat) :
    smGet d (m.filter (fun e => p e.1)) i = if p i then smGet d m i else d := by
  induction m with
  | nil => simp [smGet]
  | cons e m ih =>
    obtain ⟨k, v⟩ := e
    by_cases hk : k = i
    · subst hk
      cases hp : p k
      · simp_all
      · simp [hp, smGet]
    · cases hp : p k
      · simpa [hp, smGet, hk] using ih
      · simpa [hp, smGet, hk] using ih

/-- The words of the active rows of a tile, with their new values. -/
def tileWords (rows t : Nat) (val : Nat → Nat → Nat) : List (Nat × Word) :=
  (rowList rows).flatMap (fun i => (List.range 64).map (fun n => (t * 4096 + i * 64 + n, BitVec.ofNat 32 (val i n))))

/-- Written, they read those values; every other word of every tile is as it was (R214, R219). -/
theorem Group.zWord_setZ {x : Group} (hwf : smWf (0 : Word) x.z = true) (rows t : Nat) (val : Nat → Nat → Nat) {z i n : Nat} (hi : i < 64) (hn : n < 64) :
    (x.setZ (tileWords rows t val)).zWord z i n = if z = t ∧ rows.testBit i = true then val i n % 2 ^ 32 else x.zWord z i n := by
  let word := fun k : Nat => BitVec.ofNat 32 (val (k / 64 % 64) (k % 64))
  have hval : ∀ w ∈ tileWords rows t val, w.2 = word w.1 := fun w hw => by
    obtain ⟨j, hj, hw⟩ := List.mem_flatMap.mp hw
    obtain ⟨k, hk, rfl⟩ := List.mem_map.mp hw
    have hj := (mem_bitsOf.mp hj).1
    have hk := List.mem_range.mp hk
    have h1 : (t * 4096 + j * 64 + k) / 64 % 64 = j := by omega
    have h2 : (t * 4096 + j * 64 + k) % 64 = k := by omega
    show BitVec.ofNat 32 (val j k) = BitVec.ofNat 32 (val _ _)
    rw [h1, h2]
  have hmem : (∃ w ∈ tileWords rows t val, w.1 = z * 4096 + i * 64 + n) ↔ z = t ∧ rows.testBit i = true := by
    constructor
    · rintro ⟨w, hw, hk⟩
      obtain ⟨j, hj, hw⟩ := List.mem_flatMap.mp hw
      obtain ⟨k, hk', rfl⟩ := List.mem_map.mp hw
      obtain ⟨hj, hb⟩ := mem_bitsOf.mp hj
      have hk' := List.mem_range.mp hk'
      have hkey : t * 4096 + j * 64 + k = z * 4096 + i * 64 + n := hk
      have hji : j = i := by omega
      exact ⟨by omega, hji ▸ hb⟩
    · rintro ⟨rfl, hb⟩
      exact ⟨(z * 4096 + i * 64 + n, BitVec.ofNat 32 (val i n)),
        List.mem_flatMap.mpr ⟨i, mem_bitsOf.mpr ⟨hi, hb⟩, List.mem_map.mpr ⟨n, List.mem_range.mpr hn, rfl⟩⟩, rfl⟩
  have hget := smGet_smSetAll (0 : Word) word (tileWords rows t val) x.z hwf hval (z * 4096 + i * 64 + n)
  have h1 : (z * 4096 + i * 64 + n) / 64 % 64 = i := by omega
  have h2 : (z * 4096 + i * 64 + n) % 64 = n := by omega
  rw [if_congr hmem rfl rfl] at hget
  show (smGet (0 : Word) (smSetAll 0 x.z (tileWords rows t val)) (z * 4096 + i * 64 + n)).toNat = _
  rw [hget]
  by_cases h : z = t ∧ rows.testBit i = true
  · rw [if_pos h, if_pos h]
    show (BitVec.ofNat 32 (val _ _)).toNat = _
    rw [h1, h2, BitVec.toNat_ofNat]
  · rw [if_neg h, if_neg h]
    rfl

/-- A group with other tile words, and other errors in them. -/
def Group.withTiles (z : List (Nat × Word)) (bad : List Nat) (x : Group) : Group := { x with z := z, badZ := bad }

theorem Group.setZ_eq (x : Group) (ws : List (Nat × Word)) :
    x.setZ ws = x.withTiles (smSetAll 0 x.z ws) (x.badZ.filter (fun k => ws.all (fun w => w.1 ≠ k))) := rfl

theorem Group.spad_setZ (x : Group) (ws : List (Nat × Word)) : (x.setZ ws).spad = x.spad := rfl

theorem Group.setZ_nil (x : Group) : x.setZ [] = x := by
  have hb : x.badZ.filter (fun k => ([] : List (Nat × Word)).all (fun w => w.1 ≠ k)) = x.badZ := List.filter_eq_self.mpr fun _ _ => rfl
  rw [Group.setZ_eq, hb]
  rfl

theorem Group.setZ_setZ (x : Group) (a b : List (Nat × Word)) : (x.setZ a).setZ b = x.setZ (a ++ b) := by
  have hz : smSetAll 0 (x.setZ a).z b = smSetAll 0 x.z (a ++ b) := List.foldl_append.symm
  have hb : (x.setZ a).badZ.filter (fun k => b.all (fun w => w.1 ≠ k)) = x.badZ.filter (fun k => (a ++ b).all (fun w => w.1 ≠ k)) := by
    show (x.badZ.filter _).filter _ = _
    rw [List.filter_filter]
    refine List.filter_congr fun k _ => ?_
    rw [List.all_append, Bool.and_comm]
  rw [Group.setZ_eq (x.setZ a), Group.setZ_eq x (a ++ b), hz, hb]
  rfl

theorem State.modGroup_self (s : State) (g : Nat) {f : Group → Group} (hf : ∀ x, f x = x) : s.modGroup g f = s := by
  show { s with groups := smMod s.groups g f } = s
  rw [show f = fun x => x from funext hf, smMod_self]

theorem State.isSome_modGroup {s : State} {g h : Nat} (f : Group → Group) (hh : (smFind s.groups h).isSome = true) :
    (smFind (s.modGroup g f).groups h).isSome = true := isSome_smMod g f hh

theorem State.modGroup_modGroup (s : State) (g : Nat) (a b : Group → Group) : (s.modGroup g a).modGroup g b = s.modGroup g (fun x => b (a x)) := by
  show { s with groups := smMod (smMod s.groups g a) g b } = { s with groups := smMod s.groups g (fun x => b (a x)) }
  rw [smMod_smMod]

/-! The effects of the commands on their group. -/

/-- The word that a row's image gives a column (R219). -/
def State.imageWord (s : State) (m : MatCmd) (i n : Nat) : Nat := ofBytes (((s.spRd m.group (m.rowAt i) 256).drop (4 * n)).take 4)

/-- The words of a row that ZLD loads. -/
def State.loadRow (s : State) (m : MatCmd) (t i : Nat) : List (Nat × Word) :=
  (List.range 64).map (fun n => (t * 4096 + i * 64 + n, BitVec.ofNat 32 (s.imageWord m i n)))

theorem State.spRd_setZ {s : State} {g : Nat} (hg : (smFind s.groups g).isSome = true) (ws : List (Nat × Word)) (a n : Nat) :
    (s.modGroup g (fun x => x.setZ ws)).spRd g a n = s.spRd g a n := by
  rw [State.spRd, State.group_modGroup_same _ hg, Group.spad_setZ, State.spRd]

theorem State.loadRow_setZ {s : State} {m : MatCmd} (hg : (smFind s.groups m.group).isSome = true) (ws : List (Nat × Word)) (t : Nat) :
    (s.modGroup m.group (fun x => x.setZ ws)).loadRow m t = s.loadRow m t := by
  funext i
  unfold State.loadRow State.imageWord
  rw [State.spRd_setZ hg]

/-- Rows loaded one after another are one write of all their words. -/
theorem State.loadRows_eq (m : MatCmd) (t : Nat) (rows : List Nat) : ∀ s : State, (smFind s.groups m.group).isSome = true →
    rows.foldl (fun s i => s.modGroup m.group (fun x => x.setZ (s.loadRow m t i))) s = s.modGroup m.group (fun x => x.setZ (rows.flatMap (s.loadRow m t))) := by
  induction rows with
  | nil => exact fun s _ => (s.modGroup_self m.group fun x => x.setZ_nil).symm
  | cons i rows ih =>
    intro s hg
    rw [List.foldl_cons, ih _ (State.isSome_modGroup _ hg), State.modGroup_modGroup, State.loadRow_setZ hg, List.flatMap_cons]
    exact congrArg (s.modGroup m.group) (funext fun x => x.setZ_setZ _ _)

theorem State.loadTile_eq {s : State} {m : MatCmd} (hg : (smFind s.groups m.group).isSome = true) (t : Nat) :
    s.loadTile m t = s.modGroup m.group (fun x => x.setZ (tileWords m.rows t (s.imageWord m))) :=
  State.loadRows_eq m t (rowList m.rows) s hg

/-- The bytes of an output row, of the tiles of a group (R219). -/
def Group.outRow (x : Group) (m : MatCmd) (t i : Nat) : List Byte :=
  (List.range 64).flatMap (fun n => bytesOf (outSize m.fb) (convOut m.fb (x.zWord t i n) (smGet 0 m.rnd (i * 64 + n))))

/-- The rows of a tile written to the scratchpad, one after another (R219). -/
theorem State.storeTile_eq {s : State} {m : MatCmd} (hg : (smFind s.groups m.group).isSome = true) (t : Nat) : ∃ f : Group → Group,
    s.storeTile m t = s.modGroup m.group f ∧ (f (s.group m.group)).z = (s.group m.group).z
      ∧ (f (s.group m.group)).spad = (rowList m.rows).foldl (fun x i => Memory.writeN x (m.rowAt i) ((s.group m.group).outRow m t i)) (s.group m.group).spad := by
  have hfold : ∀ (rows : List Nat) (s : State), (smFind s.groups m.group).isSome = true → ∃ f : Group → Group,
      rows.foldl (fun s i => s.spWr m.group (m.rowAt i) (s.outRow m t i)) s = s.modGroup m.group f ∧ (f (s.group m.group)).z = (s.group m.group).z
        ∧ (f (s.group m.group)).spad = rows.foldl (fun x i => Memory.writeN x (m.rowAt i) ((s.group m.group).outRow m t i)) (s.group m.group).spad := fun rows => by
    induction rows with
    | nil => exact fun s _ => ⟨id, (s.modGroup_self m.group fun _ => rfl).symm, rfl, rfl⟩
    | cons i rows ih =>
      intro s hg
      let w : Group → Group := fun x => { x with spad := Memory.writeN x.spad (m.rowAt i) (s.outRow m t i) }.clean
        (fun k => m.rowAt i ≤ k && k < m.rowAt i + (s.outRow m t i).length)
      have hgrp : (s.modGroup m.group w).group m.group = w (s.group m.group) := State.group_modGroup_same _ hg
      obtain ⟨f, hf, hz, hsp⟩ := ih (s.modGroup m.group w) (State.isSome_modGroup w hg)
      rw [hgrp] at hz hsp
      refine ⟨fun x => f (w x), ?_, hz.trans rfl, hsp.trans rfl⟩
      rw [List.foldl_cons, ← State.modGroup_modGroup]
      exact hf
  exact hfold (rowList m.rows) s hg

/-- The active rows of a tile cleared (R219). -/
def Group.clearRows (m : MatCmd) (t : Nat) (x : Group) : Group :=
  { x with
    z := x.z.filter (fun e => !(e.1 / 4096 = t && m.rows.testBit (e.1 / 64 % 64)))
    badZ := x.badZ.filter (fun k => !(k / 4096 = t && m.rows.testBit (k / 64 % 64))) }

theorem Group.zWord_clearRows (x : Group) (m : MatCmd) (t : Nat) {z i n : Nat} (hi : i < 64) (hn : n < 64) :
    (x.clearRows m t).zWord z i n = if z = t ∧ m.rows.testBit i = true then 0 else x.zWord z i n := by
  have h1 : (z * 4096 + i * 64 + n) / 64 % 64 = i := by omega
  have h2 : (z * 4096 + i * 64 + n) / 4096 = z := by omega
  show (smGet (0 : Word) (x.z.filter _) (z * 4096 + i * 64 + n)).toNat = _
  rw [smGet_filter_key (0 : Word) (fun k => !(k / 4096 = t && m.rows.testBit (k / 64 % 64))), h1, h2]
  by_cases h : z = t ∧ m.rows.testBit i = true
  · rw [if_pos h, if_neg (by simp [h])]
    rfl
  · rw [if_neg h, if_pos (by simpa [not_and_or] using not_and_or.mp h)]
    rfl

/-- Four bytes are a word. -/
theorem ofBytes_lt (bs : List Byte) : ofBytes bs < 2 ^ (8 * bs.length) := by
  induction bs with
  | nil => exact Nat.one_pos
  | cons b bs ih =>
    have hb := b.isLt
    have h8 : 2 ^ (8 * (bs.length + 1)) = 2 ^ 8 * 2 ^ (8 * bs.length) := by rw [Nat.mul_succ, Nat.add_comm, Nat.pow_add]
    rw [List.length_cons, h8]
    show b.toNat + 256 * ofBytes bs < _
    omega

theorem State.imageWord_lt (s : State) (m : MatCmd) (i n : Nat) : s.imageWord m i n < 2 ^ 32 :=
  (ofBytes_lt _).trans_le (Nat.pow_le_pow_right (by decide) (by rw [List.length_take]; omega))

/-- INT8 products add modulo 2^32 (R75). -/
theorem intDot_eq (abs : List (Int × Int)) (acc : Nat) :
    intDot abs acc = (BitVec.ofNat 32 acc + (abs.map (fun p => BitVec.ofInt 32 p.1 * BitVec.ofInt 32 p.2)).sum).toNat := by
  have hsum : ∀ a : Int, BitVec.ofInt 32 (abs.foldl (fun s p => s + p.1 * p.2) a)
      = BitVec.ofInt 32 a + (abs.map (fun p => BitVec.ofInt 32 p.1 * BitVec.ofInt 32 p.2)).sum := by
    induction abs with
    | nil => exact fun a => (BitVec.add_zero _).symm
    | cons p abs ih =>
      intro a
      rw [List.foldl_cons, ih, List.map_cons, List.sum_cons, BitVec.ofInt_add, BitVec.ofInt_mul, BitVec.add_assoc]
  rw [intDot, wrap_eq_toNat, hsum, BitVec.ofInt_natCast]

theorem State.mulElem_int8 (s : State) (m : MatCmd) (am : List Byte) (cols i n acc : Nat) :
    s.mulElem m .int8 am cols i n acc = (BitVec.ofNat 32 acc + ((List.range 64).map (fun k =>
      (BitVec.ofNat 8 (aCode m.a 8 i k)).signExtend 32 * (BitVec.ofNat 8 (s.bCode m.group (m.sx + n * 64) 8 k)).signExtend 32)).sum).toNat := by
  rw [State.mulElem, if_pos rfl, intDot_eq, List.map_map]
  refine congrArg (fun x => (BitVec.ofNat 32 acc + List.sum x).toNat) (List.map_congr_left fun k _ => ?_)
  show BitVec.ofInt 32 (sx 8 _) * BitVec.ofInt 32 (sx 8 _) = _
  rw [sx_eq_toInt, sx_eq_toInt]
  rfl

/-! A command completes. -/

/-- The core without a command, its range locks gone (R206, R207). -/
def Core.endMat (t id : Nat) (k : Core) : Core := { k.dropLocks id with matq := smDel k.matq id, arrayFree := t }

theorem State.finishMat_eq {s : State} {m : MatCmd} (hf : m.fired = none) (core id : Nat) : s.finishMat core id m =
    (match matFlag m.i with
     | some k => (s.modCore core (Core.endMat (s.cyc core) id)).setFlag m.gang m.slices k
     | none => s.modCore core (Core.endMat (s.cyc core) id)) := by
  unfold State.finishMat
  rw [hf]
  rfl

/-- A ready command at the head of the queue completes: it leaves the queue with its locks, its flag is set, and its group is as the
command leaves it. -/
theorem matrixCommandFires {s : State} {core id : Nat} {m : MatCmd} {rest : List (Nat × MatCmd)} (hq : (s.core core).matq = (id, m) :: rest)
    (hr : s.matReady core id m = true) (hg : (smFind s.groups m.group).isSome = true) (hu : (smFind s.gangs m.gang).isSome = true) (hf : m.fired = none)
    {f : Group → Group} (hrun : s.runMat core id m = (s.modGroup m.group f).finishMat core id m) :
    ∃ t, exec (.matrixCommandComplete core) s = .next t ∧ (t.core core).matq = rest ∧ (∀ e ∈ (t.core core).locks, e.2.owner ≠ id)
      ∧ (∀ k, matFlag m.i = some k → ∀ j < (s.gang m.gang).slices.length, m.slices.testBit j = true → ((s.gang m.gang).slice j).sets ≠ [] →
          ((t.gang m.gang).slice j).flags.set.testBit k = true)
      ∧ t.mem = s.mem ∧ t.group m.group = f (s.group m.group) := by
  let s₁ := s.modGroup m.group f
  let s₂ := s₁.modCore core (Core.endMat (s₁.cyc core) id)
  have hexec : exec (.matrixCommandComplete core) s = .next (s₁.finishMat core id m) := by
    show execMatrixCommandComplete core s = _
    unfold execMatrixCommandComplete
    rw [hq]
    dsimp only
    rw [if_pos hr, hrun]
  have hcore : s₂.core core = Core.endMat (s₁.cyc core) id (s.core core) := State.core_modCore_same _ _ _
  have hmatq : (s₂.core core).matq = rest := by
    rw [hcore]
    show smDel (s.core core).matq id = rest
    rw [hq]
    exact if_pos rfl
  have hlocks : ∀ e ∈ (s₂.core core).locks, e.2.owner ≠ id := fun e he => by
    rw [hcore] at he
    exact of_decide_eq_true (List.mem_filter.mp he).2
  have hgroup : s₂.group m.group = f (s.group m.group) := State.group_modGroup_same _ hg
  rw [State.finishMat_eq hf] at hexec
  cases hk : matFlag m.i with
  | none =>
    rw [hk] at hexec
    exact ⟨_, hexec, hmatq, hlocks, (fun _ h => by cases h), rfl, hgroup⟩
  | some k =>
    rw [hk] at hexec
    refine ⟨_, hexec, hmatq, hlocks, fun k' hk' j hj hm hs => ?_, rfl, hgroup⟩
    cases hk'
    exact (State.setFlag_acts (s := s₂) hu m.slices k).2 j hj hm hs

theorem matrixEngineCompletes : Claims.MatrixEngineCompletes := by
  intro s core id m rest hq hr hwf hg hu hf word active imageWord fires
  have fire : ∀ {f : Group → Group} {p : State → Prop}, s.runMat core id m = (s.modGroup m.group f).finishMat core id m →
      (∀ t : State, t.group m.group = f (s.group m.group) → p t) → fires p := fun {f p} hrun hp => by
    obtain ⟨t, h1, h2, h3, h4, h5, h6⟩ := matrixCommandFires hq hr hg hu hf hrun
    exact ⟨t, h1, h2, h3, h4, h5, hp t h6⟩
  have hword : ∀ {t : State} {x : Group}, t.group m.group = x → ∀ z i n, word t z i n = x.zWord z i n := fun h z i n => by rw [← h]
  have hout : ∀ (o : XZst), s.runMat core id m = (s.storeTile m o.zt).finishMat core id m → fires (fun t =>
      (t.group m.group).spad = (rowList m.rows).foldl (fun x i => Memory.writeN x (m.rowAt i) ((s.group m.group).outRow m o.zt i)) (s.group m.group).spad
        ∧ (t.group m.group).z = (s.group m.group).z) := fun o hrun => by
    obtain ⟨f, hst, hz, hsp⟩ := State.storeTile_eq hg o.zt
    rw [hst] at hrun
    exact fire hrun fun t ht => by rw [ht]; exact ⟨hsp, hz⟩
  refine ⟨fun o h hi hs => ?_, fun h am cols i n acc hh => ?_, fun o hi => ?_, fun o hi => ?_, fun o hi => ?_, fun o hi => ?_⟩
  · have hrun : s.runMat core id m = (s.modGroup m.group (fun x => x.setZ (tileWords m.rows o.zt (fun i n =>
        s.mulElem m h (s.aMeta m.group m.fb h) 64 i (0 + n) ((s.group m.group).zWord o.zt i n))))).finishMat core id m := by
      rw [State.runMat, hi]
      dsimp only
      rw [hs]
      rfl
    refine fire hrun fun t ht => ⟨fun z i n hi hn => ?_, by rw [ht]; rfl⟩
    rw [hword ht, Group.zWord_setZ hwf _ _ _ hi hn, Nat.zero_add]
    exact ite_congr rfl (fun hz => by rw [hz.1]) fun _ => rfl
  · rw [hh]
    exact s.mulElem_int8 m am cols i n acc
  · have hrun : s.runMat core id m = (s.loadTile m o.zt).finishMat core id m := by rw [State.runMat, hi]
    rw [State.loadTile_eq hg] at hrun
    refine fire hrun fun t ht => ⟨fun z i n hi hn => ?_, by rw [ht]; rfl⟩
    rw [hword ht, Group.zWord_setZ hwf _ _ _ hi hn]
    exact ite_congr rfl (fun _ => Nat.mod_eq_of_lt (s.imageWord_lt m i n)) fun _ => rfl
  · have hrun : s.runMat core id m = (s.modGroup m.group (Group.clearRows m o.zt)).finishMat core id m := by rw [State.runMat, hi]; rfl
    refine fire hrun fun t ht => ⟨fun z i n hi hn => ?_, by rw [ht]; rfl⟩
    rw [hword ht, Group.zWord_clearRows _ _ _ hi hn]
  · refine hout o ?_
    rcases hi with hi | hi <;> rw [State.runMat, hi]
  · have hrun : s.runMat core id m = (s.modGroup m.group (fun x => x)).finishMat core id m := by
      rw [State.modGroup_self s m.group fun _ => rfl, State.runMat, hi]
    exact fire hrun fun t ht => by rw [ht]; exact ⟨rfl, rfl⟩

/-! Instances of the cluster multiply. -/

/-- The participant with its A side and the cycle in which it fired (R222). -/
def MatCmd.fire (t : Nat) (lead : MatCmd) (ameta : List Byte) (bad : Bool) (m : MatCmd) : MatCmd :=
  { m with fired := some t, a := activeA lead, afb := lead.fb, ameta := ameta, failed := bad }

theorem State.mat_modMat (s : State) (core id core' id' : Nat) (f : MatCmd → MatCmd) : smFind ((s.modMat core id f).core core').matq id'
    = if (core', id') = (core, id) then (smFind (s.core core').matq id').map f else smFind (s.core core').matq id' := by
  by_cases hc : core' = core
  · subst hc
    rw [State.modMat, State.core_modCore_same]
    show smFind (smMod (s.core core').matq id f) id' = _
    rw [smFind_smMod]
    exact if_congr (by simp) rfl rfl
  · rw [State.modMat, State.core_modCore_other _ _ hc, if_neg (by simp [hc])]

/-- Commands of a list fired one after another: one of them has fired, as its place tells, and no other command is changed. -/
theorem State.fireAll {F : Nat × Nat → MatCmd → MatCmd} (hF : ∀ k m, F k (F k m) = F k m) (l : List (Nat × Nat)) : ∀ s : State,
    (∀ k, smFind ((l.foldl (fun s x => s.modMat x.1 x.2 (F x)) s).core k.1).matq k.2
      = if k ∈ l then (smFind (s.core k.1).matq k.2).map (F k) else smFind (s.core k.1).matq k.2)
    ∧ (l.foldl (fun s x => s.modMat x.1 x.2 (F x)) s).mem = s.mem ∧ (l.foldl (fun s x => s.modMat x.1 x.2 (F x)) s).gangs = s.gangs
    ∧ (l.foldl (fun s x => s.modMat x.1 x.2 (F x)) s).groups = s.groups := by
  induction l with
  | nil => exact fun s => ⟨fun k => by simp, rfl, rfl, rfl⟩
  | cons x l ih =>
    intro s
    obtain ⟨h1, h2, h3, h4⟩ := ih (s.modMat x.1 x.2 (F x))
    refine ⟨fun k => ?_, h2, h3, h4⟩
    have hk := h1 k
    rw [State.mat_modMat] at hk
    rw [List.foldl_cons, hk]
    by_cases hx : k = x
    · subst hx
      rw [if_pos rfl, if_pos (List.mem_cons_self ..), Option.map_map]
      have hFF : F k ∘ F k = F k := funext fun m => hF k m
      rw [hFF, ite_self]
    · rw [if_neg (show ¬ ((k.1, k.2) = (x.1, x.2)) from hx)]
      exact if_congr (by simp [hx]) rfl rfl

section
variable {s : State} {ctx cluster set : Nat} {seatOf : Nat → Nat × Nat × MatCmd}
  (hall : ∀ p ∈ s.participants ctx cluster set, ∃ k < 16, p = seatOf k) (hin : ∀ k < 16, seatOf k ∈ s.participants ctx cluster set)
  (hat : ∀ k < 16, (seatOf k).1 = cluster * 8 + k / 2 ∧ (seatOf k).2.2.half = k % 2 ∧ (seatOf k).2.2.inst = (seatOf 0).2.2.inst)
include hall hat

/-- With sixteen participants of one set and one serial, they are the oldest of the set, and all of them. -/
theorem State.oldest_all {x : Nat × Nat × MatCmd} {xs : List (Nat × Nat × MatCmd)} (hl : s.participants ctx cluster set = x :: xs) :
    (s.participants ctx cluster set).filter (fun y => y.2.2.inst = xs.foldl (fun n y => min n y.2.2.inst) x.2.2.inst) = s.participants ctx cluster set := by
  have hinst : ∀ p ∈ s.participants ctx cluster set, p.2.2.inst = (seatOf 0).2.2.inst := fun p hp => by
    obtain ⟨k, hk, rfl⟩ := hall p hp
    exact (hat k hk).2.2
  have hfold : ∀ ys : List (Nat × Nat × MatCmd), (∀ y ∈ ys, y.2.2.inst = (seatOf 0).2.2.inst) →
      ys.foldl (fun n y => min n y.2.2.inst) (seatOf 0).2.2.inst = (seatOf 0).2.2.inst := fun ys hys => by
    induction ys with
    | nil => rfl
    | cons y ys ih =>
      rw [List.foldl_cons, hys y (by simp), Nat.min_self]
      exact ih fun z hz => hys z (by simp [hz])
  refine List.filter_eq_self.mpr fun p hp => decide_eq_true ?_
  rw [hinst p hp, hinst x (by rw [hl]; simp), hfold xs fun y hy => hinst y (by rw [hl]; simp [hy])]

include hin in
/-- Each seat is taken by its participant. -/
theorem State.seat_eq {k : Nat} (hk : k < 16) : seat (s.participants ctx cluster set) (k / 2) (k % 2) = some (seatOf k) := by
  cases hf : seat (s.participants ctx cluster set) (k / 2) (k % 2) with
  | none =>
    have h := List.find?_eq_none.mp hf (seatOf k) (hin k hk)
    obtain ⟨hcore, hhalf, -⟩ := hat k hk
    have hmod : (cluster * 8 + k / 2) % 8 = k / 2 := by omega
    simp [hcore, hhalf, hmod] at h
  | some p =>
    obtain ⟨j, hj, rfl⟩ := hall p (List.mem_of_find?_eq_some hf)
    have h := List.find?_some hf
    obtain ⟨hcore, hhalf, -⟩ := hat j hj
    rw [hcore, hhalf, Bool.and_eq_true, decide_eq_true_eq, decide_eq_true_eq] at h
    have hjk : j = k := by omega
    rw [hjk]

end

theorem State.participant_found {s : State} {ctx cluster set : Nat} {p : Nat × Nat × MatCmd} (hp : p ∈ s.participants ctx cluster set) :
    (smFind (s.core p.1).matq p.2.1).isSome = true := by
  obtain ⟨j, -, hp⟩ := List.mem_flatMap.mp hp
  obtain ⟨e, he, rfl⟩ := List.mem_map.mp hp
  exact isSome_smFind_of_mem (List.mem_filter.mp he).1

/-- The participant at a place in the queues. -/
def participantAt (l : List (Nat × Nat × MatCmd)) (k : Nat × Nat) : MatCmd := ((l.find? (fun p => decide ((p.1, p.2.1) = k))).getD default).2.2

theorem participantAt_eq {l : List (Nat × Nat × MatCmd)} (hkey : ∀ p ∈ l, ∀ q ∈ l, (p.1, p.2.1) = (q.1, q.2.1) → p = q) {p : Nat × Nat × MatCmd} (hp : p ∈ l) :
    participantAt l (p.1, p.2.1) = p.2.2 := by
  unfold participantAt
  cases hf : l.find? (fun q => decide ((q.1, q.2.1) = (p.1, p.2.1))) with
  | none => exact absurd (List.find?_eq_none.mp hf p hp) (by simp)
  | some q =>
    have hat : decide ((q.1, q.2.1) = (p.1, p.2.1)) = true := List.find?_some (p := fun q : Nat × Nat × MatCmd => decide ((q.1, q.2.1) = (p.1, p.2.1))) hf
    have hq : q = p := hkey q (List.mem_of_find?_eq_some hf) p hp (of_decide_eq_true hat)
    rw [hq]
    rfl

theorem clusterMultiplyFires : Claims.ClusterMultiplyFires := by
  intro s ctx cluster set seatOf hall hin hat hids hsame hdrained
  let l := s.participants ctx cluster set
  let z0 := (seatOf 0).2.2
  let z1 := (seatOf 1).2.2
  let lead : MatCmd → MatCmd := fun m => if m.half = 0 then z0 else z1
  let ameta : MatCmd → List Byte := fun m => match shapeOf m.fb with
    | none => []
    | some h => s.aMeta m.group m.fb h
  let t := s.cyc (cluster * 8)
  have hlead : ∀ k < 16, lead (seatOf k).2.2 = (seatOf (k % 2)).2.2 := fun k hk => by
    show (if (seatOf k).2.2.half = 0 then z0 else z1) = _
    rw [(hat k hk).2.1]
    rcases Nat.mod_two_eq_zero_or_one k with h | h <;> rw [h] <;> rfl
  have hbad : l.any (fun x => !(sameA x.2.2.fb (lead x.2.2).fb)) = false := List.any_eq_false.mpr fun p hp => by
    obtain ⟨k, hk, rfl⟩ := hall p hp
    rw [hlead k hk, hsame k hk]
    decide
  have hrun : exec (.mmacInstanceComplete ctx cluster set) s = .next (s.fire l z0 z1 cluster) := by
    show execMmacInstanceComplete ctx cluster set s = _
    unfold execMmacInstanceComplete
    dsimp only
    cases hl : s.participants ctx cluster set with
    | nil => exact absurd (hin 0 (by decide)) (by simp [hl])
    | cons x xs =>
      dsimp only
      have hmine := State.oldest_all hall hat hl
      rw [hl] at hmine
      rw [hmine, ← hl, show seat _ 0 0 = some (seatOf 0) from State.seat_eq hall hin hat (k := 0) (by decide),
        show seat _ 0 1 = some (seatOf 1) from State.seat_eq hall hin hat (k := 1) (by decide)]
      dsimp only
      rw [if_pos]
      have hseats : (List.range 16).all (fun n => (seat (s.participants ctx cluster set) (n / 2) (n % 2)).isSome) = true :=
        List.all_eq_true.mpr fun n hn => by rw [State.seat_eq hall hin hat (List.mem_range.mp hn)]; rfl
      rw [hseats, hdrained 0 (by decide), hdrained 1 (by decide)]
      decide
  have hkey : ∀ p ∈ l, ∀ q ∈ l, (p.1, p.2.1) = (q.1, q.2.1) → p = q := fun p hp q hq h => by
    obtain ⟨j, hj, rfl⟩ := hall p hp
    obtain ⟨k, hk, rfl⟩ := hall q hq
    obtain ⟨hcore, hid⟩ := Prod.mk.inj h
    by_contra hne
    exact hids j hj k hk (fun hjk => hne (by rw [hjk])) hcore hid
  let F : Nat × Nat → MatCmd → MatCmd := fun k =>
    MatCmd.fire t (lead (participantAt l k)) (ameta (lead (participantAt l k))) false
  have hfire : s.fire l z0 z1 cluster = (l.map (fun p => (p.1, p.2.1))).foldl (fun s x => s.modMat x.1 x.2 (F x)) s := by
    have hset : s.fire l z0 z1 cluster = l.foldl (fun s x => s.modMat x.1 x.2.1
        (MatCmd.fire t (lead x.2.2) (ameta (lead x.2.2)) (l.any (fun x => !(sameA x.2.2.fb (lead x.2.2).fb))))) s := rfl
    rw [hset, hbad, List.foldl_map]
    refine List.foldl_ext _ _ _ fun s p hp => ?_
    show _ = s.modMat p.1 p.2.1 (MatCmd.fire t (lead (participantAt l (p.1, p.2.1))) (ameta (lead (participantAt l (p.1, p.2.1)))) false)
    rw [participantAt_eq hkey hp]
  obtain ⟨hmat, hmem, hgangs, hgroups⟩ := State.fireAll (F := F) (fun _ _ => rfl) (l.map (fun p => (p.1, p.2.1))) s
  rw [← hfire] at hmat hmem hgangs hgroups
  refine ⟨_, hrun, fun k hk => ?_, fun core id hother => ?_, hmem, hgangs, hgroups⟩
  · obtain ⟨m, hm⟩ := Option.isSome_iff_exists.mp (State.participant_found (hin k hk))
    have h := hmat ((seatOf k).1, (seatOf k).2.1)
    rw [if_pos (List.mem_map.mpr ⟨seatOf k, hin k hk, rfl⟩), hm] at h
    refine ⟨_, h, rfl, ?_, ?_, rfl⟩
    · show activeA (lead (participantAt l _)) = _
      rw [participantAt_eq hkey (hin k hk), hlead k hk]
    · show (lead (participantAt l _)).fb = _
      rw [participantAt_eq hkey (hin k hk), hlead k hk]
  · refine (hmat (core, id)).trans (if_neg fun hmem => ?_)
    obtain ⟨p, hp, hpk⟩ := List.mem_map.mp hmem
    obtain ⟨k, hk, rfl⟩ := hall p hp
    exact hother k hk hpk.symm

/-- Settles O33: a command changes its group as R214 and R219 say and leaves the queue; the sixteen participants of a set fire together. -/
theorem matrixEngines : Obligations.MatrixEngines := ⟨matrixEngineCompletes, clusterMultiplyFires⟩

end Sys2Proof.Machine
end

section
/-! JOIN on a core that lags behind its cluster's clock (R250, R382). -/

namespace Sys2Proof.Machine

/-- The cursor of a part of gang 0, one slice wide, in cycle 0. -/
def laggingCursor : Cursor := { (default : Cursor) with gang := 0, slices := 1, checked := true, cyc := 0 }

/-- Core 0 has lost one cycle of its cluster to a replay; its gang 0 has one running lane set, and the future at address 0 is full. -/
def laggingCore : State :=
  { (default : State) with
    clusters := [(0, { (default : Cluster) with cyc := 1 })]
    cores := [(0, { (default : Core) with lag := 1, tlb := [{ ctx := 0, va := 0, size := 0x10000, e := 0 }] })]
    gangs := [(0, { (default : Gang) with slices := [{ (default : Slice) with sets := [(0, { (default : LaneSet) with mask := 1, st := .run })], cur := some 0 }] })]
    futs := [0]
    cur := some laggingCursor }

/-- The guard that is always true. -/
def alwaysGuard : Guard := { p := 31, neg := false }

/-- How many accesses gang 0 has left after an event. -/
def accsLeft : Host.Outcome State Fault Refusal → Option Nat
  | .next t => some (t.gang 0).accs.length
  | _ => none

/-- How many it has after a JOIN and a retry of its park in the cluster's next cycle. -/
def accsAfterJoin : Host.Outcome State Fault Refusal → Option Nat
  | .next t => accsLeft (exec (.futureParkRetry 0 0) (t.modCluster 0 (fun x => { x with cyc := 1 })))
  | _ => none

theorem laggingCore_acts : laggingCore.acts laggingCursor alwaysGuard = true := by decide +kernel

theorem laggingCore_hits : laggingCore.hits 0 0 0 .await 0 :=
  ⟨by decide +kernel, { ctx := 0, va := 0, size := 0x10000, e := 0 }, by decide +kernel, by decide +kernel⟩

theorem laggingCore_runs (k : Nat) : ∀ e ∈ ((laggingCore.gang 0).slice k).sets, e.2.st = .run := by
  intro e he
  cases k with
  | zero =>
    have he : e ∈ [(0, { (default : LaneSet) with mask := 1, st := .run })] := he
    rw [List.mem_singleton.mp he]
  | succ k => exact absurd (show e ∈ ([] : List (Nat × LaneSet)) from he) List.not_mem_nil

/-- The core's own cycle is still the one in which the JOIN issued, so that the park is not presented. -/
theorem laggingCore_waits : accsAfterJoin (exec (.join alwaysGuard 0 0) laggingCore) = some 1 := by decide +kernel

/-- Refutes O40: on a core that lags, the cluster's count of cycles can be past the JOIN's cycle while the core's own is not; the full future
then does not answer yet. -/
theorem not_taskAndBarrierInstructions : ¬ Obligations.TaskAndBarrierInstructions := by
  rintro ⟨-, -, hjoin, -⟩
  obtain ⟨t, hrun, -, t', hretry, -, -, haccs, -⟩ := hjoin laggingCore laggingCursor alwaysGuard 0 0 0 1 laggingCore_acts ⟨rfl, .inl rfl⟩
    ⟨by decide +kernel, rfl, fun _ => rfl⟩ (by decide +kernel) (by decide) rfl (by decide +kernel) (by decide +kernel) (by decide +kernel) laggingCore_runs
    laggingCore_hits (by decide +kernel)
  have hleft := congrArg accsLeft hretry
  have hwaits := laggingCore_waits
  rw [hrun] at hwaits
  have hone : some (t'.gang 0).accs.length = some 1 := hleft.symm.trans hwaits
  rw [show (t'.gang 0).accs = [] from haccs] at hone
  exact absurd hone (by decide)

end Sys2Proof.Machine
end

section
/-! Groups are placed (R28, R311 to R314). -/

namespace Sys2Proof.Machine

theorem leastBy_mem {α : Type} {key : α → Nat} {l : List α} {x : α} (h : leastBy key l = some x) : x ∈ l := by
  have hfold : ∀ (xs : List α) (b : α), xs.foldl (fun b y => if key y < key b then y else b) b ∈ b :: xs := fun xs => by
    induction xs with
    | nil => exact fun b => List.mem_singleton.mpr rfl
    | cons y xs ih =>
      intro b
      rcases List.mem_cons.mp (ih (if key y < key b then y else b)) with hm | hm
      · rw [List.foldl_cons, hm]
        split <;> simp
      · exact List.mem_cons_of_mem _ (List.mem_cons_of_mem _ hm)
  cases l with
  | nil => cases h
  | cons y ys =>
    cases h
    exact hfold ys y

/-- A core that placement chooses has room (R312). -/
theorem State.chooseFrom_room {s v : State} {c i core : Nat} {h : Kernel} (hc : s.chooseFrom v c h i = some core) : v.roomOn core c h = true := by
  have hcand : s.candidate v core c h = true := by
    unfold State.chooseFrom at hc
    split at hc
    · exact (List.mem_filter.mp (leastBy_mem hc)).2
    · obtain ⟨d, -, hd⟩ := List.exists_of_findSome?_eq_some hc
      exact (List.mem_filter.mp (leastBy_mem hd)).2
  exact (Bool.and_eq_true_iff.mp hcand).1

theorem seatsFor_length {w : Nat} : ∀ {n : Nat} {occ : List (Nat × Nat × Nat)} {l : List (Nat × Nat)}, seatsFor w n occ = some l → l.length = n
  | 0, _, _, h => by cases h; rfl
  | n + 1, occ, l, h => by
    unfold seatsFor at h
    split at h
    · cases h
    · obtain ⟨l', hl', rfl⟩ := Option.map_eq_some_iff.mp h
      rw [List.length_cons, seatsFor_length hl']

/-- Of entries put one after another under different keys, each is found. -/
theorem smFind_foldl_smPut {α : Type} {l : List (Nat × α)} (hkeys : (l.map (·.1)).Nodup) (m : List (Nat × α)) {i : Nat} {x : α} (hx : (i, x) ∈ l) :
    smFind (l.foldl (fun m e => smPut m e.1 e.2) m) i = some x := by
  induction l using List.reverseRecOn with
  | nil => cases hx
  | append_singleton l e ih =>
    rw [List.map_append, List.nodup_append] at hkeys
    obtain ⟨hl, -, hne⟩ := hkeys
    rw [List.foldl_append, List.foldl_cons, List.foldl_nil]
    rcases List.mem_append.mp hx with hx | hx
    · rw [smFind_smPut_other _ _ _ _ (hne i (List.mem_map_of_mem (f := fun e : Nat × α => e.1) hx) e.1 (by simp))]
      exact ih hl hx
    · rw [← List.mem_singleton.mp hx]
      exact smFind_smPut_same _ _ _

/-- The gangs of a group, seat by seat (R28). -/
def seatedGangs (h : Kernel) (c gid core u0 : Nat) (seats : List (Nat × Nat)) : List (Nat × Gang) :=
  seats.mapIdx (fun i b => (u0 + i, newGang h c gid core b.1 b.2 h.width i false 0))

/-- Each gang of the group stands under its number, waiting. -/
theorem smFind_seatedGangs (h : Kernel) (c gid core u0 : Nat) {seats : List (Nat × Nat)} (m : List (Nat × Gang)) {i : Nat} (hi : i < seats.length) :
    ∃ q b, smFind ((seatedGangs h c gid core u0 seats).foldl (fun m e => smPut m e.1 e.2) m) (u0 + i) = some (newGang h c gid core q b h.width i false 0) := by
  have hkeys : ((seatedGangs h c gid core u0 seats).map (·.1)).Nodup := by
    rw [List.Nodup, List.pairwise_iff_getElem]
    intro a b ha hb hab
    simp only [seatedGangs, List.getElem_map, List.getElem_mapIdx]
    omega
  exact ⟨_, _, smFind_foldl_smPut hkeys m (List.mem_mapIdx.mpr ⟨i, hi, rfl⟩)⟩

theorem State.beforePlaced_nil {s : State} (h : s.placed = []) : s.beforePlaced = s := by
  have hgroups : s.groups.filter (fun e => !(s.placed.any (fun p => p.2 = e.1))) = s.groups := List.filter_eq_self.mpr fun e _ => by rw [h]; rfl
  have hgangs : s.gangs.filter (fun e => !(s.placed.any (fun p => p.2 = e.2.group))) = s.gangs := List.filter_eq_self.mpr fun e _ => by rw [h]; rfl
  unfold State.beforePlaced
  dsimp only
  rw [hgroups, hgangs]

theorem State.nextGroup_eq {s : State} {c q gid : Nat} {x : Group} (h : s.nextGroup c q = some (gid, x)) : gid = s.nextId ∧ x.ctx = c ∧ x.q = q := by
  unfold State.nextGroup at h
  split at h
  · cases h
  · cases h
    exact ⟨rfl, rfl, rfl⟩

/-- The launch from which a group has been taken has one group fewer to place. -/
def Launch.placesOne (l : Launch) : Launch :=
  match l.back with
  | [] => { l with nextPlace := l.nextPlace + 1 }
  | _ :: rest => { l with back := rest }

/-- The state in which a group is about to be put on its core. -/
def State.placing (s : State) (c q gid n : Nat) : State :=
  ({ s with placed := s.placed ++ [(procOf c q, gid)], nextId := s.nextId + 1 } : State).modLaunch c q n Launch.placesOne

theorem State.placeNext_eq {s : State} {c q gid : Nat} {x : Group} (hn : s.nextGroup c q = some (gid, x)) : s.placeNext s c q =
    (s.chooseCore c (s.launch c q x.seq).hdr x.index).map (fun core => (s.placing c q gid x.seq).placeOn gid x (s.launch c q x.seq).hdr core) := by
  unfold State.placeNext State.chooseCore
  rw [hn]
  dsimp only
  cases hc : s.chooseFrom s c (s.launch c q x.seq).hdr x.index with
  | none => rfl
  | some core =>
    rw [Option.filter_some, if_pos (State.chooseFrom_room hc)]
    rfl

theorem exec_groupPlace {s : State} {c q gid : Nat} {x : Group} (hlive : (s.ctx c).st = .live) (hq : (s.queue c q).st = .active ∨ (s.queue c q).st = .draining)
    (hp : s.placed = []) (hn : s.nextGroup c q = some (gid, x)) (hco : (s.launch c q x.seq).coresident = false) :
    exec (.groupPlace c q) s = .next ((s.placeNext s c q).getD s) := by
  show execGroupPlace c q s = _
  unfold execGroupPlace
  dsimp only
  rw [if_neg, hn]
  · dsimp only
    rw [hco, if_neg Bool.false_ne_true, State.beforePlaced_nil hp]
  · rcases hq with hq | hq <;> simp [hlive, hq, hp]

theorem State.clears_queueClear (s : State) (core grp : Nat) (u : Option Nat) (bits n : Nat) :
    ((s.queueClear core grp u bits n).core core).clears = (s.core core).clears ++ [⟨grp, u, bits, n, s.cyc core⟩] :=
  congrArg Core.clears (State.core_modCore_same s core (fun k => { k with clears := k.clears ++ [⟨grp, u, bits, n, s.cyc core⟩] }))

theorem groupsArePlaced : Claims.GroupsArePlaced := by
  intro s c q gid x hlive hq hp hn hco h
  have hrun := exec_groupPlace hlive hq hp hn hco
  obtain ⟨rfl, hctx, hxq⟩ := State.nextGroup_eq hn
  rw [State.placeNext_eq hn] at hrun
  refine ⟨fun hc => ?_, fun core hc => ?_⟩
  · rw [hrun, hc]
    rfl
  · rw [hc] at hrun
    have hroom := State.chooseFrom_room hc
    unfold State.roomOn at hroom
    simp only [Bool.and_eq_true] at hroom
    obtain ⟨seats, hseats⟩ := Option.isSome_iff_exists.mp hroom.1.1.2
    have hlen := seatsFor_length hseats
    let s₁ := s.placing c q s.nextId x.seq
    replace hrun : exec (.groupPlace c q) s = .next (s₁.placeOn s.nextId x h core) := hrun
    have hseats₁ : (seatsFor h.width h.gangs (s₁.slotsOn core)).getD [] = seats := congrArg (fun o => Option.getD o []) hseats
    let us := (List.range h.gangs).map (fun i => s.nextId + 1 + i)
    let y : Group := { x with st := .placed, core := core, gangs := us, launchGangs := us }
    have hgangs : (s₁.placeOn s.nextId x h core).gangs = (seatedGangs h x.ctx s.nextId core (s.nextId + 1) seats).foldl (fun m e => smPut m e.1 e.2) s.gangs := by
      rw [← hseats₁]
      rfl
    refine ⟨_, y, hrun, smFind_smPut_same _ _ _, hctx, hxq, rfl, rfl, rfl, rfl, ?_, fun i hi => ?_, ?_, rfl⟩
    · rfl
    · obtain ⟨a, b, hg⟩ := smFind_seatedGangs h x.ctx s.nextId core (s.nextId + 1) s.gangs (hlen ▸ hi : i < seats.length)
      have hgang : (s₁.placeOn s.nextId x h core).gang (s.nextId + 1 + i) = newGang h x.ctx s.nextId core a b h.width i false 0 := by
        rw [State.gang, hgangs, hg]
        rfl
      dsimp only
      rw [hgang]
      exact ⟨rfl, rfl, rfl, rfl, rfl, rfl⟩
    · exact State.clears_queueClear _ core s.nextId none 0 h.granules

end Sys2Proof.Machine
end

section
/-! Groups whose granules are clear start (R263, R311, R314). -/

namespace Sys2Proof.Machine

/-! What an instruction fetch and a target depend on. -/

/-- Two states with one memory, one set of tables and one set of proofs. -/
def State.sameCode (s t : State) : Prop := t.mem = s.mem ∧ t.poison = s.poison ∧ t.ctxs = s.ctxs ∧ t.proofs = s.proofs

theorem State.sameCode.isRegang {s t : State} (h : s.sameCode t) (c pc : Nat) : t.isRegang c pc = s.isRegang c pc := by
  obtain ⟨hmem, hpoison, hctxs, hproofs⟩ := h
  have hpage : ∀ a b, t.pageRec a b = s.pageRec a b := fun a b => by rw [State.pageRec, State.pageRec, State.ctx, State.ctx, hctxs]
  have hrd : ∀ a n, t.rd a n = s.rd a n := fun a n => by rw [State.rd, State.rd, hmem]
  unfold State.isRegang State.code State.heldCode
  simp only [State.walk_of_same hmem hpoison hctxs hproofs, hpage, hrd, hproofs]

theorem State.sameCode.targetOk {s t : State} (h : s.sameCode t) (hdev : t.dev = s.dev) {u : Nat} (hctx : (t.gang u).ctx = (s.gang u).ctx)
    (hk : t.kernelOf u = s.kernelOf u) (pc : Nat) : t.targetOk u pc = s.targetOk u pc := by
  obtain ⟨hmem, hpoison, hctxs, hproofs⟩ := h
  have hpage : ∀ a b, t.pageRec a b = s.pageRec a b := fun a b => by rw [State.pageRec, State.pageRec, State.ctx, State.ctx, hctxs]
  unfold State.targetOk
  simp only [State.walk_of_same hmem hpoison hctxs hproofs, hpage, hproofs, hctx, hk, hdev]

/-! A gang starts. -/

/-- The lane set of a slice that starts. -/
def startSet (pc cyc : Nat) : LaneSet :=
  { (default : LaneSet) with pc := pc, nxt := pc, mask := 255, ready := cyc, st := .run, created := cyc, jumped := true }

def startSlice (pc cyc : Nat) : Slice := { (default : Slice) with sets := [(0, startSet pc cyc)], cur := some 0 }

/-- A gang that starts has one runnable lane set of eight lanes on each slice. -/
def Gang.started (g : Gang) (pc cyc : Nat) (x : List (Nat × Word)) : Gang :=
  { g with live := true, waiting := false, slices := List.replicate g.width (startSlice pc cyc), parts := [newPart (2 ^ g.width - 1)], g := x }

theorem Gang.start_eq (g : Gang) (pc cyc seed : Nat) (id : Nat → Nat) : ∃ x, g.start pc cyc seed id = g.started pc cyc x := by
  have hfold : ∀ (l : List Nat) (x : List (Nat × Word)), ∃ x', l.foldl (fun g i => g.setG i (seedG seed (id i))) (g.started pc cyc x) = g.started pc cyc x' := fun l => by
    induction l with
    | nil => exact fun x => ⟨x, rfl⟩
    | cons i l ih => exact fun x => ih _
  exact hfold (List.range (8 * g.width)) g.g

theorem Gang.slice_settleSlice_single {g : Gang} {k e : Nat} {y : LaneSet} (hs : (g.slice k).sets = [(e, y)]) (hc : (g.slice k).cur = some e) (j : Nat) :
    (g.settleSlice j).slice k = g.slice k := by
  by_cases hj : k = j
  · subst hj
    have hcur : (g.slice k).curSet = some y := by simp [Slice.curSet, hs, hc, smFind]
    have hnew : (g.slice k).newest (g.slice k).cur = none := by simp [Slice.newest, hs, hc]
    unfold Gang.settleSlice
    dsimp only
    rw [hcur]
    dsimp only
    split
    · rfl
    · rw [hnew]
  · exact g.slice_settleSlice_ne hj

/-- A slice whose one lane set is the current one is settled (R34). -/
theorem Gang.slice_settle_single {g : Gang} {k e : Nat} {y : LaneSet} (hs : (g.slice k).sets = [(e, y)]) (hc : (g.slice k).cur = some e) (m : Nat) :
    (g.settle m).slice k = g.slice k := by
  unfold Gang.settle
  induction bitsOf 8 m generalizing g with
  | nil => rfl
  | cons j l ih =>
    have h := Gang.slice_settleSlice_single hs hc j
    exact (ih (by rw [h]; exact hs) (by rw [h]; exact hc)).trans h

/-- Slices that start stay as they are where their bundle is no regang bundle (R35). -/
theorem State.arriveCurs_started {s : State} {u pc cyc : Nat} (hu : (smFind s.gangs u).isSome = true) {w : Nat}
    (hsl : (s.gang u).slices = List.replicate w (startSlice pc cyc)) (hreg : s.isRegang (s.gang u).ctx pc = false) (m : Nat) :
    (s.gang u).sameRest ((s.arriveCurs u m).gang u) ∧ ((s.arriveCurs u m).gang u).slices.length = w
      ∧ ∀ k < w, ((s.arriveCurs u m).gang u).slice k = startSlice pc cyc := by
  let f : LaneSet → LaneSet := fun y => if y.st = .run && s.isRegang (s.gang u).ctx y.pc then { y with st := .regang } else y
  let free := maskOf ((bitsOf 8 m).filter (fun k => !((s.gang u).held k)))
  have hgang : (s.arriveCurs u m).gang u = ((s.gang u).modCurs free f).settle m := State.gang_modGang_same s u _ hu
  have hslice : ∀ k < w, ((s.gang u).modCurs free f).slice k = startSlice pc cyc := fun k hk => by
    have hk' : k < (s.gang u).slices.length := by rw [hsl, List.length_replicate]; exact hk
    have hx : (s.gang u).slice k = startSlice pc cyc := by
      rw [Gang.slice, hsl, List.getD_eq_getElem?_getD, List.getElem?_replicate, if_pos hk]
      rfl
    have hf : f (startSet pc cyc) = startSet pc cyc := if_neg (by
      show ¬ (_ && s.isRegang (s.gang u).ctx pc) = true
      rw [hreg, Bool.and_false]
      decide)
    rw [Gang.modCurs, Gang.slice_modSlices hk', hx]
    split
    · show ({ startSlice pc cyc with sets := [(0, f (startSet pc cyc))] } : Slice) = _
      rw [hf]
      rfl
    · rfl
  rw [hgang]
  refine ⟨Gang.sameRest.trans ⟨_, _, rfl⟩ (Gang.sameRest_settle _ m), ?_, fun k hk => ?_⟩
  · have hlen : ((s.gang u).modCurs free f).slices.length = (s.gang u).slices.length := List.length_mapIdx
    exact (Gang.settleSlices_frame (bitsOf 8 m) _).2.1.trans (hlen.trans (by rw [hsl, List.length_replicate]))
  · rw [Gang.slice_settle_single (y := startSet pc cyc) (by rw [hslice k hk]; rfl) (by rw [hslice k hk]; rfl), hslice k hk]

/-- The pool of a group of one launch gang is clear: the gang starts in the group's class, and its group is RESIDENT (R297, R311). -/
theorem exec_poolClearDone {s : State} {core g n start : Nat} (hc : (s.core core).clears = [⟨g, none, 0, n, start⟩]) (ht : start + 32 * n ≤ s.cyc core) :
    exec (.poolClearDone core) s = .next ((s.modCore core (fun k => { k with clears := [] })).becomeResident g) := by
  show execPoolClearDone core s = _
  unfold execPoolClearDone
  rw [hc]
  dsimp only
  rw [if_neg (by omega)]

/-- A group that becomes RESIDENT. -/
def Group.resident (cls since : Nat) (x : Group) : Group := { x with st := .resident, from_ := .resident, cls := cls, since := since }

theorem State.becomeResident_one {s : State} {g u : Nat} (hgangs : (s.group g).launchGangs = [u]) (hroll : (s.kernel g).rollback = false) :
    s.becomeResident g = ((s.modGroup g (Group.resident (s.queue (s.group g).ctx (s.group g).q).cls s.hubCycle)).startGang u
      (s.queue (s.group g).ctx (s.group g).q).cls).enterCode u ((s.kernel g).codebase + (s.kernel g).entry) := by
  unfold State.becomeResident
  dsimp only
  rw [hgangs, hroll]
  rfl

/-- A gang that starts: with the time of its start and its lanes' states (R71, R263). -/
def State.starting (s : State) (u cls pc : Nat) (g : Gang) : Gang :=
  { g.start pc (s.cyc (s.gang u).core) (s.launchSeed (s.gang u).group) (fun i => ((s.group (s.gang u).group).index * 16 + g.idx) * 64 + i) with
    cls := cls, acq := s.serial }

theorem State.startGang_eq (s : State) (u cls : Nat) : s.startGang u cls
    = s.modGang u (s.starting u cls ((s.kernel (s.gang u).group).codebase + (s.kernel (s.gang u).group).entry)) := rfl

theorem clearedGroupsStart : Claims.ClearedGroupsStart := by
  intro s core g n start u hclears htime hgrp hroll hgangs hu hug pc htgt hreg
  let s₀ := s.modCore core (fun k => { k with clears := [] })
  let cls := (s.queue (s.group g).ctx (s.group g).q).cls
  let s₁ := s₀.modGroup g (Group.resident cls s₀.hubCycle)
  have hg₁ : s₁.group g = Group.resident cls s₀.hubCycle (s.group g) := State.group_modGroup_same (s := s₀) _ hgrp
  have hkern : s₁.kernel g = s.kernel g := by
    rw [State.kernel, State.launchOf, hg₁]
    rfl
  let s₂ := s₁.startGang u cls
  have hs₂ : s₂ = s₁.modGang u (s₁.starting u cls pc) := by
    show s₁.startGang u cls = _
    rw [State.startGang_eq, show (s₁.gang u).group = g from hug, hkern]
  have hgang : s₂.gang u = s₁.starting u cls pc (s.gang u) := by
    rw [hs₂]
    exact State.gang_modGang_same s₁ u _ hu
  obtain ⟨x, hx⟩ := (s.gang u).start_eq pc (s₁.cyc (s.gang u).core) (s₁.launchSeed (s₁.gang u).group)
    (fun i => ((s₁.group (s₁.gang u).group).index * 16 + (s.gang u).idx) * 64 + i)
  have hstart : s₁.starting u cls pc (s.gang u) = { (s.gang u).started pc (s₁.cyc (s.gang u).core) x with cls := cls, acq := s.serial } :=
    congrArg (fun y : Gang => { y with cls := cls, acq := s.serial }) hx
  rw [hstart] at hgang
  have hcode : s.sameCode s₂ := by
    rw [hs₂]
    exact ⟨rfl, rfl, rfl, rfl⟩
  have hkernU : s₂.kernelOf u = s.kernelOf u := by
    have hgroups : s₂.kernel g = s₁.kernel g := by
      rw [hs₂]
      rfl
    rw [State.kernelOf, State.kernelOf, hgang]
    show s₂.kernel (s.gang u).group = _
    rw [hug, hgroups, hkern]
  have htgt₂ : s₂.targetOk u pc = true := by
    rw [hcode.targetOk (by rw [hs₂]; rfl) (by rw [hgang]; rfl) hkernU]
    exact htgt
  have hreg₂ : s₂.isRegang (s₂.gang u).ctx pc = false := by
    rw [hcode.isRegang, hgang]
    exact hreg
  have hu₂ : (smFind s₂.gangs u).isSome = true := by
    rw [hs₂]
    exact State.hasGang_modGang _ hu
  obtain ⟨⟨sl, ps, hrest⟩, hlen, hslices⟩ := State.arriveCurs_started hu₂ (w := (s.gang u).width) (pc := pc) (cyc := s₁.cyc (s.gang u).core)
    (by rw [hgang]; rfl) hreg₂ (2 ^ (s₂.gang u).width - 1)
  let t := s₂.arriveCurs u (2 ^ (s₂.gang u).width - 1)
  have hrun : exec (.poolClearDone core) s = .next t := by
    rw [exec_poolClearDone hclears htime, State.becomeResident_one (s := s₀) hgangs hroll]
    show Host.Outcome.next (s₂.enterCode u pc) = _
    rw [State.enterCode, if_pos htgt₂]
  have hframe : t.groups = s₁.groups ∧ t.cores = s₁.cores ∧ t.mem = s₁.mem := by
    show s₂.groups = _ ∧ s₂.cores = _ ∧ s₂.mem = _
    rw [hs₂]
    exact ⟨rfl, rfl, rfl⟩
  obtain ⟨hgroups, hcores, hmem⟩ := hframe
  have hgroup : t.group g = Group.resident cls s₀.hubCycle (s.group g) := by
    rw [State.group, hgroups]
    exact hg₁
  refine ⟨t, hrun, ?_, ?_, ?_, ?_, ?_, hlen, fun k hk => ⟨startSet pc (s₁.cyc (s.gang u).core), ?_, rfl, rfl, rfl⟩, ?_, hmem⟩
  · rw [hgroup]
    rfl
  · rw [hgroup]
    rfl
  · exact (congrArg Gang.live hrest).trans (congrArg Gang.live hgang)
  · exact (congrArg Gang.waiting hrest).trans (congrArg Gang.waiting hgang)
  · exact (congrArg Gang.acq hrest).trans (congrArg Gang.acq hgang)
  · rw [hslices k hk]
    rfl
  · rw [State.core, hcores]
    exact congrArg Core.clears (State.core_modCore_same s core (fun k => { k with clears := [] }))

end Sys2Proof.Machine
end

section
/-! Tasks are taken, snapshots are complete, and groups retire (R51 to R53, R305, R306, R319, R320). -/

namespace Sys2Proof.Machine

/-! Tasks. -/

theorem State.clears_modDeque (s : State) (core c : Nat) (f : Deque → Deque) (k : Nat) : ((s.modDeque core c f).core k).clears = (s.core k).clears := by
  by_cases hk : k = core
  · subst hk
    rw [State.modDeque, State.core_modCore_same]
    split <;> rfl
  · rw [State.modDeque, State.core_modCore_other _ _ hk]

theorem State.deque_queueClear (s : State) (core grp : Nat) (u : Option Nat) (bits n v c : Nat) :
    ((s.queueClear core grp u bits n).core v).deque c = (s.core v).deque c := by
  by_cases hv : v = core
  · subst hv
    rw [State.queueClear, State.core_modCore_same]
    rfl
  · rw [State.queueClear, State.core_modCore_other _ _ hv]

/-- A task gang that has taken its place waits for its clear (R51). -/
theorem State.placeTask_facts (s : State) (core c owner host : Nat) (r : TaskRec) :
    let t := s.placeTask core c owner host r
    let g := t.gang s.nextId
    g.group = host ∧ g.task = true ∧ g.waiting = true ∧ g.core = core ∧ g.width = taskWidth r.bits ∧ g.deque = some (owner, c)
      ∧ (∃ n, (t.core core).clears = (s.core core).clears ++ [⟨host, some s.nextId, r.bits, n, s.cyc core⟩])
      ∧ (∀ v, ((t.core v).deque c).recs = ((s.core v).deque c).recs) ∧ t.mem = s.mem := by
  intro t g
  let seat := (seatFor (s.slotsOn core) (taskWidth r.bits)).getD (0, 0)
  let used := (s.gangs.filter (fun e => e.2.group = host && (e.2.live || e.2.waiting))).map (fun e => e.2.idx)
  let new : Gang := { newGang (s.kernel host) c host core seat.1 seat.2 (taskWidth r.bits) (((List.range 16).find? (fun i => !(used.contains i))).getD 0) true r.cls with
    deque := some (owner, c), raised := !((s.core owner).deque c).blocked.isEmpty }
  have hg : g = new := by
    show (smFind (smPut s.gangs s.nextId new) s.nextId).getD default = new
    rw [smFind_smPut_same]
    rfl
  rw [hg]
  exact ⟨rfl, rfl, rfl, rfl, rfl, rfl, ⟨_, State.clears_queueClear _ core host (some s.nextId) r.bits ((s.kernel host).gangGran (taskWidth r.bits))⟩,
    fun v => congrArg Deque.recs (State.deque_queueClear _ core host (some s.nextId) r.bits ((s.kernel host).gangGran (taskWidth r.bits)) v c), rfl⟩

/-- A task taken from a deque starts on its core (R51 to R53). -/
theorem State.takeTask {s : State} (core c owner host : Nat) (r : TaskRec) {f : Deque → Deque} (hf : ∀ d : Deque, (f d).ctx = d.ctx) :
    let t := (s.dequeOp owner c f).placeTask core c owner host r
    ((t.core owner).deque c).recs = (f ((s.core owner).deque c)).recs
      ∧ (t.gang s.nextId).group = host ∧ (t.gang s.nextId).task = true ∧ (t.gang s.nextId).waiting = true ∧ (t.gang s.nextId).core = core
      ∧ (t.gang s.nextId).width = taskWidth r.bits ∧ (t.gang s.nextId).deque = some (owner, c)
      ∧ (∃ n, (t.core core).clears = (s.core core).clears ++ [⟨host, some s.nextId, r.bits, n, s.cyc core⟩]) ∧ t.mem = s.mem := by
  intro t
  obtain ⟨h1, h2, h3, h4, h5, h6, ⟨n, h7⟩, h8, h9⟩ := (s.dequeOp owner c f).placeTask_facts core c owner host r
  refine ⟨(h8 owner).trans ((congrArg Deque.recs (s.deque_dequeOp owner c hf)).trans rfl), h1, h2, h3, h4, h5, h6, ⟨n, h7.trans ?_⟩, h9⟩
  rw [State.dequeOp, State.clears_modDeque, State.cyc_modDeque]
  rfl

theorem victims_near {core v : Nat} (hv : v ∈ victims core) : v ≠ core ∧ dieOf v = dieOf core := by
  unfold victims at hv
  unfold dieOf
  rcases List.mem_append.mp hv with h | h
  · obtain ⟨i, hi, rfl⟩ := List.mem_map.mp h
    have := List.mem_range.mp hi
    omega
  · obtain ⟨k, hk, h⟩ := List.mem_flatMap.mp h
    obtain ⟨i, hi, rfl⟩ := List.mem_map.mp hk
    obtain ⟨p, hp, rfl⟩ := List.mem_map.mp h
    have := List.mem_range.mp hi
    have := List.mem_range.mp hp
    omega

/-- What a steal finds: a victim, its host here, and its tail record (R52). -/
def State.steals (s : State) (core c : Nat) : Option (Nat × Nat × TaskRec) :=
  (victims core).findSome? (fun v =>
    match ((s.core v).deque c).recs.getLast? with
    | none => none
    | some r => (s.hostFor core c r).map (fun h => (v, h, r)))

theorem exec_taskSteal {s : State} {core c v h : Nat} {r : TaskRec} (hlive : (s.ctx c).st = .live) (hrecs : ((s.core core).deque c).recs = [])
    (hfind : s.steals core c = some (v, h, r)) (hbusy : s.dequeBusy v c = false) :
    exec (.taskSteal core c) s = .next ((s.dequeOp v c (fun d => { d with recs := d.recs.dropLast })).placeTask core c v h r) := by
  have hrun : exec (.taskSteal core c) s = if !((s.core core).deque c).recs.isEmpty || (s.ctx c).st ≠ .live then .next s else
      match s.steals core c with
      | none => .next s
      | some (v, h, r) =>
        if s.dequeBusy v c then .next s
        else .next ((s.dequeOp v c (fun d => { d with recs := d.recs.dropLast })).placeTask core c v h r) := rfl
  rw [hrun, if_neg (by simp [hlive, hrecs]), hfind]
  dsimp only
  rw [hbusy, if_neg Bool.false_ne_true]

theorem tasksAreTaken : Claims.TasksAreTaken := by
  intro s core c hlive starts
  refine ⟨fun r rest h hrecs hbusy hhost => ?_, fun r rest hrecs hhost => ?_, fun v h r hrecs hfind hbusy => ?_, fun v hv => victims_near hv⟩
  · have hrun : exec (.taskTake core c) s = .next ((s.dequeOp core c (fun d => { d with recs := rest })).placeTask core c core h r) := by
      show execTaskTake core c s = _
      unfold execTaskTake
      rw [hrecs]
      dsimp only
      rw [if_pos (by simp [hlive, hbusy]), hhost]
    obtain ⟨h1, h2⟩ := State.takeTask (s := s) core c core h r (f := fun d => { d with recs := rest }) fun _ => rfl
    exact ⟨_, hrun, h1, h2⟩
  · show execTaskTake core c s = _
    unfold execTaskTake
    rw [hrecs]
    dsimp only
    rw [hhost, ite_self]
  · have hrun := exec_taskSteal hlive hrecs hfind hbusy
    obtain ⟨h1, h2⟩ := State.takeTask (s := s) core c v h r (f := fun d => { d with recs := d.recs.dropLast }) fun _ => rfl
    exact ⟨_, hrun, h1, h2⟩

/-! Snapshots. -/

/-- The flags that the commands of a group in its core's queues have still to set (R320). -/
def Core.owedFlags (k : Core) (g : Nat) : List (Nat × Nat × Nat) :=
  k.copyq.filterMap (fun e => if e.2.group = g then e.2.f.map (fun f => (e.2.gang, e.2.slices, f)) else none)
    ++ k.matq.filterMap (fun e => if e.2.group = g then (matFlag e.2.i).map (fun f => (e.2.gang, e.2.slices, f)) else none)

/-- The snapshot of a group (R320). -/
def State.snapshotOf (s : State) (g : Nat) : Snapshot :=
  ⟨(s.group g).spad, (s.group g).futs, (s.snapGangs g).map (fun e => (e.1, { e.2.landEvery (s.cyc (s.group g).core) with
      al := (s.core (s.group g).core).al.bind (fun a => if a.gang = e.1 then some (a.va, a.fmt) else none) })), (s.core (s.group g).core).owedFlags g⟩

/-- A group whose snapshot has been taken. -/
def Group.withSnap (n : Snapshot) (x : Group) : Group := { x with snap := some n, snapDue := none, commit := false, ueCount := 0 }

theorem exec_snapshotComplete {s : State} {g n t0 : Nat} (hdue : (s.group g).snapDue = some (n, t0)) (hbusy : s.spadBusy g = false)
    (haccs : ∀ e ∈ s.snapGangs g, e.2.accs = []) (htime : t0 + 32 * s.snapGran g ≤ s.cyc (s.group g).core) :
    exec (.snapshotComplete g) s = .next ((s.modGroup g (fun x => x.withSnap ⟨x.spad, x.futs, (s.snapshotOf g).gangs, (s.snapshotOf g).cmds⟩)).releasing (.grp g n)) := by
  have hloads : (s.snapGangs g).all (fun e => e.2.accs.all (fun a => !(delivers a.2.op) || a.2.lanes.all (fun l => l.st = .done || l.st.buffered))) = true :=
    List.all_eq_true.mpr fun e he => by rw [haccs e he]; rfl
  show execSnapshotComplete g s = _
  unfold execSnapshotComplete
  dsimp only
  rw [hdue]
  dsimp only
  rw [hbusy, hloads, if_neg (by simpa using htime)]
  rfl

theorem State.hasGroup_of_snapDue {s : State} {g : Nat} {d : Nat × Nat} (h : (s.group g).snapDue = some d) : (smFind s.groups g).isSome = true := by
  cases hs : smFind s.groups g with
  | some x => rfl
  | none =>
    rw [State.group, hs] at h
    cases h

theorem snapshotsAreTaken : Claims.SnapshotsAreTaken := by
  intro s g n t0 hdue hbusy haccs htime
  have hgrp := State.hasGroup_of_snapDue hdue
  let f : Group → Group := fun x => x.withSnap ⟨x.spad, x.futs, (s.snapshotOf g).gangs, (s.snapshotOf g).cmds⟩
  let s₁ := s.modGroup g f
  have hg₁ : s₁.group g = f (s.group g) := State.group_modGroup_same f hgrp
  have hgrp₁ : (smFind s₁.groups g).isSome = true := State.isSome_modGroup f hgrp
  let l := ((s₁.bar (.grp g n)).arrived.map (fun u => clusterOf (s₁.gang u).core)).eraseDups.map (fun k => (k, (s₁.cluster k).cyc + barDelay (.grp g n)))
  have hbar : (s₁.releasing (.grp g n)).bar (.grp g n) = { s₁.bar (.grp g n) with release := some l } :=
    State.bar_modBar (fun x => { x with release := some l }) (b := .grp g n) hgrp₁
  have hgroup : ∃ bars, (s₁.releasing (.grp g n)).group g = { f (s.group g) with bars := bars } :=
    ⟨_, (State.group_modGroup_same (s := s₁) (fun y => { y with bars := smPut y.bars n { s₁.bar (.grp g n) with release := some l } }) hgrp₁).trans (by rw [hg₁])⟩
  obtain ⟨bars, hgroup⟩ := hgroup
  have hbar₁ : s₁.bar (.grp g n) = s.bar (.grp g n) := by
    rw [State.bar, hg₁]
    rfl
  refine ⟨_, exec_snapshotComplete hdue hbusy haccs htime, ⟨(s.snapshotOf g).cmds, ?_, fun hc hm => ?_⟩, ?_, ?_, ?_, ?_, ?_, rfl, rfl⟩
  · rw [hgroup]
    rfl
  · show (s.core (s.group g).core).owedFlags g = []
    rw [Core.owedFlags, hc, hm]
    rfl
  · rw [hgroup]
    rfl
  · rw [hgroup]
    rfl
  · rw [hgroup]
    rfl
  · rw [hbar]
    exact Option.some_ne_none l
  · rw [hbar, hbar₁]

/-! Groups that retire. -/

/-- The launch `n` of a queue is there, with so many groups retired and killed. -/
def State.counts (s : State) (c q n retired killed : Nat) : Prop :=
  (smFind (s.queue c q).launches n).isSome = true ∧ (s.launch c q n).retired = retired ∧ (s.launch c q n).killed = killed

theorem State.counts.modLaunch {s : State} {c q n a b : Nat} (h : s.counts c q n a b) {f : Launch → Launch} {a' b' : Nat}
    (hf : ∀ l : Launch, l.retired = a → l.killed = b → (f l).retired = a' ∧ (f l).killed = b') : (s.modLaunch c q n f).counts c q n a' b' := by
  obtain ⟨hl, ha, hb⟩ := h
  refine ⟨?_, ?_⟩
  · rw [State.modLaunch, State.queue_modQueue_same _ (State.hasCtx_of_launch hl)]
    exact isSome_smMod _ _ hl
  · rw [State.launch_modLaunch_same f hl]
    exact hf _ ha hb

/-- A launch that moves on keeps its counts, and changes no group, no gang and no memory (R305). -/
theorem State.counts.settleLaunch {s : State} {c q n a b : Nat} (h : s.counts c q n a b) : (s.settleLaunch c q n).counts c q n a b
    ∧ (s.settleLaunch c q n).groups = s.groups ∧ (s.settleLaunch c q n).gangs = s.gangs ∧ (s.settleLaunch c q n).mem = s.mem := by
  unfold State.settleLaunch
  extract_lets t s₁ l
  have h₁ : s₁.counts c q n a b ∧ s₁.groups = s.groups ∧ s₁.gangs = s.gangs ∧ s₁.mem = s.mem := by
    dsimp only [s₁]
    split
    · exact ⟨h.modLaunch fun l ha hb => ⟨ha, hb⟩, rfl, rfl, rfl⟩
    · exact ⟨h, rfl, rfl, rfl⟩
  split
  · refine ⟨h₁.1.modLaunch fun l ha hb => ?_, h₁.2⟩
    split <;> exact ⟨ha, hb⟩
  · exact h₁

/-- A group of a launch is counted (R306). -/
def Launch.countsGroup (x : Group) (l : Launch) : Launch := if x.killed.isNone then { l with retired := l.retired + 1 } else { l with killed := l.killed + 1 }

/-- The state without a group and its gangs (R306). -/
def State.withoutGroup (s : State) (g : Nat) : State := { s with groups := smDel s.groups g, gangs := s.gangs.filter (fun e => e.2.group ≠ g) }

/-- The state in which a launch, with the count of a group that has retired, is paced where it has a timetable, and settled (R305). -/
def State.groupCounted (s : State) (x : Group) : State :=
  let s := s.modLaunch x.ctx x.q x.seq (Launch.countsGroup x)
  State.settleLaunch (if (s.launch x.ctx x.q x.seq).ttOn then s.pace x.ctx x.q x.seq else s) x.ctx x.q x.seq

/-- A group whose event is filled retires. -/
theorem exec_groupRetire_of_fill {s t : State} {g : Nat} (hmay : s.mayRetire g = true) (hfill : s.fillEvent (s.group g) = (true, t)) :
    exec (.groupRetire g) s = .next ((t.withoutGroup g).groupCounted (s.group g)) := by
  show execGroupRetire g s = _
  unfold execGroupRetire
  dsimp only
  rw [hmay, hfill, if_neg (by decide)]
  rfl

/-- Without a timetable nothing is paced. -/
theorem State.groupCounted_eq {s : State} {x : Group} (hl : (smFind (s.queue x.ctx x.q).launches x.seq).isSome = true) (htt : (s.launch x.ctx x.q x.seq).ttOn = false) :
    s.groupCounted x = (s.modLaunch x.ctx x.q x.seq (Launch.countsGroup x)).settleLaunch x.ctx x.q x.seq := by
  have hon : ((s.modLaunch x.ctx x.q x.seq (Launch.countsGroup x)).launch x.ctx x.q x.seq).ttOn = false := by
    rw [State.launch_modLaunch_same _ hl, Launch.countsGroup]
    split <;> exact htt
  unfold State.groupCounted
  dsimp only
  rw [hon, if_neg Bool.false_ne_true]

/-- A group without an event to fill retires. -/
theorem exec_groupRetire {s : State} {g : Nat} (hmay : s.mayRetire g = true) (hl : (smFind (s.queue (s.group g).ctx (s.group g).q).launches (s.group g).seq).isSome = true)
    (hbase : dw (s.launch (s.group g).ctx (s.group g).q (s.group g).seq).pkt 4 = 0) (htt : (s.launch (s.group g).ctx (s.group g).q (s.group g).seq).ttOn = false) :
    exec (.groupRetire g) s = .next (((s.withoutGroup g).modLaunch (s.group g).ctx (s.group g).q (s.group g).seq (Launch.countsGroup (s.group g))).settleLaunch
      (s.group g).ctx (s.group g).q (s.group g).seq) := by
  have hfill : s.fillEvent (s.group g) = (true, s) := by
    unfold State.fillEvent
    dsimp only
    rw [hbase, if_pos rfl]
  rw [exec_groupRetire_of_fill hmay hfill]
  exact congrArg Host.Outcome.next (State.groupCounted_eq (s := s.withoutGroup g) hl htt)

theorem groupsRetire : Claims.GroupsRetire := by
  refine ⟨?_, fun x => ⟨fun h => by rw [Group.event, h], fun n h => by rw [Group.event, h]; exact congrArg (· + 1) (Nat.mul_comm n 256)⟩⟩
  intro s g hmay x l hl hbase htt
  have hc : (s.withoutGroup g).counts x.ctx x.q x.seq l.retired l.killed := ⟨hl, rfl, rfl⟩
  have hcounted : ((s.withoutGroup g).modLaunch x.ctx x.q x.seq (Launch.countsGroup x)).counts x.ctx x.q x.seq
      (l.retired + if x.killed = none then 1 else 0) (l.killed + if x.killed = none then 0 else 1) := hc.modLaunch fun y ha hb => by
    unfold Launch.countsGroup
    cases x.killed with
    | none => exact ⟨congrArg (· + 1) ha, hb⟩
    | some k => exact ⟨ha, congrArg (· + 1) hb⟩
  obtain ⟨⟨-, hret, hkill⟩, hgroups, hgangs, hmem⟩ := hcounted.settleLaunch
  exact ⟨_, exec_groupRetire hmay hl hbase htt, hgroups, hgangs, hmem, hret, hkill⟩

/-- Settles O51: placement, clear, tasks, snapshot and retirement each act as R306 and R311 to R320 say. -/
theorem groupAndTaskEvents : Obligations.GroupAndTaskEvents := ⟨groupsArePlaced, clearedGroupsStart, tasksAreTaken, snapshotsAreTaken, groupsRetire⟩

end Sys2Proof.Machine
end

section
/-! A slot word that decodes is the word of its instruction (R78, R88, R90, R91, R110): the decoder refuses every field that the
instruction's own fields do not give back, and a word is the word of its fields. -/

namespace Sys2Proof.Machine

/-! A slot that decodes has no reason against it. -/

/-- No reason refuses a slot only where there is none. -/
theorem least_eq_none {l : List Nat} (h : least l = none) : l = [] := by
  cases l with
  | nil => rfl
  | cons x xs =>
    unfold least at h
    split at h <;> cases h

/-- A check that gives no reason holds. -/
theorem chk_eq_nil {p : Prop} [Decidable p] {n : Nat} (h : chk p n = []) : p := by
  by_contra hp
  exact absurd h (by simp [chk, hp])

/-- A slot is judged to hold its instruction where no reason refuses it (R421). -/
theorem judge_eq_ok {o : Option Instr} {l : List Nat} {i : Instr} (h : judge o l = .ok i) : o = some i ∧ l = [] := by
  unfold judge at h
  split at h
  · next hl => cases h; exact ⟨rfl, least_eq_none hl⟩
  · cases h
  · cases h

/-- A vector slot decodes only to an instruction whose fields are the slot's (R110, R144). -/
theorem rawV_of_decodeV {r : RawV} {i : Instr} (h : decodeV r = .ok i) : rawV i = some r := by
  obtain ⟨hc, he⟩ := judge_eq_ok h
  unfold errsOfV at he
  simp only [hc] at he
  cases hr : rawV i with
  | none => simp [hr] at he
  | some e =>
    simp only [hr, lostV, List.append_eq_nil_iff] at he
    obtain ⟨⟨⟨⟨⟨⟨⟨⟨⟨⟨hty, hrm⟩, hxm⟩, ha⟩, hb⟩, hcc⟩, hsat⟩, hd⟩, hg⟩, hop⟩, -⟩ := he
    cases r; cases e
    simp only [Option.some.injEq, RawV.mk.injEq]
    exact ⟨(chk_eq_nil hop).symm, (chk_eq_nil hty).symm, (chk_eq_nil hrm).symm, (chk_eq_nil hsat).symm, (chk_eq_nil hg).symm,
      (chk_eq_nil hd).symm, (chk_eq_nil ha).symm, (chk_eq_nil hb).symm, (chk_eq_nil hcc).symm, (chk_eq_nil hxm).symm⟩

/-- A memory slot decodes only to an instruction whose fields are the slot's (R110, R171). -/
theorem rawM_of_decodeM {r : RawM} {i : Instr} (h : decodeM r = .ok i) : rawM i = some r := by
  obtain ⟨hc, he⟩ := judge_eq_ok h
  unfold errsOfM at he
  simp only [hc] at he
  cases hr : rawM i with
  | none => simp [hr] at he
  | some e =>
    simp only [hr, lostM, List.append_eq_nil_iff] at he
    obtain ⟨⟨⟨⟨⟨⟨⟨⟨⟨⟨⟨hty, hscope⟩, hord⟩, hro⟩, hdata⟩, hindex⟩, haux⟩, hbase⟩, hsc⟩, hg⟩, hop⟩, -⟩ := he
    cases r; cases e
    simp only [Option.some.injEq, RawM.mk.injEq]
    exact ⟨(chk_eq_nil hop).symm, (chk_eq_nil hty).symm, (chk_eq_nil hscope).symm, (chk_eq_nil hord).symm, (chk_eq_nil hg).symm,
      (chk_eq_nil hdata).symm, (chk_eq_nil hbase).symm, (chk_eq_nil hindex).symm, (chk_eq_nil haux).symm, (chk_eq_nil hro).symm,
      (chk_eq_nil hsc).symm⟩

/-- MX of an instruction's fields has 13 bits (R91). -/
theorem rawX_mx_lt {i : Instr} {e : RawX} (h : rawX i = some e) : e.mx < 8192 := by
  unfold rawX at h
  split at h
  case h_1 o => cases h; have := boolNat_lt o.ru; simp only; omega
  case h_2 o => cases h; have := o.set.isLt; have := o.half.isLt; simp only; omega
  case h_4 o | h_7 o | h_8 o | h_9 o | h_10 o => cases h; have := scopeCode_lt o.scope; simp only; omega
  case h_12 n => cases h; have := n.isLt; simp only; omega
  all_goals cases h <;> exact Nat.zero_lt_succ _

/-- Two values of 13 bits that agree in MX's four parts are equal (R205). -/
theorem mx_eq_of_parts {a b : Nat} (ha : a < 8192) (hb : b < 8192) (h0 : fld a 0 2 = fld b 0 2) (h2 : fld a 2 7 = fld b 2 7)
    (h9 : fld a 9 3 = fld b 9 3) (h12 : fld a 12 1 = fld b 12 1) : a = b := by
  simp only [fld] at *
  omega

/-- A copy-or-matrix slot decodes only to an instruction whose fields are the slot's (R110, R205). -/
theorem rawX_of_decodeX {r : RawX} {i : Instr} (hmx : r.mx < 8192) (h : decodeX r = .ok i) : rawX i = some r := by
  obtain ⟨hc, he⟩ := judge_eq_ok h
  unfold errsOfX at he
  simp only [hc] at he
  cases hr : rawX i with
  | none => simp [hr] at he
  | some e =>
    simp only [hr, lostX, List.append_eq_nil_iff] at he
    obtain ⟨⟨⟨⟨⟨⟨⟨⟨⟨⟨⟨⟨⟨⟨h0, h9⟩, h2⟩, h12⟩, hg⟩, hflag⟩, hfe⟩, hsx⟩, hsy⟩, hsz⟩, hva⟩, hzt⟩, hzu⟩, hop⟩, -⟩ := he
    have hm := mx_eq_of_parts hmx (rawX_mx_lt hr) (chk_eq_nil h0) (chk_eq_nil h2) (chk_eq_nil h9) (chk_eq_nil h12)
    cases r; cases e
    simp only [Option.some.injEq, RawX.mk.injEq]
    exact ⟨(chk_eq_nil hop).symm, (chk_eq_nil hg).symm, (chk_eq_nil hflag).symm, (chk_eq_nil hfe).symm, (chk_eq_nil hsx).symm,
      (chk_eq_nil hsy).symm, (chk_eq_nil hsz).symm, (chk_eq_nil hva).symm, (chk_eq_nil hzt).symm, (chk_eq_nil hzu).symm, hm.symm⟩

/-! The words of an instruction, and the word of a slot's fields. -/

/-- An instruction of the vector slot is encoded by its fields there. -/
theorem encode_of_rawV {i : Instr} {r : RawV} (h : rawV i = some r) : encode i = words64 (joinV r) := by
  simp only [encode, h]

/-- An instruction of the memory slot has no fields of the vector slot. -/
theorem rawV_of_rawM {i : Instr} {r : RawM} (h : rawM i = some r) : rawV i = none := by
  unfold rawM at h
  split at h <;> cases h <;> rfl

/-- An instruction of the memory slot is encoded by its fields there. -/
theorem encode_of_rawM {i : Instr} {r : RawM} (h : rawM i = some r) : encode i = words64 (joinM r) := by
  simp only [encode, rawV_of_rawM h, h]

/-- An instruction of the copy-or-matrix slot has no fields of the vector or the memory slot. -/
theorem rawV_rawM_of_rawX {i : Instr} {r : RawX} (h : rawX i = some r) : rawV i = none ∧ rawM i = none := by
  unfold rawX at h
  split at h <;> cases h <;> exact ⟨rfl, rfl⟩

/-- An instruction of the copy-or-matrix slot is encoded by its fields there. -/
theorem encode_of_rawX {i : Instr} {r : RawX} (h : rawX i = some r) : encode i = words64 (joinX r) := by
  obtain ⟨hv, hm⟩ := rawV_rawM_of_rawX h
  simp only [encode, hv, hm, h]

/-- The low bits of a word are a field and the bits below it. -/
theorem mod_pow_add_fld (w lo n : Nat) : w % 2 ^ (lo + n) = fld w lo n * 2 ^ lo + w % 2 ^ lo := by
  rw [fld, Nat.pow_add, Nat.mod_mul, Nat.add_comm, Nat.mul_comm]

/-- A vector slot word is the word of its fields (R88). -/
theorem joinV_splitV {w : Nat} (h : w < 2 ^ 64) : joinV (splitV w) = w := by
  simp only [joinV, splitV]
  conv_rhs => rw [← Nat.mod_eq_of_lt h, mod_pow_add_fld w 56 8, mod_pow_add_fld w 52 4, mod_pow_add_fld w 49 3,
    mod_pow_add_fld w 48 1, mod_pow_add_fld w 42 6, mod_pow_add_fld w 34 8, mod_pow_add_fld w 24 10,
    mod_pow_add_fld w 14 10, mod_pow_add_fld w 4 10, mod_pow_add_fld w 0 4]
  omega

/-- A memory slot word is the word of its fields (R90). -/
theorem joinM_splitM {w : Nat} (h : w < 2 ^ 64) : joinM (splitM w) = w := by
  simp only [joinM, splitM]
  conv_rhs => rw [← Nat.mod_eq_of_lt h, mod_pow_add_fld w 56 8, mod_pow_add_fld w 52 4, mod_pow_add_fld w 49 3,
    mod_pow_add_fld w 47 2, mod_pow_add_fld w 41 6, mod_pow_add_fld w 31 10, mod_pow_add_fld w 25 6,
    mod_pow_add_fld w 15 10, mod_pow_add_fld w 3 12, mod_pow_add_fld w 2 1, mod_pow_add_fld w 0 2]
  omega

/-- A copy-or-matrix slot word is the word of its fields (R91). -/
theorem joinX_splitX {w : Nat} (h : w < 2 ^ 64) : joinX (splitX w) = w := by
  simp only [joinX, splitX]
  conv_rhs => rw [← Nat.mod_eq_of_lt h, mod_pow_add_fld w 58 6, mod_pow_add_fld w 52 6, mod_pow_add_fld w 48 4,
    mod_pow_add_fld w 47 1, mod_pow_add_fld w 41 6, mod_pow_add_fld w 35 6, mod_pow_add_fld w 29 6, mod_pow_add_fld w 21 8,
    mod_pow_add_fld w 17 4, mod_pow_add_fld w 13 4, mod_pow_add_fld w 0 13]
  omega

/-- Settles O7: the decoder keeps only fields that the instruction gives back, and a slot word is the word of its fields. -/
theorem encodeDecode : Obligations.EncodeDecode := by
  refine ⟨fun w i hw h => ?_, fun w i hw h => ?_, fun w i hw h => ?_⟩
  · rw [encode_of_rawV (rawV_of_decodeV h), joinV_splitV hw]
  · rw [encode_of_rawM (rawM_of_decodeM h), joinM_splitM hw]
  · have hmx : (splitX w).mx < 8192 := Nat.mod_lt _ (by decide)
    rw [encode_of_rawX (rawX_of_decodeX hmx h), joinX_splitX hw]

end Sys2Proof.Machine
end
